-- ==== Sys2Proof/Word.lean ====
section
/-!
DEFINITION. The word types of the part (00_scope.md, Number and unit notation) and their plainest arithmetic.
A "word" has no fixed size across the manual: a register is 32 bits, a Tearell word 64, a parse data word 16.
-/

namespace Sys2Proof

/-- One byte. -/
abbrev Byte := BitVec 8
/-- A parse data word (chapter Parse Engines). -/
abbrev W16 := BitVec 16
/-- A register (R7). -/
abbrev W32 := BitVec 32
/-- A Tearell word, or a register of a thread. -/
abbrev W64 := BitVec 64

/-- Bits `lo … lo + width − 1` of a number. -/
def bitsOf (x lo width : Nat) : Nat := x / 2 ^ lo % 2 ^ width

/-- Bit `i` of a number, as a truth value. -/
def bitOf (x i : Nat) : Bool := x / 2 ^ i % 2 == 1

/-- A truth value as a number. -/
def b2n (b : Bool) : Nat := if b then 1 else 0

/-- Saturating addition at all ones of a width (R12). -/
def satAdd (width a b : Nat) : Nat := Nat.min (a + b) (2 ^ width - 1)

/-- Little-endian value of a list of bytes (R10). -/
def leNat : List Byte → Nat
  | [] => 0
  | b :: bs => b.toNat + 256 * leNat bs

/-- The low `n` bytes of a number, little-endian (R10). -/
def leBytes : Nat → Nat → List Byte
  | 0, _ => []
  | n + 1, x => BitVec.ofNat 8 x :: leBytes n (x / 256)

/-- Big-endian value of a list of bytes (R11: packet fields keep wire order). -/
def beNat (bs : List Byte) : Nat := leNat bs.reverse

/-- The low `n` bytes of a number, most significant first. -/
def beBytes (n x : Nat) : List Byte := (leBytes n x).reverse

/-- `n` bytes of a list starting at `off`, zero beyond its end. -/
def sliceB (bs : List Byte) (off n : Nat) : List Byte :=
  (List.range n).map fun i => bs.getD (off + i) 0#8

/-- The little-endian field of `n` bytes at `off` of a structure (R10). -/
def fieldLE (bs : List Byte) (off n : Nat) : Nat := leNat (sliceB bs off n)

/-- The structure `bs` with `new` laid over its bytes from `off`. -/
def overlay (bs : List Byte) (off : Nat) (new : List Byte) : List Byte :=
  bs.zipIdx.map fun (b, i) => if off ≤ i ∧ i < off + new.length then new.getD (i - off) 0#8 else b

/-- Ceiling division. -/
def ceilDiv (a b : Nat) : Nat := (a + b - 1) / b

end Sys2Proof
end

