-- ==== Sys2Proof/Machine/Operands.lean ====
section
/-!
DEFINITION. The operand types that the commands share.
-/

namespace Sys2Proof

/-- The four paths into register space (R28), in the order in which a block serves them within one cycle (R29). -/
inductive Path where
  | fw | hif0 | hif1 | oob
  deriving DecidableEq, Repr

/-- The code of a path in GLB_LOCK_VIOL_SRC.PATH. -/
def Path.code : Path → Nat
  | .fw => 0 | .hif0 => 1 | .hif1 => 2 | .oob => 3

/-- The ways in which a device read fails (R321, R357). -/
inductive ReadFail where
  | ur | ca | poisoned | timeout | hbm
  deriving DecidableEq, Repr

/-- How far a cipher job has come: to its end, to a number of bytes, or to a read that failed (R272, R277, R357). -/
inductive JobEnd where
  | whole
  | part (n : Nat)
  deriving DecidableEq, Repr

/-- What comes to metering and admission: a frame of the part, or one that device firmware sends on a port index, without its FCS
(R153, R188). -/
inductive Admitted where
  | frame (i : Nat)
  | firmware (p : Fin 64) (bytes : List Byte)
  deriving DecidableEq, Repr

/-- What a completion for a device read brings (R321, R334): data, a failure, or the host's refusal of the translation. -/
inductive Cpl where
  | data | ur | ca | poisoned | translation (x : Option (Nat × Bool × Bool))
  deriving DecidableEq, Repr

/-- What the partner of a link does wrong, as far as it freezes the link (R321). -/
inductive LinkError where
  | dllp | fc | rxOverflow | malformed | flitUncorr
  deriving DecidableEq, Repr

/-- A non-posted inbound memory or I/O request: a read of `n` DW, an AtomicOp, an I/O request (R317, R320). -/
inductive MemReq where
  | read (n : Nat)
  | atomic
  | io
  deriving DecidableEq, Repr

/-- The capabilities and features of R318. -/
inductive CfgCap where
  | express | powerManagement | msix | aer | ari | sriov | ats | pri | pasid
  | ltr | l1PmSubstates | secondary | phy16 | phy32 | phy64 | laneMargining | dataLinkFeature | flitLogging | serialNumber
  | relaxedOrdering | idOrdering | flr | tag10 | tag14
  | atomicOp | tph | ecrc | ide | doe | obff | resizableBar | multicast | ioSpace | msi | intx | aspmL0s | aspmL1 | l0p
  deriving DecidableEq, Repr

/-- The fields of a function's configuration space, by the names of the PCIe Base Specification (notes/assumptions/20). -/
inductive CfgField where
  | vendorId | deviceId | revisionId | classCode | subsystemVendorId | subsystemId | interruptPin
  | memorySpaceEnable | busMasterEnable | serrEnable
  /-- DW `i` of the BARs, and of the VF BARs of SR-IOV. -/
  | bar (i : Fin 6)
  | vfBar (i : Fin 6)
  | powerState | pmeEn | pmeStatus | pmeD3cold
  | maxPayload | maxPayloadSupported | maxReadRequest | relaxedOrdering | idOrdering | errorReporting
  | completionTimeout | ltrEnable | initiateFlr
  | msixEnable | msixMask | msixTableSize
  | aerUncorrStatus | aerUncorrMask | aerUncorrSeverity | aerCorrStatus | aerCorrMask
  | vfEnable | vfMemorySpaceEnable | numVfs | totalVfs | firstVfOffset | vfStride
  | atsEnable | atsQueueDepth | atsStu
  | ariNext | serialLow | serialHigh | aspmEnable
  /-- Link Capabilities 2 (R311); Control 1 and 2 of L1 PM Substates (R325); whether a capability or feature is there (R318). -/
  | linkCapabilities2 | l1PmControl1 | l1PmControl2
  | capability (c : CfgCap)
  deriving DecidableEq, Repr

/-- A message that arrives on a link: PME_Turn_Off, or one of a type that the device does not implement (R320, R324). -/
inductive InMsg where
  | pmeTurnOff | unsupported
  deriving DecidableEq, Repr

/-- A configuration request (R320, R327): a read or a write of a field, or a Type 1 request. -/
inductive CfgReq where
  | read (f : CfgField)
  | write (f : CfgField) (v : W32)
  | typeOne
  deriving DecidableEq, Repr

/-- The crossings of R426 that meet a one-side reset: of port n, of quadrant q, of the replaced kiln k, of host link l, of TIME and of
AON. -/
inductive Crossing where
  | rx (n : Fin 16) | core (q : Fin 4) | kiln (k : Fin 32) | hif (l : Fin 8) | time | aon
  deriving DecidableEq, Repr

/-- What a detector finds (R452, R458): a corrected error, in the HBM with the bank and row it lies in; an uncorrectable error,
in a cache one of a Modified line; a failure of the whole instance. `upset` is a stored word gone bad that nothing has read
yet: its next reader finds it. -/
inductive ErrKind where
  | corrected | row (bank : Fin 16) (row : Fin 65536) | uncorr | dirty | failed | upset
  deriving DecidableEq, Repr

/-- What the world outside supplies to the register commands that need it: the bytes that the host returns (RESTORE), what a
remote target answers (WRITE_NS), the lines Modified in a kiln (DECLARE_DEAD), and the bit errors of a lane test. -/
structure Aux where
  host : List Byte
  old : List Byte
  ok : Bool
  lost : List Nat
  errs : List Nat
  deriving DecidableEq, Repr

/-- Where an instruction's access finds its line (R238): in the core's own L1, or past it in the kiln's L2 or beyond; or the
instruction itself is in no L1I. -/
inductive CacheAt where
  | l1
  | missed (l2 : Bool)
  | noFetch (l2 : Bool)
  deriving DecidableEq, Repr

/-- A memory access through the JTAG TAP (R249). -/
inductive JtagReq where
  | read (a : Nat) (n : Nat)
  | write (a : Nat) (bytes : List Byte)
  deriving DecidableEq, Repr

/-- An owner (R32). -/
inductive OwnerRef where
  | saggar (s : Fin 2048) | chan (g : Fin 4096) | place (q : Fin 65536) | kiln (k : Fin 32)
  deriving DecidableEq, Repr

/-- A tagged item of R41, by the unit that holds it: a DMA read by its tag, the oldest glaze job that waits at the dispatcher, the oldest message in flight on a thread
channel, the job of a glaze engine or of a PKE unit, a frame given to a thread by its first cell, the oldest overdue storage
command of a saggar, a line that a thread has asked for, by its place among the thread's misses, and a DMA write that link `l` holds,
by its place. -/
inductive TaggedItem where
  | read (tag : Nat) | glazeWaiting | message (i : Fin 8192) | glaze (e : Fin 256) | pke (u : Fin 16)
  | frame (t : Fin 1024) (c : Fin 786432) | storage (s : Fin 2048)
  | line (t : Fin 1026) (i : Fin 32) | write (l : Fin 8) (i : Fin 4096)
  deriving DecidableEq, Repr

end Sys2Proof
end

