-- ==== Sys2Proof/Syntax.lean ====
section
/-!
DEFINITION. The commands of the part: one constructor per row of spec/opcode_table.json, with the operands each row
needs. A docstring gives the row's mnemonic, its rule and its summary. An operand that pairs a Path with a DMA channel or engine is
the path of a register write and the channel or engine whose register it is.
-/

namespace Sys2Proof

/-- The commands. -/
inductive Instr where
  /-- REGISTER_WRITE (R43): A software write to a register field that has no row of its own is applied under its access type. -/
  | registerWrite (p : Path) (w : Fin 16777216) (data : W32)
  /-- LOCK_VIOL_REPORT (R503): A lock violation report arrives in GLB through its crossing and updates the GLB_LOCK_VIOL registers in that NOC cycle. -/
  | lockViolReport
  /-- COUNTER_LOW_READ (R47): A read of the low half of a 64-bit CNT counter returns the live low half and latches the high half. -/
  | counterLowRead (p : Path) (w : Fin 16777216)
  /-- TIME_NOW_FRAC_READ (R198): A read of TIME_NOW_FRAC returns the live fraction and latches the NS, S_LO and S_HI registers. -/
  | timeNowFracRead (p : Path)
  /-- TIME_PPS_IN_FRAC_READ (R198): A read of TIME_PPS_IN_FRAC latches the other three PPS_IN registers. -/
  | timePpsInFracRead (p : Path)
  /-- BUMP_SPACING_EXPIRY (R36): The 16 µs spacing after an owner's last bump expires and a pending bump is applied. -/
  | bumpSpacingExpiry (o : OwnerRef)
  /-- ITEM_RESOLVE_LIMIT_EXPIRY (R41): A unit still holding a tagged item at its resolve limit abandons it and reports it through its own error path. -/
  | itemResolveLimitExpiry (item : TaggedItem)
  /-- LINK_UP (R58): Alignment, codeword lock and absence of faults have held for 10 µs, so the sub-port link comes up and scheduling resumes. -/
  | linkUp (n : Fin 16) (i : Fin 4)
  /-- LINK_DOWN (R58): One of the sub-port link conditions fails, so the link goes down, scheduling stops and a hold timer starts. -/
  | linkDown (n : Fin 16) (i : Fin 4) (align lock lf rf : Bool)
  /-- HOLD_EXPIRY (R69): The link-down hold expires with the link still down and the flush of the sub-port's queues begins. -/
  | holdExpiry (n : Fin 16) (i : Fin 4)
  /-- FLUSH_COMPLETE (R69): A flush of a sub-port's queues completes and scheduling resumes if the link has returned. -/
  | flushComplete (n : Fin 16) (i : Fin 4)
  /-- PORT_RESET (R70): A write of ETH_CTRL.PORT_RESET resets the port, flushes its queues, restores RWL fields and re-applies its preload entries. -/
  | portReset (p : Path) (n : Fin 16) (data : W32)
  /-- PORT_ENABLE (R46): A write of ETH_CTRL.ENABLE enables the port and locks its RWL fields, or with 0 turns its transmitters off. -/
  | portEnable (p : Path) (n : Fin 16) (data : W32)
  /-- LOOPBACK_CHANGE (R71): A change of ETH_CTRL.LOOPBACK brings every sub-port link of the port down to requalify in the new setting. -/
  | loopbackChange (p : Path) (n : Fin 16) (data : W32)
  /-- RX_CLK_SWITCH (R420): The source of RX_Pn switches without a glitch to another lane or to the reference oscillator. -/
  | rxClkSwitch (n : Fin 16)
  /-- ALLOCATION_CONDITION (R75): A frame has 68 bytes received or has ended, so its header enters the 28-cycle crossing and its place in order is fixed. -/
  | allocationCondition (n : Fin 16) (i : Fin 4) (bytes : List Byte) (lag : Nat) (ended : Bool)
  /-- OVERSIZE_DETECT (R64): Byte MAX_FRAME + 1 of a frame arrives, so a store-and-forward frame is dropped or a cut-through frame is stomped. -/
  | oversizeDetect (n : Fin 16) (i : Fin 4) (bytes : List Byte)
  /-- CUT_THROUGH_TX_START (R60): Byte 256 or the frame end has been received, so egress transmission of a cut-through frame may begin. -/
  | cutThroughTxStart (n : Fin 16) (i : Fin 4) (bytes : List Byte)
  /-- FRAME_END (R64): A received frame ends; its FCS and code status are judged and it is forwarded, stomped or discarded. -/
  | frameEnd (n : Fin 16) (i : Fin 4) (bytes : List Byte) (lag : Nat) (code : Bool) (corr uncorr : Nat)
  /-- TX_FRAME_COMPLETE (R142): The last byte of a frame is transmitted and its cells return to the pool. -/
  | txFrameComplete (n : Fin 16) (i : Fin 4)
  /-- MGMT_FRAME_RX (R74): A frame received on the management lane is passed to device firmware or discarded. -/
  | mgmtFrameRx (bytes : List Byte)
  /-- ENGINE_ALLOCATION (R76): A frame reaching the parse engines, or leaving the parse queue, is given the lowest free engine or queued or discarded. -/
  | engineAllocation (k : Fin 8)
  /-- NOP (R84): Parse instruction NOP does nothing. -/
  | parseNop (k : Fin 8) (e : Fin 64)
  /-- ADD (R84): Parse instruction ADD adds two registers and sets the flags. -/
  | parseAdd (k : Fin 8) (e : Fin 64)
  /-- SUB (R84): Parse instruction SUB subtracts two registers and sets the flags. -/
  | parseSub (k : Fin 8) (e : Fin 64)
  /-- AND (R84): Parse instruction AND ands two registers. -/
  | parseAnd (k : Fin 8) (e : Fin 64)
  /-- OR (R84): Parse instruction OR ors two registers. -/
  | parseOr (k : Fin 8) (e : Fin 64)
  /-- XOR (R84): Parse instruction XOR exclusive-ors two registers. -/
  | parseXor (k : Fin 8) (e : Fin 64)
  /-- SHL (R84): Parse instruction SHL shifts a register left by a register amount. -/
  | parseShl (k : Fin 8) (e : Fin 64)
  /-- SHR (R84): Parse instruction SHR shifts a register right logically by a register amount. -/
  | parseShr (k : Fin 8) (e : Fin 64)
  /-- ADDI (R84): Parse instruction ADDI adds an immediate. -/
  | parseAddi (k : Fin 8) (e : Fin 64)
  /-- SUBI (R84): Parse instruction SUBI subtracts an immediate. -/
  | parseSubi (k : Fin 8) (e : Fin 64)
  /-- ANDI (R84): Parse instruction ANDI ands an immediate. -/
  | parseAndi (k : Fin 8) (e : Fin 64)
  /-- ORI (R84): Parse instruction ORI ors an immediate. -/
  | parseOri (k : Fin 8) (e : Fin 64)
  /-- XORI (R84): Parse instruction XORI exclusive-ors an immediate. -/
  | parseXori (k : Fin 8) (e : Fin 64)
  /-- SHLI (R84): Parse instruction SHLI shifts left by an immediate amount. -/
  | parseShli (k : Fin 8) (e : Fin 64)
  /-- SHRI (R84): Parse instruction SHRI shifts right by an immediate amount. -/
  | parseShri (k : Fin 8) (e : Fin 64)
  /-- MOVI (R84): Parse instruction MOVI loads an immediate into a register. -/
  | parseMovi (k : Fin 8) (e : Fin 64)
  /-- CMP (R84): Parse instruction CMP sets the flags from the difference of two registers. -/
  | parseCmp (k : Fin 8) (e : Fin 64)
  /-- CMPI (R84): Parse instruction CMPI sets the flags from a register minus an immediate. -/
  | parseCmpi (k : Fin 8) (e : Fin 64)
  /-- TSTI (R84): Parse instruction TSTI sets the flags from a register and an immediate. -/
  | parseTsti (k : Fin 8) (e : Fin 64)
  /-- LDB (R94): Parse instruction LDB loads a window byte, stalling, ending OVER_END or ending WINDOW as the address requires. -/
  | parseLdb (k : Fin 8) (e : Fin 64)
  /-- LDH (R94): Parse instruction LDH loads two window bytes big-endian, stalling or ending malformed as the address requires. -/
  | parseLdh (k : Fin 8) (e : Fin 64)
  /-- EXT (R84): Parse instruction EXT extracts a bit field from a register. -/
  | parseExt (k : Fin 8) (e : Fin 64)
  /-- GETS (R88): Parse instruction GETS reads the port index, pipeline number or a parse constant. -/
  | parseGets (k : Fin 8) (e : Fin 64)
  /-- ST (R89): Parse instruction ST writes a register into a record word. -/
  | parseSt (k : Fin 8) (e : Fin 64)
  /-- STI (R89): Parse instruction STI writes an immediate into a record word. -/
  | parseSti (k : Fin 8) (e : Fin 64)
  /-- B (R87): Parse instruction B branches when its condition holds. -/
  | parseB (k : Fin 8) (e : Fin 64)
  /-- SETX (R84): Parse instruction SETX sets the user flag. -/
  | parseSetx (k : Fin 8) (e : Fin 64)
  /-- CLRX (R84): Parse instruction CLRX clears the user flag. -/
  | parseClrx (k : Fin 8) (e : Fin 64)
  /-- DONE (R91): Parse instruction DONE ends the parse with a valid record and its exit code. -/
  | parseDone (k : Fin 8) (e : Fin 64)
  /-- REJECT (R91): Parse instruction REJECT ends the parse as malformed with cause REJECT. -/
  | parseReject (k : Fin 8) (e : Fin 64)
  /-- ILLEGAL_INSTRUCTION (R83): A fetched illegal or uncorrectable instruction word ends the parse as malformed with cause ILLEGAL or IMEM. -/
  | illegalInstruction (k : Fin 8) (e : Fin 64)
  /-- PARSE_LOAD_RESUME (R80): A stalled load's byte becomes readable or the frame ends, so the load completes or the parse ends OVER_END. -/
  | parseLoadResume (k : Fin 8) (e : Fin 64) (bytes : List Byte)
  /-- PARSE_BUDGET_EXHAUSTED (R91): The instruction count reaches BUDGET and the parse ends malformed with cause BUDGET. -/
  | parseBudgetExhausted (k : Fin 8) (e : Fin 64)
  /-- PARSE_RECORD_HANDOFF (R98): After the 28-cycle record check a parse record leaves the parse stage in allocation order and its counters are taken. -/
  | parseRecordHandoff (a : Fin 8 × List Byte)
  /-- PARSE_ENTRY_WRITE (R102): A write of PL_PARSE_ENTRY sets the program start for frames allocated from then on. -/
  | parseEntryWrite (p : Path) (k : Fin 8) (data : W32)
  /-- PARSE_ENABLE (R103): A write of PL_PARSE_CTRL.ENABLE starts parsing and locks BUDGET, or with 0 stops new parses. -/
  | parseEnable (p : Path) (k : Fin 8) (data : W32)
  /-- CLASSIFICATION (R105): A valid record arrives at classification and the rule, exact-match, LPM and learn lookups are made. -/
  | classification (k : Fin 8)
  /-- CLASSIFICATION_COMPLETE (R109): 105 cycles after arrival the actions are decided and the frame goes to metering, the punt queue or a placement. -/
  | classificationComplete (k : Fin 8)
  /-- CLASSIFY_ENABLE (R46): A write of PL_CLS_CTRL.ENABLE starts classification and locks its RWL fields. -/
  | classifyEnable (p : Path) (k : Fin 8) (data : W32)
  /-- LEARN_COMMIT (R127): The learn arbiter decides a queued learn request against the current table and inserts, moves or refuses it. -/
  | learnCommit
  /-- EM_INSERT (R119): Table command EM_INSERT inserts or replaces a static exact-match entry. -/
  | emInsert (g : Fin 4096)
  /-- EM_DELETE (R120): Table command EM_DELETE deletes an entry by key and relocates an overflow entry into the freed way. -/
  | emDelete (g : Fin 4096)
  /-- EM_READ (R130): Table command EM_READ returns the entry for a key and its location. -/
  | emRead (g : Fin 4096)
  /-- EM_READ_LOC (R133): Table command EM_READ_LOC returns the entry at a location. -/
  | emReadLoc (g : Fin 4096)
  /-- EM_CLEAR_HIT (R130): Table command EM_CLEAR_HIT clears the HIT bit of an entry. -/
  | emClearHit (g : Fin 4096)
  /-- LPM_WRITE (R124): Table command LPM_WRITE writes a whole LPM entry, invalidating entries it covers. -/
  | lpmWrite (g : Fin 4096)
  /-- LPM_MOVE (R124): Table command LPM_MOVE copies an entry to a free destination and invalidates the source in one cycle. -/
  | lpmMove (g : Fin 4096)
  /-- LPM_INVALIDATE (R124): Table command LPM_INVALIDATE clears an LPM entry. -/
  | lpmInvalidate (g : Fin 4096)
  /-- LPM_READ (R124): Table command LPM_READ returns an LPM entry. -/
  | lpmRead (g : Fin 4096)
  /-- RULE_WRITE (R132): Table command RULE_WRITE writes a whole rule into one or all pipelines. -/
  | ruleWrite (g : Fin 4096)
  /-- RULE_READ (R130): Table command RULE_READ returns a rule. -/
  | ruleRead (g : Fin 4096)
  /-- SCRUB_READ (R135): The scrubber reads its next entry through the maintenance port and invalidates it if its parity is bad. -/
  | scrubRead
  /-- TABLE_ENABLE (R46): A write of TBL_CTRL.ENABLE enables the tables and locks their RWL fields. -/
  | tableEnable (p : Path) (data : W32)
  /-- PUNT_DELIVER (R228): A punt queue frame is delivered as a handle to the target thread's inbox once it has room. -/
  | puntDeliver (k : Fin 8)
  /-- METER_ADMIT (R153): In the first cycle of metering and admission a frame is stream-filtered, metered and admitted, spilled or refused. -/
  | meterAdmit (x : Admitted)
  /-- ENQUEUE (R152): An admitted frame becomes visible to the scheduler at the end of the stage or when a store-and-forward frame ends. -/
  | enqueue (i : Nat)
  /-- SPILL_FETCH_START (R157): The spill engine starts fetching a spilled frame once the queue's on-die occupancy falls below its fetch level. -/
  | spillFetchStart (q : Fin 65536)
  /-- SPILL_FETCH_COMPLETE (R157): A spill fetch completes and the frame joins its queue, or is discarded on an HBM error. -/
  | spillFetchComplete (q : Fin 65536) (uncorr : Bool)
  /-- READ_Q (R159): Indirect operation READ_Q fills BUF_IND_DATA with a queue entry. -/
  | readQ (p : Path) (data : W32)
  /-- WRITE_Q (R159): Indirect operation WRITE_Q writes the configuration bytes of a queue entry. -/
  | writeQ (p : Path) (data : W32)
  /-- READ_M (R159): Indirect operation READ_M fills BUF_IND_DATA with a meter entry. -/
  | readM (p : Path) (data : W32)
  /-- WRITE_M (R159): Indirect operation WRITE_M writes a meter configuration, filling or capping its buckets. -/
  | writeM (p : Path) (data : W32)
  /-- CLEAR_Q_CNT (R159): Indirect operation CLEAR_Q_CNT zeroes a queue entry's counters. -/
  | clearQCnt (p : Path) (data : W32)
  /-- CLEAR_M_CNT (R159): Indirect operation CLEAR_M_CNT zeroes a meter entry's counters. -/
  | clearMCnt (p : Path) (data : W32)
  /-- BUFFER_ENABLE (R155): A write of BUF_CTRL.ENABLE enables admission, checks the spill region and locks the RWL fields. -/
  | bufferEnable (p : Path) (data : W32)
  /-- DEQUEUE_DECISION (R166): The traffic manager slice picks the next frame for the sub-port whose transmitter falls free soonest. -/
  | dequeueDecision (k : Fin 8)
  /-- READ_NODE (R195): Indirect operation READ_NODE returns a scheduling node entry. -/
  | readNode (p : Path) (data : W32)
  /-- WRITE_NODE (R173): Indirect operation WRITE_NODE writes a node entry, refused when it moves a node holding frames. -/
  | writeNode (p : Path) (data : W32)
  /-- READ_SF (R196): Indirect operation READ_SF returns a stream filter entry. -/
  | readSf (p : Path) (data : W32)
  /-- WRITE_SF (R196): Indirect operation WRITE_SF writes a stream filter and clears BLOCKED. -/
  | writeSf (p : Path) (data : W32)
  /-- CLEAR_SF_CNT (R196): Indirect operation CLEAR_SF_CNT zeroes a stream filter's counters. -/
  | clearSfCnt (p : Path) (data : W32)
  /-- TM_ENABLE (R46): A write of TM_CTRL.ENABLE enables scheduling and stream filtering and locks the RWL fields. -/
  | tmEnable (p : Path) (data : W32)
  /-- GATE_TRANSITION (R177): Network time reaches the end of a gate list interval and the next entry's gate states take effect. -/
  | gateTransition (g : Fin 272)
  /-- CONFIG_CHANGE (R180): A write of GATE_CTRL.CONFIG_CHANGE latches the administrative values and computes the change time, or refuses them. -/
  | gateConfigChange (p : Path) (g : Fin 272) (data : W32)
  /-- CANCEL (R181): A write of GATE_CTRL.CANCEL drops a pending gate list change. -/
  | gateCancel (p : Path) (g : Fin 272) (data : W32)
  /-- GATE_ENABLE (R178): A write of GATE_CTRL.GATE_EN runs the operational list or returns the gates to IDLE_GATES. -/
  | gateEnable (p : Path) (g : Fin 272) (data : W32)
  /-- GATE_LIST_SWAP (R180): Network time reaches the change time and the administrative list becomes operational. -/
  | gateListSwap (g : Fin 272)
  /-- STEP (R187): TIME_CMD.STEP loads network time from the TIME_SET registers and recomputes gate list positions. -/
  | timeStep (p : Path) (data : W32)
  /-- OFFSET (R187): TIME_CMD.OFFSET adds a signed offset to network time. -/
  | timeOffset (p : Path) (data : W32)
  /-- KICK (R192): TIME_SYNC.KICK puts the time unit in LOCKED or restarts its TIMEOUT_S count. -/
  | timeKick (p : Path) (data : W32)
  /-- FORCE_HOLDOVER (R192): TIME_SYNC.FORCE_HOLDOVER moves a LOCKED time unit to HOLDOVER. -/
  | forceHoldover (p : Path) (data : W32)
  /-- SYNC_TIMEOUT (R192): TIMEOUT_S seconds pass in LOCKED without KICK and the time unit enters HOLDOVER. -/
  | syncTimeout
  /-- HOLDOVER_EXPIRY (R192): HOLDOVER_LIMIT seconds pass in HOLDOVER and the time unit enters EXPIRED, applying GATE_ON_LOSS. -/
  | holdoverExpiry
  /-- GATE_ON_LOSS_WRITE (R193): A write of TIME_HOLD.GATE_ON_LOSS changes the loss behaviour of the gates from the next PIPE cycle. -/
  | gateOnLossWrite (p : Path) (data : W32)
  /-- GATE_LIST_RESUME (R193): A gate list held by a loss state resumes at its next cycle boundary. -/
  | gateListResume (g : Fin 272)
  /-- PPS_OUT_PULSE (R190): Network time reaches a whole second plus PPS_OUT_OFS and PPS_OUT rises. -/
  | ppsOutPulse
  /-- PPS_OUT_FALL (R190): WIDTH_US after a rise PPS_OUT falls. -/
  | ppsOutFall
  /-- PPS_IN_EDGE (R191): A chosen edge of PPS_IN latches network time and sets TIME_EVENT.PPS_IN. -/
  | ppsInEdge (edge : Bool × Nat)
  /-- RV_INSTRUCTION (R199): A thread issues a standard RISC-V instruction in its slot or a free slot. -/
  | rvInstruction (t : Fin 1026) (c : CacheAt) (x : Aux)
  /-- FP_INSTRUCTION (R252): A thread issues a floating-point instruction, with DAZ and FTZ applied under xfpctl. -/
  | fpInstruction (t : Fin 1026) (c : CacheAt) (x : Aux)
  /-- WFI (R201): WFI makes the thread wait until an enabled interrupt is pending, or traps under mstatus.TW. -/
  | wfi (t : Fin 1026)
  /-- INTERRUPT_WAKE (R212): An enabled interrupt becomes pending and ends a WFI, TWAIT, TPAUSE or blocked instruction. -/
  | interruptWake (t : Fin 1026)
  /-- TSTART (R211): TSTART enables a disabled thread of the core at a start address. -/
  | tstart (t : Fin 1026)
  /-- TSTOP (R211): TSTOP disables a thread at an instruction boundary. -/
  | tstop (t : Fin 1026)
  /-- TWAIT (R212): TWAIT makes the thread wait until a selected endpoint or its inbox is non-empty. -/
  | twait (t : Fin 1026)
  /-- TWAIT_WAKE (R212): A selected source of a waiting TWAIT becomes non-empty and the thread is ready again. -/
  | twaitWake (t : Fin 1026)
  /-- TPAUSE (R212): TPAUSE makes the thread not ready for a number of cycles. -/
  | tpause (t : Fin 1026)
  /-- TPAUSE_EXPIRY (R212): The TPAUSE cycle count expires and the thread is ready again. -/
  | tpauseExpiry (t : Fin 1026)
  /-- CHSEND (R215): CHSEND enters a message into a send FIFO, blocking while it is full or trapping when unbound. -/
  | chsend (t : Fin 1026)
  /-- CHSENDNB (R215): CHSENDNB tries to send a message and reports its status. -/
  | chsendnb (t : Fin 1026)
  /-- CHRECV (R216): CHRECV takes a message from a receive FIFO, blocking while it is empty. -/
  | chrecv (t : Fin 1026)
  /-- CHRECVNB (R215): CHRECVNB tries to take a message and reports its status in chstat.LAST. -/
  | chrecvnb (t : Fin 1026)
  /-- PKRECV (R214): PKRECV takes a handle from the packet inbox, blocking while it is empty. -/
  | pkrecv (t : Fin 1026)
  /-- PKRECVNB (R214): PKRECVNB takes a handle from the packet inbox or returns 0. -/
  | pkrecvnb (t : Fin 1026)
  /-- PKSEND (R227): PKSEND returns a frame with its verdict through the thread's return queue, blocking while it is full. -/
  | pksend (t : Fin 1026)
  /-- CHANNEL_MESSAGE_LEAVE (R217): A message leaves its send FIFO when the channel holds credit, lowering the credit count. -/
  | channelMessageLeave (c : Fin 8192)
  /-- CHANNEL_MESSAGE_ARRIVE (R218): A message arrives in its receive FIFO and completes a blocked receive. -/
  | channelMessageArrive (c : Fin 8192)
  /-- CREDIT_ARRIVE (R217): A returned credit arrives at the send side and raises the credit count. -/
  | creditArrive (c : Fin 8192)
  /-- CHAN_BIND (R222): Core command CHAN_BIND binds a channel between two endpoints with 8 credits. -/
  | chanBind (g : Fin 4096)
  /-- CHAN_UNBIND (R223): Core command CHAN_UNBIND closes the send side and waits for traffic in flight. -/
  | chanUnbind (g : Fin 4096)
  /-- CHAN_UNBIND_COMPLETE (R223): Once nothing of the channel is in flight the unbind completes, unbinding or returning NOT_EMPTY. -/
  | chanUnbindComplete (c : Fin 8192)
  /-- CHAN_READ (R221): Core command CHAN_READ returns a channel entry. -/
  | chanRead (g : Fin 4096)
  /-- PLACE_SET (R230): Core command PLACE_SET sets a placement entry, starting a migration when it changes a valid entry. -/
  | placeSet (g : Fin 4096)
  /-- PLACE_CLEAR (R230): Core command PLACE_CLEAR clears a placement entry through a migration. -/
  | placeClear (g : Fin 4096)
  /-- PLACE_READ (R232): Core command PLACE_READ returns a placement entry with its counters. -/
  | placeRead (g : Fin 4096)
  /-- PLACE_CLEAR_CNT (R221): Core command PLACE_CLEAR_CNT zeroes a placement entry's counters. -/
  | placeClearCnt (g : Fin 4096)
  /-- CORE_STATS (R233): Core command CORE_STATS returns the core counters. -/
  | coreStats (g : Fin 4096)
  /-- CORE_STATS_CLEAR (R233): Core command CORE_STATS_CLEAR zeroes the core counters. -/
  | coreStatsClear (g : Fin 4096)
  /-- PLACEMENT_DELIVERY (R225): A placed frame that has ended with a good FCS is delivered as a handle to its thread's inbox, or held or discarded. -/
  | placementDelivery (q : Fin 65536)
  /-- DRAIN_MARKER_DELIVERY (R230): Once all earlier frames of a moving entry are delivered, the drain marker enters the old thread's inbox. -/
  | drainMarkerDelivery (q : Fin 65536)
  /-- PACKET_RETURN (R227): A returned frame reaches the pipeline return port, is checked by firing number and verdict and enters metering or is freed. -/
  | packetReturn (t : Fin 1026)
  /-- MIGRATION_HOLD_TIMEOUT (R230): 1 ms after acceptance a migration hold ends by its limit. -/
  | migrationHoldTimeout (q : Fin 65536)
  /-- PLACED_FRAME_ABANDON (R228): A delivered frame not returned within 1 s is abandoned and its cells freed. -/
  | placedFrameAbandon (t : Fin 1024) (c : Fin 786432)
  /-- LINE_FILL (R238): A cache miss returns its line, or a poisoned line raises a load access fault. -/
  | lineFill (t : Fin 1026) (fill : Fin 32 × Bool × Option Nat)
  /-- ENCRYPT (R270): Glaze job ENCRYPT starts on an engine, consuming an invocation counter value where the mode uses one. -/
  | glzEncrypt
  /-- DECRYPT (R275): Glaze job DECRYPT starts on an engine and checks the tag under the context's policy. -/
  | glzDecrypt
  /-- HASH (R278): Glaze job HASH starts on an engine and computes a digest. -/
  | glzHash
  /-- HMAC (R260): Glaze job HMAC starts on an engine and computes an HMAC. -/
  | glzHmac
  /-- KC_LOAD (R266): Key command KC_LOAD writes a key context from attributes and key. -/
  | kcLoad (g : Fin 4096) (host : List Byte)
  /-- KC_GENERATE (R266): Key command KC_GENERATE writes a key context with random key material. -/
  | kcGenerate (g : Fin 4096) (host : List Byte)
  /-- KC_UNWRAP (R266): Key command KC_UNWRAP unwraps a blob into a key context. -/
  | kcUnwrap (g : Fin 4096) (host : List Byte)
  /-- KC_EXPORT (R266): Key command KC_EXPORT writes a blob and invalidates the source context. -/
  | kcExport (g : Fin 4096)
  /-- KC_INVALIDATE (R266): Key command KC_INVALIDATE invalidates a context and zeroes its key. -/
  | kcInvalidate (g : Fin 4096)
  /-- KC_READ_ATTR (R266): Key command KC_READ_ATTR writes a context's attributes. -/
  | kcReadAttr (g : Fin 4096)
  /-- KC_MISS_FILL (R268): A key-context cache miss completes its HBM fetch and unwrap. -/
  | kcMissFill (e : Fin 256)
  /-- GLAZE_JOB_COMPLETE (R272): A glaze job ends, its outputs and job block are written and its engine is freed. -/
  | glazeJobComplete (e : Fin 256) (src aad tag : Unit) (fin : JobEnd)
  /-- GLAZE_DISPATCH_TIMEOUT (R262): A lookaside job not started within 18 ms is abandoned with TIMEOUT. -/
  | glazeDispatchTimeout
  /-- GLAZE_JOB_TIMEOUT (R262): A started job not completed 100 ms after hand-over is abandoned with TIMEOUT. -/
  | glazeJobTimeout (e : Fin 256)
  /-- INLINE_START (R280): A frame leaves the inline queue for a free inline engine. -/
  | inlineStart
  /-- INLINE_TRANSFORM (R285): An inline transform ends and the frame is forwarded or discarded. -/
  | inlineTransform (e : Fin 256)
  /-- READ_IXT (R281): Indirect operation READ_IXT returns an inline transform entry. -/
  | readIxt (p : Path) (data : W32)
  /-- WRITE_IXT (R281): Indirect operation WRITE_IXT writes an inline entry and clears its replay state. -/
  | writeIxt (p : Path) (data : W32)
  /-- CLEAR_IXT_CNT (R281): Indirect operation CLEAR_IXT_CNT zeroes an inline entry's counters. -/
  | clearIxtCnt (p : Path) (data : W32)
  /-- GLZ_KC_BASE_WRITE (R155): A write of GLZ_KC_BASE moves the key-context region unless it would overlap spill or a saggar range. -/
  | glzKcBaseWrite (p : Path) (data : W32)
  /-- GLAZE_ENABLE (R46): A write of GLZ_CTRL.ENABLE enables the glaze engines and locks the RWL fields. -/
  | glazeEnable (p : Path) (data : W32)
  /-- PK_KEYGEN (R294): PKE job PK_KEYGEN starts on a unit and generates a key pair and blob. -/
  | pkKeygen
  /-- PK_IMPORT (R291): PKE job PK_IMPORT validates a plaintext key and wraps it into a blob. -/
  | pkImport
  /-- PK_SIGN (R299): PKE job PK_SIGN signs a digest or message in fixed time. -/
  | pkSign (host : List Byte)
  /-- PK_VERIFY (R301): PKE job PK_VERIFY validates public inputs and verifies a signature. -/
  | pkVerify
  /-- PK_AGREE (R303): PKE job PK_AGREE computes a shared secret. -/
  | pkAgree (host : List Byte)
  /-- PK_RSA_PUB (R304): PKE job PK_RSA_PUB applies the RSA public primitive. -/
  | pkRsaPub
  /-- PK_RSA_PRIV (R300): PKE job PK_RSA_PRIV applies the RSA private primitive and checks it. -/
  | pkRsaPriv (host : List Byte)
  /-- PK_ENCAPS (R305): PKE job PK_ENCAPS encapsulates a shared secret. -/
  | pkEncaps
  /-- PK_DECAPS (R300): PKE job PK_DECAPS decapsulates with implicit rejection. -/
  | pkDecaps (host : List Byte)
  /-- PKE_JOB_COMPLETE (R298): A PKE job ends after its fixed cycles and writes its outputs and job block. -/
  | pkeJobComplete (u : Fin 16) (key inn in2 : Unit) (fault : Bool) (fail : Unit)
  /-- PKE_DISPATCH_TIMEOUT (R297): A PKE job not started within 1.8 s returns TIMEOUT. -/
  | pkeDispatchTimeout
  /-- PKE_JOB_TIMEOUT (R297): A started PKE job not completed 2.0 s after hand-over returns TIMEOUT. -/
  | pkeJobTimeout (u : Fin 16)
  /-- PKE_ENABLE (R295): A write of PKE_CTRL.ENABLE enables the public-key units. -/
  | pkeEnable (p : Path) (data : W32)
  /-- HIF_DL_ACTIVE (R308): A host link trains and reaches DL_Active. -/
  | hifDlActive (l : Fin 8) (speed width : Nat) (flit : Bool)
  /-- HIF_DL_DOWN (R326): A host link that was active goes DL_Down and freezes. -/
  | hifDlDown (l : Fin 8)
  /-- LINK_PROTOCOL_ERROR (R321): A link protocol, overflow, malformed or uncorrectable flit error sends an error message and freezes the link. -/
  | linkProtocolError (l : Fin 8) (k : LinkError)
  /-- CONTROLLER_INTERNAL_ERROR (R321): An uncorrectable error in shared controller logic freezes every link of the controller. -/
  | controllerInternalError (n : Fin 2)
  /-- INBOUND_MEMORY_WRITE (R320): An inbound memory write is applied to its BAR, discarded while frozen, or handled as unsupported. -/
  | inboundMemoryWrite (l : Fin 8) (addr : Nat) (dws : List (Option W32)) (poisoned : Bool) (x : Aux)
  /-- INBOUND_MEMORY_READ (R320): An inbound memory read is served, aborted while frozen, or completed with UR. -/
  | inboundMemoryRead (l : Fin 8) (addr : Nat) (r : MemReq)
  /-- CONFIGURATION_REQUEST (R327): A configuration request is served, including while the link is frozen. -/
  | configurationRequest (l : Fin 8) (f : Fin 2048) (bus : Fin 256) (r : CfgReq)
  /-- READ_COMPLETION (R321): A completion for a device read arrives and is used, or stops the engine on an error, or is discarded if unexpected. -/
  | readCompletion (l : Fin 8) (tag : Nat) (st : Cpl) (bytes : List Byte)
  /-- COMPLETION_TIMEOUT (R319): A device read stays outstanding for the completion timeout and fails. -/
  | completionTimeout (l : Fin 8) (tag : Nat)
  /-- POSTED_WRITE_ACK (R328): The link partner acknowledges the flit carrying a posted write, so the write counts as done. -/
  | postedWriteAck (l : Fin 8)
  /-- FLR (R322): A function level reset resets the function's channels or saggar, or is deferred while frozen. -/
  | hifFlr (l : Fin 8) (f : Fin 2048)
  /-- POWER_STATE_CHANGE (R323): A function enters or leaves D3hot or has Bus Master Enable changed, pausing or resuming its channels. -/
  | powerStateChange (l : Fin 8) (f : Fin 2048) (d3hot bme : Bool)
  /-- PERST_ASSERT (R324): PERSTn_N is asserted, entering D3cold in order or taking every link of the controller down. -/
  | perstAssert (n : Fin 2)
  /-- PERST_DEASSERT (R324): PERSTn_N is deasserted and the links of the controller train. -/
  | perstDeassert (n : Fin 2)
  /-- HOT_RESET (R310): A hot reset or link disable received on one host link resets that link alone. -/
  | hotReset (l : Fin 8)
  /-- ASPM_L1_ENTRY (R325): A link that has carried no TLP for 10 µs enters ASPM L1. -/
  | aspmL1Entry (l : Fin 8) (st : Fin 3)
  /-- L0P_WIDTH_CHANGE (R325): A link reduces or restores its width through L0p according to offered traffic. -/
  | l0pWidthChange (l : Fin 8) (need : Nat)
  /-- FREEZE_REL (R329): A write of HIF_FREEZE_m.FREEZE_REL releases a frozen link, or is refused or ignored. -/
  | freezeRel (p : Path) (l : Fin 8) (data : W32)
  /-- FIRMWARE_FREEZE_RELEASE (R329): Device firmware releases a frozen link after 100 ms in L0 when FW_REL permits. -/
  | firmwareFreezeRelease (l : Fin 8)
  /-- HIF_ENABLE (R46): A write of HIF_CTRL.ENABLE ends controller set-up and locks its RWL fields. -/
  | hifEnable (p : Path) (n : Fin 2) (data : W32)
  /-- DB_TAIL (R349): A doorbell write of DB_TAIL advances TAIL, or is ignored as stale or bad. -/
  | dbTail (g : Fin 4096) (data : W32)
  /-- DB_IRQ (R350): A doorbell write of DB_IRQ arms the channel interrupt with NEXT. -/
  | dbIrq (g : Fin 4096) (data : W32)
  /-- DESCRIPTOR_READ_RETURN (R339): Prefetched descriptors return and those owned by the device are taken, or the channel stalls on OWN. -/
  | descriptorReadReturn (g : Fin 4096) (uncorr : Bool)
  /-- TX_DESCRIPTOR (R342): A TX descriptor is processed, reading frame bytes into cells for a frame of up to 16 descriptors. -/
  | txDescriptor (g : Fin 4096)
  /-- RX_DESCRIPTOR (R343): An RX descriptor is posted as a buffer for its channel's host queue. -/
  | rxDescriptor (g : Fin 4096)
  /-- COPY_DESCRIPTOR (R344): A COPY descriptor moves bytes between two addresses, optionally through a glaze job. -/
  | copyDescriptor (g : Fin 4096)
  /-- BLOCK_DESCRIPTOR (R345): A TABLE, CORE, GLAZE or PKE descriptor hands its 128-byte block to its unit. -/
  | blockDescriptor (g : Fin 4096)
  /-- DMA_READ_RETURN (R352): Data of a DMA read returns and is written to its target, or a failure stops the engine. -/
  | dmaReadReturn (g : Fin 4096) (uncorr : Bool)
  /-- TX_FRAME_ADMIT (R342): A DMA transmit frame whose bytes are all read enters metering and admission and its completions are decided. -/
  | txFrameAdmit (g : Fin 4096)
  /-- RX_FRAME_DELIVERY (R343): An RX channel holding a posted buffer dequeues a frame from its host queue and writes it. -/
  | rxFrameDelivery (g : Fin 4096)
  /-- COMPLETION_POST (R338): A completion is written with the current phase in index order. -/
  | completionPost (g : Fin 4096)
  /-- IRQ_HOLDOFF_EXPIRY (R350): The holdoff of an armed channel expires and its MSI-X message is sent. -/
  | irqHoldoffExpiry (g : Fin 4096)
  /-- PAUSE (R355): DMA_CH_CTRL.PAUSE sets or clears the manager pause source of a channel. -/
  | dmaPause (a : Path × Fin 4096) (data : W32)
  /-- CHANNEL_PAUSED (R355): A pausing channel has drained its reads and enters PAUSED. -/
  | channelPaused (g : Fin 4096)
  /-- RESET (R359): DMA_CH_CTRL.RESET resets a channel and bumps its firing number. -/
  | dmaReset (a : Path × Fin 4096) (data : W32)
  /-- CHANNEL_RESET_COMPLETE (R359): A channel reset completes and the channel returns to set-up state. -/
  | channelResetComplete (g : Fin 4096)
  /-- RESUME (R358): DMA_CH_CTRL.RESUME restarts a STOPPED channel. -/
  | dmaResume (a : Path × Fin 4096) (data : W32)
  /-- START (R360): DMA_CH_CTRL.START starts a channel or is refused with CFG_ERR. -/
  | dmaStart (a : Path × Fin 4096) (data : W32)
  /-- ENGINE_DRAIN_END (R357): The last outstanding read of a stopped engine resolves and DRAINING clears. -/
  | engineDrainEnd (n : Fin 16)
  /-- CLEAR_STOP (R358): DMA_ENG_CTRL.CLEAR_STOP ends an engine stop once draining is done. -/
  | dmaClearStop (a : Path × Fin 16) (data : W32)
  /-- DMA_ENGINE_ENABLE (R360): A write of DMA_ENG_CTRL.ENABLE lets the engine run its channels. -/
  | dmaEngineEnable (a : Path × Fin 16) (data : W32)
  /-- FREEZE_ABORT (R328): A DMA engine receives FREEZE_ABORT and pauses the channels of the frozen link. -/
  | freezeAbort (e : Fin 16) (l : Fin 8)
  /-- ATS_INVALIDATION (R334): An ATS invalidation completes once every request under the old translation has resolved. -/
  | atsInvalidation (l : Fin 8) (f : Fin 2048)
  /-- CREATE (R365): Saggar operation CREATE checks the allotment and initialises the saggar's resources. -/
  | sagCreate (p : Path) (sg : Fin 2048) (data : W32)
  /-- DESTROY (R374): Saggar operation DESTROY resets the saggar and undoes CREATE. -/
  | sagDestroy (p : Path) (sg : Fin 2048) (data : W32)
  /-- SAGGAR_RESET (R374): Saggar operation RESET starts a saggar reset, bumping its owners. -/
  | sagReset (p : Path) (sg : Fin 2048) (data : W32)
  /-- SAGGAR_RESET_SWEEP (R374): Once the bumps are done the reset sweeps queues, entries, contexts, meters and threads and the saggar returns to ACTIVE or FREE. -/
  | sagResetSweep (sg : Fin 2048)
  /-- FREEZE (R376): Saggar operation FREEZE pauses channels, withdraws jobs, halts threads and starts context write-back. -/
  | sagFreeze (p : Path) (sg : Fin 2048) (data : W32)
  /-- FROZEN_REACHED (R376): Every channel is paused, every thread halted and every write-back done, so the saggar becomes FROZEN. -/
  | sagFrozenReached (sg : Fin 2048)
  /-- THAW (R378): Saggar operation THAW resumes the channels, threads and controllers. -/
  | sagThaw (p : Path) (sg : Fin 2048) (data : W32)
  /-- SAVE (R379): Saggar operation SAVE waits for jobs, wraps contexts and writes the saggar image. -/
  | sagSave (p : Path) (sg : Fin 2048) (data : W32)
  /-- RESTORE (R381): Saggar operation RESTORE checks an image and rebuilds the saggar from it. -/
  | sagRestore (p : Path) (sg : Fin 2048) (data : W32) (host : List Byte)
  /-- ALLOT_CH (R367): Saggar operation ALLOT_CH allots a DMA channel to the saggar. -/
  | sagAllotCh (p : Path) (sg : Fin 2048) (data : W32)
  /-- FREE_CH (R367): Saggar operation FREE_CH resets and releases a channel of the saggar. -/
  | sagFreeCh (p : Path) (sg : Fin 2048) (data : W32)
  /-- DIRTY_START (R383): Saggar operation DIRTY_START clears the dirty log and starts marking. -/
  | sagDirtyStart (p : Path) (sg : Fin 2048) (data : W32)
  /-- DIRTY_READ (R383): Saggar operation DIRTY_READ writes and clears the dirty log. -/
  | sagDirtyRead (p : Path) (sg : Fin 2048) (data : W32)
  /-- DIRTY_STOP (R383): Saggar operation DIRTY_STOP stops dirty marking. -/
  | sagDirtyStop (p : Path) (sg : Fin 2048) (data : W32)
  /-- SW_T2M_TAIL (R370): A tenant write of SW_T2M_TAIL announces mailbox messages, or is ignored. -/
  | swT2mTail (sg : Fin 2048) (data : W32)
  /-- MAILBOX_T2M_COPY (R370): The device copies an announced tenant slot into the manager ring when it has room and raises the PF0 vector. -/
  | mailboxT2mCopy (sg : Fin 2048)
  /-- SAG_MBX_M2T_TAIL (R370): A manager write of SAG_MBX_M2T_TAIL announces messages for the tenant. -/
  | sagMbxM2tTail (p : Path) (sg : Fin 2048) (data : W32)
  /-- MAILBOX_M2T_COPY (R370): The device copies a manager entry into a window slot when the tenant has room and raises its vector. -/
  | mailboxM2tCopy (sg : Fin 2048) (host : List Byte)
  /-- SQ_TAIL_DOORBELL (R387): A write of an NVMe SQ tail doorbell makes new commands available to the storage service. -/
  | sqTailDoorbell (sg : Fin 2048) (y : Fin 65) (data : W32)
  /-- CQ_HEAD_DOORBELL (R387): A write of an NVMe CQ head doorbell frees completion queue entries. -/
  | cqHeadDoorbell (sg : Fin 2048) (y : Fin 65) (data : W32)
  /-- CC_ENABLE (R387): A write of CC.EN enables or disables the emulated controller, setting CSTS.RDY within 1 s. -/
  | ccEnable (sg : Fin 2048) (data : W32)
  /-- CC_SHUTDOWN (R387): A write of CC.SHN starts a shutdown that flushes the write cache and seals journals. -/
  | ccShutdown (sg : Fin 2048) (data : W32)
  /-- CREATE_IO_SQ (R390): Admin command Create I/O Submission Queue. -/
  | nvmeCreateIoSq (sg : Fin 2048) (sqe : List Byte)
  /-- DELETE_IO_SQ (R390): Admin command Delete I/O Submission Queue. -/
  | nvmeDeleteIoSq (sg : Fin 2048) (sqe : List Byte)
  /-- CREATE_IO_CQ (R390): Admin command Create I/O Completion Queue. -/
  | nvmeCreateIoCq (sg : Fin 2048) (sqe : List Byte)
  /-- DELETE_IO_CQ (R390): Admin command Delete I/O Completion Queue. -/
  | nvmeDeleteIoCq (sg : Fin 2048) (sqe : List Byte)
  /-- GET_LOG_PAGE (R390): Admin command Get Log Page returns a supported log page, clearing the deferred error log on read. -/
  | nvmeGetLogPage (sg : Fin 2048) (sqe : List Byte) (prps : List Nat)
  /-- IDENTIFY (R390): Admin command Identify returns controller, namespace or descriptor data. -/
  | nvmeIdentify (sg : Fin 2048) (sqe : List Byte) (prps : List Nat)
  /-- ABORT (R398): Admin command Abort removes a named command if it has not started. -/
  | nvmeAbort (sg : Fin 2048) (sqe : List Byte) (fetched : List (List Byte))
  /-- SET_FEATURES (R390): Admin command Set Features sets a supported feature, including entry to PS1. -/
  | nvmeSetFeatures (sg : Fin 2048) (sqe : List Byte)
  /-- GET_FEATURES (R390): Admin command Get Features returns a supported feature. -/
  | nvmeGetFeatures (sg : Fin 2048) (sqe : List Byte)
  /-- ASYNCHRONOUS_EVENT_REQUEST (R390): Admin command Asynchronous Event Request waits for an event. -/
  | nvmeAsyncEventRequest (sg : Fin 2048) (sqe : List Byte)
  /-- PS1_ENTRY_COMPLETE (R397): Entry to PS1 completes once the cache is flushed and outstanding commands are done. -/
  | ps1EntryComplete (sg : Fin 2048)
  /-- FLUSH (R395): I/O command Flush waits for cached remote writes or seals a journal. -/
  | nvmeFlush (sg : Fin 2048) (q : Fin 65) (sqe : List Byte)
  /-- WRITE (R395): I/O command Write stores data in the backing or the write cache. -/
  | nvmeWrite (sg : Fin 2048) (q : Fin 65) (sqe data : List Byte) (ans : Option (Nat × List Byte))
  /-- READ (R389): I/O command Read returns data from a namespace. -/
  | nvmeRead (sg : Fin 2048) (q : Fin 65) (sqe : List Byte) (prps : List Nat) (ans : Option (Nat × List Byte))
  /-- WRITE_ZEROES (R390): I/O command Write Zeroes zeroes a range of blocks. -/
  | nvmeWriteZeroes (sg : Fin 2048) (q : Fin 65) (sqe : List Byte) (ans : Option (Nat × List Byte))
  /-- DATASET_MANAGEMENT (R390): I/O command Dataset Management deallocates blocks. -/
  | nvmeDatasetManagement (sg : Fin 2048) (q : Fin 65) (sqe data : List Byte) (ans : Option (Nat × List Byte))
  /-- JOURNAL_APPEND (R402): I/O command Journal Append chains a sherd to a journal namespace. -/
  | nvmeJournalAppend (sg : Fin 2048) (q : Fin 65) (sqe data : List Byte)
  /-- INVALID_COMMAND_OPCODE (R390): A command with an unsupported opcode completes with Invalid Command Opcode. -/
  | nvmeInvalidOpcode (sg : Fin 2048) (q : Fin 65) (sqe : List Byte)
  /-- BACKGROUND_WRITE_DONE (R395): A cached write is acknowledged by its remote target. -/
  | backgroundWriteDone (sg : Fin 2048) (id : Nat)
  /-- DEFERRED_WRITE_ERROR (R396): A background write fails after completion and is logged, flagged and reported. -/
  | deferredWriteError (sg : Fin 2048) (id status : Nat)
  /-- TARGET_TIMEOUT (R393): A remote target does not answer within TIMEOUT_S; the command fails and the service reconnects. -/
  | targetTimeout (sg : Fin 2048)
  /-- STORAGE_TIMEOUT (R399): A command unresolved 240 s after fetch is abandoned with Internal Error. -/
  | storageTimeout (sg : Fin 2048)
  /-- SHERD_DURABLE (R402): A sherd becomes durable in its backing and its append completes. -/
  | sherdDurable (n : Fin 4096)
  /-- BATCH_TIMEOUT (R408): BATCH_MS passes since the first unsealed sherd and a seal begins. -/
  | batchTimeout (n : Fin 4096)
  /-- SEAL_CHAINED (R407): Both seal signatures complete and the SEAL sherd is chained, releasing waiting appends. -/
  | sealChained (n : Fin 4096) (sg : Fin 2048)
  /-- JOURNAL_WRITE_FAULT (R411): A backing write of a sherd fails and the journal enters FAULT. -/
  | journalWriteFault (n : Fin 4096) (status : Nat)
  /-- READ_NS (R413): Indirect operation READ_NS returns a namespace entry. -/
  | readNs (p : Path) (data : W32)
  /-- WRITE_NS (R392): Indirect operation WRITE_NS writes a namespace entry, zero-filling it or writing GENESIS. -/
  | writeNs (p : Path) (data : W32) (old : List Byte) (ok : Bool)
  /-- READ_TGT (R414): Indirect operation READ_TGT returns a target entry. -/
  | readTgt (p : Path) (data : W32)
  /-- WRITE_TGT (R414): Indirect operation WRITE_TGT writes a target entry. -/
  | writeTgt (p : Path) (data : W32)
  /-- READ_CTL (R415): Indirect operation READ_CTL returns a controller entry. -/
  | readCtl (p : Path) (data : W32)
  /-- WRITE_CTL (R415): Indirect operation WRITE_CTL writes a controller entry, or resets it when clearing ENABLE. -/
  | writeCtl (p : Path) (data : W32)
  /-- JOURNAL_SEAL (R408): Journal operation JOURNAL_SEAL seals a journal's unsealed sherds. -/
  | journalSeal (p : Path) (data : W32)
  /-- JOURNAL_RESUME (R411): Journal operation JOURNAL_RESUME recovers a FAULT journal and writes a RESUME sherd. -/
  | journalResume (p : Path) (data : W32)
  /-- STORAGE_ENABLE (R46): A write of STO_CTRL.ENABLE enables the storage service. -/
  | storageEnable (p : Path) (data : W32)
  /-- PLL_LOCK_LOSS (R421): A PLL loses lock and the device resets, freezes links or stops the time counter as the domain requires. -/
  | pllLockLoss (i : Fin 8)
  /-- PLL_RELOCK (R421): A PLL that lost lock relocks. -/
  | pllRelock (i : Fin 8)
  /-- OSC_FAIL (R421): The oscillator monitor trips and the island holds every other domain in reset. -/
  | oscFail
  /-- CROSSING_RECONNECT (R425): A reset half of a crossing is released and the ready handshake completes before items pass. -/
  | crossingReconnect (x : Crossing)
  /-- STANDBY_POWER_ON (R489): VSTBY rises through 3.0 V and the standby power-on reset runs. -/
  | standbyPowerOn
  /-- MAIN_POWER_GOOD (R489): MAIN_PG rises after soft start, ending the package cold reset. -/
  | mainPowerGood (sel : Fin 4)
  /-- MAIN_UNDERVOLTAGE (R489): VIN12 stays below 10.5 V for 10 µs and a package cold reset is held. -/
  | mainUndervoltage
  /-- MAIN_OVERVOLTAGE (R489): VIN12 stays above 13.8 V for 10 µs and the regulators shut down. -/
  | mainOvervoltage
  /-- VSTBY_LOSS (R489): VSTBY falls below 3.0 V and everything stops. -/
  | vstbyLoss
  /-- WARM (R429): A write of RST_CTRL.WARM with KEY 0xA5 triggers a package warm reset. -/
  | rstWarm (p : Path) (data : W32)
  /-- QUADRANT_RESET (R430): RST_QUAD_CTRL.RESET starts a quadrant reset that stops threads, writes back lines and bumps kilns. -/
  | quadrantReset (p : Path) (data : W32)
  /-- QUADRANT_RESET_DONE (R430): A quadrant reset completes step 4, sets DONE and holds the quadrant until released. -/
  | quadrantResetDone (q : Fin 4)
  /-- BISQUE_START (R434): 2 ms after a package reset BISQUE starts, derives keys and chooses a profile. -/
  | bisqueStart (bad : List Nat)
  /-- IMAGE_HEADER_CHECK (R437): An image header is read and its structure, key slot and rollback checks are made and signatures started. -/
  | imageHeaderCheck (uncorr : Bool)
  /-- SIGNATURES_DECIDED (R437): Both image signatures are decided and the attempt passes or fails. -/
  | signaturesDecided
  /-- HBM_TRAINING_COMPLETE (R434): HBM training completes and segment streaming begins. -/
  | hbmTrainingComplete
  /-- SEGMENT_DIGEST (R437): A loaded segment's digest is compared, releasing the management cores for MGMT or failing the attempt. -/
  | segmentDigest (uncorr : Bool)
  /-- IMAGE_VERIFIED (R440): The last segment's digest matches, the image is VERIFIED and the output gate opens. -/
  | imageVerified
  /-- NEXT_IMAGE_ATTEMPT (R445): After a failed attempt BISQUE tries the next slot or enters RECOVERY. -/
  | nextImageAttempt
  /-- BOOT_QUAD_REL (R439): A write of BOOT_QUAD_REL releases quadrants once VERIFIED, or is ignored and counted. -/
  | bootQuadRel (p : Path) (data : W32)
  /-- WRITE_IMAGE (R448): Flash operation WRITE_IMAGE erases and writes an image slot and checks it. -/
  | writeImage (p : Path) (data : W32)
  /-- WRITE_PROFILE (R448): Flash operation WRITE_PROFILE checks and writes a profile. -/
  | writeProfile (p : Path) (data : W32)
  /-- SET_TRIAL (R448): Flash operation SET_TRIAL names a slot for a one-boot trial. -/
  | setTrial (p : Path) (data : W32)
  /-- CONFIRM (R448): Flash operation CONFIRM makes the running slot preferred. -/
  | bootConfirm (p : Path) (data : W32)
  /-- READ_CERT (R448): Flash operation READ_CERT writes the device certificate. -/
  | readCert (p : Path) (data : W32)
  /-- RAISE_ROLLBACK (R448): Flash operation RAISE_ROLLBACK blows rollback fuses up to a count. -/
  | raiseRollback (p : Path) (data : W32)
  /-- REVOKE_SLOT (R448): Flash operation REVOKE_SLOT blows the revoke fuse of a key slot. -/
  | revokeSlot (p : Path) (data : W32)
  /-- READ_LOG (R448): Flash operation READ_LOG writes the boot-attempt log. -/
  | readLog (p : Path) (data : W32)
  /-- FLASH_OP_COMPLETE (R448): A flash or fuse operation ends and sets DONE and RESULT. -/
  | flashOpComplete (host : List Byte) (uncorr : Bool)
  /-- I3C_STATUS (R446): I3C command STATUS returns boot, reset and fuse status. -/
  | i3cStatus
  /-- WARM_RESET (R446): I3C command WARM_RESET triggers a package warm reset. -/
  | i3cWarmReset (key : Byte)
  /-- REC_BEGIN (R446): I3C command REC_BEGIN clears the recovery buffer in RECOVERY. -/
  | i3cRecBegin (len : W32)
  /-- REC_DATA (R446): I3C command REC_DATA appends bytes to the recovery buffer. -/
  | i3cRecData (bytes : List Byte)
  /-- REC_END (R446): I3C command REC_END attempts the recovery buffer as an image. -/
  | i3cRecEnd
  /-- CONES (R498): I3C command CONES returns RAS_CONE_HOT and RAS_CONE_MARGIN. -/
  | i3cCones
  /-- ERROR_DETECTION (R452): A detector finds an error, classes it, applies its action and writes a RAS record. -/
  | errorDetection (fam : Fin 32) (inst : Nat) (kind : ErrKind) (loc : Nat) (items : List Nat) (inj : Bool)
  /-- RAS_INJ_WRITE (R460): A write of RAS_INJ arms, disarms or is refused by the error injector. -/
  | rasInjWrite (p : Path) (data : W32)
  /-- PE_ROTATION (R463): Every PERIOD_MS a pipeline takes its next parse engine out of rotation for self-test. -/
  | peRotation (k : Fin 8)
  /-- PE_SELF_TEST_DONE (R463): A parse engine self-test ends and the engine returns or is retired. -/
  | peSelfTestDone (k : Fin 8) (pass : Bool)
  /-- GLZ_SKIP (R464): A write of RAS_GLZ_SKIP takes glaze engines out of service or returns them. -/
  | glzSkip (p : Path) (w : Fin 8) (data : W32)
  /-- PKE_SKIP (R464): A write of RAS_PKE_SKIP takes public-key units out of service or returns them. -/
  | pkeSkip (p : Path) (data : W32)
  /-- ENGINE_SELF_TEST_DONE (R464): A glaze engine or public-key unit self-test ends and sets FAIL on failure. -/
  | engineSelfTestDone (pke : Bool) (i : Fin 256) (pass : Bool)
  /-- LPM_ROT_START (R465): A write of RAS_LPM_ROT with START begins copying an LPM bank onto the spare, or is ignored while BUSY. -/
  | lpmRotStart (p : Path) (data : W32)
  /-- LPM_BANK_SWITCH (R465): The copy ends and the logical bank maps to the new physical bank. -/
  | lpmBankSwitch
  /-- LPM_MARCH_DONE (R465): The march test of the old LPM bank ends and it becomes the spare or is retired. -/
  | lpmMarchDone (pass : Bool)
  /-- LANE_TEST_RUN (R466): A write of RAS_LANE_TEST_n.RUN starts or stops PRBS31 lane testing in near-end loopback. -/
  | laneTestRun (p : Path) (n : Fin 16) (data : W32) (errs : List Nat)
  /-- LANE_LOCK_TIMEOUT (R466): A lane fails to lock its checker within 1 ms and its FAIL bit is set. -/
  | laneLockTimeout (n : Fin 16) (lost : BitVec 4) (errs : List Nat)
  /-- SPARE_ROW (R467): HBM operation SPARE_ROW spares a row, or automatic sparing triggers on its CE count. -/
  | spareRow (p : Path) (data : W32)
  /-- ROW_SPARE_COMPLETE (R467): A spared row's copy ends and the remap takes effect. -/
  | rowSpareComplete
  /-- RETIRE_PC (R468): HBM operation RETIRE_PC writes back and retires a pseudo-channel. -/
  | retirePc (p : Path) (data : W32)
  /-- REPLACE (R472): Kiln operation REPLACE moves a live logical kiln onto its quadrant's spare. -/
  | kilnReplace (p : Path) (data : W32)
  /-- KILN_REPLACE_COMPLETE (R472): A REPLACE completes and the threads resume on the spare. -/
  | kilnReplaceComplete
  /-- DECLARE_DEAD (R473): Kiln operation DECLARE_DEAD declares a logical kiln dead and starts its takeover. -/
  | kilnDeclareDead (p : Path) (data : W32) (lost : List Nat)
  /-- KILN_RESPONSE_TIMEOUT (R473): A message to a kiln goes unanswered for RAS_KILN_TIMEOUT and the kiln is declared dead. -/
  | kilnResponseTimeout (k : Fin 32) (lost : List Nat)
  /-- FENCED_PORT_ARRIVAL (R475): Traffic from a fenced physical kiln reaches the router and is discarded. -/
  | fencedPortArrival (p : Fin 36)
  /-- TEST (R476): Kiln operation TEST runs scan and march tests on a fenced or spare kiln. -/
  | kilnTest (p : Path) (data : W32)
  /-- KILN_TEST_COMPLETE (R476): A kiln test ends and the kiln becomes SPARE, UNUSED or RETIRED. -/
  | kilnTestComplete (fails : Nat)
  /-- RETIRE (R476): Kiln operation RETIRE retires a fenced or spare physical kiln. -/
  | kilnRetire (p : Path) (data : W32)
  /-- CONE_TEMP_READING (R495): Every 1 ms each cone measures temperature and warnings or a thermal trip are judged. -/
  | coneTempReading (temps : List (BitVec 16)) (odd : List Bool)
  /-- ANALOG_THERMAL_TRIP (R495): The analog detector on a die reaches 120 °C and takes a thermal trip. -/
  | analogThermalTrip (die : Fin 3)
  /-- THERMTRIP_RELEASE (R495): After a trip every valid cone reads below 95 °C, THERMTRIP_N is released and boot continues. -/
  | thermtripRelease
  /-- CONE_WEAR_MEASURE (R497): Once per second each cone measures its wear shift and wear warnings are judged. -/
  | coneWearMeasure (shifts : List (Option Nat))
  /-- INBOUND_MESSAGE (R324): A PCIe message arrives on a host link: PME_Turn_Off starts the handshake that brings the link to L2/L3 Ready, and a message type the device does not implement is handled as an unsupported request. -/
  | inboundMessage (l : Fin 8) (k : InMsg)
  /-- JTAG_MEMORY_ACCESS (R249): A memory access requested through the JTAG TAP is carried as test-class NoC traffic across the TCK handshake crossing. -/
  | jtagMemoryAccess (r : JtagReq)
  deriving DecidableEq, Repr

end Sys2Proof
end

