-- ==== Sys2Proof/Decode.lean ====
section
/-!
DEFINITION. The commands that a table word spells. spec/opcode_table.json gives no row any bits: a command reaches the
part as a register access, a bus operation, an event on a pin or the end of an interval, never as a word of its own.
-/

namespace Sys2Proof

/-- The command that a word spells by the table's bits: none, as no row has bits. -/
def decodeTableWord (_nbits _w : Nat) : Option Instr := none

end Sys2Proof
end

