-- ==== Sys2Proof/Config.lean ====
section
/-!
DEFINITION. What the model leaves open: the free values (opaque constants with no body, so that nothing can evaluate
them), and the standard algorithms that the manual cites and does not restate. See the assumption log.
-/

namespace Sys2Proof.Config

/-- A free value: the number drawn `k`-th. Nothing constrains it (notes/assumptions/5). -/
opaque freeValue : Nat → Nat

/-- A random byte string, as the security island's random source gives it: byte `i` of draw `k`. -/
opaque randomByte : Nat → Nat → Byte

/-- What byte `a` of the HBM holds after the `era`-th package reset, until it is written: undefined (R429). -/
opaque hbmAfterReset : Nat → Nat → Byte

/-- Whether mtval or stval is written for an exception of a cause, or set to zero: the RISC-V privileged architecture
leaves it to the implementation, and R216 fixes cause 24 alone (notes/assumptions/27). -/
opaque tvalHolds : Nat → Bool

/-- Whether a page walk sets the A and D bits of an entry, or raises a page fault where they are clear: the RISC-V
privileged architecture allows both (notes/assumptions/27). -/
opaque walkSetsAD : Bool

/-- The layout of log page 0xC0 behind its bit 0 (R396): byte `i` of a page that holds these entries (NSID, SLBA, NLB, status, network
time). The manual gives their fields and sizes and not their order (notes/assumptions/40). -/
opaque deferredPage : List (List Nat) → Nat → Byte

/-- The layout of log page 0xC1 (R411): byte `i` of a page with STATE, NEXT_SEQ, APPEND_OFFSET, the SEQ of the last seal plus one (0 for
none) and the status of the last fault (notes/assumptions/40). -/
opaque journalPage : List Nat → Nat → Byte

/-- How the GLOST version is shown as the eight bytes of the firmware revision (R390): byte `i` (notes/assumptions/40). -/
opaque firmwareRev : Nat → Nat → Byte

/-- The frames that carry a command, or the setting up of the connections, to a remote target (R393): the cited transport gives them, from
the target entry, the saggar, the opcode, the first block, the number of blocks and the data (notes/assumptions/40). -/
opaque targetFrames : List Byte → Nat → Nat → Nat → Nat → List Byte → Nat → List (List Byte)

end Sys2Proof.Config
end

