-- ==== Sys2Proof/Machine/Tab.lean ====
section
/-!
DEFINITION. Sparse tables: the one canonical form in which the model keeps registers, counters, memory and the
tables of entries. A table is a list of (key, value) pairs with strictly rising keys, and lists no value equal to
what an unlisted key reads as, so that equal tables are equal data.
-/

namespace Sys2Proof

/-- A sparse table of values by number. -/
abbrev Tab (α : Type) := List (Nat × α)

namespace Machine

variable {α : Type}

/-- The value of key `k`; `d k` is what an unlisted key reads as. -/
def tabGet (d : Nat → α) : Tab α → Nat → α
  | [], k => d k
  | (k', v) :: t, k => if k' = k then v else tabGet d t k

/-- Removes a key. -/
def tabErase : Tab α → Nat → Tab α
  | [], _ => []
  | (k', v) :: t, k => if k' = k then tabErase t k else (k', v) :: tabErase t k

/-- Lists a key with a value, in key order. -/
def tabInsert : Tab α → Nat → α → Tab α
  | [], k, v => [(k, v)]
  | (k', v') :: t, k, v =>
    if k < k' then (k, v) :: (k', v') :: t
    else if k' = k then (k, v) :: t
    else (k', v') :: tabInsert t k v

/-- Sets key `k` to `v`, keeping the canonical form: the value an unlisted key reads as is removed. -/
def tabSet [DecidableEq α] (d : Nat → α) (t : Tab α) (k : Nat) (v : α) : Tab α :=
  if v = d k then tabErase t k else tabInsert t k v

/-- The canonical form: keys strictly rising, no value equal to the default. -/
def tabWf [DecidableEq α] (d : Nat → α) : Tab α → Bool
  | [] => true
  | (k, v) :: t => decide (v ≠ d k) && t.all (fun kv => decide (k < kv.1)) && tabWf d t

/-- Applies `f` to the value of key `k`. -/
def tabMod [DecidableEq α] (d : Nat → α) (t : Tab α) (k : Nat) (f : α → α) : Tab α :=
  tabSet d t k (f (tabGet d t k))

/-- Sets every listed key for which `p` holds back to its default. -/
def tabDrop (t : Tab α) (p : Nat → α → Bool) : Tab α := t.filter fun kv => !(p kv.1 kv.2)

/-- Rewrites every listed entry by `f`, keeping the canonical form. -/
def tabMapAll [DecidableEq α] (d : Nat → α) (t : Tab α) (f : Nat → α → α) : Tab α :=
  t.foldl (fun acc kv => tabSet d acc kv.1 (f kv.1 kv.2)) []

end Machine
end Sys2Proof
end

