-- ==== Sys2Proof/Machine/BootState.lean ====
section
/-!
DEFINITION. The state of boot, the flash die, the fuses and the active profile (chapter Boot, Secure Start and
Profiles).
-/

namespace Sys2Proof.Machine

/-- A preload entry of a profile: the register its offset names, mask and value (R449). -/
structure Preload where
  offset : Nat
  mask : Nat
  value : Nat
  deriving DecidableEq, Repr

/-- One of PF1–PF3 in a profile (R449). -/
structure PfProfile where
  enabled : Bool
  nvme : Bool
  totalVfs : Nat
  dbLog2 : Nat
  /-- MSI-X table size. -/
  msix : Nat
  deriving DecidableEq, Repr

/-- The functions of one controller in a profile. -/
structure HifProfile where
  regPath : Bool
  pf1 : PfProfile
  pf2 : PfProfile
  pf3 : PfProfile
  vfMsix : Nat
  /-- SSVID and SSID; the built-in profile states none (notes/assumptions/21). -/
  ssvid : Option Nat
  ssid : Option Nat
  deriving DecidableEq, Repr

/-- A profile (R449). -/
structure Profile where
  hif0 : HifProfile
  hif1 : HifProfile
  /-- BASE and COUNT of the eight pools: groups, queues, meters, key contexts, HBM pages, threads, channels, entries. -/
  pools : List (Nat × Nat)
  rsvBase : Nat
  rsvCount : Nat
  oobEn : Bool
  mgmtFec : Nat
  preload : List Preload
  deriving DecidableEq, Repr

/-- The function section of the built-in profile (R450). -/
def HifProfile.builtin : HifProfile :=
  { regPath := false, pf1 := ⟨true, false, 512, 8, 2048⟩, pf2 := ⟨true, true, 512, 8, 2048⟩,
    pf3 := ⟨false, false, 0, 8, 2048⟩, vfMsix := 256, ssvid := none, ssid := none }

/-- The built-in profile (R450). -/
def Profile.builtin : Profile :=
  { hif0 := .builtin, hif1 := .builtin,
    pools := [(512, 7680), (4096, 61440), (4096, 61440), (16384, 1032192), (1024, 48128), (64, 960), (256, 3840),
              (0, 983040)],
    rsvBase := 128, rsvCount := 896, oobEn := true, mgmtFec := 2, preload := [] }

/-- A fuse array (R443), as far as the part itself reads or blows it. -/
structure Fuses where
  /-- Key digests of slots 0–3, 48 bytes each. -/
  digests : List (List Byte)
  revoked : List Bool
  rollback : Nat
  devnum : Nat
  /-- The device unique secret, 32 bytes. -/
  secret : List Byte
  mfgLock : Bool
  /-- Physical kilns whose repair fuse is blown (R470). -/
  kilns : List Nat
  deriving DecidableEq, Repr

/-- A segment of an image (R438). -/
structure Segment where
  type : Nat
  target : Nat
  offset : Nat
  length : Nat
  load : Nat
  digest : List Byte
  deriving DecidableEq, Repr

/-- The header of an image, as far as boot uses it (R436). -/
structure ImageHdr where
  length : Nat
  version : Nat
  svn : Nat
  keySlot : Nat
  segs : List Segment
  deriving DecidableEq, Repr

/-- How far an attempt is (R434): its header is read, its signatures are checked, HBM training is awaited, segment k is
streamed, or it has failed and the next slot is due. -/
inductive Phase where
  | header | sigs | hbm | seg (k : Nat) | last | failed
  deriving DecidableEq, Repr

/-- An attempt on an image that runs (R434, R437). -/
structure Attempt where
  /-- 0 A, 1 B, 2 recovery. -/
  slot : Nat
  /-- The slots still to try after this one. -/
  rest : List Nat
  phase : Phase
  /-- The header, once it has been checked. -/
  hdr : ImageHdr
  /-- An attempt of this boot has failed before. -/
  again : Bool
  /-- A page of the header was uncorrectable: the attempt fails once the signatures are decided (R437). -/
  flash : Bool
  deriving DecidableEq, Repr

def ImageHdr.none : ImageHdr := ⟨0, 0, 0, 0, []⟩

/-- Boot state. -/
structure BootState where
  /-- The preload of the active profile, in profile order. -/
  preload : List Preload
  profile : Profile
  /-- The flash die: its written bytes; an unlisted byte reads erased, 0xFF (R433). -/
  flash : Tab Byte
  fuses : Fuses
  /-- PROFILE_SEL[1:0] as last sampled. -/
  profileSel : Nat
  /-- BISQUE has started in this boot, and the cycle of main power-good or of the warm trigger. -/
  started : Bool
  since : Nat
  /-- Main power is good. -/
  powered : Bool
  attempt : Option Attempt
  hbmTrained : Bool
  /-- The index of the profile in force, kept through a warm reset (R447). -/
  lastProfile : Nat
  /-- The recovery buffer, and the IMAGE_LEN that began it (R446). -/
  recovery : List Byte
  recLen : Option Nat
  /-- PARSE segments in their staging places: TARGET, LOAD and bytes (R438; notes/assumptions/32). -/
  staged : List (Nat × Nat × List Byte)
  /-- HBM ranges that the present image has written (R441). -/
  wrote : List (Nat × Nat)
  /-- VERSION of the image that runs (R390, R436). -/
  glost : Nat
  /-- The flash operation that runs: OP, CHANNEL, SLOT, ADDR, LEN (R448). -/
  flashOp : Option (Nat × Nat × Nat × Nat × Nat)
  deriving DecidableEq, Repr

/-- Blank fuses: every field that the manual leaves to manufacture is zero (notes/assumptions/24). -/
def Fuses.blank : Fuses :=
  ⟨List.replicate 4 (List.replicate 48 0#8), [false, false, false, false], 0, 0, List.replicate 32 0#8, false, []⟩

def BootState.reset : BootState :=
  { preload := [], profile := .builtin, flash := [], fuses := .blank, profileSel := 0, started := false, since := 0,
    powered := true, attempt := none, hbmTrained := false, lastProfile := 0, recovery := [], recLen := none, staged := [],
    wrote := [], glost := 0, flashOp := none }

end Sys2Proof.Machine
end

