-- ==== Sys2Proof/Machine/BufState.lean ====
section
/-!
DEFINITION. The state of the packet buffer and the meters (chapter Packet Buffer and Meters).
-/

namespace Sys2Proof.Machine

/-- A queue entry (R160). -/
structure QEntry where
  green : Nat
  yellow : Nat
  red : Nat
  spillEn : Bool
  meterEn : Bool
  meter : Nat
  spillLimit : Nat
  occ : Nat
  spillCells : Nat
  spilling : Bool
  admitFrames : Nat
  admitBytes : Nat
  dropFrames : Nat
  /-- Frames enqueued, oldest first. -/
  frames : List Nat
  /-- Spilled frames, oldest first. -/
  spill : List Nat
  deriving DecidableEq, Repr

/-- The defaults of R160. -/
def QEntry.reset : QEntry :=
  ⟨2048, 1536, 1024, false, false, 0, 0, 0, 0, false, 0, 0, 0, [], []⟩

/-- A meter entry (R161). The buckets are in units of 1/24,000,000 byte, so no remainder is lost (R147). -/
structure Meter where
  cir : Nat
  pir : Nat
  aware : Bool
  rfc4115 : Bool
  cbs : Nat
  adj : Nat
  pbs : Nat
  tc : Nat
  tp : Nat
  /-- The cycle up to which the buckets have gained tokens. -/
  at_ : Nat
  greenFrames : Nat
  yellowFrames : Nat
  redFrames : Nat
  deriving DecidableEq, Repr

def Meter.reset : Meter := ⟨0, 0, false, false, 0, 0, 0, 0, 0, 0, 0, 0, 0⟩

/-- The packet buffer. -/
structure BufState where
  queues : Tab QEntry
  meters : Tab Meter
  /-- The spill write budget in thirds of a byte (R156), and the cycle up to which it has gained. -/
  budget : Nat
  budgetAt : Nat
  /-- The budget of the fetches, which are capped at the same rate (R156). -/
  fetchBudget : Nat
  fetchAt : Nat
  deriving DecidableEq, Repr

/-- The spill budgets start full: 65,536 bytes (notes/assumptions/14). -/
def BufState.reset : BufState := ⟨[], [], 65536 * 3, 0, 65536 * 3, 0⟩

end Sys2Proof.Machine
end

