-- ==== Sys2Proof/Machine/OwnerState.lean ====
section
/-!
DEFINITION. Owners and their firing numbers (chapter Ownership, Firing Numbers and Register Semantics), and the memory
of the part: the HBM, its poisoned lines and its retired pages (chapters Memory System and Errors).
-/

namespace Sys2Proof.Machine

/-- The owners of R32. -/
inductive Owner where
  | saggar (s : Nat)
  | chan (g : Nat)
  | place (q : Nat)
  | kiln (k : Nat)
  deriving DecidableEq, Repr

/-- The key of an owner in `OwnerState.last`. -/
def Owner.key : Owner → Nat
  | .saggar s => s
  | .chan g => 0x1000 + g
  | .kiln k => 0x2000 + k
  | .place q => 0x10000 + q

/-- By owner: the cycle of its last bump, if it has bumped since package reset (R36). -/
structure OwnerState where
  last : Tab (Option Nat)
  deriving DecidableEq, Repr

def OwnerState.reset : OwnerState := ⟨[]⟩

/-- The HBM. -/
structure MemState where
  /-- Its bytes by address, in address order; an unlisted address reads as `Dev.hbmBlank` says. While `era` is 0, none of
  them is zero. -/
  hbm : List (Nat × Byte)
  /-- How many package resets have left the contents undefined (R429, R37): 0 at State.reset, where an unlisted address
  reads zero (notes/assumptions/3). -/
  era : Nat
  /-- Poisoned 64-byte lines, by line number (R248). -/
  poison : List Nat
  /-- The lines that a logical kiln or a management core holds Modified: its requester ID, or none (R236, R248). -/
  modified : Tab (Option Nat)
  deriving DecidableEq, Repr

def MemState.reset : MemState := ⟨[], 0, [], []⟩

/-- One child of an engine arbiter (R371). -/
structure ArbKid where
  deficit : Int
  visited : Bool
  deriving DecidableEq, Repr

/-- A deficit-round-robin arbiter over saggars (by number) and the manager participant (2,048) (R371). -/
structure Arb where
  cur : Nat
  kids : Tab ArbKid
  deriving DecidableEq, Repr

def ArbKid.reset : ArbKid := ⟨0, false⟩
def Arb.reset : Arb := ⟨0, []⟩

/-- A saggar's token bucket at an arbiter kind, in units of 1/3,000 of a cost unit (R373). -/
structure RateBucket where
  tokens : Int
  /-- The cycle up to which it has gained tokens. -/
  at_ : Nat
  deriving DecidableEq, Repr

def RateBucket.reset : RateBucket := ⟨0, 0⟩

end Sys2Proof.Machine
end

