-- ==== Sys2Proof/Machine/DmaState.lean ====
section
/-!
DEFINITION. The state of the DMA engines and their channels beyond their registers (chapter Tearell Rings,
Doorbells and DMA), and the job blocks that they hand to the table block, the kilns, the glaze and the PKE units.
-/

namespace Sys2Proof.Machine

/-- What a DMA read is for. -/
inductive ReadFor where
  /-- `n` descriptors from index `i`. -/
  | desc (i n : Nat)
  /-- Bytes of a TX frame, for the descriptor `i` from byte `off` of it. -/
  | tx (i off : Nat)
  /-- Bytes of a COPY, from byte `off` of descriptor `i`, to the target `dst`. -/
  | copy (i off dst : Nat)
  /-- The block of descriptor `i`, from byte `off` of it. -/
  | block (i off : Nat)
  /-- Bytes of input `part` of the glaze or public-key job of descriptor `i` (R357). -/
  | job (i part : Nat)
  /-- A translation of a host page (R318, R334). -/
  | ats (page : Nat)
  deriving DecidableEq, Repr

/-- An outstanding read. -/
structure Read where
  tag : Nat
  chan : Nat
  /-- The firing number it carries, and the saggar whose number that is under TAG_SAGGAR (R353). -/
  firing : Nat
  sag : Option Nat
  addr : Nat
  len : Nat
  what : ReadFor
  issued : Nat
  /-- Pieces returned by the host and not yet used, oldest first; bytes returned in all, discarded ones included; bytes used. -/
  pieces : List (List Byte)
  got : Nat
  used : Nat
  /-- Its channel has been reset since: what still matches is written where it belongs, and means nothing more to the channel
  (R40, R359). -/
  orphan : Bool
  deriving DecidableEq, Repr

/-- What a started job reads through its channel's engine (R352, R357): the ranges still to be asked for, as (input, address,
bytes), and the bytes that have come, in order. -/
structure Feed where
  idx : Nat
  need : List (Nat × Nat × Nat)
  got : List (Nat × List Byte)
  /-- Input 2 is an HSS signature, whose length shows as it is read: its address, and how many bytes of it are asked for (R289). -/
  sig : Option (Nat × Nat)
  deriving DecidableEq, Repr

/-- A cached translation of a host page of a function (R318, R334): the page it stands for, and the rights it gives. -/
structure Atc where
  link : Nat
  func : Nat
  page : Nat
  dest : Nat
  rd : Bool
  wr : Bool
  deriving DecidableEq, Repr

/-- What a completion carries (R346), but for PHASE, INDEX and TAG. -/
structure Comp where
  eop : Bool
  status : Nat
  cmd : Nat
  bytes : Nat
  /-- Word 1 above TAG. -/
  hi : Nat
  deriving DecidableEq, Repr

/-- A descriptor that the channel has taken and whose completion has not been posted. -/
structure Slot where
  idx : Nat
  desc : List Byte
  comp : Option Comp
  /-- An answer of the table block or of a kiln, decided while the engine issues nothing: its writes and its completion (R357). -/
  held : Option (List (Nat × List Byte) × Comp)
  deriving DecidableEq, Repr

/-- What a channel is in the middle of. -/
inductive Active where
  /-- A TX frame: its descriptors (index, descriptor), its number, bytes asked for and bytes in, from its first byte. -/
  | tx (descs : List (Nat × List Byte)) (frame : Nat) (asked inn : Nat)
  /-- A TX frame whose bytes are all in: waits for the inline queue and for admission. -/
  | txDone (descs : List (Nat × List Byte)) (frame : Nat)
  /-- A COPY: descriptor, bytes asked for and bytes written. -/
  | copy (i : Nat) (desc : List Byte) (asked written : Nat)
  /-- A COPY handed to the glaze dispatcher, not yet complete. -/
  | job (i : Nat) (desc : List Byte)
  /-- Descriptors of a frame of more than 16, for the queue that its first names, are refused up to its EOP (R342). -/
  | skip (queue : Nat)
  /-- An RX frame in delivery: number, bytes written of it, descriptors used and bytes written into the first buffer. -/
  | rx (frame : Nat) (done used off : Nat)
  deriving DecidableEq, Repr

/-- One channel. -/
structure Chan where
  /-- Prefetched descriptors from HEAD on, or from the first not yet taken (R339). -/
  pre : List (Nat × List Byte)
  active : Option Active
  /-- Posted RX buffers (R343). -/
  bufs : List (Nat × List Byte)
  /-- RX frames whose writes are not all acknowledged, with the index of their first descriptor, oldest first, and frames
  to deliver anew after a freeze (R328). -/
  sent : List (Nat × Nat)
  redo : List Nat
  slots : List Slot
  /-- The bytes of the block read for the descriptor in front, as far as they have returned, and how many are asked for. -/
  block : Option (Nat × List Byte)
  blockAsked : Nat
  /-- What its started jobs read. -/
  feeds : List Feed
  /-- Descriptors of which the host has refused a data write, so that they complete with ADDR_DENIED (R334). -/
  refused : List Nat
  /-- The arbiter has granted it the data write of its RX frame that comes next (R371). -/
  grant : Bool
  /-- The cycle of the previous interrupt message (R350). -/
  lastMsg : Option Nat
  /-- The saggar that ALLOT_CH gave the channel to (R367). -/
  allot : Option Nat
  /-- START has been accepted since the last reset. -/
  started : Bool
  /-- It has been started since package reset: its pause sources keep following their conditions (R359). -/
  known : Bool
  /-- A ring scan runs: descriptors beyond TAIL are taken as far as their ownership bits reach (R329, R381). -/
  scan : Bool
  deriving DecidableEq, Repr

def Chan.reset : Chan := ⟨[], none, [], [], [], [], none, 0, [], [], false, none, none, false, false, false⟩

/-- What the storage service has a job of its own for (R386). -/
inductive StoWork where
  /-- Block `i` of the command `cid` of submission queue `sq` (R394). -/
  | block (sq cid i : Nat)
  /-- A signature over the BODY of the seal of namespace entry `n`: by the ML-DSA-65 half of the key, or by the P-384 half
  (R408). -/
  | sign (n : Nat) (dsa : Bool)
  /-- What asked for it has ended. -/
  | gone
  deriving DecidableEq, Repr

/-- A job of the storage service: the saggar, what it is for, and the bytes that its unit reads. -/
structure StoJob where
  ctl : Nat
  what : StoWork
  data : List Byte
  deriving DecidableEq, Repr

/-- A block handed to a unit (R345). -/
structure Job where
  chan : Nat
  idx : Nat
  addr : Nat
  block : List Byte
  firing : Nat
  /-- The saggar that owns the channel, none for the manager. -/
  owner : Option Nat
  /-- The saggar whose firing number the job carries (R33, R353). -/
  tagSag : Option Nat
  handed : Nat
  /-- A job of the storage service: it names no address, and its answer goes to the service. -/
  sto : Option StoJob
  deriving DecidableEq, Repr

/-- One engine. -/
structure DmaEng where
  reads : List Read
  /-- The first cycle in which it can start another descriptor (R352). -/
  nextDesc : Nat
  arb : Arb
  /-- The channel served last within each saggar or for the manager (R371, R352). -/
  turn : Tab Nat
  /-- When it may next move bytes in and out, in fiftieths of a PIPE cycle: a byte takes 3 at 50 GB/s (R352). -/
  readAt : Nat
  writeAt : Nat
  /-- Its cached translations (R318). -/
  atc : List Atc
  deriving DecidableEq, Repr

def DmaEng.reset : DmaEng := ⟨[], 0, .reset, [], 0, 0, []⟩

/-- The DMA engines. -/
structure DmaState where
  engs : Tab DmaEng
  chans : Tab Chan
  nextTag : Nat
  /-- The host queues that enabled RX channels serve: (queue, global channel) (R343). -/
  rxServe : List (Nat × Nat)
  deriving DecidableEq, Repr

def DmaState.reset : DmaState := ⟨[], [], 0, []⟩

end Sys2Proof.Machine
end

