-- ==== Sys2Proof/Machine/FrameState.lean ====
section
/-!
DEFINITION. A frame inside the device: what has been received of it, where it stands on its way, and what has been
decided for it (chapters Ethernet Ports and Lanes to Scheduling).
-/

namespace Sys2Proof.Machine

/-- The colours (R107), green first. -/
inductive Colour where
  | green | yellow | red
  deriving DecidableEq, Repr

/-- The code of a colour; 0b11 acts as red. -/
def Colour.ofCode : Nat → Colour
  | 0 => .green | 1 => .yellow | _ => .red

def Colour.code : Colour → Nat
  | .green => 0 | .yellow => 1 | .red => 2

/-- The worse of two colours (R186). -/
def Colour.worse (a b : Colour) : Colour := if a.code < b.code then b else a

/-- Where a frame comes from. -/
inductive FrameSrc where
  /-- Received on the sub-port with this port index (R53). -/
  | port (p : Nat)
  /-- Read in by a DMA transmit channel (global number, R342). -/
  | dma (ch : Nat)
  /-- Sent by device firmware (R188). -/
  | firmware
  deriving DecidableEq, Repr

/-- Where a frame stands. Numbers are cycles unless named otherwise. -/
inductive Stage where
  /-- In reception, before its allocation condition (R75). -/
  | rx
  /-- Recognised as a MAC Control or time-protocol frame, or received in far-end loopback: withheld (R56, R71, R188). -/
  | withheld
  /-- In the 28-cycle crossing, the parse queue or a parse engine, or in the record check (R98). -/
  | parse
  /-- In the classification stage (R105). -/
  | classify
  /-- Waiting for metering and admission (R152). -/
  | meter
  /-- Admitted; it can be enqueued from `readyAt` (R152). -/
  | admitted (readyAt : Nat)
  /-- In the spill region (R156), or being fetched back until `doneAt` (R157). -/
  | spilled (doneAt : Option Nat)
  /-- In its egress queue. -/
  | queued
  /-- Chosen for transmission on port index `p`, to start at `startAt` (R64, R66). -/
  | chosen (p startAt : Nat)
  /-- In the punt queue (R137). -/
  | punt
  /-- With a thread, or on its way there or back (R225 to R228). -/
  | placed
  /-- In the inline queue, or in an inline engine (R280). -/
  | inline
  /-- Taken by a DMA receive channel (R343). -/
  | rxDma
  /-- Discarded, while its remaining bytes still arrive (R64, R154). -/
  | dead
  deriving DecidableEq, Repr

/-- What classification decided for a frame (R107). -/
structure Actions where
  queue : Nat
  cls : Nat
  colour : Colour
  /-- The inline transform entry, if one is named (R280). -/
  xform : Option Nat
  deriving DecidableEq, Repr

/-- A meter's debit, for the refund of R144. -/
structure Debit where
  meter : Nat
  tc : Bool
  tp : Bool
  deriving DecidableEq, Repr

/-- A frame. -/
structure Frame where
  src : FrameSrc
  /-- Bytes received so far, from the destination address, FCS included. -/
  bytes : List Byte
  /-- The frame has ended at ingress. -/
  ended : Bool
  /-- It met an error after its transmission began: it leaves with a stomped FCS (R63, R64). -/
  stomp : Bool
  /-- It was longer than the ingress MAX_FRAME (R64). -/
  oversize : Bool
  /-- Network time of its SFD at ingress, in 2^-48 ns, and the cycle of it (R183, R189). -/
  sfd : Nat
  sfdAt : Nat
  stage : Stage
  /-- Record words 0–31 once the parse has ended, with whether it is malformed. -/
  words : Option (Vector (BitVec 16) 32)
  malformed : Bool
  act : Option Actions
  /-- The path of R59: `some true` is cut-through. -/
  cutThrough : Option Bool
  /-- Egress transmission of a cut-through frame has begun (R60). -/
  ctStarted : Bool
  /-- Its first preamble bit has been sent: it has been dequeued (R66, R197). -/
  sent : Bool
  /-- Charge length B of R144, 0 before admission. -/
  charge : Nat
  /-- Cells held on die. -/
  cells : Nat
  /-- Cycle of admission, for its age (R68). -/
  admittedAt : Nat
  debit : Option Debit
  /-- Stream filter whose MAX_SDU is compared when the frame ends (R183). -/
  sf : Option Nat
  /-- Colour of a stream filter's RECOLOUR, applied under R186. -/
  recolour : Option Colour
  /-- Flow placement entry and the firing number it carries (R224, R225). -/
  placement : Option (Nat × Nat)
  deriving DecidableEq, Repr

/-- A frame whose first bytes arrive. -/
def Frame.new (src : FrameSrc) (bytes : List Byte) (sfd sfdAt : Nat) : Frame :=
  { src, bytes, ended := false, stomp := false, oversize := false, sfd, sfdAt, stage := .rx, words := none, malformed := false,
    act := none, cutThrough := none, ctStarted := false, sent := false, charge := 0, cells := 0, admittedAt := 0, debit := none,
    sf := none, recolour := none, placement := none }

/-- Frame length L so far (R59). -/
def Frame.len (f : Frame) : Nat := f.bytes.length

end Sys2Proof.Machine
end

