-- ==== Sys2Proof/Machine/ClsState.lean ====
section
/-!
DEFINITION. The state of classification and of the match tables (chapter Classification Rules and Match Tables).
-/

namespace Sys2Proof.Machine

/-- A rule (R114): eight values, eight masks, the control word. -/
structure Rule where
  values : List Nat
  masks : List Nat
  ctl : Nat
  deriving DecidableEq, Repr

def Rule.reset : Rule := ⟨List.replicate 8 0, List.replicate 8 0, 0⟩

/-- An exact-match entry (R117): key, control word, stamp in µs. -/
structure EmEntry where
  key : List Byte
  ctl : Nat
  stamp : Nat
  deriving DecidableEq, Repr

def EmEntry.reset : EmEntry := ⟨List.replicate 16 0#8, 0, 0⟩

/-- An LPM entry (R123): prefix, control word. A wide entry stands at its first slot. -/
structure LpmEntry where
  pfx : List Byte
  ctl : Nat
  deriving DecidableEq, Repr

def LpmEntry.reset : LpmEntry := ⟨List.replicate 16 0#8, 0⟩

/-- An entry of a table, for parity (R134): a rule of a pipeline, an exact-match bucket × 4 + way, an overflow slot, an
LPM slot. -/
inductive EntryRef where
  | rule (k i : Nat)
  | em (i : Nat)
  | ovf (i : Nat)
  | lpm (i : Nat)
  deriving DecidableEq, Repr

/-- A learn request in the arbiter's queue (R125). -/
structure LearnReq where
  key : List Byte
  port : Nat
  pipe : Nat
  /-- The cycle in which it was queued. -/
  at_ : Nat
  deriving DecidableEq, Repr

/-- What the lookups of a record found (R107). -/
structure Look where
  cls : Nat
  colour : Colour
  queue : Option Nat
  deriving DecidableEq, Repr

/-- A record in the classification stage. -/
structure InCls where
  frame : Nat
  words : Vector (BitVec 16) 32
  /-- The cycle of its arrival. -/
  at_ : Nat
  malformed : Bool
  /-- PL_MALF_CTRL as the end of its parse found it (R95). -/
  malf : W32
  look : Option Look
  deriving DecidableEq, Repr

/-- Classification in one pipeline. -/
structure ClsPipe where
  rules : Tab Rule
  inflight : List InCls
  /-- The punt queue (R137). -/
  punt : List Nat
  /-- The punt bucket in milli-packets, and the µs up to which it has gained (R138). -/
  bucket : Nat
  bucketAt : Nat
  deriving DecidableEq, Repr

def ClsPipe.reset : ClsPipe := ⟨[], [], [], 64000, 0⟩

/-- The table block. -/
structure TblState where
  em : Tab EmEntry
  ovf : Tab EmEntry
  lpm : Tab LpmEntry
  /-- Entries that hold a parity error not yet found (R134). -/
  bad : List EntryRef
  /-- The learn arbiter's queue (R125). -/
  learn : List LearnReq
  /-- Table command blocks handed over, oldest first (R126). -/
  jobs : List Job
  /-- PHASE of the learn-event ring (R128). -/
  phase : Bool
  /-- By structure (exact-match banks, LPM banks, rule memories, overflow store): how many entries of each of its ports the
  scrubber has read of the present pass (R135). -/
  scrub : List Nat
  /-- The cycle in which that pass began. -/
  scrubAt : Nat
  /-- The first cycle in which the arbiter can commit again (R126). -/
  nextAt : Nat
  deriving DecidableEq, Repr

def TblState.reset : TblState := ⟨[], [], [], [], [], [], true, [0, 0, 0, 0], 0, 0⟩

end Sys2Proof.Machine
end

