-- ==== Sys2Proof/Machine/CoreState.lean ====
section
/-!
DEFINITION. The state of the cores: threads, channels, flow placement (chapter Cores, Threads and Channels).
-/

namespace Sys2Proof.Machine

/-- Privilege modes (R199). -/
inductive Priv where
  | u | s | m
  deriving DecidableEq, Repr

/-- What a thread waits for (R205, R212, R216). -/
inductive Wait where
  /-- It runs: ready, or stalled for an operand. -/
  | run
  | wfi
  | twait (mask : Nat)
  | pause (until_ : Nat)
  /-- Blocked in an Xplc instruction since a cycle: CHSEND with its message, CHRECV and PKRECV with their destination
  register, PKSEND with its handle and verdict. -/
  | send (ep : Nat) (msg : W64) (since : Nat)
  | recv (ep rd since : Nat)
  | pkrecv (rd since : Nat)
  | pksend (handle verdict : W64) (since : Nat)
  /-- Its next instruction needs an entry of the core's miss buffer and found none (R209). -/
  | entry
  deriving DecidableEq, Repr

/-- An entry of the miss buffer: an access that has issued and whose line is outstanding (R205, R209). -/
structure Miss where
  line : Nat
  /-- The register that waits for it, x as 1–31 and f as 32–63, or 0, and what that register held before. -/
  dest : Nat
  old : W64
  /-- The instruction, the address it names, and the code of its access fault. -/
  pc : W64
  va : Nat
  fault : Nat
  /-- An instruction fetch; a store, which no instruction waits for. -/
  fetch : Bool
  store : Bool
  /-- It has its entry of the miss buffer; a store without one waits in its thread's store buffer (R209, R238). -/
  entered : Bool
  /-- Whether the request and the line travel by the kiln port, since when it waits to leave, and whether it has left (R208). -/
  port : Bool
  since : Nat
  sent : Bool
  /-- The logical kiln that the request carries and its firing number, from when it leaves (R33). -/
  tag : Option (Nat × Nat)
  deriving DecidableEq, Repr

/-- One thread (R202). -/
structure Thread where
  enabled : Bool
  /-- x0–x31 (x0 reads as zero) and f0–f31. -/
  x : Vector W64 32
  f : Vector W64 32
  pc : W64
  mode : Priv
  /-- The CSRs that hold a value of their own, by number; an unlisted one holds its reset value. -/
  csrs : Tab Nat
  wait : Wait
  /-- Its entries of the core's miss buffer, oldest first (R209). -/
  missed : List Miss
  /-- The reservation of LR: a line number (R247). -/
  resv : Option Nat
  /-- chstat.LAST (R215). -/
  last : Nat
  /-- Send and receive endpoint FIFOs, by endpoint (R213). -/
  tx : Tab (List W64)
  rx : Tab (List W64)
  /-- The packet inbox and the return queue (R226, R227). -/
  inbox : List W64
  retq : List (W64 × W64)
  /-- By register (f from 32): the first cycle in which a dependent instruction can issue (R205). -/
  busy : Tab Nat
  /-- The first cycle of its next fetch. -/
  fetchAt : Nat
  /-- Issues in its own slot, and in free slots (R201). -/
  ownIssues : Nat
  freeIssues : Nat
  /-- Cycles spent blocked in Xplc instructions; L1D misses; instructions retired. -/
  xplcStall : Nat
  misses : Nat
  retired : Nat
  /-- What CSR writes have added to the counters mcycle, minstret, mhpmcounter3–6, by CSR number. -/
  ctrOfs : Tab Int
  deriving DecidableEq, Repr

/-- A thread at quadrant release or package reset (R203). -/
def Thread.reset : Thread :=
  { enabled := false, x := Vector.replicate 32 0#64, f := Vector.replicate 32 0#64, pc := 0#64, mode := .m, csrs := [],
    wait := .run, missed := [], resv := none, last := 0, tx := [], rx := [], inbox := [], retq := [], busy := [], fetchAt := 0,
    ownIssues := 0, freeIssues := 0, xplcStall := 0, misses := 0, retired := 0, ctrOfs := [] }

/-- What a core holds once for its threads (R202, R206). Cores 128 and 129 are the management cores. -/
structure CoreSt where
  hpEn : Bool
  hp : Nat
  /-- The free-slot pointer F. -/
  f : Nat
  /-- The first cycle in which it can issue again, in its own clock (R206). -/
  nextIssue : Nat
  /-- The cycle of its release. -/
  since : Nat
  /-- The first cycle that its last slot of the kiln port leaves free, outward and inward (R208). -/
  portOut : Nat
  portIn : Nat
  /-- Since when each line that it wrote back waits to leave (R208). -/
  wbacks : List Nat
  deriving DecidableEq, Repr

def CoreSt.reset : CoreSt := ⟨false, 0, 0, 0, 0, 0, 0, []⟩

/-- A message in flight: for a message that left its kiln, the logical kiln and its firing number (R218). -/
structure Flight where
  msg : W64
  kiln : Option (Nat × Nat)
  at_ : Nat
  deriving DecidableEq, Repr

/-- A credit in flight: when it was sent, and where it comes from another kiln or a management core the kiln it answers, with its
number (R33, R475). -/
structure Credit where
  at_ : Nat
  kiln : Option (Nat × Nat)
  deriving DecidableEq, Repr

/-- A channel of the channel table (R222). -/
structure Channel where
  closed : Bool
  srcT : Nat
  srcEp : Nat
  dstT : Nat
  dstEp : Nat
  owner : Nat
  credits : Nat
  /-- Messages and credits in flight, oldest first, with the cycle of their arrival at the earliest. -/
  msgs : List Flight
  creds : List Credit
  /-- The unbinds that wait: FORCE and the job to complete (R223). -/
  unbind : List (Bool × Job)
  /-- Since which cycle the head of the send FIFO could leave, with credit for it (R208). -/
  since : Option Nat
  deriving DecidableEq, Repr

/-- A flow placement entry (R232). -/
structure Place where
  valid : Bool
  thread : Nat
  owner : Nat
  firing : Nat
  pending : Bool
  placed : Nat
  returned : Nat
  late : Nat
  holdLimit : Nat
  /-- While MOVING: the entry as it will be (VALID, THREAD, OWNER), and the cycle of acceptance. -/
  next : Option (Bool × Nat × Nat)
  since : Nat
  /-- The hold has ended, or the entry was not valid, and its bump is pending. -/
  ended : Bool
  /-- Commands that wait for that bump to be answered (R36). -/
  waits : List Job
  /-- Frames of the entry on their way to a thread, (frame, thread), in arrival order, and frames in the hold. -/
  toward : List (Nat × Nat)
  held : List Nat
  deriving DecidableEq, Repr

def Place.reset : Place :=
  ⟨false, 0, 0, 0, false, 0, 0, 0, 0, none, 0, false, [], [], []⟩

/-- A frame delivered to a thread and not yet returned (R226). -/
structure Given where
  thread : Nat
  frame : Nat
  /-- First cell and number of cells. -/
  cell : Nat
  cells : Nat
  /-- What the cells hold: the record, the frame, and what was left in them before (notes/assumptions/25). -/
  data : List Byte
  /-- The placement entry and the firing number, or none for a punted frame. -/
  place : Option (Nat × Nat)
  at_ : Nat
  deriving DecidableEq, Repr

/-- A drain marker (R230): on its way to a thread behind the frames `after`, or delivered and not yet returned. -/
structure Marker where
  thread : Nat
  entry : Nat
  firing : Nat
  after : List Nat
  delivered : Bool
  /-- The cycle in which it was sent. -/
  at_ : Nat
  deriving DecidableEq, Repr

/-- The cores. -/
structure CoreState where
  threads : Tab Thread
  cores : Tab CoreSt
  chans : Tab (Option Channel)
  places : Tab Place
  given : List Given
  markers : List Marker
  /-- Core command blocks handed over, oldest first (R221). -/
  jobs : List Job
  /-- The counters of R233. -/
  stats : Tab Nat
  /-- Requests for lines that a kiln sent before it was replaced or died, their answers still to come: thread, kiln, number (R475). -/
  strays : List (Nat × Nat × Nat)
  deriving DecidableEq, Repr

def CoreState.reset : CoreState := ⟨[], [], [], [], [], [], [], [], []⟩

end Sys2Proof.Machine
end

