-- ==== Sys2Proof/Machine/EthState.lean ====
section
/-!
DEFINITION. The state of the Ethernet ports beyond their registers (chapter Ethernet Ports and Lanes).
-/

namespace Sys2Proof.Machine

/-- One sub-port, by port index (R53). -/
structure SubPort where
  /-- The frame in reception, by its number. -/
  rx : Option Nat
  /-- The frame chosen or in transmission. -/
  tx : Option Nat
  /-- The first preamble bit of that frame has been sent, so it has left its queue (R66). -/
  started : Bool
  /-- The cycle in which its transmitter falls free (R166). -/
  txFreeAt : Nat
  /-- The last cycle in which one of the four link conditions failed, or requalification began (R58, R71). -/
  brokenAt : Nat
  /-- The link has come up since the last port or package reset (R69). -/
  everUp : Bool
  /-- The running hold's expiry cycle (R66). -/
  holdEnds : Option Nat
  /-- The hold has expired and the link has not returned (R69). -/
  pastHold : Bool
  /-- A flush of its queues runs until this cycle (R69). -/
  flushEnds : Option Nat
  /-- Its receive path runs (R504). -/
  ran : Bool
  /-- Frames that near-end loopback returns to its own receive, oldest first (R71). -/
  loop : List (List Byte)
  deriving DecidableEq, Repr

/-- A sub-port at package reset. -/
def SubPort.reset : SubPort := ⟨none, none, false, 0, 0, false, none, false, none, false, []⟩

/-- The ports. -/
structure EthState where
  sub : Tab SubPort
  deriving DecidableEq, Repr

def EthState.reset : EthState := ⟨[]⟩

end Sys2Proof.Machine
end

