-- ==== Sys2Proof/Machine/GlzState.lean ====
section
/-!
DEFINITION. The state of the glaze engines: key contexts, jobs, engines, the inline queue and the inline transform
table (chapter Glaze Cipher Engines).
-/

namespace Sys2Proof.Machine

/-- A key context (R264, R265): attributes, key material, whether NEAR_LIMIT has fired since it was loaded (R270), and
whether the on-die cache holds it (R268). The material of a valid context outside the cache is as its slot in the HBM holds
it: 72 bytes, wrapped under the device storage key. -/
structure KeyCtx where
  attr : List Byte
  key : List Byte
  near : Bool
  cached : Bool
  deriving DecidableEq, Repr

def KeyCtx.reset : KeyCtx := ⟨List.replicate 64 0#8, List.replicate 64 0#8, false, false⟩

/-- A lookaside job at the dispatcher; `copy` holds the descriptor of a COPY with KC_EN (R344). -/
structure GlzJob where
  job : Job
  copy : Option (List Byte)
  deriving DecidableEq, Repr

/-- An inline transform entry (R281): configuration words 0–5, HIGHEST, replay bitmap, counters. -/
structure Ixt where
  cfg : List Nat
  highest : Nat
  bitmap : Nat
  ok : Nat
  drop : Nat
  deriving DecidableEq, Repr

def Ixt.reset : Ixt := ⟨[0, 0, 0, 0, 0, 0], 0, 0, 0, 0⟩

/-- What an engine runs: a job, or a frame with the entry number it names. -/
inductive GlzWork where
  | job (j : GlzJob)
  | frame (i x : Nat)
  deriving DecidableEq, Repr

/-- A busy engine. -/
structure GlzRun where
  work : GlzWork
  /-- The context as it stood at the start, and the entry of a frame. -/
  ctx : KeyCtx
  ent : Ixt
  /-- The invocation value used, and whether it left the margin within WARN (R270). -/
  counter : Option Nat
  near : Bool
  /-- A frame refused at its start: the counter of R285 it counts in. -/
  bad : Option Nat
  started : Nat
  /-- The cycle in which it can end: none while its context is fetched (R268). -/
  due : Option Nat
  /-- Occupancy in cycles (R278). -/
  cost : Nat
  /-- Of a decryption under POLICY FLAG: the bytes of plaintext written so far, and that its tag was found not to match (R277). -/
  wrote : Nat
  unt : Bool
  deriving DecidableEq, Repr

/-- The glaze block. -/
structure GlzState where
  kc : Tab KeyCtx
  jobs : List GlzJob
  engines : Tab (Option GlzRun)
  inlineQ : List Nat
  ixt : Tab Ixt
  arb : Arb
  deriving DecidableEq, Repr

def GlzState.reset : GlzState := ⟨[], [], [], [], [], .reset⟩

end Sys2Proof.Machine
end

