-- ==== Sys2Proof/Machine/HifState.lean ====
section
/-!
DEFINITION. The state of the PCIe endpoint beyond its registers (chapter PCIe Endpoint): the configuration state of
each function, by the register names of the PCIe Base Specification (notes/assumptions/20), and the link state.
-/

namespace Sys2Proof.Machine

/-- One MSI-X table entry. -/
structure MsixEntry where
  addr : Nat
  data : Nat
  masked : Bool
  pending : Bool
  /-- The DMA channels whose message pends (R350). -/
  chans : List Nat
  deriving DecidableEq, Repr

def MsixEntry.reset : MsixEntry := ⟨0, 0, true, false, []⟩

/-- The configuration state of one function. -/
structure Func where
  /-- Memory Space Enable and Bus Master Enable. -/
  mse : Bool
  bme : Bool
  bar0 : Nat
  bar2 : Nat
  bar4 : Nat
  /-- The function is in D3hot (R323). -/
  d3hot : Bool
  pmeEn : Bool
  pmeStatus : Bool
  /-- Device Control: MPS and MRRS codes, Relaxed Ordering and ID-Based Ordering enables, the Completion Timeout Value with
  bit 4 for Disable (R319). -/
  mps : Nat
  mrrs : Nat
  ro : Bool
  ido : Bool
  cto : Nat
  /-- SR-IOV of a PF: VF Enable, VF Memory Space Enable, NumVFs and the VF BARs (R313). -/
  vfEnable : Bool
  vfMse : Bool
  numVfs : Nat
  vfBar0 : Nat
  vfBar2 : Nat
  vfBar4 : Nat
  msixEn : Bool
  msixMask : Bool
  atsEn : Bool
  /-- SERR# Enable; the error reporting enables of Device Control: bit 0 correctable, 1 non-fatal, 2 fatal, 3 UR. -/
  serr : Bool
  errEn : Nat
  /-- AER: correctable and uncorrectable status, uncorrectable severity, and the masks of both. -/
  aerCorr : Nat
  aerUncorr : Nat
  aerSev : Nat
  aerUncorrMask : Nat
  aerCorrMask : Nat
  deriving DecidableEq, Repr

/-- A function after a fundamental reset. -/
def Func.reset : Func :=
  { mse := false, bme := false, bar0 := 0, bar2 := 0, bar4 := 0, d3hot := false, pmeEn := false, pmeStatus := false,
    mps := 0, mrrs := 2, ro := true, ido := false, cto := 0, vfEnable := false, vfMse := false, numVfs := 0,
    vfBar0 := 0, vfBar2 := 0, vfBar4 := 0, msixEn := false, msixMask := false, atsEn := false, serr := false,
    errEn := 0, aerCorr := 0, aerUncorr := 0, aerSev := 0x00462030,
    aerUncorrMask := 0x00400000, aerCorrMask := 0xE000 }

/-- A posted write on its way to the host (R328). -/
structure PWrite where
  func : Nat
  addr : Nat
  bytes : List Byte
  /-- The channel it belongs to, and for a data write its descriptor index and the byte of it that it begins with. -/
  chan : Option Nat
  pos : Option (Nat × Nat)
  /-- For a completion write, the descriptor index it completes. -/
  cpl : Option Nat
  /-- For a piece of a received frame, the frame and the byte of it with which the write begins. -/
  frame : Option (Nat × Nat)
  /-- The owner whose firing number it carries, with that number (R33), and the cycle of its issue; none for a message. -/
  tag : Option (Owner × Nat)
  at_ : Nat
  ro : Bool
  ido : Bool
  deriving DecidableEq, Repr

/-- A request in a link's outbound queue: a write, or a read by its number. -/
inductive HostReq where
  | write (w : PWrite)
  | read (func tag addr len : Nat) (ro ido : Bool)
  deriving DecidableEq, Repr

/-- One host link, by n × 4 + m. -/
structure Link where
  /-- DL_Active reached since package reset or since the last release (R326). -/
  wasActive : Bool
  /-- It has completed the PME_Turn_Off handshake and rests in L2/L3 Ready (R324). -/
  inL23 : Bool
  /-- Requests that wait for the gate, the link or a release, in order (R440, R328). -/
  outq : List HostReq
  /-- Writes of channels that wait for the translation of their page, and those behind them, in order (R318, R334). -/
  xwait : List PWrite
  /-- ATS invalidations that wait: the function, the reads and the number of writes still to be acknowledged that were issued under
  the old translations (R334). -/
  invals : List (Nat × List Nat × Nat)
  /-- Writes issued and not yet acknowledged, oldest first (R328). -/
  unacked : List PWrite
  /-- Writes abandoned by a freeze, oldest first, to be made again after release (R328). -/
  abandoned : List PWrite
  /-- FLRs received while frozen, in order (R329). -/
  flrs : List Nat
  /-- Abandoned tags, and the cycle until which a late completion is dropped without report (R328). -/
  oldTags : List (Nat × Nat)
  /-- The cycle of the last TLP, and that since which it has been in L0 without a freeze event (R325, R329). -/
  lastTlp : Nat
  l0Since : Nat
  /-- The cycle of the last freeze event (R330). -/
  frozeAt : Option Nat
  /-- The lanes in use, fewer than the trained width in L0p (R325). -/
  active : Nat
  /-- What the host enables of ASPM: bit 0 L1, bit 1 L1.1, bit 2 L1.2; LTR; the LTR value last reported in µs. -/
  aspm : Nat
  ltrEn : Bool
  /-- L1 PM Substates: Control 1 but for the enables of `aspm`, and Control 2. -/
  l1pm1 : Nat
  l1pm2 : Nat
  ltr : Option Nat
  /-- The bus number captured from configuration writes. -/
  bus : Nat
  deriving DecidableEq, Repr

def Link.reset : Link :=
  ⟨false, false, [], [], [], [], [], [], [], 0, 0, none, 0, 0, false, 0, 0, none, 0⟩

/-- The PCIe endpoint. -/
structure HifState where
  /-- By link × 2,048 + routing-ID offset. -/
  funcs : Tab Func
  /-- By (link × 2,048 + offset) × 2,048 + entry. -/
  msix : Tab MsixEntry
  links : Tab Link
  /-- By controller: PERSTn_N asserted, and an orderly D3cold entry in force (R324). -/
  perst : List Nat
  d3cold : List Nat
  /-- WAKE_N driven low, by the controllers with a wake pending (R324). -/
  wake : List Nat
  deriving DecidableEq, Repr

/-- PERSTn_N is asserted at power-on (notes/assumptions/20). -/
def HifState.reset : HifState := ⟨[], [], [], [0, 1], [], []⟩

end Sys2Proof.Machine
end

