-- ==== Sys2Proof/Machine/ParseState.lean ====
section
/-!
DEFINITION. The state of the parse engines of a pipeline (chapter Parse Engines).
-/

namespace Sys2Proof.Machine

/-- The four flags of an engine (R81). -/
structure PFlags where
  z : Bool
  c : Bool
  s : Bool
  x : Bool
  deriving DecidableEq, Repr

/-- A parse engine that runs a frame (R81). -/
structure Engine where
  /-- The frame it parses. -/
  frame : Nat
  /-- g0–g15; g0 reads as zero (R81). -/
  g : Vector W16 16
  fl : PFlags
  /-- Instruction-memory word index, 12 bits. -/
  pc : Nat
  /-- Instructions executed. -/
  n : Nat
  /-- Stall cycles so far (R80). -/
  stalls : Nat
  /-- Record words 0–31; words 0 and 1 are filled at the end of the parse (R93). -/
  words : Vector W16 32
  /-- PL_PARSE_ENTRY at the allocation (R102). -/
  entry : Nat
  allocCycle : Nat
  /-- The first cycle in which the next instruction can execute (R97). -/
  nextAt : Nat
  /-- While a load waits: the cycle in which it began to wait, and its instruction word (R80). -/
  stalledFrom : Option (Nat × W32)
  deriving DecidableEq, Repr

/-- The cause of a malformed parse (R93). -/
inductive Cause where
  | budget | overEnd | reject | window | illegal | imem
  deriving DecidableEq, Repr

/-- The code of CAUSE in record word 0; 0 is none. -/
def causeCode : Option Cause → Nat
  | none => 0
  | some .budget => 1 | some .overEnd => 2 | some .reject => 3
  | some .window => 4 | some .illegal => 5 | some .imem => 6

/-- A finished record on its way through the record check (R98). -/
structure DoneRec where
  words : Vector W16 32
  cause : Option Cause
  /-- PL_MALF_CTRL in the cycle of the parse's end (R95). -/
  malf : W32
  n : Nat
  stalls : Nat
  /-- The first cycle in which the record can reach classification. -/
  readyAt : Nat
  deriving DecidableEq, Repr

/-- The parse stage of one pipeline. -/
structure ParseState where
  /-- Frames in the 28-cycle crossing, in order, with the cycle in which they reach the engines (R75). -/
  crossing : List (Nat × Nat)
  /-- The parse queue (R77). -/
  queue : List Nat
  /-- Running engines by number. -/
  engines : Tab (Option Engine)
  /-- By engine: the first cycle in which it is free again (R98). -/
  freeFrom : Tab Nat
  /-- Frames given an engine whose record has not left the stage, in allocation order (R78). -/
  order : List Nat
  /-- Finished records, by frame. -/
  done : List (Nat × DoneRec)
  /-- Instruction-memory words that hold an uncorrectable error (R91, R101). -/
  imemBad : List Nat
  deriving DecidableEq, Repr

def ParseState.reset : ParseState := ⟨[], [], [], [], [], [], []⟩

end Sys2Proof.Machine
end

