-- ==== Sys2Proof/Machine/PkeState.lean ====
section
/-!
DEFINITION. The state of the public-key units (chapter Public-Key Units).
-/

namespace Sys2Proof.Machine

/-- A running job. -/
structure PkeRun where
  job : Job
  /-- The key-wrapping key as it stood at the start (R306); none for a job that names no blob. -/
  kwk : Option (List Byte)
  /-- The blob's plain header, as it was checked before the start (R296). -/
  hdr : List Byte
  started : Nat
  /-- Cycles charged at the arbiter (R371). -/
  charged : Nat
  /-- An uncorrectable error of its working memory: it returns UNIT_ERROR at its end (R299, R300). -/
  fault : Bool
  deriving DecidableEq, Repr

/-- The public-key units. -/
structure PkeState where
  jobs : List Job
  /-- The headers that the host has returned for the blobs of waiting jobs. -/
  hdrs : List (Job × List Byte)
  units : Tab (Option PkeRun)
  arb : Arb
  deriving DecidableEq, Repr

def PkeState.reset : PkeState := ⟨[], [], [], .reset⟩

end Sys2Proof.Machine
end

