-- ==== Sys2Proof/Machine/PkgState.lean ====
section
/-!
DEFINITION. The state of the clocks, the crossings, the resets that run, the supplies and the cones beyond their registers
(chapters Clocks, Resets and Domain Crossings, and Package, Power and Service Life).
-/

namespace Sys2Proof.Machine

/-- One cone (R495 to R498). -/
structure Cone where
  /-- Successive readings of 115 °C or above, and successive readings more than 10 °C from every neighbour. -/
  hot : Nat
  off : Nat
  /-- Invalid until package cold reset. -/
  bad : Bool
  deriving DecidableEq, Repr

def Cone.reset : Cone := ⟨0, 0, false⟩

/-- Clocks, resets, supplies and cones. -/
structure PkgState where
  /-- VSTBY is good (R489). -/
  standby : Bool
  /-- No main power-good since the last standby power-on. -/
  porPending : Bool
  /-- The oscillator monitor has tripped (R421). -/
  oscBad : Bool
  /-- Crossings severed by the reset of one side, and not yet reconnected (R425). -/
  severed : List Crossing
  /-- Register writes held in front of a severed crossing: their path, offset and word, in order (R425). -/
  held : List (Path × Nat × BitVec 32)
  /-- Quadrant resets that run, and whether each has begun or waits for a spare procedure (R430, R431). -/
  quads : List (Nat × Bool)
  /-- The AON cycle of the last warm-reset trigger (R431). -/
  lastWarm : Option Nat
  /-- THERMTRIP_N is low (R495). -/
  trip : Bool
  cones : Tab Cone
  /-- A TEMP_WARN record has been written and the junction has not fallen 2 °C below the threshold since. -/
  warned : Bool
  /-- By die: the sum of its hottest readings since package cold reset, in units of 0.125 °C, and their number (RAS_CONE_AVG). -/
  sums : Tab (Int × Nat)
  deriving DecidableEq, Repr

/-- After a package cold reset, standby and main power are good. -/
def PkgState.reset : PkgState :=
  { standby := true, porPending := false, oscBad := false, severed := [], held := [], quads := [], lastWarm := none, trip := false,
    cones := [], warned := false, sums := [] }

end Sys2Proof.Machine
end

