-- ==== Sys2Proof/Machine/RasState.lean ====
section
/-!
DEFINITION. The state of error reporting, online test and spares beyond its registers (chapter Errors, Injection, Online
Test and Spares).
-/

namespace Sys2Proof.Machine

/-- A kiln operation that runs (R471), or a takeover. -/
inductive SpareOp where
  /-- REPLACE of logical kiln `k` onto physical kiln `p`; `bumped` once step 4 has bumped the kiln or its bump waits. -/
  | replace (k p : Nat) (bumped : Bool)
  /-- TEST of physical kiln `p`. -/
  | test (p : Nat)
  /-- DECLARE_DEAD of logical kiln `k`, while its takeover runs. -/
  | dead (k : Nat)
  deriving DecidableEq, Repr

/-- Takeover of a dead logical kiln (R474): its cycle of declaration, and how far it is. -/
structure Takeover where
  kiln : Nat
  since : Nat
  deriving DecidableEq, Repr

/-- A rotation of the LPM banks (R465). -/
structure LpmRot where
  bank : Nat
  /-- The physical bank it leaves and the one it moves to. -/
  old : Nat
  new : Nat
  since : Nat
  /-- The switch has been made: the march test of the old bank runs. -/
  switched : Bool
  deriving DecidableEq, Repr

/-- Error reporting, online test and spares. -/
structure RasState where
  /-- PHASE of the event ring (R454). -/
  phase : Bool
  /-- By detector: 1 + the cycle of its last CE record, and the CEs counted since (R455). -/
  ce : Tab (Nat × Nat)
  /-- Matching accesses that the injector has counted (R461). -/
  injN : Nat
  /-- The error now entered is an injected one: set only while a command takes effect. -/
  injNow : Bool
  /-- By pipeline: the engine that waits to be idle or is tested, with the cycle at which its test began; the cycle of the
  last rotation; the engine to take next (R463). -/
  peTest : Tab (Option (Nat × Option Nat))
  peLast : Tab Nat
  peNext : Tab Nat
  /-- Self-tests that run: glaze engine or public-key unit, with the cycle of their begin (R464). -/
  glzTest : Tab (Option Nat)
  pkeTest : Tab (Option Nat)
  /-- Engines and units that stay out until a package reset. -/
  glzBad : List Nat
  pkeBad : List Nat
  /-- Physical bank of a logical LPM bank, where it is not the bank of its own number; the rotation that runs; the retired
  bank. -/
  lpmMap : Tab (Option Nat)
  lpmRot : Option LpmRot
  lpmDead : Option Nat
  /-- By port under lane test: the manager's LOOPBACK value, and the cycle of RUN (R466). -/
  lane : Tab (Option (Nat × Nat))
  /-- Spare rows used, by bank (pseudo-channel × 16 + bank), and corrected errors by row (that × 65,536 + row). -/
  rowsUsed : Tab Nat
  rowCe : Tab Nat
  /-- Rows being spared, by row key, with whether the manager asked for it; rows spared (R467). -/
  sparing : List (Nat × Bool)
  spared : List Nat
  op : Option SpareOp
  takeovers : List Takeover
  /-- By quadrant: the last takeover by its spare: cycle of declaration, logical kiln, physical kiln (R478). -/
  lastTake : Tab (Option (Nat × Nat × Nat))
  deriving DecidableEq, Repr

def RasState.reset : RasState :=
  { phase := true, ce := [], injN := 0, injNow := false, peTest := [], peLast := [], peNext := [], glzTest := [], pkeTest := [],
    glzBad := [], pkeBad := [], lpmMap := [], lpmRot := none, lpmDead := none, lane := [], rowsUsed := [], rowCe := [],
    sparing := [], spared := [], op := none, takeovers := [], lastTake := [] }

end Sys2Proof.Machine
end

