-- ==== Sys2Proof/Machine/RegMap.lean ====
section
/-!
DEFINITION. The register map (R26 and the register tables of every chapter): for each register its offset in its
block, its strides, and for each field its place, access type (R43), reset value (R14) and the rule by which a
written value is fitted to the field. A field marked `own` has a row of its own in the opcode table.
-/

namespace Sys2Proof.Machine

/-- The access types of R43 (CNT registers are kept apart: see `counterAt`). -/
inductive Acc where
  | rw | ro | w1c | w1s | wo | rwl
  deriving DecidableEq, Repr

/-- The rule by which a field's table fits a written value to the field. -/
inductive Fix where
  /-- The value is stored as written. -/
  | none
  /-- Below `lo` stores `lo`, above `hi` stores `hi`. -/
  | clamp (lo hi : Nat)
  /-- Above `limit` stores `v`. -/
  | over (limit v : Nat)
  /-- 0 stores `v`. -/
  | zero (v : Nat)
  /-- Signed; beyond ± `limit` stores the limit (TIME_FREQ_ADJ). -/
  | signed (limit : Nat)
  /-- Signed; above `limit` stores the limit (RAS_CONE_CFG). -/
  | signedMax (limit : Nat)
  /-- HIF_CTRL.MAX_GEN: 0 and 7 store 6. -/
  | maxGen
  /-- BUF_SPILL_SIZE.GIB: above 32 stores 32; a region reaching past 96 GiB stores 0. -/
  | spillSize
  deriving DecidableEq, Repr

/-- One field of a register. -/
structure FieldDesc where
  lo : Nat
  width : Nat
  acc : Acc
  reset : Nat
  own : Bool
  fix : Fix
  deriving DecidableEq, Repr

/-- One register, or one array of registers at fixed strides, of a block. `lock` is the offset of the control whose
first write locks the RWL fields (R46), at the same strides when `lockMoves`. -/
structure RegDesc where
  off : Nat
  dims : List (Nat × Nat)
  lock : Nat
  lockMoves : Bool
  fields : List FieldDesc
  deriving DecidableEq, Repr

/-- One block of R26: base, stride and number of instances. -/
structure BlockDesc where
  base : Nat
  stride : Nat
  count : Nat
  deriving DecidableEq, Repr

/-- The registers of block GLB. -/
def regsGLB : List RegDesc := [
  -- GLB_DEVID
  ⟨0x0, [], 0, false,
    [⟨16, 16, .ro, 4736, false, .none⟩,
     ⟨8, 8, .ro, 65, false, .none⟩,
     ⟨0, 8, .ro, 0, false, .none⟩]⟩,
  -- GLB_LOCK_VIOL_ADDR
  ⟨0x44, [], 0, false,
    [⟨0, 26, .ro, 0, false, .none⟩]⟩,
  -- GLB_LOCK_VIOL_SRC
  ⟨0x48, [], 0, false,
    [⟨31, 1, .w1c, 0, false, .none⟩,
     ⟨0, 2, .ro, 0, false, .none⟩]⟩
]

/-- The registers of block CLK. -/
def regsCLK : List RegDesc := [
  -- CLK_PLL_STATUS
  ⟨0x0, [], 0, false,
    [⟨7, 1, .ro, 0, false, .none⟩,
     ⟨6, 1, .ro, 0, false, .none⟩,
     ⟨5, 1, .ro, 0, false, .none⟩,
     ⟨4, 1, .ro, 0, false, .none⟩,
     ⟨3, 1, .ro, 0, false, .none⟩,
     ⟨2, 1, .ro, 0, false, .none⟩,
     ⟨1, 1, .ro, 0, false, .none⟩,
     ⟨0, 1, .ro, 1, false, .none⟩]⟩,
  -- CLK_PLL_EVENT
  ⟨0x4, [], 0, false,
    [⟨1, 7, .w1c, 0, false, .none⟩,
     ⟨0, 1, .w1c, 0, false, .none⟩]⟩,
  -- CLK_RX_EN
  ⟨0x8, [], 0xfffc, false,
    [⟨0, 16, .rwl, 65535, false, .none⟩]⟩,
  -- CLK_HIF_SSC
  ⟨0xc, [], 0xfffc, false,
    [⟨0, 2, .rwl, 2, false, .none⟩]⟩,
  -- CLK_RX_SRC
  ⟨0x100, [(0x4, 16)], 0, false,
    [⟨2, 1, .ro, 1, false, .none⟩,
     ⟨0, 2, .ro, 0, false, .none⟩]⟩
]

/-- The registers of block RST. -/
def regsRST : List RegDesc := [
  -- RST_CAUSE
  ⟨0x0, [], 0, false,
    [⟨0, 4, .ro, 1, false, .none⟩]⟩,
  -- RST_WARM_COUNT
  ⟨0x4, [], 0, false,
    [⟨0, 16, .ro, 0, false, .none⟩]⟩,
  -- RST_CTRL
  ⟨0x8, [], 0, false,
    [⟨31, 1, .wo, 0, true, .none⟩,
     ⟨0, 8, .wo, 0, false, .none⟩]⟩,
  -- RST_QUAD_CTRL
  ⟨0x10, [], 0, false,
    [⟨0, 4, .w1s, 0, true, .none⟩]⟩,
  -- RST_QUAD_STATUS
  ⟨0x14, [], 0, false,
    [⟨16, 4, .ro, 0, false, .none⟩,
     ⟨8, 4, .w1c, 0, false, .none⟩,
     ⟨0, 4, .ro, 15, false, .none⟩]⟩
]

/-- The registers of block BOOT. -/
def regsBOOT0 : List RegDesc := [
  -- BOOT_STATUS
  ⟨0x0, [], 0, false,
    [⟨31, 1, .ro, 0, false, .none⟩,
     ⟨30, 1, .ro, 0, false, .none⟩,
     ⟨29, 1, .ro, 0, false, .none⟩,
     ⟨27, 2, .ro, 0, false, .none⟩,
     ⟨24, 3, .ro, 0, false, .none⟩,
     ⟨16, 8, .ro, 0, false, .none⟩,
     ⟨14, 2, .ro, 0, false, .none⟩,
     ⟨13, 1, .ro, 0, false, .none⟩,
     ⟨0, 8, .ro, 0, false, .none⟩]⟩,
  -- BOOT_FUSE_STATUS
  ⟨0x4, [], 0, false,
    [⟨28, 4, .ro, 0, false, .none⟩,
     ⟨24, 4, .ro, 0, false, .none⟩,
     ⟨23, 1, .ro, 0, false, .none⟩,
     ⟨16, 2, .ro, 0, false, .none⟩,
     ⟨0, 8, .ro, 0, false, .none⟩]⟩,
  -- BOOT_KEY_DIGEST
  ⟨0x10, [(0x30, 4), (0x4, 12)], 0, false,
    [⟨0, 32, .ro, 0, false, .none⟩]⟩,
  -- BOOT_DEVNUM_LO
  ⟨0xd0, [], 0, false,
    [⟨0, 32, .ro, 0, false, .none⟩]⟩,
  -- BOOT_DEVNUM_HI
  ⟨0xd4, [], 0, false,
    [⟨0, 32, .ro, 0, false, .none⟩]⟩,
  -- BOOT_MGMT_VEC_LO
  ⟨0x100, [], 0, false,
    [⟨0, 32, .ro, 0, false, .none⟩]⟩,
  -- BOOT_MGMT_VEC_HI
  ⟨0x104, [], 0, false,
    [⟨0, 32, .ro, 0, false, .none⟩]⟩,
  -- BOOT_QUAD_VEC_LO
  ⟨0x110, [(0x8, 4)], 0, false,
    [⟨0, 32, .ro, 0, false, .none⟩]⟩,
  -- BOOT_QUAD_VEC_HI
  ⟨0x114, [(0x8, 4)], 0, false,
    [⟨0, 32, .ro, 0, false, .none⟩]⟩,
  -- BOOT_QUAD_REL
  ⟨0x130, [], 0, false,
    [⟨0, 4, .w1s, 0, true, .none⟩]⟩,
  -- BOOT_PROFILE_NEXT
  ⟨0x140, [], 0, false,
    [⟨31, 1, .rw, 0, false, .none⟩,
     ⟨0, 2, .rw, 0, false, .none⟩]⟩,
  -- BOOT_FLASH_CMD
  ⟨0x150, [], 0, false,
    [⟨28, 4, .wo, 0, true, .none⟩,
     ⟨16, 12, .rw, 0, false, .none⟩,
     ⟨0, 2, .rw, 0, false, .none⟩]⟩
]

/-- The registers of block BOOT, continued. -/
def regsBOOT1 : List RegDesc := [
  -- BOOT_FLASH_ADDR_LO
  ⟨0x154, [], 0, false,
    [⟨0, 32, .rw, 0, false, .none⟩]⟩,
  -- BOOT_FLASH_ADDR_HI
  ⟨0x158, [], 0, false,
    [⟨0, 32, .rw, 0, false, .none⟩]⟩,
  -- BOOT_FLASH_LEN
  ⟨0x15c, [], 0, false,
    [⟨0, 32, .rw, 0, false, .none⟩]⟩,
  -- BOOT_FLASH_STATUS
  ⟨0x160, [], 0, false,
    [⟨31, 1, .ro, 0, false, .none⟩,
     ⟨30, 1, .w1c, 0, false, .none⟩,
     ⟨0, 8, .ro, 0, false, .none⟩]⟩
]

/-- Every register of block BOOT. -/
def regsBOOT : List RegDesc := regsBOOT0 ++ regsBOOT1

/-- The registers of block RAS. -/
def regsRAS0 : List RegDesc := [
  -- RAS_CTRL
  ⟨0x0, [], 0, false,
    [⟨1, 1, .rw, 0, false, .none⟩]⟩,
  -- RAS_LOG_CFG
  ⟨0x4, [], 0, false,
    [⟨31, 1, .rw, 0, false, .none⟩,
     ⟨16, 12, .rw, 0, false, .none⟩,
     ⟨0, 5, .rw, 4, false, .clamp 4 16⟩]⟩,
  -- RAS_LOG_BASE_LO
  ⟨0x8, [], 0, false,
    [⟨0, 32, .rw, 0, false, .none⟩]⟩,
  -- RAS_LOG_BASE_HI
  ⟨0xc, [], 0, false,
    [⟨0, 32, .rw, 0, false, .none⟩]⟩,
  -- RAS_LOG_HEAD
  ⟨0x10, [], 0, false,
    [⟨0, 16, .rw, 0, false, .none⟩]⟩,
  -- RAS_LOG_TAIL
  ⟨0x14, [], 0, false,
    [⟨0, 16, .ro, 0, false, .none⟩]⟩,
  -- RAS_IRQ
  ⟨0x18, [], 0, false,
    [⟨31, 1, .rw, 0, false, .none⟩,
     ⟨16, 4, .rw, 1, false, .none⟩,
     ⟨0, 11, .rw, 0, false, .none⟩]⟩,
  -- RAS_STATUS
  ⟨0x20, [], 0, false,
    [⟨4, 1, .w1c, 0, false, .none⟩,
     ⟨2, 1, .w1c, 0, false, .none⟩,
     ⟨1, 1, .w1c, 0, false, .none⟩,
     ⟨0, 1, .w1c, 0, false, .none⟩]⟩,
  -- RAS_FATAL_REC
  ⟨0x30, [(0x4, 8)], 0, false,
    [⟨0, 32, .ro, 0, false, .none⟩]⟩,
  -- RAS_INJ
  ⟨0x100, [], 0, false,
    [⟨31, 1, .rw, 0, true, .none⟩,
     ⟨30, 1, .rw, 0, true, .none⟩,
     ⟨29, 1, .rw, 0, true, .none⟩,
     ⟨28, 1, .ro, 0, false, .none⟩,
     ⟨24, 4, .rw, 0, true, .none⟩,
     ⟨0, 16, .rw, 0, true, .none⟩]⟩,
  -- RAS_INJ_N
  ⟨0x104, [], 0, false,
    [⟨0, 24, .rw, 1, false, .zero 1⟩]⟩,
  -- RAS_INJ_MATCH
  ⟨0x108, [], 0, false,
    [⟨31, 1, .rw, 0, false, .none⟩,
     ⟨0, 31, .rw, 0, false, .none⟩]⟩
]

/-- The registers of block RAS, continued. -/
def regsRAS1 : List RegDesc := [
  -- RAS_PE_ROT
  ⟨0x200, [], 0, false,
    [⟨31, 1, .rw, 0, false, .none⟩,
     ⟨0, 16, .rw, 100, false, .zero 1⟩]⟩,
  -- RAS_PE_STATUS
  ⟨0x210, [(0x4, 8)], 0, false,
    [⟨31, 1, .ro, 0, false, .none⟩,
     ⟨16, 6, .ro, 0, false, .none⟩,
     ⟨8, 6, .ro, 63, false, .none⟩]⟩,
  -- RAS_GLZ_SKIP
  ⟨0x300, [(0x4, 8)], 0, false,
    [⟨0, 32, .rw, 0, true, .none⟩]⟩,
  -- RAS_GLZ_OUT
  ⟨0x320, [(0x4, 8)], 0, false,
    [⟨0, 32, .ro, 0, false, .none⟩]⟩,
  -- RAS_GLZ_FAIL
  ⟨0x340, [(0x4, 8)], 0, false,
    [⟨0, 32, .w1c, 0, false, .none⟩]⟩,
  -- RAS_PKE_SKIP
  ⟨0x360, [], 0, false,
    [⟨0, 16, .rw, 0, true, .none⟩]⟩,
  -- RAS_PKE_FAIL
  ⟨0x364, [], 0, false,
    [⟨0, 16, .w1c, 0, false, .none⟩]⟩,
  -- RAS_LPM_ROT
  ⟨0x400, [], 0, false,
    [⟨31, 1, .w1s, 0, true, .none⟩,
     ⟨30, 1, .ro, 0, false, .none⟩,
     ⟨29, 1, .w1c, 0, false, .none⟩,
     ⟨16, 5, .ro, 16, false, .none⟩,
     ⟨0, 4, .rw, 0, false, .none⟩]⟩,
  -- RAS_LANE_TEST
  ⟨0x500, [(0x4, 16)], 0, false,
    [⟨31, 1, .rw, 0, true, .none⟩,
     ⟨4, 4, .ro, 0, false, .none⟩,
     ⟨0, 4, .w1c, 0, false, .none⟩]⟩,
  -- RAS_HBM_CMD
  ⟨0x700, [], 0, false,
    [⟨28, 4, .wo, 0, true, .none⟩,
     ⟨16, 7, .rw, 0, false, .none⟩]⟩,
  -- RAS_HBM_ROW
  ⟨0x704, [], 0, false,
    [⟨16, 4, .rw, 0, false, .none⟩,
     ⟨0, 16, .rw, 0, false, .none⟩]⟩,
  -- RAS_HBM_STATUS
  ⟨0x708, [], 0, false,
    [⟨31, 1, .ro, 0, false, .none⟩,
     ⟨30, 1, .w1c, 0, false, .none⟩,
     ⟨0, 8, .ro, 0, false, .none⟩]⟩
]

/-- The registers of block RAS, continued. -/
def regsRAS2 : List RegDesc := [
  -- RAS_HBM_CFG
  ⟨0x70c, [], 0, false,
    [⟨0, 8, .rw, 4, false, .none⟩]⟩,
  -- RAS_HBM_RETIRED
  ⟨0x710, [(0x4, 4)], 0, false,
    [⟨0, 32, .ro, 0, false, .none⟩]⟩,
  -- RAS_KILN_FIRING
  ⟨0x1000, [(0x8, 32)], 0, false,
    [⟨31, 1, .ro, 0, false, .none⟩,
     ⟨0, 24, .ro, 0, false, .none⟩]⟩,
  -- RAS_KILN_MAP
  ⟨0x1100, [(0x4, 32)], 0, false,
    [⟨31, 1, .ro, 0, false, .none⟩,
     ⟨0, 6, .ro, 0, false, .none⟩]⟩,
  -- RAS_SPARE_CMD
  ⟨0x1200, [], 0, false,
    [⟨28, 4, .wo, 0, true, .none⟩,
     ⟨0, 6, .rw, 0, false, .none⟩]⟩,
  -- RAS_SPARE_STATUS
  ⟨0x1204, [], 0, false,
    [⟨31, 1, .ro, 0, false, .none⟩,
     ⟨30, 1, .w1c, 0, false, .none⟩,
     ⟨0, 8, .ro, 0, false, .none⟩]⟩,
  -- RAS_KILN_TIMEOUT
  ⟨0x1208, [], 0, false,
    [⟨0, 16, .rw, 100, false, .zero 1⟩]⟩,
  -- RAS_KILN_RETIRED_LO
  ⟨0x1210, [], 0, false,
    [⟨0, 32, .ro, 0, false, .none⟩]⟩,
  -- RAS_KILN_RETIRED_HI
  ⟨0x1214, [], 0, false,
    [⟨0, 4, .ro, 0, false, .none⟩]⟩,
  -- RAS_CONE_CFG
  ⟨0x3000, [], 0, false,
    [⟨0, 16, .rw, 800, false, .signedMax 920⟩]⟩,
  -- RAS_CONE_HOT
  ⟨0x3004, [], 0, false,
    [⟨31, 1, .ro, 0, false, .none⟩,
     ⟨16, 6, .ro, 0, false, .none⟩,
     ⟨0, 16, .ro, 0, false, .none⟩]⟩,
  -- RAS_CONE_MARGIN
  ⟨0x3008, [], 0, false,
    [⟨31, 1, .ro, 0, false, .none⟩,
     ⟨16, 6, .ro, 0, false, .none⟩,
     ⟨0, 10, .ro, 0, false, .none⟩]⟩
]

/-- The registers of block RAS, continued. -/
def regsRAS3 : List RegDesc := [
  -- RAS_CONE_EVENT
  ⟨0x300c, [], 0, false,
    [⟨2, 1, .w1c, 0, false, .none⟩,
     ⟨1, 1, .w1c, 0, false, .none⟩,
     ⟨0, 1, .w1c, 0, false, .none⟩]⟩,
  -- RAS_CONE_AVG
  ⟨0x3010, [(0x4, 3)], 0, false,
    [⟨16, 16, .ro, 0, false, .none⟩,
     ⟨0, 16, .ro, 0, false, .none⟩]⟩,
  -- RAS_CONE_TEMP
  ⟨0x3100, [(0x4, 60)], 0, false,
    [⟨31, 1, .ro, 0, false, .none⟩,
     ⟨0, 16, .ro, 0, false, .none⟩]⟩,
  -- RAS_CONE_WEAR
  ⟨0x3200, [(0x4, 60)], 0, false,
    [⟨31, 1, .ro, 0, false, .none⟩,
     ⟨16, 10, .ro, 0, false, .none⟩,
     ⟨0, 13, .ro, 0, false, .none⟩]⟩
]

/-- Every register of block RAS. -/
def regsRAS : List RegDesc := regsRAS0 ++ regsRAS1 ++ regsRAS2 ++ regsRAS3

/-- The registers of block TIME. -/
def regsTIME0 : List RegDesc := [
  -- TIME_NOW_FRAC
  ⟨0x0, [], 0, false,
    [⟨0, 16, .ro, 0, false, .none⟩]⟩,
  -- TIME_NOW_NS
  ⟨0x4, [], 0, false,
    [⟨0, 30, .ro, 0, false, .none⟩]⟩,
  -- TIME_NOW_S_LO
  ⟨0x8, [], 0, false,
    [⟨0, 32, .ro, 0, false, .none⟩]⟩,
  -- TIME_NOW_S_HI
  ⟨0xc, [], 0, false,
    [⟨0, 16, .ro, 0, false, .none⟩]⟩,
  -- TIME_SET_NS
  ⟨0x10, [], 0, false,
    [⟨0, 30, .rw, 0, false, .clamp 0 999999999⟩]⟩,
  -- TIME_SET_S_LO
  ⟨0x14, [], 0, false,
    [⟨0, 32, .rw, 0, false, .none⟩]⟩,
  -- TIME_SET_S_HI
  ⟨0x18, [], 0, false,
    [⟨0, 16, .rw, 0, false, .none⟩]⟩,
  -- TIME_OFFSET
  ⟨0x1c, [], 0, false,
    [⟨0, 32, .rw, 0, false, .none⟩]⟩,
  -- TIME_CMD
  ⟨0x20, [], 0, false,
    [⟨1, 1, .wo, 0, true, .none⟩,
     ⟨0, 1, .wo, 0, true, .none⟩]⟩,
  -- TIME_FREQ_ADJ
  ⟨0x24, [], 0, false,
    [⟨0, 32, .rw, 0, false, .signed 4294967⟩]⟩,
  -- TIME_SYNC
  ⟨0x28, [], 0, false,
    [⟨31, 1, .wo, 0, true, .none⟩,
     ⟨30, 1, .wo, 0, true, .none⟩,
     ⟨16, 2, .ro, 0, false, .none⟩,
     ⟨0, 8, .rw, 4, false, .zero 1⟩]⟩,
  -- TIME_HOLD
  ⟨0x2c, [], 0, false,
    [⟨30, 2, .rw, 0, true, .none⟩,
     ⟨0, 16, .rw, 60, false, .none⟩]⟩
]

/-- The registers of block TIME, continued. -/
def regsTIME1 : List RegDesc := [
  -- TIME_HOLD_ELAPSED
  ⟨0x30, [], 0, false,
    [⟨0, 16, .ro, 0, false, .none⟩]⟩,
  -- TIME_EVENT
  ⟨0x34, [], 0, false,
    [⟨4, 1, .w1c, 0, false, .none⟩,
     ⟨3, 1, .w1c, 0, false, .none⟩,
     ⟨2, 1, .w1c, 0, false, .none⟩,
     ⟨1, 1, .w1c, 0, false, .none⟩,
     ⟨0, 1, .w1c, 0, false, .none⟩]⟩,
  -- TIME_PPS_OUT
  ⟨0x40, [], 0, false,
    [⟨31, 1, .rw, 0, false, .none⟩,
     ⟨0, 19, .rw, 100, false, .clamp 1 500000⟩]⟩,
  -- TIME_PPS_OUT_OFS
  ⟨0x44, [], 0, false,
    [⟨0, 32, .rw, 0, false, .none⟩]⟩,
  -- TIME_PPS_IN_FRAC
  ⟨0x50, [], 0, false,
    [⟨0, 16, .ro, 0, false, .none⟩]⟩,
  -- TIME_PPS_IN_NS
  ⟨0x54, [], 0, false,
    [⟨0, 30, .ro, 0, false, .none⟩]⟩,
  -- TIME_PPS_IN_S_LO
  ⟨0x58, [], 0, false,
    [⟨0, 32, .ro, 0, false, .none⟩]⟩,
  -- TIME_PPS_IN_S_HI
  ⟨0x5c, [], 0, false,
    [⟨0, 16, .ro, 0, false, .none⟩]⟩,
  -- TIME_PPS_IN_CFG
  ⟨0x60, [], 0, false,
    [⟨1, 1, .rw, 0, false, .none⟩,
     ⟨0, 1, .rw, 0, false, .none⟩]⟩,
  -- TIME_PORT_CFG
  ⟨0x100, [(0x8, 64)], 0, false,
    [⟨31, 1, .rw, 0, false, .none⟩,
     ⟨0, 16, .rw, 0, false, .none⟩]⟩,
  -- TIME_PORT_DLY
  ⟨0x104, [(0x8, 64)], 0, false,
    [⟨16, 16, .rw, 0, false, .none⟩,
     ⟨0, 16, .rw, 0, false, .none⟩]⟩
]

/-- Every register of block TIME. -/
def regsTIME : List RegDesc := regsTIME0 ++ regsTIME1

/-- The registers of block ETH. -/
def regsETH : List RegDesc := [
  -- ETH_MODE
  ⟨0x0, [], 0x4, false,
    [⟨0, 3, .rwl, 1, false, .over 4 0⟩]⟩,
  -- ETH_CTRL
  ⟨0x4, [], 0x4, false,
    [⟨31, 1, .wo, 0, true, .none⟩,
     ⟨4, 2, .rw, 0, true, .none⟩,
     ⟨3, 1, .rwl, 0, false, .none⟩,
     ⟨2, 1, .rw, 1, false, .none⟩,
     ⟨0, 1, .rw, 0, true, .none⟩]⟩,
  -- ETH_MAX_FRAME
  ⟨0x8, [], 0x4, false,
    [⟨0, 14, .rwl, 1518, false, .clamp 1518 10240⟩]⟩,
  -- ETH_LINK_HOLD
  ⟨0xc, [], 0, false,
    [⟨0, 10, .rw, 2, false, .clamp 0 1000⟩]⟩,
  -- ETH_AGE_LIMIT
  ⟨0x10, [], 0, false,
    [⟨0, 10, .rw, 10, false, .clamp 0 1000⟩]⟩,
  -- ETH_LANE_CFG
  ⟨0x14, [], 0x4, false,
    [⟨12, 4, .rwl, 0, false, .none⟩,
     ⟨8, 4, .rwl, 0, false, .none⟩,
     ⟨0, 8, .rwl, 228, false, .none⟩]⟩,
  -- ETH_SP_STATUS
  ⟨0x1000, [(0x1000, 4)], 0, false,
    [⟨4, 1, .ro, 0, false, .none⟩,
     ⟨3, 1, .ro, 0, false, .none⟩,
     ⟨2, 1, .ro, 0, false, .none⟩,
     ⟨1, 1, .ro, 0, false, .none⟩,
     ⟨0, 1, .ro, 0, false, .none⟩]⟩,
  -- ETH_SP_EVENT
  ⟨0x1004, [(0x1000, 4)], 0, false,
    [⟨3, 1, .w1c, 0, false, .none⟩,
     ⟨2, 1, .w1c, 0, false, .none⟩,
     ⟨1, 1, .w1c, 0, false, .none⟩,
     ⟨0, 1, .w1c, 0, false, .none⟩]⟩,
  -- ETH_SP_LAST_FLUSH
  ⟨0x1008, [(0x1000, 4)], 0, false,
    [⟨0, 32, .ro, 0, false, .none⟩]⟩
]

/-- The registers of block PL. -/
def regsPL0 : List RegDesc := [
  -- PL_PARSE_CTRL
  ⟨0x0, [], 0x0, false,
    [⟨8, 8, .rwl, 192, false, .clamp 16 192⟩,
     ⟨0, 1, .rw, 0, true, .none⟩]⟩,
  -- PL_PARSE_ENTRY
  ⟨0x4, [], 0, false,
    [⟨0, 12, .rw, 0, true, .none⟩]⟩,
  -- PL_PARSE_CONST
  ⟨0x8, [], 0, false,
    [⟨16, 16, .rw, 0, false, .none⟩,
     ⟨0, 16, .rw, 0, false, .none⟩]⟩,
  -- PL_PARSE_STATUS
  ⟨0xc, [], 0, false,
    [⟨16, 7, .ro, 0, false, .none⟩,
     ⟨8, 8, .ro, 0, false, .none⟩,
     ⟨0, 7, .ro, 0, false, .none⟩]⟩,
  -- PL_PARSE_EVENT
  ⟨0x10, [], 0, false,
    [⟨2, 1, .w1c, 0, false, .none⟩,
     ⟨1, 1, .w1c, 0, false, .none⟩,
     ⟨0, 1, .w1c, 0, false, .none⟩]⟩,
  -- PL_MALF_CTRL
  ⟨0x14, [], 0, false,
    [⟨16, 16, .rw, 0, false, .none⟩,
     ⟨12, 2, .rw, 0, false, .none⟩,
     ⟨8, 3, .rw, 0, false, .none⟩,
     ⟨0, 2, .rw, 0, false, .none⟩]⟩,
  -- PL_CLS_CTRL
  ⟨0x200, [], 0x200, false,
    [⟨2, 1, .rwl, 0, false, .none⟩,
     ⟨1, 1, .rwl, 0, false, .none⟩,
     ⟨0, 1, .rw, 0, true, .none⟩]⟩,
  -- PL_KEY_SEL
  ⟨0x210, [(0x4, 8)], 0x200, false,
    [⟨16, 9, .rwl, 0, false, .none⟩,
     ⟨0, 5, .rwl, 0, false, .none⟩]⟩,
  -- PL_LKP_CFG
  ⟨0x230, [], 0x200, false,
    [⟨24, 5, .rwl, 0, false, .clamp 0 24⟩,
     ⟨16, 5, .rwl, 0, false, .clamp 0 24⟩,
     ⟨0, 5, .rwl, 0, false, .clamp 0 24⟩]⟩,
  -- PL_PUNT_CFG
  ⟨0x240, [], 0, false,
    [⟨16, 16, .rw, 1000, false, .none⟩,
     ⟨8, 8, .rw, 64, false, .zero 1⟩]⟩,
  -- PL_PUNT_TARGET
  ⟨0x244, [], 0x200, false,
    [⟨0, 10, .rwl, 0, false, .none⟩]⟩,
  -- PL_RC_CFG
  ⟨0x400, [(0x8, 64)], 0x200, false,
    [⟨0, 5, .rwl, 0, false, .none⟩]⟩
]

/-- The registers of block PL, continued. -/
def regsPL1 : List RegDesc := [
  -- PL_RC_BOUNDS
  ⟨0x404, [(0x8, 64)], 0, false,
    [⟨16, 16, .rw, 0, false, .none⟩,
     ⟨0, 16, .rw, 65535, false, .none⟩]⟩,
  -- PL_IMEM
  ⟨0x10000, [(0x4, 4096)], 0, false,
    [⟨0, 32, .rw, 0, false, .none⟩]⟩
]

/-- Every register of block PL. -/
def regsPL : List RegDesc := regsPL0 ++ regsPL1

/-- The registers of block TBL. -/
def regsTBL : List RegDesc := [
  -- TBL_CTRL
  ⟨0x0, [], 0, false,
    [⟨1, 1, .rw, 1, false, .none⟩,
     ⟨0, 1, .rw, 0, true, .none⟩]⟩,
  -- TBL_EM_SEED
  ⟨0x4, [], 0x0, false,
    [⟨0, 32, .rwl, 0, false, .none⟩]⟩,
  -- TBL_MOVE_HOLD
  ⟨0x8, [], 0, false,
    [⟨0, 16, .rw, 1000, false, .clamp 0 60000⟩]⟩,
  -- TBL_PAR_LOG
  ⟨0x10, [], 0, false,
    [⟨31, 1, .w1c, 0, false, .none⟩,
     ⟨28, 3, .ro, 0, false, .none⟩,
     ⟨24, 3, .ro, 0, false, .none⟩,
     ⟨0, 20, .ro, 0, false, .none⟩]⟩,
  -- TBL_EVENT
  ⟨0x14, [], 0, false,
    [⟨2, 1, .w1c, 0, false, .none⟩,
     ⟨1, 1, .w1c, 0, false, .none⟩,
     ⟨0, 1, .w1c, 0, false, .none⟩]⟩,
  -- TBL_STATUS
  ⟨0x18, [], 0, false,
    [⟨16, 14, .ro, 0, false, .none⟩,
     ⟨0, 13, .ro, 0, false, .none⟩]⟩,
  -- TBL_LEVT_BASE_LO
  ⟨0x20, [], 0x0, false,
    [⟨0, 32, .rwl, 0, false, .none⟩]⟩,
  -- TBL_LEVT_BASE_HI
  ⟨0x24, [], 0x0, false,
    [⟨0, 32, .rwl, 0, false, .none⟩]⟩,
  -- TBL_LEVT_CFG
  ⟨0x28, [], 0x0, false,
    [⟨31, 1, .rw, 0, false, .none⟩,
     ⟨16, 12, .rwl, 0, false, .none⟩,
     ⟨0, 5, .rwl, 4, false, .clamp 4 16⟩]⟩,
  -- TBL_LEVT_HEAD
  ⟨0x2c, [], 0, false,
    [⟨0, 16, .rw, 0, false, .none⟩]⟩,
  -- TBL_LEVT_TAIL
  ⟨0x30, [], 0, false,
    [⟨0, 16, .ro, 0, false, .none⟩]⟩,
  -- TBL_LEARN_PORT
  ⟨0x100, [(0x4, 64)], 0, false,
    [⟨31, 1, .rw, 0, false, .none⟩,
     ⟨16, 11, .rw, 0, false, .none⟩,
     ⟨0, 16, .rw, 0, false, .none⟩]⟩
]

/-- The registers of block BUF. -/
def regsBUF : List RegDesc := [
  -- BUF_CTRL
  ⟨0x0, [], 0, false,
    [⟨0, 1, .rw, 0, true, .none⟩]⟩,
  -- BUF_POOL_YELLOW_FLOOR
  ⟨0x4, [], 0, false,
    [⟨0, 20, .rw, 65536, false, .clamp 0 786432⟩]⟩,
  -- BUF_POOL_RED_FLOOR
  ⟨0x8, [], 0, false,
    [⟨0, 20, .rw, 196608, false, .clamp 0 786432⟩]⟩,
  -- BUF_POOL_STATUS
  ⟨0xc, [], 0, false,
    [⟨0, 20, .ro, 786432, false, .none⟩]⟩,
  -- BUF_EVENT
  ⟨0x10, [], 0, false,
    [⟨2, 1, .w1c, 0, false, .none⟩,
     ⟨1, 1, .w1c, 0, false, .none⟩,
     ⟨0, 1, .w1c, 0, false, .none⟩]⟩,
  -- BUF_SPILL_BASE
  ⟨0x20, [], 0x0, false,
    [⟨0, 7, .rwl, 0, false, .none⟩]⟩,
  -- BUF_SPILL_SIZE
  ⟨0x24, [], 0x0, false,
    [⟨0, 6, .rwl, 0, false, .spillSize⟩]⟩,
  -- BUF_IND_CMD
  ⟨0x40, [], 0, false,
    [⟨24, 3, .wo, 0, true, .none⟩,
     ⟨16, 1, .wo, 0, false, .none⟩,
     ⟨0, 16, .rw, 0, false, .none⟩]⟩,
  -- BUF_IND_DATA
  ⟨0x80, [(0x4, 16)], 0, false,
    [⟨0, 32, .rw, 0, false, .none⟩]⟩
]

/-- The registers of block TM. -/
def regsTM0 : List RegDesc := [
  -- TM_CTRL
  ⟨0x0, [], 0, false,
    [⟨0, 1, .rw, 0, true, .none⟩]⟩,
  -- TM_STREAM_TOL
  ⟨0x4, [], 0, false,
    [⟨0, 16, .rw, 250, false, .none⟩]⟩,
  -- TM_IND_STATUS
  ⟨0x8, [], 0, false,
    [⟨0, 1, .ro, 0, false, .none⟩]⟩,
  -- TM_STREAM_SEL
  ⟨0x10, [(0x4, 8)], 0x0, false,
    [⟨31, 1, .rwl, 0, false, .none⟩,
     ⟨0, 5, .rwl, 0, false, .none⟩]⟩,
  -- TM_IND_CMD
  ⟨0x40, [], 0, false,
    [⟨24, 3, .wo, 0, true, .none⟩,
     ⟨20, 2, .rw, 0, false, .none⟩,
     ⟨16, 1, .wo, 0, false, .none⟩,
     ⟨0, 16, .rw, 0, false, .none⟩]⟩,
  -- GATE_CTRL
  ⟨0x10000, [(0x100, 16)], 0, false,
    [⟨17, 1, .w1c, 0, false, .none⟩,
     ⟨16, 1, .w1c, 0, false, .none⟩,
     ⟨8, 1, .w1s, 0, true, .none⟩,
     ⟨7, 1, .w1s, 0, true, .none⟩,
     ⟨4, 1, .ro, 0, false, .none⟩,
     ⟨3, 1, .ro, 0, false, .none⟩,
     ⟨0, 1, .rw, 0, true, .none⟩]⟩,
  -- GATE_ADMIN_LEN
  ⟨0x10004, [(0x100, 16)], 0, false,
    [⟨0, 11, .rw, 0, false, .none⟩]⟩,
  -- GATE_ADMIN_CYCLE
  ⟨0x10008, [(0x100, 16)], 0, false,
    [⟨0, 32, .rw, 0, false, .none⟩]⟩,
  -- GATE_ADMIN_CYC_EXT
  ⟨0x1000c, [(0x100, 16)], 0, false,
    [⟨0, 32, .rw, 0, false, .none⟩]⟩,
  -- GATE_ADMIN_BASE_NS
  ⟨0x10010, [(0x100, 16)], 0, false,
    [⟨0, 30, .rw, 0, false, .clamp 0 999999999⟩]⟩,
  -- GATE_ADMIN_BASE_S_LO
  ⟨0x10014, [(0x100, 16)], 0, false,
    [⟨0, 32, .rw, 0, false, .none⟩]⟩,
  -- GATE_ADMIN_BASE_S_HI
  ⟨0x10018, [(0x100, 16)], 0, false,
    [⟨0, 16, .rw, 0, false, .none⟩]⟩
]

/-- The registers of block TM, continued. -/
def regsTM1 : List RegDesc := [
  -- GATE_IDLE_GATES
  ⟨0x1001c, [(0x100, 16)], 0, false,
    [⟨0, 8, .rw, 255, false, .none⟩]⟩,
  -- GATE_CHANGE_NS
  ⟨0x10020, [(0x100, 16)], 0, false,
    [⟨0, 30, .ro, 0, false, .none⟩]⟩,
  -- GATE_CHANGE_S_LO
  ⟨0x10024, [(0x100, 16)], 0, false,
    [⟨0, 32, .ro, 0, false, .none⟩]⟩,
  -- GATE_CHANGE_S_HI
  ⟨0x10028, [(0x100, 16)], 0, false,
    [⟨0, 16, .ro, 0, false, .none⟩]⟩,
  -- GATE_OPER_ENTRY
  ⟨0x10030, [(0x100, 16)], 0, false,
    [⟨0, 10, .ro, 0, false, .none⟩]⟩,
  -- GATE_OPER_GATES
  ⟨0x10034, [(0x100, 16)], 0, false,
    [⟨0, 8, .ro, 255, false, .none⟩]⟩,
  -- SGATE_CTRL
  ⟨0x20000, [(0x100, 256)], 0, false,
    [⟨17, 1, .w1c, 0, false, .none⟩,
     ⟨16, 1, .w1c, 0, false, .none⟩,
     ⟨8, 1, .w1s, 0, true, .none⟩,
     ⟨7, 1, .w1s, 0, true, .none⟩,
     ⟨4, 1, .ro, 0, false, .none⟩,
     ⟨3, 1, .ro, 0, false, .none⟩,
     ⟨0, 1, .rw, 0, true, .none⟩]⟩,
  -- SGATE_ADMIN_LEN
  ⟨0x20004, [(0x100, 256)], 0, false,
    [⟨0, 11, .rw, 0, false, .none⟩]⟩,
  -- SGATE_ADMIN_CYCLE
  ⟨0x20008, [(0x100, 256)], 0, false,
    [⟨0, 32, .rw, 0, false, .none⟩]⟩,
  -- SGATE_ADMIN_CYC_EXT
  ⟨0x2000c, [(0x100, 256)], 0, false,
    [⟨0, 32, .rw, 0, false, .none⟩]⟩,
  -- SGATE_ADMIN_BASE_NS
  ⟨0x20010, [(0x100, 256)], 0, false,
    [⟨0, 30, .rw, 0, false, .clamp 0 999999999⟩]⟩,
  -- SGATE_ADMIN_BASE_S_LO
  ⟨0x20014, [(0x100, 256)], 0, false,
    [⟨0, 32, .rw, 0, false, .none⟩]⟩
]

/-- The registers of block TM, continued. -/
def regsTM2 : List RegDesc := [
  -- SGATE_ADMIN_BASE_S_HI
  ⟨0x20018, [(0x100, 256)], 0, false,
    [⟨0, 16, .rw, 0, false, .none⟩]⟩,
  -- SGATE_IDLE_GATES
  ⟨0x2001c, [(0x100, 256)], 0, false,
    [⟨0, 8, .rw, 255, false, .none⟩]⟩,
  -- SGATE_CHANGE_NS
  ⟨0x20020, [(0x100, 256)], 0, false,
    [⟨0, 30, .ro, 0, false, .none⟩]⟩,
  -- SGATE_CHANGE_S_LO
  ⟨0x20024, [(0x100, 256)], 0, false,
    [⟨0, 32, .ro, 0, false, .none⟩]⟩,
  -- SGATE_CHANGE_S_HI
  ⟨0x20028, [(0x100, 256)], 0, false,
    [⟨0, 16, .ro, 0, false, .none⟩]⟩,
  -- SGATE_OPER_ENTRY
  ⟨0x20030, [(0x100, 256)], 0, false,
    [⟨0, 10, .ro, 0, false, .none⟩]⟩,
  -- SGATE_OPER_GATES
  ⟨0x20034, [(0x100, 256)], 0, false,
    [⟨0, 8, .ro, 255, false, .none⟩]⟩,
  -- TM_IND_DATA
  ⟨0x80, [(0x4, 16)], 0, false,
    [⟨0, 32, .rw, 0, false, .none⟩]⟩,
  -- GATE_LIST_INTERVAL
  ⟨0x100000, [(0x4000, 16), (0x8, 2048)], 0, false,
    [⟨0, 32, .rw, 0, false, .none⟩]⟩,
  -- GATE_LIST_GATES
  ⟨0x100004, [(0x4000, 16), (0x8, 2048)], 0, false,
    [⟨0, 8, .rw, 0, false, .none⟩]⟩,
  -- SGATE_LIST_INTERVAL
  ⟨0x200000, [(0x400, 256), (0x8, 128)], 0, false,
    [⟨0, 32, .rw, 0, false, .none⟩]⟩,
  -- SGATE_LIST_GATES
  ⟨0x200004, [(0x400, 256), (0x8, 128)], 0, false,
    [⟨0, 8, .rw, 0, false, .none⟩]⟩
]

/-- Every register of block TM. -/
def regsTM : List RegDesc := regsTM0 ++ regsTM1 ++ regsTM2

/-- The registers of block KLN. -/
def regsKLN : List RegDesc := [
  -- KLN_STATE
  ⟨0x0, [], 0, false,
    [⟨29, 3, .ro, 0, false, .none⟩,
     ⟨16, 5, .ro, 0, false, .none⟩]⟩,
  -- KLN_TEST_RESULT
  ⟨0x4, [], 0, false,
    [⟨31, 1, .w1c, 0, false, .none⟩,
     ⟨30, 1, .ro, 0, false, .none⟩,
     ⟨0, 24, .ro, 0, false, .none⟩]⟩
]

/-- The registers of block GLZ. -/
def regsGLZ : List RegDesc := [
  -- GLZ_CTRL
  ⟨0x0, [], 0, false,
    [⟨0, 1, .rw, 0, true, .none⟩]⟩,
  -- GLZ_POOL
  ⟨0x4, [], 0x0, false,
    [⟨0, 9, .rwl, 64, false, .clamp 0 256⟩]⟩,
  -- GLZ_KC_BASE
  ⟨0x8, [], 0x0, false,
    [⟨0, 9, .rwl, 0, false, .clamp 0 383⟩]⟩,
  -- GLZ_EVENT
  ⟨0x10, [], 0, false,
    [⟨3, 1, .w1c, 0, false, .none⟩,
     ⟨2, 1, .w1c, 0, false, .none⟩,
     ⟨1, 1, .w1c, 0, false, .none⟩,
     ⟨0, 1, .w1c, 0, false, .none⟩]⟩,
  -- GLZ_EVENT_KC
  ⟨0x14, [], 0, false,
    [⟨0, 20, .ro, 0, false, .none⟩]⟩,
  -- GLZ_STATUS
  ⟨0x18, [], 0, false,
    [⟨16, 9, .ro, 0, false, .none⟩,
     ⟨0, 13, .ro, 0, false, .none⟩]⟩,
  -- GLZ_SEL
  ⟨0x20, [(0x4, 8)], 0x0, false,
    [⟨31, 1, .rwl, 0, false, .none⟩,
     ⟨0, 5, .rwl, 0, false, .none⟩]⟩,
  -- GLZ_IND_CMD
  ⟨0x80, [], 0, false,
    [⟨24, 3, .wo, 0, true, .none⟩,
     ⟨0, 14, .rw, 0, false, .none⟩]⟩,
  -- GLZ_IND_DATA
  ⟨0xc0, [(0x4, 16)], 0, false,
    [⟨0, 32, .rw, 0, false, .none⟩]⟩
]

/-- The registers of block PKE. -/
def regsPKE : List RegDesc := [
  -- PKE_CTRL
  ⟨0x0, [], 0, false,
    [⟨0, 1, .rw, 0, true, .none⟩]⟩,
  -- PKE_STATUS
  ⟨0x4, [], 0, false,
    [⟨16, 5, .ro, 0, false, .none⟩,
     ⟨0, 16, .ro, 65535, false, .none⟩]⟩,
  -- PKE_EVENT
  ⟨0x8, [], 0, false,
    [⟨2, 1, .w1c, 0, false, .none⟩,
     ⟨1, 1, .w1c, 0, false, .none⟩,
     ⟨0, 1, .w1c, 0, false, .none⟩]⟩,
  -- PKE_EVENT_UNIT
  ⟨0xc, [], 0, false,
    [⟨0, 4, .ro, 0, false, .none⟩]⟩
]

/-- The registers of block HIF. -/
def regsHIF : List RegDesc := [
  -- HIF_CTRL
  ⟨0x0, [], 0x0, false,
    [⟨12, 4, .rwl, 0, false, .none⟩,
     ⟨8, 2, .rwl, 0, false, .none⟩,
     ⟨4, 3, .rwl, 6, false, .maxGen⟩,
     ⟨0, 1, .rw, 0, true, .none⟩]⟩,
  -- HIF_LINK_STATUS
  ⟨0x1000, [(0x100, 4)], 0, false,
    [⟨12, 3, .ro, 5, false, .none⟩,
     ⟨8, 4, .ro, 0, false, .none⟩,
     ⟨3, 5, .ro, 0, false, .none⟩,
     ⟨1, 1, .ro, 0, false, .none⟩,
     ⟨0, 1, .ro, 0, false, .none⟩]⟩,
  -- HIF_FREEZE
  ⟨0x1004, [(0x100, 4)], 0, false,
    [⟨31, 1, .ro, 0, false, .none⟩,
     ⟨30, 1, .w1s, 0, true, .none⟩,
     ⟨29, 1, .w1c, 0, false, .none⟩,
     ⟨28, 1, .w1c, 0, false, .none⟩,
     ⟨27, 1, .ro, 0, false, .none⟩,
     ⟨0, 8, .ro, 0, false, .none⟩]⟩,
  -- HIF_DROP_SRC
  ⟨0x1010, [(0x100, 4)], 0, false,
    [⟨31, 1, .w1c, 0, false, .none⟩,
     ⟨16, 3, .ro, 0, false, .none⟩,
     ⟨0, 16, .ro, 0, false, .none⟩]⟩,
  -- HIF_DROP_OFS
  ⟨0x1014, [(0x100, 4)], 0, false,
    [⟨0, 32, .ro, 0, false, .none⟩]⟩
]

/-- The registers of block DMA. -/
def regsDMA0 : List RegDesc := [
  -- DMA_ENG_CTRL
  ⟨0x0, [], 0, false,
    [⟨8, 1, .w1s, 0, true, .none⟩,
     ⟨0, 1, .rw, 0, true, .none⟩]⟩,
  -- DMA_ENG_STATUS
  ⟨0x4, [], 0, false,
    [⟨31, 1, .ro, 0, false, .none⟩,
     ⟨30, 1, .ro, 0, false, .none⟩,
     ⟨0, 8, .ro, 0, false, .none⟩]⟩,
  -- DMA_ENG_ERR
  ⟨0x8, [], 0, false,
    [⟨31, 1, .w1c, 0, false, .none⟩,
     ⟨30, 1, .w1c, 0, false, .none⟩,
     ⟨24, 4, .ro, 0, false, .none⟩,
     ⟨16, 4, .ro, 0, false, .none⟩,
     ⟨0, 16, .ro, 0, false, .none⟩]⟩,
  -- DMA_ENG_ERR_ADDR_LO
  ⟨0xc, [], 0, false,
    [⟨0, 32, .ro, 0, false, .none⟩]⟩,
  -- DMA_ENG_ERR_ADDR_HI
  ⟨0x10, [], 0, false,
    [⟨0, 32, .ro, 0, false, .none⟩]⟩,
  -- DMA_CH_CTRL
  ⟨0x8000, [(0x80, 256)], 0, true,
    [⟨31, 1, .wo, 0, true, .none⟩,
     ⟨30, 1, .wo, 0, true, .none⟩,
     ⟨1, 1, .rw, 0, true, .none⟩,
     ⟨0, 1, .w1s, 0, true, .none⟩]⟩,
  -- DMA_CH_CFG
  ⟨0x8004, [(0x80, 256)], 0x8000, true,
    [⟨28, 4, .rwl, 0, false, .none⟩,
     ⟨25, 3, .rwl, 0, false, .none⟩,
     ⟨14, 11, .rwl, 0, false, .none⟩,
     ⟨13, 1, .rwl, 0, false, .none⟩,
     ⟨12, 1, .rwl, 0, false, .none⟩,
     ⟨0, 12, .rwl, 0, false, .none⟩]⟩,
  -- DMA_CH_OWNER
  ⟨0x8008, [(0x80, 256)], 0x8000, true,
    [⟨31, 1, .rwl, 0, false, .none⟩,
     ⟨0, 11, .rwl, 0, false, .none⟩]⟩,
  -- DMA_CH_QUEUE
  ⟨0x800c, [(0x80, 256)], 0x8000, true,
    [⟨0, 16, .rwl, 0, false, .none⟩]⟩,
  -- DMA_CH_DRING_LO
  ⟨0x8010, [(0x80, 256)], 0x8000, true,
    [⟨0, 32, .rwl, 0, false, .none⟩]⟩,
  -- DMA_CH_DRING_HI
  ⟨0x8014, [(0x80, 256)], 0x8000, true,
    [⟨0, 32, .rwl, 0, false, .none⟩]⟩,
  -- DMA_CH_CRING_LO
  ⟨0x8018, [(0x80, 256)], 0x8000, true,
    [⟨0, 32, .rwl, 0, false, .none⟩]⟩
]

/-- The registers of block DMA, continued. -/
def regsDMA1 : List RegDesc := [
  -- DMA_CH_CRING_HI
  ⟨0x801c, [(0x80, 256)], 0x8000, true,
    [⟨0, 32, .rwl, 0, false, .none⟩]⟩,
  -- DMA_CH_SIZE
  ⟨0x8020, [(0x80, 256)], 0x8000, true,
    [⟨31, 1, .rw, 0, false, .none⟩,
     ⟨16, 11, .rwl, 0, false, .none⟩,
     ⟨0, 5, .rwl, 4, false, .clamp 4 16⟩]⟩,
  -- DMA_CH_HOLDOFF
  ⟨0x8024, [(0x80, 256)], 0, true,
    [⟨0, 16, .rw, 0, false, .none⟩]⟩,
  -- DMA_CH_STATUS
  ⟨0x8034, [(0x80, 256)], 0, true,
    [⟨31, 1, .w1c, 0, false, .none⟩,
     ⟨16, 4, .ro, 0, false, .none⟩,
     ⟨11, 1, .ro, 0, false, .none⟩,
     ⟨10, 1, .ro, 1, false, .none⟩,
     ⟨9, 1, .ro, 1, false, .none⟩,
     ⟨8, 1, .ro, 0, false, .none⟩,
     ⟨0, 3, .ro, 0, false, .none⟩]⟩,
  -- DMA_CH_IRQ_NEXT
  ⟨0x8038, [(0x80, 256)], 0, true,
    [⟨0, 16, .ro, 0, false, .none⟩]⟩,
  -- DMA_CH_HEAD
  ⟨0x8028, [(0x80, 256)], 0, true,
    [⟨16, 16, .ro, 0, false, .none⟩,
     ⟨0, 16, .ro, 0, false, .none⟩]⟩,
  -- DMA_CH_TAIL
  ⟨0x802c, [(0x80, 256)], 0, true,
    [⟨0, 16, .ro, 0, false, .none⟩]⟩,
  -- DMA_CH_OFFSET
  ⟨0x8030, [(0x80, 256)], 0, true,
    [⟨0, 24, .ro, 0, false, .none⟩]⟩,
  -- DMA_CH_FIRING
  ⟨0x8040, [(0x80, 256)], 0, true,
    [⟨31, 1, .ro, 0, false, .none⟩,
     ⟨0, 24, .ro, 0, false, .none⟩]⟩
]

/-- Every register of block DMA. -/
def regsDMA : List RegDesc := regsDMA0 ++ regsDMA1

/-- The registers of block SAG. -/
def regsSAG0 : List RegDesc := [
  -- SAG_CTRL
  ⟨0x0, [], 0, false,
    [⟨28, 4, .wo, 0, true, .none⟩,
     ⟨0, 12, .rw, 0, false, .none⟩]⟩,
  -- SAG_STATUS
  ⟨0x4, [], 0, false,
    [⟨31, 1, .ro, 0, false, .none⟩,
     ⟨30, 1, .w1c, 0, false, .none⟩,
     ⟨16, 8, .ro, 0, false, .none⟩,
     ⟨5, 1, .ro, 0, false, .none⟩,
     ⟨4, 1, .ro, 0, false, .none⟩,
     ⟨0, 3, .ro, 0, false, .none⟩]⟩,
  -- SAG_FUNC
  ⟨0x8, [], 0x0, false,
    [⟨24, 3, .rwl, 0, false, .none⟩,
     ⟨0, 11, .rwl, 0, false, .none⟩]⟩,
  -- SAG_WEIGHT
  ⟨0xc, [], 0, false,
    [⟨0, 11, .rw, 1, false, .clamp 1 1024⟩]⟩,
  -- SAG_FIRING
  ⟨0x10, [], 0, false,
    [⟨31, 1, .ro, 0, false, .none⟩,
     ⟨0, 24, .ro, 0, false, .none⟩]⟩,
  -- SAG_GROUPS
  ⟨0x20, [], 0x0, false,
    [⟨16, 11, .rwl, 0, false, .none⟩,
     ⟨0, 13, .rwl, 0, false, .none⟩]⟩,
  -- SAG_QUEUES
  ⟨0x24, [], 0x0, false,
    [⟨16, 14, .rwl, 0, false, .none⟩,
     ⟨0, 16, .rwl, 0, false, .none⟩]⟩,
  -- SAG_METERS
  ⟨0x28, [], 0x0, false,
    [⟨16, 14, .rwl, 0, false, .none⟩,
     ⟨0, 16, .rwl, 0, false, .none⟩]⟩,
  -- SAG_KC_BASE
  ⟨0x2c, [], 0x0, false,
    [⟨0, 20, .rwl, 0, false, .none⟩]⟩,
  -- SAG_KC_COUNT
  ⟨0x30, [], 0x0, false,
    [⟨0, 17, .rwl, 0, false, .none⟩]⟩,
  -- SAG_HBM_BASE
  ⟨0x34, [], 0x0, false,
    [⟨0, 16, .rwl, 0, false, .none⟩]⟩,
  -- SAG_HBM_PAGES
  ⟨0x38, [], 0x0, false,
    [⟨0, 16, .rwl, 0, false, .none⟩]⟩
]

/-- The registers of block SAG, continued. -/
def regsSAG1 : List RegDesc := [
  -- SAG_THREADS
  ⟨0x3c, [], 0x0, false,
    [⟨16, 9, .rwl, 0, false, .none⟩,
     ⟨0, 10, .rwl, 0, false, .none⟩]⟩,
  -- SAG_TBL
  ⟨0x40, [], 0x0, false,
    [⟨0, 17, .rwl, 0, false, .none⟩]⟩,
  -- SAG_TBL_USED
  ⟨0x44, [], 0, false,
    [⟨0, 17, .ro, 0, false, .none⟩]⟩,
  -- SAG_CH
  ⟨0x48, [], 0x0, false,
    [⟨16, 11, .ro, 0, false, .none⟩,
     ⟨0, 11, .rwl, 0, false, .none⟩]⟩,
  -- SAG_DMA_RL
  ⟨0x50, [], 0, false,
    [⟨31, 1, .rw, 0, false, .none⟩,
     ⟨0, 20, .rw, 0, false, .none⟩]⟩,
  -- SAG_DMA_BURST
  ⟨0x54, [], 0, false,
    [⟨0, 32, .rw, 0, false, .none⟩]⟩,
  -- SAG_GLZ_RL
  ⟨0x58, [], 0, false,
    [⟨31, 1, .rw, 0, false, .none⟩,
     ⟨0, 20, .rw, 0, false, .none⟩]⟩,
  -- SAG_GLZ_BURST
  ⟨0x5c, [], 0, false,
    [⟨0, 32, .rw, 0, false, .none⟩]⟩,
  -- SAG_PKE_RL
  ⟨0x60, [], 0, false,
    [⟨31, 1, .rw, 0, false, .none⟩,
     ⟨0, 20, .rw, 0, false, .none⟩]⟩,
  -- SAG_PKE_BURST
  ⟨0x64, [], 0, false,
    [⟨0, 32, .rw, 0, false, .none⟩]⟩,
  -- SAG_MBX_CFG
  ⟨0x70, [], 0, false,
    [⟨31, 1, .rw, 0, false, .none⟩,
     ⟨16, 12, .rw, 0, false, .none⟩,
     ⟨0, 11, .rw, 0, false, .none⟩]⟩,
  -- SAG_MBX_ADDR_LO
  ⟨0x74, [], 0, false,
    [⟨0, 32, .rw, 0, false, .none⟩]⟩
]

/-- The registers of block SAG, continued. -/
def regsSAG2 : List RegDesc := [
  -- SAG_MBX_ADDR_HI
  ⟨0x78, [], 0, false,
    [⟨0, 32, .rw, 0, false, .none⟩]⟩,
  -- SAG_MBX_M2T_TAIL
  ⟨0x7c, [], 0, false,
    [⟨0, 16, .rw, 0, true, .none⟩]⟩,
  -- SAG_MBX_T2M_HEAD
  ⟨0x80, [], 0, false,
    [⟨0, 16, .rw, 0, false, .none⟩]⟩,
  -- SAG_MBX_STATUS
  ⟨0x84, [], 0, false,
    [⟨16, 16, .ro, 0, false, .none⟩,
     ⟨0, 16, .ro, 0, false, .none⟩]⟩,
  -- SAG_IMG_ADDR_LO
  ⟨0x90, [], 0, false,
    [⟨0, 32, .rw, 0, false, .none⟩]⟩,
  -- SAG_IMG_ADDR_HI
  ⟨0x94, [], 0, false,
    [⟨0, 32, .rw, 0, false, .none⟩]⟩,
  -- SAG_IMG_CFG
  ⟨0x98, [], 0, false,
    [⟨16, 12, .rw, 0, false, .none⟩]⟩,
  -- SAG_IMG_KWK
  ⟨0x9c, [], 0, false,
    [⟨0, 20, .rw, 0, false, .none⟩]⟩,
  -- SAG_IMG_LEN
  ⟨0xa0, [], 0, false,
    [⟨0, 25, .ro, 0, false, .none⟩]⟩,
  -- SAG_DIRTY_ADDR_LO
  ⟨0xa8, [], 0, false,
    [⟨0, 32, .rw, 0, false, .none⟩]⟩,
  -- SAG_DIRTY_ADDR_HI
  ⟨0xac, [], 0, false,
    [⟨0, 32, .rw, 0, false, .none⟩]⟩
]

/-- Every register of block SAG. -/
def regsSAG : List RegDesc := regsSAG0 ++ regsSAG1 ++ regsSAG2

/-- The registers of block STO. -/
def regsSTO : List RegDesc := [
  -- STO_CTRL
  ⟨0x0, [], 0, false,
    [⟨0, 1, .rw, 0, true, .none⟩]⟩,
  -- STO_EVENT
  ⟨0x10, [], 0, false,
    [⟨2, 1, .w1c, 0, false, .none⟩,
     ⟨1, 1, .w1c, 0, false, .none⟩,
     ⟨0, 1, .w1c, 0, false, .none⟩]⟩,
  -- STO_IND_CMD
  ⟨0x40, [], 0, false,
    [⟨24, 3, .wo, 0, true, .none⟩,
     ⟨20, 2, .rw, 0, false, .none⟩,
     ⟨0, 12, .rw, 0, false, .none⟩]⟩,
  -- STO_IND_STATUS
  ⟨0x44, [], 0, false,
    [⟨31, 1, .ro, 0, false, .none⟩,
     ⟨30, 1, .w1c, 0, false, .none⟩,
     ⟨0, 8, .ro, 0, false, .none⟩]⟩,
  -- STO_IND_DATA
  ⟨0x80, [(0x4, 16)], 0, false,
    [⟨0, 32, .rw, 0, false, .none⟩]⟩
]

/-- The blocks of R26 with their registers. -/
def blocks : List (BlockDesc × List RegDesc) := [
  (⟨0x0, 0x10000, 1⟩, regsGLB),
  (⟨0x10000, 0x10000, 1⟩, regsCLK),
  (⟨0x20000, 0x10000, 1⟩, regsRST),
  (⟨0x30000, 0x10000, 1⟩, regsBOOT),
  (⟨0x40000, 0x10000, 1⟩, regsRAS),
  (⟨0x50000, 0x10000, 1⟩, regsTIME),
  (⟨0x100000, 0x10000, 16⟩, regsETH),
  (⟨0x200000, 0x20000, 8⟩, regsPL),
  (⟨0x300000, 0x100000, 1⟩, regsTBL),
  (⟨0x400000, 0x100000, 1⟩, regsBUF),
  (⟨0x500000, 0x300000, 1⟩, regsTM),
  (⟨0x800000, 0x10000, 36⟩, regsKLN),
  (⟨0xc00000, 0x100000, 1⟩, regsGLZ),
  (⟨0xd00000, 0x100000, 1⟩, regsPKE),
  (⟨0xe00000, 0x80000, 2⟩, regsHIF),
  (⟨0xf00000, 0x10000, 16⟩, regsDMA),
  (⟨0x1000000, 0x800, 2048⟩, regsSAG),
  (⟨0x4000000, 0x100000, 1⟩, regsSTO)
]

/-- One array of CNT counters: offset in its block, strides, and whether it is 64 bits wide (R47). -/
structure CntDesc where
  off : Nat
  dims : List (Nat × Nat)
  wide : Bool
  deriving DecidableEq, Repr

/-- The CNT counters of every block (R12, R47). Runs of counters at consecutive offsets are one array. -/
def counters : List (BlockDesc × List CntDesc) := [
  (⟨0x0, 0x10000, 1⟩, [⟨0x40, [], false⟩]),
  (⟨0x10000, 0x10000, 1⟩, [⟨0x800, [(0x8, 3)], true⟩]),
  (⟨0x30000, 0x10000, 1⟩, [⟨0x180, [], false⟩]),
  (⟨0x40000, 0x10000, 1⟩, [⟨0x800, [(0x8, 11)], true⟩,
    ⟨0x1004, [(0x8, 32)], false⟩,
    ⟨0x600, [(0x10, 16), (0x4, 4)], false⟩]),
  (⟨0x50000, 0x10000, 1⟩, [⟨0x800, [(0x8, 2)], true⟩]),
  (⟨0x100000, 0x10000, 16⟩, [⟨0x1100, [(0x1000, 4), (0x8, 19)], true⟩]),
  (⟨0x200000, 0x20000, 8⟩, [⟨0x100, [(0x8, 13)], true⟩,
    ⟨0x800, [(0x8, 12)], true⟩]),
  (⟨0x300000, 0x100000, 1⟩, [⟨0x800, [(0x8, 14)], true⟩]),
  (⟨0x400000, 0x100000, 1⟩, [⟨0x800, [(0x8, 16)], true⟩]),
  (⟨0x500000, 0x300000, 1⟩, [⟨0x800, [(0x8, 7)], true⟩]),
  (⟨0x800000, 0x10000, 36⟩, [⟨0x10, [], false⟩]),
  (⟨0xc00000, 0x100000, 1⟩, [⟨0x800, [(0x8, 14)], true⟩]),
  (⟨0xd00000, 0x100000, 1⟩, [⟨0x800, [(0x8, 8)], true⟩]),
  (⟨0xe00000, 0x80000, 2⟩, [⟨0x1080, [(0x100, 4), (0x8, 8)], true⟩]),
  (⟨0xf00000, 0x10000, 16⟩, [⟨0x800, [(0x8, 12)], true⟩,
    ⟨0x8048, [(0x80, 256)], true⟩,
    ⟨0x8050, [(0x80, 256)], true⟩,
    ⟨0x8058, [(0x80, 256)], false⟩,
    ⟨0x805c, [(0x80, 256)], false⟩,
    ⟨0x8060, [(0x80, 256)], false⟩,
    ⟨0x8044, [(0x80, 256)], false⟩]),
  (⟨0x1000000, 0x800, 2048⟩, [⟨0x100, [(0x8, 9)], true⟩,
    ⟨0x14, [], false⟩,
    ⟨0x18, [], false⟩]),
  (⟨0x4000000, 0x100000, 1⟩, [⟨0x800, [(0x8, 10)], true⟩])]

/-- Whether offset `o` is `off` plus a whole number of each stride, within the counts. -/
def onGrid : Nat → List (Nat × Nat) → Bool
  | o, [] => o == 0
  | o, (st, n) :: ds => decide (o / st < n) && onGrid (o % st) ds

/-- The register description of an offset within a block. -/
def findReg (o : Nat) : List RegDesc → Option RegDesc
  | [] => none
  | r :: rs => if r.off ≤ o ∧ onGrid (o - r.off) r.dims then some r else findReg o rs

/-- The register that occupies a register-space offset, with its block instance's base (R9: none where no register
occupies it). -/
def regAtIn (a : Nat) : List (BlockDesc × List RegDesc) → Option (Nat × RegDesc)
  | [] => none
  | (b, rs) :: bs =>
    if b.base ≤ a ∧ a < b.base + b.stride * b.count then
      let i := (a - b.base) / b.stride
      (findReg ((a - b.base) % b.stride) rs).map fun r => (b.base + i * b.stride, r)
    else regAtIn a bs

/-- The register at a register-space offset. -/
def regAt (a : Nat) : Option (Nat × RegDesc) := regAtIn a blocks

/-- The counter at an offset within a block: its width, and whether the offset is its low half. -/
def findCnt (o : Nat) : List CntDesc → Option (Bool × Bool)
  | [] => none
  | c :: cs =>
    if c.off ≤ o ∧ onGrid (o - c.off) c.dims then some (c.wide, true)
    else if c.wide ∧ c.off + 4 ≤ o ∧ onGrid (o - 4 - c.off) c.dims then some (true, false)
    else findCnt o cs

/-- The counter at a register-space offset. -/
def counterIn (a : Nat) : List (BlockDesc × List CntDesc) → Option (Bool × Bool)
  | [] => none
  | (b, cs) :: bs =>
    if b.base ≤ a ∧ a < b.base + b.stride * b.count then findCnt ((a - b.base) % b.stride) cs
    else counterIn a bs

/-- The counter at a register-space offset: (64-bit, this is the low half). -/
def counterAt (a : Nat) : Option (Bool × Bool) := counterIn a counters

/-- Where STO's registers are held: the STO block's addresses in register space are also those of the registers of saggars 512
to 1,023 by the stride of R26, so the model holds STO beyond the 64 MiB that a bus address can name (notes/assumptions/46). -/
def stoKey : Nat := 0x4000000

/-- The register that a bus address names (R26, notes/assumptions/46): in STO's window a register or counter of STO where STO has
one there, and otherwise the saggar's register that the stride puts there. -/
def busKey (a : Nat) : Nat :=
  let k := a - 0x1100000 + stoKey
  if 0x1100000 ≤ a ∧ a < 0x1200000 ∧ ((regAt k).isSome || (counterAt k).isSome) then k else a

/-- The bus address of a register. -/
def keyBus (k : Nat) : Nat := if stoKey ≤ k then k - stoKey + 0x1100000 else k

/-- The value of a register's fields at reset. -/
def fieldsReset : List FieldDesc → Nat
  | [] => 0
  | f :: fs => f.reset * 2 ^ f.lo + fieldsReset fs

/-- The boot map with no kiln retired, in RAS_KILN_MAP_k and KLN_STATE of a block at `base`: a quadrant's first eight
physical kilns are its logical kilns, the ninth its spare (R470). -/
def bootMapReset (base off o : Nat) : Nat :=
  if base = 0x40000 ∧ off = 0x1100 then 2 ^ 31 + 9 * ((o - off) / 4 / 8) + (o - off) / 4 % 8
  else if 0x800000 ≤ base ∧ base < 0xA40000 ∧ off = 0 then
    let p := (base - 0x800000) / 0x10000
    if p % 9 = 8 then 2 ^ 29 else (p / 9 * 8 + p % 9) * 2 ^ 16
  else 0

/-- What a register reads at reset (R14); an unoccupied offset reads zero (R9). -/
def regReset (a : Nat) : W32 :=
  match regAt a with
  | some (base, r) => BitVec.ofNat 32 (bootMapReset base r.off (a - base) + fieldsReset r.fields)
  | none => 0#32

end Sys2Proof.Machine
end

