-- ==== Sys2Proof/Machine/RegNames.lean ====
section
/-!
DEFINITION. The names of the registers, fields and counters, as the manual gives them: the address of each register
(BLOCK_REG), each field (BLOCK_REG_FIELD) and each CNT counter (BLOCK_CNT_NAME). An array takes the instance of its
block first, then its own indices.
-/

namespace Sys2Proof.Machine

/-- A field of a register: address, lowest bit, width. -/
structure Fld where
  addr : Nat
  lo : Nat
  width : Nat
  deriving DecidableEq, Repr

/-- A CNT counter: address of its (low) register and whether it is 64 bits wide. -/
structure Ctr where
  addr : Nat
  wide : Bool
  deriving DecidableEq, Repr

def GLB_DEVID : Nat := 0x0
def GLB_DEVID_PART : Fld := ⟨GLB_DEVID, 16, 16⟩
def GLB_DEVID_REV_LETTER : Fld := ⟨GLB_DEVID, 8, 8⟩
def GLB_DEVID_REV_NUM : Fld := ⟨GLB_DEVID, 0, 8⟩
def GLB_LOCK_VIOL_ADDR : Nat := 0x44
def GLB_LOCK_VIOL_ADDR_OFFSET : Fld := ⟨GLB_LOCK_VIOL_ADDR, 0, 26⟩
def GLB_LOCK_VIOL_SRC : Nat := 0x48
def GLB_LOCK_VIOL_SRC_VALID : Fld := ⟨GLB_LOCK_VIOL_SRC, 31, 1⟩
def GLB_LOCK_VIOL_SRC_PATH : Fld := ⟨GLB_LOCK_VIOL_SRC, 0, 2⟩
def ETH_MODE (n : Nat) : Nat := 0x100000 + n * 0x10000
def ETH_MODE_MODE (n : Nat) : Fld := ⟨ETH_MODE n, 0, 3⟩
def ETH_CTRL (n : Nat) : Nat := 0x100004 + n * 0x10000
def ETH_CTRL_PORT_RESET (n : Nat) : Fld := ⟨ETH_CTRL n, 31, 1⟩
def ETH_CTRL_LOOPBACK (n : Nat) : Fld := ⟨ETH_CTRL n, 4, 2⟩
def ETH_CTRL_AN_EN (n : Nat) : Fld := ⟨ETH_CTRL n, 3, 1⟩
def ETH_CTRL_CT_EN (n : Nat) : Fld := ⟨ETH_CTRL n, 2, 1⟩
def ETH_CTRL_ENABLE (n : Nat) : Fld := ⟨ETH_CTRL n, 0, 1⟩
def ETH_MAX_FRAME (n : Nat) : Nat := 0x100008 + n * 0x10000
def ETH_MAX_FRAME_MAX_FRAME (n : Nat) : Fld := ⟨ETH_MAX_FRAME n, 0, 14⟩
def ETH_LINK_HOLD (n : Nat) : Nat := 0x10000c + n * 0x10000
def ETH_LINK_HOLD_HOLD_MS (n : Nat) : Fld := ⟨ETH_LINK_HOLD n, 0, 10⟩
def ETH_AGE_LIMIT (n : Nat) : Nat := 0x100010 + n * 0x10000
def ETH_AGE_LIMIT_AGE_MS (n : Nat) : Fld := ⟨ETH_AGE_LIMIT n, 0, 10⟩
def ETH_LANE_CFG (n : Nat) : Nat := 0x100014 + n * 0x10000
def ETH_LANE_CFG_TX_INV (n : Nat) : Fld := ⟨ETH_LANE_CFG n, 12, 4⟩
def ETH_LANE_CFG_RX_INV (n : Nat) : Fld := ⟨ETH_LANE_CFG n, 8, 4⟩
def ETH_LANE_CFG_RX_MAP (n : Nat) : Fld := ⟨ETH_LANE_CFG n, 0, 8⟩
def ETH_SP_STATUS (n i : Nat) : Nat := 0x101000 + n * 0x10000 + i * 0x1000
def ETH_SP_STATUS_FLUSHING (n i : Nat) : Fld := ⟨ETH_SP_STATUS n i, 4, 1⟩
def ETH_SP_STATUS_HOLDING (n i : Nat) : Fld := ⟨ETH_SP_STATUS n i, 3, 1⟩
def ETH_SP_STATUS_REMOTE_FAULT (n i : Nat) : Fld := ⟨ETH_SP_STATUS n i, 2, 1⟩
def ETH_SP_STATUS_LOCAL_FAULT (n i : Nat) : Fld := ⟨ETH_SP_STATUS n i, 1, 1⟩
def ETH_SP_STATUS_LINK_UP (n i : Nat) : Fld := ⟨ETH_SP_STATUS n i, 0, 1⟩
def ETH_SP_EVENT (n i : Nat) : Nat := 0x101004 + n * 0x10000 + i * 0x1000
def ETH_SP_EVENT_CFG_ERR (n i : Nat) : Fld := ⟨ETH_SP_EVENT n i, 3, 1⟩
def ETH_SP_EVENT_HOLD_EXPIRED (n i : Nat) : Fld := ⟨ETH_SP_EVENT n i, 2, 1⟩
def ETH_SP_EVENT_LINK_UP (n i : Nat) : Fld := ⟨ETH_SP_EVENT n i, 1, 1⟩
def ETH_SP_EVENT_LINK_DOWN (n i : Nat) : Fld := ⟨ETH_SP_EVENT n i, 0, 1⟩
def ETH_SP_LAST_FLUSH (n i : Nat) : Nat := 0x101008 + n * 0x10000 + i * 0x1000
def ETH_SP_LAST_FLUSH_FRAMES (n i : Nat) : Fld := ⟨ETH_SP_LAST_FLUSH n i, 0, 32⟩
def PL_PARSE_CTRL (n : Nat) : Nat := 0x200000 + n * 0x20000
def PL_PARSE_CTRL_BUDGET (n : Nat) : Fld := ⟨PL_PARSE_CTRL n, 8, 8⟩
def PL_PARSE_CTRL_ENABLE (n : Nat) : Fld := ⟨PL_PARSE_CTRL n, 0, 1⟩
def PL_PARSE_ENTRY (n : Nat) : Nat := 0x200004 + n * 0x20000
def PL_PARSE_ENTRY_ENTRY (n : Nat) : Fld := ⟨PL_PARSE_ENTRY n, 0, 12⟩
def PL_PARSE_CONST (n : Nat) : Nat := 0x200008 + n * 0x20000
def PL_PARSE_CONST_CONST1 (n : Nat) : Fld := ⟨PL_PARSE_CONST n, 16, 16⟩
def PL_PARSE_CONST_CONST0 (n : Nat) : Fld := ⟨PL_PARSE_CONST n, 0, 16⟩
def PL_PARSE_STATUS (n : Nat) : Nat := 0x20000c + n * 0x20000
def PL_PARSE_STATUS_PREV_BUSY (n : Nat) : Fld := ⟨PL_PARSE_STATUS n, 16, 7⟩
def PL_PARSE_STATUS_QDEPTH (n : Nat) : Fld := ⟨PL_PARSE_STATUS n, 8, 8⟩
def PL_PARSE_STATUS_BUSY (n : Nat) : Fld := ⟨PL_PARSE_STATUS n, 0, 7⟩
def PL_PARSE_EVENT (n : Nat) : Nat := 0x200010 + n * 0x20000
def PL_PARSE_EVENT_IMEM_UNCORR (n : Nat) : Fld := ⟨PL_PARSE_EVENT n, 2, 1⟩
def PL_PARSE_EVENT_ILLEGAL (n : Nat) : Fld := ⟨PL_PARSE_EVENT n, 1, 1⟩
def PL_PARSE_EVENT_QUEUE_FULL (n : Nat) : Fld := ⟨PL_PARSE_EVENT n, 0, 1⟩
def PL_MALF_CTRL (n : Nat) : Nat := 0x200014 + n * 0x20000
def PL_MALF_CTRL_QUEUE (n : Nat) : Fld := ⟨PL_MALF_CTRL n, 16, 16⟩
def PL_MALF_CTRL_COLOUR (n : Nat) : Fld := ⟨PL_MALF_CTRL n, 12, 2⟩
def PL_MALF_CTRL_CLASS (n : Nat) : Fld := ⟨PL_MALF_CTRL n, 8, 3⟩
def PL_MALF_CTRL_ACTION (n : Nat) : Fld := ⟨PL_MALF_CTRL n, 0, 2⟩
def PL_CLS_CTRL (n : Nat) : Nat := 0x200200 + n * 0x20000
def PL_CLS_CTRL_LPM_EN (n : Nat) : Fld := ⟨PL_CLS_CTRL n, 2, 1⟩
def PL_CLS_CTRL_EM_EN (n : Nat) : Fld := ⟨PL_CLS_CTRL n, 1, 1⟩
def PL_CLS_CTRL_ENABLE (n : Nat) : Fld := ⟨PL_CLS_CTRL n, 0, 1⟩
def PL_KEY_SEL (n i : Nat) : Nat := 0x200210 + n * 0x20000 + i * 0x4
def PL_KEY_SEL_START (n i : Nat) : Fld := ⟨PL_KEY_SEL n i, 16, 9⟩
def PL_KEY_SEL_WIDTH_M1 (n i : Nat) : Fld := ⟨PL_KEY_SEL n i, 0, 5⟩
def PL_LKP_CFG (n : Nat) : Nat := 0x200230 + n * 0x20000
def PL_LKP_CFG_LEARN_WORD (n : Nat) : Fld := ⟨PL_LKP_CFG n, 24, 5⟩
def PL_LKP_CFG_LPM_WORD (n : Nat) : Fld := ⟨PL_LKP_CFG n, 16, 5⟩
def PL_LKP_CFG_EM_WORD (n : Nat) : Fld := ⟨PL_LKP_CFG n, 0, 5⟩
def PL_PUNT_CFG (n : Nat) : Nat := 0x200240 + n * 0x20000
def PL_PUNT_CFG_RATE_KPPS (n : Nat) : Fld := ⟨PL_PUNT_CFG n, 16, 16⟩
def PL_PUNT_CFG_BURST (n : Nat) : Fld := ⟨PL_PUNT_CFG n, 8, 8⟩
def PL_PUNT_TARGET (n : Nat) : Nat := 0x200244 + n * 0x20000
def PL_PUNT_TARGET_THREAD (n : Nat) : Fld := ⟨PL_PUNT_TARGET n, 0, 10⟩
def PL_RC_CFG (n i : Nat) : Nat := 0x200400 + n * 0x20000 + i * 0x8
def PL_RC_CFG_WORD (n i : Nat) : Fld := ⟨PL_RC_CFG n i, 0, 5⟩
def PL_RC_BOUNDS (n i : Nat) : Nat := 0x200404 + n * 0x20000 + i * 0x8
def PL_RC_BOUNDS_HIGH (n i : Nat) : Fld := ⟨PL_RC_BOUNDS n i, 16, 16⟩
def PL_RC_BOUNDS_LOW (n i : Nat) : Fld := ⟨PL_RC_BOUNDS n i, 0, 16⟩
def TBL_CTRL : Nat := 0x300000
def TBL_CTRL_SCRUB_EN : Fld := ⟨TBL_CTRL, 1, 1⟩
def TBL_CTRL_ENABLE : Fld := ⟨TBL_CTRL, 0, 1⟩
def TBL_EM_SEED : Nat := 0x300004
def TBL_EM_SEED_SEED : Fld := ⟨TBL_EM_SEED, 0, 32⟩
def TBL_MOVE_HOLD : Nat := 0x300008
def TBL_MOVE_HOLD_HOLD_MS : Fld := ⟨TBL_MOVE_HOLD, 0, 16⟩
def TBL_PAR_LOG : Nat := 0x300010
def TBL_PAR_LOG_VALID : Fld := ⟨TBL_PAR_LOG, 31, 1⟩
def TBL_PAR_LOG_TABLE : Fld := ⟨TBL_PAR_LOG, 28, 3⟩
def TBL_PAR_LOG_PIPE : Fld := ⟨TBL_PAR_LOG, 24, 3⟩
def TBL_PAR_LOG_INDEX : Fld := ⟨TBL_PAR_LOG, 0, 20⟩
def TBL_EVENT : Nat := 0x300014
def TBL_EVENT_TABLE_FULL : Fld := ⟨TBL_EVENT, 2, 1⟩
def TBL_EVENT_LEARN_OVF : Fld := ⟨TBL_EVENT, 1, 1⟩
def TBL_EVENT_PARITY : Fld := ⟨TBL_EVENT, 0, 1⟩
def TBL_STATUS : Nat := 0x300018
def TBL_STATUS_OVF_USED : Fld := ⟨TBL_STATUS, 16, 14⟩
def TBL_STATUS_LEARN_QDEPTH : Fld := ⟨TBL_STATUS, 0, 13⟩
def TBL_LEVT_BASE_LO : Nat := 0x300020
def TBL_LEVT_BASE_LO_ADDR : Fld := ⟨TBL_LEVT_BASE_LO, 0, 32⟩
def TBL_LEVT_BASE_HI : Nat := 0x300024
def TBL_LEVT_BASE_HI_ADDR : Fld := ⟨TBL_LEVT_BASE_HI, 0, 32⟩
def TBL_LEVT_CFG : Nat := 0x300028
def TBL_LEVT_CFG_EN : Fld := ⟨TBL_LEVT_CFG, 31, 1⟩
def TBL_LEVT_CFG_CHANNEL : Fld := ⟨TBL_LEVT_CFG, 16, 12⟩
def TBL_LEVT_CFG_SIZE_LOG2 : Fld := ⟨TBL_LEVT_CFG, 0, 5⟩
def TBL_LEVT_HEAD : Nat := 0x30002c
def TBL_LEVT_HEAD_HEAD : Fld := ⟨TBL_LEVT_HEAD, 0, 16⟩
def TBL_LEVT_TAIL : Nat := 0x300030
def TBL_LEVT_TAIL_TAIL : Fld := ⟨TBL_LEVT_TAIL, 0, 16⟩
def TBL_LEARN_PORT (i : Nat) : Nat := 0x300100 + i * 0x4
def TBL_LEARN_PORT_EN (i : Nat) : Fld := ⟨TBL_LEARN_PORT i, 31, 1⟩
def TBL_LEARN_PORT_OWNER (i : Nat) : Fld := ⟨TBL_LEARN_PORT i, 16, 11⟩
def TBL_LEARN_PORT_QUEUE (i : Nat) : Fld := ⟨TBL_LEARN_PORT i, 0, 16⟩
def BUF_CTRL : Nat := 0x400000
def BUF_CTRL_ENABLE : Fld := ⟨BUF_CTRL, 0, 1⟩
def BUF_POOL_YELLOW_FLOOR : Nat := 0x400004
def BUF_POOL_YELLOW_FLOOR_CELLS : Fld := ⟨BUF_POOL_YELLOW_FLOOR, 0, 20⟩
def BUF_POOL_RED_FLOOR : Nat := 0x400008
def BUF_POOL_RED_FLOOR_CELLS : Fld := ⟨BUF_POOL_RED_FLOOR, 0, 20⟩
def BUF_POOL_STATUS : Nat := 0x40000c
def BUF_POOL_STATUS_FREE : Fld := ⟨BUF_POOL_STATUS, 0, 20⟩
def BUF_EVENT : Nat := 0x400010
def BUF_EVENT_SPILL_FULL : Fld := ⟨BUF_EVENT, 2, 1⟩
def BUF_EVENT_RED_FLOOR : Fld := ⟨BUF_EVENT, 1, 1⟩
def BUF_EVENT_YELLOW_FLOOR : Fld := ⟨BUF_EVENT, 0, 1⟩
def BUF_SPILL_BASE : Nat := 0x400020
def BUF_SPILL_BASE_GIB : Fld := ⟨BUF_SPILL_BASE, 0, 7⟩
def BUF_SPILL_SIZE : Nat := 0x400024
def BUF_SPILL_SIZE_GIB : Fld := ⟨BUF_SPILL_SIZE, 0, 6⟩
def BUF_IND_CMD : Nat := 0x400040
def BUF_IND_CMD_OP : Fld := ⟨BUF_IND_CMD, 24, 3⟩
def BUF_IND_CMD_FILL : Fld := ⟨BUF_IND_CMD, 16, 1⟩
def BUF_IND_CMD_INDEX : Fld := ⟨BUF_IND_CMD, 0, 16⟩
def TM_CTRL : Nat := 0x500000
def TM_CTRL_ENABLE : Fld := ⟨TM_CTRL, 0, 1⟩
def TM_STREAM_TOL : Nat := 0x500004
def TM_STREAM_TOL_NS : Fld := ⟨TM_STREAM_TOL, 0, 16⟩
def TM_IND_STATUS : Nat := 0x500008
def TM_IND_STATUS_REFUSED : Fld := ⟨TM_IND_STATUS, 0, 1⟩
def TM_STREAM_SEL (i : Nat) : Nat := 0x500010 + i * 0x4
def TM_STREAM_SEL_EN (i : Nat) : Fld := ⟨TM_STREAM_SEL i, 31, 1⟩
def TM_STREAM_SEL_WORD (i : Nat) : Fld := ⟨TM_STREAM_SEL i, 0, 5⟩
def TM_IND_CMD : Nat := 0x500040
def TM_IND_CMD_OP : Fld := ⟨TM_IND_CMD, 24, 3⟩
def TM_IND_CMD_LEVEL : Fld := ⟨TM_IND_CMD, 20, 2⟩
def TM_IND_CMD_FILL : Fld := ⟨TM_IND_CMD, 16, 1⟩
def TM_IND_CMD_INDEX : Fld := ⟨TM_IND_CMD, 0, 16⟩
def GLZ_CTRL : Nat := 0xc00000
def GLZ_CTRL_ENABLE : Fld := ⟨GLZ_CTRL, 0, 1⟩
def GLZ_POOL : Nat := 0xc00004
def GLZ_POOL_INLINE_ENGINES : Fld := ⟨GLZ_POOL, 0, 9⟩
def GLZ_KC_BASE : Nat := 0xc00008
def GLZ_KC_BASE_UNIT : Fld := ⟨GLZ_KC_BASE, 0, 9⟩
def GLZ_EVENT : Nat := 0xc00010
def GLZ_EVENT_KC_UNCORR : Fld := ⟨GLZ_EVENT, 3, 1⟩
def GLZ_EVENT_INLINE_FULL : Fld := ⟨GLZ_EVENT, 2, 1⟩
def GLZ_EVENT_EXHAUSTED : Fld := ⟨GLZ_EVENT, 1, 1⟩
def GLZ_EVENT_NEAR_LIMIT : Fld := ⟨GLZ_EVENT, 0, 1⟩
def GLZ_EVENT_KC : Nat := 0xc00014
def GLZ_EVENT_KC_INDEX : Fld := ⟨GLZ_EVENT_KC, 0, 20⟩
def GLZ_STATUS : Nat := 0xc00018
def GLZ_STATUS_BUSY : Fld := ⟨GLZ_STATUS, 16, 9⟩
def GLZ_STATUS_INLINE_QDEPTH : Fld := ⟨GLZ_STATUS, 0, 13⟩
def GLZ_SEL (i : Nat) : Nat := 0xc00020 + i * 0x4
def GLZ_SEL_EN (i : Nat) : Fld := ⟨GLZ_SEL i, 31, 1⟩
def GLZ_SEL_WORD (i : Nat) : Fld := ⟨GLZ_SEL i, 0, 5⟩
def GLZ_IND_CMD : Nat := 0xc00080
def GLZ_IND_CMD_OP : Fld := ⟨GLZ_IND_CMD, 24, 3⟩
def GLZ_IND_CMD_INDEX : Fld := ⟨GLZ_IND_CMD, 0, 14⟩
def PKE_CTRL : Nat := 0xd00000
def PKE_CTRL_ENABLE : Fld := ⟨PKE_CTRL, 0, 1⟩
def PKE_STATUS : Nat := 0xd00004
def PKE_STATUS_BUSY : Fld := ⟨PKE_STATUS, 16, 5⟩
def PKE_STATUS_IN_SERVICE : Fld := ⟨PKE_STATUS, 0, 16⟩
def PKE_EVENT : Nat := 0xd00008
def PKE_EVENT_UNIT_ERROR : Fld := ⟨PKE_EVENT, 2, 1⟩
def PKE_EVENT_NO_CANDIDATE : Fld := ⟨PKE_EVENT, 1, 1⟩
def PKE_EVENT_TIMEOUT : Fld := ⟨PKE_EVENT, 0, 1⟩
def PKE_EVENT_UNIT : Nat := 0xd0000c
def PKE_EVENT_UNIT_UNIT : Fld := ⟨PKE_EVENT_UNIT, 0, 4⟩
def HIF_CTRL (n : Nat) : Nat := 0xe00000 + n * 0x80000
def HIF_CTRL_FW_REL (n : Nat) : Fld := ⟨HIF_CTRL n, 12, 4⟩
def HIF_CTRL_BIFURC (n : Nat) : Fld := ⟨HIF_CTRL n, 8, 2⟩
def HIF_CTRL_MAX_GEN (n : Nat) : Fld := ⟨HIF_CTRL n, 4, 3⟩
def HIF_CTRL_ENABLE (n : Nat) : Fld := ⟨HIF_CTRL n, 0, 1⟩
def HIF_LINK_STATUS (n i : Nat) : Nat := 0xe01000 + n * 0x80000 + i * 0x100
def HIF_LINK_STATUS_PM_STATE (n i : Nat) : Fld := ⟨HIF_LINK_STATUS n i, 12, 3⟩
def HIF_LINK_STATUS_SPEED (n i : Nat) : Fld := ⟨HIF_LINK_STATUS n i, 8, 4⟩
def HIF_LINK_STATUS_WIDTH (n i : Nat) : Fld := ⟨HIF_LINK_STATUS n i, 3, 5⟩
def HIF_LINK_STATUS_FLIT (n i : Nat) : Fld := ⟨HIF_LINK_STATUS n i, 1, 1⟩
def HIF_LINK_STATUS_LINK_UP (n i : Nat) : Fld := ⟨HIF_LINK_STATUS n i, 0, 1⟩
def HIF_FREEZE (n i : Nat) : Nat := 0xe01004 + n * 0x80000 + i * 0x100
def HIF_FREEZE_FROZEN (n i : Nat) : Fld := ⟨HIF_FREEZE n i, 31, 1⟩
def HIF_FREEZE_FREEZE_REL (n i : Nat) : Fld := ⟨HIF_FREEZE n i, 30, 1⟩
def HIF_FREEZE_REL_REFUSED (n i : Nat) : Fld := ⟨HIF_FREEZE n i, 29, 1⟩
def HIF_FREEZE_FREEZE_EVENT (n i : Nat) : Fld := ⟨HIF_FREEZE n i, 28, 1⟩
def HIF_FREEZE_FLR_DEFERRED (n i : Nat) : Fld := ⟨HIF_FREEZE n i, 27, 1⟩
def HIF_FREEZE_CAUSE (n i : Nat) : Fld := ⟨HIF_FREEZE n i, 0, 8⟩
def HIF_DROP_SRC (n i : Nat) : Nat := 0xe01010 + n * 0x80000 + i * 0x100
def HIF_DROP_SRC_VALID (n i : Nat) : Fld := ⟨HIF_DROP_SRC n i, 31, 1⟩
def HIF_DROP_SRC_BAR (n i : Nat) : Fld := ⟨HIF_DROP_SRC n i, 16, 3⟩
def HIF_DROP_SRC_RID (n i : Nat) : Fld := ⟨HIF_DROP_SRC n i, 0, 16⟩
def HIF_DROP_OFS (n i : Nat) : Nat := 0xe01014 + n * 0x80000 + i * 0x100
def HIF_DROP_OFS_OFFSET (n i : Nat) : Fld := ⟨HIF_DROP_OFS n i, 0, 32⟩
def DMA_ENG_CTRL (n : Nat) : Nat := 0xf00000 + n * 0x10000
def DMA_ENG_CTRL_CLEAR_STOP (n : Nat) : Fld := ⟨DMA_ENG_CTRL n, 8, 1⟩
def DMA_ENG_CTRL_ENABLE (n : Nat) : Fld := ⟨DMA_ENG_CTRL n, 0, 1⟩
def DMA_ENG_STATUS (n : Nat) : Nat := 0xf00004 + n * 0x10000
def DMA_ENG_STATUS_STOPPED (n : Nat) : Fld := ⟨DMA_ENG_STATUS n, 31, 1⟩
def DMA_ENG_STATUS_DRAINING (n : Nat) : Fld := ⟨DMA_ENG_STATUS n, 30, 1⟩
def DMA_ENG_STATUS_OUT_READS (n : Nat) : Fld := ⟨DMA_ENG_STATUS n, 0, 8⟩
def DMA_ENG_ERR (n : Nat) : Nat := 0xf00008 + n * 0x10000
def DMA_ENG_ERR_VALID (n : Nat) : Fld := ⟨DMA_ENG_ERR n, 31, 1⟩
def DMA_ENG_ERR_MULTI (n : Nat) : Fld := ⟨DMA_ENG_ERR n, 30, 1⟩
def DMA_ENG_ERR_CAUSE (n : Nat) : Fld := ⟨DMA_ENG_ERR n, 24, 4⟩
def DMA_ENG_ERR_SRC (n : Nat) : Fld := ⟨DMA_ENG_ERR n, 16, 4⟩
def DMA_ENG_ERR_RID (n : Nat) : Fld := ⟨DMA_ENG_ERR n, 0, 16⟩
def DMA_ENG_ERR_ADDR_LO (n : Nat) : Nat := 0xf0000c + n * 0x10000
def DMA_ENG_ERR_ADDR_LO_ADDR (n : Nat) : Fld := ⟨DMA_ENG_ERR_ADDR_LO n, 0, 32⟩
def DMA_ENG_ERR_ADDR_HI (n : Nat) : Nat := 0xf00010 + n * 0x10000
def DMA_ENG_ERR_ADDR_HI_ADDR (n : Nat) : Fld := ⟨DMA_ENG_ERR_ADDR_HI n, 0, 32⟩
def DMA_CH_CTRL (n i : Nat) : Nat := 0xf08000 + n * 0x10000 + i * 0x80
def DMA_CH_CTRL_RESET (n i : Nat) : Fld := ⟨DMA_CH_CTRL n i, 31, 1⟩
def DMA_CH_CTRL_RESUME (n i : Nat) : Fld := ⟨DMA_CH_CTRL n i, 30, 1⟩
def DMA_CH_CTRL_PAUSE (n i : Nat) : Fld := ⟨DMA_CH_CTRL n i, 1, 1⟩
def DMA_CH_CTRL_START (n i : Nat) : Fld := ⟨DMA_CH_CTRL n i, 0, 1⟩
def DMA_CH_CFG (n i : Nat) : Nat := 0xf08004 + n * 0x10000 + i * 0x80
def DMA_CH_CFG_KIND (n i : Nat) : Fld := ⟨DMA_CH_CFG n i, 28, 4⟩
def DMA_CH_CFG_LINK (n i : Nat) : Fld := ⟨DMA_CH_CFG n i, 25, 3⟩
def DMA_CH_CFG_FUNC (n i : Nat) : Fld := ⟨DMA_CH_CFG n i, 14, 11⟩
def DMA_CH_CFG_KEEP_FCS (n i : Nat) : Fld := ⟨DMA_CH_CFG n i, 13, 1⟩
def DMA_CH_CFG_TAG_SAGGAR (n i : Nat) : Fld := ⟨DMA_CH_CFG n i, 12, 1⟩
def DMA_CH_CFG_DBPAGE (n i : Nat) : Fld := ⟨DMA_CH_CFG n i, 0, 12⟩
def DMA_CH_OWNER (n i : Nat) : Nat := 0xf08008 + n * 0x10000 + i * 0x80
def DMA_CH_OWNER_MANAGER (n i : Nat) : Fld := ⟨DMA_CH_OWNER n i, 31, 1⟩
def DMA_CH_OWNER_OWNER (n i : Nat) : Fld := ⟨DMA_CH_OWNER n i, 0, 11⟩
def DMA_CH_QUEUE (n i : Nat) : Nat := 0xf0800c + n * 0x10000 + i * 0x80
def DMA_CH_QUEUE_QUEUE (n i : Nat) : Fld := ⟨DMA_CH_QUEUE n i, 0, 16⟩
def DMA_CH_DRING_LO (n i : Nat) : Nat := 0xf08010 + n * 0x10000 + i * 0x80
def DMA_CH_DRING_LO_ADDR (n i : Nat) : Fld := ⟨DMA_CH_DRING_LO n i, 0, 32⟩
def DMA_CH_DRING_HI (n i : Nat) : Nat := 0xf08014 + n * 0x10000 + i * 0x80
def DMA_CH_DRING_HI_ADDR (n i : Nat) : Fld := ⟨DMA_CH_DRING_HI n i, 0, 32⟩
def DMA_CH_CRING_LO (n i : Nat) : Nat := 0xf08018 + n * 0x10000 + i * 0x80
def DMA_CH_CRING_LO_ADDR (n i : Nat) : Fld := ⟨DMA_CH_CRING_LO n i, 0, 32⟩
def DMA_CH_CRING_HI (n i : Nat) : Nat := 0xf0801c + n * 0x10000 + i * 0x80
def DMA_CH_CRING_HI_ADDR (n i : Nat) : Fld := ⟨DMA_CH_CRING_HI n i, 0, 32⟩
def DMA_CH_SIZE (n i : Nat) : Nat := 0xf08020 + n * 0x10000 + i * 0x80
def DMA_CH_SIZE_IRQ_EN (n i : Nat) : Fld := ⟨DMA_CH_SIZE n i, 31, 1⟩
def DMA_CH_SIZE_VECTOR (n i : Nat) : Fld := ⟨DMA_CH_SIZE n i, 16, 11⟩
def DMA_CH_SIZE_SIZE_LOG2 (n i : Nat) : Fld := ⟨DMA_CH_SIZE n i, 0, 5⟩
def DMA_CH_HOLDOFF (n i : Nat) : Nat := 0xf08024 + n * 0x10000 + i * 0x80
def DMA_CH_HOLDOFF_US (n i : Nat) : Fld := ⟨DMA_CH_HOLDOFF n i, 0, 16⟩
def DMA_CH_STATUS (n i : Nat) : Nat := 0xf08034 + n * 0x10000 + i * 0x80
def DMA_CH_STATUS_CFG_ERR (n i : Nat) : Fld := ⟨DMA_CH_STATUS n i, 31, 1⟩
def DMA_CH_STATUS_PAUSE_SRC (n i : Nat) : Fld := ⟨DMA_CH_STATUS n i, 16, 4⟩
def DMA_CH_STATUS_IRQ_ARMED (n i : Nat) : Fld := ⟨DMA_CH_STATUS n i, 11, 1⟩
def DMA_CH_STATUS_CPHASE (n i : Nat) : Fld := ⟨DMA_CH_STATUS n i, 10, 1⟩
def DMA_CH_STATUS_DPHASE (n i : Nat) : Fld := ⟨DMA_CH_STATUS n i, 9, 1⟩
def DMA_CH_STATUS_OWN_STALL (n i : Nat) : Fld := ⟨DMA_CH_STATUS n i, 8, 1⟩
def DMA_CH_STATUS_STATE (n i : Nat) : Fld := ⟨DMA_CH_STATUS n i, 0, 3⟩
def DMA_CH_IRQ_NEXT (n i : Nat) : Nat := 0xf08038 + n * 0x10000 + i * 0x80
def DMA_CH_IRQ_NEXT_NEXT (n i : Nat) : Fld := ⟨DMA_CH_IRQ_NEXT n i, 0, 16⟩
def STO_CTRL : Nat := 0x4000000
def STO_CTRL_ENABLE : Fld := ⟨STO_CTRL, 0, 1⟩
def STO_EVENT : Nat := 0x4000010
def STO_EVENT_TIMEOUT : Fld := ⟨STO_EVENT, 2, 1⟩
def STO_EVENT_JOURNAL_FAULT : Fld := ⟨STO_EVENT, 1, 1⟩
def STO_EVENT_DEFERRED : Fld := ⟨STO_EVENT, 0, 1⟩
def STO_IND_CMD : Nat := 0x4000040
def STO_IND_CMD_OP : Fld := ⟨STO_IND_CMD, 24, 3⟩
def STO_IND_CMD_JOP : Fld := ⟨STO_IND_CMD, 20, 2⟩
def STO_IND_CMD_INDEX : Fld := ⟨STO_IND_CMD, 0, 12⟩
def STO_IND_STATUS : Nat := 0x4000044
def STO_IND_STATUS_BUSY : Fld := ⟨STO_IND_STATUS, 31, 1⟩
def STO_IND_STATUS_DONE : Fld := ⟨STO_IND_STATUS, 30, 1⟩
def STO_IND_STATUS_RESULT : Fld := ⟨STO_IND_STATUS, 0, 8⟩
def CLK_PLL_STATUS : Nat := 0x10000
def CLK_PLL_STATUS_TIME_LOCK : Fld := ⟨CLK_PLL_STATUS, 7, 1⟩
def CLK_PLL_STATUS_HIF_LOCK : Fld := ⟨CLK_PLL_STATUS, 6, 1⟩
def CLK_PLL_STATUS_HBM_LOCK : Fld := ⟨CLK_PLL_STATUS, 5, 1⟩
def CLK_PLL_STATUS_NOC_LOCK : Fld := ⟨CLK_PLL_STATUS, 4, 1⟩
def CLK_PLL_STATUS_PIPE_LOCK : Fld := ⟨CLK_PLL_STATUS, 3, 1⟩
def CLK_PLL_STATUS_CORE_C1_LOCK : Fld := ⟨CLK_PLL_STATUS, 2, 1⟩
def CLK_PLL_STATUS_CORE_C0_LOCK : Fld := ⟨CLK_PLL_STATUS, 1, 1⟩
def CLK_PLL_STATUS_OSC_OK : Fld := ⟨CLK_PLL_STATUS, 0, 1⟩
def CLK_PLL_EVENT : Nat := 0x10004
def CLK_PLL_EVENT_LOSS : Fld := ⟨CLK_PLL_EVENT, 1, 7⟩
def CLK_PLL_EVENT_OSC_FAIL : Fld := ⟨CLK_PLL_EVENT, 0, 1⟩
def CLK_RX_EN : Nat := 0x10008
def CLK_RX_EN_EN : Fld := ⟨CLK_RX_EN, 0, 16⟩
def CLK_HIF_SSC : Nat := 0x1000c
def CLK_HIF_SSC_DEPTH : Fld := ⟨CLK_HIF_SSC, 0, 2⟩
def CLK_RX_SRC (i : Nat) : Nat := 0x10100 + i * 0x4
def CLK_RX_SRC_REF (i : Nat) : Fld := ⟨CLK_RX_SRC i, 2, 1⟩
def CLK_RX_SRC_LANE (i : Nat) : Fld := ⟨CLK_RX_SRC i, 0, 2⟩
def RST_CAUSE : Nat := 0x20000
def RST_CAUSE_CAUSE : Fld := ⟨RST_CAUSE, 0, 4⟩
def RST_WARM_COUNT : Nat := 0x20004
def RST_WARM_COUNT_COUNT : Fld := ⟨RST_WARM_COUNT, 0, 16⟩
def RST_CTRL : Nat := 0x20008
def RST_CTRL_WARM : Fld := ⟨RST_CTRL, 31, 1⟩
def RST_CTRL_KEY : Fld := ⟨RST_CTRL, 0, 8⟩
def RST_QUAD_CTRL : Nat := 0x20010
def RST_QUAD_CTRL_RESET : Fld := ⟨RST_QUAD_CTRL, 0, 4⟩
def RST_QUAD_STATUS : Nat := 0x20014
def RST_QUAD_STATUS_RESETTING : Fld := ⟨RST_QUAD_STATUS, 16, 4⟩
def RST_QUAD_STATUS_DONE : Fld := ⟨RST_QUAD_STATUS, 8, 4⟩
def RST_QUAD_STATUS_HELD : Fld := ⟨RST_QUAD_STATUS, 0, 4⟩
def GATE_CTRL (i : Nat) : Nat := 0x510000 + i * 0x100
def GATE_CTRL_SWAPPED (i : Nat) : Fld := ⟨GATE_CTRL i, 17, 1⟩
def GATE_CTRL_CFG_ERR (i : Nat) : Fld := ⟨GATE_CTRL i, 16, 1⟩
def GATE_CTRL_CANCEL (i : Nat) : Fld := ⟨GATE_CTRL i, 8, 1⟩
def GATE_CTRL_CONFIG_CHANGE (i : Nat) : Fld := ⟨GATE_CTRL i, 7, 1⟩
def GATE_CTRL_PENDING (i : Nat) : Fld := ⟨GATE_CTRL i, 4, 1⟩
def GATE_CTRL_OPER_BANK (i : Nat) : Fld := ⟨GATE_CTRL i, 3, 1⟩
def GATE_CTRL_GATE_EN (i : Nat) : Fld := ⟨GATE_CTRL i, 0, 1⟩
def GATE_ADMIN_LEN (i : Nat) : Nat := 0x510004 + i * 0x100
def GATE_ADMIN_LEN_LEN (i : Nat) : Fld := ⟨GATE_ADMIN_LEN i, 0, 11⟩
def GATE_ADMIN_CYCLE (i : Nat) : Nat := 0x510008 + i * 0x100
def GATE_ADMIN_CYCLE_NS (i : Nat) : Fld := ⟨GATE_ADMIN_CYCLE i, 0, 32⟩
def GATE_ADMIN_CYC_EXT (i : Nat) : Nat := 0x51000c + i * 0x100
def GATE_ADMIN_CYC_EXT_NS (i : Nat) : Fld := ⟨GATE_ADMIN_CYC_EXT i, 0, 32⟩
def GATE_ADMIN_BASE_NS (i : Nat) : Nat := 0x510010 + i * 0x100
def GATE_ADMIN_BASE_NS_NS (i : Nat) : Fld := ⟨GATE_ADMIN_BASE_NS i, 0, 30⟩
def GATE_ADMIN_BASE_S_LO (i : Nat) : Nat := 0x510014 + i * 0x100
def GATE_ADMIN_BASE_S_LO_S (i : Nat) : Fld := ⟨GATE_ADMIN_BASE_S_LO i, 0, 32⟩
def GATE_ADMIN_BASE_S_HI (i : Nat) : Nat := 0x510018 + i * 0x100
def GATE_ADMIN_BASE_S_HI_S (i : Nat) : Fld := ⟨GATE_ADMIN_BASE_S_HI i, 0, 16⟩
def GATE_IDLE_GATES (i : Nat) : Nat := 0x51001c + i * 0x100
def GATE_IDLE_GATES_GATES (i : Nat) : Fld := ⟨GATE_IDLE_GATES i, 0, 8⟩
def GATE_CHANGE_NS (i : Nat) : Nat := 0x510020 + i * 0x100
def GATE_CHANGE_NS_NS (i : Nat) : Fld := ⟨GATE_CHANGE_NS i, 0, 30⟩
def GATE_CHANGE_S_LO (i : Nat) : Nat := 0x510024 + i * 0x100
def GATE_CHANGE_S_LO_S (i : Nat) : Fld := ⟨GATE_CHANGE_S_LO i, 0, 32⟩
def GATE_CHANGE_S_HI (i : Nat) : Nat := 0x510028 + i * 0x100
def GATE_CHANGE_S_HI_S (i : Nat) : Fld := ⟨GATE_CHANGE_S_HI i, 0, 16⟩
def GATE_OPER_ENTRY (i : Nat) : Nat := 0x510030 + i * 0x100
def GATE_OPER_ENTRY_ENTRY (i : Nat) : Fld := ⟨GATE_OPER_ENTRY i, 0, 10⟩
def GATE_OPER_GATES (i : Nat) : Nat := 0x510034 + i * 0x100
def GATE_OPER_GATES_GATES (i : Nat) : Fld := ⟨GATE_OPER_GATES i, 0, 8⟩
def SGATE_CTRL (i : Nat) : Nat := 0x520000 + i * 0x100
def SGATE_CTRL_SWAPPED (i : Nat) : Fld := ⟨SGATE_CTRL i, 17, 1⟩
def SGATE_CTRL_CFG_ERR (i : Nat) : Fld := ⟨SGATE_CTRL i, 16, 1⟩
def SGATE_CTRL_CANCEL (i : Nat) : Fld := ⟨SGATE_CTRL i, 8, 1⟩
def SGATE_CTRL_CONFIG_CHANGE (i : Nat) : Fld := ⟨SGATE_CTRL i, 7, 1⟩
def SGATE_CTRL_PENDING (i : Nat) : Fld := ⟨SGATE_CTRL i, 4, 1⟩
def SGATE_CTRL_OPER_BANK (i : Nat) : Fld := ⟨SGATE_CTRL i, 3, 1⟩
def SGATE_CTRL_GATE_EN (i : Nat) : Fld := ⟨SGATE_CTRL i, 0, 1⟩
def SGATE_ADMIN_LEN (i : Nat) : Nat := 0x520004 + i * 0x100
def SGATE_ADMIN_LEN_LEN (i : Nat) : Fld := ⟨SGATE_ADMIN_LEN i, 0, 11⟩
def SGATE_ADMIN_CYCLE (i : Nat) : Nat := 0x520008 + i * 0x100
def SGATE_ADMIN_CYCLE_NS (i : Nat) : Fld := ⟨SGATE_ADMIN_CYCLE i, 0, 32⟩
def SGATE_ADMIN_CYC_EXT (i : Nat) : Nat := 0x52000c + i * 0x100
def SGATE_ADMIN_CYC_EXT_NS (i : Nat) : Fld := ⟨SGATE_ADMIN_CYC_EXT i, 0, 32⟩
def SGATE_ADMIN_BASE_NS (i : Nat) : Nat := 0x520010 + i * 0x100
def SGATE_ADMIN_BASE_NS_NS (i : Nat) : Fld := ⟨SGATE_ADMIN_BASE_NS i, 0, 30⟩
def SGATE_ADMIN_BASE_S_LO (i : Nat) : Nat := 0x520014 + i * 0x100
def SGATE_ADMIN_BASE_S_LO_S (i : Nat) : Fld := ⟨SGATE_ADMIN_BASE_S_LO i, 0, 32⟩
def SGATE_ADMIN_BASE_S_HI (i : Nat) : Nat := 0x520018 + i * 0x100
def SGATE_ADMIN_BASE_S_HI_S (i : Nat) : Fld := ⟨SGATE_ADMIN_BASE_S_HI i, 0, 16⟩
def SGATE_IDLE_GATES (i : Nat) : Nat := 0x52001c + i * 0x100
def SGATE_IDLE_GATES_GATES (i : Nat) : Fld := ⟨SGATE_IDLE_GATES i, 0, 8⟩
def SGATE_CHANGE_NS (i : Nat) : Nat := 0x520020 + i * 0x100
def SGATE_CHANGE_NS_NS (i : Nat) : Fld := ⟨SGATE_CHANGE_NS i, 0, 30⟩
def SGATE_CHANGE_S_LO (i : Nat) : Nat := 0x520024 + i * 0x100
def SGATE_CHANGE_S_LO_S (i : Nat) : Fld := ⟨SGATE_CHANGE_S_LO i, 0, 32⟩
def SGATE_CHANGE_S_HI (i : Nat) : Nat := 0x520028 + i * 0x100
def SGATE_CHANGE_S_HI_S (i : Nat) : Fld := ⟨SGATE_CHANGE_S_HI i, 0, 16⟩
def SGATE_OPER_ENTRY (i : Nat) : Nat := 0x520030 + i * 0x100
def SGATE_OPER_ENTRY_ENTRY (i : Nat) : Fld := ⟨SGATE_OPER_ENTRY i, 0, 10⟩
def SGATE_OPER_GATES (i : Nat) : Nat := 0x520034 + i * 0x100
def SGATE_OPER_GATES_GATES (i : Nat) : Fld := ⟨SGATE_OPER_GATES i, 0, 8⟩
def TIME_NOW_FRAC : Nat := 0x50000
def TIME_NOW_FRAC_FRAC : Fld := ⟨TIME_NOW_FRAC, 0, 16⟩
def TIME_NOW_NS : Nat := 0x50004
def TIME_NOW_NS_NS : Fld := ⟨TIME_NOW_NS, 0, 30⟩
def TIME_NOW_S_LO : Nat := 0x50008
def TIME_NOW_S_LO_S : Fld := ⟨TIME_NOW_S_LO, 0, 32⟩
def TIME_NOW_S_HI : Nat := 0x5000c
def TIME_NOW_S_HI_S : Fld := ⟨TIME_NOW_S_HI, 0, 16⟩
def TIME_SET_NS : Nat := 0x50010
def TIME_SET_NS_NS : Fld := ⟨TIME_SET_NS, 0, 30⟩
def TIME_SET_S_LO : Nat := 0x50014
def TIME_SET_S_LO_S : Fld := ⟨TIME_SET_S_LO, 0, 32⟩
def TIME_SET_S_HI : Nat := 0x50018
def TIME_SET_S_HI_S : Fld := ⟨TIME_SET_S_HI, 0, 16⟩
def TIME_OFFSET : Nat := 0x5001c
def TIME_OFFSET_NS : Fld := ⟨TIME_OFFSET, 0, 32⟩
def TIME_CMD : Nat := 0x50020
def TIME_CMD_OFFSET : Fld := ⟨TIME_CMD, 1, 1⟩
def TIME_CMD_STEP : Fld := ⟨TIME_CMD, 0, 1⟩
def TIME_FREQ_ADJ : Nat := 0x50024
def TIME_FREQ_ADJ_ADJ : Fld := ⟨TIME_FREQ_ADJ, 0, 32⟩
def TIME_SYNC : Nat := 0x50028
def TIME_SYNC_KICK : Fld := ⟨TIME_SYNC, 31, 1⟩
def TIME_SYNC_FORCE_HOLDOVER : Fld := ⟨TIME_SYNC, 30, 1⟩
def TIME_SYNC_STATE : Fld := ⟨TIME_SYNC, 16, 2⟩
def TIME_SYNC_TIMEOUT_S : Fld := ⟨TIME_SYNC, 0, 8⟩
def TIME_HOLD : Nat := 0x5002c
def TIME_HOLD_GATE_ON_LOSS : Fld := ⟨TIME_HOLD, 30, 2⟩
def TIME_HOLD_HOLDOVER_LIMIT : Fld := ⟨TIME_HOLD, 0, 16⟩
def TIME_HOLD_ELAPSED : Nat := 0x50030
def TIME_HOLD_ELAPSED_S : Fld := ⟨TIME_HOLD_ELAPSED, 0, 16⟩
def TIME_EVENT : Nat := 0x50034
def TIME_EVENT_PPS_IN_OVERRUN : Fld := ⟨TIME_EVENT, 4, 1⟩
def TIME_EVENT_PPS_IN : Fld := ⟨TIME_EVENT, 3, 1⟩
def TIME_EVENT_EXPIRED : Fld := ⟨TIME_EVENT, 2, 1⟩
def TIME_EVENT_HOLDOVER : Fld := ⟨TIME_EVENT, 1, 1⟩
def TIME_EVENT_LOCKED : Fld := ⟨TIME_EVENT, 0, 1⟩
def TIME_PPS_OUT : Nat := 0x50040
def TIME_PPS_OUT_EN : Fld := ⟨TIME_PPS_OUT, 31, 1⟩
def TIME_PPS_OUT_WIDTH_US : Fld := ⟨TIME_PPS_OUT, 0, 19⟩
def TIME_PPS_OUT_OFS : Nat := 0x50044
def TIME_PPS_OUT_OFS_NS : Fld := ⟨TIME_PPS_OUT_OFS, 0, 32⟩
def TIME_PPS_IN_FRAC : Nat := 0x50050
def TIME_PPS_IN_FRAC_FRAC : Fld := ⟨TIME_PPS_IN_FRAC, 0, 16⟩
def TIME_PPS_IN_NS : Nat := 0x50054
def TIME_PPS_IN_NS_NS : Fld := ⟨TIME_PPS_IN_NS, 0, 30⟩
def TIME_PPS_IN_S_LO : Nat := 0x50058
def TIME_PPS_IN_S_LO_S : Fld := ⟨TIME_PPS_IN_S_LO, 0, 32⟩
def TIME_PPS_IN_S_HI : Nat := 0x5005c
def TIME_PPS_IN_S_HI_S : Fld := ⟨TIME_PPS_IN_S_HI, 0, 16⟩
def TIME_PPS_IN_CFG : Nat := 0x50060
def TIME_PPS_IN_CFG_FALLING : Fld := ⟨TIME_PPS_IN_CFG, 1, 1⟩
def TIME_PPS_IN_CFG_EN : Fld := ⟨TIME_PPS_IN_CFG, 0, 1⟩
def TIME_PORT_CFG (i : Nat) : Nat := 0x50100 + i * 0x8
def TIME_PORT_CFG_PTP_EN (i : Nat) : Fld := ⟨TIME_PORT_CFG i, 31, 1⟩
def TIME_PORT_CFG_TX_QUEUE (i : Nat) : Fld := ⟨TIME_PORT_CFG i, 0, 16⟩
def TIME_PORT_DLY (i : Nat) : Nat := 0x50104 + i * 0x8
def TIME_PORT_DLY_TX_NS (i : Nat) : Fld := ⟨TIME_PORT_DLY i, 16, 16⟩
def TIME_PORT_DLY_RX_NS (i : Nat) : Fld := ⟨TIME_PORT_DLY i, 0, 16⟩
def DMA_CH_HEAD (n i : Nat) : Nat := 0xf08028 + n * 0x10000 + i * 0x80
def DMA_CH_HEAD_DONE (n i : Nat) : Fld := ⟨DMA_CH_HEAD n i, 16, 16⟩
def DMA_CH_HEAD_HEAD (n i : Nat) : Fld := ⟨DMA_CH_HEAD n i, 0, 16⟩
def DMA_CH_TAIL (n i : Nat) : Nat := 0xf0802c + n * 0x10000 + i * 0x80
def DMA_CH_TAIL_TAIL (n i : Nat) : Fld := ⟨DMA_CH_TAIL n i, 0, 16⟩
def DMA_CH_OFFSET (n i : Nat) : Nat := 0xf08030 + n * 0x10000 + i * 0x80
def DMA_CH_OFFSET_OFFSET (n i : Nat) : Fld := ⟨DMA_CH_OFFSET n i, 0, 24⟩
def DMA_CH_FIRING (n i : Nat) : Nat := 0xf08040 + n * 0x10000 + i * 0x80
def DMA_CH_FIRING_BUMP_PENDING (n i : Nat) : Fld := ⟨DMA_CH_FIRING n i, 31, 1⟩
def DMA_CH_FIRING_FIRING (n i : Nat) : Fld := ⟨DMA_CH_FIRING n i, 0, 24⟩
def SAG_CTRL (n : Nat) : Nat := 0x1000000 + n * 0x800
def SAG_CTRL_OP (n : Nat) : Fld := ⟨SAG_CTRL n, 28, 4⟩
def SAG_CTRL_ARG (n : Nat) : Fld := ⟨SAG_CTRL n, 0, 12⟩
def SAG_STATUS (n : Nat) : Nat := 0x1000004 + n * 0x800
def SAG_STATUS_BUSY (n : Nat) : Fld := ⟨SAG_STATUS n, 31, 1⟩
def SAG_STATUS_DONE (n : Nat) : Fld := ⟨SAG_STATUS n, 30, 1⟩
def SAG_STATUS_RESULT (n : Nat) : Fld := ⟨SAG_STATUS n, 16, 8⟩
def SAG_STATUS_DIRTY_ON (n : Nat) : Fld := ⟨SAG_STATUS n, 5, 1⟩
def SAG_STATUS_SAVED (n : Nat) : Fld := ⟨SAG_STATUS n, 4, 1⟩
def SAG_STATUS_STATE (n : Nat) : Fld := ⟨SAG_STATUS n, 0, 3⟩
def SAG_FUNC (n : Nat) : Nat := 0x1000008 + n * 0x800
def SAG_FUNC_LINK (n : Nat) : Fld := ⟨SAG_FUNC n, 24, 3⟩
def SAG_FUNC_FUNC (n : Nat) : Fld := ⟨SAG_FUNC n, 0, 11⟩
def SAG_WEIGHT (n : Nat) : Nat := 0x100000c + n * 0x800
def SAG_WEIGHT_WEIGHT (n : Nat) : Fld := ⟨SAG_WEIGHT n, 0, 11⟩
def SAG_FIRING (n : Nat) : Nat := 0x1000010 + n * 0x800
def SAG_FIRING_BUMP_PENDING (n : Nat) : Fld := ⟨SAG_FIRING n, 31, 1⟩
def SAG_FIRING_FIRING (n : Nat) : Fld := ⟨SAG_FIRING n, 0, 24⟩
def SAG_GROUPS (n : Nat) : Nat := 0x1000020 + n * 0x800
def SAG_GROUPS_COUNT (n : Nat) : Fld := ⟨SAG_GROUPS n, 16, 11⟩
def SAG_GROUPS_BASE (n : Nat) : Fld := ⟨SAG_GROUPS n, 0, 13⟩
def SAG_QUEUES (n : Nat) : Nat := 0x1000024 + n * 0x800
def SAG_QUEUES_COUNT (n : Nat) : Fld := ⟨SAG_QUEUES n, 16, 14⟩
def SAG_QUEUES_BASE (n : Nat) : Fld := ⟨SAG_QUEUES n, 0, 16⟩
def SAG_METERS (n : Nat) : Nat := 0x1000028 + n * 0x800
def SAG_METERS_COUNT (n : Nat) : Fld := ⟨SAG_METERS n, 16, 14⟩
def SAG_METERS_BASE (n : Nat) : Fld := ⟨SAG_METERS n, 0, 16⟩
def SAG_KC_BASE (n : Nat) : Nat := 0x100002c + n * 0x800
def SAG_KC_BASE_BASE (n : Nat) : Fld := ⟨SAG_KC_BASE n, 0, 20⟩
def SAG_KC_COUNT (n : Nat) : Nat := 0x1000030 + n * 0x800
def SAG_KC_COUNT_COUNT (n : Nat) : Fld := ⟨SAG_KC_COUNT n, 0, 17⟩
def SAG_HBM_BASE (n : Nat) : Nat := 0x1000034 + n * 0x800
def SAG_HBM_BASE_BASE (n : Nat) : Fld := ⟨SAG_HBM_BASE n, 0, 16⟩
def SAG_HBM_PAGES (n : Nat) : Nat := 0x1000038 + n * 0x800
def SAG_HBM_PAGES_PAGES (n : Nat) : Fld := ⟨SAG_HBM_PAGES n, 0, 16⟩
def SAG_THREADS (n : Nat) : Nat := 0x100003c + n * 0x800
def SAG_THREADS_COUNT (n : Nat) : Fld := ⟨SAG_THREADS n, 16, 9⟩
def SAG_THREADS_BASE (n : Nat) : Fld := ⟨SAG_THREADS n, 0, 10⟩
def SAG_TBL (n : Nat) : Nat := 0x1000040 + n * 0x800
def SAG_TBL_QUOTA (n : Nat) : Fld := ⟨SAG_TBL n, 0, 17⟩
def SAG_TBL_USED (n : Nat) : Nat := 0x1000044 + n * 0x800
def SAG_TBL_USED_USED (n : Nat) : Fld := ⟨SAG_TBL_USED n, 0, 17⟩
def SAG_CH (n : Nat) : Nat := 0x1000048 + n * 0x800
def SAG_CH_CH_USED (n : Nat) : Fld := ⟨SAG_CH n, 16, 11⟩
def SAG_CH_CH_MAX (n : Nat) : Fld := ⟨SAG_CH n, 0, 11⟩
def SAG_DMA_RL (n : Nat) : Nat := 0x1000050 + n * 0x800
def SAG_DMA_RL_EN (n : Nat) : Fld := ⟨SAG_DMA_RL n, 31, 1⟩
def SAG_DMA_RL_RATE (n : Nat) : Fld := ⟨SAG_DMA_RL n, 0, 20⟩
def SAG_DMA_BURST (n : Nat) : Nat := 0x1000054 + n * 0x800
def SAG_DMA_BURST_BURST (n : Nat) : Fld := ⟨SAG_DMA_BURST n, 0, 32⟩
def SAG_GLZ_RL (n : Nat) : Nat := 0x1000058 + n * 0x800
def SAG_GLZ_RL_EN (n : Nat) : Fld := ⟨SAG_GLZ_RL n, 31, 1⟩
def SAG_GLZ_RL_RATE (n : Nat) : Fld := ⟨SAG_GLZ_RL n, 0, 20⟩
def SAG_GLZ_BURST (n : Nat) : Nat := 0x100005c + n * 0x800
def SAG_GLZ_BURST_BURST (n : Nat) : Fld := ⟨SAG_GLZ_BURST n, 0, 32⟩
def SAG_PKE_RL (n : Nat) : Nat := 0x1000060 + n * 0x800
def SAG_PKE_RL_EN (n : Nat) : Fld := ⟨SAG_PKE_RL n, 31, 1⟩
def SAG_PKE_RL_RATE (n : Nat) : Fld := ⟨SAG_PKE_RL n, 0, 20⟩
def SAG_PKE_BURST (n : Nat) : Nat := 0x1000064 + n * 0x800
def SAG_PKE_BURST_BURST (n : Nat) : Fld := ⟨SAG_PKE_BURST n, 0, 32⟩
def SAG_MBX_CFG (n : Nat) : Nat := 0x1000070 + n * 0x800
def SAG_MBX_CFG_EN (n : Nat) : Fld := ⟨SAG_MBX_CFG n, 31, 1⟩
def SAG_MBX_CFG_CHANNEL (n : Nat) : Fld := ⟨SAG_MBX_CFG n, 16, 12⟩
def SAG_MBX_CFG_VECTOR (n : Nat) : Fld := ⟨SAG_MBX_CFG n, 0, 11⟩
def SAG_MBX_ADDR_LO (n : Nat) : Nat := 0x1000074 + n * 0x800
def SAG_MBX_ADDR_LO_ADDR (n : Nat) : Fld := ⟨SAG_MBX_ADDR_LO n, 0, 32⟩
def SAG_MBX_ADDR_HI (n : Nat) : Nat := 0x1000078 + n * 0x800
def SAG_MBX_ADDR_HI_ADDR (n : Nat) : Fld := ⟨SAG_MBX_ADDR_HI n, 0, 32⟩
def SAG_MBX_M2T_TAIL (n : Nat) : Nat := 0x100007c + n * 0x800
def SAG_MBX_M2T_TAIL_TAIL (n : Nat) : Fld := ⟨SAG_MBX_M2T_TAIL n, 0, 16⟩
def SAG_MBX_T2M_HEAD (n : Nat) : Nat := 0x1000080 + n * 0x800
def SAG_MBX_T2M_HEAD_HEAD (n : Nat) : Fld := ⟨SAG_MBX_T2M_HEAD n, 0, 16⟩
def SAG_MBX_STATUS (n : Nat) : Nat := 0x1000084 + n * 0x800
def SAG_MBX_STATUS_M2T_DONE (n : Nat) : Fld := ⟨SAG_MBX_STATUS n, 16, 16⟩
def SAG_MBX_STATUS_T2M_POSTED (n : Nat) : Fld := ⟨SAG_MBX_STATUS n, 0, 16⟩
def SAG_IMG_ADDR_LO (n : Nat) : Nat := 0x1000090 + n * 0x800
def SAG_IMG_ADDR_LO_ADDR (n : Nat) : Fld := ⟨SAG_IMG_ADDR_LO n, 0, 32⟩
def SAG_IMG_ADDR_HI (n : Nat) : Nat := 0x1000094 + n * 0x800
def SAG_IMG_ADDR_HI_ADDR (n : Nat) : Fld := ⟨SAG_IMG_ADDR_HI n, 0, 32⟩
def SAG_IMG_CFG (n : Nat) : Nat := 0x1000098 + n * 0x800
def SAG_IMG_CFG_CHANNEL (n : Nat) : Fld := ⟨SAG_IMG_CFG n, 16, 12⟩
def SAG_IMG_KWK (n : Nat) : Nat := 0x100009c + n * 0x800
def SAG_IMG_KWK_INDEX (n : Nat) : Fld := ⟨SAG_IMG_KWK n, 0, 20⟩
def SAG_IMG_LEN (n : Nat) : Nat := 0x10000a0 + n * 0x800
def SAG_IMG_LEN_BYTES (n : Nat) : Fld := ⟨SAG_IMG_LEN n, 0, 25⟩
def SAG_DIRTY_ADDR_LO (n : Nat) : Nat := 0x10000a8 + n * 0x800
def SAG_DIRTY_ADDR_LO_ADDR (n : Nat) : Fld := ⟨SAG_DIRTY_ADDR_LO n, 0, 32⟩
def SAG_DIRTY_ADDR_HI (n : Nat) : Nat := 0x10000ac + n * 0x800
def SAG_DIRTY_ADDR_HI_ADDR (n : Nat) : Fld := ⟨SAG_DIRTY_ADDR_HI n, 0, 32⟩
def BOOT_STATUS : Nat := 0x30000
def BOOT_STATUS_GATE_OPEN : Fld := ⟨BOOT_STATUS, 31, 1⟩
def BOOT_STATUS_VERIFIED : Fld := ⟨BOOT_STATUS, 30, 1⟩
def BOOT_STATUS_FAILED : Fld := ⟨BOOT_STATUS, 29, 1⟩
def BOOT_STATUS_IMAGE : Fld := ⟨BOOT_STATUS, 27, 2⟩
def BOOT_STATUS_STAGE : Fld := ⟨BOOT_STATUS, 24, 3⟩
def BOOT_STATUS_FIRST_FAIL : Fld := ⟨BOOT_STATUS, 16, 8⟩
def BOOT_STATUS_PROFILE : Fld := ⟨BOOT_STATUS, 14, 2⟩
def BOOT_STATUS_PROFILE_ROM : Fld := ⟨BOOT_STATUS, 13, 1⟩
def BOOT_STATUS_SVN : Fld := ⟨BOOT_STATUS, 0, 8⟩
def BOOT_FUSE_STATUS : Nat := 0x30004
def BOOT_FUSE_STATUS_SLOT_PROG : Fld := ⟨BOOT_FUSE_STATUS, 28, 4⟩
def BOOT_FUSE_STATUS_SLOT_REVOKED : Fld := ⟨BOOT_FUSE_STATUS, 24, 4⟩
def BOOT_FUSE_STATUS_MFG_LOCK : Fld := ⟨BOOT_FUSE_STATUS, 23, 1⟩
def BOOT_FUSE_STATUS_RUN_SLOT : Fld := ⟨BOOT_FUSE_STATUS, 16, 2⟩
def BOOT_FUSE_STATUS_ROLLBACK : Fld := ⟨BOOT_FUSE_STATUS, 0, 8⟩
def BOOT_KEY_DIGEST (i j : Nat) : Nat := 0x30010 + i * 0x30 + j * 0x4
def BOOT_KEY_DIGEST_DIGEST (i j : Nat) : Fld := ⟨BOOT_KEY_DIGEST i j, 0, 32⟩
def BOOT_DEVNUM_LO : Nat := 0x300d0
def BOOT_DEVNUM_LO_NUMBER : Fld := ⟨BOOT_DEVNUM_LO, 0, 32⟩
def BOOT_DEVNUM_HI : Nat := 0x300d4
def BOOT_DEVNUM_HI_NUMBER : Fld := ⟨BOOT_DEVNUM_HI, 0, 32⟩
def BOOT_MGMT_VEC_LO : Nat := 0x30100
def BOOT_MGMT_VEC_LO_ADDR : Fld := ⟨BOOT_MGMT_VEC_LO, 0, 32⟩
def BOOT_MGMT_VEC_HI : Nat := 0x30104
def BOOT_MGMT_VEC_HI_ADDR : Fld := ⟨BOOT_MGMT_VEC_HI, 0, 32⟩
def BOOT_QUAD_VEC_LO (i : Nat) : Nat := 0x30110 + i * 0x8
def BOOT_QUAD_VEC_LO_ADDR (i : Nat) : Fld := ⟨BOOT_QUAD_VEC_LO i, 0, 32⟩
def BOOT_QUAD_VEC_HI (i : Nat) : Nat := 0x30114 + i * 0x8
def BOOT_QUAD_VEC_HI_ADDR (i : Nat) : Fld := ⟨BOOT_QUAD_VEC_HI i, 0, 32⟩
def BOOT_QUAD_REL : Nat := 0x30130
def BOOT_QUAD_REL_REL : Fld := ⟨BOOT_QUAD_REL, 0, 4⟩
def BOOT_PROFILE_NEXT : Nat := 0x30140
def BOOT_PROFILE_NEXT_VALID : Fld := ⟨BOOT_PROFILE_NEXT, 31, 1⟩
def BOOT_PROFILE_NEXT_INDEX : Fld := ⟨BOOT_PROFILE_NEXT, 0, 2⟩
def BOOT_FLASH_CMD : Nat := 0x30150
def BOOT_FLASH_CMD_OP : Fld := ⟨BOOT_FLASH_CMD, 28, 4⟩
def BOOT_FLASH_CMD_CHANNEL : Fld := ⟨BOOT_FLASH_CMD, 16, 12⟩
def BOOT_FLASH_CMD_SLOT : Fld := ⟨BOOT_FLASH_CMD, 0, 2⟩
def BOOT_FLASH_ADDR_LO : Nat := 0x30154
def BOOT_FLASH_ADDR_LO_ADDR : Fld := ⟨BOOT_FLASH_ADDR_LO, 0, 32⟩
def BOOT_FLASH_ADDR_HI : Nat := 0x30158
def BOOT_FLASH_ADDR_HI_ADDR : Fld := ⟨BOOT_FLASH_ADDR_HI, 0, 32⟩
def BOOT_FLASH_LEN : Nat := 0x3015c
def BOOT_FLASH_LEN_LEN : Fld := ⟨BOOT_FLASH_LEN, 0, 32⟩
def BOOT_FLASH_STATUS : Nat := 0x30160
def BOOT_FLASH_STATUS_BUSY : Fld := ⟨BOOT_FLASH_STATUS, 31, 1⟩
def BOOT_FLASH_STATUS_DONE : Fld := ⟨BOOT_FLASH_STATUS, 30, 1⟩
def BOOT_FLASH_STATUS_RESULT : Fld := ⟨BOOT_FLASH_STATUS, 0, 8⟩
def RAS_CTRL : Nat := 0x40000
def RAS_CTRL_FUSE_RETIRE : Fld := ⟨RAS_CTRL, 1, 1⟩
def RAS_LOG_CFG : Nat := 0x40004
def RAS_LOG_CFG_EN : Fld := ⟨RAS_LOG_CFG, 31, 1⟩
def RAS_LOG_CFG_CHANNEL : Fld := ⟨RAS_LOG_CFG, 16, 12⟩
def RAS_LOG_CFG_SIZE_LOG2 : Fld := ⟨RAS_LOG_CFG, 0, 5⟩
def RAS_LOG_BASE_LO : Nat := 0x40008
def RAS_LOG_BASE_LO_ADDR : Fld := ⟨RAS_LOG_BASE_LO, 0, 32⟩
def RAS_LOG_BASE_HI : Nat := 0x4000c
def RAS_LOG_BASE_HI_ADDR : Fld := ⟨RAS_LOG_BASE_HI, 0, 32⟩
def RAS_LOG_HEAD : Nat := 0x40010
def RAS_LOG_HEAD_HEAD : Fld := ⟨RAS_LOG_HEAD, 0, 16⟩
def RAS_LOG_TAIL : Nat := 0x40014
def RAS_LOG_TAIL_TAIL : Fld := ⟨RAS_LOG_TAIL, 0, 16⟩
def RAS_IRQ : Nat := 0x40018
def RAS_IRQ_EN : Fld := ⟨RAS_IRQ, 31, 1⟩
def RAS_IRQ_MASK : Fld := ⟨RAS_IRQ, 16, 4⟩
def RAS_IRQ_VECTOR : Fld := ⟨RAS_IRQ, 0, 11⟩
def RAS_STATUS : Nat := 0x40020
def RAS_STATUS_FATAL_PRIOR : Fld := ⟨RAS_STATUS, 4, 1⟩
def RAS_STATUS_UC : Fld := ⟨RAS_STATUS, 2, 1⟩
def RAS_STATUS_DE : Fld := ⟨RAS_STATUS, 1, 1⟩
def RAS_STATUS_CE : Fld := ⟨RAS_STATUS, 0, 1⟩
def RAS_FATAL_REC (i : Nat) : Nat := 0x40030 + i * 0x4
def RAS_FATAL_REC_RECORD (i : Nat) : Fld := ⟨RAS_FATAL_REC i, 0, 32⟩
def RAS_INJ : Nat := 0x40100
def RAS_INJ_ARM : Fld := ⟨RAS_INJ, 31, 1⟩
def RAS_INJ_MODE : Fld := ⟨RAS_INJ, 30, 1⟩
def RAS_INJ_FATAL_OK : Fld := ⟨RAS_INJ, 29, 1⟩
def RAS_INJ_REFUSED : Fld := ⟨RAS_INJ, 28, 1⟩
def RAS_INJ_TYPE : Fld := ⟨RAS_INJ, 24, 4⟩
def RAS_INJ_DETECTOR : Fld := ⟨RAS_INJ, 0, 16⟩
def RAS_INJ_N : Nat := 0x40104
def RAS_INJ_N_N : Fld := ⟨RAS_INJ_N, 0, 24⟩
def RAS_INJ_MATCH : Nat := 0x40108
def RAS_INJ_MATCH_ANY : Fld := ⟨RAS_INJ_MATCH, 31, 1⟩
def RAS_INJ_MATCH_INDEX : Fld := ⟨RAS_INJ_MATCH, 0, 31⟩
def RAS_PE_ROT : Nat := 0x40200
def RAS_PE_ROT_EN : Fld := ⟨RAS_PE_ROT, 31, 1⟩
def RAS_PE_ROT_PERIOD_MS : Fld := ⟨RAS_PE_ROT, 0, 16⟩
def RAS_PE_STATUS (i : Nat) : Nat := 0x40210 + i * 0x4
def RAS_PE_STATUS_RETIRED (i : Nat) : Fld := ⟨RAS_PE_STATUS i, 31, 1⟩
def RAS_PE_STATUS_ENGINE (i : Nat) : Fld := ⟨RAS_PE_STATUS i, 16, 6⟩
def RAS_PE_STATUS_TESTING (i : Nat) : Fld := ⟨RAS_PE_STATUS i, 8, 6⟩
def RAS_GLZ_SKIP (i : Nat) : Nat := 0x40300 + i * 0x4
def RAS_GLZ_SKIP_SKIP (i : Nat) : Fld := ⟨RAS_GLZ_SKIP i, 0, 32⟩
def RAS_GLZ_OUT (i : Nat) : Nat := 0x40320 + i * 0x4
def RAS_GLZ_OUT_OUT (i : Nat) : Fld := ⟨RAS_GLZ_OUT i, 0, 32⟩
def RAS_GLZ_FAIL (i : Nat) : Nat := 0x40340 + i * 0x4
def RAS_GLZ_FAIL_FAIL (i : Nat) : Fld := ⟨RAS_GLZ_FAIL i, 0, 32⟩
def RAS_PKE_SKIP : Nat := 0x40360
def RAS_PKE_SKIP_SKIP : Fld := ⟨RAS_PKE_SKIP, 0, 16⟩
def RAS_PKE_FAIL : Nat := 0x40364
def RAS_PKE_FAIL_FAIL : Fld := ⟨RAS_PKE_FAIL, 0, 16⟩
def RAS_LPM_ROT : Nat := 0x40400
def RAS_LPM_ROT_START : Fld := ⟨RAS_LPM_ROT, 31, 1⟩
def RAS_LPM_ROT_BUSY : Fld := ⟨RAS_LPM_ROT, 30, 1⟩
def RAS_LPM_ROT_FAIL : Fld := ⟨RAS_LPM_ROT, 29, 1⟩
def RAS_LPM_ROT_SPARE : Fld := ⟨RAS_LPM_ROT, 16, 5⟩
def RAS_LPM_ROT_BANK : Fld := ⟨RAS_LPM_ROT, 0, 4⟩
def RAS_LANE_TEST (i : Nat) : Nat := 0x40500 + i * 0x4
def RAS_LANE_TEST_RUN (i : Nat) : Fld := ⟨RAS_LANE_TEST i, 31, 1⟩
def RAS_LANE_TEST_LOCK (i : Nat) : Fld := ⟨RAS_LANE_TEST i, 4, 4⟩
def RAS_LANE_TEST_FAIL (i : Nat) : Fld := ⟨RAS_LANE_TEST i, 0, 4⟩
def RAS_HBM_CMD : Nat := 0x40700
def RAS_HBM_CMD_OP : Fld := ⟨RAS_HBM_CMD, 28, 4⟩
def RAS_HBM_CMD_PC : Fld := ⟨RAS_HBM_CMD, 16, 7⟩
def RAS_HBM_ROW : Nat := 0x40704
def RAS_HBM_ROW_BANK : Fld := ⟨RAS_HBM_ROW, 16, 4⟩
def RAS_HBM_ROW_ROW : Fld := ⟨RAS_HBM_ROW, 0, 16⟩
def RAS_HBM_STATUS : Nat := 0x40708
def RAS_HBM_STATUS_BUSY : Fld := ⟨RAS_HBM_STATUS, 31, 1⟩
def RAS_HBM_STATUS_DONE : Fld := ⟨RAS_HBM_STATUS, 30, 1⟩
def RAS_HBM_STATUS_RESULT : Fld := ⟨RAS_HBM_STATUS, 0, 8⟩
def RAS_HBM_CFG : Nat := 0x4070c
def RAS_HBM_CFG_ROW_CE : Fld := ⟨RAS_HBM_CFG, 0, 8⟩
def RAS_HBM_RETIRED (i : Nat) : Nat := 0x40710 + i * 0x4
def RAS_HBM_RETIRED_PC (i : Nat) : Fld := ⟨RAS_HBM_RETIRED i, 0, 32⟩
def RAS_KILN_FIRING (i : Nat) : Nat := 0x41000 + i * 0x8
def RAS_KILN_FIRING_BUMP_PENDING (i : Nat) : Fld := ⟨RAS_KILN_FIRING i, 31, 1⟩
def RAS_KILN_FIRING_FIRING (i : Nat) : Fld := ⟨RAS_KILN_FIRING i, 0, 24⟩
def RAS_KILN_MAP (i : Nat) : Nat := 0x41100 + i * 0x4
def RAS_KILN_MAP_VALID (i : Nat) : Fld := ⟨RAS_KILN_MAP i, 31, 1⟩
def RAS_KILN_MAP_PHYS (i : Nat) : Fld := ⟨RAS_KILN_MAP i, 0, 6⟩
def RAS_SPARE_CMD : Nat := 0x41200
def RAS_SPARE_CMD_OP : Fld := ⟨RAS_SPARE_CMD, 28, 4⟩
def RAS_SPARE_CMD_TARGET : Fld := ⟨RAS_SPARE_CMD, 0, 6⟩
def RAS_SPARE_STATUS : Nat := 0x41204
def RAS_SPARE_STATUS_BUSY : Fld := ⟨RAS_SPARE_STATUS, 31, 1⟩
def RAS_SPARE_STATUS_DONE : Fld := ⟨RAS_SPARE_STATUS, 30, 1⟩
def RAS_SPARE_STATUS_RESULT : Fld := ⟨RAS_SPARE_STATUS, 0, 8⟩
def RAS_KILN_TIMEOUT : Nat := 0x41208
def RAS_KILN_TIMEOUT_US : Fld := ⟨RAS_KILN_TIMEOUT, 0, 16⟩
def RAS_KILN_RETIRED_LO : Nat := 0x41210
def RAS_KILN_RETIRED_LO_PHYS : Fld := ⟨RAS_KILN_RETIRED_LO, 0, 32⟩
def RAS_KILN_RETIRED_HI : Nat := 0x41214
def RAS_KILN_RETIRED_HI_PHYS : Fld := ⟨RAS_KILN_RETIRED_HI, 0, 4⟩
def RAS_CONE_CFG : Nat := 0x43000
def RAS_CONE_CFG_TEMP_WARN : Fld := ⟨RAS_CONE_CFG, 0, 16⟩
def RAS_CONE_HOT : Nat := 0x43004
def RAS_CONE_HOT_VALID : Fld := ⟨RAS_CONE_HOT, 31, 1⟩
def RAS_CONE_HOT_CONE : Fld := ⟨RAS_CONE_HOT, 16, 6⟩
def RAS_CONE_HOT_TEMP : Fld := ⟨RAS_CONE_HOT, 0, 16⟩
def RAS_CONE_MARGIN : Nat := 0x43008
def RAS_CONE_MARGIN_VALID : Fld := ⟨RAS_CONE_MARGIN, 31, 1⟩
def RAS_CONE_MARGIN_CONE : Fld := ⟨RAS_CONE_MARGIN, 16, 6⟩
def RAS_CONE_MARGIN_MARGIN : Fld := ⟨RAS_CONE_MARGIN, 0, 10⟩
def RAS_CONE_EVENT : Nat := 0x4300c
def RAS_CONE_EVENT_WEAR_LIMIT : Fld := ⟨RAS_CONE_EVENT, 2, 1⟩
def RAS_CONE_EVENT_WEAR_WARN : Fld := ⟨RAS_CONE_EVENT, 1, 1⟩
def RAS_CONE_EVENT_TEMP_WARN : Fld := ⟨RAS_CONE_EVENT, 0, 1⟩
def RAS_CONE_AVG (i : Nat) : Nat := 0x43010 + i * 0x4
def RAS_CONE_AVG_HOURS (i : Nat) : Fld := ⟨RAS_CONE_AVG i, 16, 16⟩
def RAS_CONE_AVG_TEMP (i : Nat) : Fld := ⟨RAS_CONE_AVG i, 0, 16⟩
def RAS_CONE_TEMP (i : Nat) : Nat := 0x43100 + i * 0x4
def RAS_CONE_TEMP_VALID (i : Nat) : Fld := ⟨RAS_CONE_TEMP i, 31, 1⟩
def RAS_CONE_TEMP_TEMP (i : Nat) : Fld := ⟨RAS_CONE_TEMP i, 0, 16⟩
def RAS_CONE_WEAR (i : Nat) : Nat := 0x43200 + i * 0x4
def RAS_CONE_WEAR_VALID (i : Nat) : Fld := ⟨RAS_CONE_WEAR i, 31, 1⟩
def RAS_CONE_WEAR_MARGIN (i : Nat) : Fld := ⟨RAS_CONE_WEAR i, 16, 10⟩
def RAS_CONE_WEAR_SHIFT (i : Nat) : Fld := ⟨RAS_CONE_WEAR i, 0, 13⟩
def KLN_STATE (n : Nat) : Nat := 0x800000 + n * 0x10000
def KLN_STATE_ROLE (n : Nat) : Fld := ⟨KLN_STATE n, 29, 3⟩
def KLN_STATE_LOGICAL (n : Nat) : Fld := ⟨KLN_STATE n, 16, 5⟩
def KLN_TEST_RESULT (n : Nat) : Nat := 0x800004 + n * 0x10000
def KLN_TEST_RESULT_VALID (n : Nat) : Fld := ⟨KLN_TEST_RESULT n, 31, 1⟩
def KLN_TEST_RESULT_PASS (n : Nat) : Fld := ⟨KLN_TEST_RESULT n, 30, 1⟩
def KLN_TEST_RESULT_FAILS (n : Nat) : Fld := ⟨KLN_TEST_RESULT n, 0, 24⟩
def PL_IMEM (n i : Nat) : Nat := 0x210000 + n * 0x20000 + i * 0x4
def PL_IMEM_WORD (n i : Nat) : Fld := ⟨PL_IMEM n i, 0, 32⟩
def BUF_IND_DATA (i : Nat) : Nat := 0x400080 + i * 0x4
def BUF_IND_DATA_DATA (i : Nat) : Fld := ⟨BUF_IND_DATA i, 0, 32⟩
def TM_IND_DATA (i : Nat) : Nat := 0x500080 + i * 0x4
def TM_IND_DATA_DATA (i : Nat) : Fld := ⟨TM_IND_DATA i, 0, 32⟩
def GLZ_IND_DATA (i : Nat) : Nat := 0xc000c0 + i * 0x4
def GLZ_IND_DATA_DATA (i : Nat) : Fld := ⟨GLZ_IND_DATA i, 0, 32⟩
def STO_IND_DATA (i : Nat) : Nat := 0x4000080 + i * 0x4
def STO_IND_DATA_DATA (i : Nat) : Fld := ⟨STO_IND_DATA i, 0, 32⟩
def GATE_LIST_INTERVAL (i j : Nat) : Nat := 0x600000 + i * 0x4000 + j * 0x8
def GATE_LIST_INTERVAL_INTERVAL (i j : Nat) : Fld := ⟨GATE_LIST_INTERVAL i j, 0, 32⟩
def GATE_LIST_GATES (i j : Nat) : Nat := 0x600004 + i * 0x4000 + j * 0x8
def GATE_LIST_GATES_GATES (i j : Nat) : Fld := ⟨GATE_LIST_GATES i j, 0, 8⟩
def SGATE_LIST_INTERVAL (i j : Nat) : Nat := 0x700000 + i * 0x400 + j * 0x8
def SGATE_LIST_INTERVAL_INTERVAL (i j : Nat) : Fld := ⟨SGATE_LIST_INTERVAL i j, 0, 32⟩
def SGATE_LIST_GATES (i j : Nat) : Nat := 0x700004 + i * 0x400 + j * 0x8
def SGATE_LIST_GATES_GATES (i j : Nat) : Fld := ⟨SGATE_LIST_GATES i j, 0, 8⟩
def ETH_CNT_RX_FRAMES (n i : Nat) : Ctr := ⟨0x101100 + n * 0x10000 + i * 0x1000, true⟩
def ETH_CNT_RX_BYTES (n i : Nat) : Ctr := ⟨0x101108 + n * 0x10000 + i * 0x1000, true⟩
def ETH_CNT_RX_RUNT (n i : Nat) : Ctr := ⟨0x101110 + n * 0x10000 + i * 0x1000, true⟩
def ETH_CNT_RX_OVERSIZE_DROP (n i : Nat) : Ctr := ⟨0x101118 + n * 0x10000 + i * 0x1000, true⟩
def ETH_CNT_OVERSIZE_STOMP (n i : Nat) : Ctr := ⟨0x101120 + n * 0x10000 + i * 0x1000, true⟩
def ETH_CNT_RX_CODE_ERR (n i : Nat) : Ctr := ⟨0x101128 + n * 0x10000 + i * 0x1000, true⟩
def ETH_CNT_RX_STOMP_IN (n i : Nat) : Ctr := ⟨0x101130 + n * 0x10000 + i * 0x1000, true⟩
def ETH_CNT_RX_FCS_ERR (n i : Nat) : Ctr := ⟨0x101138 + n * 0x10000 + i * 0x1000, true⟩
def ETH_CNT_RX_MAC_CTRL (n i : Nat) : Ctr := ⟨0x101140 + n * 0x10000 + i * 0x1000, true⟩
def ETH_CNT_TX_FRAMES (n i : Nat) : Ctr := ⟨0x101148 + n * 0x10000 + i * 0x1000, true⟩
def ETH_CNT_TX_BYTES (n i : Nat) : Ctr := ⟨0x101150 + n * 0x10000 + i * 0x1000, true⟩
def ETH_CNT_TX_STOMPED (n i : Nat) : Ctr := ⟨0x101158 + n * 0x10000 + i * 0x1000, true⟩
def ETH_CNT_TX_OVERSIZE_DROP (n i : Nat) : Ctr := ⟨0x101160 + n * 0x10000 + i * 0x1000, true⟩
def ETH_CNT_TX_AGED (n i : Nat) : Ctr := ⟨0x101168 + n * 0x10000 + i * 0x1000, true⟩
def ETH_CNT_TX_LINK_ABORT (n i : Nat) : Ctr := ⟨0x101170 + n * 0x10000 + i * 0x1000, true⟩
def ETH_CNT_LINK_FLUSH_FRAMES (n i : Nat) : Ctr := ⟨0x101178 + n * 0x10000 + i * 0x1000, true⟩
def ETH_CNT_LINK_DOWN_DROP (n i : Nat) : Ctr := ⟨0x101180 + n * 0x10000 + i * 0x1000, true⟩
def ETH_CNT_FEC_CORR_CW (n i : Nat) : Ctr := ⟨0x101188 + n * 0x10000 + i * 0x1000, true⟩
def ETH_CNT_FEC_UNCORR_CW (n i : Nat) : Ctr := ⟨0x101190 + n * 0x10000 + i * 0x1000, true⟩
def PL_CNT_PARSED (n : Nat) : Ctr := ⟨0x200100 + n * 0x20000, true⟩
def PL_CNT_MALF_TOTAL (n : Nat) : Ctr := ⟨0x200108 + n * 0x20000, true⟩
def PL_CNT_MALF_BUDGET (n : Nat) : Ctr := ⟨0x200110 + n * 0x20000, true⟩
def PL_CNT_MALF_OVER_END (n : Nat) : Ctr := ⟨0x200118 + n * 0x20000, true⟩
def PL_CNT_MALF_REJECT (n : Nat) : Ctr := ⟨0x200120 + n * 0x20000, true⟩
def PL_CNT_MALF_WINDOW (n : Nat) : Ctr := ⟨0x200128 + n * 0x20000, true⟩
def PL_CNT_MALF_ILLEGAL (n : Nat) : Ctr := ⟨0x200130 + n * 0x20000, true⟩
def PL_CNT_MALF_IMEM (n : Nat) : Ctr := ⟨0x200138 + n * 0x20000, true⟩
def PL_CNT_MALF_DROP (n : Nat) : Ctr := ⟨0x200140 + n * 0x20000, true⟩
def PL_CNT_PARSE_OVF_DROP (n : Nat) : Ctr := ⟨0x200148 + n * 0x20000, true⟩
def PL_CNT_PARSE_OFF_DROP (n : Nat) : Ctr := ⟨0x200150 + n * 0x20000, true⟩
def PL_CNT_INSTR_TOTAL (n : Nat) : Ctr := ⟨0x200158 + n * 0x20000, true⟩
def PL_CNT_STALL_TOTAL (n : Nat) : Ctr := ⟨0x200160 + n * 0x20000, true⟩
def PL_CNT_CLS_QUEUED (n : Nat) : Ctr := ⟨0x200800 + n * 0x20000, true⟩
def PL_CNT_CLS_NOMATCH (n : Nat) : Ctr := ⟨0x200808 + n * 0x20000, true⟩
def PL_CNT_CLS_OFF_DROP (n : Nat) : Ctr := ⟨0x200810 + n * 0x20000, true⟩
def PL_CNT_RULE_HIT (n : Nat) : Ctr := ⟨0x200818 + n * 0x20000, true⟩
def PL_CNT_EM_HIT (n : Nat) : Ctr := ⟨0x200820 + n * 0x20000, true⟩
def PL_CNT_LPM_HIT (n : Nat) : Ctr := ⟨0x200828 + n * 0x20000, true⟩
def PL_CNT_PUNT_IN (n : Nat) : Ctr := ⟨0x200830 + n * 0x20000, true⟩
def PL_CNT_PUNT_RATE_DROP (n : Nat) : Ctr := ⟨0x200838 + n * 0x20000, true⟩
def PL_CNT_PUNT_FULL_DROP (n : Nat) : Ctr := ⟨0x200840 + n * 0x20000, true⟩
def PL_CNT_LEARN_REQ (n : Nat) : Ctr := ⟨0x200848 + n * 0x20000, true⟩
def PL_CNT_LEARN_REQ_OVF (n : Nat) : Ctr := ⟨0x200850 + n * 0x20000, true⟩
def PL_CNT_PAR_MISS (n : Nat) : Ctr := ⟨0x200858 + n * 0x20000, true⟩
def TBL_CNT_LEARN_NEW : Ctr := ⟨0x300800, true⟩
def TBL_CNT_LEARN_MOVE : Ctr := ⟨0x300808, true⟩
def TBL_CNT_LEARN_RACE : Ctr := ⟨0x300810, true⟩
def TBL_CNT_LEARN_DUP : Ctr := ⟨0x300818, true⟩
def TBL_CNT_LEARN_FULL : Ctr := ⟨0x300820, true⟩
def TBL_CNT_LEARN_QUOTA : Ctr := ⟨0x300828, true⟩
def TBL_CNT_LEARN_STATIC : Ctr := ⟨0x300830, true⟩
def TBL_CNT_LEVT_DROP : Ctr := ⟨0x300838, true⟩
def TBL_CNT_CMD_DONE : Ctr := ⟨0x300840, true⟩
def TBL_CNT_CMD_FAIL : Ctr := ⟨0x300848, true⟩
def TBL_CNT_PAR_RULE : Ctr := ⟨0x300850, true⟩
def TBL_CNT_PAR_EM : Ctr := ⟨0x300858, true⟩
def TBL_CNT_PAR_LPM : Ctr := ⟨0x300860, true⟩
def TBL_CNT_SCRUB_PASS : Ctr := ⟨0x300868, true⟩
def BUF_CNT_ADMIT_GREEN : Ctr := ⟨0x400800, true⟩
def BUF_CNT_ADMIT_YELLOW : Ctr := ⟨0x400808, true⟩
def BUF_CNT_ADMIT_RED : Ctr := ⟨0x400810, true⟩
def BUF_CNT_LIMIT_DROP_GREEN : Ctr := ⟨0x400818, true⟩
def BUF_CNT_LIMIT_DROP_YELLOW : Ctr := ⟨0x400820, true⟩
def BUF_CNT_LIMIT_DROP_RED : Ctr := ⟨0x400828, true⟩
def BUF_CNT_POOL_DROP : Ctr := ⟨0x400830, true⟩
def BUF_CNT_SPILLED : Ctr := ⟨0x400838, true⟩
def BUF_CNT_FETCHED : Ctr := ⟨0x400840, true⟩
def BUF_CNT_SPILL_RED_DROP : Ctr := ⟨0x400848, true⟩
def BUF_CNT_SPILL_LIMIT_DROP : Ctr := ⟨0x400850, true⟩
def BUF_CNT_SPILL_BW_DROP : Ctr := ⟨0x400858, true⟩
def BUF_CNT_SPILL_UNCORR_DROP : Ctr := ⟨0x400860, true⟩
def BUF_CNT_BUF_UNCORR : Ctr := ⟨0x400868, true⟩
def BUF_CNT_BUF_OFF_DROP : Ctr := ⟨0x400870, true⟩
def BUF_CNT_CHARGE_REFUND : Ctr := ⟨0x400878, true⟩
def TM_CNT_DEQ_FRAMES : Ctr := ⟨0x500800, true⟩
def TM_CNT_DEQ_BYTES : Ctr := ⟨0x500808, true⟩
def TM_CNT_GUARD_HOLDS : Ctr := ⟨0x500810, true⟩
def TM_CNT_CLASS_MISMATCH : Ctr := ⟨0x500818, true⟩
def TM_CNT_SF_UNKNOWN : Ctr := ⟨0x500820, true⟩
def TM_CNT_GATE_SWAPS : Ctr := ⟨0x500828, true⟩
def TM_CNT_GATE_CFG_VIOL : Ctr := ⟨0x500830, true⟩
def TIME_CNT_PTP_RX : Ctr := ⟨0x50800, true⟩
def TIME_CNT_PTP_TX : Ctr := ⟨0x50808, true⟩
def GLZ_CNT_JOBS_OK : Ctr := ⟨0xc00800, true⟩
def GLZ_CNT_JOBS_FAIL : Ctr := ⟨0xc00808, true⟩
def GLZ_CNT_AUTH_FAIL : Ctr := ⟨0xc00810, true⟩
def GLZ_CNT_KEY_EXHAUSTED : Ctr := ⟨0xc00818, true⟩
def GLZ_CNT_JOB_TIMEOUT : Ctr := ⟨0xc00820, true⟩
def GLZ_CNT_KC_MISS : Ctr := ⟨0xc00828, true⟩
def GLZ_CNT_KC_UNCORR : Ctr := ⟨0xc00830, true⟩
def GLZ_CNT_INL_OK : Ctr := ⟨0xc00838, true⟩
def GLZ_CNT_INL_ICV_FAIL : Ctr := ⟨0xc00840, true⟩
def GLZ_CNT_INL_REPLAY : Ctr := ⟨0xc00848, true⟩
def GLZ_CNT_INL_FORMAT : Ctr := ⟨0xc00850, true⟩
def GLZ_CNT_INL_BAD_ENTRY : Ctr := ⟨0xc00858, true⟩
def GLZ_CNT_INL_EXHAUSTED : Ctr := ⟨0xc00860, true⟩
def GLZ_CNT_INL_QUEUE_DROP : Ctr := ⟨0xc00868, true⟩
def PKE_CNT_JOBS_OK : Ctr := ⟨0xd00800, true⟩
def PKE_CNT_JOBS_FAIL : Ctr := ⟨0xd00808, true⟩
def PKE_CNT_VERIFY_FAIL : Ctr := ⟨0xd00810, true⟩
def PKE_CNT_INPUT_REJECT : Ctr := ⟨0xd00818, true⟩
def PKE_CNT_ZERO_SHARED : Ctr := ⟨0xd00820, true⟩
def PKE_CNT_NO_CANDIDATE : Ctr := ⟨0xd00828, true⟩
def PKE_CNT_TIMEOUT : Ctr := ⟨0xd00830, true⟩
def PKE_CNT_UNIT_ERROR : Ctr := ⟨0xd00838, true⟩
def HIF_CNT_DROPPED_WRITES (n i : Nat) : Ctr := ⟨0xe01080 + n * 0x80000 + i * 0x100, true⟩
def HIF_CNT_ABORTED_READS (n i : Nat) : Ctr := ⟨0xe01088 + n * 0x80000 + i * 0x100, true⟩
def HIF_CNT_UR_SENT (n i : Nat) : Ctr := ⟨0xe01090 + n * 0x80000 + i * 0x100, true⟩
def HIF_CNT_CORR_ERR (n i : Nat) : Ctr := ⟨0xe01098 + n * 0x80000 + i * 0x100, true⟩
def HIF_CNT_UNCORR_ERR (n i : Nat) : Ctr := ⟨0xe010a0 + n * 0x80000 + i * 0x100, true⟩
def HIF_CNT_FREEZES (n i : Nat) : Ctr := ⟨0xe010a8 + n * 0x80000 + i * 0x100, true⟩
def HIF_CNT_REWOUND_WRITES (n i : Nat) : Ctr := ⟨0xe010b0 + n * 0x80000 + i * 0x100, true⟩
def HIF_CNT_REG_BAD_ACCESS (n i : Nat) : Ctr := ⟨0xe010b8 + n * 0x80000 + i * 0x100, true⟩
def DMA_CNT_DESC_DONE (n : Nat) : Ctr := ⟨0xf00800 + n * 0x10000, true⟩
def DMA_CNT_BYTES_READ (n : Nat) : Ctr := ⟨0xf00808 + n * 0x10000, true⟩
def DMA_CNT_BYTES_WRITTEN (n : Nat) : Ctr := ⟨0xf00810 + n * 0x10000, true⟩
def DMA_CNT_TX_FRAMES (n : Nat) : Ctr := ⟨0xf00818 + n * 0x10000, true⟩
def DMA_CNT_TX_REFUSED (n : Nat) : Ctr := ⟨0xf00820 + n * 0x10000, true⟩
def DMA_CNT_RX_FRAMES (n : Nat) : Ctr := ⟨0xf00828 + n * 0x10000, true⟩
def DMA_CNT_RX_TRUNC (n : Nat) : Ctr := ⟨0xf00830 + n * 0x10000, true⟩
def DMA_CNT_ADDR_DENIED (n : Nat) : Ctr := ⟨0xf00838 + n * 0x10000, true⟩
def DMA_CNT_BAD_DESC (n : Nat) : Ctr := ⟨0xf00840 + n * 0x10000, true⟩
def DMA_CNT_STOPS (n : Nat) : Ctr := ⟨0xf00848 + n * 0x10000, true⟩
def DMA_CNT_STOP_DISCARD (n : Nat) : Ctr := ⟨0xf00850 + n * 0x10000, true⟩
def DMA_CNT_IRQ_SENT (n : Nat) : Ctr := ⟨0xf00858 + n * 0x10000, true⟩
def SAG_CNT_MBX_T2M (n : Nat) : Ctr := ⟨0x1000100 + n * 0x800, true⟩
def SAG_CNT_MBX_M2T (n : Nat) : Ctr := ⟨0x1000108 + n * 0x800, true⟩
def SAG_CNT_MBX_BAD (n : Nat) : Ctr := ⟨0x1000110 + n * 0x800, true⟩
def SAG_CNT_MBX_DROPPED (n : Nat) : Ctr := ⟨0x1000118 + n * 0x800, true⟩
def SAG_CNT_DMA_COST (n : Nat) : Ctr := ⟨0x1000120 + n * 0x800, true⟩
def SAG_CNT_GLZ_COST (n : Nat) : Ctr := ⟨0x1000128 + n * 0x800, true⟩
def SAG_CNT_PKE_COST (n : Nat) : Ctr := ⟨0x1000130 + n * 0x800, true⟩
def SAG_CNT_RL_HOLDS (n : Nat) : Ctr := ⟨0x1000138 + n * 0x800, true⟩
def SAG_CNT_CMD_IGNORED (n : Nat) : Ctr := ⟨0x1000140 + n * 0x800, true⟩
def STO_CNT_CMDS_DONE : Ctr := ⟨0x4000800, true⟩
def STO_CNT_CMDS_ERR : Ctr := ⟨0x4000808, true⟩
def STO_CNT_ABORT_CAUGHT : Ctr := ⟨0x4000810, true⟩
def STO_CNT_ABORT_MISSED : Ctr := ⟨0x4000818, true⟩
def STO_CNT_DEFERRED_ERRORS : Ctr := ⟨0x4000820, true⟩
def STO_CNT_TIMEOUT_ABANDON : Ctr := ⟨0x4000828, true⟩
def STO_CNT_SHERDS : Ctr := ⟨0x4000830, true⟩
def STO_CNT_SEALS : Ctr := ⟨0x4000838, true⟩
def STO_CNT_JOURNAL_FAULTS : Ctr := ⟨0x4000840, true⟩
def STO_CNT_RESUMES : Ctr := ⟨0x4000848, true⟩
def CLK_CNT_XING_DROP : Ctr := ⟨0x10800, true⟩
def CLK_CNT_RX_CLK_SWITCH : Ctr := ⟨0x10808, true⟩
def CLK_CNT_PLL_LOSS : Ctr := ⟨0x10810, true⟩
def RAS_CNT_CE : Ctr := ⟨0x40800, true⟩
def RAS_CNT_DE : Ctr := ⟨0x40808, true⟩
def RAS_CNT_UC : Ctr := ⟨0x40810, true⟩
def RAS_CNT_LOG_DROP : Ctr := ⟨0x40818, true⟩
def RAS_CNT_INJ_FIRED : Ctr := ⟨0x40820, true⟩
def RAS_CNT_KILN_REPLACED : Ctr := ⟨0x40828, true⟩
def RAS_CNT_KILN_DEAD : Ctr := ⟨0x40830, true⟩
def RAS_CNT_SPARE_CMD_IGNORED : Ctr := ⟨0x40838, true⟩
def RAS_CNT_LPM_ROTATIONS : Ctr := ⟨0x40840, true⟩
def RAS_CNT_HBM_ROWS_SPARED : Ctr := ⟨0x40848, true⟩
def RAS_CNT_LPM_ROT_IGNORED : Ctr := ⟨0x40850, true⟩
def DMA_CH_CNT_DESC_DONE (n i : Nat) : Ctr := ⟨0xf08048 + n * 0x10000 + i * 0x80, true⟩
def DMA_CH_CNT_BYTES (n i : Nat) : Ctr := ⟨0xf08050 + n * 0x10000 + i * 0x80, true⟩
def DMA_CH_CNT_DB_STALE (n i : Nat) : Ctr := ⟨0xf08058 + n * 0x10000 + i * 0x80, false⟩
def DMA_CH_CNT_DB_BAD (n i : Nat) : Ctr := ⟨0xf0805c + n * 0x10000 + i * 0x80, false⟩
def DMA_CH_CNT_OWN_STALLS (n i : Nat) : Ctr := ⟨0xf08060 + n * 0x10000 + i * 0x80, false⟩
def DMA_CH_LATE_DISCARD (n i : Nat) : Ctr := ⟨0xf08044 + n * 0x10000 + i * 0x80, false⟩
def SAG_LATE_DISCARD (n : Nat) : Ctr := ⟨0x1000014 + n * 0x800, false⟩
def SAG_FAULTS (n : Nat) : Ctr := ⟨0x1000018 + n * 0x800, false⟩
def RAS_KILN_LATE_DISCARD (i : Nat) : Ctr := ⟨0x41004 + i * 0x8, false⟩
def RAS_LANE_ERRS (i j : Nat) : Ctr := ⟨0x40600 + i * 0x10 + j * 0x4, false⟩
def KLN_FENCE_DISCARD (n : Nat) : Ctr := ⟨0x800010 + n * 0x10000, false⟩
def BOOT_GATE_VIOL : Ctr := ⟨0x30180, false⟩
def GLB_LOCK_VIOL_CNT : Ctr := ⟨0x40, false⟩

end Sys2Proof.Machine
end

