-- ==== Sys2Proof/Machine/RegState.lean ====
section
/-!
DEFINITION. The state of register space: the registers, the CNT counters with their high-half latches (R47), the
set-up locks (R46), the lock-violation reports on their way to GLB (R503), and the notes of the current cycle by
which R48 decides an access that meets a hardware update.
-/

namespace Sys2Proof.Machine

/-- A lock-violation report crossing to GLB (R503). -/
structure ViolReport where
  path : Path
  addr : Nat
  deriving DecidableEq, Repr

/-- Register space. -/
structure RegState where
  /-- The registers; an unlisted address reads its reset value. -/
  regs : Tab W32
  /-- The CNT counters, by the address of their (low) register. -/
  cnt : Tab Nat
  /-- The high-half latches of the 64-bit counters (R47). -/
  latch : Tab Nat
  /-- W1C bits that hardware set in this cycle of their home domain (R48). -/
  justSet : Tab W32
  /-- Increments that counters took in this cycle (R48). -/
  justInc : Tab Nat
  /-- RW bits that software wrote in this cycle (R48). -/
  swWrote : Tab W32
  /-- By the address of a unit's enable control: 0 in set-up state, else 1 + the cycle that locked it (R46). -/
  locks : Tab Nat
  /-- Instruction-memory words written in this cycle, with the value they held before and whether it was in error (R100). -/
  imemOld : Tab (Option (W32 × Bool))
  /-- Lock-violation reports on their way to GLB. -/
  viol : List ViolReport
  /-- The NOC cycle in which GLB took its last report, and that report's path, by which R50 orders the reports of one cycle. -/
  violLast : Option (Nat × Nat)
  /-- The path whose access was served last in this NOC cycle, in the order of R29; 0 where there was none. -/
  turn : Nat
  deriving DecidableEq, Repr

/-- Register space at package cold reset: nothing listed. -/
def RegState.reset : RegState := ⟨[], [], [], [], [], [], [], [], [], none, 0⟩

end Sys2Proof.Machine
end

