-- ==== Sys2Proof/Machine/SagState.lean ====
section
/-!
DEFINITION. The state of a saggar beyond its registers (chapter Saggars: Isolated Instances).
-/

namespace Sys2Proof.Machine

/-- One saggar. -/
structure Sag where
  /-- Its token buckets: DMA, glaze, PKE (R373). -/
  dma : RateBucket
  glz : RateBucket
  pke : RateBucket
  /-- SW_MBX_VEC: IRQ_EN and VECTOR. -/
  irqEn : Bool
  vector : Nat
  /-- The four window indexes (R368). -/
  t2mTail : Nat
  t2mHead : Nat
  m2tTail : Nat
  m2tHead : Nat
  /-- The window slots: tenant-to-manager bytes 0–1,023 and manager-to-tenant bytes 0–1,023. -/
  t2m : Tab Byte
  m2t : Tab Byte
  /-- The operation that runs, with its ARG, and the cycle of its acceptance (R364). -/
  op : Option (Nat × Nat × Nat)
  /-- A reset or FLR that waits for FROZEN (R374). -/
  flrWaits : Bool
  /-- The reset that runs ends in FREE (DESTROY). -/
  destroys : Bool
  /-- The dirty log, by byte (R383). -/
  dirty : Tab Byte
  deriving DecidableEq, Repr

def Sag.reset : Sag :=
  { dma := .reset, glz := .reset, pke := .reset, irqEn := false, vector := 0, t2mTail := 0, t2mHead := 0, m2tTail := 0,
    m2tHead := 0, t2m := [], m2t := [], op := none, flrWaits := false, destroys := false, dirty := [] }

/-- The saggars. -/
structure SagState where
  sags : Tab Sag
  deriving DecidableEq, Repr

def SagState.reset : SagState := ⟨[]⟩

end Sys2Proof.Machine
end

