-- ==== Sys2Proof/Machine/StoState.lean ====
section
/-!
DEFINITION. The state of the storage service (chapter Emulated Storage and the Sealed Journal): namespace, target and
controller entries, the emulated NVM Express controllers with their queues and commands, and the sealed journals. The
queues, registers and features have the shape that the cited NVM Express specifications give (notes/assumptions/40).
-/

namespace Sys2Proof.Machine

/-- A place in a journal's chain: the sherds before it. -/
structure ChainPos where
  /-- The next SEQ and its offset. -/
  seq : Nat
  off : Nat
  /-- Hash and time stamp (in 2^-16 ns) of the last sherd. -/
  hash : List Byte
  time : Nat
  /-- SEQ of the last SEAL. -/
  lastSeal : Option Nat
  /-- Sherds since that SEAL, and the cycle in which the first of them was chained. -/
  unsealed : Nat
  firstAt : Option Nat
  /-- How many cycles it had waited before a restore brought it here (R401). -/
  ran : Nat
  /-- The bytes before `off` of the logical block in which it lies (R404). -/
  part : List Byte
  deriving DecidableEq, Repr

/-- A sherd that is chained and not yet durable (R402). -/
structure Sherd where
  seq : Nat
  off : Nat
  typ : Nat
  bytes : List Byte
  /-- The chain behind it. -/
  after : ChainPos
  /-- The append it belongs to: controller, SQ, command identifier, and SEALED. -/
  cmd : Option (Nat × Nat × Nat × Bool)
  /-- The firing number of its write, and the cycle in which that began (R386). -/
  firing : Nat
  at_ : Nat
  deriving DecidableEq, Repr

/-- An append that waits for a seal: controller, SQ, command identifier, SEALED, APP_TYPE, HOST_TAG, payload. -/
structure SherdAppend where
  ctl : Nat
  sq : Nat
  cid : Nat
  sealed : Bool
  app : Nat
  tag : Nat
  payload : List Byte
  deriving DecidableEq, Repr

/-- A seal that is being signed (R407, R408): its BODY, and the stamp and flags that the SEAL's header repeats. -/
structure Sealing where
  body : List Byte
  time : Nat
  flags : Nat
  deriving DecidableEq, Repr

/-- A sealed journal. -/
structure Journal where
  jid : List Byte
  /-- STATE of R413. -/
  state : Nat
  /-- The head of the chain, and the head of what is durable. -/
  head : ChainPos
  durable : ChainPos
  chained : List Sherd
  /-- The seal that is being signed, and the APP_TYPE of a RESUME that follows it. -/
  sealing : Option Sealing
  resume : Option Nat
  waiting : List SherdAppend
  /-- One above the highest byte written, and the target status of the last fault (R411). -/
  high : Nat
  fault : Nat
  deriving DecidableEq, Repr

def ChainPos.start : ChainPos := ⟨0, 0, List.replicate 48 0#8, 0, none, 0, none, 0, []⟩

def Journal.reset : Journal := ⟨List.replicate 16 0#8, 0, .start, .start, [], none, none, [], 0, 0⟩

/-- A namespace entry (R413): its configuration bytes 0–39, and the journal it may hold. -/
structure NsEnt where
  cfg : List Byte
  jnl : Journal
  /-- A deferred write error has happened since its last command (R396). -/
  flag : Bool
  deriving DecidableEq, Repr

/-- At package reset every entry is zero (R413; notes/assumptions/41). -/
def NsEnt.reset : NsEnt := ⟨List.replicate 40 0#8, .reset, false⟩

/-- A submission queue and a completion queue. -/
structure Sq where
  base : Nat
  size : Nat
  cq : Nat
  head : Nat
  tail : Nat
  deriving DecidableEq, Repr

structure Cq where
  base : Nat
  size : Nat
  ien : Bool
  vec : Nat
  head : Nat
  tail : Nat
  phase : Bool
  deriving DecidableEq, Repr

/-- What a fetched command waits for. -/
inductive CmdWait where
  /-- It has been fetched (by an Abort) and is not started. -/
  | queued
  /-- The answers of `n` encryption or decryption jobs, with the data that the command named (R394). -/
  | xts (n : Nat) (data : List Byte)
  /-- An answer of a target, from a cycle on; one that came while the service could not run. -/
  | target (tgt since : Nat)
  | got (status : Nat) (data : List Byte)
  /-- The acknowledgement of cached writes, and whether one of them failed. -/
  | cache (ids : List Nat) (failed : Bool)
  /-- An append that waits to be chained, or to be durable, in namespace entry `n`. -/
  | chain (n : Nat)
  | durable (n seq : Nat)
  /-- A seal that covers sherd `seq` of namespace entry `n`. -/
  | seal (n seq : Nat)
  /-- Entry to PS1, with whether its flush failed; and a Set Features to PS0 behind it. -/
  | ps1 (failed : Bool)
  | ps0
  /-- An asynchronous event request. -/
  | aer
  deriving DecidableEq, Repr

/-- A fetched command. -/
structure NvmeCmd where
  sq : Nat
  cid : Nat
  sqe : List Byte
  at_ : Nat
  wait : CmdWait
  /-- The firing number that it and all that is done for it carry (R386). -/
  firing : Nat
  deriving DecidableEq, Repr

/-- A write in the write cache, or a piece of one (R395): its blocks, and where its data lie in the cache area, in stored form. -/
structure CacheW where
  id : Nat
  ns : Nat
  slba : Nat
  nlb : Nat
  off : Nat
  len : Nat
  failed : Bool
  /-- SLBA and NLB of the write itself. -/
  wslba : Nat
  wnlb : Nat
  /-- The firing number of its command, and the cycle in which it was sent. -/
  firing : Nat
  at_ : Nat
  deriving DecidableEq, Repr

/-- An entry of log page 0xC0 (R396). -/
structure DeferE where
  nsid : Nat
  slba : Nat
  nlb : Nat
  status : Nat
  time : Nat
  deriving DecidableEq, Repr

/-- An entry of the Error Information log: its number, and the command that failed. -/
structure ErrE where
  num : Nat
  sq : Nat
  cid : Nat
  status : Nat
  slba : Nat
  nsid : Nat
  deriving DecidableEq, Repr

/-- A completion that waits for room in its queue. -/
structure Cqe where
  cq : Nat
  sq : Nat
  cid : Nat
  dw0 : Nat
  dw1 : Nat
  status : Nat
  /-- The firing number that it carries, and the cycle in which it was made. -/
  firing : Nat
  at_ : Nat
  deriving DecidableEq, Repr

/-- What is still to come for work that a reset of the controller has abandoned (R400): a target's answer to a command or to a
cached write, the end of a sherd's write. -/
inductive LateFor where
  | answer (sq cid : Nat)
  | cached (id : Nat)
  | sherd (n : Nat)
  deriving DecidableEq, Repr

/-- A late return: the firing number it carries, and the cycle of the reset. -/
structure LateRet where
  what : LateFor
  firing : Nat
  at_ : Nat
  deriving DecidableEq, Repr

/-- The answer of a unit to a job of the storage service: its status and its output. -/
structure StoAns where
  ctl : Nat
  what : StoWork
  status : Nat
  out : List Byte
  deriving DecidableEq, Repr

/-- The emulated controller of a saggar, with its entry of R415. -/
structure Nvme where
  /-- Entry bytes 0–15. -/
  cfg : List Byte
  cc : Nat
  rdy : Bool
  cfs : Bool
  shst : Nat
  aqa : Nat
  asq : Nat
  acq : Nat
  sqs : Tab (Option Sq)
  cqs : Tab (Option Cq)
  cmds : List NvmeCmd
  cqes : List Cqe
  /-- Events not yet reported (type, information, log page), and the types masked until their page is read. -/
  events : List (Nat × Nat × Nat)
  masked : List Nat
  changed : List Nat
  /-- Features: power state, write cache, coalescing, interrupt vectors, asynchronous event configuration. -/
  ps : Nat
  vwc : Bool
  coal : Nat
  vecs : Tab Nat
  aec : Nat
  cache : List CacheW
  nextId : Nat
  log : List DeferE
  logLost : Bool
  /-- The Error Information log, newest first, and its count; what SMART counts: blocks of 512 bytes read and written, commands that
  read and that write. -/
  errs : List ErrE
  errN : Nat
  smart : List Nat
  /-- By interrupt vector: completions for which no message has been sent, and the cycle of the first (R389). -/
  irqHeld : Tab (Option (Nat × Nat))
  /-- Targets to which the service has its connections (R393). -/
  conns : List Nat
  /-- The channels that the service has taken from the saggar's allotment (R386). -/
  chans : List Nat
  /-- Jobs of the service that FREEZE has withdrawn (R376). -/
  held : List Job
  /-- What may still return for abandoned work. -/
  late : List LateRet
  deriving DecidableEq, Repr

def Nvme.reset : Nvme :=
  { cfg := 1#8 :: List.replicate 15 0#8, cc := 0, rdy := false, cfs := false, shst := 0, aqa := 0, asq := 0, acq := 0, sqs := [],
    cqs := [], cmds := [], cqes := [], events := [], masked := [], changed := [], ps := 0, vwc := true, coal := 0,
    vecs := [], aec := 0, cache := [], nextId := 0, log := [], logLost := false, errs := [], errN := 0, smart := [0, 0, 0, 0], irqHeld := [], conns := [],
    chans := [], held := [], late := [] }

/-- A target entry at package reset: zero (R414; notes/assumptions/41). -/
def tgtReset : List Byte := List.replicate 64 0#8

/-- The storage service. -/
structure StoState where
  ns : Tab NsEnt
  tgt : Tab (List Byte)
  ctl : Tab Nvme
  /-- The journal operation that runs: namespace entry and the SEQ whose sherd ends it (R408, R411). -/
  op : Option (Nat × Nat)
  /-- The answers to the service's jobs that it has not used yet. -/
  answers : List StoAns
  deriving DecidableEq, Repr

def StoState.reset : StoState := ⟨[], [], [], none, []⟩

end Sys2Proof.Machine
end

