-- ==== Sys2Proof/Machine/TmState.lean ====
section
/-!
DEFINITION. The state of the traffic manager, the time gates and network time (chapter Scheduling, Shaping, Time
Gates and Network Time).
-/

namespace Sys2Proof.Machine

/-- A node of the scheduling tree (R163, R195). Tokens are in units of 1/24,000,000 byte (R171). -/
structure Node where
  quantum : Nat
  rate : Nat
  shapeEn : Bool
  adj : Nat
  burst : Nat
  enable : Bool
  owner : Nat
  parent : Nat
  deficit : Int
  tokens : Int
  /-- The cycle up to which the bucket has gained tokens. -/
  at_ : Nat
  visited : Bool
  /-- The child at which the node's round stands (R168). -/
  cur : Nat
  deriving DecidableEq, Repr

/-- A node at package reset (R164, R195): `lvl` is its level. -/
def Node.reset (lvl i : Nat) : Node :=
  { quantum := 10240, rate := 0, shapeEn := false, adj := 20, burst := 16384, enable := true, owner := 0,
    parent := if lvl = 2 then i / 16 else if lvl = 3 then i / 8 else 0,
    deficit := 0, tokens := 16384 * 24000000, at_ := 0, visited := false, cur := 0 }

/-- A stream filter (R196). -/
structure StreamFilter where
  valid : Bool
  blockOversize : Bool
  blocked : Bool
  recolourAct : Bool
  recolour : Nat
  gate : Nat
  maxSdu : Nat
  passed : Nat
  early : Nat
  late : Nat
  gateDrop : Nat
  gateRecolour : Nat
  sduDrop : Nat
  deriving DecidableEq, Repr

def StreamFilter.reset : StreamFilter := ⟨false, false, false, false, 0, 0, 0, 0, 0, 0, 0, 0, 0⟩

/-- A pending change of a gate list: the values latched at acceptance, and CCT in ns (R180). -/
structure GateChange where
  len : Nat
  cycle : Nat
  ext : Nat
  base : Nat
  cct : Nat
  deriving DecidableEq, Repr

/-- A loss state (R193). -/
inductive Loss where
  | closeAll | holdOpen
  deriving DecidableEq, Repr

/-- A gate list as it runs: its cycle and base in ns, and its entries as (INTERVAL, GATES) (R176, R177). -/
structure GateList where
  cycle : Nat
  base : Nat
  entries : List (Nat × Nat)
  deriving DecidableEq, Repr

/-- All that decides the states of a gate at any network time: GATE_EN, IDLE_GATES, the loss state, the operational list,
and a pending change with its CCT and extension (R178, R180, R193). -/
structure GateView where
  en : Bool
  idle : Nat
  loss : Option (Loss × Option Nat)
  oper : Option GateList
  next : Option (Nat × Nat × GateList)
  deriving DecidableEq, Repr

/-- One gate: of port n at n (0–15), of stream gate g at 16 + g. -/
structure Gate where
  /-- The operational list: length, cycle and base in ns (R177); none until the first change becomes operational. -/
  oper : Option (Nat × Nat × Nat)
  pending : Option GateChange
  /-- The loss state in force, and the network time in ns at which the list resumes once one is set (R193). -/
  loss : Option (Loss × Option Nat)
  /-- What ruled the gate before, newest first, each with the first cycle in which it ruled no more: a write takes effect in
  the cycle after it (R178), and a frame is judged by what ruled at its arrival (R183). -/
  past : List (Nat × GateView)
  deriving DecidableEq, Repr

def Gate.reset : Gate := ⟨none, none, none, []⟩

/-- The traffic manager. -/
structure TmState where
  ports : Tab Node
  classes : Tab Node
  groups : Tab Node
  queues : Tab Node
  filters : Tab StreamFilter
  gates : Tab Gate
  /-- By class node: held by the guard band until the gate next opens, in ns of network time (R179). -/
  held : Tab (Option Nat)
  deriving DecidableEq, Repr

def TmState.reset : TmState := ⟨[], [], [], [], [], [], []⟩

/-- Network time (R187). -/
structure TimeState where
  /-- Network time in units of 2^-48 ns. -/
  net : Nat
  /-- The latch of TIME_NOW_NS, _S_LO and _S_HI, in ns (R198). -/
  nowLatch : Nat
  /-- The latched edge time of PPS_IN, and the latch of its three other registers, in 2^-48 ns (R191, R198). -/
  ppsIn : Nat
  ppsLatch : Nat
  /-- The cycle at which the TIMEOUT_S or HOLDOVER_LIMIT count began (R192). -/
  since : Nat
  /-- The PPS_OUT level, the cycle at which it falls, and the last whole second for which it rose (R190). -/
  ppsOut : Bool
  ppsFall : Nat
  ppsLast : Nat
  /-- What the counter gained in its last cycle, in 2^-48 ns; and where it counted otherwise before, newest first: the cycle up to
  which it did, its count there and its gain (R187, R189). -/
  gain : Nat
  past : List (Nat × Nat × Nat)
  deriving DecidableEq, Repr

def TimeState.reset : TimeState := ⟨0, 0, 0, 0, 0, false, 0, 0, 2 ^ 48, []⟩

end Sys2Proof.Machine
end

