-- ==== Sys2Proof/Machine/Dev.lean ====
section
/-!
DEFINITION. The device: all the state the manual gives the part, but for the queue of waiting commands.
-/

namespace Sys2Proof.Machine

/-- The messages that a link sends. -/
inductive Msg where
  | pmPme | pmeToAck | errCor | errNonFatal | errFatal | ltr (us : Nat) | invalidateDone
  deriving DecidableEq, Repr

/-- The output pins. -/
inductive Pin where
  | wakeN | ppsOut | thermtripN | mainPg
  deriving DecidableEq, Repr

/-- What the device sends out (the record of its outputs, newest first). -/
inductive Out where
  /-- The value a register read returns on its path (R28, R43). -/
  | regRead (path : Path) (addr : Nat) (value : Nat)
  /-- A frame transmitted on the sub-port with a port index, FCS included. -/
  | frame (p : Nat) (bytes : List Byte)
  /-- Received data that far-end loopback retransmits on the same lanes (R71). -/
  | echo (p : Nat) (bytes : List Byte)
  /-- A frame given to device firmware, with its receive timestamp in 2^-48 ns (R74, R188). -/
  | toFirmware (bytes : List Byte) (stamp : Nat)
  /-- A transmit timestamp returned to firmware (R188). -/
  | txStamp (p stamp : Nat)
  /-- A posted write on host link `link` with a function's requester ID (R333, R351). -/
  | hostWrite (link : Nat) (w : PWrite)
  /-- A read request on host link `link` (R319). -/
  | hostRead (link : Nat) (func tag addr len : Nat) (ro ido : Bool)
  /-- A completion on host link `link` for an inbound request: 0 successful with data, 1 UR, 2 CA, 3 Request Retry Status. -/
  | completion (link : Nat) (status : Nat) (bytes : List Byte)
  /-- A message on host link `link`: PM_PME, ERR_NONFATAL, ERR_FATAL, LTR in µs, an ATS invalidation completion. -/
  | message (link : Nat) (func : Nat) (kind : Msg)
  /-- An interrupt to device firmware for an error of a class (R455); which interrupt of a management core it is, is not given
  (notes/assumptions/71). -/
  | fwInterrupt (cls : Nat)
  /-- A level driven on a pin. -/
  | pin (name : Pin) (level : Bool)
  /-- Bytes answered on the I3C port (R446). -/
  | i3c (bytes : List Byte)
  /-- Bytes answered on the JTAG TAP (R249). -/
  | jtag (bytes : List Byte)
  /-- A command sent to a remote target: target entry, opcode, first block, number of blocks, data in stored form (R393). -/
  | toTarget (tgt op slba nlb : Nat) (data : List Byte)
  /-- The storage service opens its connections to a target: one admin connection and one for each service thread (R393). -/
  | tgtConnect (s tgt conns : Nat)
  deriving DecidableEq, Repr

/-- An event noted in the cycle in which it happens, where the manual serves another event before it in that cycle
(notes/assumptions/6). -/
inductive Mark where
  /-- A command wrote, deleted or moved table entries (R132, R136). -/
  | tableWrite
  /-- A WRITE_M of a meter; a count of a meter (R149). -/
  | meterWrite (m : Nat)
  | meterUse (m : Nat)
  /-- A WRITE_Q of a queue; an admission of a frame of pipeline `k`, 8 for a frame of none (R149, R154). -/
  | queueWrite (q : Nat)
  | admission (k : Nat)
  /-- Port `n` was reset; a write at `a` in a port's window, which held `old` (R426). -/
  | portReset (n : Nat)
  | portWrite (a : Nat) (old : BitVec 32)
  /-- A WRITE_NODE; a dequeue decision that chose a frame (R173). -/
  | nodeWrite
  | sent
  /-- The hold of the sub-port with port index `p` expired (R69); the sync state ran out (R193). -/
  | holdExpired (p : Nat)
  | syncExpired
  /-- A doorbell reached channel `g`, and whether it counted in DB_STALE; not one that counted in DB_BAD (R360). -/
  | doorbell (g : Nat) (stale : Bool)
  /-- An arm of channel `g` that raised no message at once, with the arming that stood before it (R360). -/
  | armed (g : Nat) (was : Bool) (next : Nat)
  /-- A read on host link `l` failed and stopped its engine, in a cycle of the HIF domain; a release of the link was asked for (R330). -/
  | busStop (l hif : Nat)
  | relAsked (l hif : Nat)
  /-- A reader found this entry bad (R134, R136). -/
  | badFound (r : EntryRef)
  /-- CHSENDNB found the FIFO of endpoint `e` of thread `t` full, or CHRECVNB found it empty (R219). -/
  | sendFull (t e : Nat)
  | recvEmpty (t e : Nat)
  /-- PKRECV gave thread `t` a handle in register `rd` (R36). -/
  | handed (t rd : Nat)
  /-- Classification placed frame `i` under its entry (R36). -/
  | placed (i : Nat)
  /-- A key command changed context `i`; a WRITE_IXT of entry `x`; engine `e` ended a frame of entry `x` (R271, R285). -/
  | keyWrite (i : Nat)
  /-- Engine `e` started an invocation on context `i` (R271). -/
  | invoked (i e : Nat)
  | ixtWrite (x : Nat)
  | inlineDone (x e : Nat)
  /-- A write of `n` bytes of the HBM from `a`, in a cycle of the NOC, by an agent of a place in its order (R248). -/
  | wrote (noc order a n : Nat)
  deriving DecidableEq, Repr

/-- The device. -/
structure Dev where
  /-- PIPE cycles (1/3 ns) since package cold reset: the one clock of the model. -/
  cycle : Nat
  /-- What is noted of the present cycle (notes/assumptions/6). -/
  marks : List Mark
  /-- How many free values have been drawn: the model's own field (notes/assumptions/5). -/
  fresh : Nat
  /-- Outputs, newest first. -/
  out : List Out
  reg : RegState
  eth : EthState
  /-- Every frame inside the device, by number; the next number. -/
  frames : Tab (Option Frame)
  nextFrame : Nat
  parse : Tab ParseState
  buf : BufState
  tm : TmState
  time : TimeState
  own : OwnerState
  mem : MemState
  cls : Tab ClsPipe
  tbl : TblState
  hif : HifState
  dma : DmaState
  sag : SagState
  core : CoreState
  boot : BootState
  glz : GlzState
  pke : PkeState
  ras : RasState
  sto : StoState
  pkg : PkgState
  deriving DecidableEq, Repr

/-- The device after package cold reset. -/
def Dev.reset : Dev :=
  { cycle := 0, marks := [], fresh := 0, out := [], reg := .reset, eth := .reset, frames := [], nextFrame := 0, parse := [],
    buf := .reset, tm := .reset, time := .reset, own := .reset, mem := .reset, cls := [],
    tbl := .reset, hif := .reset, dma := .reset, sag := .reset, core := .reset, boot := .reset,
    glz := .reset, pke := .reset, ras := .reset, sto := .reset, pkg := .reset }

/-- Whether the domains outside AON run: both supplies good, the oscillator sound (R421, R489). -/
def Dev.alive (d : Dev) : Bool := d.boot.powered && d.pkg.standby && !d.pkg.oscBad

/-- Whether a crossing is severed (R425). -/
def Dev.severed (d : Dev) (x : Crossing) : Bool := d.pkg.severed.contains x

/-- A reset of one side severs a crossing (R425). -/
def Dev.sever (d : Dev) (x : Crossing) : Dev := { d with pkg := { d.pkg with severed := x :: d.pkg.severed.filter (· != x) } }

end Sys2Proof.Machine
end

