-- ==== Sys2Proof/Machine/Ops.lean ====
section
/-!
DEFINITION. The named operations over the device's registers, counters and frames. Every meaning reads and writes
register space through these.
-/

namespace Sys2Proof.Machine

/-! ### Field arithmetic -/

/-- The value of the `width` bits of `w` from bit `lo`. -/
def fieldGet (w : W32) (lo width : Nat) : Nat := (w.toNat / 2 ^ lo) % 2 ^ width

/-- The mask of `width` bits from bit `lo`. -/
def fieldMask (lo width : Nat) : W32 := BitVec.ofNat 32 ((2 ^ width - 1) * 2 ^ lo)

/-- `w` with the `width` bits from bit `lo` set to `v`. -/
def fieldPut (w : W32) (lo width v : Nat) : W32 :=
  (w &&& ~~~(fieldMask lo width)) ||| (BitVec.ofNat 32 (v % 2 ^ width * 2 ^ lo) &&& fieldMask lo width)

/-- A number of `w` bits read as signed. -/
def signedOf (w x : Nat) : Int := if 2 ^ (w - 1) ≤ x then (x : Int) - 2 ^ w else x

/-- A signed number in `w` bits. -/
def ofSigned (w : Nat) (x : Int) : Nat := (x % 2 ^ w).toNat

/-- The value that a field stores for a written value, by the rule of its table. -/
def Fix.apply (f : Fix) (width v : Nat) : Nat :=
  match f with
  | .none => v
  | .clamp lo hi => Nat.max lo (Nat.min hi v)
  | .over limit w => if limit < v then w else v
  | .zero w => if v = 0 then w else v
  | .signed limit =>
    let x := signedOf width v
    ofSigned width (if (limit : Int) < x then limit else if x < -(limit : Int) then -(limit : Int) else x)
  | .signedMax limit => if (limit : Int) < signedOf width v then limit else v
  | .maxGen => if v = 0 ∨ v = 7 then 6 else v
  | .spillSize => Nat.min 32 v

/-- The width of a counter. -/
def Ctr.width (c : Ctr) : Nat := if c.wide then 64 else 32

namespace Dev

/-! ### Registers -/

/-- The value a register holds. -/
def rd (d : Dev) (a : Nat) : W32 := tabGet regReset d.reg.regs a

/-- Sets a register as a whole. -/
def wr (d : Dev) (a : Nat) (v : W32) : Dev :=
  { d with reg := { d.reg with regs := tabSet regReset d.reg.regs a v } }

/-- The value a field holds. -/
def get (d : Dev) (f : Fld) : Nat := fieldGet (d.rd f.addr) f.lo f.width

/-- Whether a one-bit field is set. -/
def flag (d : Dev) (f : Fld) : Bool := d.get f != 0

/-- Hardware sets a field. -/
def put (d : Dev) (f : Fld) (v : Nat) : Dev := d.wr f.addr (fieldPut (d.rd f.addr) f.lo f.width v)

/-- Hardware updates an RW field: a value that software wrote in the same cycle stays (R48). -/
def putRW (d : Dev) (f : Fld) (v : Nat) : Dev :=
  if fieldGet (tabGet (fun _ => 0#32) d.reg.swWrote f.addr) f.lo f.width = 0 then d.put f v else d

/-- Hardware fills a register of RW bits: those that software wrote in the same cycle stay (R48). -/
def fillRW (d : Dev) (a : Nat) (v : W32) : Dev :=
  let sw := tabGet (fun _ => 0#32) d.reg.swWrote a
  d.wr a ((v &&& ~~~sw) ||| (d.rd a &&& sw))

/-- Software writes an RW field that has a row of its own (R48). -/
def swPut (d : Dev) (f : Fld) (v : Nat) : Dev :=
  let d := d.put f v
  { d with reg := { d.reg with swWrote := tabMod (fun _ => 0#32) d.reg.swWrote f.addr (· ||| fieldMask f.lo f.width) } }

/-- Hardware sets an event bit; a software clear in the same cycle does not lose it (R45, R48). -/
def setEvent (d : Dev) (f : Fld) : Dev :=
  let d := d.put f 1
  { d with reg := { d.reg with justSet := tabMod (fun _ => 0#32) d.reg.justSet f.addr (· ||| fieldMask f.lo f.width) } }

/-! ### Counters (R12, R47) -/

/-- The count of a counter. -/
def count (d : Dev) (c : Ctr) : Nat := tabGet (fun _ => 0) d.reg.cnt c.addr

/-- Adds `n` to a counter, saturating at all ones (R12). -/
def bump (d : Dev) (c : Ctr) (n : Nat) : Dev :=
  { d with reg := { d.reg with
      cnt := tabMod (fun _ => 0) d.reg.cnt c.addr (satAdd c.width · n),
      justInc := tabMod (fun _ => 0) d.reg.justInc c.addr (satAdd c.width · n) } }

/-- Takes back `n` counts of what this cycle decides otherwise. -/
def debump (d : Dev) (c : Ctr) (n : Nat) : Dev :=
  { d with reg := { d.reg with
      cnt := tabMod (fun _ => 0) d.reg.cnt c.addr (· - n), justInc := tabMod (fun _ => 0) d.reg.justInc c.addr (· - n) } }

/-- Adds 1 to a counter. -/
def inc (d : Dev) (c : Ctr) : Dev := d.bump c 1

/-- A software write clears a counter and its latch; that cycle's increments stand (R43, R47, R48). -/
def clearCount (d : Dev) (a : Nat) : Dev :=
  { d with reg := { d.reg with
      cnt := tabSet (fun _ => 0) d.reg.cnt a (tabGet (fun _ => 0) d.reg.justInc a),
      latch := tabSet (fun _ => 0) d.reg.latch a 0 } }

/-! ### Cycles of the domains (R417, R419) -/

/-- The cycle of the HIF domain in which a PIPE cycle lies: 1.0 GHz against 3.0 GHz (R417). -/
def hifOf (c : Nat) : Nat := c / 3

/-- The cycle of the NOC in which a PIPE cycle begins: 2.0 GHz against 3.0 GHz. -/
def nocOf (c : Nat) : Nat := c * 2 / 3

/-- The registers that AON clocks: those of CLK, RST and BOOT, and of RAS the AON-held ones and those of the cones (R417, R427;
notes/assumptions/47). -/
def isAon (a : Nat) : Bool :=
  decide (0x10000 ≤ a) && decide (a < 0x40000) || a == 0x40020 || decide (0x40030 ≤ a) && decide (a < 0x40050) ||
    decide (0x40710 ≤ a) && decide (a < 0x40720) || a == 0x41210 || a == 0x41214 || decide (0x43000 ≤ a) && decide (a < 0x44000)

/-- The cycle, in the home domain of the register at `a`, in which a PIPE cycle begins: NOC for GLB (R503), AON at 156.25 MHz, TIME
and HIF at 1.0 GHz for their own blocks, and PIPE for the others (notes/assumptions/47). -/
def homeCycle (a c : Nat) : Nat :=
  if a < 0x10000 then nocOf c
  else if isAon a then c * 5 / 96
  else if (0x50000 ≤ a ∧ a < 0x60000) ∨ (0xE00000 ≤ a ∧ a < 0xF00000) then c / 3
  else c

/-- Whether the register at `a` lies behind a crossing of TIME or AON that waits for reconnection (R425, R426). -/
def behind (d : Dev) (a : Nat) : Bool :=
  (d.severed .time && decide (0x50000 ≤ a) && decide (a < 0x60000)) || (d.severed .aon && isAon a)

/-! ### Set-up locks (R46) -/

/-- Whether the unit with enable control at `a` is locked in a cycle that began after the lock (R46, R48). -/
def locked (d : Dev) (a : Nat) : Bool :=
  let v := tabGet (fun _ => 0) d.reg.locks a
  v != 0 && decide (homeCycle a (v - 1) < homeCycle a d.cycle)

/-- Whether the unit has left set-up state, in this cycle or before. -/
def leftSetup (d : Dev) (a : Nat) : Bool := tabGet (fun _ => 0) d.reg.locks a != 0

/-- Locks a unit's RWL fields from the next cycle on; a locked unit keeps its lock. -/
def lock (d : Dev) (a : Nat) : Dev :=
  if d.leftSetup a then d
  else { d with reg := { d.reg with locks := tabSet (fun _ => 0) d.reg.locks a (d.cycle + 1) } }

/-- A unit's reset returns it to set-up state. -/
def unlock (d : Dev) (a : Nat) : Dev :=
  { d with reg := { d.reg with locks := tabSet (fun _ => 0) d.reg.locks a 0 } }

/-- A lock violation starts on its way to GLB (R503). -/
def reportViol (d : Dev) (p : Path) (a : Nat) : Dev :=
  { d with reg := { d.reg with viol := d.reg.viol ++ [⟨p, keyBus a⟩] } }

/-- What is noted of a register for its present cycle stands until its home domain begins another. -/
def sameCycle {α : Type} (c : Nat) (t : List (Nat × α)) : List (Nat × α) :=
  t.filter fun kv => homeCycle kv.1 (c + 1) == homeCycle kv.1 c

/-! ### Outputs, free values, network time -/

/-- Records an output. -/
def emit (d : Dev) (o : Out) : Dev := { d with out := o :: d.out }

/-- Draws a free value (notes/assumptions/5). -/
def free (d : Dev) : Nat × Dev := (Config.freeValue d.fresh, { d with fresh := d.fresh + 1 })

/-- The counter leaves its count or its gain in cycle `c`; what is older than 1 ms stamps no frame any more (R189). -/
def leaveCount (d : Dev) (c : Nat) : Dev :=
  { d with time := { d.time with
      past := (c, d.time.net, d.time.gain) :: d.time.past.filter fun x => decide (d.cycle < x.1 + 3000000) } }

/-- Network time in 2^-48 ns as it was in cycle `c`, whatever stepped or stopped the counter since (R187, R189). -/
def netAt (d : Dev) (c : Nat) : Nat :=
  let x := (d.time.past.reverse.find? fun x => decide (c < x.1)).getD (d.cycle, d.time.net, d.time.gain)
  x.2.1 - x.2.2 * (x.1 / 3 - c / 3)

/-- Network time in whole ns. -/
def netNs (d : Dev) : Nat := d.time.net / 2 ^ 48

/-! ### Frames -/

/-- The frame with a number. -/
def frame? (d : Dev) (i : Nat) : Option Frame := tabGet (fun _ => none) d.frames i

/-- Sets the frame with a number. -/
def setFrame (d : Dev) (i : Nat) (f : Frame) : Dev :=
  { d with frames := tabSet (fun _ => none) d.frames i (some f) }

/-- Removes a frame. -/
def dropFrame (d : Dev) (i : Nat) : Dev := { d with frames := tabSet (fun _ => none) d.frames i none }

/-- Changes the frame with a number, if it is there. -/
def modFrame (d : Dev) (i : Nat) (g : Frame → Frame) : Dev :=
  match d.frame? i with
  | some f => d.setFrame i (g f)
  | none => d

/-- Gives a new frame its number. -/
def addFrame (d : Dev) (f : Frame) : Nat × Dev :=
  (d.nextFrame, { d.setFrame d.nextFrame f with nextFrame := d.nextFrame + 1 })

/-! ### Access to the parts of the state -/

/-- The sub-port with a port index. -/
def sub (d : Dev) (p : Nat) : SubPort := tabGet (fun _ => .reset) d.eth.sub p

def setSub (d : Dev) (p : Nat) (x : SubPort) : Dev :=
  { d with eth := { d.eth with sub := tabSet (fun _ => .reset) d.eth.sub p x } }

def modSub (d : Dev) (p : Nat) (g : SubPort → SubPort) : Dev := d.setSub p (g (d.sub p))

/-- The parse stage of pipeline `k`. -/
def pst (d : Dev) (k : Nat) : ParseState := tabGet (fun _ => .reset) d.parse k

def setPst (d : Dev) (k : Nat) (x : ParseState) : Dev :=
  { d with parse := tabSet (fun _ => .reset) d.parse k x }

/-- Classification in pipeline `k`. -/
def cp (d : Dev) (k : Nat) : ClsPipe := tabGet (fun _ => .reset) d.cls k

def setCp (d : Dev) (k : Nat) (x : ClsPipe) : Dev := { d with cls := tabSet (fun _ => .reset) d.cls k x }

/-- Queue entry `q` (R160). -/
def queue (d : Dev) (q : Nat) : QEntry := tabGet (fun _ => .reset) d.buf.queues q

def setQueue (d : Dev) (q : Nat) (x : QEntry) : Dev :=
  { d with buf := { d.buf with queues := tabSet (fun _ => .reset) d.buf.queues q x } }

def modQueue (d : Dev) (q : Nat) (g : QEntry → QEntry) : Dev := d.setQueue q (g (d.queue q))

/-- Meter `m` (R161). -/
def meter (d : Dev) (m : Nat) : Meter := tabGet (fun _ => .reset) d.buf.meters m

def setMeter (d : Dev) (m : Nat) (x : Meter) : Dev :=
  { d with buf := { d.buf with meters := tabSet (fun _ => .reset) d.buf.meters m x } }

/-- The scheduling node at a level and index (R163). -/
def node (d : Dev) (lvl i : Nat) : Node :=
  tabGet (Node.reset lvl) (match lvl with | 0 => d.tm.ports | 1 => d.tm.classes | 2 => d.tm.groups | _ => d.tm.queues) i

def setNode (d : Dev) (lvl i : Nat) (x : Node) : Dev :=
  { d with tm := match lvl with
      | 0 => { d.tm with ports := tabSet (Node.reset 0) d.tm.ports i x }
      | 1 => { d.tm with classes := tabSet (Node.reset 1) d.tm.classes i x }
      | 2 => { d.tm with groups := tabSet (Node.reset 2) d.tm.groups i x }
      | _ => { d.tm with queues := tabSet (Node.reset 3) d.tm.queues i x } }

/-- Stream filter `i` (R196). -/
def filter (d : Dev) (i : Nat) : StreamFilter := tabGet (fun _ => .reset) d.tm.filters i

def setFilter (d : Dev) (i : Nat) (x : StreamFilter) : Dev :=
  { d with tm := { d.tm with filters := tabSet (fun _ => .reset) d.tm.filters i x } }

/-- Gate `g`: port n at n, stream gate at 16 + its number. -/
def gate (d : Dev) (g : Nat) : Gate := tabGet (fun _ => .reset) d.tm.gates g

def setGate (d : Dev) (g : Nat) (x : Gate) : Dev :=
  { d with tm := { d.tm with gates := tabSet (fun _ => .reset) d.tm.gates g x } }

end Dev
end Sys2Proof.Machine
end

