-- ==== Sys2Proof/Machine/Gates.lean ====
section
/-!
DEFINITION. The gate lists of the ports and of the stream gates: the addresses of their registers, and the states that a gate
takes at a network time (R176 to R181, R184, R193).
-/

namespace Sys2Proof.Machine

/-! ### Lists (R177) -/

/-- The interval of a list of the given cycle at position `pos` of it, its entries scanned from number `e` on with the time
`acc` passed: (entry, gates, end position). `last` is the last entry with a non-zero interval so far (R177). -/
def scanGates (cycle pos : Nat) : List (Nat × Nat) → Nat → Nat → Nat × Nat → Nat × Nat × Nat
  | [], _, _, last => (last.1, last.2, cycle)
  | (iv, g) :: es, e, acc, last =>
    if iv = 0 then scanGates cycle pos es (e + 1) acc last
    else if pos < acc + iv then (e, g, Nat.min (acc + iv) cycle)
    else scanGates cycle pos es (e + 1) (acc + iv) (e, g)

/-- The position in a list's cycle at network time `t` ns. -/
def GateList.pos (l : GateList) (t : Nat) : Nat := (((t : Int) - l.base) % (l.cycle : Int)).toNat

/-- What a list gives at a position of its cycle: (entry, gates, end position). -/
def GateList.atPos (l : GateList) (pos : Nat) : Nat × Nat × Nat := scanGates l.cycle pos l.entries 0 0 (0, 0)

/-- What a list gives at network time `t`: (entry, gates, the end of the interval in ns). -/
def GateList.at_ (l : GateList) (t : Nat) : Nat × Nat × Nat :=
  let r := l.atPos (l.pos t)
  (r.1, r.2.1, t + r.2.2 - l.pos t)

/-- What the lists alone give at network time `t`: (entry, gates, end in ns; none where nothing ends). A pending change takes
over at its CCT, and until then the old cycle that ends last before it is extended, if the extension reaches (R180). -/
def GateView.lists (v : GateView) (t : Nat) : Nat × Nat × Option Nat :=
  let of := fun (r : Nat × Nat × Nat) => (r.1, r.2.1, some r.2.2)
  let old : Nat × Nat × Option Nat := match v.oper with
    | none => (0, v.idle, none)
    | some l => of (l.at_ t)
  match v.next with
  | none => old
  | some (cct, ext, l') =>
    if cct ≤ t then of (l'.at_ t)
    else
      let cut : Nat × Nat × Option Nat := (old.1, old.2.1, some (match old.2.2 with | some e => Nat.min e cct | none => cct))
      match v.oper with
      | none => cut
      | some l =>
        if 0 < l.pos cct ∧ l.pos cct ≤ ext ∧ cct ≤ t + l.pos cct then
          let r := l.atPos (l.cycle - 1)
          (r.1, r.2.1, some cct)
        else cut

/-- The gate states at network time `t`: IDLE_GATES while GATE_EN is 0 (R178), a loss state while one is in force (R193), else
the lists. The loss state rules a gate that has GATE_EN and no operational list too, and OPER_ENTRY reads 0 where no list runs
(DESIGN CHOICE, notes/assumptions/61 and 62). -/
def GateView.gates (v : GateView) (t : Nat) : Nat × Nat × Option Nat :=
  if !v.en then (0, v.idle, none)
  else match v.loss with
    | some (.closeAll, none) => (0, 0, none)
    | some (.holdOpen, none) => (0, 0xFF, none)
    | some (k, some r) =>
      if t < r then (0, (match k with | .closeAll => 0 | .holdOpen => 0xFF), some r) else v.lists t
    | none => v.lists t

/-- Whether a gate is judged without tolerance at network time `t`: idle, or in a loss state (R185). -/
def GateView.strict (v : GateView) (t : Nat) : Bool :=
  !v.en || (match v.loss with | some (_, none) => true | some (_, some r) => decide (t < r) | none => false)

namespace Dev

/-! ### Addresses -/

/-- The gate and the bank of an address that lies in a gate list (R176, R184). -/
def gateListAt (a : Nat) : Option (Nat × Nat) :=
  if 0x600000 ≤ a ∧ a < 0x640000 then some ((a - 0x600000) / 0x4000, (a - 0x600000) % 0x4000 / 0x2000)
  else if 0x700000 ≤ a ∧ a < 0x740000 then some (16 + (a - 0x700000) / 0x400, (a - 0x700000) % 0x400 / 0x200)
  else none

/-- The gate whose registers lie at an address. -/
def gateRegsAt (a : Nat) : Option Nat :=
  if 0x510000 ≤ a ∧ a < 0x511000 then some ((a - 0x510000) / 0x100)
  else if 0x520000 ≤ a ∧ a < 0x530000 then some (16 + (a - 0x520000) / 0x100)
  else none

/-- GATE_CTRL of gate `g` (port gates 0–15, stream gates from 16). -/
def gateCtrl (g : Nat) : Nat := if g < 16 then GATE_CTRL g else SGATE_CTRL (g - 16)

/-- A field of gate `g`'s registers, by the offset of its register. -/
def gateFld (g off lo width : Nat) : Fld := ⟨gateCtrl g + off, lo, width⟩

/-- Entry `e` of a bank of gate `g`'s lists: (INTERVAL, GATES) (R176, R184). -/
def gateEntry (d : Dev) (g bank e : Nat) : Nat × Nat :=
  let a := if g < 16 then 0x600000 + g * 0x4000 + bank * 0x2000 + 8 * e
    else 0x700000 + (g - 16) * 0x400 + bank * 0x200 + 8 * e
  ((d.rd a).toNat, fieldGet (d.rd (a + 4)) 0 8)

/-- The first `len` entries of a bank of gate `g`'s lists. -/
def gateBank (d : Dev) (g bank len : Nat) : List (Nat × Nat) := (List.range len).map (d.gateEntry g bank)

/-- The bank that OPER_BANK names. -/
def operBank (d : Dev) (g : Nat) : Nat := d.get (gateFld g 0 3 1)

/-! ### What rules a gate -/

/-- What rules gate `g` as its registers and lists stand. -/
def gateView (d : Dev) (g : Nat) : GateView :=
  { en := d.flag (gateFld g 0 0 1), idle := d.get (gateFld g 0x1C 0 8), loss := (d.gate g).loss,
    oper := (d.gate g).oper.map fun o => ⟨o.2.1, o.2.2, d.gateBank g (d.operBank g) o.1⟩,
    next := (d.gate g).pending.map fun c => (c.cct, c.ext, ⟨c.cycle, c.base, d.gateBank g (1 - d.operBank g) c.len⟩) }

/-- What ruled gate `g` in cycle `c`. -/
def gateViewAt (d : Dev) (g c : Nat) : GateView :=
  match (d.gate g).past.reverse.find? fun x => decide (c < x.1) with
  | some x => x.2
  | none => d.gateView g

/-- The gate states at network time `t` as ruled in this cycle: (entry, gates, end in ns). -/
def gatesAt (d : Dev) (g t : Nat) : Nat × Nat × Option Nat := (d.gateViewAt g d.cycle).gates t

/-- The cycle in which the oldest frame inside the device arrived. -/
def oldestArrival (d : Dev) : Nat :=
  d.frames.foldl (fun m kv => match kv.2 with | some f => Nat.min m f.sfdAt | none => m) d.cycle

/-- Notes what rules gate `g`, which a change replaces from cycle `c` on. What no frame inside the device can be judged by
any more, the largest tolerance of 65,535 ns included (R185), is dropped. -/
def leaveView (d : Dev) (g c : Nat) : Dev :=
  let x := d.gate g
  if x.past.any fun y => decide (c ≤ y.1) then d
  else
    let keep := x.past.filter fun y => decide (d.oldestArrival ≤ y.1 + 3 * 65535)
    d.setGate g { x with past := (c, d.gateView g) :: keep }

/-- OPER_ENTRY and OPER_GATES show the state in force. -/
def syncGate (d : Dev) (g : Nat) : Dev :=
  let r := d.gatesAt g d.netNs
  (d.put (gateFld g 0x30 0 10) r.1).put (gateFld g 0x34 0 8) r.2.1

/-- The gates whose rule a write of the past cycle changed show their new state (R178). -/
def syncLate (d : Dev) : Dev :=
  d.tm.gates.foldl (fun d kv => match kv.2.past.head? with
    | some (c, _) => if c = d.cycle then d.syncGate kv.1 else d
    | none => d) d

end Dev
end Sys2Proof.Machine
end

