-- ==== Sys2Proof/Machine/RegOps.lean ====
section
/-!
DEFINITION. Software accesses to register space: the access types of R43 with the same-cycle rules of R48, the
set-up locks of R46, the counters of R47 and the latched time registers of R198.
-/

namespace Sys2Proof.Machine

/-- The number of sub-ports that a port mode creates (R52). -/
def subPortsOf : Nat → Nat
  | 1 => 1 | 2 => 2 | 3 => 4 | 4 => 4 | _ => 0

/-- The rate of each sub-port of a mode in Gbit/s (R52). -/
def rateOf : Nat → Nat
  | 1 => 800 | 2 => 400 | 3 => 200 | 4 => 100 | _ => 0

/-- The logical lanes of sub-port `i` in a mode (R52). -/
def lanesOf (mode i : Nat) : List Nat :=
  match mode with
  | 1 => [0, 1, 2, 3]
  | 2 => [2 * i, 2 * i + 1]
  | 3 => [i]
  | 4 => [i]
  | _ => []

namespace Dev

/-- Port Pn's mode (R52). -/
def mode (d : Dev) (n : Nat) : Nat := d.get (ETH_MODE_MODE n)

/-- Whether the current mode creates sub-port Pn.i (R52, R73). -/
def subExists (d : Dev) (n i : Nat) : Bool := decide (i < subPortsOf (d.mode n))

/-- Whether an address lies in the registers of a host link that BIFURC does not create (R309). -/
def absentLink (d : Dev) (a : Nat) : Bool :=
  let o := a % 0x80000
  if 0xE00000 ≤ a ∧ a < 0xF00000 ∧ 0x1000 ≤ o ∧ o < 0x1400 then
    let m := (o - 0x1000) / 0x100
    decide ((match d.get (HIF_CTRL_BIFURC ((a - 0xE00000) / 0x80000)) with | 1 => 2 | 2 => 4 | _ => 1) ≤ m)
  else false

/-- Whether an address lies in the registers of a sub-port that the mode does not create, or of such a host link (R73,
R309): they read 0 and ignore writes. -/
def absentSub (d : Dev) (a : Nat) : Bool :=
  if d.absentLink a then true else
  if 0x100000 ≤ a ∧ a < 0x200000 then
    let o := a % 0x10000
    decide (0x1000 ≤ o) && decide (o < 0x5000) && !d.subExists ((a - 0x100000) / 0x10000) (o / 0x1000 - 1)
  else false

/-- Whether a write to a gate list is ignored (R178, R181). -/
def gateListBlocked (d : Dev) (a : Nat) : Bool :=
  match gateListAt a with
  | some (g, bank) =>
    let isOper := d.get (gateFld g 0 3 1) == bank
    (isOper && (d.gate g).oper.isSome) || (!isOper && d.flag (gateFld g 0 4 1))
  | none => false

/-- What a field stores for a written value (R43): the rule of its table, and for BUF_SPILL_SIZE.GIB also that a region reaching
past 96 GiB stores 0; a BUF_SPILL_BASE written after it moves the region as it is (DESIGN CHOICE, notes/assumptions/60). -/
def fieldStore (d : Dev) (a : Nat) (f : FieldDesc) (v : Nat) : Nat :=
  let x := f.fix.apply f.width v
  if a = BUF_SPILL_SIZE ∧ 96 < d.get BUF_SPILL_BASE_GIB + x then 0 else x

/-- The fields of the register at `a` take a word's values as their tables say; reserved bits stay 0 (R8, R43). -/
def loadReg (d : Dev) (a : Nat) (w : W32) : Dev :=
  match regAt a with
  | none => d
  | some (_, r) => r.fields.foldl (fun d f => d.put ⟨a, f.lo, f.width⟩ (d.fieldStore a f (fieldGet w f.lo f.width))) d

/-- One field's part of a software write of `data` to the register at `a`. `lk` says that its RWL fields are locked;
the result says whether the write differs in a locked field (R46). -/
def fieldWrite (lk : Bool) (a : Nat) (data : W32) (d : Dev) (f : FieldDesc) : Dev × Bool :=
  let v := fieldGet data f.lo f.width
  let fld : Fld := ⟨a, f.lo, f.width⟩
  if f.own then (d, false)
  else match f.acc with
    | .ro => (d, false)
    | .wo => (d, false)
    | .rw =>
      let d := d.put fld (d.fieldStore a f v)
      ({ d with reg := { d.reg with
          swWrote := tabMod (fun _ => 0#32) d.reg.swWrote a (· ||| fieldMask f.lo f.width) } }, false)
    | .w1s => (d.put fld (d.get fld ||| v), false)
    | .w1c =>
      let keep := fieldGet (tabGet (fun _ => 0#32) d.reg.justSet a) f.lo f.width
      (d.put fld (d.get fld &&& ((2 ^ f.width - 1 - v) ||| keep)), false)
    | .rwl =>
      let new := d.fieldStore a f v
      if lk then (d, new != d.get fld) else (d.put fld new, false)

/-- Every field of a register, in table order. -/
def fieldsWrite (lk : Bool) (a : Nat) (data : W32) : List FieldDesc → Dev → Bool → Dev × Bool
  | [], d, v => (d, v)
  | f :: fs, d, v =>
    let r := fieldWrite lk a data d f
    fieldsWrite lk a data fs r.1 (v || r.2)

/-- The address of the control that locks the register at `a`, of a block instance at `base`. -/
def lockAddr (base a : Nat) (r : RegDesc) : Nat := if r.lockMoves then a - (r.off - r.lock) else base + r.lock

/-- A software write of `data` to the register at `a`: every field that has no row of its own, under its access type
(R43 to R46), with one lock-violation report if a locked field would change. An unoccupied offset takes no effect
(R9), a counter is cleared (R47), a sub-port that the mode does not create ignores the write (R73), and an ignored
gate list write is counted (R178, R181). -/
def writeFields (d : Dev) (p : Path) (a : Nat) (data : W32) : Dev :=
  if d.absentSub a then d
  else match counterAt a with
    | some (wide, low) => d.clearCount (if wide && !low then a - 4 else a)
    | none =>
      match regAt a with
      | none => d
      | some (base, r) =>
        if d.gateListBlocked a then d.inc TM_CNT_GATE_CFG_VIOL
        else
          -- R100: a fetch in the cycle of the write returns the old word; the write makes the word sound (R101)
          let k := (a - 0x200000) / 0x20000
          let isImem := decide (0x200000 ≤ a) && decide (a < 0x300000) && decide (0x10000 ≤ a % 0x20000)
          let d := if isImem then
              let old := tabGet (fun _ => none) d.reg.imemOld a
              let d := { d with reg := { d.reg with
                  imemOld := tabSet (fun _ => none) d.reg.imemOld a
                    (some (old.getD (d.rd a, (d.pst k).imemBad.contains (a % 0x10000 / 4)))) } }
              d.setPst k { d.pst k with imemBad := (d.pst k).imemBad.filter (· ≠ a % 0x10000 / 4) }
            else d
          -- R178: a write of IDLE_GATES acts from the next cycle on
          let d := match gateRegsAt a with
            | some g => if a = gateCtrl g + 0x1C then d.leaveView g (d.cycle + 1) else d
            | none => d
          -- R136: a lookup of this cycle uses the old bounds
          let d := if decide (0x200000 ≤ a) && decide (a < 0x300000) && decide (0x400 ≤ a % 0x20000) &&
              decide (a % 0x20000 < 0x600) && a % 8 == 4 then { d with marks := .tableWrite :: d.marks } else d
          let res := fieldsWrite (d.locked (lockAddr base a r)) a data r.fields d false
          if res.2 then res.1.reportViol p a else res.1

/-- The value that a read of the register at `a` returns, for a register without a read side effect (R43): WO reads
0; the high half of a 64-bit counter returns its latch (R47); the latched time registers read their latches (R198). -/
def peek (d : Dev) (a : Nat) : Nat :=
  if d.absentSub a then 0
  else match counterAt a with
    | some (true, true) => tabGet (fun _ => 0) d.reg.cnt a % 2 ^ 32
    | some (true, false) => tabGet (fun _ => 0) d.reg.latch (a - 4)
    | some (false, _) => tabGet (fun _ => 0) d.reg.cnt a
    | none =>
      if a = TIME_NOW_FRAC then d.time.net / 2 ^ 32 % 2 ^ 16
      else if a = TIME_NOW_NS then d.time.nowLatch % 10 ^ 9
      else if a = TIME_NOW_S_LO then d.time.nowLatch / 10 ^ 9 % 2 ^ 32
      else if a = TIME_NOW_S_HI then d.time.nowLatch / 10 ^ 9 / 2 ^ 32 % 2 ^ 16
      else if a = TIME_PPS_IN_FRAC then d.time.ppsIn / 2 ^ 32 % 2 ^ 16
      else if a = TIME_PPS_IN_NS then d.time.ppsLatch / 2 ^ 48 % 10 ^ 9
      else if a = TIME_PPS_IN_S_LO then d.time.ppsLatch / 2 ^ 48 / 10 ^ 9 % 2 ^ 32
      else if a = TIME_PPS_IN_S_HI then d.time.ppsLatch / 2 ^ 48 / 10 ^ 9 / 2 ^ 32 % 2 ^ 16
      else (d.rd a).toNat

/-- The side effect of a read of the register at `a`: a low half loads the high-half latch (R47), and a read of a
FRAC register latches the other three (R198). -/
def readSide (d : Dev) (a : Nat) : Dev :=
  if d.absentSub a then d
  else match counterAt a with
    | some (true, true) =>
      { d with reg := { d.reg with
          latch := tabSet (fun _ => 0) d.reg.latch a (tabGet (fun _ => 0) d.reg.cnt a / 2 ^ 32) } }
    | _ =>
      if a = TIME_NOW_FRAC then { d with time := { d.time with nowLatch := d.netNs } }
      else if a = TIME_PPS_IN_FRAC then { d with time := { d.time with ppsLatch := d.time.ppsIn } }
      else d

end Dev

/-! ### The reports of lock violations -/

/-- LOCK_VIOL_REPORT (R50, R503): the oldest report reaches GLB. -/
def doLockViolReport (d : Dev) : Dev :=
  match d.reg.viol with
  | [] => d
  | r :: rs =>
    let now := Dev.nocOf d.cycle
    -- R50: of the reports of one cycle, the last in the order of R29 stands in OFFSET and PATH
    let behind := match d.reg.violLast with
      | some (c, p) => c == now && decide (r.path.code < p)
      | none => false
    let d := { d with reg := { d.reg with viol := rs, violLast := if behind then d.reg.violLast else some (now, r.path.code) } }
    let d := if behind then d else (d.put GLB_LOCK_VIOL_ADDR_OFFSET r.addr).put GLB_LOCK_VIOL_SRC_PATH r.path.code
    (d.setEvent GLB_LOCK_VIOL_SRC_VALID).inc GLB_LOCK_VIOL_CNT

end Sys2Proof.Machine
end

