-- ==== Sys2Proof/Machine/Clock.lean ====
section
/-!
DEFINITION. The passing of a PIPE cycle, and the order of what meets in one cycle: where the manual has one event served
before another of the same cycle and the queue brings it after it, it belongs to a later cycle, and the clock passes first
(notes/assumptions/6).
-/

namespace Sys2Proof.Machine

/-- PIPE cycles of a second, a millisecond and a microsecond. -/
def cyS : Nat := 3000000000
def cyMs : Nat := 3000000
def cyUs : Nat := 3000

/-- 96 GiB: the size of the HBM. -/
def hbmSize : Nat := 96 * 2 ^ 30

namespace Dev

/-! ### The kiln port (R208, R209) -/

/-- The core of a thread; the management cores are 128 and 129. -/
def coreOf (t : Nat) : Nat := if t < 1024 then t / 8 else 128 + (t - 1024)

def coreSt (d : Dev) (c : Nat) : CoreSt := tabGet (fun _ => .reset) d.core.cores c
def setCoreSt (d : Dev) (c : Nat) (x : CoreSt) : Dev :=
  { d with core := { d.core with cores := tabSet (fun _ => .reset) d.core.cores c x } }

/-- Whether this cycle of a kiln's port belongs to core `c`. -/
def portSlot (d : Dev) (c : Nat) : Bool := d.cycle % 4 == c % 4

/-- Core `c` uses its slot outward. -/
def portSent (d : Dev) (c : Nat) : Dev := d.setCoreSt c { d.coreSt c with portOut := d.cycle + 1 }

/-- The requests of core `c` that wait to leave: since when, and the thread, none for a line that it writes back (R208). -/
def portWaits (d : Dev) (c : Nat) : List (Nat × Option Nat) :=
  (d.core.threads.flatMap fun kv =>
    if coreOf kv.1 = c then
      kv.2.missed.filterMap fun m => if m.port && m.entered && !m.sent then some (m.since, some kv.1) else none
    else []) ++ (d.coreSt c).wbacks.map fun s => (s, none)

/-- Whether a message from core `c` that leaves its kiln has waited since before cycle `s`. -/
def olderMsg (d : Dev) (c s : Nat) : Bool :=
  d.core.chans.any fun kv => kv.2.any fun x =>
    coreOf x.srcT == c && (decide (1024 ≤ x.dstT) || x.dstT / 32 != x.srcT / 32) && x.since.any fun m => decide (m < s)

/-- Whether core `c` may send, in this cycle, what has waited since `since`: its slot is free, and no request and no message of
another channel is older (R209). -/
def portFor (d : Dev) (c since : Nat) : Bool :=
  d.portSlot c && decide ((d.coreSt c).portOut ≤ d.cycle) && ((d.portWaits c).all fun w => decide (since ≤ w.1)) &&
    !d.olderMsg c since

/-- Whether the crossing between kiln `k` and the mesh waits for reconnection, its quadrant's or its own (R425, R426). -/
def kilnCut (d : Dev) (k : Nat) : Bool :=
  d.pkg.severed.any fun x => match x with | .core q => q.val == k / 8 | .kiln j => j.val == k | _ => false

/-- Whether kiln `k` sends nothing: its bump is pending (R36), or its crossing is severed (R425). -/
def kilnMute (d : Dev) (k : Nat) : Bool := d.flag (RAS_KILN_FIRING_BUMP_PENDING k) || d.kilnCut k

/-- The oldest request of core `c` leaves in its slot with its kiln's number (R33), unless a message uses it or has waited longer; a
store to the packet window is then done. -/
def portServe (d : Dev) (c : Nat) : Dev :=
  match (d.portWaits c).foldl (fun b w => match b with | none => some w | some x => if w.1 < x.1 then some w else b) none with
  | none => d
  | some (s, who) =>
    if decide (d.cycle < (d.coreSt c).portOut) || d.olderMsg c s || d.kilnMute (c / 4) then d
    else
      let d := d.portSent c
      match who with
      | none => d.setCoreSt c { d.coreSt c with wbacks := (d.coreSt c).wbacks.erase s }
      | some t =>
        let tag := some (t / 32, d.get (RAS_KILN_FIRING_FIRING (t / 32)))
        let go := fun (ms : List Miss) =>
          match ms.findIdx? fun m => m.port && m.entered && !m.sent && m.since == s with
          | none => ms
          | some i => (ms.mapIdx fun j m => if i = j then { m with sent := true, tag := tag } else m).filter
              fun m => !(m.sent && m.store && decide (hbmSize ≤ 64 * m.line))
        { d with core := { d.core with threads := tabMod (fun _ => .reset) d.core.threads t fun x => { x with missed := go x.missed } } }

/-- How many entries of the miss buffer a thread holds. -/
def entriesOf (x : Thread) : Nat := (x.missed.filter (·.entered)).length

/-- Whether the miss buffer has an entry for a thread (R209): one of its own two, or one of the 16 that its core shares. -/
def entryFree (d : Dev) (t : Nat) : Bool :=
  let shared := d.core.threads.foldl (fun s kv => if coreOf kv.1 = coreOf t then s + (entriesOf kv.2 - 2) else s) 0
  decide (entriesOf (tabGet (fun _ => .reset) d.core.threads t) < 2) || decide (shared < 16)

/-- The oldest store of each thread that waits in its store buffer takes an entry of the miss buffer, where one is free (R238). -/
def enterStores (d : Dev) : Dev :=
  (d.core.threads.filter fun kv => kv.2.missed.any fun m => !m.entered).foldl (fun d kv =>
    if d.entryFree kv.1 then
      { d with core := { d.core with threads := tabMod (fun _ => .reset) d.core.threads kv.1 fun x => { x with
          missed := match x.missed.findIdx? fun m => !m.entered with
            | some i => x.missed.mapIdx fun j m => if i = j then { m with entered := true } else m
            | none => x.missed } } }
    else d) d

/-- The kiln ports in one cycle: every core whose slot it is sends its oldest request, and a message that could have left
waits since then. -/
def portTick (d : Dev) : Dev :=
  let d := d.enterStores
  let d := ((d.core.threads.map fun kv => coreOf kv.1).dedup.filter fun c => decide (c < 128) && d.portSlot c).foldl portServe d
  let ready := fun (x : Channel) => decide (0 < x.credits) &&
    !(tabGet (fun _ => []) (tabGet (fun _ => .reset) d.core.threads x.srcT).tx x.srcEp).isEmpty
  { d with core := { d.core with chans := tabMapAll (fun _ => none) d.core.chans fun _ x => x.map fun x =>
      { x with since := if ready x then some (x.since.getD d.cycle) else none } } }

/-- What is noted of a cycle of a slower domain stays noted until that one ends. -/
def staysMarked (c : Nat) : Mark → Bool
  | .wrote k _ _ _ => k == nocOf c
  | .busStop _ k => k == hifOf c
  | .relAsked _ k => k == hifOf c
  | _ => false

/-- One PIPE cycle passes: every third, the TIME counter advances, while its PLL holds lock (R421), by 1 ns + FREQ_ADJ × 2^-32 ns (R187), the elapsed
holdover seconds follow (R192), a gate's rule that was written takes effect (R178), each core's slot of its kiln port is used (R208),
and the notes of the past cycle are cleared (R48). -/
def tick (d : Dev) : Dev :=
  let d := d.portTick
  let d : Dev := { d with
    cycle := d.cycle + 1, marks := d.marks.filter (staysMarked (d.cycle + 1))
    reg := { d.reg with
      justSet := sameCycle d.cycle d.reg.justSet, justInc := sameCycle d.cycle d.reg.justInc
      swWrote := sameCycle d.cycle d.reg.swWrote, imemOld := []
      turn := if nocOf (d.cycle + 1) = nocOf d.cycle then d.reg.turn else 0 } }
  let d : Dev := if d.cycle % 3 = 0 then
      let gain := if d.flag CLK_PLL_STATUS_TIME_LOCK then
        ((2 : Int) ^ 48 + signedOf 32 (d.get TIME_FREQ_ADJ_ADJ) * 2 ^ 16).toNat else 0
      let d := if gain = d.time.gain then d else d.leaveCount (d.cycle - 1)
      { d with time := { d.time with net := (d.time.net + gain) % (2 ^ 96 * 10 ^ 9), gain := gain } }
    else d
  let d := if d.get TIME_SYNC_STATE = 2 then
      d.put TIME_HOLD_ELAPSED_S (Nat.min 65535 ((d.cycle - d.time.since) / cyS))
    else d
  d.syncLate

/-! ### The order within a cycle -/

/-- Notes an event of the present cycle. -/
def mark (d : Dev) (m : Mark) : Dev := { d with marks := m :: d.marks }

/-- Whether an event has been noted in the present cycle. -/
def marked (d : Dev) (m : Mark) : Bool := d.marks.contains m

/-- An event that the manual serves before `m` where the two meet in one cycle: after `m`, it belongs to the next. -/
def before (d : Dev) (m : Mark) : Dev := if d.marked m then d.tick else d

/-- The same for an admission: pipelines admit in ascending order, each after those below it (R149, R154). -/
def afterPipes (d : Dev) (k : Nat) : Dev :=
  if d.marks.any (fun m => match m with | .admission j => decide (k < j) | _ => false) then d.tick else d

/-- Cells are freed before any frame is admitted (R154). -/
def beforeAdmits (d : Dev) : Dev := if d.marks.any (fun m => match m with | .admission _ => true | _ => false) then d.tick else d

/-- The next cycle of the NOC begins, one or two PIPE cycles on. -/
def nextNoc (d : Dev) : Dev :=
  let e := d.tick
  if nocOf e.cycle = nocOf d.cycle then e.tick else e

/-- The next cycle of the HIF domain begins, one to three PIPE cycles on. -/
def nextHif (d : Dev) : Dev := (List.range (3 - d.cycle % 3)).foldl (fun d _ => d.tick) d

/-- A write to the HBM by an agent of a place in the order of R248: after one of a later agent to the same line in its cycle of
the NOC, it is a write of the next. -/
def inWriteOrder (d : Dev) (order a n : Nat) : Dev :=
  let after := fun (k : Mark) => match k with
    | .wrote c o b m =>
      c == nocOf d.cycle && decide (order < o) && decide (a / 64 ≤ (b + m - 1) / 64) && decide (b / 64 ≤ (a + n - 1) / 64)
    | _ => false
  let d := if d.marks.any after then d.nextNoc else d
  d.mark (.wrote (nocOf d.cycle) order a n)

/-- The next cycle of the home domain of the register at `a` begins: AON's is the longest, of 20 PIPE cycles at most. -/
def nextHome (d : Dev) (a : Nat) : Dev :=
  (List.range 20).foldl (fun x _ => if homeCycle a x.cycle = homeCycle a d.cycle then x.tick else x) d

/-- A read of the register at `a` comes: it samples what stood before the updates of its cycle, so that where hardware has set or
counted in this one, it is a read of the next (R419). -/
def sample (d : Dev) (a : Nat) : Dev :=
  let k := match counterAt a with | some (true, false) => a - 4 | _ => a
  if (tabGet (fun _ => 0#32) d.reg.justSet a) ≠ 0 ∨ tabGet (fun _ => 0) d.reg.justInc k ≠ 0 then d.nextHome a else d

/-- A register read: the value returned, and the device after it. -/
def regRead (d : Dev) (a : Nat) : Nat × Dev :=
  let d := d.sample a
  (d.peek a, d.readSide a)

/-- An access of a path to register space: in each NOC cycle they are served in the order of R29, so one of an earlier path
that comes after one of a later path is an access of the next cycle. -/
def inTurn (d : Dev) (p : Path) : Dev :=
  let d := if p.code < d.reg.turn then d.nextNoc else d
  { d with reg := { d.reg with turn := p.code } }

end Dev
end Sys2Proof.Machine
end

