-- ==== Sys2Proof/Machine/OwnerOps.lean ====
section
/-!
DEFINITION. Owners and firing numbers, the HBM and its access rights, the engine arbiters and rate buckets (chapters
Ownership, Memory System and Saggars).
-/

namespace Sys2Proof.Machine

/-- 16 µs in cycles: the least spacing of an owner's bumps (R36). -/
def bumpSpacing : Nat := 48000

/-! ### Storage entries -/

/-- The owner of a namespace entry (R413). -/
def NsEnt.owner (e : NsEnt) : Nat := bitsOf (fieldLE e.cfg 0 4) 0 11

/-- Fields of a controller entry (R415). -/
def Nvme.enabled (c : Nvme) : Bool := bitOf (fieldLE c.cfg 0 4) 31
def Nvme.svcThreads (c : Nvme) : Nat := bitsOf (fieldLE c.cfg 0 4) 0 4

namespace Dev

/-! ### Access to the parts of the state -/

def nvme (d : Dev) (s : Nat) : Nvme := tabGet (fun _ => .reset) d.sto.ctl s
def setNvme (d : Dev) (s : Nat) (c : Nvme) : Dev :=
  { d with sto := { d.sto with ctl := tabSet (fun _ => .reset) d.sto.ctl s c } }
def modNvme (d : Dev) (s : Nat) (f : Nvme → Nvme) : Dev := d.setNvme s (f (d.nvme s))

def sagOf (d : Dev) (s : Nat) : Sag := tabGet (fun _ => .reset) d.sag.sags s
def setSag (d : Dev) (s : Nat) (x : Sag) : Dev :=
  { d with sag := { d.sag with sags := tabSet (fun _ => .reset) d.sag.sags s x } }
def modSag (d : Dev) (s : Nat) (g : Sag → Sag) : Dev := d.setSag s (g (d.sagOf s))

def place (d : Dev) (q : Nat) : Place := tabGet (fun _ => .reset) d.core.places q
def setPlace (d : Dev) (q : Nat) (x : Place) : Dev :=
  { d with core := { d.core with places := tabSet (fun _ => .reset) d.core.places q x } }
def modPlace (d : Dev) (q : Nat) (g : Place → Place) : Dev := d.setPlace q (g (d.place q))

def thread (d : Dev) (t : Nat) : Thread := tabGet (fun _ => .reset) d.core.threads t
def setThread (d : Dev) (t : Nat) (x : Thread) : Dev :=
  { d with core := { d.core with threads := tabSet (fun _ => .reset) d.core.threads t x } }
def modThread (d : Dev) (t : Nat) (g : Thread → Thread) : Dev := d.setThread t (g (d.thread t))

def chan (d : Dev) (g : Nat) : Chan := tabGet (fun _ => .reset) d.dma.chans g
def setChan (d : Dev) (g : Nat) (x : Chan) : Dev :=
  { d with dma := { d.dma with chans := tabSet (fun _ => .reset) d.dma.chans g x } }
def modChan (d : Dev) (g : Nat) (f : Chan → Chan) : Dev := d.setChan g (f (d.chan g))

def deng (d : Dev) (n : Nat) : DmaEng := tabGet (fun _ => .reset) d.dma.engs n
def setDeng (d : Dev) (n : Nat) (x : DmaEng) : Dev :=
  { d with dma := { d.dma with engs := tabSet (fun _ => .reset) d.dma.engs n x } }
def modDeng (d : Dev) (n : Nat) (f : DmaEng → DmaEng) : Dev := d.setDeng n (f (d.deng n))

/-! ### Owners (R32 to R39) -/

/-- An owner's current firing number, at its comparison point. -/
def firing (d : Dev) : Owner → Nat
  | .saggar s => d.get (SAG_FIRING_FIRING s)
  | .chan g => d.get (DMA_CH_FIRING_FIRING (g / 256) (g % 256))
  | .kiln k => d.get (RAS_KILN_FIRING_FIRING k)
  | .place q => (d.place q).firing

/-- BUMP_PENDING of an owner. -/
def bumpPending (d : Dev) : Owner → Bool
  | .saggar s => d.flag (SAG_FIRING_BUMP_PENDING s)
  | .chan g => d.flag (DMA_CH_FIRING_BUMP_PENDING (g / 256) (g % 256))
  | .kiln k => d.flag (RAS_KILN_FIRING_BUMP_PENDING k)
  | .place q => (d.place q).pending

/-- Sets an owner's number and BUMP_PENDING. -/
def setFiring (d : Dev) (o : Owner) (n : Nat) (p : Bool) : Dev :=
  match o with
  | .saggar s => (d.put (SAG_FIRING_FIRING s) n).put (SAG_FIRING_BUMP_PENDING s) (b2n p)
  | .chan g => (d.put (DMA_CH_FIRING_FIRING (g / 256) (g % 256)) n).put
      (DMA_CH_FIRING_BUMP_PENDING (g / 256) (g % 256)) (b2n p)
  | .kiln k => (d.put (RAS_KILN_FIRING_FIRING k) n).put (RAS_KILN_FIRING_BUMP_PENDING k) (b2n p)
  | .place q => d.modPlace q fun x => { x with firing := n, pending := p }

/-- The cycle of an owner's last bump. -/
def lastBump (d : Dev) (o : Owner) : Option Nat := tabGet (fun _ => none) d.own.last o.key

/-- The firing number a channel's items carry, and the saggar it belongs to under TAG_SAGGAR (R353). -/
def chTag (d : Dev) (g : Nat) : Nat × Option Nat :=
  if d.flag (DMA_CH_CFG_TAG_SAGGAR (g / 256) (g % 256)) then
    let s := d.get (DMA_CH_OWNER_OWNER (g / 256) (g % 256))
    (d.firing (.saggar s), some s)
  else (d.firing (.chan g), none)

/-- The owner whose number an item carries. -/
def tagOwner (g : Nat) : Option Nat → Owner
  | some s => .saggar s
  | none => .chan g

/-- A job of owner `o` issued in cycle `c` carries the number `n`. -/
def retagJob (c : Nat) (o : Owner) (n : Nat) (j : Job) : Job :=
  if j.handed = c ∧ tagOwner j.chan j.tagSag = o then { j with firing := n } else j

/-- The items of an owner that were issued in this cycle carry its new number `n` (R36): reads, writes and jobs of a channel
or for a saggar, storage commands, their completions and writes of a saggar, messages and credits of a kiln, and frames, handles and
markers of a placement entry. -/
def retagIssued (d : Dev) (o : Owner) (n : Nat) : Dev :=
  let c := d.cycle
  let job := retagJob c o n
  let read := fun (r : Read) => if r.issued = c ∧ tagOwner r.chan r.sag = o then { r with firing := n } else r
  let write := fun (w : PWrite) => match w.tag with
    | some (p, _) => if w.at_ = c ∧ p = o then { w with tag := some (o, n) } else w
    | none => w
  let flight := fun (f : Flight) => match f.kiln with
    | some (k, _) => if f.at_ = c ∧ o = .kiln k then { f with kiln := some (k, n) } else f
    | none => f
  let credit := fun (m : Credit) => match m.kiln with
    | some (k, _) => if m.at_ = c ∧ o = .kiln k then { m with kiln := some (k, n) } else m
    | none => m
  let handle := fun (t : Nat) (h : W64) =>
    if d.core.given.any fun g => g.at_ == c && g.thread == t && g.place.any (fun (q, _) => o == .place q) &&
        bitsOf h.toNat 39 1 == 0 && bitsOf h.toNat 0 20 == g.cell then
      BitVec.ofNat 64 (n * 2 ^ 40 + h.toNat % 2 ^ 40)
    else h
  let place := fun (i : Nat) (p : Option (Nat × Nat)) => match p with
    | some (q, _) => if d.marked (.placed i) = true ∧ o = .place q then some (q, n) else p
    | none => p
  { d with
    dma := { d.dma with engs := tabMapAll (fun _ => .reset) d.dma.engs fun _ e => { e with reads := e.reads.map read } }
    hif := { d.hif with links := tabMapAll (fun _ => .reset) d.hif.links fun _ x => { x with
      unacked := x.unacked.map write, abandoned := x.abandoned.map write
      xwait := x.xwait.map write
      outq := x.outq.map fun r => match r with | .write w => .write (write w) | r => r } }
    glz := { d.glz with
      jobs := d.glz.jobs.map fun x => { x with job := job x.job }
      engines := tabMapAll (fun _ => none) d.glz.engines fun _ r => r.map fun r => { r with work := match r.work with
        | .job x => .job { x with job := job x.job }
        | w => w } }
    pke := { d.pke with
      jobs := d.pke.jobs.map job
      hdrs := d.pke.hdrs.map fun h => (job h.1, h.2)
      units := tabMapAll (fun _ => none) d.pke.units fun _ r => r.map fun r => { r with job := job r.job } }
    tbl := { d.tbl with jobs := d.tbl.jobs.map job }
    core := { d.core with
      jobs := d.core.jobs.map job
      chans := tabMapAll (fun _ => none) d.core.chans fun _ x => x.map fun x => { x with
        msgs := x.msgs.map flight, creds := x.creds.map credit, unbind := x.unbind.map fun u => (u.1, job u.2) }
      given := d.core.given.map fun g => { g with place := if g.at_ = c then g.place.map fun (q, m) => (q, if o = .place q then n else m) else g.place }
      threads := tabMapAll (fun _ => .reset) d.core.threads fun t x => { x with
        inbox := x.inbox.map (handle t)
        x := x.x.mapIdx fun r v => if r ≠ 0 ∧ d.marked (.handed t r) = true then handle t v else v }
      markers := d.core.markers.map fun m => if m.at_ = c ∧ o = .place m.entry then { m with firing := n } else m }
    frames := tabMapAll (fun _ => none) d.frames fun i f => f.map fun f => { f with placement := place i f.placement }
    sto := { d.sto with
      ctl := tabMapAll (fun _ => .reset) d.sto.ctl fun s x => if o = .saggar s then { x with
          cmds := x.cmds.map fun y => if y.at_ = c then { y with firing := n } else y
          cqes := x.cqes.map fun y => if y.at_ = c then { y with firing := n } else y
          cache := x.cache.map fun y => if y.at_ = c then { y with firing := n } else y }
        else x
      ns := tabMapAll (fun _ => .reset) d.sto.ns fun _ e => if o = .saggar e.owner then { e with jnl := { e.jnl with
          chained := e.jnl.chained.map fun y => if y.at_ = c then { y with firing := n } else y } }
        else e } }

/-- Increments an owner's number by 1 modulo 2^24 (R34); the bump comes before everything issued in its cycle (R36). -/
def applyBump (d : Dev) (o : Owner) : Dev :=
  let n := (d.firing o + 1) % 2 ^ 24
  let d := (d.setFiring o n false).retagIssued o n
  { d with own := { d.own with last := tabSet (fun _ => none) d.own.last o.key (some d.cycle) } }

/-- A bump event (R36): 16 µs after the last bump it bumps in the same cycle, before that it is held pending; a second
event in the cycle of a bump, or while one is pending, is served by that bump. -/
def bumpOwner (d : Dev) (o : Owner) : Dev :=
  if d.bumpPending o then d
  else match d.lastBump o with
    | none => d.applyBump o
    | some c =>
      if c = d.cycle then d
      else if c + bumpSpacing ≤ d.cycle then d.applyBump o
      else d.setFiring o (d.firing o) true

/-- An item that carries a stale number is discarded silently and counted (R39). -/
def lateDiscard (d : Dev) : Owner → Dev
  | .saggar s => d.inc (SAG_LATE_DISCARD s)
  | .chan g => d.inc (DMA_CH_LATE_DISCARD (g / 256) (g % 256))
  | .kiln k => d.inc (RAS_KILN_LATE_DISCARD k)
  | .place q => d.modPlace q fun x => { x with late := satAdd 32 x.late 1 }

/-! ### The HBM -/

/-- What an unlisted byte of the HBM reads as: zero, or after a package reset a value that nothing fixes (R429). -/
def hbmBlank (d : Dev) (a : Nat) : Byte := if d.mem.era = 0 then 0#8 else Config.hbmAfterReset d.mem.era a

/-- One byte of the HBM. -/
def hbmByte (d : Dev) (a : Nat) : Byte := tabGet d.hbmBlank d.mem.hbm a

/-- `n` bytes of the HBM. -/
def hbmRead (d : Dev) (a n : Nat) : List Byte := (List.range n).map fun i => d.hbmByte (a + i)

/-- Bytes laid into a memory from an address; the byte that an unlisted address reads as is not listed. -/
def layBytes : List (Nat × Byte) → Nat → List Byte → List (Nat × Byte)
  | m, _, [] => m
  | m, a, b :: bs => layBytes (tabSet (fun _ => 0#8) m a b) (a + 1) bs

/-- Bytes laid into a memory whose unlisted bytes are not known. -/
def listBytes : List (Nat × Byte) → Nat → List Byte → List (Nat × Byte)
  | m, _, [] => m
  | m, a, b :: bs => listBytes (tabInsert m a b) (a + 1) bs

/-- Bytes written to the HBM's cells. -/
def hbmLay (m : MemState) (a : Nat) (bs : List Byte) : List (Nat × Byte) :=
  if m.era = 0 then layBytes m.hbm a bs else listBytes m.hbm a bs

/-- The saggars that are not FREE, in number order: those whose SAG_STATUS register is listed with a state other than
0. -/
def liveSags (d : Dev) : List Nat :=
  d.reg.regs.filterMap fun kv =>
    let s := (kv.1 - SAG_STATUS 0) / 0x800
    if s < 2048 ∧ kv.1 = SAG_STATUS s ∧ d.get (SAG_STATUS_STATE s) ≠ 0 then some s else none

/-- The saggar whose HBM range holds page `k`, while it is not FREE (R366). -/
def pageOwner (d : Dev) (k : Nat) : Option Nat :=
  d.liveSags.find? fun s =>
    decide (d.get (SAG_HBM_BASE_BASE s) ≤ k) &&
      decide (k < d.get (SAG_HBM_BASE_BASE s) + d.get (SAG_HBM_PAGES_PAGES s))

/-- Every bump of a saggar's reset or restore is done: its own, its channels' and its placement entries' (R374). -/
def sagBumped (d : Dev) (s : Nat) : Bool :=
  let b := d.get (SAG_QUEUES_BASE s)
  !d.bumpPending (.saggar s) && (d.dma.chans.all fun kv => kv.2.allot != some s || !d.bumpPending (.chan kv.1)) &&
  d.core.places.all fun kv => !(decide (b ≤ kv.1) && decide (kv.1 < b + d.get (SAG_QUEUES_COUNT s)) && kv.2.pending)

/-- Whether queue `q` lies in the range of a saggar whose reset sweeps (R375). -/
def sweptQueue (d : Dev) (q : Nat) : Bool :=
  d.liveSags.any fun s => d.get (SAG_STATUS_STATE s) == 4 && decide (d.get (SAG_QUEUES_BASE s) ≤ q) &&
    decide (q < d.get (SAG_QUEUES_BASE s) + d.get (SAG_QUEUES_COUNT s)) && d.sagBumped s

/-- A thread on which the storage service runs: one of the lowest SVC_THREADS of the range of a saggar whose controller is enabled
(R386). -/
def svcThread (d : Dev) (t : Nat) : Bool :=
  d.flag STO_CTRL_ENABLE && d.liveSags.any fun s =>
    let b := d.get (SAG_THREADS_BASE s)
    let c := d.nvme s
    c.enabled && decide (b ≤ t) && decide (t < b + Nat.min c.svcThreads (d.get (SAG_THREADS_COUNT s)))

/-- The saggar that owns group `g`: it lies in its range while it is not FREE (R366). -/
def groupSag (d : Dev) (g : Nat) : Option Nat :=
  d.liveSags.find? fun s =>
    decide (d.get (SAG_GROUPS_BASE s) ≤ g) &&
      decide (g < d.get (SAG_GROUPS_BASE s) + d.get (SAG_GROUPS_COUNT s))

/-- A write marks its granules in the dirty log of the saggar that owns the page (R383). -/
def markDirty (d : Dev) (a n : Nat) : Dev :=
  d.liveSags.foldl (fun d s =>
    if !d.flag (SAG_STATUS_DIRTY_ON s) then d
    else
      let base := d.get (SAG_HBM_BASE_BASE s) * 2 ^ 21
      let size := d.get (SAG_HBM_PAGES_PAGES s) * 2 ^ 21
      let lo := Nat.max a base
      let hi := Nat.min (a + n) (base + size)
      if hi ≤ lo then d
      else
        let g0 := (lo - base) / 4096
        let g1 := (hi - 1 - base) / 4096
        d.modSag s fun x => { x with dirty := (List.range (g1 - g0 + 1)).foldl (fun t i =>
          tabMod (fun _ => 0#8) t ((g0 + i) / 8) (· ||| BitVec.ofNat 8 (2 ^ ((g0 + i) % 8)))) x.dirty }) d

/-- The place in the order of R248 of a core's store, of an SC that succeeds, and of an IO-die unit's write, whose requester ID
the manual gives only from 34 up: the class of R249 first, then the requester ID. -/
def orderCore (id : Nat) : Nat := 2 * 64 + id
def orderSc : Nat := 2 * 64 + 63
def orderIo : Nat := 3 * 64 + 34

/-- The requester ID of a thread's kiln or management core (R248). -/
def requester (t : Nat) : Nat := if t < 1024 then t / 32 else 32 + (t - 1024)

/-- An access of an agent of requester ID `id` recalls the lines that another holds Modified, and its reservations of them end
(R237, R247; notes/assumptions/8). -/
def recallLines (d : Dev) (id : Nat) (a n : Nat) : Dev :=
  let hit := fun l => decide (a / 64 ≤ l) && decide (l ≤ (a + n - 1) / 64)
  let lost := d.mem.modified.filter fun kv => hit kv.1 && kv.2 != some id
  if lost.isEmpty then d
  else { d with
    mem := { d.mem with modified := d.mem.modified.filter fun kv => !lost.contains kv }
    core := { d.core with threads := tabMapAll (fun _ => .reset) d.core.threads fun t x =>
      match x.resv with
      | some l => if lost.contains (l, some (requester t)) then { x with resv := none } else x
      | none => x } }

/-- A read of the HBM by an IO-die unit. -/
def ioRead (d : Dev) (a n : Nat) : Dev := d.recallLines 34 a n

/-- The same at a Tearell address: in the HBM, or in host memory. -/
def ioReadT (d : Dev) (a n : Nat) : Dev := if 2 ^ 63 ≤ a then d.ioRead (a - 2 ^ 63) n else d

/-- A write to the HBM by an agent of a place in the order of R248: it invalidates the cached copies (R236), clears the
reservations of every line it touches (R247), clears the poison of a line that it covers whole (R248), and marks the dirty
logs. -/
def hbmWriteAs (order : Nat) (d : Dev) (a : Nat) (bs : List Byte) : Dev :=
  if bs.isEmpty then d
  else
    let n := bs.length
    let d := d.inWriteOrder order a n
    let touched := fun l => decide (a / 64 ≤ l) && decide (l ≤ (a + n - 1) / 64)
    let whole := fun l => decide (a ≤ 64 * l) && decide (64 * l + 64 ≤ a + n)
    let d := { d with
      mem := { d.mem with
        hbm := hbmLay d.mem a bs, poison := d.mem.poison.filter (!whole ·), modified := d.mem.modified.filter fun kv => !touched kv.1 }
      core := { d.core with threads := tabMapAll (fun _ => .reset) d.core.threads fun _ t =>
        match t.resv with
        | some l => if touched l then { t with resv := none } else t
        | none => t } }
    d.markDirty a n

/-- A write to the HBM by an IO-die unit. -/
def hbmWrite (d : Dev) (a : Nat) (bs : List Byte) : Dev := d.hbmWriteAs orderIo a bs

/-- Whether a byte range touches a poisoned line. -/
def poisoned (d : Dev) (a n : Nat) : Bool := d.mem.poison.any fun l => decide (a / 64 ≤ l) && decide (l ≤ (a + n - 1) / 64)

/-- The key-context region: first byte (256 MiB long, R263). -/
def kcBase (d : Dev) : Nat := d.get GLZ_KC_BASE_UNIT * 2 ^ 28

/-- Whether a range meets the key-context region or the spill region. -/
def inKc (d : Dev) (a n : Nat) : Bool := decide (a < d.kcBase + 2 ^ 28) && decide (d.kcBase < a + n)
def inSpill (d : Dev) (a n : Nat) : Bool :=
  decide (a < (d.get BUF_SPILL_BASE_GIB + d.get BUF_SPILL_SIZE_GIB) * 2 ^ 30) &&
    decide (d.get BUF_SPILL_BASE_GIB * 2 ^ 30 < a + n) && d.get BUF_SPILL_SIZE_GIB != 0

/-- Whether HBM page `k` lies in a retired pseudo-channel (R468): k mod 32 of stack k / 12,288. -/
def pageRetired (d : Dev) (k : Nat) : Bool := bitOf (d.get (RAS_HBM_RETIRED_PC (k / 12288))) (k % 32)

/-- Whether a range of the HBM touches a retired page. -/
def retired (d : Dev) (a n : Nat) : Bool :=
  ((List.range 4).any fun w => d.get (RAS_HBM_RETIRED_PC w) != 0) && n != 0 &&
    (List.range ((a + n - 1) / 2 ^ 21 + 1 - a / 2 ^ 21)).any fun i => d.pageRetired (a / 2 ^ 21 + i)

/-- Whether an owner (a saggar, or none for the manager) may reach a range of the HBM (R263, R334, R366, R468). -/
def hbmAllowed (d : Dev) (owner : Option Nat) (a n : Nat) : Bool :=
  decide (a + n ≤ hbmSize) && !d.retired a n && match owner with
    | none => !d.inKc a n && !d.inSpill a n
    | some s =>
      let base := d.get (SAG_HBM_BASE_BASE s) * 2 ^ 21
      d.get (SAG_STATUS_STATE s) != 0 && !d.inKc a n && decide (base ≤ a) &&
        decide (a + n ≤ base + d.get (SAG_HBM_PAGES_PAGES s) * 2 ^ 21)

end Dev

/-! ### Arbiters (R371, R373) -/

/-- The arbiter kinds. -/
inductive ArbKind where
  | dma | glz | pke
  deriving DecidableEq, Repr

/-- The unit of a kind's quantum. -/
def ArbKind.unit : ArbKind → Nat
  | .dma => 1024 | .glz => 256 | .pke => 4096

/-- The manager participant. -/
def managerKid : Nat := 2048

/-- The child of an owner. -/
def kidOf : Option Nat → Nat
  | some s => s
  | none => managerKid

/-- A child that waits: number, quantum, cost of its next item. -/
structure Waiter where
  kid : Nat
  quantum : Nat
  head : Nat
  deriving DecidableEq, Repr

/-- One turn of the round: the child's deficit after a visit. -/
def Arb.visit (a : Arb) (w : Waiter) : ArbKid :=
  let k := tabGet (fun _ => ArbKid.reset) a.kids w.kid
  if k.visited && w.kid == a.cur then k else { deficit := k.deficit + w.quantum, visited := true }

/-- The choice of R168 among the waiting children, in index order from the one at the pointer. The quanta of whole rounds
in which nobody can be served are added in one step. The children `back` have items waiting but are not eligible: they keep their
deficit (R167). -/
def Arb.pick (a : Arb) (ws : List Waiter) (back : List Nat) : Option (Nat × Arb) :=
  let order := ws.filter (fun w => decide (a.cur ≤ w.kid)) ++ ws.filter (fun w => decide (w.kid < a.cur))
  -- children with nothing waiting lose their deficit
  let a := { a with kids := a.kids.filter fun kv => ws.any (·.kid == kv.1) || back.contains kv.1 }
  let round : Arb → Nat × Option Nat × Arb := fun a =>
    order.foldl (fun (acc : Nat × Option Nat × Arb) w =>
      match acc with
      | (n, some k, a) => (n, some k, a)
      | (n, none, a) =>
        let k := a.visit w
        if (w.head : Int) ≤ k.deficit then
          (n, some w.kid, { cur := w.kid, kids := tabSet (fun _ => .reset) a.kids w.kid k })
        else (n + 1, none, { cur := w.kid + 1, kids := tabSet (fun _ => .reset) a.kids w.kid { k with visited := false } }))
      (0, none, a)
  match ws with
  | [] => none
  | _ =>
    match round a with
    | (_, some k, a1) => some (k, a1)
    | (_, none, a1) =>
      let need := fun w : Waiter =>
        let k := tabGet (fun _ => ArbKid.reset) a1.kids w.kid
        ceilDiv ((w.head : Int) - k.deficit).toNat (Nat.max 1 w.quantum) - 1
      let r := order.foldl (fun m w => Nat.min m (need w)) (order.foldl (fun m w => m + need w) 0)
      let a2 := order.foldl (fun a w =>
        { a with kids := tabMod (fun _ => ArbKid.reset) a.kids w.kid fun k =>
            { k with deficit := k.deficit + (r * w.quantum : Nat) } }) a1
      match round a2 with
      | (_, some k, a3) => some (k, a3)
      | (_, none, _) => none

/-- A served item is taken from its child's deficit (R168). -/
def Arb.served (a : Arb) (kid : Nat) (cost : Int) : Arb :=
  { a with kids := tabMod (fun _ => ArbKid.reset) a.kids kid fun k => { k with deficit := k.deficit - cost } }

namespace Dev

/-- A saggar's rate registers at an arbiter kind: EN, RATE, BURST (R373). -/
def rateRegs (d : Dev) (k : ArbKind) (s : Nat) : Bool × Nat × Nat :=
  match k with
  | .dma => (d.flag (SAG_DMA_RL_EN s), d.get (SAG_DMA_RL_RATE s), d.get (SAG_DMA_BURST_BURST s))
  | .glz => (d.flag (SAG_GLZ_RL_EN s), d.get (SAG_GLZ_RL_RATE s), d.get (SAG_GLZ_BURST_BURST s))
  | .pke => (d.flag (SAG_PKE_RL_EN s), d.get (SAG_PKE_RL_RATE s), d.get (SAG_PKE_BURST_BURST s))

/-- A bucket after the tokens gained up to this cycle, capped at BURST. -/
def settleBucket (d : Dev) (k : ArbKind) (s : Nat) (b : RateBucket) : RateBucket :=
  let (_, rate, burst) := d.rateRegs k s
  ⟨min ((burst * 3000 : Nat) : Int) (b.tokens + ((d.cycle - b.at_) * rate : Nat)), d.cycle⟩

def bucketOf (x : Sag) : ArbKind → RateBucket
  | .dma => x.dma | .glz => x.glz | .pke => x.pke

def withBucket (x : Sag) (k : ArbKind) (b : RateBucket) : Sag :=
  match k with
  | .dma => { x with dma := b } | .glz => { x with glz := b } | .pke => { x with pke := b }

/-- Whether the rate limit of a saggar lets it be served (R373); the manager has none. -/
def rateOk (d : Dev) (k : ArbKind) : Option Nat → Bool
  | none => true
  | some s => !(d.rateRegs k s).1 || decide (0 ≤ (d.settleBucket k s (bucketOf (d.sagOf s) k)).tokens)

/-- The largest cost C of an item at an arbiter kind (R371). -/
def largestCost : ArbKind → Nat
  | .dma => 4096 | .glz => 243794216 | .pke => 383778816

/-- Debits a served item's cost, or refunds a negative one, capped at BURST and never below −C; the cost counter follows (R371,
R373). -/
def debitCost (d : Dev) (k : ArbKind) (owner : Option Nat) (cost : Int) : Dev :=
  match owner with
  | none => d
  | some s =>
    let b := d.settleBucket k s (bucketOf (d.sagOf s) k)
    let (_, _, burst) := d.rateRegs k s
    let b := { b with tokens := max (-((largestCost k * 3000 : Nat) : Int)) (min ((burst * 3000 : Nat) : Int) (b.tokens - cost * 3000)) }
    let d := d.modSag s fun x => withBucket x k b
    let c := match k with
      | .dma => SAG_CNT_DMA_COST s | .glz => SAG_CNT_GLZ_COST s | .pke => SAG_CNT_PKE_COST s
    if 0 ≤ cost then d.bump c cost.toNat
    else d.debump c (-cost).toNat

/-- WEIGHT of an owner (R371). -/
def weightOf (d : Dev) : Option Nat → Nat
  | none => 1024
  | some s => d.get (SAG_WEIGHT_WEIGHT s)

end Dev

/-- An arbiter decision among items (owner, cost), each child's next item first. A saggar over its rate limit is skipped
and counted in RL_HOLDS (R371, R373); `back` lists the children that wait without an item to serve now. The result is the owner
served. -/
def arbChoose (k : ArbKind) (items : List (Option Nat × Nat)) (back : List Nat) (a : Arb) (d : Dev) : Option (Option Nat × Arb) × Dev :=
  let held := items.filter fun i => !d.rateOk k i.1
  let d' := held.foldl (fun d i => match i.1 with | some s => d.inc (SAG_CNT_RL_HOLDS s) | none => d) d
  let ws := (items.filter fun i => d.rateOk k i.1).map fun i =>
    { kid := kidOf i.1, quantum := d.weightOf i.1 * k.unit, head := i.2 : Waiter }
  match a.pick (ws.insertionSort (fun a b => a.kid ≤ b.kid)) (back ++ held.map fun i => kidOf i.1) with
  | none => (none, d')
  | some (kid, a') => (some (if kid = managerKid then none else some kid, a'), d')

end Sys2Proof.Machine
end

