-- ==== Sys2Proof/Machine/RvIsa.lean ====
section
/-!
DEFINITION. The integer instruction set of the threads (R199): RV64I, M, C, Zba and Zbb as functions of an instruction
word and its operands, by the encodings of the RISC-V Unprivileged ISA 20191213 (notes/assumptions/26).
-/

namespace Sys2Proof.Machine

/-! ### Fields of a 32-bit word -/

def rvOp (w : Nat) : Nat := bitsOf w 0 7
def rvRd (w : Nat) : Nat := bitsOf w 7 5
def rvF3 (w : Nat) : Nat := bitsOf w 12 3
def rvRs1 (w : Nat) : Nat := bitsOf w 15 5
def rvRs2 (w : Nat) : Nat := bitsOf w 20 5
def rvF7 (w : Nat) : Nat := bitsOf w 25 7
def rvRs3 (w : Nat) : Nat := bitsOf w 27 5

/-- A number of `n` bits sign-extended to 64. -/
def sx (n x : Nat) : W64 := (BitVec.ofNat n x).signExtend 64

def immI (w : Nat) : W64 := sx 12 (bitsOf w 20 12)
def immS (w : Nat) : W64 := sx 12 (bitsOf w 25 7 * 32 + bitsOf w 7 5)
def immB (w : Nat) : W64 := sx 13 (bitsOf w 31 1 * 4096 + bitsOf w 7 1 * 2048 + bitsOf w 25 6 * 32 + bitsOf w 8 4 * 2)
def immU (w : Nat) : W64 := sx 32 (bitsOf w 12 20 * 4096)
def immJ (w : Nat) : W64 :=
  sx 21 (bitsOf w 31 1 * 2 ^ 20 + bitsOf w 12 8 * 4096 + bitsOf w 20 1 * 2048 + bitsOf w 21 10 * 2)

/-! ### Compressed instructions -/

def encR (op f3 f7 rd rs1 rs2 : Nat) : Nat := f7 * 2 ^ 25 + rs2 * 2 ^ 20 + rs1 * 2 ^ 15 + f3 * 2 ^ 12 + rd * 128 + op
def encI (op f3 rd rs1 imm : Nat) : Nat := imm % 4096 * 2 ^ 20 + rs1 * 2 ^ 15 + f3 * 2 ^ 12 + rd * 128 + op
def encS (op f3 rs1 rs2 imm : Nat) : Nat :=
  bitsOf imm 5 7 * 2 ^ 25 + rs2 * 2 ^ 20 + rs1 * 2 ^ 15 + f3 * 2 ^ 12 + bitsOf imm 0 5 * 128 + op
def encB (f3 rs1 rs2 imm : Nat) : Nat :=
  bitsOf imm 12 1 * 2 ^ 31 + bitsOf imm 5 6 * 2 ^ 25 + rs2 * 2 ^ 20 + rs1 * 2 ^ 15 + f3 * 2 ^ 12 +
    bitsOf imm 1 4 * 2 ^ 8 + bitsOf imm 11 1 * 128 + 0x63
def encJ (rd imm : Nat) : Nat :=
  bitsOf imm 20 1 * 2 ^ 31 + bitsOf imm 1 10 * 2 ^ 21 + bitsOf imm 11 1 * 2 ^ 20 + bitsOf imm 12 8 * 2 ^ 12 + rd * 128 + 0x6F

/-- An `n`-bit number as the same signed number in 32 bits. -/
def sgn32 (n x : Nat) : Nat := ((BitVec.ofNat n x).signExtend 32).toNat

/-- The 32-bit instruction that a compressed one stands for; none for an illegal or reserved one. -/
def expandC (c : Nat) : Option Nat :=
  let rdp := 8 + bitsOf c 2 3
  let rsp := 8 + bitsOf c 7 3
  let rd := bitsOf c 7 5
  let rs2 := bitsOf c 2 5
  let imm6 := bitsOf c 12 1 * 32 + bitsOf c 2 5
  let s6 := sgn32 6 imm6
  let ld := bitsOf c 10 3 * 8 + bitsOf c 5 2 * 64
  let lw := bitsOf c 10 3 * 8 + bitsOf c 6 1 * 4 + bitsOf c 5 1 * 64
  let ldsp := bitsOf c 12 1 * 32 + bitsOf c 5 2 * 8 + bitsOf c 2 3 * 64
  let lwsp := bitsOf c 12 1 * 32 + bitsOf c 4 3 * 4 + bitsOf c 2 2 * 64
  let sdsp := bitsOf c 10 3 * 8 + bitsOf c 7 3 * 64
  let swsp := bitsOf c 9 4 * 4 + bitsOf c 7 2 * 64
  match c % 4, bitsOf c 13 3 with
  | 0, 0 =>
    let u := bitsOf c 11 2 * 16 + bitsOf c 7 4 * 64 + bitsOf c 6 1 * 4 + bitsOf c 5 1 * 8
    if u = 0 then none else some (encI 0x13 0 rdp 2 u)
  | 0, 1 => some (encI 0x07 3 rdp rsp ld)
  | 0, 2 => some (encI 0x03 2 rdp rsp lw)
  | 0, 3 => some (encI 0x03 3 rdp rsp ld)
  | 0, 5 => some (encS 0x27 3 rsp rdp ld)
  | 0, 6 => some (encS 0x23 2 rsp rdp lw)
  | 0, 7 => some (encS 0x23 3 rsp rdp ld)
  | 1, 0 => some (encI 0x13 0 rd rd s6)
  | 1, 1 => if rd = 0 then none else some (encI 0x1B 0 rd rd s6)
  | 1, 2 => some (encI 0x13 0 rd 0 s6)
  | 1, 3 =>
    if imm6 = 0 then none
    else if rd = 2 then
      some (encI 0x13 0 2 2 (sgn32 10 (bitsOf c 12 1 * 512 + bitsOf c 6 1 * 16 + bitsOf c 5 1 * 64 + bitsOf c 3 2 * 128 +
        bitsOf c 2 1 * 32)))
    else some (bitsOf s6 0 20 * 4096 + rd * 128 + 0x37)
  | 1, 4 =>
    match bitsOf c 10 2 with
    | 0 => some (encI 0x13 5 rsp rsp imm6)
    | 1 => some (encI 0x13 5 rsp rsp (1024 + imm6))
    | 2 => some (encI 0x13 7 rsp rsp s6)
    | _ =>
      match bitsOf c 12 1, bitsOf c 5 2 with
      | 0, 0 => some (encR 0x33 0 0x20 rsp rsp rdp)
      | 0, 1 => some (encR 0x33 4 0 rsp rsp rdp)
      | 0, 2 => some (encR 0x33 6 0 rsp rsp rdp)
      | 0, _ => some (encR 0x33 7 0 rsp rsp rdp)
      | _, 0 => some (encR 0x3B 0 0x20 rsp rsp rdp)
      | _, 1 => some (encR 0x3B 0 0 rsp rsp rdp)
      | _, _ => none
  | 1, 5 =>
    some (encJ 0 (sgn32 12 (bitsOf c 12 1 * 2048 + bitsOf c 11 1 * 16 + bitsOf c 9 2 * 256 + bitsOf c 8 1 * 1024 +
      bitsOf c 7 1 * 64 + bitsOf c 6 1 * 128 + bitsOf c 3 3 * 2 + bitsOf c 2 1 * 32)))
  | 1, f =>
    let b := sgn32 9 (bitsOf c 12 1 * 256 + bitsOf c 10 2 * 8 + bitsOf c 5 2 * 64 + bitsOf c 3 2 * 2 + bitsOf c 2 1 * 32)
    some (encB (f - 6) rsp 0 b)
  | 2, 0 => some (encI 0x13 1 rd rd imm6)
  | 2, 1 => some (encI 0x07 3 rd 2 ldsp)
  | 2, 2 => if rd = 0 then none else some (encI 0x03 2 rd 2 lwsp)
  | 2, 3 => if rd = 0 then none else some (encI 0x03 3 rd 2 ldsp)
  | 2, 4 =>
    if bitsOf c 12 1 = 0 then
      (if rs2 = 0 then (if rd = 0 then none else some (encI 0x67 0 0 rd 0)) else some (encR 0x33 0 0 rd 0 rs2))
    else if rs2 = 0 then (if rd = 0 then some 0x00100073 else some (encI 0x67 0 1 rd 0))
    else some (encR 0x33 0 0 rd rd rs2)
  | 2, 5 => some (encS 0x27 3 2 rs2 sdsp)
  | 2, 6 => some (encS 0x23 2 2 rs2 swsp)
  | 2, 7 => some (encS 0x23 3 2 rs2 sdsp)
  | _, _ => none

/-! ### Arithmetic -/

/-- The low 32 bits sign-extended. -/
def sext32 (x : W64) : W64 := (x.setWidth 32).signExtend 64
/-- The low 32 bits zero-extended. -/
def zext32 (x : W64) : W64 := (x.setWidth 32).setWidth 64

/-- Signed division and remainder of `w`-bit words, with the results of the M extension for 0 and overflow. -/
def divS {n : Nat} (a b : BitVec n) : BitVec n := if b = 0 then BitVec.allOnes n else BitVec.ofInt n (a.toInt.tdiv b.toInt)
def remS {n : Nat} (a b : BitVec n) : BitVec n := if b = 0 then a else BitVec.ofInt n (a.toInt.tmod b.toInt)
def divU {n : Nat} (a b : BitVec n) : BitVec n := if b = 0 then BitVec.allOnes n else BitVec.ofNat n (a.toNat / b.toNat)
def remU {n : Nat} (a b : BitVec n) : BitVec n := if b = 0 then a else BitVec.ofNat n (a.toNat % b.toNat)

/-- Leading zeros, trailing zeros and ones among the low `n` bits. -/
def clzN (n x : Nat) : Nat := if x = 0 then n else n - 1 - Nat.log2 x
def ctzN : Nat → Nat → Nat
  | 0, _ => 0
  | n + 1, x => if x % 2 = 1 then 0 else 1 + ctzN n (x / 2)
def cpopN : Nat → Nat → Nat
  | 0, _ => 0
  | n + 1, x => x % 2 + cpopN n (x / 2)

/-- The bytes of a word, each mapped. -/
def mapBytes (x : W64) (f : List Byte → List Byte) : W64 := BitVec.ofNat 64 (leNat (f (leBytes 8 x.toNat)))

/-- Shifts and rotations by a number. -/
def rol64 (a : W64) (n : Nat) : W64 := a.rotateLeft (n % 64)
def ror64 (a : W64) (n : Nat) : W64 := a.rotateRight (n % 64)

def ltS (a b : W64) : W64 := BitVec.ofNat 64 (b2n (a.slt b))
def ltU (a b : W64) : W64 := BitVec.ofNat 64 (b2n (a.ult b))

/-- OP: a register operation, by funct7 and funct3; none where unassigned. -/
def aluOp (f7 f3 : Nat) (a b : W64) : Option W64 :=
  let sh := b.toNat % 64
  match f7, f3 with
  | 0x00, 0 => some (a + b)
  | 0x00, 1 => some (a <<< sh)
  | 0x00, 2 => some (ltS a b)
  | 0x00, 3 => some (ltU a b)
  | 0x00, 4 => some (a ^^^ b)
  | 0x00, 5 => some (a >>> sh)
  | 0x00, 6 => some (a ||| b)
  | 0x00, 7 => some (a &&& b)
  | 0x20, 0 => some (a - b)
  | 0x20, 5 => some (a.sshiftRight sh)
  | 0x20, 4 => some (~~~(a ^^^ b))
  | 0x20, 6 => some (a ||| ~~~b)
  | 0x20, 7 => some (a &&& ~~~b)
  | 0x01, 0 => some (a * b)
  | 0x01, 1 => some (BitVec.ofInt 64 (a.toInt * b.toInt / 2 ^ 64))
  | 0x01, 2 => some (BitVec.ofInt 64 (a.toInt * b.toNat / 2 ^ 64))
  | 0x01, 3 => some (BitVec.ofNat 64 (a.toNat * b.toNat / 2 ^ 64))
  | 0x01, 4 => some (divS a b)
  | 0x01, 5 => some (divU a b)
  | 0x01, 6 => some (remS a b)
  | 0x01, 7 => some (remU a b)
  | 0x10, 2 => some ((a <<< 1) + b)
  | 0x10, 4 => some ((a <<< 2) + b)
  | 0x10, 6 => some ((a <<< 3) + b)
  | 0x05, 4 => some (if a.slt b then a else b)
  | 0x05, 5 => some (if a.ult b then a else b)
  | 0x05, 6 => some (if a.slt b then b else a)
  | 0x05, 7 => some (if a.ult b then b else a)
  | 0x30, 1 => some (rol64 a sh)
  | 0x30, 5 => some (ror64 a sh)
  | _, _ => none

/-- OP-32. `rs2` is the register field. -/
def aluOp32 (f7 f3 rs2 : Nat) (a b : W64) : Option W64 :=
  let sh := b.toNat % 32
  let x : W32 := a.setWidth 32
  let y : W32 := b.setWidth 32
  let out := fun (r : W32) => some (r.signExtend 64)
  match f7, f3 with
  | 0x00, 0 => out (x + y)
  | 0x00, 1 => out (x <<< sh)
  | 0x00, 5 => out (x >>> sh)
  | 0x20, 0 => out (x - y)
  | 0x20, 5 => out (x.sshiftRight sh)
  | 0x01, 0 => out (x * y)
  | 0x01, 4 => out (divS x y)
  | 0x01, 5 => out (divU x y)
  | 0x01, 6 => out (remS x y)
  | 0x01, 7 => out (remU x y)
  | 0x04, 0 => some (zext32 a + b)
  | 0x04, 4 => if rs2 = 0 then some ((a.setWidth 16).setWidth 64) else none
  | 0x10, 2 => some ((zext32 a <<< 1) + b)
  | 0x10, 4 => some ((zext32 a <<< 2) + b)
  | 0x10, 6 => some ((zext32 a <<< 3) + b)
  | 0x30, 1 => out (x.rotateLeft sh)
  | 0x30, 5 => out (x.rotateRight sh)
  | _, _ => none

/-- OP-IMM on the 12-bit immediate field `i`. -/
def aluImm (f3 i : Nat) (a : W64) : Option W64 :=
  let m := sx 12 i
  let sh := i % 64
  match f3 with
  | 0 => some (a + m)
  | 2 => some (ltS a m)
  | 3 => some (ltU a m)
  | 4 => some (a ^^^ m)
  | 6 => some (a ||| m)
  | 7 => some (a &&& m)
  | 1 =>
    if i / 64 = 0 then some (a <<< sh)
    else match i with
      | 0x600 => some (BitVec.ofNat 64 (clzN 64 a.toNat))
      | 0x601 => some (BitVec.ofNat 64 (ctzN 64 a.toNat))
      | 0x602 => some (BitVec.ofNat 64 (cpopN 64 a.toNat))
      | 0x604 => some ((a.setWidth 8).signExtend 64)
      | 0x605 => some ((a.setWidth 16).signExtend 64)
      | _ => none
  | _ =>
    if i / 64 = 0 then some (a >>> sh)
    else if i / 64 = 0x10 then some (a.sshiftRight sh)
    else if i / 64 = 0x18 then some (ror64 a sh)
    else if i = 0x287 then some (mapBytes a fun bs => bs.map fun b => if b = 0 then 0 else 0xFF#8)
    else if i = 0x6B8 then some (mapBytes a List.reverse)
    else none

/-- OP-IMM-32 on the 12-bit immediate field `i`. -/
def aluImm32 (f3 i : Nat) (a : W64) : Option W64 :=
  let x : W32 := a.setWidth 32
  let sh := i % 32
  let out := fun (r : W32) => some (r.signExtend 64)
  match f3 with
  | 0 => out (x + (BitVec.ofNat 12 i).signExtend 32)
  | 1 =>
    if i / 32 = 0 then out (x <<< sh)
    else if i / 64 = 2 then some (zext32 a <<< (i % 64))
    else match i with
      | 0x600 => some (BitVec.ofNat 64 (clzN 32 x.toNat))
      | 0x601 => some (BitVec.ofNat 64 (ctzN 32 x.toNat))
      | 0x602 => some (BitVec.ofNat 64 (cpopN 32 x.toNat))
      | _ => none
  | 5 =>
    if i / 32 = 0 then out (x >>> sh)
    else if i / 32 = 0x20 then out (x.sshiftRight sh)
    else if i / 32 = 0x30 then out (x.rotateRight sh)
    else none
  | _ => none

/-- Whether a branch is taken; none for an unassigned funct3. -/
def branchTaken (f3 : Nat) (a b : W64) : Option Bool :=
  match f3 with
  | 0 => some (a == b)
  | 1 => some (a != b)
  | 4 => some (a.slt b)
  | 5 => some (!a.slt b)
  | 6 => some (a.ult b)
  | 7 => some (!a.ult b)
  | _ => none

/-- An atomic operation by its funct5, on words of `n` bits: the value stored; none where unassigned. -/
def amoOp {n : Nat} (f5 : Nat) (old x : BitVec n) : Option (BitVec n) :=
  match f5 with
  | 0x00 => some (old + x)
  | 0x01 => some x
  | 0x04 => some (old ^^^ x)
  | 0x08 => some (old ||| x)
  | 0x0C => some (old &&& x)
  | 0x10 => some (if old.slt x then old else x)
  | 0x14 => some (if old.slt x then x else old)
  | 0x18 => some (if old.ult x then old else x)
  | 0x1C => some (if old.ult x then x else old)
  | _ => none

end Sys2Proof.Machine
end

