-- ==== Sys2Proof/Machine/RvTrap.lean ====
section
/-!
DEFINITION. A thread's registers and status, interrupts and the taking of a trap (R199 to R204, R216, R220), by the
RISC-V Privileged Architecture 1.12 (notes/assumptions/26).
-/

namespace Sys2Proof.Machine

/-- An exception: its code in mcause and the value for mtval. -/
structure Exc where
  code : Nat
  tval : Nat
  deriving DecidableEq, Repr

/-- The access kinds: instruction fetch, load, store or AMO. -/
inductive MemAcc where
  | fetch | load | store
  deriving DecidableEq, Repr

/-- Access-fault and page-fault codes of an access kind. -/
def MemAcc.fault : MemAcc → Nat
  | .fetch => 1 | .load => 5 | .store => 7
def MemAcc.page : MemAcc → Nat
  | .fetch => 12 | .load => 13 | .store => 15

/-- The bit-setting helper of status words: bits `lo … lo + w − 1` of `x` set to `v`. -/
def setBits (x lo w v : Nat) : Nat := x - bitsOf x lo w * 2 ^ lo + v % 2 ^ w * 2 ^ lo

/-! ### Thread registers -/

def Thread.rd (t : Thread) (r : Nat) : W64 := if r = 0 then 0#64 else t.x.getD r 0#64
/-- What is written to a register takes the place of what an earlier load, still outstanding, brings it (R205). -/
def Thread.claim (t : Thread) (r : Nat) : Thread :=
  { t with missed := t.missed.map fun m => if m.dest = r then { m with dest := 0 } else m }

def Thread.wr (t : Thread) (r : Nat) (v : W64) : Thread := if r = 0 then t else { t.claim r with x := t.x.setIfInBounds r v }
def Thread.frd (t : Thread) (r : Nat) : W64 := t.f.getD r 0#64
def Thread.csr (t : Thread) (n : Nat) : Nat := tabGet (fun _ => 0) t.csrs n
def Thread.setCsr (t : Thread) (n v : Nat) : Thread := { t with csrs := tabSet (fun _ => 0) t.csrs n v }

/-- mstatus as stored (its writable bits), and its bits. -/
def cMstatus : Nat := 0x300
def Thread.st (t : Thread) (b : Nat) : Bool := bitOf (t.csr cMstatus) b
def Thread.fs (t : Thread) : Nat := bitsOf (t.csr cMstatus) 13 2
def Thread.mpp (t : Thread) : Nat := bitsOf (t.csr cMstatus) 11 2

/-- An f register written: mstatus.FS becomes Dirty. -/
def Thread.dirtyF (t : Thread) : Thread := t.setCsr cMstatus (setBits (t.csr cMstatus) 13 2 3)
def Thread.fwr (t : Thread) (r : Nat) (v : W64) : Thread := { t.claim (32 + r) with f := t.f.setIfInBounds r v }.dirtyF

/-- The code of a mode, and the mode of a code. -/
def Priv.code : Priv → Nat
  | .u => 0 | .s => 1 | .m => 3
def Priv.ofCode : Nat → Priv
  | 0 => .u | 1 => .s | _ => .m

namespace Dev

/-! ### Where a thread runs (R16, R204) -/

def isMgmt (t : Nat) : Bool := decide (1024 ≤ t)
def kilnOf (t : Nat) : Nat := t / 32
def quadOf (t : Nat) : Nat := t / 256

/-- Whether a thread's quadrant is released and its logical kiln is not degraded, or its management core started (R203, R204,
R477). -/
def released (d : Dev) (t : Nat) : Bool :=
  if t < 1024 then !bitOf (d.get RST_QUAD_STATUS_HELD) (quadOf t) && !bitOf (d.get RST_QUAD_STATUS_RESETTING) (quadOf t) &&
    d.flag (RAS_KILN_MAP_VALID (kilnOf t))
  else (d.thread t).enabled

/-- Whether a spare procedure runs on a logical kiln: its threads are stopped, and the router holds what is sent to it (R472,
R474). -/
def kilnHeld (d : Dev) (k : Nat) : Bool :=
  (d.ras.takeovers.any fun x => x.kiln == k) || match d.ras.op with | some (.replace j _ _) => j == k | _ => false

/-- The saggar that holds a thread: the one whose thread range it lies in, while it is not FREE (R365). -/
def threadSag (d : Dev) (t : Nat) : Option Nat :=
  if isMgmt t then none
  else d.liveSags.find? fun s =>
    decide (d.get (SAG_THREADS_BASE s) ≤ t) &&
      decide (t < d.get (SAG_THREADS_BASE s) + d.get (SAG_THREADS_COUNT s))

/-! ### Clocks and counters (R201, R204, R205) -/

/-- Cycles of a thread's own core clock: CORE, as fast as PIPE, or NOC at 2.0 GHz for a management core. -/
def coreClk (d : Dev) (t : Nat) : Nat := if isMgmt t then d.cycle * 2 / 3 else d.cycle
/-- So many cycles of a thread's core clock in PIPE cycles. -/
def coreCy (t n : Nat) : Nat := if isMgmt t then ceilDiv (3 * n) 2 else n

/-- Cycles before `x` whose slot belongs to thread number `i` (R206). -/
def slotsBefore (i x : Nat) : Nat := (x + 7 - i) / 8

/-- The slots that thread `t` owned since its quadrant's release, this cycle's too. -/
def ownSlots (d : Dev) (t : Nat) : Nat :=
  let s := (d.coreSt (coreOf t)).since
  if isMgmt t then d.coreClk t + 1 - s else slotsBefore (t % 8) (d.cycle + 1) - slotsBefore (t % 8) s

/-- The cycle since which a thread is blocked in an Xplc instruction. -/
def waitSince : Wait → Option Nat
  | .send _ _ s => some s
  | .recv _ _ s => some s
  | .pkrecv _ s => some s
  | .pksend _ _ s => some s
  | _ => none

/-- What a machine counter has counted since release: cycles, instructions, and the events 3–6 (R201). -/
def ctrRaw (d : Dev) (t n : Nat) : Nat :=
  let x := d.thread t
  match n with
  | 0xB00 => d.coreClk t - (d.coreSt (coreOf t)).since
  | 0xB02 => x.retired
  | 0xB03 => d.ownSlots t - x.ownIssues
  | 0xB04 => x.freeIssues
  | 0xB05 => (x.xplcStall + match waitSince x.wait with | some s => d.cycle - s | none => 0) * (if isMgmt t then 2 else 3) / 3
  | 0xB06 => x.misses
  | _ => 0

/-- The machine counters that count. -/
def ctrCsrs : List Nat := [0xB00, 0xB02, 0xB03, 0xB04, 0xB05, 0xB06]

/-- A machine counter as read: what it counted, and what writes have added. -/
def ctrVal (d : Dev) (t n : Nat) : Nat :=
  (((d.ctrRaw t n : Int) + tabGet (fun _ => 0) (d.thread t).ctrOfs n) % 2 ^ 64).toNat

/-- Sets a machine counter to read `v` when it has counted `raw`. -/
def setCtr (x : Thread) (n raw v : Nat) : Thread := { x with ctrOfs := tabSet (fun _ => 0) x.ctrOfs n ((v : Int) - raw) }

/-! ### Interrupts (R201, R220) -/

/-- mip.CHI: an enabled source of chie is non-empty. -/
def chiPending (t : Thread) : Bool :=
  let en := t.csr 0x7C2
  ((List.range 4).any fun e => bitOf en e && !(tabGet (fun _ => []) t.rx e).isEmpty) || (bitOf en 4 && !t.inbox.isEmpty)

/-- mip: the bits that software holds, and CHI. The manual gives no source for the others. -/
def mipOf (t : Thread) : Nat := t.csr 0x344 + b2n (chiPending t) * 2 ^ 16

/-- Pending and enabled in mie. -/
def pendEn (t : Thread) : Nat := mipOf t &&& t.csr 0x304

/-- The interrupt that the thread takes at the next boundary, if any. -/
def takeable (t : Thread) : Option Nat :=
  let p := pendEn t
  let del := t.csr 0x303
  let order := [11, 3, 7, 9, 1, 5, 16]
  let m := order.find? fun i => bitOf p i && !bitOf del i && (t.mode != .m || t.st 3)
  let s := order.find? fun i => bitOf p i && bitOf del i && (t.mode == .u || (t.mode == .s && t.st 1))
  match m with
  | some i => some i
  | none => s

/-! ### Traps -/

/-- The address of the handler: the base, or for an interrupt under vectored mode the base + 4 × cause. -/
def handler (tvec code : Nat) (isInt : Bool) : W64 :=
  BitVec.ofNat 64 (tvec / 4 * 4 + if isInt && tvec % 4 == 1 then 4 * code else 0)

/-- A thread takes a trap: to S mode if it is delegated and the thread runs below M, else to M mode. The pc and the
status are saved, the pc with its bit 0 clear as mepc and sepc hold it, the reservation is lost (R247), and what the thread waited in is abandoned (R216). -/
def trapThread (t : Thread) (code : Nat) (isInt : Bool) (tval : Nat) : Thread :=
  let deleg := t.mode != .m && bitOf (t.csr (if isInt then 0x303 else 0x302)) code
  let cause := b2n isInt * 2 ^ 63 + code
  let ms := t.csr cMstatus
  let t1 := { t with resv := none, wait := .run }
  let epc := t.pc.toNat / 2 * 2
  if deleg then
    let ms := setBits (setBits (setBits ms 5 1 (b2n (t.st 1))) 1 1 0) 8 1 (b2n (t.mode == .s))
    { (((((t1.setCsr 0x141 epc).setCsr 0x142 cause).setCsr 0x143 tval).setCsr cMstatus ms)) with
      mode := .s, pc := handler (t.csr 0x105) code isInt }
  else
    let ms := setBits (setBits (setBits ms 7 1 (b2n (t.st 3))) 3 1 0) 11 2 t.mode.code
    { (((((t1.setCsr 0x341 epc).setCsr 0x342 cause).setCsr 0x343 tval).setCsr cMstatus ms)) with
      mode := .m, pc := handler (t.csr 0x305) code isInt }

/-- A thread takes an exception. -/
def raise (d : Dev) (t : Nat) (e : Exc) : Dev :=
  let v := if e.code = 24 ∨ Config.tvalHolds e.code = true then e.tval else 0
  d.modThread t fun x => trapThread x e.code false v

/-- A thread takes an interrupt. -/
def interrupt (d : Dev) (t i : Nat) : Dev := d.modThread t fun x => trapThread x i true 0

end Dev
end Sys2Proof.Machine
end

