-- ==== Sys2Proof/Machine/Crc.lean ====
section
/-!
DEFINITION. The CRC-32 of IEEE 802.3, which the FCS of a frame carries (R56, R63).
-/

namespace Sys2Proof.Machine

/-- One bit of a reflected CRC-32 with polynomial `poly`. -/
def crcBit (poly : W32) (c : W32) : W32 := if c.getLsbD 0 then (c >>> 1) ^^^ poly else c >>> 1

/-- `n` bits of a reflected CRC-32. -/
def crcBits (poly : W32) : Nat → W32 → W32
  | 0, c => c
  | n + 1, c => crcBits poly n (crcBit poly c)

/-- A reflected CRC-32 over bytes, from the state `c`. -/
def crcRun (poly : W32) (c : W32) (bs : List Byte) : W32 :=
  bs.foldl (fun c b => crcBits poly 8 (c ^^^ b.setWidth 32)) c

/-- The CRC-32 of IEEE 802.3 over the bytes of a frame without its FCS. -/
def fcsOf (bs : List Byte) : W32 := ~~~(crcRun 0xEDB88320#32 0xFFFFFFFF#32 bs)

/-- The CRC-32C of RFC 3720 over bytes, from a seed (R115): with seed all ones it is the CRC-32C itself. -/
def crc32c (seed : W32) (bs : List Byte) : W32 := ~~~(crcRun 0x82F63B78#32 seed bs)

/-- The four FCS bytes in transmission order. -/
def fcsBytes (c : W32) : List Byte := leBytes 4 c.toNat

/-- How the FCS of a received frame is judged (R64). -/
inductive FcsKind where
  | good | stomped | bad
  deriving DecidableEq, Repr

/-- Judges the last four bytes of a frame (R63, R64). -/
def judgeFcs (bs : List Byte) : FcsKind :=
  let body := bs.take (bs.length - 4)
  let got := bs.drop (bs.length - 4)
  if got = fcsBytes (fcsOf body) then .good
  else if got = fcsBytes (~~~(fcsOf body)) then .stomped
  else .bad

/-- Bytes with a correct FCS, or a stomped one (R63), appended. -/
def withFcs (stomp : Bool) (body : List Byte) : List Byte :=
  body ++ fcsBytes (if stomp then ~~~(fcsOf body) else fcsOf body)

end Sys2Proof.Machine
end

