-- ==== Sys2Proof/Machine/HostOps.lean ====
section
/-!
DEFINITION. The functions behind the host links, the outbound queues of the links and the MSI-X tables (chapter PCIe
Endpoint).
-/

namespace Sys2Proof.Machine

/-- What a routing-ID offset names: physical function k, or virtual function i of it (R313). -/
inductive FuncKind where
  | pf (k : Nat)
  | vf (k i : Nat)
  deriving DecidableEq, Repr

/-- The PFs whose places R312 assigns to host link `m` of a controller. -/
def linkPfs (bifurc m : Nat) : List Nat :=
  if bifurc = 1 then (if m = 0 then [0, 1] else if m = 1 then [2, 3] else [])
  else if bifurc = 2 then (if m < 4 then [m] else [])
  else if m = 0 then [0, 1, 2, 3] else []

/-- One of PF1–PF3 in a controller's profile; PF0 has no entry of its own. -/
def HifProfile.pf (h : HifProfile) : Nat → PfProfile
  | 1 => h.pf1 | 2 => h.pf2 | 3 => h.pf3 | _ => ⟨true, false, 0, 12, 2048⟩

/-- How BAR2 or BAR0 or BAR4 is used. -/
inductive BarUse where
  | registers | doorbells | window | nvme | msix
  deriving DecidableEq, Repr

namespace Dev

def hifProfile (d : Dev) (n : Nat) : HifProfile := if n = 0 then d.boot.profile.hif0 else d.boot.profile.hif1

/-- BIFURC as it acts: 0b11 acts as 0b00 (R309). -/
def bifurc (d : Dev) (n : Nat) : Nat := if d.get (HIF_CTRL_BIFURC n) = 3 then 0 else d.get (HIF_CTRL_BIFURC n)

/-- Whether the mode creates host link `l` = n × 4 + m (R309). -/
def linkExists (d : Dev) (l : Nat) : Bool := decide (l < 8) && !(linkPfs (d.bifurc (l / 4)) (l % 4)).isEmpty

def link (d : Dev) (l : Nat) : Link := tabGet (fun _ => .reset) d.hif.links l
def setLink (d : Dev) (l : Nat) (x : Link) : Dev :=
  { d with hif := { d.hif with links := tabSet (fun _ => .reset) d.hif.links l x } }
def modLink (d : Dev) (l : Nat) (g : Link → Link) : Dev := d.setLink l (g (d.link l))

def frozen (d : Dev) (l : Nat) : Bool := d.flag (HIF_FREEZE_FROZEN (l / 4) (l % 4))
def linkUp (d : Dev) (l : Nat) : Bool := d.flag (HIF_LINK_STATUS_LINK_UP (l / 4) (l % 4))
def gateOpen (d : Dev) : Bool := d.flag BOOT_STATUS_GATE_OPEN

/-- Whether PF `k` of a controller is enabled (R312). -/
def pfEnabled (d : Dev) (n k : Nat) : Bool := k == 0 || ((d.hifProfile n).pf k).enabled

/-- The offset of the first VF of PF `k` on host link `l`, laid out PF by PF after the places (R313). -/
def vfBase (d : Dev) (l k : Nat) : Nat :=
  let ps := linkPfs (d.bifurc (l / 4)) (l % 4)
  ps.length + ((ps.filter fun j => decide (j < k) && decide (0 < j) && d.pfEnabled (l / 4) j).map
    fun j => ((d.hifProfile (l / 4)).pf j).totalVfs).sum

/-- The function at a routing-ID offset of host link `l`, whether its VFs are enabled or not (R313). -/
def funcAt (d : Dev) (l f : Nat) : Option FuncKind :=
  let n := l / 4
  let ps := linkPfs (d.bifurc n) (l % 4)
  match ps[f]? with
  | some k => if d.pfEnabled n k then some (.pf k) else none
  | none =>
    (ps.filter fun k => decide (0 < k) && d.pfEnabled n k).findSome? fun k =>
      let b := d.vfBase l k
      if b ≤ f ∧ f < b + ((d.hifProfile n).pf k).totalVfs then some (.vf k (f - b)) else none

/-- The PF of a function kind. -/
def kindPf : FuncKind → Nat
  | .pf k => k
  | .vf k _ => k

/-- Whether a function has the NVMe personality. -/
def isNvme (d : Dev) (l f : Nat) : Bool :=
  match d.funcAt l f with
  | some k => kindPf k != 0 && ((d.hifProfile (l / 4)).pf (kindPf k)).nvme
  | none => false

/-- A function's key. -/
def fkey (l f : Nat) : Nat := l * 2048 + f

def func (d : Dev) (l f : Nat) : Func := tabGet (fun _ => .reset) d.hif.funcs (fkey l f)
def setFunc (d : Dev) (l f : Nat) (x : Func) : Dev :=
  { d with hif := { d.hif with funcs := tabSet (fun _ => .reset) d.hif.funcs (fkey l f) x } }
def modFunc (d : Dev) (l f : Nat) (g : Func → Func) : Dev := d.setFunc l f (g (d.func l f))

/-- The offset of PF `k` on host link `l`. -/
def pfOffset (d : Dev) (l k : Nat) : Option Nat :=
  (linkPfs (d.bifurc (l / 4)) (l % 4)).findIdx? (· == k)

/-- Whether a function is there to be reached: a PF that is enabled, or a VF below NumVFs of a PF with VF Enable. -/
def funcLive (d : Dev) (l f : Nat) : Bool :=
  match d.funcAt l f with
  | some (.pf _) => true
  | some (.vf k i) =>
    match d.pfOffset l k with
    | some o => (d.func l o).vfEnable && decide (i < (d.func l o).numVfs)
    | none => false
  | none => false

/-- The size of a function's MSI-X table (R316). -/
def msixSize (d : Dev) (l f : Nat) : Nat :=
  match d.funcAt l f with
  | some (.pf 0) => 2048
  | some (.pf k) => ((d.hifProfile (l / 4)).pf k).msix
  | some (.vf _ _) => (d.hifProfile (l / 4)).vfMsix
  | none => 0

/-- The number of doorbell pages of a function (R315). -/
def dbPages (d : Dev) (l f : Nat) : Nat :=
  match d.funcAt l f with
  | some (.pf 0) => 4096
  | some k => if d.isNvme l f then 0 else 2 ^ ((d.hifProfile (l / 4)).pf (kindPf k)).dbLog2
  | none => 0

/-- The size of BAR `b` (0, 2 or 4) of a function and what it holds; none where it is not implemented (R315). -/
def barOf (d : Dev) (l f b : Nat) : Option (Nat × BarUse) :=
  match d.funcAt l f with
  | none => none
  | some (.pf 0) =>
    if b = 0 then (if l / 4 = 0 ∨ (d.hifProfile 1).regPath = true then some (2 ^ 26, .registers) else none)
    else if b = 2 then some (2 ^ 24, .doorbells) else some (2 ^ 16, .msix)
  | some k =>
    let small := match k with | .pf _ => false | .vf _ _ => true
    if b = 4 then some (if small then 2 ^ 13 else 2 ^ 16, .msix)
    else if d.isNvme l f then (if b = 0 then some (2 ^ 14, .nvme) else none)
    else if b = 0 then some (2 ^ 16, .window)
    else some (4096 * d.dbPages l f, .doorbells)

/-- The function whose Device Control holds for a function: its PF's for a VF (notes/assumptions/20). -/
def ctlFunc (d : Dev) (l f : Nat) : Func :=
  match d.funcAt l f with
  | some (.vf k _) => d.func l ((d.pfOffset l k).getD f)
  | _ => d.func l f

/-- MPS and MRRS of a function in bytes (R319): the device uses at most 512 and 4,096. -/
def mpsOf (d : Dev) (l f : Nat) : Nat := Nat.min 512 (128 * 2 ^ (d.ctlFunc l f).mps)
def mrrsOf (d : Dev) (l f : Nat) : Nat := Nat.min 4096 (128 * 2 ^ (d.ctlFunc l f).mrrs)

/-- The saggar bound to a function: the one that is not FREE and names it in SAG_FUNC. -/
def saggarOf (d : Dev) (l f : Nat) : Option Nat :=
  d.liveSags.find? fun s =>
    d.get (SAG_FUNC_LINK s) == l && d.get (SAG_FUNC_FUNC s) == f

/-! ### Outbound requests (R328, R440) -/

/-- Whether a link's outbound queue is open: the gate open, the link up, not frozen and not in L2/L3 Ready. -/
def outOpen (d : Dev) (l : Nat) : Bool := d.gateOpen && d.linkUp l && !d.frozen l && !(d.link l).inL23

/-- A link carries a TLP: it leaves an ASPM state (R325). -/
def tlpOn (d : Dev) (l : Nat) : Dev :=
  let d := d.modLink l fun x => { x with lastTlp := d.cycle }
  let pm := d.get (HIF_LINK_STATUS_PM_STATE (l / 4) (l % 4))
  if 2 ≤ pm ∧ pm ≤ 4 then
    (d.put (HIF_LINK_STATUS_PM_STATE (l / 4) (l % 4)) 0).modLink l fun x => { x with l0Since := d.cycle }
  else d

/-- The routing ID of a function: its offset from the bus number that the link captured (R313). -/
def routingId (d : Dev) (l f : Nat) : Nat := ((d.link l).bus * 256 + f) % 65536

/-- Issues one request on a link. -/
def issueReq (d : Dev) (l : Nat) (r : HostReq) : Dev :=
  let d := d.tlpOn l
  match r with
  | .write w => (d.modLink l fun x => { x with unacked := x.unacked ++ [w] }).emit (.hostWrite l w)
  | .read f t a n ro ido => d.emit (.hostRead l f t a n ro ido)

/-- Issues what waits in a link's queue, in order, once it is open (R440). -/
def pumpLink (d : Dev) (l : Nat) : Dev :=
  if d.outOpen l then
    let q := (d.link l).outq
    q.foldl (fun d r => d.issueReq l r) (d.modLink l fun x => { x with outq := [] })
  else d

/-- Hands a request to a link's outbound queue. -/
def sendReq (d : Dev) (l : Nat) (r : HostReq) : Dev :=
  (d.modLink l fun x => { x with outq := x.outq ++ [r] }).pumpLink l

/-- A message on a link, if it is up. -/
def sendMsg (d : Dev) (l f : Nat) (m : Msg) : Dev :=
  if d.linkUp l && !d.frozen l && !(d.link l).inL23 then (d.tlpOn l).emit (.message l f m) else d

/-! ### MSI-X (R316, R350) -/

def mkey (l f e : Nat) : Nat := fkey l f * 2048 + e
def msixEnt (d : Dev) (l f e : Nat) : MsixEntry := tabGet (fun _ => .reset) d.hif.msix (mkey l f e)
def setMsix (d : Dev) (l f e : Nat) (x : MsixEntry) : Dev :=
  { d with hif := { d.hif with msix := tabSet (fun _ => .reset) d.hif.msix (mkey l f e) x } }

/-- Sends an MSI-X message: a masked vector pends (PCIe), and so does one of a function that issues no requests, outside D0 or
without Bus Master Enable (R323; DEDUCED, notes/assumptions/20); a vector at or above the table's size sends nothing. The
result says whether a message went out. -/
def msix (d : Dev) (l f e : Nat) : Bool × Dev :=
  if d.msixSize l f ≤ e ∨ (d.func l f).msixEn = false then (false, d)
  else
    let x := d.msixEnt l f e
    if x.masked || (d.func l f).msixMask || (d.func l f).d3hot || !(d.func l f).bme then (false, d.setMsix l f e { x with pending := true })
    else
      let w : PWrite := { func := f, addr := x.addr, bytes := leBytes 4 x.data, chan := none, pos := none, cpl := none, frame := none,
                          tag := none, at_ := d.cycle, ro := false, ido := (d.ctlFunc l f).ido }
      (true, (d.setMsix l f e { x with pending := false }).sendReq l (.write w))

/-- The message of DMA channel `g` is among those for which a vector pends. -/
def msixWaits (d : Dev) (l f e g : Nat) : Dev :=
  let x := d.msixEnt l f e
  if x.pending && !x.chans.contains g then d.setMsix l f e { x with chans := x.chans ++ [g] } else d

/-- Sends the messages of unmasked pending vectors of a function (R316). A message for which DMA channels wait disarms them and counts
in IRQ_SENT, once (R350, R362). -/
def msixFlush (d : Dev) (l f : Nat) : Dev :=
  let es := d.hif.msix.filter fun kv => kv.1 / 2048 == fkey l f && kv.2.pending && !kv.2.masked
  if (d.func l f).msixEn && !(d.func l f).msixMask then es.foldl (fun d kv =>
    let r := d.msix l f (kv.1 % 2048)
    if !r.1 then r.2
    else
      let d := r.2.setMsix l f (kv.1 % 2048) { r.2.msixEnt l f (kv.1 % 2048) with chans := [] }
      let d := match kv.2.chans with | g :: _ => d.inc (DMA_CNT_IRQ_SENT (g / 256)) | [] => d
      kv.2.chans.foldl (fun d g =>
        (d.put (DMA_CH_STATUS_IRQ_ARMED (g / 256) (g % 256)) 0).modChan g fun x => { x with lastMsg := some d.cycle }) d) d
  else d

/-- A wake source of R323 at a function: a PM_PME message in D3hot with PME_En, or WAKE_N low in D3cold (R324). -/
def wakeSource (d : Dev) (l f : Nat) : Dev :=
  let x := d.func l f
  if !x.pmeEn then d
  else if d.hif.d3cold.contains (l / 4) then
    match d.funcAt l f with
    | some (.pf k) =>
      if k ≤ 1 ∧ d.gateOpen = true then
        let d := d.modFunc l f fun x => { x with pmeStatus := true }
        if d.hif.wake.contains (l / 4) then d
        else ({ d with hif := { d.hif with wake := d.hif.wake ++ [l / 4] } }).emit (.pin .wakeN false)
      else d
    | _ => d
  else if x.d3hot then (d.modFunc l f fun x => { x with pmeStatus := true }).sendMsg l f .pmPme
  else d

end Dev
end Sys2Proof.Machine
end

