-- ==== Sys2Proof/Machine/BufOps.lean ====
section
/-!
DEFINITION. The packet buffer: cells, charge lengths, meters, admission, spill and the indirect entries (chapter
Packet Buffer and Meters).
-/

namespace Sys2Proof.Machine

/-- Cells of `n` bytes (R141). -/
def cellsOf (n : Nat) : Nat := ceilDiv n 256

/-! ### Meters (R147, R148) -/

/-- The buckets' unit: 24,000,000 to the byte, so that e × CIR / 24,000,000 keeps its remainder. -/
def tokenUnit : Nat := 24000000

/-- A meter with the tokens gained up to a cycle (R147). -/
def Meter.settle (m : Meter) (now : Nat) : Meter :=
  { m with
    tc := Nat.min (m.cbs * tokenUnit) (m.tc + (now - m.at_) * m.cir)
    tp := Nat.min (m.pbs * tokenUnit) (m.tp + (now - m.at_) * m.pir)
    at_ := now }

/-- What a meter decides for `b` tokens and an entry colour: the colour, and which buckets it debits (R148). With
CIR = PIR = 0 it spends what a fill left in the buckets, before every frame is red (R148 before the row of R149: DESIGN CHOICE,
notes/assumptions/58). -/
def Meter.judge (m : Meter) (b : Nat) (c : Colour) : Colour × Bool × Bool :=
  let n := b * tokenUnit
  if m.rfc4115 then
    if (!m.aware || c == .green) && decide (n ≤ m.tc) then (.green, true, false)
    else if (!m.aware || c != .red) && decide (n ≤ m.tp) then (.yellow, false, true)
    else (.red, false, false)
  else if (m.aware && c == .red) || decide (m.tp < n) then (.red, false, false)
  else if (m.aware && c == .yellow) || decide (m.tc < n) then (.yellow, false, true)
  else (.green, true, true)

/-- A meter debited by `b` bytes and counting its result (R148, R161). -/
def Meter.debit (m : Meter) (b : Nat) (r : Colour × Bool × Bool) : Meter :=
  { m with
    tc := if r.2.1 then m.tc - b * tokenUnit else m.tc
    tp := if r.2.2 then m.tp - b * tokenUnit else m.tp
    greenFrames := if r.1 = .green then satAdd 64 m.greenFrames 1 else m.greenFrames
    yellowFrames := if r.1 = .yellow then satAdd 64 m.yellowFrames 1 else m.yellowFrames
    redFrames := if r.1 = .red then satAdd 64 m.redFrames 1 else m.redFrames }

/-- A refund of `n` bytes to the buckets that were debited, capped at their sizes (R144). -/
def Meter.refund (m : Meter) (n : Nat) (x : Debit) : Meter :=
  { m with
    tc := if x.tc then Nat.min (m.cbs * tokenUnit) (m.tc + n * tokenUnit) else m.tc
    tp := if x.tp then Nat.min (m.pbs * tokenUnit) (m.tp + n * tokenUnit) else m.tp }

namespace Dev

/-! ### Cells (R142) -/

/-- Free cells of the pool. -/
def freeCells (d : Dev) : Nat := d.get BUF_POOL_STATUS_FREE

/-- Returns cells to the pool: in a cycle before its admissions (R154). -/
def giveCells (d : Dev) (n : Nat) : Dev :=
  if n = 0 then d
  else
    let d := d.beforeAdmits
    d.put BUF_POOL_STATUS_FREE (d.freeCells + n)

/-- Takes cells from the pool; a fall to a floor is an event (BUF_EVENT). -/
def takeCells (d : Dev) (n : Nat) : Dev :=
  let was := d.freeCells
  let now := was - n
  let fell (fl : Nat) : Bool := decide (fl < was) && decide (now ≤ fl)
  let d := d.put BUF_POOL_STATUS_FREE now
  let d := if fell (d.get BUF_POOL_YELLOW_FLOOR_CELLS) then d.setEvent BUF_EVENT_YELLOW_FLOOR else d
  if fell (d.get BUF_POOL_RED_FLOOR_CELLS) then d.setEvent BUF_EVENT_RED_FLOOR else d

/-- Whether a frame's cells count in its queue's OCC. -/
def countsInOcc (f : Frame) : Bool :=
  match f.stage with
  | .admitted _ => true
  | .queued => true
  | .chosen _ _ => true
  | .rxDma => true
  | .spilled (some _) => true
  | _ => false

/-- Sets how many cells a frame holds, moving the difference between it, its queue's OCC and the pool. -/
def resizeCells (d : Dev) (i : Nat) (n : Nat) : Dev :=
  match d.frame? i with
  | none => d
  | some f =>
    let d := if n ≤ f.cells then d.giveCells (f.cells - n) else d.takeCells (n - f.cells)
    let d := match f.act with
      | some a => if countsInOcc f then d.modQueue a.queue fun q => { q with occ := q.occ + n - f.cells } else d
      | none => d
    d.setFrame i { f with cells := n }

/-- Takes a frame out of its egress queue, its spill, the punt queue and the hold of its placement entry; a queue leaves SPILLING with its last spilled
frame (R137, R157). -/
def unqueue (d : Dev) (i : Nat) (f : Frame) : Dev :=
  let d := match f.act with
    | some a => d.modQueue a.queue fun q =>
        if q.spill.contains i then
          { q with spill := q.spill.filter (· != i), spillCells := q.spillCells - cellsOf f.charge,
                   spilling := q.spill != [i] }
        else { q with frames := q.frames.filter (· != i) }
    | none => d
  match f.stage, f.src, f.placement with
  | .punt, .port p, _ => d.setCp (p / 8) { d.cp (p / 8) with punt := (d.cp (p / 8)).punt.filter (· != i) }
  | .placed, _, some (q, _) => { d with core := { d.core with
      places := tabMod (fun _ => .reset) d.core.places q fun x => { x with held := x.held.filter (· != i) } } }
  | _, _, _ => d

/-- Discards a frame after admission or frees it after transmission: its cells return to the pool, it leaves its
queue; while its bytes still arrive it stays as a dead frame (R142, R154). -/
def freeFrame (d : Dev) (i : Nat) : Dev :=
  match d.frame? i with
  | none => d
  | some f =>
    let d := (d.resizeCells i 0).unqueue i f
    if f.ended then d.dropFrame i else d.setFrame i { f with stage := .dead, cells := 0 }

/-- Flushes a frame: the cells of one that still arrives return when it ends (R154). -/
def flushFrame (d : Dev) (i : Nat) : Dev :=
  match d.frame? i with
  | none => d
  | some f =>
    if f.ended then d.freeFrame i
    else
      let d := match f.act with
        | some a => if countsInOcc f then d.modQueue a.queue fun q => { q with occ := q.occ - f.cells } else d
        | none => d
      (d.unqueue i f).setFrame i { f with stage := .dead }

/-! ### The tree, as far as admission needs it (R163, R164) -/

/-- The group, the class node and the port index of a queue. -/
def groupOf (d : Dev) (q : Nat) : Nat := (d.node 3 q).parent
def classOf (d : Dev) (q : Nat) : Nat := (d.node 2 (d.groupOf q)).parent
def portOf (d : Dev) (q : Nat) : Nat := d.classOf q / 8

/-- Whether an enabled RX channel serves a queue (R343). -/
def rxServed (d : Dev) (q : Nat) : Bool := d.dma.rxServe.any (·.1 == q)

/-- MAX_FRAME of the port of a port index. -/
def maxFrame (d : Dev) (p : Nat) : Nat := d.get (ETH_MAX_FRAME_MAX_FRAME (p / 4))

/-- Rate of a sub-port in Gbit/s. -/
def rate (d : Dev) (p : Nat) : Nat := rateOf (d.mode (p / 4))

/-- Charge length B (R144). -/
def chargeLen (d : Dev) (f : Frame) : Nat :=
  if f.ended then f.len else match f.src with
    | .port p => d.maxFrame p
    | _ => f.len

/-- Whether frames bound for the sub-port are discarded at admission: its hold has expired with the link down, or its
link has not come up since the last port or package reset (R69). -/
def pastHold (d : Dev) (p : Nat) : Bool :=
  let x := d.sub p
  !x.everUp || x.pastHold || x.flushEnds.isSome

/-- The path of R59 for a frame bound for egress queue `q`: true is cut-through. -/
def cutThroughPath (d : Dev) (f : Frame) (q : Nat) : Bool :=
  match f.src with
  | .port p =>
    d.flag (ETH_CTRL_CT_EN (p / 4)) && decide (d.rate (d.portOf q) ≤ d.rate p) &&
      decide (d.maxFrame p ≤ d.maxFrame (d.portOf q)) && !(d.queue q).spilling &&
      f.placement.isNone && (match f.act with | some a => a.xform.isNone | none => true)
  | _ => false

/-! ### Admission (R150, R153, R156) -/

/-- The queue limit for a colour (R150). -/
def limitFor (q : QEntry) : Colour → Nat
  | .green => q.green
  | .yellow => Nat.min q.yellow q.green
  | .red => Nat.min q.red (Nat.min q.yellow q.green)

/-- The pool floor for a colour (R150). -/
def floorFor (d : Dev) : Colour → Nat
  | .green => 0
  | .yellow => d.get BUF_POOL_YELLOW_FLOOR_CELLS
  | .red => d.get BUF_POOL_RED_FLOOR_CELLS

/-- Granules of the spill region, and those in use: whole pages, each queue's granules packed in its pages
(DESIGN CHOICE, notes/assumptions/50). -/
def spillGranules (d : Dev) : Nat := d.get BUF_SPILL_SIZE_GIB * 2 ^ 22
def spillUsed (d : Dev) : Nat := d.buf.queues.foldl (fun n q => n + ceilDiv q.2.spillCells 16 * 16) 0

/-- The spill write budget in thirds of a byte at this cycle (R156). -/
def spillBudget (d : Dev) : Nat := Nat.min (65536 * 3) (d.buf.budget + (d.cycle - d.buf.budgetAt) * 1000)

/-- The budget of the fetches in thirds of a byte at this cycle (R156). -/
def fetchBudget (d : Dev) : Nat := Nat.min (65536 * 3) (d.buf.fetchBudget + (d.cycle - d.buf.fetchAt) * 1000)

/-- Whether a queue may begin to spill: SPILL_EN, and a region that is not empty (R155, R156). -/
def maySpill (d : Dev) (x : QEntry) : Bool := x.spillEn && d.get BUF_SPILL_SIZE_GIB != 0

/-- A frame is refused at admission: it is discarded, and counts in its queue's DROP_FRAMES (R153). -/
def refuse (d : Dev) (i q : Nat) : Dev :=
  (d.modQueue q fun x => { x with dropFrames := satAdd 64 x.dropFrames 1 }).freeFrame i

/-- The counter of a green, yellow or red admission, or of a refusal by a queue limit. -/
def admitCtr : Colour → Ctr
  | .green => BUF_CNT_ADMIT_GREEN | .yellow => BUF_CNT_ADMIT_YELLOW | .red => BUF_CNT_ADMIT_RED
def limitCtr : Colour → Ctr
  | .green => BUF_CNT_LIMIT_DROP_GREEN | .yellow => BUF_CNT_LIMIT_DROP_YELLOW | .red => BUF_CNT_LIMIT_DROP_RED

/-- The length that accounting uses: an oversize frame is a frame of MAX_FRAME bytes (R65). -/
def acctLen (d : Dev) (f : Frame) : Nat :=
  match f.src with
  | .port p => if f.oversize then d.maxFrame p else f.len
  | _ => f.len

/-- Writes a frame to spill, its queue becoming or staying SPILLING, or refuses it (R156). -/
def spillFrame (d : Dev) (i : Nat) (f : Frame) (q b n : Nat) (c : Colour) : Dev :=
  let x := d.queue q
  if c = .red then (d.inc BUF_CNT_SPILL_RED_DROP).refuse i q
  else if x.spillLimit * 4096 < x.spillCells + n then (d.inc BUF_CNT_SPILL_LIMIT_DROP).refuse i q
  else if d.spillGranules < d.spillUsed + (ceilDiv (x.spillCells + n) 16 - ceilDiv x.spillCells 16) * 16 then
    ((d.inc BUF_CNT_SPILL_LIMIT_DROP).setEvent BUF_EVENT_SPILL_FULL).refuse i q
  else if d.spillBudget < b * 3 then (d.inc BUF_CNT_SPILL_BW_DROP).refuse i q
  else
    let d := { d with buf := { d.buf with budget := d.spillBudget - b * 3, budgetAt := d.cycle } }
    let d := d.modQueue q fun x =>
      { x with spilling := true, spillCells := x.spillCells + n, spill := x.spill ++ [i],
               admitFrames := satAdd 64 x.admitFrames 1,
               admitBytes := if f.ended then satAdd 64 x.admitBytes (d.acctLen f) else x.admitBytes }
    let d := d.resizeCells i 0
    (d.inc BUF_CNT_SPILLED).setFrame i { f with stage := .spilled none, charge := b, cells := 0, admittedAt := d.cycle,
                                                cutThrough := some false }

/-- The admission decision of R153 for a frame with its final colour. A frame that comes to a queue in the sweep of its
saggar's reset is discarded as on a link past its hold (R69, R375). A frame that a thread returns brings all the cells it holds into
the queue's OCC (R227). -/
def admitFrame (d : Dev) (i : Nat) (f : Frame) (q b : Nat) (c : Colour) : Dev :=
  let n := cellsOf b
  let x := d.queue q
  let p := d.portOf q
  -- a frame that already holds cells (returned from a thread, or read in by DMA) is decided on what it adds
  let add := n - f.cells
  let hold := match f.src with | .dma _ => n | _ => Nat.max n f.cells
  let f := { f with act := f.act.map fun a => { a with colour := c } }
  let d := d.setFrame i f
  if !d.flag BUF_CTRL_ENABLE then (d.inc BUF_CNT_BUF_OFF_DROP).refuse i q
  else if (d.pastHold p && !d.rxServed q) || d.sweptQueue q then
    (if d.subExists (p / 4) (p % 4) then d.inc (ETH_CNT_LINK_DOWN_DROP (p / 4) (p % 4)) else d).refuse i q
  else if x.spilling then d.spillFrame i f q b n c
  else if x.occ + n ≤ limitFor x c ∧ add ≤ d.freeCells ∧ d.floorFor c ≤ d.freeCells - add then
    let d := if f.cells ≤ hold then d.takeCells (hold - f.cells) else d.giveCells (f.cells - hold)
    let d := d.modQueue q fun x =>
      { x with occ := x.occ + hold, admitFrames := satAdd 64 x.admitFrames 1,
               admitBytes := if f.ended then satAdd 64 x.admitBytes (d.acctLen f) else x.admitBytes }
    (d.inc (admitCtr c)).setFrame i { f with stage := .admitted (d.cycle + 60), charge := b, cells := hold,
                                             admittedAt := d.cycle,
                                             cutThrough := some (f.cutThrough.getD (d.cutThroughPath f q)) }
  else if d.maySpill x && c != .red then d.spillFrame i f q b n c
  else if limitFor x c < x.occ + n then (d.inc (limitCtr c)).refuse i q
  else (d.inc BUF_CNT_POOL_DROP).refuse i q

/-- Takes cells for a frame without an egress queue of its own, under the first and last rows of R153; none when it is
refused, which counts BUF_OFF_DROP or POOL_DROP. -/
def takeForeign (d : Dev) (n : Nat) : Bool × Dev :=
  if !d.flag BUF_CTRL_ENABLE then (false, d.inc BUF_CNT_BUF_OFF_DROP)
  else if d.freeCells < n then (false, d.inc BUF_CNT_POOL_DROP)
  else (true, d.takeCells n)

/-- Meters a frame bound for queue `q` with entry colour `c` and charge `b` (R146 to R148, R186). -/
def meterFrame (d : Dev) (i q b : Nat) (c : Colour) (recol : Option Colour) : Colour × Dev :=
  let x := d.queue q
  if !x.meterEn then (c, d)
  else
    let m := (d.meter x.meter).settle d.cycle
    let r := m.judge (b + m.adj) c
    let d := (d.setMeter x.meter (m.debit (b + m.adj) r)).mark (.meterUse x.meter)
    let d := d.modFrame i fun f => { f with debit := some ⟨x.meter, r.2.1, r.2.2⟩ }
    (if m.aware then r.1 else (match recol with | some k => r.1.worse k | none => r.1), d)

/-- A frame joins its queue; one whose class is not the queue's counts (R165). -/
def joinQueue (d : Dev) (i : Nat) (f : Frame) (a : Actions) : Dev :=
  let d := if d.classOf a.queue % 8 ≠ a.cls then d.inc TM_CNT_CLASS_MISMATCH else d
  (d.modQueue a.queue fun x => { x with frames := x.frames ++ [i] }).setFrame i { f with stage := .queued }

/-- ENQUEUE (R152) of an admitted frame: visible to the scheduler at the end of the stage, a store-and-forward frame no
earlier than its good end and only if it passes R61. -/
def enqueue (d : Dev) (i : Nat) : Dev :=
  match d.frame? i with
  | none => d
  | some f =>
    match f.stage, f.act with
    | .admitted ready, some a =>
      if d.cycle < ready then d
      else if f.cutThrough = some true ∨ f.ended then
        let p := d.portOf a.queue
        if f.cutThrough ≠ some true ∧ d.maxFrame p < f.len then
          (if d.subExists (p / 4) (p % 4) then d.inc (ETH_CNT_TX_OVERSIZE_DROP (p / 4) (p % 4)) else d).freeFrame i
        else
          d.joinQueue i f a
      else d
    | _, _ => d

/-- The correction of a frame's charge when it ends with L ≤ MAX_FRAME, apart from the tree (R144): the refund to the
buckets it debited, and the surplus cells. -/
def correctCharge (d : Dev) (i : Nat) (b l : Nat) : Dev :=
  match d.frame? i with
  | none => d
  | some f =>
    let d := d.inc BUF_CNT_CHARGE_REFUND
    -- R149: a refund comes before the frames of its cycle
    let d := match f.debit with
      | some x =>
        let d := d.before (.meterUse x.meter)
        d.setMeter x.meter (((d.meter x.meter).settle d.cycle).refund (b - l) x)
      | none => d
    let d := if 0 < f.cells then d.resizeCells i (cellsOf l) else d
    let d := match f.act with
      | some a => d.modQueue a.queue fun q =>
          if q.spill.contains i then { q with spillCells := q.spillCells - (cellsOf b - cellsOf l) } else q
      | none => d
    d.modFrame i fun f => { f with charge := l }

/-- SPILL_FETCH_START (R157): the next spilled frame of a SPILLING queue takes cells and is fetched, one frame of a queue at a
time (DESIGN CHOICE, notes/assumptions/50). -/
def spillFetchStart (d : Dev) (q : Nat) : Dev :=
  let x := d.queue q
  match x.spill with
  | [] => d
  | i :: _ =>
    match d.frame? i with
    | none => d
    | some f =>
      let n := cellsOf f.charge
      if x.spilling = true ∧ f.stage = .spilled none ∧ x.occ < Nat.min 1024 x.green ∧ n ≤ d.freeCells ∧
          f.charge * 3 ≤ d.fetchBudget then
        let d := { d with buf := { d.buf with fetchBudget := d.fetchBudget - f.charge * 3, fetchAt := d.cycle } }
        ((d.takeCells n).modQueue q fun x => { x with occ := x.occ + n }).setFrame i
          { f with cells := n, stage := .spilled (some d.cycle) }
      else d

/-- SPILL_FETCH_COMPLETE (R157, R158): the fetched frame, once it has ended, joins its queue, or is discarded on an
uncorrectable error; the queue leaves SPILLING with its last spilled frame. -/
def spillFetchComplete (d : Dev) (q : Nat) (uncorr : Bool) : Dev :=
  let x := d.queue q
  match x.spill with
  | [] => d
  | i :: rest =>
    match d.frame? i with
    | none => d
    | some f =>
      match f.stage, f.act with
      | .spilled (some _), some a =>
        if f.ended = false then d else
        let d := d.modQueue q fun x =>
          { x with spill := rest, spillCells := x.spillCells - cellsOf f.charge, spilling := !rest.isEmpty }
        if uncorr then (d.inc BUF_CNT_SPILL_UNCORR_DROP).freeFrame i
        else
          let p := d.portOf q
          let d := d.inc BUF_CNT_FETCHED
          if d.maxFrame p < f.len then
            (if d.subExists (p / 4) (p % 4) then d.inc (ETH_CNT_TX_OVERSIZE_DROP (p / 4) (p % 4)) else d).freeFrame i
          else d.joinQueue i f a
      | _, _ => d

/-! ### The inline queue (R280) -/

/-- INLINE_QDEPTH follows the inline queue. -/
def syncInline (d : Dev) : Dev := d.put GLZ_STATUS_INLINE_QDEPTH d.glz.inlineQ.length

/-- A frame whose last byte has arrived enters the inline queue, or is discarded where that is full (R280). -/
def enterInline (d : Dev) (i : Nat) : Dev :=
  if 4096 ≤ d.glz.inlineQ.length then
    ((d.inc GLZ_CNT_INL_QUEUE_DROP).setEvent GLZ_EVENT_INLINE_FULL).freeFrame i
  else
    ({ d with glz := { d.glz with inlineQ := d.glz.inlineQ ++ [i] } }.syncInline).modFrame i fun f => { f with stage := .inline }

/-! ### Indirect access (R159 to R161) -/

/-- Register `i` of an indirect data set at `base`. -/
def indRd (d : Dev) (base i : Nat) : Nat := (d.rd (base + 4 * i)).toNat

/-- Fills the sixteen indirect data registers at `base` with words, zero beyond the list (R48). -/
def indFill (d : Dev) (base : Nat) (ws : List Nat) : Dev :=
  (List.range 16).foldl (fun d i => d.fillRW (base + 4 * i) (BitVec.ofNat 32 (ws.getD i 0))) d

/-- A 64-bit count as two words. -/
def two (n : Nat) : List Nat := [n % 2 ^ 32, n / 2 ^ 32]

/-- Whether a queue is FLUSHING: its sub-port's flush runs, and no enabled RX channel serves it, or the sweep of its saggar's
reset does (R69, R160, R343, R374). -/
def flushingQ (d : Dev) (q : Nat) : Bool := ((d.sub (d.portOf q)).flushEnds.isSome && !d.rxServed q) || d.sweptQueue q

/-- The words of a queue entry (R160). -/
def queueWords (x : QEntry) (flushing : Bool) : List Nat :=
  [x.green, x.yellow, x.red, b2n x.spillEn * 2 ^ 17 + b2n x.meterEn * 2 ^ 16 + x.meter, x.spillLimit, x.occ,
   x.spillCells, b2n flushing * 2 + b2n x.spilling] ++ two x.admitFrames ++ two x.admitBytes ++ two x.dropFrames

/-- A queue entry with its configuration bytes 0–19 taken from the data registers (R159, R160). -/
def queueFrom (w : Nat → Nat) (x : QEntry) : QEntry :=
  { x with
    green := Nat.min 786432 (bitsOf (w 0) 0 20)
    yellow := bitsOf (w 1) 0 20
    red := bitsOf (w 2) 0 20
    spillEn := bitOf (w 3) 17
    meterEn := bitOf (w 3) 16
    meter := bitsOf (w 3) 0 16
    spillLimit := Nat.min 32768 (bitsOf (w 4) 0 16) }

/-- The words of a meter entry (R161): TC and TP read whole bytes (R147). -/
def meterWords (m : Meter) : List Nat :=
  [m.cir, m.pir, b2n m.aware * 2 ^ 25 + b2n m.rfc4115 * 2 ^ 24 + m.cbs, m.adj * 2 ^ 24 + m.pbs, m.tc / tokenUnit,
   m.tp / tokenUnit, 0, 0] ++ two m.greenFrames ++ two m.yellowFrames ++ two m.redFrames

/-- A meter with its configuration bytes 0–15 taken from the data registers; FILL fills the buckets, otherwise each is
kept and capped at its new size (R159, R161). -/
def meterFrom (w : Nat → Nat) (now : Nat) (m : Meter) (fill : Bool) : Meter :=
  let m := m.settle now
  let cbs := bitsOf (w 2) 0 24
  let pbs := bitsOf (w 3) 0 24
  { m with
    cir := w 0, pir := w 1, aware := bitOf (w 2) 25, rfc4115 := bitOf (w 2) 24, cbs := cbs,
    adj := bitsOf (w 3) 24 6, pbs := pbs,
    tc := if fill then cbs * tokenUnit else Nat.min m.tc (cbs * tokenUnit),
    tp := if fill then pbs * tokenUnit else Nat.min m.tp (pbs * tokenUnit) }

end Dev

/-- An indirect command: the write of the command register, then its operation, if the word's OP names it. -/
def indirect (cmdReg op : Nat) (p : Path) (data : W32) (f : Dev → Nat → Dev) (d : Dev) : Dev :=
  let d := d.writeFields p cmdReg data
  if fieldGet data 24 3 = op then f d (fieldGet data 0 16) else d

/-- READ_Q (R159). -/
def doReadQ (p : Path) (data : W32) (d : Dev) : Dev :=
  indirect BUF_IND_CMD 1 p data (fun d i => d.indFill 0x400080 (Dev.queueWords (d.queue i) (d.flushingQ i))) d

/-- WRITE_Q (R159). -/
def doWriteQ (p : Path) (data : W32) (d : Dev) : Dev :=
  indirect BUF_IND_CMD 2 p data (fun d i => (d.setQueue i (Dev.queueFrom (d.indRd 0x400080) (d.queue i))).mark (.queueWrite i)) d

/-- READ_M (R159). -/
def doReadM (p : Path) (data : W32) (d : Dev) : Dev :=
  indirect BUF_IND_CMD 3 p data (fun d i => d.indFill 0x400080 (Dev.meterWords ((d.meter i).settle d.cycle))) d

/-- WRITE_M (R159). -/
def doWriteM (p : Path) (data : W32) (d : Dev) : Dev :=
  indirect BUF_IND_CMD 4 p data (fun d i =>
    (d.setMeter i (Dev.meterFrom (d.indRd 0x400080) d.cycle (d.meter i) (fieldGet data 16 1 == 1))).mark (.meterWrite i)) d

/-- CLEAR_Q_CNT (R159). -/
def doClearQCnt (p : Path) (data : W32) (d : Dev) : Dev :=
  indirect BUF_IND_CMD 5 p data
    (fun d i => d.modQueue i fun x => { x with admitFrames := 0, admitBytes := 0, dropFrames := 0 }) d

/-- CLEAR_M_CNT (R159). -/
def doClearMCnt (p : Path) (data : W32) (d : Dev) : Dev :=
  indirect BUF_IND_CMD 6 p data
    (fun d i =>
      -- R149: the clear comes before the counts of its cycle
      let d := d.before (.meterUse i)
      d.setMeter i { d.meter i with greenFrames := 0, yellowFrames := 0, redFrames := 0 }) d

/-- BUFFER_ENABLE (R46, R155): the first write of 1 checks the spill region against the key-context region of 256 MiB
that GLZ_KC_BASE names, and locks the RWL fields. -/
def doBufferEnable (p : Path) (data : W32) (d : Dev) : Dev :=
  let d := d.writeFields p BUF_CTRL data
  let on := fieldGet data 0 1
  let d := d.put BUF_CTRL_ENABLE on
  if on = 1 ∧ d.leftSetup BUF_CTRL = false then
    let lo := d.get BUF_SPILL_BASE_GIB * 4
    let hi := lo + d.get BUF_SPILL_SIZE_GIB * 4
    let kc := d.get GLZ_KC_BASE_UNIT
    (if lo ≤ kc ∧ kc < hi then d.put BUF_SPILL_SIZE_GIB 0 else d).lock BUF_CTRL
  else d

/-- SPILL_FETCH_START (R157). -/
def doSpillFetchStart (q : Fin 65536) (d : Dev) : Dev := d.spillFetchStart q

end Sys2Proof.Machine
end

