-- ==== Sys2Proof/Machine/TmOps.lean ====
section
/-!
DEFINITION. The traffic manager: the scheduling tree with its deficit round robin and shapers, the time gates, stream
filtering, and the indirect entries (chapter Scheduling, Shaping, Time Gates and Network Time).
-/

namespace Sys2Proof.Machine

/-- PIPE cycles in which `n` bytes pass at `r` Gbit/s, rounded up. -/
def wireCycles (n r : Nat) : Nat := ceilDiv (24 * n) r

/-- A node with the tokens gained up to a cycle (R171). -/
def Node.settle (x : Node) (now : Nat) : Node :=
  { x with
    tokens := min ((x.burst * tokenUnit : Nat) : Int) (x.tokens + ((now - x.at_) * x.rate : Nat))
    at_ := now }

/-- Whether a node may be scheduled: ENABLE and its shaper (R167). -/
def Node.open_ (x : Node) (now : Nat) : Bool := x.enable && (!x.shapeEn || decide (0 ≤ (x.settle now).tokens))

namespace Dev

/-! ### Gates -/

/-- The network time at which gate `c` closes, at or after `t`, where it is open; none where it does not close within
the span that `fuel` intervals cover (R179). -/
def closesAt (d : Dev) (g c : Nat) : Nat → Nat → Option Nat
  | 0, _ => none
  | n + 1, t =>
    let r := d.gatesAt g t
    if !bitOf r.2.1 c then some t
    else match r.2.2 with
      | none => none
      | some e => if e ≤ t then none else closesAt d g c n e

/-- Whether the gate of class `c` admits a frame of `len` bytes that starts at network time `t48` (2^-48 ns) at `r`
Gbit/s: open, and X ≤ R − 2 (R179). Returns the closing time where it is open and the frame does not fit. -/
def gateFits (d : Dev) (g c len r t48 : Nat) : Bool × Option Nat :=
  let t := t48 / 2 ^ 48
  if !bitOf (d.gatesAt g t).2.1 c then (false, none)
  else match d.closesAt g c 2100 t with
    | none => (true, none)
    | some close =>
      let rem := close * 2 ^ 48 - t48
      (decide ((len + 8) * 8 * 2 ^ 48 + 2 * 2 ^ 48 * r ≤ rem * r), some close)

/-! ### The tree (R163 to R173) -/

/-- Whether any enqueued frame hangs below a node. -/
def holds (d : Dev) (lvl i : Nat) : Bool :=
  d.buf.queues.any fun kv => !kv.2.frames.isEmpty &&
    (match lvl with
      | 0 => d.portOf kv.1 == i
      | 1 => d.classOf kv.1 == i
      | 2 => d.groupOf kv.1 == i
      | _ => kv.1 == i)

/-- A node emptied: its deficit and visited mark return to 0 (R168). -/
def emptied (d : Dev) (lvl i : Nat) : Dev :=
  if d.holds lvl i then d else d.setNode lvl i { d.node lvl i with deficit := 0, visited := false }

/-- The nodes on a queue's path, from the queue up to the sub-port: (level, index). -/
def pathOf (d : Dev) (q : Nat) : List (Nat × Nat) := [(3, q), (2, d.groupOf q), (1, d.classOf q), (0, d.portOf q)]

/-- A frame leaves its queue: the emptied nodes of its path, below the root. -/
def leftQueue (d : Dev) (q : Nat) : Dev := ((d.emptied 3 q).emptied 2 (d.groupOf q)).emptied 1 (d.classOf q)

/-- The least that a bucket holds: −(10,240 + 63) bytes (R171). -/
def tokenFloor : Int := -((10303 * tokenUnit : Nat) : Int)

/-- A charge passes the nodes of a path: deficits (below the root) and tokens move by `n` and `n` + ADJ, tokens capped at
BURST and never below their floor (R168, R171). `back` returns them. -/
def chargePath (d : Dev) (q n : Nat) (back withAdj : Bool) : Dev :=
  (d.pathOf q).foldl (fun d (lv, i) =>
    let x := (d.node lv i).settle d.cycle
    let t : Int := ((n + if withAdj then x.adj else 0) * tokenUnit : Nat)
    d.setNode lv i { x with
      deficit := if lv = 0 then x.deficit else if back then x.deficit + n else x.deficit - n
      tokens := if back then min ((x.burst * tokenUnit : Nat) : Int) (x.tokens + t) else max tokenFloor (x.tokens - t) }) d

/-- Marks every chosen frame whose first preamble bit is due as started, so that it has left its queue (R66). -/
def startDue (d : Dev) : Dev :=
  d.eth.sub.foldl (fun d kv =>
    match kv.2.tx with
    | none => d
    | some i =>
      if kv.2.started then d
      else match d.frame? i with
        | none => d
        | some f =>
          match f.stage, f.act with
          | .chosen _ st, some a =>
            if st ≤ d.cycle ∧ (f.cutThrough ≠ some true ∨ f.ctStarted = true) then
              let d := ((d.modSub kv.1 fun x => { x with started := true }).setFrame i { f with sent := true }).leftQueue a.queue
              let d := d.inc TM_CNT_DEQ_FRAMES
              if f.ended then d.bump TM_CNT_DEQ_BYTES (d.acctLen f) else d
            else d
          | _, _ => d) d

/-- One child in a node's round: (index, quantum, deficit, visited, head charge). -/
structure Turn where
  idx : Nat
  quantum : Nat
  deficit : Int
  visited : Bool
  head : Nat
  deriving DecidableEq, Repr

/-- The loop of pick over the eligible children, the child at the node's pointer first (R168). The result is the round
as it stands, the chosen child first. -/
def drr : Nat → List Turn → List Turn
  | 0, ts => ts
  | _ + 1, [] => []
  | n + 1, t :: ts =>
    let t := if t.visited then t else { t with deficit := t.deficit + t.quantum, visited := true }
    if (t.head : Int) ≤ t.deficit then t :: ts
    else drr n (ts ++ [{ t with visited := false }])

/-- The children from the pointer on: those at or after `cur` first (R168: index order, wrapping). -/
def fromCur (cur : Nat) (ts : List Turn) : List Turn :=
  ts.filter (fun t => decide (cur ≤ t.idx)) ++ ts.filter (fun t => decide (t.idx < cur))

/-- A node's choice among candidates (child, frame, device if that child is chosen), in index order. -/
def pickChild (d : Dev) (lvl i : Nat) (cands : List (Nat × Nat × Dev)) : Option (Nat × Dev) :=
  let x := d.node lvl i
  let turns := cands.map fun (c, f, _) =>
    let y := d.node (lvl + 1) c
    { idx := c, quantum := y.quantum, deficit := y.deficit, visited := y.visited && c == x.cur,
      head := (match d.frame? f with | some fr => fr.charge | none => 0) : Turn }
  match drr (200 * turns.length + 1) (fromCur x.cur turns) with
  | [] => none
  | t :: ts =>
    match cands.find? (·.1 == t.idx) with
    | none => none
    | some (c, f, d') =>
      let d' := if x.cur = c then d' else d'.setNode (lvl + 1) x.cur { d'.node (lvl + 1) x.cur with visited := false }
      let d' := (t :: ts).foldl (fun d' t =>
        d'.setNode (lvl + 1) t.idx { d'.node (lvl + 1) t.idx with deficit := t.deficit, visited := t.visited }) d'
      some (f, d'.setNode lvl i { d'.node lvl i with cur := c })

/-- The queues with frames that the traffic manager schedules toward a sub-port, in index order: not those that an enabled RX
channel serves (R343). -/
def busyQueues (d : Dev) (p : Nat) : List Nat :=
  (d.buf.queues.filter fun kv => !kv.2.frames.isEmpty && d.portOf kv.1 == p && !d.rxServed kv.1).map (·.1)

/-- The sorted indexes without repeats. -/
def distinct (xs : List Nat) : List Nat := (xs.dedup).insertionSort (· ≤ ·)

/-- pick at a queue node: its head frame, if the node is eligible. -/
def pickQueue (d : Dev) (q : Nat) : Option (Nat × Dev) :=
  if (d.node 3 q).open_ d.cycle then (d.queue q).frames.head?.map fun f => (f, d) else none

/-- pick at a group node. -/
def pickGroup (d : Dev) (qs : List Nat) (g : Nat) : Option (Nat × Dev) :=
  if (d.node 2 g).open_ d.cycle then
    d.pickChild 2 g ((qs.filter (d.groupOf · == g)).filterMap fun q => (d.pickQueue q).map fun r => (q, r.1, r.2))
  else none

/-- pick at a class node. -/
def pickClass (d : Dev) (qs : List Nat) (c : Nat) : Option (Nat × Dev) :=
  if (d.node 1 c).open_ d.cycle then
    d.pickChild 1 c ((distinct ((qs.filter (d.classOf · == c)).map d.groupOf)).filterMap fun g =>
      (d.pickGroup qs g).map fun r => (g, r.1, r.2))
  else none

/-- The length that the guard band takes (R62): the ingress port's MAX_FRAME for a cut-through frame, else L. -/
def guardLen (d : Dev) (f : Frame) : Nat :=
  match f.src, f.cutThrough with
  | .port p, some true => d.maxFrame p
  | _, _ => f.len

/-- The class nodes' candidates at sub-port `p` for a frame that starts at `t48`; a frame that does not fit before its
gate closes holds its class until the gate next opens, which counts once (R179); a gate that by its present rule does not close then
holds nothing (R178, R193). -/
def classCands (d : Dev) (p t48 : Nat) (qs : List Nat) : List Nat → Dev × List (Nat × Nat)
  | [] => (d, [])
  | c :: cs =>
    let t := t48 / 2 ^ 48
    let heldNow := match tabGet (fun _ => none) d.tm.held c with
      | some close => decide (t < close) && d.closesAt (p / 4) (c % 8) 2100 t == some close
      | none => false
    match (if heldNow then none else d.pickClass qs c) with
    | none => classCands d p t48 qs cs
    | some (i, _) =>
      match d.frame? i with
      | none => classCands d p t48 qs cs
      | some f =>
        match d.gateFits (p / 4) (c % 8) (d.guardLen f) (d.rate p) t48 with
        | (true, _) =>
          let r := classCands d p t48 qs cs
          (r.1, (c, i) :: r.2)
        | (false, none) => classCands d p t48 qs cs
        | (false, some close) =>
          let d := { d with tm := { d.tm with held := tabSet (fun _ => none) d.tm.held c (some close) } }
          classCands (d.inc TM_CNT_GUARD_HOLDS) p t48 qs cs

/-- Whether the scheduler serves a sub-port: TM enabled, its link up and not in far-end loopback, no flush running, its
node enabled (R66, R69, R71, R167). -/
def schedulable (d : Dev) (p : Nat) : Bool :=
  d.flag TM_CTRL_ENABLE && d.subExists (p / 4) (p % 4) && d.flag (ETH_SP_STATUS_LINK_UP (p / 4) (p % 4)) &&
    !(d.get (ETH_CTRL_LOOPBACK (p / 4)) == 2) && (d.sub p).flushEnds.isNone && (d.node 0 p).open_ d.cycle &&
    (d.sub p).tx.isNone

/-- The age check of R68: admitted more than AGE_MS ms ago, to 1 µs. -/
def aged (d : Dev) (p : Nat) (f : Frame) : Bool :=
  let ms := d.get (ETH_AGE_LIMIT_AGE_MS (p / 4))
  ms != 0 && decide (ms * 1000 < (d.cycle - f.admittedAt) / 3000)

/-- The dequeue decision for sub-port `p` (R166 to R168), with whether it found an eligible frame: an aged one is discarded
instead of sent (R68); otherwise the frame is chosen, and its charge passes every node of its path. -/
def dequeueFor (d : Dev) (p : Nat) : Bool × Dev :=
  let qs := d.busyQueues p
  let start := Nat.max d.cycle (d.sub p).txFreeAt
  let t48 := d.time.net + (start - d.cycle) * 2 ^ 48 / 3
  let (d1, cs) := d.classCands p t48 qs (distinct (qs.map d.classOf))
  match d1.pickChild 0 p (cs.filterMap fun (c, _) => (d1.pickClass qs c).map fun r => (c, r.1, r.2)) with
  | none => (false, d1)
  | some (i, d2) =>
    match d2.frame? i with
    | none => (false, d1)
    | some f =>
      match f.act with
      | none => (false, d1)
      | some a =>
        if d2.aged p f then
          (true, ((d2.inc (ETH_CNT_TX_AGED (p / 4) (p % 4))).freeFrame i).leftQueue a.queue)
        else
          let d := d2.chargePath a.queue f.charge false true
          let d := d.modQueue a.queue fun x => { x with frames := x.frames.drop 1 }
          let d := d.setFrame i { f with stage := .chosen p start }
          let d := (d.modSub p fun x => { x with tx := some i, started := false,
                                                 txFreeAt := start + wireCycles (f.charge + 20) (d.rate p) }).startDue
          (true, d.mark .sent)

/-- The first of some sub-ports with an eligible frame is served; the others are skipped (R167). -/
def serveFirst : List Nat → Dev → Dev
  | [], d => d
  | p :: ps, d =>
    match d.dequeueFor p with
    | (true, d) => d
    | (false, d) => serveFirst ps d

/-- The sub-ports of slice `k` in the order of R166: the one whose transmitter falls free soonest first, of equals the lowest
port index. A transmitter that is free has fallen free. -/
def portOrder (d : Dev) (k : Nat) : List Nat :=
  let free := fun p => Nat.max d.cycle (d.sub p).txFreeAt
  (((List.range 8).map (8 * k + ·)).filter d.schedulable).insertionSort fun p q =>
    free p < free q ∨ (free p = free q ∧ p ≤ q)

/-- DEQUEUE_DECISION (R166) of slice `k`; one that meets a WRITE_NODE in its cycle uses the old entry (R173). -/
def dequeueDecision (d : Dev) (k : Nat) : Dev :=
  let d := (d.before .nodeWrite).startDue
  serveFirst (d.portOrder k) d

/-- The correction of a charge in the tree: MAX_FRAME − L returns to the deficits and tokens of the path of a frame that
has been sent through it (R168, R171), before the sends of its cycle (R173). -/
def correctTree (d : Dev) (f : Frame) (b l : Nat) : Dev :=
  match f.stage, f.act with
  | .chosen _ _, some a => (d.before .sent).chargePath a.queue (b - l) true false
  | _, _ => d

/-! ### Stream filtering (R182 to R186) -/

/-- Whether stream gate `g` was open `n` ns after the arrival of frame `f`, or before it for a negative `n`, as ruled at that
time; what lies ahead is judged by what rules now (R183). -/
def gateOpenNear (d : Dev) (g : Nat) (f : Frame) (n : Int) : Bool :=
  let t := ((f.sfd / 2 ^ 48 : Nat) : Int) + n
  decide (0 ≤ t) && bitOf ((d.gateViewAt (16 + g) ((f.sfdAt : Int) + 3 * n).toNat).gates t.toNat).2.1 0

/-- The stream gate of a filter at the arrival of frame `f`, with the distances to its next opening and since its last closing in
2^-48 ns, each if within the tolerance of `tol` ns: (open, early, late) (R185). Gates move on whole ns, arrivals between. -/
def gateDrift (d : Dev) (g : Nat) (f : Frame) (tol : Nat) : Bool × Option Nat × Option Nat :=
  if d.gateOpenNear g f 0 then (true, none, none)
  else
    let part := f.sfd % 2 ^ 48
    let early := ((List.range (tol + 1)).find? fun (n : Nat) => d.gateOpenNear g f n).map fun n => n * 2 ^ 48 - part
    let late := ((List.range (tol + 1)).find? fun (n : Nat) => d.gateOpenNear g f (-(n : Int) - 1)).map fun n => n * 2 ^ 48 + part
    (false, early, late.filter fun x => decide (x ≤ tol * 2 ^ 48))

/-- Whether a stream gate is judged without tolerance at the arrival of a frame: idle, or in a loss state (R185). -/
def noTolerance (d : Dev) (g : Nat) (f : Frame) : Bool := (d.gateViewAt (16 + g) f.sfdAt).strict (f.sfd / 2 ^ 48)

/-- The result of stream filtering for a frame (R183). -/
inductive SfResult where
  | pass (recol : Option Colour) | discard
  deriving DecidableEq, Repr

/-- The filter index that a frame's record names, if its pipeline filters (R182). -/
def streamOf (d : Dev) (f : Frame) : Option Nat :=
  match f.src, f.words with
  | .port p, some w =>
    let k := p / 8
    let word := (w.getD (d.get (TM_STREAM_SEL_WORD k)) 0#16).toNat
    if d.flag TM_CTRL_ENABLE && d.flag (TM_STREAM_SEL_EN k) && bitOf word 15 then some (bitsOf word 0 12) else none
  | _, _ => none

/-- Steps 1 and 2 of R183, with the case table of R185. -/
def streamFilter (d : Dev) (i : Nat) (f : Frame) : SfResult × Dev :=
  match d.streamOf f with
  | none => (.pass none, d)
  | some ix =>
    let x := d.filter ix
    if !x.valid then (.pass none, d.inc TM_CNT_SF_UNKNOWN)
    else if x.blocked then (.discard, d.setFilter ix { x with sduDrop := satAdd 64 x.sduDrop 1 })
    else
      let d := d.setFrame i { f with sf := some ix }
      let strict := d.noTolerance x.gate f
      let tol := if strict then 0 else d.get TM_STREAM_TOL_NS
      let pass := { x with passed := satAdd 64 x.passed 1 }
      let beyond : SfResult × Dev :=
        if x.recolourAct then
          (.pass (some (Colour.ofCode x.recolour)), d.setFilter ix { x with gateRecolour := satAdd 64 x.gateRecolour 1 })
        else (.discard, d.setFilter ix { x with gateDrop := satAdd 64 x.gateDrop 1 })
      match d.gateDrift x.gate f tol with
      | (true, _, _) => (.pass none, d.setFilter ix pass)
      | (false, e, l) =>
        if strict then beyond
        else match e, l with
          | some _, none => (.pass none, d.setFilter ix { pass with early := satAdd 64 x.early 1 })
          | none, some _ => (.pass none, d.setFilter ix { pass with late := satAdd 64 x.late 1 })
          | some ne, some nl =>
            if ne < nl then (.pass none, d.setFilter ix { pass with early := satAdd 64 x.early 1 })
            else (.pass none, d.setFilter ix { pass with late := satAdd 64 x.late 1 })
          | none, none => beyond

/-- Step 3 of R183 when a frame ends with L bytes: whether it exceeds its filter's MAX_SDU, and the device with that
counted. -/
def sduCheck (d : Dev) (f : Frame) : Bool × Dev :=
  match f.sf with
  | none => (false, d)
  | some ix =>
    let x := d.filter ix
    if x.maxSdu ≠ 0 ∧ x.maxSdu < f.len then
      (true, d.setFilter ix { x with sduDrop := satAdd 64 x.sduDrop 1, blocked := x.blocked || x.blockOversize })
    else (false, d)

/-- METER_ADMIT (R153): the first cycle of metering and admission of frame `i` (R182 to R186, R146 to R148, R150). -/
def meterAdmit (d : Dev) (i : Nat) : Dev :=
  match d.frame? i with
  | none => d
  | some f =>
    match f.stage, f.act with
    | .meter, some a =>
      match d.streamFilter i f with
      | (.discard, d) => d.freeFrame i
      | (.pass recol, d) =>
        let entry := match recol with | some c => a.colour.worse c | none => a.colour
        let b := d.chargeLen f
        -- a malformed frame queued by PL_MALF_CTRL is never metered (R146)
        let r := if f.malformed then (entry, d) else d.meterFrame i a.queue b entry recol
        match r.2.frame? i with
        | some f =>
          -- a frame that has ended already is compared with MAX_SDU now (R183)
          let chk := if f.ended then r.2.sduCheck f else (false, r.2)
          if chk.1 then chk.2.freeFrame i else chk.2.admitFrame i { f with recolour := recol } a.queue b r.1
        | none => r.2
    | _, _ => d

/-- The pipeline whose turn to admit a frame takes: that of its ingress port, 8 for a frame from elsewhere (R149, R154). -/
def pipeOf (f : Frame) : Nat := match f.src with | .port p => p / 8 | _ => 8

/-- The metering and admission of frame `i`: pipelines in ascending order, with the queue and meter entries as they stood before
the writes of the cycle (R149, R153, R154). -/
def meterAndAdmit (d : Dev) (i : Nat) : Dev :=
  match d.frame? i with
  | none => d
  | some f =>
    match f.stage, f.act with
    | .meter, some a =>
      let d := (d.afterPipes (pipeOf f)).before (.queueWrite a.queue)
      let d := if (d.queue a.queue).meterEn then d.before (.meterWrite (d.queue a.queue).meter) else d
      (d.meterAdmit i).mark (.admission (pipeOf f))
    | _, _ => d

/-! ### Indirect access (R173, R195, R196) -/

/-- A signed whole-byte value as a 32-bit word. -/
def sword (x : Int) : Nat := ofSigned 32 x

/-- The words of a node entry (R195): TOKENS of a fraction of a byte is rounded down (DESIGN CHOICE, notes/assumptions/51). -/
def nodeWords (x : Node) : List Nat :=
  [x.quantum, x.rate, b2n x.shapeEn * 2 ^ 31 + x.adj * 2 ^ 24 + x.burst,
   b2n x.enable * 2 ^ 31 + x.owner * 2 ^ 16 + x.parent, sword x.deficit, sword (x.tokens / (tokenUnit : Int))]

/-- The number of nodes of a level (R163). -/
def levelCount : Nat → Nat
  | 0 => 64 | 1 => 512 | 2 => 8192 | _ => 65536

/-- A node entry written from the data registers (R195). -/
def nodeFrom (w : Nat → Nat) (now lvl : Nat) (x : Node) (fill : Bool) : Node :=
  let x := x.settle now
  let burst := bitsOf (w 2) 0 24
  { x with
    quantum := Nat.max 64 (Nat.min 16777216 (bitsOf (w 0) 0 25))
    rate := w 1
    shapeEn := bitOf (w 2) 31
    adj := bitsOf (w 2) 24 6
    burst := burst
    enable := bitOf (w 3) 31
    owner := if lvl = 2 then bitsOf (w 3) 16 11 else 0
    parent := if lvl = 2 ∨ lvl = 3 then bitsOf (w 3) 0 16 else x.parent
    tokens := if fill then ((burst * tokenUnit : Nat) : Int) else min x.tokens ((burst * tokenUnit : Nat) : Int) }

/-- Whether any frame, chosen ones not yet started included, stands in a node's subtree (R173). -/
def subtreeHolds (d : Dev) (lvl i : Nat) : Bool :=
  d.holds lvl i || d.frames.any fun kv => match kv.2 with
    | none => false
    | some f =>
      match f.stage, f.act with
      | .admitted _, some a => (d.pathOf a.queue).contains (lvl, i)
      | .spilled _, some a => (d.pathOf a.queue).contains (lvl, i)
      | .chosen p _, some a => !(d.sub p).started && (d.pathOf a.queue).contains (lvl, i)
      | _, _ => false

/-- WRITE_NODE: the whole write is refused where it changes PARENT of a node whose subtree holds a frame, or names a
PARENT out of range (R173, TM_IND_STATUS). An INDEX beyond the level's nodes names none: it is ignored, REFUSED as it was
(DESIGN CHOICE, notes/assumptions/51). -/
def writeNode (d : Dev) (lvl i : Nat) (fill : Bool) : Dev :=
  if levelCount lvl ≤ i then d
  else
    let x := d.node lvl i
    let y := nodeFrom (d.indRd 0x500080) d.cycle lvl x fill
    -- a group in a saggar's range keeps its owner (R366)
    let y := if lvl = 2 then match d.groupSag i with | some s => { y with owner := s } | none => y else y
    if y.parent ≠ x.parent ∧ (d.subtreeHolds lvl i = true ∨ levelCount (lvl - 1) ≤ y.parent) then
      d.put TM_IND_STATUS_REFUSED 1
    else ((d.setNode lvl i y).put TM_IND_STATUS_REFUSED 0).mark .nodeWrite

/-- The words of a stream filter (R196). -/
def filterWords (x : StreamFilter) : List Nat :=
  [b2n x.valid * 2 ^ 31 + b2n x.blockOversize * 2 ^ 30 + b2n x.blocked * 2 ^ 29 + b2n x.recolourAct * 2 ^ 28 +
     x.recolour * 2 ^ 26 + x.gate * 2 ^ 16 + x.maxSdu, 0, 0, 0] ++
  two x.passed ++ two x.early ++ two x.late ++ two x.gateDrop ++ two x.gateRecolour ++ two x.sduDrop

/-- A stream filter written from the data registers; BLOCKED is cleared (R196). -/
def filterFrom (d : Dev) (x : StreamFilter) : StreamFilter :=
  let w := d.indRd 0x500080 0
  { x with valid := bitOf w 31, blockOversize := bitOf w 30, blocked := false, recolourAct := bitOf w 28,
           recolour := bitsOf w 26 2, gate := bitsOf w 16 8, maxSdu := bitsOf w 0 14 }

end Dev

/-- DEQUEUE_DECISION (R166). -/
def doDequeueDecision (k : Fin 8) (d : Dev) : Dev := d.dequeueDecision k

/-- READ_NODE (R195); an INDEX beyond the level's nodes reads a node at its defaults (DESIGN CHOICE, notes/assumptions/51). -/
def doReadNode (p : Path) (data : W32) (d : Dev) : Dev :=
  indirect TM_IND_CMD 1 p data (fun d i =>
    d.indFill 0x500080 (Dev.nodeWords ((d.node (fieldGet data 20 2) i).settle d.cycle))) d

/-- WRITE_NODE (R173, R195). -/
def doWriteNode (p : Path) (data : W32) (d : Dev) : Dev :=
  indirect TM_IND_CMD 2 p data (fun d i => d.writeNode (fieldGet data 20 2) i (fieldGet data 16 1 == 1)) d

/-- READ_SF (R196); an INDEX of 4,096 or more is taken modulo 4,096 (DESIGN CHOICE, notes/assumptions/51). -/
def doReadSf (p : Path) (data : W32) (d : Dev) : Dev :=
  indirect TM_IND_CMD 3 p data (fun d i => d.indFill 0x500080 (Dev.filterWords (d.filter (i % 4096)))) d

/-- WRITE_SF (R196); an INDEX of 4,096 or more is ignored (DESIGN CHOICE, notes/assumptions/51). -/
def doWriteSf (p : Path) (data : W32) (d : Dev) : Dev :=
  indirect TM_IND_CMD 4 p data (fun d i =>
    if i < 4096 then (d.setFilter i (d.filterFrom (d.filter i))).put TM_IND_STATUS_REFUSED 0 else d) d

/-- CLEAR_SF_CNT (R196); an INDEX of 4,096 or more is ignored (DESIGN CHOICE, notes/assumptions/51). -/
def doClearSfCnt (p : Path) (data : W32) (d : Dev) : Dev :=
  indirect TM_IND_CMD 5 p data (fun d i =>
    if i < 4096 then d.setFilter i { d.filter i with
      passed := 0, early := 0, late := 0, gateDrop := 0, gateRecolour := 0, sduDrop := 0 } else d) d

/-- TM_ENABLE (R46). -/
def doTmEnable (p : Path) (data : W32) (d : Dev) : Dev :=
  let d := d.writeFields p TM_CTRL data
  let on := fieldGet data 0 1
  let d := d.put TM_CTRL_ENABLE on
  if on = 1 then d.lock TM_CTRL else d

end Sys2Proof.Machine
end

