-- ==== Sys2Proof/Machine/DmaBase.lean ====
section
/-!
DEFINITION. The named operations of the DMA engines: rights, reads and writes of a channel, the arbiter, completions,
pause and stop (chapter Tearell Rings, Doorbells and DMA).
-/

namespace Sys2Proof.Machine

/-- Channel states (DMA_CH_STATUS.STATE). -/
def chSetup : Nat := 0
def chRunning : Nat := 1
def chPausing : Nat := 2
def chPaused : Nat := 3
def chStopped : Nat := 4
def chResetting : Nat := 5

/-- Pause source bits (R354). -/
def srcMgr : Nat := 1
def srcPm : Nat := 2
def srcFreeze : Nat := 4
def srcSaggar : Nat := 8

/-- The FUNC value by which a manager channel is bound to no function (notes/assumptions/22). -/
def noFunc : Nat := 2047

/-- Word `w` of a descriptor. -/
def descWord (b : List Byte) (w : Nat) : Nat := fieldLE b (8 * w) 8

/-- Splits bytes into pieces of at most `n`, with their offsets (fuel: the number of bytes). -/
def chunks (n : Nat) : Nat → Nat → List Byte → List (Nat × List Byte)
  | 0, _, _ => []
  | _ + 1, _, [] => []
  | k + 1, o, bs => (o, bs.take n) :: chunks n k (o + n) (bs.drop n)

/-- The failure causes of DMA_ENG_ERR.CAUSE (R357). -/
def readFailCode : ReadFail → Nat
  | .ur => 1 | .ca => 2 | .poisoned => 3 | .timeout => 4 | .hbm => 5

namespace Dev

/-! ### A channel's registers -/

def chSt (d : Dev) (g : Nat) : Nat := d.get (DMA_CH_STATUS_STATE (g / 256) (g % 256))
def setChSt (d : Dev) (g s : Nat) : Dev := d.put (DMA_CH_STATUS_STATE (g / 256) (g % 256)) s
def chKind (d : Dev) (g : Nat) : Nat := d.get (DMA_CH_CFG_KIND (g / 256) (g % 256))
def chLink (d : Dev) (g : Nat) : Nat := d.get (DMA_CH_CFG_LINK (g / 256) (g % 256))
def chFunc (d : Dev) (g : Nat) : Nat := d.get (DMA_CH_CFG_FUNC (g / 256) (g % 256))
def chManager (d : Dev) (g : Nat) : Bool := d.flag (DMA_CH_OWNER_MANAGER (g / 256) (g % 256))
/-- The owner of a channel: a saggar, or none for the manager (R333). -/
def chOwner (d : Dev) (g : Nat) : Option Nat :=
  if d.chManager g then none else some (d.get (DMA_CH_OWNER_OWNER (g / 256) (g % 256)))
/-- Whether a channel is bound to a function (R333). -/
def chBound (d : Dev) (g : Nat) : Bool := !(d.chManager g && d.chFunc g == noFunc)
def ringLog (d : Dev) (g : Nat) : Nat := d.get (DMA_CH_SIZE_SIZE_LOG2 (g / 256) (g % 256))
def ringSize (d : Dev) (g : Nat) : Nat := 2 ^ d.ringLog g
def chTail (d : Dev) (g : Nat) : Nat := d.get (DMA_CH_TAIL_TAIL (g / 256) (g % 256))
def chHead (d : Dev) (g : Nat) : Nat := d.get (DMA_CH_HEAD_HEAD (g / 256) (g % 256))
def chDone (d : Dev) (g : Nat) : Nat := d.get (DMA_CH_HEAD_DONE (g / 256) (g % 256))
def chOffset (d : Dev) (g : Nat) : Nat := d.get (DMA_CH_OFFSET_OFFSET (g / 256) (g % 256))
def pauseSrc (d : Dev) (g : Nat) : Nat := d.get (DMA_CH_STATUS_PAUSE_SRC (g / 256) (g % 256))

/-- A ring base: bits below the ring's alignment are ignored (R335). -/
def ringBase (d : Dev) (g : Nat) (lo hi : Fld) (entry : Nat) : Nat :=
  let a := d.get lo + d.get hi * 2 ^ 32
  let al := Nat.min 4096 (entry * d.ringSize g)
  a / al * al
def dring (d : Dev) (g : Nat) : Nat :=
  d.ringBase g (DMA_CH_DRING_LO_ADDR (g / 256) (g % 256)) (DMA_CH_DRING_HI_ADDR (g / 256) (g % 256)) 32
def cring (d : Dev) (g : Nat) : Nat :=
  d.ringBase g (DMA_CH_CRING_LO_ADDR (g / 256) (g % 256)) (DMA_CH_CRING_HI_ADDR (g / 256) (g % 256)) 16

/-- Moves HEAD to an index, with OFFSET 0. A pass over the ring's end inverts DPHASE (R336). -/
def setHead (d : Dev) (g i : Nat) : Dev :=
  (d.put (DMA_CH_HEAD_HEAD (g / 256) (g % 256)) i).put (DMA_CH_OFFSET_OFFSET (g / 256) (g % 256)) 0
def setOffset (d : Dev) (g o : Nat) : Dev := d.put (DMA_CH_OFFSET_OFFSET (g / 256) (g % 256)) o

/-- DPHASE as it stands for index `i`, from the phase at HEAD: inverted beyond the ring's end (R336). -/
def ownPhase (d : Dev) (g i : Nat) : Nat :=
  let p := d.get (DMA_CH_STATUS_DPHASE (g / 256) (g % 256))
  if i < d.chHead g then 1 - p else p

/-- HEAD moves on to the next descriptor; passing the last index inverts DPHASE (R336, R337). -/
def advanceHead (d : Dev) (g : Nat) : Dev :=
  let i := d.chHead g
  let d := if i + 1 = d.ringSize g then
      d.put (DMA_CH_STATUS_DPHASE (g / 256) (g % 256)) (1 - d.get (DMA_CH_STATUS_DPHASE (g / 256) (g % 256)))
    else d
  d.setHead g ((i + 1) % d.ringSize g)

/-! ### Rights, writes and reads (R334) -/

/-- Whether a channel may reach `n` bytes at a Tearell address. -/
def tAllowed (d : Dev) (g a n : Nat) : Bool :=
  if a < 2 ^ 63 then d.chBound g && decide (a + n ≤ 2 ^ 63)
  else d.hbmAllowed (d.chOwner g) (a - 2 ^ 63) n

/-- Engine `e` has moved `n` bytes in or out: the next follow at its rate (R352, R362). -/
def engRead (d : Dev) (e n : Nat) : Dev :=
  (d.modDeng e fun x => { x with readAt := Nat.max x.readAt (50 * d.cycle) + 3 * n }).bump (DMA_CNT_BYTES_READ e) n
def engWrote (d : Dev) (e n : Nat) : Dev :=
  (d.modDeng e fun x => { x with writeAt := Nat.max x.writeAt (50 * d.cycle) + 3 * n }).bump (DMA_CNT_BYTES_WRITTEN e) n

/-- Whether an engine's rate lets it move bytes now (R352). -/
def readDue (d : Dev) (e : Nat) : Bool := decide ((d.deng e).readAt ≤ 50 * d.cycle)
def writeDue (d : Dev) (e : Nat) : Bool := decide ((d.deng e).writeAt ≤ 50 * d.cycle)

/-- HEAD passes the descriptors in front of it that are decided (R337). -/
def followHead (g : Nat) : List Slot → Dev → Dev
  | [], d => d
  | s :: ss, d =>
    if s.idx = d.chHead g then (if s.comp.isSome then followHead g ss (d.advanceHead g) else d) else followHead g ss d

/-- Sets the completion of a taken descriptor, ADDR_DENIED where a data write of it was refused; HEAD follows. -/
def setComp (d : Dev) (g i : Nat) (c : Comp) : Dev :=
  let e := g / 256
  let c := if (d.chan g).refused.contains i then { c with status := 5, cmd := 0, bytes := 0 } else c
  let d := d.modChan g fun x => { x with
    slots := x.slots.map fun s => if s.idx = i then { s with comp := some c } else s, refused := x.refused.filter (· != i) }
  let d := if c.status = 5 then d.inc (DMA_CNT_ADDR_DENIED e) else if c.status = 4 then d.inc (DMA_CNT_BAD_DESC e) else d
  followHead g (d.chan g).slots d

/-- A write that its rights refuse: the descriptor whose data it carries completes with ADDR_DENIED (R334). -/
def denyWrite (d : Dev) (g : Nat) (w : PWrite) : Dev :=
  match w.pos with
  | none => d
  | some (i, _) =>
    if (d.chan g).slots.any fun s => s.idx == i && (match s.comp with | some c => c.status != 5 | none => false) then
      (d.modChan g fun x => { x with slots := x.slots.map fun s => if s.idx = i then
        { s with comp := s.comp.map fun c => { c with status := 5, cmd := 0, bytes := 0 } } else s }).inc (DMA_CNT_ADDR_DENIED (g / 256))
    else if (d.chan g).slots.any (·.idx == i) && !((d.chan g).refused.contains i) then
      d.modChan g fun x => { x with refused := x.refused ++ [i] }
    else d

/-! ### Translations (R318, R334) -/

/-- What a translation answers. -/
inductive Xl where
  | go (a : Nat) | miss | denied

/-- The address that a request of channel `g` carries for `a`: translated where its function has ATS enabled. -/
def xlate (d : Dev) (g a : Nat) (write : Bool) : Xl :=
  let l := d.chLink g
  let f := d.chFunc g
  if 2 ^ 63 ≤ a ∨ (d.func l f).atsEn = false then .go a
  else match (d.deng (g / 256)).atc.find? fun x => x.link == l && x.func == f && x.page == a / 4096 with
    | none => .miss
    | some x => if (if write then x.wr else x.rd) then .go (x.dest * 4096 + a % 4096) else .denied

/-- Puts a read of a channel among the outstanding reads of its engine, and sends it where it goes to the host, at `ad`. -/
def putRead (d : Dev) (g a n ad : Nat) (w : ReadFor) : Dev :=
  let e := g / 256
  let (fir, sag) := d.chTag g
  let t := d.dma.nextTag
  let d := { d with dma := { d.dma with nextTag := t + 1 } }
  let d := d.modDeng e fun x => { x with reads := x.reads ++
    [{ tag := t, chan := g, firing := fir, sag := sag, addr := a, len := n, what := w, issued := d.cycle, pieces := [],
       got := 0, used := 0, orphan := false }] }
  let d := d.put (DMA_ENG_STATUS_OUT_READS e) (d.deng e).reads.length
  if a < 2 ^ 63 then
    let fn := d.ctlFunc (d.chLink g) (d.chFunc g)
    let ro := match w with | .desc _ _ => false | .ats _ => false | _ => fn.ro
    d.sendReq (d.chLink g) (.read (d.chFunc g) t ad n ro fn.ido)
  else d

/-- Whether a request for the translation of a page is outstanding. -/
def atsAsked (d : Dev) (g page : Nat) : Bool :=
  (d.deng (g / 256)).reads.any fun r => r.what == .ats page && d.chLink r.chan == d.chLink g && d.chFunc r.chan == d.chFunc g

/-- Asks the host for the translation of a page. -/
def askAts (d : Dev) (g page : Nat) : Dev :=
  if d.atsAsked g page || d.flag (DMA_ENG_STATUS_STOPPED (g / 256)) then d else d.putRead g (page * 4096) 8 (page * 4096) (.ats page)

/-- A host write of a channel goes out, translated; it waits in order where its page's translation is not at hand, and one that
the host does not permit moves no byte: its descriptor completes with ADDR_DENIED (R334). -/
def hostOut (d : Dev) (l g : Nat) (w : PWrite) : Dev :=
  if (d.link l).xwait.any (·.chan == some g) then d.modLink l fun x => { x with xwait := x.xwait ++ [w] }
  else match d.xlate g w.addr true with
    | .go a => d.sendReq l (.write { w with addr := a })
    | .miss => (d.modLink l fun x => { x with xwait := x.xwait ++ [w] }).askAts g (w.addr / 4096)
    | .denied => d.denyWrite g w

/-- Sends what waited for translations on a link and need not wait now, in the order of each channel. -/
def flushX (d : Dev) (l : Nat) : Dev :=
  let ws := (d.link l).xwait
  (ws.foldl (fun (acc : List Nat × Dev) w =>
    let d := acc.2
    let back := fun (d : Dev) => d.modLink l fun x => { x with xwait := x.xwait ++ [w] }
    match w.chan with
    | none => acc
    | some g =>
      if acc.1.contains g || d.flag (DMA_ENG_STATUS_STOPPED (g / 256)) then (acc.1, back d)
      else match d.xlate g w.addr true with
        | .go a => (acc.1, d.sendReq l (.write { w with addr := a }))
        | .miss => (g :: acc.1, (back d).askAts g (w.addr / 4096))
        | .denied => (acc.1, d.denyWrite g w)) ([], d.modLink l fun x => { x with xwait := [] })).2

/-- The pieces of a host write: at most MPS bytes, none across a page (R352). -/
def hostPieces (mps : Nat) : Nat → Nat → Nat → List Byte → List (Nat × List Byte)
  | 0, _, _, _ => []
  | _ + 1, _, _, [] => []
  | k + 1, a, o, bs =>
    let n := Nat.min mps (4096 - a % 4096)
    (o, bs.take n) :: hostPieces mps k (a + n) (o + n) (bs.drop n)

/-- A channel writes bytes at a Tearell address: to the HBM, or as posted writes of at most MPS bytes (R351, R352). `pos`
is the descriptor index and byte of a data write; `cpl` the index of a completion write. -/
def tWriteF (d : Dev) (g a : Nat) (bs : List Byte) (pos : Option (Nat × Nat)) (cpl : Option Nat)
    (frame : Option (Nat × Nat)) : Dev :=
  let d := d.engWrote (g / 256) bs.length
  if 2 ^ 63 ≤ a then d.hbmWrite (a - 2 ^ 63) bs
  else
    let l := d.chLink g
    let f := d.chFunc g
    let fn := d.ctlFunc l f
    (hostPieces (d.mpsOf l f) bs.length a 0 bs).foldl (fun d (o, b) =>
      d.hostOut l g { func := f, addr := a + o, bytes := b, chan := some g,
                      pos := pos.map fun (i, x) => (i, x + o), cpl := cpl,
                      frame := frame.map fun (i, x) => (i, x + o),
                      tag := some (tagOwner g (d.chTag g).2, (d.chTag g).1), at_ := d.cycle,
                      ro := fn.ro && pos.isSome, ido := fn.ido }) d

/-- A write that carries no received frame. -/
def tWrite (d : Dev) (g a : Nat) (bs : List Byte) (pos : Option (Nat × Nat)) (cpl : Option Nat) : Dev :=
  d.tWriteF g a bs pos cpl none

/-- The outputs of the job of descriptor `i`, as (address, bytes): data writes (R351). -/
def tWrites (d : Dev) (g i : Nat) (parts : List (Nat × List Byte)) : Dev :=
  parts.foldl (fun d p => d.tWrite g p.1 p.2 (some (i, 0)) none) d

/-- Issues a read for a channel: it is charged at the arbiter and outstanding until it resolves. -/
def issueRead (d : Dev) (g a n ad : Nat) (w : ReadFor) : Dev :=
  (d.debitCost .dma (d.chOwner g) n).putRead g a n ad w

/-- The length of the next data read at `a` of at most `n` bytes: at most MRRS, not across a 4 KiB boundary (R352). -/
def readLen (d : Dev) (g a n : Nat) : Nat :=
  Nat.min n (Nat.min (d.mrrsOf (d.chLink g) (d.chFunc g)) (4096 - a % 4096))

/-- The index that a channel's prefetch reads next: behind the descriptors it has taken and those it holds. -/
def fetchIdx (d : Dev) (g : Nat) : Nat :=
  let c := d.chan g
  (d.chDone g + c.slots.length + c.pre.length) % d.ringSize g

/-- The index at which a channel's prefetch ends: TAIL, or in a ring scan the last that a ring can announce. -/
def fetchEnd (d : Dev) (g : Nat) : Nat :=
  if (d.chan g).scan then (d.chDone g + d.ringSize g - 1) % d.ringSize g else d.chTail g

/-- Whether the channel has a descriptor read outstanding. -/
def descAsked (d : Dev) (g : Nat) : Bool :=
  (d.deng (g / 256)).reads.any fun r => r.chan == g && match r.what with | .desc _ _ => true | _ => false

/-- How many descriptors a channel's prefetch reads next: at most 8 in one read, at most 16 at and after HEAD, within the ring, and
no more than the host's read size (R319, R339). -/
def fetchLen (d : Dev) (g : Nat) : Nat :=
  let i := d.fetchIdx g
  let s := d.ringSize g
  let ahead := (i + s - d.chHead g) % s
  let most := if d.dring g < 2 ^ 63 then Nat.min 8 (d.mrrsOf (d.chLink g) (d.chFunc g) / 32) else 8
  if d.descAsked g = true ∨ d.flag (DMA_CH_STATUS_OWN_STALL (g / 256) (g % 256)) = true ∨ d.chKind g = 7 then 0
  else Nat.min most (Nat.min (16 - ahead) (Nat.min ((d.fetchEnd g + s - i) % s) (s - i)))

/-- A reserved bit of a block descriptor, or an address that is not aligned (R340, R345). -/
def badBlock (ds : List Byte) : Bool :=
  bitsOf (descWord ds 0) 32 31 != 0 || descWord ds 2 != 0 || descWord ds 3 != 0 || descWord ds 1 % 64 != 0

/-- The next read of a channel's started jobs (R352, R357). -/
def nextFeed (d : Dev) (g : Nat) : Option (Nat × Nat × ReadFor) :=
  match (d.chan g).feeds.find? fun f => !f.need.isEmpty with
  | some f => f.need.head?.map fun (p, a, n) => (a, d.readLen g a n, .job f.idx p)
  | none => none

/-- The next read that a channel would issue: address, length, purpose. -/
def nextRead (d : Dev) (g : Nat) : Option (Nat × Nat × ReadFor) :=
  let c := d.chan g
  let prefetch :=
    let i := d.fetchIdx g
    let n := d.fetchLen g
    let a := d.dring g + 32 * i
    if n = 0 ∨ d.tAllowed g a (32 * n) = false then none else some (a, 32 * n, ReadFor.desc i n)
  match c.active, d.nextFeed g with
  | some (.copy i ds asked _), _ =>
    let len := bitsOf (descWord ds 0) 32 24
    let src := descWord ds 1
    if asked < len then some (src + asked, d.readLen g (src + asked) (len - asked), .copy i asked (descWord ds 2 + asked)) else prefetch
  | some (.tx ds _ asked _), _ =>
    -- the descriptor that holds byte `asked` of the frame
    let pos := ds.foldl (fun (acc : Nat × Option (Nat × Nat × Nat)) x =>
      let len := bitsOf (descWord x.2 2) 0 14
      match acc.2 with
      | some _ => acc
      | none => if asked < acc.1 + len then (acc.1, some (x.1, descWord x.2 1 + (asked - acc.1), acc.1 + len - asked))
                else (acc.1 + len, none)) (0, none)
    match pos.2 with
    | some (i, a, n) => some (a, d.readLen g a n, .tx i asked)
    | none => prefetch
  | _, some r => some r
  | _, none =>
    match c.pre with
    | (i, ds) :: _ =>
      let k := d.chKind g
      let a := descWord ds 1 + c.blockAsked
      if 3 ≤ k ∧ k ≤ 6 ∧ c.blockAsked < 128 ∧ ds.isEmpty = false ∧ badBlock ds = false ∧ d.tAllowed g (descWord ds 1) 128 = true then
        some (a, d.readLen g a (128 - c.blockAsked), .block i c.blockAsked)
      else prefetch
    | [] => prefetch

/-- Whether an engine can issue: enabled and not stopped (R357). -/
def engRuns (d : Dev) (e : Nat) : Bool := d.flag (DMA_ENG_CTRL_ENABLE e) && !d.flag (DMA_ENG_STATUS_STOPPED e)

/-- Whether a channel may send a request to the host: its link is not frozen, and its function is in D0 with Bus Master Enable
(R323, R327). -/
def hostMay (d : Dev) (g : Nat) : Bool :=
  let f := d.func (d.chLink g) (d.chFunc g)
  !d.frozen (d.chLink g) && !f.d3hot && f.bme

/-- What an item of an engine's arbiter asks for (R371): a read, or the next data write of an RX frame. -/
inductive Item where
  | read (a n ad : Nat) (w : ReadFor)
  | ats (page : Nat)
  | rx (n : Nat)

def Item.cost : Item → Nat
  | .read _ n _ _ => n
  | .ats _ => 0
  | .rx n => n

/-- The bytes of the next data write of channel `g`, where it is an RX channel in a frame, with a buffer for it, whose last grant
has been used (R343, R371). -/
def rxHead (d : Dev) (g : Nat) : Option Nat :=
  let c := d.chan g
  match c.active, c.bufs with
  | some (.rx fr done _ off), (_, ds) :: _ =>
    if c.grant then none
    else (d.frame? fr).map fun f =>
      let len := if d.flag (DMA_CH_CFG_KEEP_FCS (g / 256) (g % 256)) then f.len else f.len - 4
      Nat.min (d.mpsOf (d.chLink g) (d.chFunc g)) (Nat.min (bitsOf (descWord ds 2) 0 14 - off) (len - done))
  | _, _ => none

/-- A channel's next read as an item: its page's translation first where that is not at hand (R334). -/
def readItem (d : Dev) (g : Nat) (r : Nat × Nat × ReadFor) : Option Item :=
  if decide (r.1 < 2 ^ 63) && !d.hostMay g then none
  else match d.xlate g r.1 false with
    | .go ad => some (.read r.1 r.2.1 ad r.2.2)
    | _ => if d.atsAsked g (r.1 / 4096) then none else some (.ats (r.1 / 4096))

/-- What a channel would do next: in its pauses only the reads of started jobs (R355). -/
def chanItem (d : Dev) (g : Nat) : Option Item :=
  let st := d.chSt g
  let read := if st = chRunning then d.nextRead g else if st = chPausing then d.nextFeed g else none
  match (if st = chRunning then d.rxHead g else none), read with
  | some n, _ => some (.rx n)
  | none, some r => d.readItem g r
  | none, none => none

/-- The channels of an engine with something to do. -/
def readyChans (d : Dev) (e : Nat) : List (Nat × Item) :=
  if d.engRuns e then (d.dma.chans.filter fun kv => kv.1 / 256 == e).filterMap fun kv => (d.chanItem kv.1).map fun x => (kv.1, x)
  else []

/-- The channel of an owner that is served next: round robin from the one after the last served (R352, R371). -/
def turnOf (e : DmaEng) (kid : Nat) (gs : List (Nat × Item)) : Option (Nat × Item) :=
  let last := tabGet (fun _ => 0) e.turn kid
  match gs.find? fun x => decide (last < x.1 + 1) with
  | some x => some x
  | none => gs.head?

/-- A read of channel `g` for a purpose has been asked for, `n` bytes of it. -/
def asked (d : Dev) (g n : Nat) (w : ReadFor) : Dev :=
  match w with
  | .copy i _ _ => d.modChan g fun c => { c with active := match c.active with
      | some (.copy _ ds a wr) => some (.copy i ds (a + n) wr)
      | x => x }
  | .tx _ _ => d.modChan g fun c => { c with active := match c.active with
      | some (.tx ds fr a inn) => some (.tx ds fr (a + n) inn)
      | x => x }
  | .block _ _ => d.modChan g fun c => { c with blockAsked := c.blockAsked + n }
  | .job i _ => d.modChan g fun c => { c with feeds := c.feeds.map fun f => if f.idx ≠ i then f else { f with need := match f.need with
      | (p, a, m) :: rest => if m ≤ n then rest else (p, a + n, m - n) :: rest
      | [] => [] } }
  | _ => d

/-- Issues what the arbiter grants, in its order, until nothing more can be issued: reads, at most 128 of them outstanding, and the
right to the next data write of an RX frame (R352, R371). A child whose items the 128 outstanding reads hold back keeps its place. -/
def pumpEng : Nat → Nat → Dev → Dev
  | 0, _, d => d
  | n + 1, e, d =>
    let all := d.readyChans e
    let full := decide (128 ≤ (d.deng e).reads.length)
    let ready := all.filter fun x => match x.2 with | .rx _ => true | _ => !full
    let owners := (ready.map fun x => d.chOwner x.1).dedup
    let heads := owners.filterMap fun o =>
      (turnOf (d.deng e) (kidOf o) (ready.filter fun x => d.chOwner x.1 == o)).map fun x => (o, x)
    match arbChoose .dma (heads.map fun h => (h.1, h.2.2.cost)) ((all.map fun x => kidOf (d.chOwner x.1)).dedup) (d.deng e).arb d with
    | (none, d) => d
    | (some (o, a), d) =>
      match heads.find? fun h => h.1 == o with
      | none => d
      | some (_, g, x) =>
        let d := d.modDeng e fun y => { y with
          arb := a.served (kidOf o) x.cost, turn := tabSet (fun _ => 0) y.turn (kidOf o) (g + 1) }
        pumpEng n e (match x with
          | .read a len ad w => (d.asked g len w).issueRead g a len ad w
          | .ats page => d.askAts g page
          | .rx k => (d.modChan g fun c => { c with grant := true }).debitCost .dma o k)

/-- The announced descriptors that a channel has no right to read are held as denied: each completes with ADDR_DENIED when its turn
comes (R334). -/
def refuseFetch (d : Dev) (e : Nat) : Dev :=
  ((d.dma.chans.filter fun kv => kv.1 / 256 == e && d.chSt kv.1 == chRunning).map (·.1)).foldl (fun d g =>
    let n := d.fetchLen g
    let i := d.fetchIdx g
    let a := d.dring g + 32 * i
    if n = 0 ∨ d.tAllowed g a (32 * n) = true ∨ (d.chan g).scan = true then d
    else d.modChan g fun c => { c with pre := c.pre ++ (List.range n).map fun k => ((i + k) % d.ringSize g, []) }) d

/-- Lets an engine issue what it can. -/
def pump (d : Dev) (e : Nat) : Dev := if d.engRuns e then pumpEng 256 e (d.refuseFetch e) else d

/-! ### Completions (R338, R346) -/

/-- Takes the descriptor in front: it is no longer prefetched and waits for its completion. -/
def takeDesc (d : Dev) (g i : Nat) (ds : List Byte) : Dev :=
  d.modChan g fun x => { x with
    pre := x.pre.filter (·.1 != i), slots := x.slots ++ [{ idx := i, desc := ds, comp := none, held := none }],
    block := none, blockAsked := 0 }

/-- A descriptor that could not be read stands for its completion with a TAG that the manual does not state: a free value
(notes/assumptions/67). -/
def deniedDesc (d : Dev) : List Byte × Dev :=
  let (x, d) := d.free
  (leBytes 4 (x % 2 ^ 32) ++ List.replicate 28 0#8, d)

/-- Takes the descriptor in front and completes it without moving a byte; one that could not be read completes with ADDR_DENIED
(R334). -/
def failDesc (d : Dev) (g i : Nat) (ds : List Byte) (status : Nat) : Dev :=
  if ds.isEmpty then
    let (x, d) := d.deniedDesc
    (d.takeDesc g i x).setComp g i ⟨false, 5, 0, 0, 0⟩
  else (d.takeDesc g i ds).setComp g i ⟨false, status, 0, 0, 0⟩

/-- The MSI-X message of a channel, if all conditions of R350 hold and its engine is not stopped (R357). Where the vector is masked it
pends, and the channel is disarmed when it is sent. -/
def chMsix (d : Dev) (g : Nat) : Dev :=
  let e := g / 256
  let c := g % 256
  let waited := match (d.chan g).lastMsg with
    | none => true
    | some t => decide (t + d.get (DMA_CH_HOLDOFF_US e c) * 3000 ≤ d.cycle)
  if d.flag (DMA_CH_SIZE_IRQ_EN e c) && d.flag (DMA_CH_STATUS_IRQ_ARMED e c) &&
      d.chDone g != d.get (DMA_CH_IRQ_NEXT_NEXT e c) && waited && d.chBound g && !d.flag (DMA_ENG_STATUS_STOPPED e) then
    let r := d.msix (d.chLink g) (d.chFunc g) (d.get (DMA_CH_SIZE_VECTOR e c))
    if r.1 then
      (((r.2.put (DMA_CH_STATUS_IRQ_ARMED e c) 0).modChan g fun x => { x with lastMsg := some d.cycle })).inc (DMA_CNT_IRQ_SENT e)
    else r.2.msixWaits (d.chLink g) (d.chFunc g) (d.get (DMA_CH_SIZE_VECTOR e c)) g
  else d

/-- The completion of a slot as its 16 bytes (R346). -/
def compBytes (phase idx tag : Nat) (c : Comp) : List Byte :=
  leBytes 8 (phase * 2 ^ 63 + b2n c.eop * 2 ^ 62 + c.status * 2 ^ 48 + c.cmd * 2 ^ 40 + idx * 2 ^ 24 + c.bytes) ++
    leBytes 8 (c.hi * 2 ^ 32 + tag)

/-- Posts the completion at DONE, if it is decided and no data write of the channel waits for a translation (R338, R351). -/
def postComp (d : Dev) (g : Nat) : Dev :=
  let e := g / 256
  let c := g % 256
  match (d.chan g).slots with
  | [] => d
  | s :: rest =>
    match (if (d.link (d.chLink g)).xwait.any fun w => w.chan == some g && w.pos.isSome then none else s.comp) with
    | none => d
    | some k =>
      let ph := d.get (DMA_CH_STATUS_CPHASE e c)
      let a := d.cring g + 16 * s.idx
      let d := if d.tAllowed g a 16 then
          d.tWrite g a (compBytes ph s.idx (bitsOf (descWord s.desc 0) 0 32) k) none (some s.idx)
        else d
      let d := d.modChan g fun x => { x with slots := rest }
      let nxt := (s.idx + 1) % d.ringSize g
      let d := if nxt = 0 then d.put (DMA_CH_STATUS_CPHASE e c) (1 - ph) else d
      let d := d.put (DMA_CH_HEAD_DONE e c) nxt
      let d := ((d.inc (DMA_CH_CNT_DESC_DONE e c)).bump (DMA_CH_CNT_BYTES e c) k.bytes).inc (DMA_CNT_DESC_DONE e)
      d.chMsix g

/-! ### Pause, stop and reset (R354 to R359) -/

/-- The channel's reads that are outstanding. -/
def readsOf (d : Dev) (g : Nat) : List Read := (d.deng (g / 256)).reads.filter (·.chan == g)

/-- What a channel keeps of its work when it stops issuing: descriptors at and after HEAD are dropped, except those whose command the
table block or a kiln carries out; HEAD and OFFSET name the first byte not moved (R355, R357). -/
def setBack (d : Dev) (g : Nat) : Dev :=
  let h := d.chHead g
  let s := d.ringSize g
  let ahead := fun i => decide ((h + s - d.chDone g) % s ≤ (i + s - d.chDone g) % s)
  let runs := d.chKind g == 3 || d.chKind g == 4
  -- a TX frame of which nothing is read is given up, and collected again
  let d := match (d.chan g).active with
    | some (.tx _ fr _ 0) => (d.freeFrame fr).modChan g fun c => { c with active := none }
    | _ => d
  d.modChan g fun c =>
    let act : Option Active := match c.active with
      | some (.tx ds fr _ inn) => some (.tx (ds.takeWhile (·.1 != h)) fr inn inn)
      | some (.copy _ _ _ _) => none
      | some (.job _ _) => none
      | x => x
    { c with
      pre := [], bufs := [], block := none, blockAsked := 0, grant := false, feeds := [], active := act,
      slots := if runs then c.slots else c.slots.filter fun x => !ahead x.idx }

/-- A channel's position goes back to descriptor `i`, which it has taken; what it took from there on is taken again (R328,
R376). -/
def backTo (d : Dev) (g i : Nat) : Dev :=
  let e := g / 256
  let c := g % 256
  let h := d.chHead g
  let s := d.ringSize g
  let dn := d.chDone g
  -- all of them where the completion of `i` had been posted
  let gone := fun j => decide ((h + s - dn) % s < (i + s - dn) % s) || decide ((i + s - dn) % s ≤ (j + s - dn) % s)
  let d := if h < i then d.put (DMA_CH_STATUS_DPHASE e c) (1 - d.get (DMA_CH_STATUS_DPHASE e c)) else d
  let d := if h = i then d else d.setHead g i
  d.modChan g fun x => { x with
    pre := [], bufs := [], block := none, blockAsked := 0, feeds := x.feeds.filter fun f => !gone f.idx
    active := (match x.active with | some (.job _ _) => none | some (.copy _ _ _ _) => none | a => a)
    slots := x.slots.filter (fun y => !gone y.idx) }

/-- A channel takes descriptor `i`, which HEAD has not passed, and those behind it again (R376). -/
def untake (d : Dev) (g i : Nat) : Dev :=
  let s := d.ringSize g
  let dn := d.chDone g
  let gone := fun j => decide ((i + s - dn) % s ≤ (j + s - dn) % s)
  d.modChan g fun x => { x with
    pre := [], block := none, blockAsked := 0, feeds := x.feeds.filter fun f => !gone f.idx
    active := (match x.active with | some (.job j ds) => if gone j then none else some (.job j ds) | a => a)
    slots := x.slots.filter fun y => !gone y.idx }

/-- The RX frame that a channel's rewound write carries is delivered again from byte `off` of it, at byte `b` of descriptor
`i`; the frames behind it follow (R328). -/
def rewindRx (d : Dev) (g fr off i b : Nat) : Dev :=
  let s := d.ringSize g
  let h := d.chHead g
  d.modChan g fun c =>
    let cur := match c.active with | some (.rx f _ used _) => some (f, (h + s - used) % s) | _ => none
    let all := c.sent ++ cur.toList
    let later := (all.dropWhile fun x => x.1 != fr).drop 1
    let first := ((all.find? fun x => x.1 == fr).map (·.2)).getD i
    { c with active := some (.rx fr off ((i + s - first) % s) b)
             redo := later.map (·.1) ++ c.redo
             sent := c.sent.takeWhile fun x => x.1 != fr }

/-- The position of channel `g` goes back to the first byte that the lost writes `ws` hold; the answer lists those of them that the
channel will not make again (R328, R357). -/
def rewind (d : Dev) (g : Nat) (ws : List PWrite) : List PWrite × Dev :=
  let mine := fun w : PWrite => w.chan == some g
  match ws.find? fun w => mine w && w.pos.isSome with
  | none => (ws, d)
  | some w =>
    let i := (w.pos.getD (0, 0)).1
    let b := (w.pos.getD (0, 0)).2
    let s := d.ringSize g
    let h := d.chHead g
    let dn := d.chDone g
    let dead := fun w : PWrite => mine w && (w.pos.isSome ||
      match w.cpl with | some j => decide ((j + s - i) % s ≤ (h + s - i) % s) | none => false)
    let d := match w.frame with | some (fr, off) => d.rewindRx g fr off i b | none => d
    -- a block or job is done again from its start, its descriptor taken anew
    let d := (d.backTo g i).setOffset g (if 3 ≤ d.chKind g then 0 else b)
    let d := if (i + s - dn) % s ≤ (h + s - dn) % s then d
      else
        let e := g / 256
        let c := g % 256
        let d := if dn < i then d.put (DMA_CH_STATUS_CPHASE e c) (1 - d.get (DMA_CH_STATUS_CPHASE e c)) else d
        d.put (DMA_CH_HEAD_DONE e c) i
    (ws.filter fun w => !dead w, d)

/-- A pause source changes; the channel pauses with its first source and resumes when the last clears (R354 to R356). -/
def setPause (d : Dev) (g bit : Nat) (on : Bool) : Dev :=
  let was := d.pauseSrc g
  let now := if on then was ||| bit else was &&& (15 - bit)
  let d := d.put (DMA_CH_STATUS_PAUSE_SRC (g / 256) (g % 256)) now
  let st := d.chSt g
  if now ≠ 0 ∧ st = chRunning then d.setChSt g chPausing
  else if now = 0 ∧ (st = chPaused ∨ st = chPausing) then
    -- R339: each release of a pause reads a stalled descriptor again
    ((d.setChSt g chRunning).put (DMA_CH_STATUS_OWN_STALL (g / 256) (g % 256)) 0).pump (g / 256)
  else d

/-- The source code and requester ID of a channel's read for DMA_ENG_ERR. -/
def failSrc (d : Dev) (g a : Nat) : Nat × Nat := if a < 2 ^ 63 then (d.chLink g, d.routingId (d.chLink g) (d.chFunc g)) else (8, 0)

/-- A link's LTR: 10 µs while a receive channel of its functions is enabled, else 1 ms; reported where the host enables
LTR, when it changes (R325). -/
def ltrUpdate (d : Dev) (l : Nat) : Dev :=
  let rx := d.dma.chans.any fun kv => kv.2.started && d.chKind kv.1 == 1 && d.chBound kv.1 && d.chLink kv.1 == l
  let v := if rx then 10 else 1000
  if (d.link l).ltrEn && (d.link l).ltr != some v && d.linkUp l && !d.frozen l then
    (d.modLink l fun x => { x with ltr := some v }).sendMsg l 0 (.ltr v)
  else d

/-- Ends a channel's reset: it returns to set-up state with its positions at zero (R359). -/
def endChReset (d : Dev) (g : Nat) : Dev :=
  let e := g / 256
  let c := g % 256
  let d := ((d.put (DMA_CH_TAIL_TAIL e c) 0).put (DMA_CH_HEAD_DONE e c) 0).setHead g 0
  let d := ((d.put (DMA_CH_STATUS_DPHASE e c) 1).put (DMA_CH_STATUS_CPHASE e c) 1).put (DMA_CH_STATUS_IRQ_ARMED e c) 0
  let d := (d.put (DMA_CH_STATUS_OWN_STALL e c) 0).putRW (DMA_CH_CTRL_PAUSE e c) 0
  let d := d.put (DMA_CH_STATUS_PAUSE_SRC e c) ((d.pauseSrc g &&& 14) + d.get (DMA_CH_CTRL_PAUSE e c))
  (((d.modChan g fun x => { x with started := false }).setChSt g chSetup).unlock (DMA_CH_CTRL e c)).ltrUpdate (d.chLink g)

/-- A channel reset begins (R359): nothing more is issued, the number bumps, partial frames are discarded. The RX queue
is served no longer. The reset comes before the doorbells of its cycle, which count in DB_BAD and in nothing else (R360). -/
def chanReset (d : Dev) (g : Nat) : Dev :=
  let bells := d.marks.filter fun m => match m with | .doorbell k _ => k == g | _ => false
  let stale := (bells.filter fun m => match m with | .doorbell _ s => s | _ => false).length
  let d := (d.bump (DMA_CH_CNT_DB_BAD (g / 256) (g % 256)) bells.length).debump (DMA_CH_CNT_DB_STALE (g / 256) (g % 256)) stale
  let d := { d with marks := d.marks.filter fun m => match m with | .doorbell k _ => k != g | _ => true }
  let d := d.modDeng (g / 256) fun x => { x with reads := x.reads.map fun r => if r.chan = g then { r with orphan := true } else r }
  let c := d.chan g
  let d := match c.active with
    | some (.tx _ fr _ _) => d.freeFrame fr
    | some (.txDone _ fr) => d.freeFrame fr
    | some (.rx fr _ _ _) => d.freeFrame fr
    | _ => d
  let d := (c.sent.map (·.1) ++ c.redo).foldl freeFrame d
  let d := d.modLink (d.chLink g) fun x => { x with xwait := x.xwait.filter fun w => w.chan != some g }
  let d := d.setChan g { Chan.reset with lastMsg := c.lastMsg, allot := c.allot, started := c.started, known := c.known || c.started }
  let d := { d with dma := { d.dma with rxServe := d.dma.rxServe.filter (·.2 != g) } }
  (d.setChSt g chResetting).bumpOwner (.chan g)

/-- Whether a channel's engine makes no write for it now: it is stopped, or the channel is (R357). -/
def writesHeld (d : Dev) (g : Nat) : Bool := d.flag (DMA_ENG_STATUS_STOPPED (g / 256)) || d.chSt g == chStopped

/-- The answer of descriptor `i` of a channel: its writes, then its completion; held while the engine writes nothing (R357). -/
def answer (d : Dev) (g i : Nat) (parts : List (Nat × List Byte)) (c : Comp) : Dev :=
  if d.writesHeld g then
    d.modChan g fun x => { x with slots := x.slots.map fun s => if s.idx = i then { s with held := some (parts, c) } else s }
  else ((d.tWrites g i parts).setComp g i c).pump (g / 256)

/-- The answers that a stop has held are made (R358). -/
def answerHeld (d : Dev) (g : Nat) : Dev :=
  (d.chan g).slots.foldl (fun d s => match s.held with
    | some (parts, c) =>
      (d.modChan g fun x => { x with slots := x.slots.map fun y => if y.idx = s.idx then { y with held := none } else y }).answer g s.idx parts c
    | none => d) d

/-- A unit has decided a block: unless its number is stale (R38, R39) it writes the parts of the block, as (offset, bytes), behind the
outputs `outs`, as (address, bytes), and the descriptor's completion carries its STATUS (R345). -/
def finishJob (d : Dev) (j : Job) (outs parts : List (Nat × List Byte)) (status : Nat) : Dev :=
  let o := tagOwner j.chan j.tagSag
  if d.firing o ≠ j.firing then d.lateDiscard o
  else if !d.tAllowed j.chan j.addr 128 then d.answer j.chan j.idx outs ⟨false, 5, 0, 0, 0⟩
  else d.answer j.chan j.idx (outs ++ parts.map fun p => (j.addr + p.1, p.2)) ⟨false, 0, status, 128, 0⟩

def finishBlock (d : Dev) (j : Job) (parts : List (Nat × List Byte)) (status : Nat) : Dev := d.finishJob j [] parts status

/-! ### What a started job reads (R352, R357) -/

/-- A started job's input ranges, as (input, address, bytes), are to be read through its channel's engine. -/
def openFeed (d : Dev) (j : Job) (need : List (Nat × Nat × Nat)) (sig : Option (Nat × Nat)) : Dev :=
  if j.sto.isSome then d
  else (d.modChan j.chan fun c => { c with
    feeds := c.feeds ++ [{ idx := j.idx, need := need.filter fun x => x.2.2 != 0, got := [], sig := sig }] }).pump (j.chan / 256)

def feedOf (d : Dev) (j : Job) : Option Feed := (d.chan j.chan).feeds.find? (·.idx == j.idx)

/-- The bytes of an input that have come. -/
def fed (d : Dev) (j : Job) (part : Nat) : List Byte :=
  match d.feedOf j with
  | some f => (f.got.filter (·.1 == part)).flatMap (·.2)
  | none => []

/-- Whether a job has all that it reads, or its number is stale, so that nothing more comes to it (R271, R306). -/
def fedAll (d : Dev) (j : Job) : Bool :=
  j.sto.isSome || d.firing (tagOwner j.chan j.tagSag) != j.firing ||
  match d.feedOf j with
  | some f => f.need.isEmpty && !((d.deng (j.chan / 256)).reads.any fun r => r.chan == j.chan && match r.what with | .job i _ => i == j.idx | _ => false)
  | none => false

/-- A job has ended: it reads no more. -/
def closeFeed (d : Dev) (j : Job) : Dev :=
  if j.sto.isSome then d else d.modChan j.chan fun c => { c with feeds := c.feeds.filter (·.idx != j.idx) }

/-- A unit has decided a job of the storage service: the answer goes to the service, unless its number is stale (R38, R386,
R400). -/
def stoAnswer (d : Dev) (j : Job) (x : StoJob) (status : Nat) (out : List Byte) : Dev :=
  let o := tagOwner j.chan j.tagSag
  if d.firing o ≠ j.firing then d.lateDiscard o
  else if x.what = .gone then d
  else { d with sto := { d.sto with answers := d.sto.answers ++ [⟨x.ctl, x.what, status, out⟩] } }

/-- The channels that satisfy a test, in number order. -/
def chansOf (d : Dev) (p : Nat → Bool) : List Nat := (d.dma.chans.map (·.1)).filter p

end Dev
end Sys2Proof.Machine
end

