-- ==== Sys2Proof/Machine/RasBase.lean ====
section
/-!
DEFINITION. RAS records: the classes, the event ring, the status bits and interrupts (R452 to R457).
-/

namespace Sys2Proof.Machine

/-- The classes of R452. -/
inductive ErrClass where
  | ce | de | uc | fatal
  deriving DecidableEq, Repr

def ErrClass.code : ErrClass → Nat
  | .ce => 0 | .de => 1 | .uc => 2 | .fatal => 3

/-- An error: FAMILY, INSTANCE, class, LOCATION, and the rest of its record (R454). -/
structure RasErr where
  family : Nat
  inst : Nat
  cls : ErrClass
  loc : Nat
  poison : Bool
  owner : Option Nat
  injected : Bool
  info : Nat

/-- An error of a family with nothing more to say. -/
def RasErr.of (family inst : Nat) (cls : ErrClass) (loc : Nat) : RasErr := ⟨family, inst, cls, loc, false, none, false, 0⟩

/-- DETECTOR (R458). -/
def RasErr.detector (e : RasErr) : Nat := e.family * 1024 + e.inst

namespace Dev

def setRas (d : Dev) (f : RasState → RasState) : Dev := { d with ras := f d.ras }

/-- A record's 32 bytes (R454). -/
def rasBytes (d : Dev) (e : RasErr) (count : Nat) : List Byte :=
  leBytes 8 (b2n d.ras.phase * 2 ^ 63 + e.cls.code * 2 ^ 61 + b2n e.poison * 2 ^ 60 + e.detector * 2 ^ 32 +
      Nat.min count (2 ^ 32 - 1)) ++
    leBytes 8 (d.cycle / 3000) ++ leBytes 8 e.loc ++
    leBytes 8 (b2n e.owner.isSome * 2 ^ 43 + e.owner.getD 0 * 2 ^ 32 + b2n e.injected * 2 ^ 31 + e.info % 2 ^ 31)

/-- Writes a record to the ring, or counts it in LOG_DROP (R454, R128). -/
def rasRing (d : Dev) (e : RasErr) (count : Nat) : Dev :=
  let size := 2 ^ d.get RAS_LOG_CFG_SIZE_LOG2
  let tail := d.get RAS_LOG_TAIL_TAIL
  if !d.flag RAS_LOG_CFG_EN ∨ (tail + 1) % size = d.get RAS_LOG_HEAD_HEAD then d.inc RAS_CNT_LOG_DROP
  else
    let g := d.get RAS_LOG_CFG_CHANNEL
    let a := (d.get RAS_LOG_BASE_LO_ADDR + d.get RAS_LOG_BASE_HI_ADDR * 2 ^ 32) / 32 * 32 + 32 * tail
    let d := if d.tAllowed g a 32 then d.tWrite g a (d.rasBytes e count) none none else d
    let d := d.put RAS_LOG_TAIL_TAIL ((tail + 1) % size)
    if (tail + 1) % size = 0 then d.setRas fun r => { r with phase := !r.phase } else d

/-- A record: ring, status bit, interrupts (R455). -/
def rasWrite (d : Dev) (e : RasErr) (count : Nat) : Dev :=
  let d := d.rasRing e count
  let d := match e.cls with
    | .ce => d.setEvent RAS_STATUS_CE
    | .de => d.setEvent RAS_STATUS_DE
    | .uc => d.setEvent RAS_STATUS_UC
    | .fatal => d
  let d := d.emit (.fwInterrupt e.cls.code)
  if d.flag RAS_IRQ_EN && !bitOf (d.get RAS_IRQ_MASK) e.cls.code then (d.msix 0 0 (d.get RAS_IRQ_VECTOR)).2 else d

/-- An error enters the catalogue: its class counter, and its record, CE records at most once in 1 ms of a detector
(R455). A fatal record is latched in AON first (R456). -/
def rasError (d : Dev) (e : RasErr) : Dev :=
  let e := { e with injected := e.injected || d.ras.injNow }
  match e.cls with
  | .ce =>
    let d := d.inc RAS_CNT_CE
    let (last, n) := tabGet (fun _ => (0, 0)) d.ras.ce e.detector
    if last = 0 ∨ last - 1 + 3000000 ≤ d.cycle then
      (d.setRas fun r => { r with ce := tabSet (fun _ => (0, 0)) r.ce e.detector (d.cycle + 1, 0) }).rasWrite e (n + 1)
    else d.setRas fun r => { r with ce := tabSet (fun _ => (0, 0)) r.ce e.detector (last, n + 1) }
  | .de => (d.inc RAS_CNT_DE).rasWrite e 1
  | .uc => (d.inc RAS_CNT_UC).rasWrite e 1
  | .fatal =>
    let bs := d.rasBytes e 1
    let d := (List.range 8).foldl (fun d i => d.put (RAS_FATAL_REC_RECORD i) (fieldLE bs (4 * i) 4)) d
    d.rasWrite e 1

/-- The INSTANCE of family 0x08 of an HBM address (R468). -/
def hbmInst (a : Nat) : Nat := let k := a / 2 ^ 21; k / 12288 * 32 + k % 32

/-- The home slice of an HBM address as families 0x06 and 0x07 number it: 32 slices on C0, the die of the stacks H0 and H1, then 32 on
C1; on its die, the XOR of the address bits from bit 6 in fives (R235, R458). -/
def homeSlice (a : Nat) : Nat :=
  (if a / (24 * 2 ^ 30) < 2 then 0 else 32) + (List.range 7).foldl (fun s i => s ^^^ bitsOf a (6 + 5 * i) (if i = 6 then 4 else 5)) 0

/-- Whether the instance of a family that an HBM address fixes is the one named: its home slice, or its pseudo-channel. -/
def isHomeOf (fam inst a : Nat) : Bool :=
  if fam = 0x06 ∨ fam = 0x07 then homeSlice a == inst else if fam = 0x08 then hbmInst a == inst else true

/-- The use of a poisoned line (R453): a UC record with the line's LOCATION. -/
def consumed (d : Dev) (a : Nat) : Dev :=
  d.rasError { RasErr.of 0x08 (hbmInst a) .uc a with poison := true, owner := d.pageOwner (a / 2 ^ 21) }

/-- Lines become poisoned, at the addresses given (R248). -/
def poisonLines (d : Dev) (ls : List Nat) : Dev :=
  { d with mem := { d.mem with poison := (d.mem.poison ++ ls).dedup } }

end Dev
end Sys2Proof.Machine
end

