-- ==== Sys2Proof/Machine/TblOps.lean ====
section
/-!
DEFINITION. The match tables: lookups, parity, address learning, and the table commands (chapter Classification Rules
and Match Tables).
-/

namespace Sys2Proof.Machine

/-- A record as one number: record bit b is bit (b mod 16) of word b / 16 (R93). -/
def recordNat (ws : Vector W16 32) : Nat := ws.toList.foldr (fun w n => w.toNat + 65536 * n) 0

/-- The 16 key bytes from record words `w` to `w` + 7, in wire order (R106). -/
def recordKey (ws : Vector W16 32) (w : Nat) : List Byte :=
  (List.range 8).flatMap fun i => beBytes 2 (ws.getD (w + i) 0#16).toNat

/-! ### Entries -/

def Rule.valid (r : Rule) : Bool := bitOf r.ctl 63
def EmEntry.valid (e : EmEntry) : Bool := bitOf e.ctl 63
def EmEntry.learned (e : EmEntry) : Bool := bitOf e.ctl 62
def EmEntry.port (e : EmEntry) : Nat := bitsOf e.ctl 10 6
def LpmEntry.valid (e : LpmEntry) : Bool := bitOf e.ctl 63
def LpmEntry.wide (e : LpmEntry) : Bool := bitOf e.ctl 62
def LpmEntry.len (e : LpmEntry) : Nat := bitsOf e.ctl 8 8
/-- OWNER of an exact-match or LPM entry. -/
def ownerOf (ctl : Nat) : Nat := bitsOf ctl 21 11
/-- The SET bits of an exact-match or LPM control word with CLASS, COLOUR and QUEUE: bits [60:53] and [47:32]. -/
def actionBits (ctl : Nat) : Nat := bitsOf ctl 53 8 * 2 ^ 53 + bitsOf ctl 32 16 * 2 ^ 32

/-- A number with bit `i` set or clear. -/
def withBit (x i : Nat) (b : Bool) : Nat := x - bitsOf x i 1 * 2 ^ i + b2n b * 2 ^ i

/-- An action: class, colour and queue, each if set (R107). -/
structure Act where
  cls : Option Nat
  colour : Option Colour
  queue : Option Nat
  deriving DecidableEq, Repr

def Act.none : Act := ⟨Option.none, Option.none, Option.none⟩

/-- The action of a rule (R114). -/
def Rule.act (r : Rule) : Act :=
  ⟨if bitOf r.ctl 46 then some (bitsOf r.ctl 43 3) else none,
   if bitOf r.ctl 42 then some (Colour.ofCode (bitsOf r.ctl 40 2)) else none,
   if bitOf r.ctl 39 then some (bitsOf r.ctl 23 16) else none⟩

/-- The action of an exact-match or LPM entry (R117, R123). -/
def ctlAct (c : Nat) : Act :=
  ⟨if bitOf c 60 then some (bitsOf c 57 3) else none,
   if bitOf c 56 then some (Colour.ofCode (bitsOf c 54 2)) else none,
   if bitOf c 53 then some (bitsOf c 32 16) else none⟩

/-- Whether a key matches an LPM entry (R122). -/
def lpmMatches (key : List Byte) (e : LpmEntry) : Bool :=
  let n := e.len
  if e.wide then beNat key / 2 ^ (128 - n) == beNat e.pfx / 2 ^ (128 - n)
  else
    (key.take 12 == List.replicate 10 0#8 ++ [0xFF#8, 0xFF#8]) &&
      beNat (key.drop 12) / 2 ^ (32 - n) == beNat (e.pfx.drop 12) / 2 ^ (32 - n)

namespace Dev

def setTbl (d : Dev) (f : TblState → TblState) : Dev := { d with tbl := f d.tbl }
/-- The device microsecond counter (R117). -/
def usNow (d : Dev) : Nat := d.cycle / 3000
def tblOn (d : Dev) : Bool := d.flag TBL_CTRL_ENABLE

/-- The bucket of a key (R115). -/
def bucketNo (d : Dev) (key : List Byte) : Nat :=
  (crc32c (BitVec.ofNat 32 (d.get TBL_EM_SEED_SEED)) key).toNat % 262144

def emEnt (d : Dev) (i : Nat) : EmEntry := tabGet (fun _ => .reset) d.tbl.em i
def ovfEnt (d : Dev) (i : Nat) : EmEntry := tabGet (fun _ => .reset) d.tbl.ovf i
def lpmEnt (d : Dev) (i : Nat) : LpmEntry := tabGet (fun _ => .reset) d.tbl.lpm i
def ruleEnt (d : Dev) (k i : Nat) : Rule := tabGet (fun _ => .reset) (d.cp k).rules i
/-- An entry is written whole, with fresh parity. -/
def sound (d : Dev) (r : EntryRef) : Dev := d.setTbl fun t => { t with bad := t.bad.filter (· != r) }
def setRule (d : Dev) (k i : Nat) (r : Rule) : Dev :=
  (d.setCp k { d.cp k with rules := tabSet (fun _ => .reset) (d.cp k).rules i r }).sound (.rule k i)
/-- The slots that an entry at `s` covers. -/
def covers (e : LpmEntry) (s : Nat) : List Nat := if e.wide then [s, s + 1, s + 2, s + 3] else [s]
/-- The slots of the entry at `s` as it stands: an invalid one has its own alone. -/
def lpmSlots (d : Dev) (s : Nat) : List Nat :=
  let e : LpmEntry := tabGet (fun _ => .reset) d.tbl.lpm s
  if e.valid then covers e s else [s]
def setLpm (d : Dev) (i : Nat) (e : LpmEntry) : Dev :=
  (if e.valid then covers e i else [i]).foldl (fun d s => d.sound (.lpm s))
    (d.setTbl fun t => { t with lpm := tabSet (fun _ => .reset) t.lpm i e })
/-- Clears VALID of the entry at slot `s`; the slots of an entry that was valid have sound parity then. -/
def invalLpm (d : Dev) (s : Nat) : Dev :=
  (d.lpmSlots s).foldl (fun d i => d.sound (.lpm i)) (d.setLpm s { d.lpmEnt s with ctl := withBit (d.lpmEnt s).ctl 63 false })
/-- The valid wide entry that covers slot `s` beyond its first slot. -/
def wideOver (d : Dev) (s : Nat) : Option Nat :=
  let b := s / 4 * 4
  if b ≠ s ∧ (d.lpmEnt b).valid = true ∧ (d.lpmEnt b).wide = true then some b else none

/-- The entry at an exact-match location: OVF and INDEX (R116). -/
def locEnt (d : Dev) (loc : Bool × Nat) : EmEntry := if loc.1 then d.ovfEnt loc.2 else d.emEnt loc.2
/-- A location as its 32 bits. -/
def locCode (loc : Bool × Nat) : Nat := b2n loc.1 * 2 ^ 31 + loc.2

/-- The saggar that a queue belongs to (R366). -/
def queueSag (d : Dev) (q : Nat) : Option Nat := d.groupSag (d.groupOf q)

/-- SAG_TBL_USED of a saggar that is not FREE, and OVF_USED, follow the table (R366). -/
def syncUsed (d : Dev) (s : Nat) : Dev :=
  let cnt := fun (t : Tab EmEntry) => (t.filter fun kv => kv.2.valid && ownerOf kv.2.ctl == s).length
  let d := if d.get (SAG_STATUS_STATE s) = 0 then d.put (SAG_TBL_USED_USED s) 0
    else d.put (SAG_TBL_USED_USED s) (cnt d.tbl.em + cnt d.tbl.ovf)
  d.put TBL_STATUS_OVF_USED (d.tbl.ovf.filter fun kv => kv.2.valid).length

/-- Writes the entry at a location; the owners' counts follow. -/
def setLoc (d : Dev) (loc : Bool × Nat) (e : EmEntry) : Dev :=
  let old := ownerOf (d.locEnt loc).ctl
  let d := d.setTbl fun t =>
    if loc.1 then { t with ovf := tabSet (fun _ => .reset) t.ovf loc.2 e }
    else { t with em := tabSet (fun _ => .reset) t.em loc.2 e }
  let d := d.sound (if loc.1 then .ovf loc.2 else .em loc.2)
  (d.syncUsed old).syncUsed (ownerOf e.ctl)

/-- An owner at its quota: a saggar that is not FREE with USED at QUOTA (R366). -/
def atQuota (d : Dev) (s : Nat) : Bool :=
  d.get (SAG_STATUS_STATE s) != 0 && decide (d.get (SAG_TBL_QUOTA s) ≤ d.get (SAG_TBL_USED_USED s))

/-! ### Learn events (R128) -/

/-- Writes a learn event, or counts it in LEVT_DROP. -/
def learnEvent (d : Dev) (typ port oldPort owner loc : Nat) (key : List Byte) : Dev :=
  let size := 2 ^ d.get TBL_LEVT_CFG_SIZE_LOG2
  let tail := d.get TBL_LEVT_TAIL_TAIL
  if !d.flag TBL_LEVT_CFG_EN ∨ (tail + 1) % size = d.get TBL_LEVT_HEAD_HEAD then d.inc TBL_CNT_LEVT_DROP
  else
    let g := d.get TBL_LEVT_CFG_CHANNEL
    let w0 := b2n d.tbl.phase * 2 ^ 63 + typ * 2 ^ 59 + port * 2 ^ 53 + oldPort * 2 ^ 47 + owner * 2 ^ 36 + loc
    let a := (d.get TBL_LEVT_BASE_LO_ADDR + d.get TBL_LEVT_BASE_HI_ADDR * 2 ^ 32) / 32 * 32 + 32 * tail
    let d := if d.tAllowed g a 32 then d.tWrite g a (leBytes 8 w0 ++ leBytes 8 d.usNow ++ key) none none else d
    let d := d.put TBL_LEVT_TAIL_TAIL ((tail + 1) % size)
    if (tail + 1) % size = 0 then d.setTbl fun t => { t with phase := !t.phase } else d

/-! ### Parity (R134) -/

def isBad (d : Dev) (r : EntryRef) : Bool := d.tbl.bad.contains r

/-- TABLE code, pipeline and index of a table entry for TBL_PAR_LOG. -/
def refCode : EntryRef → Nat × Nat × Nat
  | .rule k i => (0, k, i) | .em i => (1, 0, i) | .ovf i => (2, 0, i) | .lpm i => (3, 0, i)

/-- The location of a bad exact-match entry; an LPM slot or rule index otherwise. -/
def refLoc : EntryRef → Nat
  | .em i => locCode (false, i) | .ovf i => locCode (true, i) | .lpm i => i | .rule _ i => i

/-- The physical LPM bank of a logical one (R465). -/
def lpmPhys (d : Dev) (b : Nat) : Nat := (tabGet (fun _ => none) d.ras.lpmMap b).getD b

/-- A bad entry's place in the catalogue (R458). -/
def parityErr (d : Dev) : EntryRef → RasErr
  | .rule k i => .of 0x0D k .uc i
  | .em i => .of 0x0E (i / 4 % 64) .uc (locCode (false, i))
  | .ovf i => .of 0x0E 64 .uc (locCode (true, i))
  | .lpm i => .of 0x0F (d.lpmPhys (i / 16384)) .uc i

/-- A bad entry is found (R134): invalidated in the same cycle, logged, counted and reported as a learn event. Fields of
the event that the manual does not state are free values (notes/assumptions/23). -/
def parityFound (d : Dev) (r : EntryRef) (injected : Bool := false) : Dev :=
  let c := refCode r
  let d := (d.sound r).mark (.badFound r)
  let loc := match r with | .em i => some (locCode (false, i)) | .ovf i => some (locCode (true, i)) | _ => none
  let d := match r with
    | .rule k i => d.setRule k i { d.ruleEnt k i with ctl := withBit (d.ruleEnt k i).ctl 63 false }
    | .em i => d.setLoc (false, i) { d.emEnt i with ctl := withBit (d.emEnt i).ctl 63 false }
    | .ovf i => d.setLoc (true, i) { d.ovfEnt i with ctl := withBit (d.ovfEnt i).ctl 63 false }
    -- an error in any slot of a wide entry is in that entry
    | .lpm i =>
      d.invalLpm ((d.wideOver i).getD i)
  let d := ((d.put TBL_PAR_LOG_TABLE c.1).put TBL_PAR_LOG_PIPE c.2.1).put TBL_PAR_LOG_INDEX c.2.2
  let d := (d.setEvent TBL_PAR_LOG_VALID).setEvent TBL_EVENT_PARITY
  let d := d.inc (match r with | .rule _ _ => TBL_CNT_PAR_RULE | .lpm _ => TBL_CNT_PAR_LPM | _ => TBL_CNT_PAR_EM)
  let (x, d) := d.free
  let d := d.learnEvent 7 (bitsOf x 0 6) 0 (bitsOf x 12 11) (loc.getD (bitsOf x 23 32)) (leBytes 16 (x / 2 ^ 55))
  d.rasError { d.parityErr r with injected := injected }

/-- Every bad entry among some is found. -/
def purge (d : Dev) (p : EntryRef → Bool) : Dev := (d.tbl.bad.filter p).foldl (fun d r => d.parityFound r) d

/-- The exact-match entries that a reader of a key's bucket and the overflow store meets. -/
def meetsKey (b : Nat) : EntryRef → Bool
  | .em i => i / 4 == b
  | .ovf _ => true
  | _ => false

/-! ### Lookups -/

/-- The location of a key: a valid entry with an equal KEY in its bucket or in the overflow store (R118). -/
def emFind (d : Dev) (key : List Byte) : Option (Bool × Nat) :=
  let b := d.bucketNo key
  match (List.range 4).find? fun w => (d.emEnt (4 * b + w)).valid && (d.emEnt (4 * b + w)).key == key with
  | some w => some (false, 4 * b + w)
  | none => (d.tbl.ovf.find? fun kv => kv.2.valid && kv.2.key == key).map fun kv => (true, kv.1)

/-- The LPM hit: of all matching valid entries the one at the lowest slot (R122). -/
def lpmFind (d : Dev) (key : List Byte) : Option (Nat × LpmEntry) :=
  d.tbl.lpm.find? fun kv => kv.2.valid && lpmMatches key kv.2

/-- Whether a range comparator reports in-range (R113). -/
def inRange (d : Dev) (k c : Nat) (ws : Vector W16 32) : Bool :=
  let w := (ws.getD (d.get (PL_RC_CFG_WORD k c)) 0#16).toNat
  decide (d.get (PL_RC_BOUNDS_LOW k c) ≤ w) && decide (w ≤ d.get (PL_RC_BOUNDS_HIGH k c))

/-- Rule field Fi of a record (R111). -/
def ruleField (d : Dev) (k i : Nat) (ws : Vector W16 32) : Nat :=
  bitsOf (recordNat ws) (d.get (PL_KEY_SEL_START k i)) (d.get (PL_KEY_SEL_WIDTH_M1 k i) + 1)

/-- Whether a valid rule matches a record (R112). -/
def ruleMatches (d : Dev) (k : Nat) (ws : Vector W16 32) (r : Rule) : Bool :=
  r.valid &&
    (List.range 8).all (fun i => ((d.ruleField k i ws ^^^ r.values.getD i 0) &&& r.masks.getD i 0) == 0) &&
    (!bitOf r.ctl 62 || (d.inRange k (bitsOf r.ctl 55 6) ws != bitOf r.ctl 61)) &&
    (!bitOf r.ctl 54 || (d.inRange k (bitsOf r.ctl 47 6) ws != bitOf r.ctl 53))

/-- The winning rule: the matching one with the lowest index (R112). -/
def ruleFind (d : Dev) (k : Nat) (ws : Vector W16 32) : Option Rule :=
  ((d.cp k).rules.find? fun kv => d.ruleMatches k ws kv.2).map (·.2)

/-- A learn check (R125): a miss, or a hit on a learned entry of another port, sends a request. Of requests
queued in one cycle those of a lower pipeline stand first; requests of earlier cycles stay before them, so that R126's queue order is
the order of the whole queue (DESIGN CHOICE, notes/assumptions/54). -/
def learnCheck (d : Dev) (k p : Nat) (key : List Byte) : Dev :=
  let wants := match d.emFind key with
    | none => true
    | some loc => (d.locEnt loc).learned && (d.locEnt loc).port != p
  if !wants then d
  else if 4096 ≤ d.tbl.learn.length then (d.inc (PL_CNT_LEARN_REQ_OVF k)).setEvent TBL_EVENT_LEARN_OVF
  else
    let r : LearnReq := { key := key, port := p, pipe := k, at_ := d.cycle }
    let after := fun (x : LearnReq) => x.at_ == d.cycle && decide (k < x.pipe)
    let d := d.setTbl fun t => { t with learn := t.learn.filter (!after ·) ++ r :: t.learn.filter after }
    (d.inc (PL_CNT_LEARN_REQ k)).put TBL_STATUS_LEARN_QDEPTH d.tbl.learn.length

/-- The bad entries that a reader of this cycle meets: those not yet found, and those found in this cycle (R136). -/
def badNow (d : Dev) : List EntryRef :=
  d.tbl.bad ++ d.marks.filterMap fun m => match m with | .badFound r => some r | _ => none

/-- The four lookups of a record (R105 to R107). A bad entry that a lookup meets is treated as a miss (R134), for each pipeline
that meets it in that cycle (R136). HIT is set by the
exact-match lookup; the learn check reads an entry and sets nothing (DESIGN CHOICE, notes/assumptions/49). -/
def lookups (d : Dev) (k : Nat) (ws : Vector W16 32) : Look × Dev :=
  let p := (ws.getD 0 0#16).toNat % 64
  let emKey := recordKey ws (d.get (PL_LKP_CFG_EM_WORD k))
  let lpmKey := recordKey ws (d.get (PL_LKP_CFG_LPM_WORD k))
  let lrnKey := recordKey ws (d.get (PL_LKP_CFG_LEARN_WORD k))
  let ruleOn := d.flag (PL_CLS_CTRL_ENABLE k)
  let emOn := d.flag (PL_CLS_CTRL_EM_EN k) && d.tblOn
  let lpmOn := d.flag (PL_CLS_CTRL_LPM_EN k) && d.tblOn
  let lrnOn := d.flag (TBL_LEARN_PORT_EN p) && d.tblOn
  -- the lookups see the tables as they stand; what they meet that is bad is a miss
  let readers : List (EntryRef → Bool) :=
    [fun r => ruleOn && (match r with | .rule k' _ => k' == k | _ => false),
     fun r => lpmOn && (match r with | .lpm _ => true | _ => false),
     fun r => emOn && meetsKey (d.bucketNo emKey) r, fun r => lrnOn && meetsKey (d.bucketNo lrnKey) r]
  let n := (readers.filter fun m => d.badNow.any m).length
  let d := (d.purge fun r => readers.any (· r)).bump (PL_CNT_PAR_MISS k) n
  let rh := if ruleOn then d.ruleFind k ws else none
  let eh := if emOn then d.emFind emKey else none
  let lh := if lpmOn then (d.lpmFind lpmKey).map (·.2) else none
  let d := if rh.isSome then d.inc (PL_CNT_RULE_HIT k) else d
  let d := match eh with
    | some loc =>
      let e := d.locEnt loc
      (d.inc (PL_CNT_EM_HIT k)).setLoc loc { e with ctl := withBit e.ctl 61 true }
    | none => d
  let d := if lh.isSome then d.inc (PL_CNT_LPM_HIT k) else d
  let d := if lrnOn then d.learnCheck k p lrnKey else d
  let acts : List Act := [match rh with | some r => r.act | none => .none,
    match eh with | some loc => ctlAct (d.locEnt loc).ctl | none => .none,
    match lh with | some e => ctlAct e.ctl | none => .none]
  ({ cls := (acts.findSome? (·.cls)).getD 0, colour := (acts.findSome? (·.colour)).getD .green,
     queue := acts.findSome? (·.queue) }, d)

/-! ### Inserting and deleting (R119, R120) -/

/-- The outcome of an insert. -/
inductive Ins where
  | exists_ (loc : Bool × Nat) | quota | full
  | done (loc : Bool × Nat)
  deriving DecidableEq, Repr

/-- An insert of an entry (R119). `replace` lets a present key be rewritten in place. -/
def emInsertAt (d : Dev) (e : EmEntry) (replace : Bool) : Ins × Dev :=
  let o := ownerOf e.ctl
  match d.emFind e.key with
  | some loc =>
    if !replace then (.exists_ loc, d)
    else if ownerOf (d.locEnt loc).ctl ≠ o ∧ d.atQuota o = true then (.quota, d)
    else (.done loc, d.setLoc loc e)
  | none =>
    if d.atQuota o then (.quota, d)
    else
      let b := d.bucketNo e.key
      match (List.range 4).find? fun w => !(d.emEnt (4 * b + w)).valid with
      | some w => (.done (false, 4 * b + w), d.setLoc (false, 4 * b + w) e)
      | none =>
        match (List.range 8192).find? fun i => !(d.ovfEnt i).valid with
        | some i => (.done (true, i), d.setLoc (true, i) e)
        | none => (.full, d.setEvent TBL_EVENT_TABLE_FULL)

/-- Deletes the entry at a location; a freed way takes the lowest overflow entry of its bucket, whose slot is the result
(R120). -/
def emDeleteAt (d : Dev) (loc : Bool × Nat) : Option Nat × Dev :=
  let inv := fun (e : EmEntry) => { e with ctl := withBit e.ctl 63 false }
  let d1 := d.setLoc loc (inv (d.locEnt loc))
  if loc.1 then (none, d1)
  else match d1.tbl.ovf.find? fun kv => kv.2.valid && d1.bucketNo kv.2.key == loc.2 / 4 with
    | some (i, e) => (some i, (d1.setLoc loc e).setLoc (true, i) (inv e))
    | none => (none, d1)

/-- LEARN_COMMIT (R127): the arbiter decides the oldest request against the table as it stands. The OWNER of a RACE event is
that of the requesting port (DESIGN CHOICE, notes/assumptions/49). -/
def learnCommit (d : Dev) : Dev :=
  match d.tbl.learn with
  | [] => d
  | r :: rest =>
    let d := (d.setTbl fun t => { t with learn := rest, nextAt := d.cycle + 1 }).mark .tableWrite
    let d := d.put TBL_STATUS_LEARN_QDEPTH rest.length
    let d := d.purge (meetsKey (d.bucketNo r.key))
    let q := d.get (TBL_LEARN_PORT_QUEUE r.port)
    let o := d.get (TBL_LEARN_PORT_OWNER r.port)
    let e : EmEntry :=
      { key := r.key, stamp := d.usNow,
        ctl := 2 ^ 63 + 2 ^ 62 + 2 ^ 53 + q * 2 ^ 32 + o * 2 ^ 21 + r.port * 2 ^ 10 }
    match d.emFind r.key with
    | none =>
      match d.emInsertAt e false with
      | (.done loc, d) => (d.inc TBL_CNT_LEARN_NEW).learnEvent 1 r.port 0 o (locCode loc) r.key
      | (.quota, d) => (d.inc TBL_CNT_LEARN_QUOTA).learnEvent 5 r.port 0 o 0 r.key
      | (_, d) => (d.inc TBL_CNT_LEARN_FULL).learnEvent 4 r.port 0 o 0 r.key
    | some loc =>
      let x := d.locEnt loc
      if !x.learned then d.inc TBL_CNT_LEARN_STATIC
      else if x.port = r.port then d.inc TBL_CNT_LEARN_DUP
      else if d.usNow - x.stamp < d.get TBL_MOVE_HOLD_HOLD_MS * 1000 then
        (d.inc TBL_CNT_LEARN_RACE).learnEvent 3 r.port x.port o (locCode loc) r.key
      else if ownerOf x.ctl ≠ o ∧ d.atQuota o = true then
        (d.inc TBL_CNT_LEARN_QUOTA).learnEvent 5 r.port 0 o 0 r.key
      else
        -- a station move rewrites PORT, QUEUE, OWNER and STAMP
        let ctl := x.ctl - bitsOf x.ctl 32 16 * 2 ^ 32 - ownerOf x.ctl * 2 ^ 21 - x.port * 2 ^ 10 +
          q * 2 ^ 32 + o * 2 ^ 21 + r.port * 2 ^ 10
        let d := d.setLoc loc { x with ctl := ctl, stamp := d.usNow }
        (d.inc TBL_CNT_LEARN_MOVE).learnEvent 2 r.port x.port o (locCode loc) r.key

/-! ### LPM slots (R121, R124) -/

/-- Whether a slot is free: no valid entry at it and none over it. -/
def slotFree (d : Dev) (s : Nat) : Bool := !(d.lpmEnt s).valid && (d.wideOver s).isNone


/-- Writes a whole entry, invalidating whole every valid entry that occupies a slot it covers (R124). -/
def lpmWriteAt (d : Dev) (s : Nat) (e : LpmEntry) : Dev :=
  let d := (covers e s).foldl (fun d i =>
    match d.wideOver i with
    | some b => d.invalLpm b
    | none => if (d.lpmEnt i).valid then d.invalLpm i else d) d
  (covers e s).foldl (fun d i => d.sound (.lpm i)) (d.setLpm s e)

end Dev

/-! ### Table commands (R129 to R133) -/

/-- The status codes of R131. -/
def stOk : Nat := 0x00
def stExists : Nat := 0x01
def stNotFound : Nat := 0x02
def stFull : Nat := 0x03
def stQuota : Nat := 0x04
def stDstBusy : Nat := 0x05
def stBadIndex : Nat := 0x06
def stDenied : Nat := 0x07
def stBadOpcode : Nat := 0x08
def stParity : Nat := 0x09
def stNotReady : Nat := 0x0A
def stBadEntry : Nat := 0x0B

/-- What a table command answers: STATUS, RFLAGS, LOCATION, RELOC_FROM, and the BODY it returns. -/
structure TblRes where
  status : Nat
  rflags : Nat := 0
  loc : Nat := 0
  reloc : Nat := 0
  body : Option (List Byte) := none
  deriving DecidableEq, Repr

/-- The bytes of an exact-match entry, of an LPM entry and of a rule (R114, R117, R123). -/
def emBytes (e : EmEntry) : List Byte := e.key ++ leBytes 8 e.ctl ++ leBytes 8 e.stamp
def lpmBytes (e : LpmEntry) : List Byte := e.pfx ++ leBytes 8 e.ctl ++ List.replicate 8 0#8
def ruleBytes (r : Rule) : List Byte :=
  ((List.range 8).flatMap fun i => leBytes 4 (r.values.getD i 0) ++ leBytes 4 (r.masks.getD i 0)) ++ leBytes 8 r.ctl ++
    List.replicate 8 0#8

/-- A rule from the 80 bytes of BODY. -/
def ruleOf (b : List Byte) : Rule :=
  ⟨(List.range 8).map fun i => fieldLE b (8 * i) 4, (List.range 8).map fun i => fieldLE b (8 * i + 4) 4, fieldLE b 64 8⟩

/-- The opcodes of R130. -/
def tblOpcodes : List Nat := [0x01, 0x02, 0x03, 0x04, 0x05, 0x10, 0x11, 0x12, 0x13, 0x20, 0x21]

/-- Whether the header or BODY of a block breaks R129, R117, R123 or R114 (BAD_ENTRY of R131). -/
def tblBadEntry (op : Nat) (b : List Byte) : Bool :=
  let flags := fieldLE b 1 1
  let body := sliceB b 16 80
  let ctl := fieldLE body 16 8
  let used := (if op = 0x01 then 1 else 0) + (if op = 0x20 then 2 else 0)
  let isRule := op == 0x20 || op == 0x21
  (flags &&& (255 - used)) != 0 || fieldLE b 12 4 != 0 || (!isRule && fieldLE b 2 2 != 0) ||
    (op != 0x11 && fieldLE b 8 4 != 0) || (op == 0x04 && bitsOf (fieldLE b 4 4) 20 11 != 0) ||
    (op == 0x01 && (bitsOf ctl 48 5 != 0 || bitsOf ctl 16 5 != 0 || bitsOf ctl 0 10 != 0)) ||
    (op == 0x10 && (bitOf ctl 61 || bitsOf ctl 48 5 != 0 || bitsOf ctl 16 5 != 0 || bitsOf ctl 0 8 != 0 ||
      fieldLE body 24 8 != 0 || decide ((if bitOf ctl 62 then 128 else 32) < bitsOf ctl 8 8) ||
      (!bitOf ctl 62 && fieldLE body 0 12 != 0))) ||
    (op == 0x20 && (bitsOf (fieldLE body 64 8) 0 12 != 0 || fieldLE body 72 8 != 0))

namespace Dev

/-- Whether a command's indexes are out of range (BAD_INDEX of R131). -/
def tblBadIndex (d : Dev) (op : Nat) (b : List Byte) : Bool :=
  let i := fieldLE b 4 4
  let j := fieldLE b 8 4
  let wide := bitOf (fieldLE b 32 8) 62
  match op with
  | 0x04 => bitOf i 31 && decide (8192 ≤ bitsOf i 0 20)
  | 0x10 => decide (262144 ≤ i) || (wide && i % 4 != 0)
  | 0x11 => decide (262144 ≤ i) || decide (262144 ≤ j) || (d.wideOver i).isSome ||
      ((d.lpmEnt i).valid && (d.lpmEnt i).wide && j % 4 != 0)
  | 0x12 | 0x13 => decide (262144 ≤ i)
  | 0x20 | 0x21 => decide (16384 ≤ i) || decide (8 ≤ fieldLE b 2 2)
  | _ => false

/-- A command on a key (R131, R133, R134): another owner's entry denies it, a bad entry that it reads ends it with PARITY and is
invalidated; the key's own entry where that is bad is a miss, whoever owns it, so that it denies nothing (R134 before R131's order of
conditions: DESIGN CHOICE, notes/assumptions/55); else it is decided by the location of the key. -/
def byKey (d : Dev) (foreign : EmEntry → Bool) (key : List Byte) (act : Dev → Option (Bool × Nat) → TblRes × Dev) :
    TblRes × Dev :=
  let meets := meetsKey (d.bucketNo key)
  let pure_ := d.purge meets
  match pure_.emFind key with
  | some loc =>
    if foreign (pure_.locEnt loc) then ({ status := stDenied }, d)
    else match d.tbl.bad.find? meets with
      | some r => ({ status := stParity, loc := refLoc r }, pure_)
      | none => act d (some loc)
  | none =>
    match d.tbl.bad.find? meets with
    | some r => ({ status := stParity, loc := refLoc r }, pure_)
    | none => act d none

/-- Executes the table command of a block for an owner (none is the manager): R131's order of conditions, then the
outcome against the table. -/
def tblCommand (d : Dev) (owner : Option Nat) (b : List Byte) : TblRes × Dev :=
  let op := fieldLE b 0 1
  let i := fieldLE b 4 4
  let key := sliceB b 16 16
  let ctl := fieldLE b 32 8
  let isEm := decide (op < 0x10)
  let foreign := fun (e : EmEntry) => match owner with | some s => ownerOf e.ctl != s | none => false
  let tenant := owner.isSome
  let st := fun (n : Nat) => ({ status := n : TblRes }, d)
  if !d.tblOn then st stNotReady
  else if !tblOpcodes.contains op then st stBadOpcode
  else if tenant && !isEm then st stDenied
  else if tblBadEntry op b then st stBadEntry
  else if d.tblBadIndex op b then st stBadIndex
  else if op == 0x01 && (match owner with
      | some s => ownerOf ctl != s || (bitOf ctl 53 && d.queueSag (bitsOf ctl 32 16) != some s)
      | none => false) then st stDenied
  else match op with
    | 0x01 => d.byKey foreign key fun d loc =>
      let e : EmEntry := { key := key, ctl := 2 ^ 63 + actionBits ctl + ownerOf ctl * 2 ^ 21, stamp := 0 }
      match d.emInsertAt e (loc.isSome && bitOf (fieldLE b 1 1) 0) with
      | (.exists_ loc, d) => ({ status := stExists, loc := locCode loc }, d)
      | (.done l, d) => ({ status := stOk, loc := locCode l, rflags := if loc.isSome then 0 else b2n l.1 }, d)
      | (.quota, d) => ({ status := stQuota }, d)
      | (.full, d) => ({ status := stFull }, d)
    | 0x02 => d.byKey foreign key fun d loc => match loc with
      | none => ({ status := stNotFound }, d)
      | some loc =>
        match d.emDeleteAt loc with
        | (some o, d) => ({ status := stOk, loc := locCode loc, rflags := 2, reloc := locCode (true, o) }, d)
        | (none, d) => ({ status := stOk, loc := locCode loc }, d)
    | 0x03 => d.byKey foreign key fun d loc => match loc with
      | none => ({ status := stNotFound }, d)
      | some loc => ({ status := stOk, loc := locCode loc, body := some (emBytes (d.locEnt loc)) }, d)
    | 0x04 =>
      let loc := (bitOf i 31, bitsOf i 0 20)
      let e := d.locEnt loc
      if tenant && (!e.valid || foreign e) then ({ status := stDenied }, d)
      else
        let r := if loc.1 then EntryRef.ovf loc.2 else .em loc.2
        if d.isBad r then ({ status := stParity, loc := locCode loc }, d.parityFound r)
        else ({ status := stOk, loc := locCode loc, body := some (emBytes e) }, d)
    | 0x05 => d.byKey foreign key fun d loc => match loc with
      | none => ({ status := stNotFound }, d)
      | some loc =>
        let e := d.locEnt loc
        ({ status := stOk, loc := locCode loc }, d.setLoc loc { e with ctl := withBit e.ctl 61 false })
    | 0x10 => ({ status := stOk, loc := i }, d.lpmWriteAt i { pfx := key, ctl := ctl })
    | 0x11 =>
      let j := fieldLE b 8 4
      let e := d.lpmEnt i
      let dst := if e.valid then covers e j else [j]
      match (d.lpmSlots i ++ dst ++ dst.filterMap d.wideOver).find? fun s => d.isBad (.lpm s) with
      | some s => ({ status := stParity, loc := i }, d.parityFound (.lpm s))
      | none =>
        if dst.all d.slotFree then ({ status := stOk, loc := j }, (d.setLpm j e).invalLpm i)
        else ({ status := stDstBusy }, d)
    | 0x12 =>
      let s := (d.wideOver i).getD i
      ({ status := stOk, loc := s }, d.invalLpm s)
    | 0x13 =>
      let s := (d.wideOver i).getD i
      match (d.lpmSlots s).find? fun s => d.isBad (.lpm s) with
      | some x => ({ status := stParity, loc := s }, d.parityFound (.lpm x))
      | none => ({ status := stOk, loc := s, body := some (lpmBytes (d.lpmEnt s)) }, d)
    | 0x20 =>
      let r := ruleOf (sliceB b 16 80)
      let ks := if bitOf (fieldLE b 1 1) 1 then List.range 8 else [fieldLE b 2 2]
      ({ status := stOk, loc := i }, ks.foldl (fun d k => d.setRule k i r) d)
    | _ =>
      let k := fieldLE b 2 2
      if d.isBad (.rule k i) then ({ status := stParity, loc := i }, d.parityFound (.rule k i))
      else ({ status := stOk, loc := i, body := some (ruleBytes (d.ruleEnt k i)) }, d)

/-- A block's answer: bytes 96 to 127, and the BODY (R129). -/
def tblAnswer (d : Dev) (j : Job) (r : TblRes) : Dev :=
  let d := d.inc (if r.status = 0 then TBL_CNT_CMD_DONE else TBL_CNT_CMD_FAIL)
  let tail := [BitVec.ofNat 8 r.status, BitVec.ofNat 8 r.rflags, 0#8, 0#8] ++ leBytes 4 r.loc ++ leBytes 4 r.reloc ++
    List.replicate 20 0#8
  let body := match r.body with | some x => [(16, x)] | none => []
  d.finishBlock j (body ++ [(96, tail)]) r.status

end Dev

/-- A table command of opcode `op`: the oldest block of channel `g`, if it holds that opcode. At most one command or learn
commits in a cycle (R126). -/
def doTable (op : Nat) (g : Nat) (d : Dev) : Dev :=
  if d.cycle < d.tbl.nextAt then d
  else match d.tbl.jobs.find? (·.chan == g) with
    | none => d
    | some j =>
      if fieldLE j.block 0 1 ≠ op then d
      else
        let d := d.setTbl fun t => { t with jobs := t.jobs.filter (· != j), nextAt := d.cycle + 1 }
        let r := d.tblCommand j.owner j.block
        let d := if [0x03, 0x04, 0x13, 0x21].contains op then r.2 else r.2.mark .tableWrite
        d.tblAnswer j r.1

def doEmInsert (g : Fin 4096) (d : Dev) : Dev := doTable 0x01 g d
def doEmDelete (g : Fin 4096) (d : Dev) : Dev := doTable 0x02 g d
def doEmRead (g : Fin 4096) (d : Dev) : Dev := doTable 0x03 g d
def doEmReadLoc (g : Fin 4096) (d : Dev) : Dev := doTable 0x04 g d
def doEmClearHit (g : Fin 4096) (d : Dev) : Dev := doTable 0x05 g d
def doLpmWrite (g : Fin 4096) (d : Dev) : Dev := doTable 0x10 g d
def doLpmMove (g : Fin 4096) (d : Dev) : Dev := doTable 0x11 g d
def doLpmInvalidate (g : Fin 4096) (d : Dev) : Dev := doTable 0x12 g d
def doLpmRead (g : Fin 4096) (d : Dev) : Dev := doTable 0x13 g d
def doRuleWrite (g : Fin 4096) (d : Dev) : Dev := doTable 0x20 g d
def doRuleRead (g : Fin 4096) (d : Dev) : Dev := doTable 0x21 g d

/-- LEARN_COMMIT (R126, R127): table commands go first, and one commits per cycle; a request of a saggar in its reset waits for
the sweep (R375). -/
def doLearnCommit (d : Dev) : Dev :=
  let waits := match d.tbl.learn with
    | r :: _ => d.get (SAG_STATUS_STATE (d.get (TBL_LEARN_PORT_OWNER r.port))) == 4
    | [] => false
  if d.cycle < d.tbl.nextAt ∨ d.tbl.jobs ≠ [] ∨ waits = true then d else d.learnCommit

/-- CLASSIFICATION (R105): the oldest record of pipeline `k` that has not been looked up. Before the first enable the
record is discarded (CLS_OFF_DROP). A lookup sees the tables as they were before the writes of its cycle (R132, R136). -/
def doClassification (k : Fin 8) (d : Dev) : Dev :=
  let d := d.before .tableWrite
  match (d.cp k).inflight.find? fun r => !r.malformed && r.look.isNone with
  | none => d
  | some r =>
    if !d.leftSetup (PL_CLS_CTRL k) then
      let d := d.setCp k { d.cp k with inflight := (d.cp k).inflight.filter (· != r) }
      (d.inc (PL_CNT_CLS_OFF_DROP k)).freeFrame r.frame
    else
      let (l, d) := d.lookups k r.words
      d.setCp k { d.cp k with
        inflight := (d.cp k).inflight.map fun x => if x = r then { x with look := some l } else x }

/-- CLASSIFY_ENABLE (R46): the first write of 1 locks the RWL fields. -/
def doClassifyEnable (p : Path) (k : Fin 8) (data : W32) (d : Dev) : Dev :=
  let d := d.writeFields p (PL_CLS_CTRL k) data
  let on := fieldGet data 0 1
  let d := d.put (PL_CLS_CTRL_ENABLE k) on
  if on = 1 then d.lock (PL_CLS_CTRL k) else d

/-- While SCRUB_EN is 0, the next scrub pass begins with the write that sets it (R135). -/
def Dev.restartScrub (d : Dev) : Dev :=
  if d.flag TBL_CTRL_SCRUB_EN then d else d.setTbl fun t => { t with scrub := [0, 0, 0, 0], scrubAt := d.cycle }

/-- TABLE_ENABLE (R46). -/
def doTableEnable (p : Path) (data : W32) (d : Dev) : Dev :=
  let d := d.restartScrub.writeFields p TBL_CTRL data
  let on := fieldGet data 0 1
  let d := d.put TBL_CTRL_ENABLE on
  if on = 1 then d.lock TBL_CTRL else d

/-- The structures that the scrubber reads, with the entries of each of their ports and the cycles between two reads of one:
exact-match banks, LPM banks, rule memories, overflow store (R135). -/
def scrubPorts : List (Nat × Nat) := [(4096, 7324), (16384, 1831), (16384, 1831), (8192, 3662)]

/-- Whether read `n` of the ports of structure `s` meets an entry. -/
def scrubMeets (s n : Nat) : EntryRef → Bool
  | .em i => s == 0 && i / 4 / 64 == n
  | .lpm i => s == 1 && i % 16384 == n
  | .rule _ i => s == 2 && i == n
  | .ovf i => s == 3 && i == n

/-- The structure whose next read of the present pass is due first. -/
def Dev.scrubNext (d : Dev) : Nat :=
  let due := fun s => (scrubPorts.getD s (0, 0)).2 * d.tbl.scrub.getD s 0
  let left := [0, 1, 2, 3].filter fun s => decide (d.tbl.scrub.getD s 0 < (scrubPorts.getD s (0, 0)).1)
  left.foldl (fun b s => if due s < due b then s else b) (left.headD 0)

/-- SCRUB_READ (R135): the ports of the structure whose turn it is read their next entries, each read due when its share of the
pass of 10 ms has gone by. A write of the same cycle comes after it (R136). -/
def doScrubRead (d : Dev) : Dev :=
  let s := d.scrubNext
  let (count, every) := scrubPorts.getD s (0, 0)
  let n := d.tbl.scrub.getD s 0
  if d.flag TBL_CTRL_SCRUB_EN ∧ n < count ∧ d.tbl.scrubAt + every * n ≤ d.cycle then
    let d := (d.before .tableWrite).purge (scrubMeets s n)
    let now := d.tbl.scrub.set s (n + 1)
    if now = scrubPorts.map (·.1) then
      (d.setTbl fun t => { t with scrub := [0, 0, 0, 0], scrubAt := t.scrubAt + 30000000 }).inc TBL_CNT_SCRUB_PASS
    else d.setTbl fun t => { t with scrub := now }
  else d

end Sys2Proof.Machine
end

