-- ==== Sys2Proof/Machine/ChanOps.lean ====
section
/-!
DEFINITION. Hardware channels, flow placement and the core commands (R213 to R233).
-/

namespace Sys2Proof.Machine

/-- Cells of the packet buffer (R141). -/
def totalCells : Nat := 786432

namespace Dev

def setCore (d : Dev) (f : CoreState → CoreState) : Dev := { d with core := f d.core }

def channel (d : Dev) (c : Nat) : Option Channel := tabGet (fun _ => none) d.core.chans c
def setChannel (d : Dev) (c : Nat) (x : Option Channel) : Dev :=
  d.setCore fun s => { s with chans := tabSet (fun _ => none) s.chans c x }

/-- The counters of R233. -/
def statInboxDrop : Nat := 0
def statPoolDrop : Nat := 1
def statAbandon : Nat := 2
def statBadHandle : Nat := 3
def statBadLen : Nat := 4
def statDenied : Nat := 5
def statForce : Nat := 6
def stat (d : Dev) (i n : Nat) : Dev :=
  d.setCore fun s => { s with stats := tabMod (fun _ => 0) s.stats i (satAdd 64 · n) }

/-! ### Endpoints -/

/-- The channel of a thread's send endpoint, and of its receive endpoint. -/
def txChan (d : Dev) (t ep : Nat) : Option (Nat × Channel) :=
  d.core.chans.findSome? fun kv => match kv.2 with
    | some c => if c.srcT = t ∧ c.srcEp = ep then some (kv.1, c) else none
    | none => none
def rxChan (d : Dev) (t ep : Nat) : Option (Nat × Channel) :=
  d.core.chans.findSome? fun kv => match kv.2 with
    | some c => if c.dstT = t ∧ c.dstEp = ep then some (kv.1, c) else none
    | none => none

def txFifo (d : Dev) (t ep : Nat) : List W64 := tabGet (fun _ => []) (d.thread t).tx ep
def rxFifo (d : Dev) (t ep : Nat) : List W64 := tabGet (fun _ => []) (d.thread t).rx ep
def setTx (d : Dev) (t ep : Nat) (q : List W64) : Dev := d.modThread t fun x => { x with tx := tabSet (fun _ => []) x.tx ep q }
def setRx (d : Dev) (t ep : Nat) (q : List W64) : Dev := d.modThread t fun x => { x with rx := tabSet (fun _ => []) x.rx ep q }

/-- A thread ends a blocked Xplc instruction: its result is written, the pc moves on, the stalled cycles are counted
(hpmcounter5, R201). -/
def unblock (d : Dev) (t rd : Nat) (v : W64) (since : Nat) : Dev :=
  d.modThread t fun x =>
    { (x.wr rd v) with pc := x.pc + 4, wait := .run, xplcStall := x.xplcStall + (d.cycle - since), retired := x.retired + 1 }

/-- A blocked Xplc instruction is abandoned with no effect; the stalled cycles are counted. -/
def unstall (d : Dev) (t : Nat) : Dev :=
  d.modThread t fun x =>
    { x with wait := .run, xplcStall := x.xplcStall + (d.cycle - (waitSince x.wait).getD d.cycle) }

/-- CHANNEL_UNBOUND at a thread (R216): endpoint selector 0–3 for send, 4–7 for receive. -/
def unboundTrap (d : Dev) (t sel : Nat) : Dev := (d.unstall t).raise t ⟨24, sel⟩

/-- The number that a credit carries back over the NoC: that of the kiln it answers (R33, R475). -/
def creditTag (d : Dev) (x : Channel) : Option (Nat × Nat) :=
  if isMgmt x.srcT ∨ (kilnOf x.srcT = kilnOf x.dstT ∧ isMgmt x.dstT = false) then none
  else some (kilnOf x.srcT, d.firing (.kiln (kilnOf x.srcT)))

/-- A message taken from the receive FIFO of a channel's endpoint sends a credit back (R217). -/
def takeMsg (d : Dev) (c : Nat) (x : Channel) : Option (W64 × Dev) :=
  match d.rxFifo x.dstT x.dstEp with
  | [] => none
  | m :: q => some (m, (d.setRx x.dstT x.dstEp q).setChannel c (some { x with creds := x.creds ++ [⟨d.cycle, d.creditTag x⟩] }))

/-- A blocked CHRECV completes if its FIFO holds a message. -/
def serveRecv (d : Dev) (c : Nat) : Dev :=
  match d.channel c with
  | none => d
  | some x =>
    match (d.thread x.dstT).wait with
    | .recv ep rd since =>
      if ep ≠ x.dstEp then d
      else match d.takeMsg c x with
        | some (m, d) => d.unblock x.dstT rd m since
        | none => d
    | _ => d

/-- A blocked CHSEND completes if its FIFO has room (R219). -/
def serveSend (d : Dev) (c : Nat) : Dev :=
  match d.channel c with
  | none => d
  | some x =>
    match (d.thread x.srcT).wait with
    | .send ep m since =>
      let q := d.txFifo x.srcT ep
      if ep = x.srcEp ∧ q.length < 8 then (d.setTx x.srcT ep (q ++ [m])).unblock x.srcT 0 0#64 since else d
    | _ => d

/-- The kiln whose port a message leaves by, with its firing number: none inside a kiln or from a management core (R218). -/
def leavesKiln (d : Dev) (src dst : Nat) : Option (Nat × Nat) :=
  if isMgmt src ∨ (kilnOf src = kilnOf dst ∧ isMgmt dst = false) then none
  else some (kilnOf src, d.firing (.kiln (kilnOf src)))

/-! ### Cells and handles (R225, R226) -/

/-- A handle. -/
def mkHandle (firing : Nat) (marker punt : Bool) (len cell : Nat) : W64 :=
  BitVec.ofNat 64 (firing * 2 ^ 40 + b2n marker * 2 ^ 39 + b2n punt * 2 ^ 38 + len * 2 ^ 24 + cell)

/-- A first cell for a delivered frame: free (notes/assumptions/25), but that its cells are no other delivered frame's. -/
def chooseCell (d : Dev) (n : Nat) : Nat × Dev :=
  let (x, d) := d.free
  let clash := fun c => d.core.given.any fun g => decide (c < g.cell + g.cells) && decide (g.cell < c + n)
  let ok := fun c => decide (c + n ≤ totalCells) && !clash c
  (((x % totalCells) :: 0 :: d.core.given.map fun g => g.cell + g.cells).find? ok |>.getD 0, d)

/-- A frame's record as the 64 bytes before it: word w at byte 2w (R93, R141). -/
def recordBytes (f : Frame) : List Byte :=
  match f.words with
  | some w => w.toList.flatMap fun x => leBytes 2 x.toNat
  | none => List.replicate 64 0#8

/-- Delivers a frame to a thread: its handle enters the inbox, or the frame is discarded where that is full (R225) or
the thread's quadrant is held (R430). -/
def deliverTo (d : Dev) (t i : Nat) (f : Frame) (pl : Option Nat) : Dev :=
  if 64 ≤ (d.thread t).inbox.length ∨ d.released t = false then (d.stat statInboxDrop 1).freeFrame i
  else
    let n := cellsOf (f.len + 64)
    let d := d.resizeCells i n
    let (cell, d) := d.chooseCell n
    let (left, d) := d.free
    let data := recordBytes f ++ f.bytes ++ leBytes (n * 256 - 64 - f.len) left
    let fir := match pl with | some q => (d.place q).firing | none => 0
    let g : Given := { thread := t, frame := i, cell := cell, cells := n, data := data, place := pl.map fun q => (q, fir),
                       at_ := d.cycle }
    let d := d.setCore fun s => { s with given := s.given ++ [g] }
    let d := match pl with
      | some q => d.modPlace q fun x => { x with placed := satAdd 64 x.placed 1 }
      | none => d
    d.modThread t fun x => { x with inbox := x.inbox ++ [mkHandle fir false pl.isNone f.len cell] }

/-- A blocked PKRECV completes if the inbox holds a handle. -/
def servePkrecv (d : Dev) (t : Nat) : Dev :=
  let x := d.thread t
  match x.wait, x.inbox with
  | .pkrecv rd since, h :: q => ((d.modThread t fun x => { x with inbox := q }).unblock t rd h since).mark (.handed t rd)
  | _, _ => d

/-- A blocked PKSEND completes if the return queue has room. -/
def servePksend (d : Dev) (t : Nat) : Dev :=
  let x := d.thread t
  match x.wait with
  | .pksend h v since =>
    if x.retq.length < 8 then (d.modThread t fun x => { x with retq := x.retq ++ [(h, v)] }).unblock t 0 0#64 since else d
  | _ => d

/-! ### Migration (R230, R231) -/

/-- Whether a frame still waits for a thread. -/
def stillPlaced (d : Dev) (i : Nat) : Bool :=
  match d.frame? i with
  | some f => f.stage == .placed
  | none => false

/-- A placed frame that no entry takes any more goes to metering, unplaced (R230). -/
def unplace (d : Dev) (i : Nat) : Dev := d.modFrame i fun f => { f with stage := .meter, placement := none }

/-- The end of a change: the new thread and owner take effect and the held frames are released in order (R230); so are those that
waited for the bump of an entry that does not move (R36). -/
def finishMove (d : Dev) (q : Nat) : Dev :=
  let x := d.place q
  let (v, t, o) := x.next.getD (x.valid, x.thread, x.owner)
  let held := x.held
  let d := d.setPlace q { x with
    valid := v, thread := if v then t else x.thread, owner := if v then o else x.owner, next := none, ended := false,
    held := [] }
  held.foldl (fun d i =>
    if !d.stillPlaced i then d
    else if v then
      (d.modPlace q fun x => { x with toward := x.toward ++ [(i, t)] }).modFrame i fun f =>
        { f with placement := some (q, (d.place q).firing) }
    else d.unplace i) d

/-- A hold ends: the entry bumps, at once or when its spacing allows (R230, R36). -/
def endHold (d : Dev) (q : Nat) (byLimit : Bool) : Dev :=
  let x := d.place q
  if x.next.isNone || x.ended then d
  else
    let d := d.setPlace q { x with ended := true, holdLimit := if byLimit then satAdd 32 x.holdLimit 1 else x.holdLimit }
    let d := d.bumpOwner (.place q)
    if d.bumpPending (.place q) then d else d.finishMove q

/-- A change of a valid entry begins (R230). -/
def startMove (d : Dev) (q : Nat) (v : Bool) (t o : Nat) : Dev :=
  let x := d.place q
  let m : Marker := { thread := x.thread, entry := q, firing := x.firing, after := x.toward.map (·.1), delivered := false, at_ := d.cycle }
  (d.setPlace q { x with next := some (v, t, o), since := d.cycle, ended := false, held := [] }).setCore fun s =>
    { s with markers := s.markers ++ [m] }

/-- A restored saggar's entry: a hold in progress ends in the bump, and its frames follow the entry as it was restored
(R231). -/
def endRestored (d : Dev) (q : Nat) : Dev :=
  let x := d.place q
  if x.next.isNone then d.bumpOwner (.place q)
  else (d.setPlace q { x with next := some (x.valid, x.thread, x.owner) }).endHold q false

/-- A frame that classification placed under entry `q` (R224): it goes toward the entry's thread, or from the cycle after
the acceptance of a change it waits in the hold, whose 4,096th frame ends it. While a bump of an entry that does not move is pending,
it issues nothing, and what is placed waits in the hold too (R36). One placed in the cycle of acceptance stands
before the drain marker. -/
def placeFrame (d : Dev) (q i : Nat) : Dev :=
  let x := d.place q
  let d := (d.modFrame i fun f => { f with stage := .placed, placement := some (q, x.firing) }).mark (.placed i)
  let d := if x.next.isSome ∧ x.since = d.cycle then
      d.setCore fun s => { s with markers := s.markers.map fun m =>
        if m.entry = q ∧ m.delivered = false then { m with after := m.after ++ [i] } else m }
    else d
  if x.next.isSome ∧ x.since < d.cycle then
    let d := d.setPlace q { x with held := x.held ++ [i] }
    if 4096 ≤ x.held.length + 1 then d.endHold q true else d
  else if x.pending ∧ x.next.isNone then d.setPlace q { x with held := x.held ++ [i] }
  else d.modPlace q fun x => { x with toward := x.toward ++ [(i, x.thread)] }

/-! ### The return port (R227, R228) -/

/-- The saggar that an OWNER field stands for: none while that saggar is FREE (R366). -/
def ownerSag (d : Dev) (o : Nat) : Option Nat := if d.get (SAG_STATUS_STATE o) = 0 then none else some o

/-- A returned frame (R227). -/
def returnFrame (d : Dev) (t : Nat) (h v : Nat) : Dev :=
  match d.core.given.find? fun g => g.thread == t && g.cell == bitsOf h 0 20 with
  | none => d.stat statBadHandle 1
  | some g =>
    let d := d.setCore fun s => { s with given := s.given.filter (· != g) }
    match d.frame? g.frame with
    | none => d
    | some f =>
      let stale : Option Nat := match g.place with
        | some (q, _) => if (d.place q).firing ≠ bitsOf h 40 24 then some q else none
        | none => none
      match stale with
      | some q => (d.lateDiscard (.place q)).freeFrame g.frame
      | none =>
        let returned := fun (d : Dev) => match g.place with
          | some (q, _) => d.modPlace q fun x => { x with returned := satAdd 64 x.returned 1 }
          | none => d
        let len := if bitsOf v 37 14 = 0 then f.len else bitsOf v 37 14
        let q := bitsOf v 0 16
        let setQ := bitOf v 51
        if bitOf v 63 then (returned d).freeFrame g.frame
        else if len < 64 ∨ g.cells * 256 - 64 < len then (d.stat statBadLen 1).freeFrame g.frame
        else if setQ && (match g.place with
            | some (e, _) => d.queueSag q != d.ownerSag (d.place e).owner
            | none => false) then (d.stat statDenied 1).freeFrame g.frame
        else
          let a := f.act.getD ⟨0, 0, .green, none⟩
          let a := { a with
            queue := if setQ then q else a.queue
            cls := if bitOf v 58 then bitsOf v 55 3 else a.cls
            colour := if bitOf v 54 then Colour.ofCode (bitsOf v 52 2) else a.colour }
          let body := sliceB g.data 64 (len - 4)
          (returned d).setFrame g.frame { f with
            bytes := withFcs false body, stage := .meter, act := some a, placement := none, ended := true,
            malformed := false, cutThrough := some false }

/-- A returned drain marker (R230, R231): one that the thread was given, of the current number while the hold runs, ends
the hold; any other is discarded. -/
def returnMarker (d : Dev) (t h : Nat) : Dev :=
  let q := bitsOf h 0 20
  match d.core.markers.find? fun m => m.delivered && m.thread == t && m.entry == q && m.firing == bitsOf h 40 24 with
  | none => d.stat statBadHandle 1
  | some m =>
    let d := d.setCore fun s => { s with markers := s.markers.filter (· != m) }
    let x := d.place q
    if x.firing = m.firing ∧ x.next.isSome = true ∧ x.ended = false then d.endHold q false
    else d.lateDiscard (.place q)

end Dev

/-! ### Channel events -/

/-- Whether the crossing between a thread's kiln and the mesh is severed (R425, R426). -/
def Dev.quadCut (d : Dev) (t : Nat) : Bool := !Dev.isMgmt t && d.kilnCut (Dev.kilnOf t)

/-- CHANNEL_MESSAGE_LEAVE (R217, R219): the head of the send FIFO leaves if the channel holds credit. One that leaves its kiln
does so in its core's slot of the kiln port, after what has waited longer there (R208, R209); while its kiln's bump is pending (R36)
or its quadrant's crossing is severed (R425) it is held. It leaves before a CHSENDNB of its cycle looks at the FIFO (R219). -/
def doChannelMessageLeave (c : Fin 8192) (d : Dev) : Dev :=
  match d.channel c with
  | none => d
  | some x =>
    match d.txFifo x.srcT x.srcEp with
    | [] => d
    | m :: q =>
      let d := d.before (.sendFull x.srcT x.srcEp)
      let out := d.leavesKiln x.srcT x.dstT
      if x.credits = 0 ∨ (out.isSome = true ∧ d.kilnMute (Dev.kilnOf x.srcT) = true) ∨ (out.isSome = true ∧ d.portFor (Dev.coreOf x.srcT) (x.since.getD d.cycle) = false) then d
      else
        let fl : Flight := { msg := m, kiln := out, at_ := d.cycle }
        let d := if out.isSome then d.portSent (Dev.coreOf x.srcT) else d
        let d := (d.setTx x.srcT x.srcEp q).setChannel c
          (some { x with credits := x.credits - 1, msgs := x.msgs ++ [fl], since := none })
        d.serveSend c

/-- CHANNEL_MESSAGE_ARRIVE (R218, R219): the oldest message in flight arrives; one whose kiln's number is stale is
discarded at the kiln-port router (R38, R39), and the router holds what is sent to a kiln under a spare procedure (R472), or to a
quadrant whose crossing is severed (R425). One that enters a kiln does so in its core's slot of the kiln port (R208), and before a
CHRECVNB of its cycle looks at the FIFO (R219). -/
def doChannelMessageArrive (c : Fin 8192) (d : Dev) : Dev :=
  match d.channel c with
  | none => d
  | some x =>
    match x.msgs with
    | [] => d
    | m :: ms =>
      if (Dev.isMgmt x.dstT = false ∧ d.kilnHeld (Dev.kilnOf x.dstT)) ∨ (m.kiln.isSome = true ∧ d.quadCut x.dstT = true) then d
      else
        let d := d.before (.recvEmpty x.dstT x.dstEp)
        match m.kiln.filter fun (k, n) => d.firing (.kiln k) != n with
        | some (k, _) => (d.setChannel c (some { x with msgs := ms })).lateDiscard (.kiln k)
        | none =>
          let core := Dev.coreOf x.dstT
          let enters := !Dev.isMgmt x.dstT && (Dev.isMgmt x.srcT || Dev.kilnOf x.srcT != Dev.kilnOf x.dstT)
          if enters && !(d.portSlot core && decide ((d.coreSt core).portIn ≤ d.cycle)) then d
          else
            let d := if enters then d.setCoreSt core { d.coreSt core with portIn := d.cycle + 1 } else d
            ((d.setChannel c (some { x with msgs := ms })).setRx x.dstT x.dstEp (d.rxFifo x.dstT x.dstEp ++ [m.msg])).serveRecv c

/-- CREDIT_ARRIVE (R217): one toward a kiln that has bumped since is discarded (R38, R475), and one toward a kiln whose crossing is
severed waits (R425). -/
def doCreditArrive (c : Fin 8192) (d : Dev) : Dev :=
  match d.channel c with
  | none => d
  | some x =>
    match x.creds with
    | [] => d
    | m :: cs =>
      if m.kiln.any fun (k, _) => d.kilnCut k then d
      else match m.kiln.filter fun (k, n) => d.firing (.kiln k) != n with
      | some (k, _) => (d.setChannel c (some { x with creds := cs })).lateDiscard (.kiln k)
      | none => d.setChannel c (some { x with creds := cs, credits := x.credits + 1 })

/-! ### Core commands (R221) -/

def csOk : Nat := 0x00
def csExists : Nat := 0x01
def csBadIndex : Nat := 0x06
def csDenied : Nat := 0x07
def csBadOpcode : Nat := 0x08
def csNotReady : Nat := 0x0A
def csBadEntry : Nat := 0x0B
def csEpBusy : Nat := 0x0C
def csNotEmpty : Nat := 0x0D
def csMoving : Nat := 0x0E

namespace Dev

/-- Writes the answer of a core command: BODY where it returns one, and bytes 96–127 (R221). -/
def coreAnswer (d : Dev) (j : Job) (status : Nat) (body : List Byte) : Dev :=
  let tail := BitVec.ofNat 8 status :: List.replicate 31 0#8
  d.finishBlock j ((if body.isEmpty then [] else [(16, body)]) ++ [(96, tail)]) status

/-- A placement command is answered: at once, or after the bump that the entry waits for (R36). -/
def placeAnswer (d : Dev) (q : Nat) (j : Job) (status : Nat) : Dev :=
  if status = csOk ∧ (d.place q).ended = true then d.modPlace q fun x => { x with waits := x.waits ++ [j] }
  else d.coreAnswer j status []

/-- The commands that waited for an entry's bump are answered. -/
def answerPlace (d : Dev) (q : Nat) : Dev :=
  (d.place q).waits.foldl (fun d j => d.coreAnswer j csOk []) (d.modPlace q fun x => { x with waits := [] })

/-- A channel entry as returned (R222). -/
def channelBytes (d : Dev) (c : Option Channel) : List Byte :=
  match c with
  | none => List.replicate 16 0#8
  | some x =>
    leBytes 4 (2 ^ 31 + b2n x.closed * 2 ^ 30 + x.srcT * 2 ^ 16 + x.srcEp) ++ leBytes 4 (x.dstT * 2 ^ 16 + x.dstEp) ++
      leBytes 4 x.owner ++
      leBytes 4 ((d.rxFifo x.dstT x.dstEp).length * 2 ^ 12 + (d.txFifo x.srcT x.srcEp).length * 2 ^ 8 + x.credits)

/-- A placement entry as returned (R232). -/
def placeBytes (x : Place) : List Byte :=
  leBytes 4 (b2n x.valid * 2 ^ 31 + b2n (x.valid && x.next.isSome) * 2 ^ 30 + x.thread) ++ leBytes 4 x.owner ++ leBytes 4 x.firing ++
    leBytes 4 x.held.length ++ leBytes 8 x.placed ++ leBytes 8 x.returned ++ leBytes 4 x.late ++ leBytes 4 x.holdLimit

/-- Unbinds a channel: its FIFOs are emptied, what they held is counted, and a thread blocked on an endpoint takes the
exception (R223, R216). -/
def unbindNow (d : Dev) (c : Nat) (x : Channel) : Dev :=
  let n := (d.txFifo x.srcT x.srcEp).length + (d.rxFifo x.dstT x.dstEp).length
  let d := ((d.setTx x.srcT x.srcEp []).setRx x.dstT x.dstEp []).setChannel c none
  let d := if n = 0 then d else d.stat statForce n
  match (d.thread x.dstT).wait with
  | .recv ep _ _ => if ep = x.dstEp then d.unboundTrap x.dstT (4 + ep) else d
  | _ => d

/-- Whether bytes of a block that R221 gives as zero, or bits of BODY, are set. `used` masks FLAGS. -/
def coreReserved (b : List Byte) (used : Nat) : Bool :=
  (fieldLE b 1 1 &&& (255 - used)) != 0 || fieldLE b 2 2 != 0 || fieldLE b 8 8 != 0

/-- CHAN_BIND (R222): status, and the device after it. -/
def chanBind (d : Dev) (i : Nat) (b : List Byte) : Nat × Dev :=
  let w0 := fieldLE b 16 4
  let w1 := fieldLE b 20 4
  let w2 := fieldLE b 24 4
  let src := bitsOf w0 16 11
  let dst := bitsOf w1 16 11
  let w3 := fieldLE b 28 4
  if bitsOf w3 16 16 != 0 || bitsOf w3 4 4 != 0 || bitsOf w0 27 3 != 0 || bitsOf w0 2 14 != 0 || bitsOf w1 27 5 != 0 || bitsOf w1 2 14 != 0 ||
      bitsOf w2 11 21 != 0 || decide (1025 < src) || decide (1025 < dst) then (csBadEntry, d)
  else if !d.released src || !d.released dst then (csNotReady, d)
  else if (d.channel i).isSome then (csExists, d)
  else if (d.txChan src (bitsOf w0 0 2)).isSome || (d.rxChan dst (bitsOf w1 0 2)).isSome then (csEpBusy, d)
  else
    let x : Channel := { closed := false, srcT := src, srcEp := bitsOf w0 0 2, dstT := dst, dstEp := bitsOf w1 0 2,
                         owner := bitsOf w2 0 11, credits := 8, msgs := [], creds := [], unbind := [], since := none }
    (csOk, ((d.setChannel i (some x)).setTx src x.srcEp []).setRx dst x.dstEp [])

/-- PLACE_SET, and PLACE_CLEAR as a change to an invalid entry (R230). An entry that is not valid changes with its bump: while
R36 holds that, it stays as it was. -/
def placeChange (d : Dev) (q : Nat) (v : Bool) (t o : Nat) : Nat × Dev :=
  let x := d.place q
  if x.next.isSome then (csMoving, d)
  else if !x.valid then
    if v then
      let d := (d.setPlace q { x with next := some (true, t, o), since := d.cycle, ended := true }).bumpOwner (.place q)
      (csOk, if d.bumpPending (.place q) then d else d.finishMove q)
    else (csOk, d)
  else if v ∧ x.thread = t ∧ x.owner = o then (csOk, d)
  else (csOk, d.startMove q v t o)

/-- PLACE_SET (R232): the entry that BODY gives. -/
def placeSet (d : Dev) (q : Nat) (b : List Byte) : Nat × Dev :=
  let w0 := fieldLE b 16 4
  let w1 := fieldLE b 20 4
  if bitsOf w0 10 20 != 0 || bitsOf w1 11 21 != 0 || bitsOf (fieldLE b 24 4) 24 8 != 0 ||
      bitsOf (fieldLE b 28 4) 13 19 != 0 then (csBadEntry, d)
  else if bitOf w0 31 && !d.released (bitsOf w0 0 10) then (csNotReady, d)
  else d.placeChange q (bitOf w0 31) (bitsOf w0 0 10) (bitsOf w1 0 11)

end Dev

/-- Whether a command of channel `g` still waits: for a channel's messages (R223), or for a held bump (R36). Later commands of
the channel take effect after it (R221). -/
def Dev.coreWaits (d : Dev) (g : Nat) : Bool :=
  (d.core.chans.any fun kv => match kv.2 with | some x => x.unbind.any fun u => u.2.chan == g | none => false) ||
  d.core.places.any fun kv => kv.2.waits.any fun j => j.chan == g

/-- Takes the oldest core command block of a channel, if it holds the opcode: a block from a tenant's channel is answered
DENIED, one with a bit set that R221 reserves, but for the FLAGS in `used`, BAD_ENTRY, and one whose INDEX is not below `limit`
BAD_INDEX. -/
def doCoreCmd (op used limit : Nat) (g : Nat) (f : Job → Nat → Dev → Dev) (d : Dev) : Dev :=
  match d.core.jobs.find? (·.chan == g) with
  | none => d
  | some j =>
    if fieldLE j.block 0 1 ≠ op ∨ d.coreWaits g = true then d
    else
      let d := d.setCore fun s => { s with jobs := s.jobs.filter (· != j) }
      let i := fieldLE j.block 4 4
      if j.owner.isSome then d.coreAnswer j csDenied []
      else if Dev.coreReserved j.block used then d.coreAnswer j csBadEntry []
      else if limit ≤ i then d.coreAnswer j csBadIndex []
      else f j i d

/-- CHAN_BIND (R222). -/
def doChanBind (g : Fin 4096) (d : Dev) : Dev :=
  doCoreCmd 0x40 0 8192 g (fun j i d => let r := d.chanBind i j.block; r.2.coreAnswer j r.1 []) d

/-- CHAN_UNBIND (R223): the send side closes; a thread blocked in a send takes the exception. The answer comes with
CHAN_UNBIND_COMPLETE. -/
def doChanUnbind (g : Fin 4096) (d : Dev) : Dev :=
  doCoreCmd 0x41 1 8192 g (fun j i d =>
    match d.channel i with
      | none => d.coreAnswer j csOk []
      | some x =>
        let d := d.setChannel i (some { x with closed := true, unbind := x.unbind ++ [(bitOf (fieldLE j.block 1 1) 0, j)] })
        match (d.thread x.srcT).wait with
        | .send ep _ _ => if ep = x.srcEp then d.unboundTrap x.srcT ep else d
        | _ => d) d

/-- CHAN_UNBIND_COMPLETE (R223): nothing of the channel is in flight, so each waiting unbind is answered. -/
def doChanUnbindComplete (c : Fin 8192) (d : Dev) : Dev :=
  match d.channel c with
  | none => d
  | some x =>
    if x.msgs.isEmpty && x.creds.isEmpty then
      x.unbind.foldl (fun d u =>
        match d.channel c with
        | none => d.coreAnswer u.2 csOk []
        | some y =>
          let empty := (d.txFifo y.srcT y.srcEp).isEmpty && (d.rxFifo y.dstT y.dstEp).isEmpty
          if empty || u.1 then (d.unbindNow c y).coreAnswer u.2 csOk [] else d.coreAnswer u.2 csNotEmpty [])
        (d.setChannel c (some { x with unbind := [] }))
    else d

/-- CHAN_READ (R222). -/
def doChanRead (g : Fin 4096) (d : Dev) : Dev :=
  doCoreCmd 0x42 0 8192 g (fun j i d => d.coreAnswer j csOk (d.channelBytes (d.channel i))) d

/-- PLACE_SET (R230). -/
def doPlaceSet (g : Fin 4096) (d : Dev) : Dev :=
  doCoreCmd 0x50 0 65536 g (fun j i d => let r := d.placeSet i j.block; r.2.placeAnswer i j r.1) d

/-- PLACE_CLEAR (R230). -/
def doPlaceClear (g : Fin 4096) (d : Dev) : Dev :=
  doCoreCmd 0x51 0 65536 g (fun j i d => let r := d.placeChange i false 0 0; r.2.placeAnswer i j r.1) d

/-- PLACE_READ (R232). -/
def doPlaceRead (g : Fin 4096) (d : Dev) : Dev :=
  doCoreCmd 0x52 0 65536 g (fun j i d => d.coreAnswer j csOk (Dev.placeBytes (d.place i))) d

/-- PLACE_CLEAR_CNT: the entry's counters PLACED, RETURNED, LATE_DISCARD and HOLD_LIMIT (R221). -/
def doPlaceClearCnt (g : Fin 4096) (d : Dev) : Dev :=
  doCoreCmd 0x53 0 65536 g (fun j i d =>
    (d.modPlace i fun x => { x with placed := 0, returned := 0, late := 0, holdLimit := 0 }).coreAnswer j csOk []) d

/-- CORE_STATS (R233): INDEX is not used. -/
def doCoreStats (g : Fin 4096) (d : Dev) : Dev :=
  doCoreCmd 0x60 0 (2 ^ 32) g (fun j _ d =>
    d.coreAnswer j csOk ((List.range 7).flatMap fun i => leBytes 8 (tabGet (fun _ => 0) d.core.stats i))) d

/-- CORE_STATS_CLEAR (R233). -/
def doCoreStatsClear (g : Fin 4096) (d : Dev) : Dev :=
  doCoreCmd 0x61 0 (2 ^ 32) g (fun j _ d => (d.setCore fun s => { s with stats := [] }).coreAnswer j csOk []) d

/-! ### Placement events -/

/-- PLACEMENT_DELIVERY (R225): the first frame of entry `q` that has ended goes to its thread's inbox; while the entry's bump is
pending nothing is issued (R36). -/
def doPlacementDelivery (q : Fin 65536) (d : Dev) : Dev :=
  let x := d.place q
  let live := x.toward.filter fun p => d.stillPlaced p.1
  match live.findSome? fun p => match d.frame? p.1 with
      | some f => if f.ended && !x.pending then some (p.1, p.2, f) else none
      | none => none with
  | none => d.setPlace q { x with toward := live }
  | some (i, t, f) =>
    ((d.setPlace q { x with toward := live.filter (·.1 != i) }).deliverTo t i f (some q)).servePkrecv t

/-- DRAIN_MARKER_DELIVERY (R230): once no earlier frame of the entry is on its way, the marker enters the old thread's
inbox, when that has room. The marker names its entry in CELL (notes/assumptions/28). -/
def doDrainMarkerDelivery (q : Fin 65536) (d : Dev) : Dev :=
  match d.core.markers.find? fun m => m.entry == q.val && !m.delivered with
  | none => d
  | some m =>
    -- frames placed in the cycle of acceptance stand before it
    if (decide ((d.place q).next.isSome) && decide (d.cycle ≤ (d.place q).since)) || (m.after.any fun i => d.stillPlaced i && (d.place q).toward.any (·.1 == i)) || decide (64 ≤ (d.thread m.thread).inbox.length) then d
    else
      let d := d.setCore fun s => { s with markers := s.markers.map fun x => if x = m then { x with delivered := true } else x }
      if d.released m.thread = false then d
      else
        let d := d.modThread m.thread fun x => { x with inbox := x.inbox ++ [Dev.mkHandle m.firing true false 0 q] }
        d.servePkrecv m.thread

/-- PACKET_RETURN (R227, R228): the oldest entry of thread `t`'s return queue reaches the return port. -/
def doPacketReturn (t : Fin 1026) (d : Dev) : Dev :=
  match (d.thread t).retq with
  | [] => d
  | (h, v) :: q =>
    let d := (d.modThread t fun x => { x with retq := q }).servePksend t
    if bitOf h.toNat 39 then d.returnMarker t h.toNat else d.returnFrame t h.toNat v.toNat

/-- MIGRATION_HOLD_TIMEOUT (R230): 1 ms after acceptance. -/
def doMigrationHoldTimeout (q : Fin 65536) (d : Dev) : Dev :=
  let x := d.place q
  if x.next.isSome = true ∧ x.ended = false ∧ x.since + 3000000 ≤ d.cycle then d.endHold q true else d

/-- PLACED_FRAME_ABANDON (R228, R41): the frame delivered to thread `t` at cell `c` 1 s ago and not returned. -/
def doPlacedFrameAbandon (t : Fin 1024) (c : Fin 786432) (d : Dev) : Dev :=
  match d.core.given.find? fun g => g.thread == t.val && g.cell == c.val with
  | none => d
  | some g =>
    if d.cycle < g.at_ + 3000000000 then d
    else ((d.setCore fun s => { s with given := s.given.filter (· != g) }).stat Dev.statAbandon 1).freeFrame g.frame

/-- PUNT_DELIVER (R228): the oldest frame of pipeline `k`'s punt queue, once it has ended and the target thread's inbox has
room. -/
def doPuntDeliver (k : Fin 8) (d : Dev) : Dev :=
  let live := fun i => match d.frame? i with | some f => f.stage == .punt | none => false
  match (d.cp k).punt.filter live with
  | [] => d.setCp k { d.cp k with punt := [] }
  | i :: q =>
    match d.frame? i with
    | none => d
    | some f =>
      let t := d.get (PL_PUNT_TARGET_THREAD k)
      if !f.ended || (d.released t && decide (64 ≤ (d.thread t).inbox.length)) then d
      else (((d.setCp k { d.cp k with punt := q }).setFrame i { f with stage := .placed }).deliverTo t i f none).servePkrecv t

end Sys2Proof.Machine
end

