-- ==== Sys2Proof/Machine/Hash.lean ====
section
/-!
DEFINITION. The hash functions of R259 and R260: SHA-2 (FIPS 180-4), SHA-3 (FIPS 202) and HMAC (RFC 2104).
-/

namespace Sys2Proof.Machine

/-- The SHA-512 round constants (FIPS 180-4), first half; SHA-256 takes the high 32 bits. -/
def shaK0 : List Nat :=
  [0x428A2F98D728AE22, 0x7137449123EF65CD, 0xB5C0FBCFEC4D3B2F, 0xE9B5DBA58189DBBC,
    0x3956C25BF348B538, 0x59F111F1B605D019, 0x923F82A4AF194F9B, 0xAB1C5ED5DA6D8118,
    0xD807AA98A3030242, 0x12835B0145706FBE, 0x243185BE4EE4B28C, 0x550C7DC3D5FFB4E2,
    0x72BE5D74F27B896F, 0x80DEB1FE3B1696B1, 0x9BDC06A725C71235, 0xC19BF174CF692694,
    0xE49B69C19EF14AD2, 0xEFBE4786384F25E3, 0x0FC19DC68B8CD5B5, 0x240CA1CC77AC9C65,
    0x2DE92C6F592B0275, 0x4A7484AA6EA6E483, 0x5CB0A9DCBD41FBD4, 0x76F988DA831153B5,
    0x983E5152EE66DFAB, 0xA831C66D2DB43210, 0xB00327C898FB213F, 0xBF597FC7BEEF0EE4,
    0xC6E00BF33DA88FC2, 0xD5A79147930AA725, 0x06CA6351E003826F, 0x142929670A0E6E70,
    0x27B70A8546D22FFC, 0x2E1B21385C26C926, 0x4D2C6DFC5AC42AED, 0x53380D139D95B3DF,
    0x650A73548BAF63DE, 0x766A0ABB3C77B2A8, 0x81C2C92E47EDAEE6, 0x92722C851482353B]

/-- The SHA-512 round constants, second half. -/
def shaK1 : List Nat :=
  [0xA2BFE8A14CF10364, 0xA81A664BBC423001, 0xC24B8B70D0F89791, 0xC76C51A30654BE30,
    0xD192E819D6EF5218, 0xD69906245565A910, 0xF40E35855771202A, 0x106AA07032BBD1B8,
    0x19A4C116B8D2D0C8, 0x1E376C085141AB53, 0x2748774CDF8EEB99, 0x34B0BCB5E19B48A8,
    0x391C0CB3C5C95A63, 0x4ED8AA4AE3418ACB, 0x5B9CCA4F7763E373, 0x682E6FF3D6B2B8A3,
    0x748F82EE5DEFB2FC, 0x78A5636F43172F60, 0x84C87814A1F0AB72, 0x8CC702081A6439EC,
    0x90BEFFFA23631E28, 0xA4506CEBDE82BDE9, 0xBEF9A3F7B2C67915, 0xC67178F2E372532B,
    0xCA273ECEEA26619C, 0xD186B8C721C0C207, 0xEADA7DD6CDE0EB1E, 0xF57D4F7FEE6ED178,
    0x06F067AA72176FBA, 0x0A637DC5A2C898A6, 0x113F9804BEF90DAE, 0x1B710B35131C471B,
    0x28DB77F523047D84, 0x32CAAB7B40C72493, 0x3C9EBE0A15C9BEBC, 0x431D67C49C100D4C,
    0x4CC5D4BECB3E42B6, 0x597F299CFC657E2A, 0x5FCB6FAB3AD6FAEC, 0x6C44198C4A475817]

/-- Initial hash value of SHA-512; SHA-256 takes the high 32 bits. -/
def shaIv512 : List Nat :=
  [0x6A09E667F3BCC908, 0xBB67AE8584CAA73B, 0x3C6EF372FE94F82B, 0xA54FF53A5F1D36F1,
    0x510E527FADE682D1, 0x9B05688C2B3E6C1F, 0x1F83D9ABFB41BD6B, 0x5BE0CD19137E2179]

/-- Initial hash value of SHA-384. -/
def shaIv384 : List Nat :=
  [0xCBBB9D5DC1059ED8, 0x629A292A367CD507, 0x9159015A3070DD17, 0x152FECD8F70E5939,
    0x67332667FFC00B31, 0x8EB44A8768581511, 0xDB0C2E0D64F98FA7, 0x47B5481DBEFA4FA4]

/-! ### SHA-2 on words of `w` bits (32 or 64) -/

/-- The rotation and shift amounts of SHA-2: Σ0, Σ1, σ0, σ1 (the last of σ0 and σ1 a shift), and the rounds. -/
structure Sha2 where
  w : Nat
  s0 : Nat × Nat × Nat
  s1 : Nat × Nat × Nat
  t0 : Nat × Nat × Nat
  t1 : Nat × Nat × Nat
  k : List Nat
  deriving DecidableEq, Repr

def sha256P : Sha2 := ⟨32, (2, 13, 22), (6, 11, 25), (7, 18, 3), (17, 19, 10), (shaK0 ++ shaK1.take 24).map (· / 2 ^ 32)⟩
def sha512P : Sha2 := ⟨64, (28, 34, 39), (14, 18, 41), (1, 8, 7), (19, 61, 6), shaK0 ++ shaK1⟩

def rotr (w n x : Nat) : Nat := x / 2 ^ n + x % 2 ^ n * 2 ^ (w - n)
def bigS (w : Nat) (r : Nat × Nat × Nat) (x : Nat) : Nat := rotr w r.1 x ^^^ rotr w r.2.1 x ^^^ rotr w r.2.2 x
def smallS (w : Nat) (r : Nat × Nat × Nat) (x : Nat) : Nat := rotr w r.1 x ^^^ rotr w r.2.1 x ^^^ (x / 2 ^ r.2.2)

/-- The message schedule: the last 16 words, newest first, extended by one. -/
def nextW (p : Sha2) (ws : List Nat) : Nat :=
  (smallS p.w p.t1 (ws.getD 1 0) + ws.getD 6 0 + smallS p.w p.t0 (ws.getD 14 0) + ws.getD 15 0) % 2 ^ p.w

/-- One round on the eight working variables. -/
def shaRound (p : Sha2) (k wt : Nat) : List Nat → List Nat
  | [a, b, c, d, e, f, g, h] =>
    let m := 2 ^ p.w
    let ch := (e &&& f) ^^^ ((m - 1 - e) &&& g)
    let maj := (a &&& b) ^^^ (a &&& c) ^^^ (b &&& c)
    let t1 := h + bigS p.w p.s1 e + ch + k + wt
    let t2 := bigS p.w p.s0 a + maj
    [(t1 + t2) % m, a, b, c, (d + t1) % m, e, f, g]
  | v => v

/-- The rounds: constants still to come, words of the block still to come, window of the last 16 words, variables. -/
def shaRounds (p : Sha2) : List Nat → List Nat → List Nat → List Nat → List Nat
  | [], _, _, v => v
  | k :: ks, w :: ws, win, v => shaRounds p ks ws (w :: win) (shaRound p k w v)
  | k :: ks, [], win, v =>
    let w := nextW p win
    shaRounds p ks [] (w :: win.take 15) (shaRound p k w v)

/-- Splits bytes into groups of `n` (fuel: the number of groups). -/
def groups {α : Type} (n : Nat) : Nat → List α → List (List α)
  | 0, _ => []
  | k + 1, bs => bs.take n :: groups n k (bs.drop n)

/-- The compression of one block. -/
def shaBlock (p : Sha2) (h : List Nat) (blk : List Byte) : List Nat :=
  let v := shaRounds p p.k ((groups (p.w / 8) 16 blk).map beNat) [] h
  (h.zip v).map fun (a, b) => (a + b) % 2 ^ p.w

/-- SHA-2 with an initial value, cut to `n` bytes. -/
def sha2 (p : Sha2) (iv : List Nat) (n : Nat) (bs : List Byte) : List Byte :=
  let b := 2 * p.w
  let lenB := p.w / 4
  let z := (b - (bs.length + 1 + lenB) % b) % b
  let m := bs ++ [0x80#8] ++ List.replicate z 0#8 ++ beBytes lenB (8 * bs.length)
  let h := (groups b (m.length / b) m).foldl (shaBlock p) iv
  (h.flatMap fun x => beBytes (p.w / 8) x).take n

def sha256 (bs : List Byte) : List Byte := sha2 sha256P (shaIv512.map (· / 2 ^ 32)) 32 bs
def sha384 (bs : List Byte) : List Byte := sha2 sha512P shaIv384 48 bs
def sha512 (bs : List Byte) : List Byte := sha2 sha512P shaIv512 64 bs

/-! ### SHA-3 -/

def rotl64 (n x : Nat) : Nat := if n % 64 = 0 then x else (x * 2 ^ (n % 64)) % 2 ^ 64 + x / 2 ^ (64 - n % 64)

/-- The first `n` output bits of the shift register that fills the round constants (FIPS 202, Algorithm 5), its eight bits in
`reg`. -/
def keccakLfsr : Nat → Nat → List Bool
  | 0, _ => []
  | n + 1, reg =>
    let twice := 2 * reg
    (reg % 2 == 1) :: keccakLfsr n (if 256 ≤ twice then twice ^^^ 0x171 else twice)

/-- The round constants (Algorithm 6): seven bits of the register to a round, bit `j` of the seven at place 2^j − 1. -/
def keccakRc (rounds : Nat) : List Nat :=
  let bits := keccakLfsr (7 * rounds) 1
  (List.range rounds).map fun r => ((List.range 7).map fun j => b2nBit (bits.getD (7 * r + j) false) * 2 ^ (2 ^ j - 1)).sum
where
  b2nBit : Bool → Nat
    | true => 1
    | false => 0

/-- The walk of ρ (Algorithm 2): after (0, 0), which does not turn, the lanes from (1, 0) on by (x, y) ↦ (y, 2x + 3y), each as its
place x + 5y, with its rotation. -/
def rhoWalk : Nat → Nat → Nat → Nat → List (Nat × Nat)
  | 0, _, _, _ => []
  | n + 1, t, x, y => (x + 5 * y, (t + 1) * (t + 2) / 2) :: rhoWalk n (t + 1) y ((2 * x + 3 * y) % 5)

/-- θ: each lane takes the parity of the column before it and of the column after it, turned by one. -/
def keccakTheta (a : List Nat) : List Nat :=
  let rows := groups 5 5 a
  let par := rows.foldl (fun p row => p.zipWith (· ^^^ ·) row) (List.replicate 5 0)
  let mix := (par.drop 4 ++ par.take 4).zipWith (fun l r => l ^^^ rotl64 1 r) (par.drop 1 ++ par.take 1)
  rows.flatMap fun row => row.zipWith (· ^^^ ·) mix

/-- ρ and π in one: the lane at (x, y), turned, goes to (y, 2x + 3y), which is the next stop of the walk. -/
def keccakRhoPi (a : List Nat) : List Nat :=
  let walk := rhoWalk 24 0 1 0
  let landed := walk.zipWith (fun from_ to_ => (to_.1, rotl64 from_.2 (a.getD from_.1 0))) (walk.drop 1 ++ walk.take 1)
  (List.range 25).map fun i => match landed.find? (·.1 == i) with | some l => l.2 | none => a.getD i 0

/-- χ, row by row: a lane turns where the next is 0 and the one after it 1. -/
def keccakChi (a : List Nat) : List Nat :=
  (groups 5 5 a).flatMap fun row =>
    let next := (row.drop 1 ++ row.take 1).zipWith (fun p q => (2 ^ 64 - 1 - p) &&& q) (row.drop 2 ++ row.take 2)
    row.zipWith (· ^^^ ·) next

/-- Keccak-f[1600] (FIPS 202) on 25 lanes: ι lays a round's constant into lane (0, 0). -/
def keccakF (a : List Nat) : List Nat :=
  (keccakRc 24).foldl (fun a rc => (keccakChi (keccakRhoPi (keccakTheta a))).modifyHead (· ^^^ rc)) a

/-- Absorbs blocks of `r` bytes. -/
def absorb (r : Nat) (a : List Nat) (blk : List Byte) : List Nat :=
  let ws := (groups 8 (r / 8) blk).map leNat
  keccakF ((List.range 25).map fun i => a.getD i 0 ^^^ ws.getD i 0)

/-- The sponge with domain bits `dom` and rate `r` bytes: `n` output bytes, fuel for the squeezes. -/
def sponge (r : Nat) (dom : Byte) (n : Nat) (bs : List Byte) : List Byte :=
  let z := r - bs.length % r
  let pad := if z = 1 then [dom ||| 0x80#8] else dom :: List.replicate (z - 2) 0#8 ++ [0x80#8]
  let m := bs ++ pad
  let a := (groups r (m.length / r) m).foldl (absorb r) (List.replicate 25 0)
  let out := fun a : List Nat => (a.flatMap fun x => leBytes 8 x).take r
  ((List.range (n / r + 1)).foldl (fun (acc : List Byte × List Nat) _ => (acc.1 ++ out acc.2, keccakF acc.2)) ([], a)).1.take n

def sha3 (bits : Nat) (bs : List Byte) : List Byte := sponge (200 - bits / 4) 0x06#8 (bits / 8) bs
def shake (bits n : Nat) (bs : List Byte) : List Byte := sponge (200 - bits / 4) 0x1F#8 n bs

/-! ### HMAC -/

def xorB (a b : List Byte) : List Byte := (a.zip b).map fun (x, y) => x ^^^ y

/-- HMAC over a hash with block size `b`. -/
def hmac (h : List Byte → List Byte) (b : Nat) (key bs : List Byte) : List Byte :=
  let k0 := if b < key.length then h key else key
  let k := k0 ++ List.replicate (b - k0.length) 0#8
  h (k.map (· ^^^ 0x5C#8) ++ h (k.map (· ^^^ 0x36#8) ++ bs))

end Sys2Proof.Machine
end

