-- ==== Sys2Proof/Machine/Ec.lean ====
section
/-!
DEFINITION. The elliptic curves and RSA of the public-key units (R288, R289, R303, R304): the NIST curves (FIPS 186-5),
X25519 (RFC 7748), Ed25519 (RFC 8032) and the RSA primitives (RFC 8017). Values are big-endian byte strings except
where the algorithm's standard defines the encoding.
-/

namespace Sys2Proof.Machine

/-- `b ^ e mod m`, over the `n` low bits of `e`, from the top. -/
def powBits (b m e : Nat) : Nat → Nat
  | 0 => 1 % m
  | n + 1 =>
    let r := powBits b m (e / 2) n
    if e % 2 = 1 then r * r % m * b % m else r * r % m

/-- `b ^ e mod m`. -/
def powMod (b e m : Nat) : Nat := powBits (b % m) m e (Nat.log2 e + 1)

/-- The inverse modulo a prime (0 for 0). -/
def invMod (a p : Nat) : Nat := powMod a (p - 2) p

/-- `a − b` modulo `p`, for `a, b < p`. -/
def subMod (a b p : Nat) : Nat := (a + p - b % p) % p

/-! ### The NIST curves: y² = x³ − 3x + b over the field of p elements, of prime order n -/

/-- A curve. -/
structure Curve where
  p : Nat
  b : Nat
  n : Nat
  gx : Nat
  gy : Nat
  /-- Bytes of a coordinate. -/
  len : Nat

/-- P-256 (FIPS 186-5). -/
def p256 : Curve :=
  { p := 0xffffffff00000001000000000000000000000000ffffffffffffffffffffffff
    b := 0x5ac635d8aa3a93e7b3ebbd55769886bc651d06b0cc53b0f63bce3c3e27d2604b
    n := 0xffffffff00000000ffffffffffffffffbce6faada7179e84f3b9cac2fc632551
    gx := 0x6b17d1f2e12c4247f8bce6e563a440f277037d812deb33a0f4a13945d898c296
    gy := 0x4fe342e2fe1a7f9b8ee7eb4a7c0f9e162bce33576b315ececbb6406837bf51f5
    len := 32 }

/-- P-384 (FIPS 186-5). -/
def p384 : Curve :=
  { p := 0xfffffffffffffffffffffffffffffffffffffffffffffffffffffffffffffffeffffffff0000000000000000ffffffff
    b := 0xb3312fa7e23ee7e4988e056be3f82d19181d9c6efe8141120314088f5013875ac656398d8a2ed19d2a85c8edd3ec2aef
    n := 0xffffffffffffffffffffffffffffffffffffffffffffffffc7634d81f4372ddf581a0db248b0a77aecec196accc52973
    gx := 0xaa87ca22be8b05378eb1c71ef320ad746e1d3b628ba79b9859f741e082542a385502f25dbf55296c3a545e3872760ab7
    gy := 0x3617de4a96262c6f5d9e98bf9292dc29f8f41dbd289a147ce9da3113b5f0b8c00a60b1ce1d7e819d7a431d7c90ea0e5f
    len := 48 }

/-- P-521 (FIPS 186-5). -/
def p521 : Curve :=
  { p := 0x1ffffffffffffffffffffffffffffffffffffffffffffffffffffffffffffffffffffffffffffffffffffffffffffffffffffffffffffffffffffffffffffffffff
    b := 0x51953eb9618e1c9a1f929a21a0b68540eea2da725b99b315f3b8b489918ef109e156193951ec7e937b1652c0bd3bb1bf073573df883d2c34f1ef451fd46b503f00
    n := 0x1fffffffffffffffffffffffffffffffffffffffffffffffffffffffffffffffffa51868783bf2f966b7fcc0148f709a5d03bb5c9b8899c47aebb6fb71e91386409
    gx := 0xc6858e06b70404e9cd9e3ecb662395b4429c648139053fb521f828af606b4d3dbaa14b5e77efe75928fe1dc127a2ffa8de3348b3c1856a429bf97e7e31c2e5bd66
    gy := 0x11839296a789a3bc0045c8a5fb42c7d1bd998f54449579b446817afbd17273e662c97ee72995ef42640c550b9013fad0761353c7086a272c24088be94769fd16650
    len := 66 }

/-- The curve of ALG 1–3. -/
def curveOf (alg : Nat) : Curve := if alg = 1 then p256 else if alg = 2 then p384 else p521

/-- Whether (x, y) satisfies the curve equation. -/
def Curve.on (c : Curve) (x y : Nat) : Bool := y * y % c.p == (x * x % c.p * x + (c.p - 3) * x + c.b) % c.p

/-- The sum of two points; none is the point at infinity. -/
def Curve.add (c : Curve) : Option (Nat × Nat) → Option (Nat × Nat) → Option (Nat × Nat)
  | none, q => q
  | q, none => q
  | some (x1, y1), some (x2, y2) =>
    let p := c.p
    if x1 = x2 ∧ (y1 + y2) % p = 0 then none
    else
      let l := if x1 = x2 then (3 * x1 * x1 + (p - 3)) * invMod (2 * y1) p % p
        else subMod y2 y1 p * invMod (subMod x2 x1 p) p % p
      let x3 := subMod (l * l % p) ((x1 + x2) % p) p
      some (x3, subMod (l * subMod x1 x3 p % p) y1 p)

/-- A multiple of a point, over the `n` low bits of the scalar. -/
def Curve.mulBits (c : Curve) (q : Option (Nat × Nat)) (k : Nat) : Nat → Option (Nat × Nat)
  | 0 => none
  | n + 1 =>
    let r := c.mulBits q (k / 2) n
    let r2 := c.add r r
    if k % 2 = 1 then c.add r2 q else r2

def Curve.mul (c : Curve) (k : Nat) (q : Option (Nat × Nat)) : Option (Nat × Nat) := c.mulBits q k (Nat.log2 k + 1)

def Curve.g (c : Curve) : Option (Nat × Nat) := some (c.gx, c.gy)

/-- A public point X ‖ Y (R289). -/
def Curve.encode (c : Curve) : Option (Nat × Nat) → List Byte
  | none => List.replicate (2 * c.len) 0#8
  | some (x, y) => beBytes c.len x ++ beBytes c.len y

/-- A digest as the integer e: its leftmost bits, as many as n has (FIPS 186-5). -/
def Curve.digest (c : Curve) (h : List Byte) : Nat :=
  let bits := Nat.log2 c.n + 1
  if 8 * h.length ≤ bits then beNat h else beNat h / 2 ^ (8 * h.length - bits)

/-- ECDSA with the value k: (r, s), or none where r or s is 0 (R299). -/
def Curve.ecdsa (c : Curve) (d k : Nat) (h : List Byte) : Option (Nat × Nat) :=
  match c.mul k c.g with
  | none => none
  | some (x, _) =>
    let r := x % c.n
    let s := invMod k c.n * ((c.digest h + r * d) % c.n) % c.n
    if r = 0 ∨ s = 0 then none else some (r, s)

/-- ECDSA verification of a checked key and signature. -/
def Curve.ecdsaOk (c : Curve) (q : Nat × Nat) (r s : Nat) (h : List Byte) : Bool :=
  let w := invMod s c.n
  match c.add (c.mul (c.digest h * w % c.n) c.g) (c.mul (r * w % c.n) (some q)) with
  | none => false
  | some (x, _) => x % c.n == r

/-! ### Curve25519 -/

/-- 2^255 − 19. -/
def p25519 : Nat := 2 ^ 255 - 19

/-- The order L of the base point. -/
def l25519 : Nat := 2 ^ 252 + 27742317777372353535851937790883648493

/-- One step of the ladder of RFC 7748: (x2, z2, x3, z3). -/
def ladderStep (x1 : Nat) (s : Nat × Nat × Nat × Nat) : Nat × Nat × Nat × Nat :=
  let p := p25519
  let (x2, z2, x3, z3) := s
  let a := (x2 + z2) % p
  let b := subMod x2 z2 p
  let aa := a * a % p
  let bb := b * b % p
  let e := subMod aa bb p
  let da := subMod x3 z3 p * a % p
  let cb := (x3 + z3) % p * b % p
  let t := subMod da cb p
  (aa * bb % p, e * ((aa + 121665 * e) % p) % p, (da + cb) * (da + cb) % p, x1 * (t * t % p) % p)

/-- The ladder over the `n` low bits of the scalar, from the top. -/
def ladder (x1 k : Nat) : Nat → Nat × Nat × Nat × Nat
  | 0 => (1, 0, x1, 1)
  | n + 1 =>
    let (x2, z2, x3, z3) := ladder x1 (k / 2) n
    if k % 2 = 1 then
      let (a, b, c, e) := ladderStep x1 (x3, z3, x2, z2)
      (c, e, a, b)
    else ladderStep x1 (x2, z2, x3, z3)

/-- A scalar of RFC 7748 and RFC 8032: clamped. -/
def clampScalar (bs : List Byte) : Nat := leNat bs % 2 ^ 254 / 8 * 8 + 2 ^ 254

/-- X25519 (RFC 7748). -/
def x25519 (scalar u : List Byte) : List Byte :=
  let x := leNat u % 2 ^ 255 % p25519
  let (x2, z2, _, _) := ladder x (clampScalar scalar) 255
  leBytes 32 (x2 * invMod z2 p25519 % p25519)

/-- The constant d of edwards25519. -/
def ed25519d : Nat := subMod 0 (121665 * invMod 121666 p25519 % p25519) p25519

/-- The sum of two points of edwards25519, in extended coordinates (X, Y, Z, T). -/
def edAdd (a b : Nat × Nat × Nat × Nat) : Nat × Nat × Nat × Nat :=
  let p := p25519
  let (x1, y1, z1, t1) := a
  let (x2, y2, z2, t2) := b
  let m := subMod y1 x1 p * subMod y2 x2 p % p
  let n := (y1 + x1) % p * ((y2 + x2) % p) % p
  let c := 2 * t1 * t2 % p * ed25519d % p
  let dd := 2 * z1 * z2 % p
  let e := subMod n m p
  let f := subMod dd c p
  let g := (dd + c) % p
  let h := (n + m) % p
  (e * f % p, g * h % p, f * g % p, e * h % p)

def edZero : Nat × Nat × Nat × Nat := (0, 1, 1, 0)

def edMulBits (q : Nat × Nat × Nat × Nat) (k : Nat) : Nat → Nat × Nat × Nat × Nat
  | 0 => edZero
  | n + 1 =>
    let r := edMulBits q (k / 2) n
    let r2 := edAdd r r
    if k % 2 = 1 then edAdd r2 q else r2

def edMul (k : Nat) (q : Nat × Nat × Nat × Nat) : Nat × Nat × Nat × Nat := edMulBits q k (Nat.log2 k + 1)

/-- The same point. -/
def edEq (a b : Nat × Nat × Nat × Nat) : Bool :=
  (a.1 * b.2.2.1) % p25519 == (b.1 * a.2.2.1) % p25519 && (a.2.1 * b.2.2.1) % p25519 == (b.2.1 * a.2.2.1) % p25519

/-- Recovers x from y and the sign bit (RFC 8032, 5.1.3). -/
def edRecover (y sign : Nat) : Option Nat :=
  let p := p25519
  let u := subMod (y * y % p) 1 p
  let v := (ed25519d * (y * y % p) + 1) % p
  let c := u * powMod v 3 p % p * powMod (u * powMod v 7 p % p) ((p - 5) / 8) p % p
  let x := if v * c % p * c % p = u then some c
    else if v * c % p * c % p = subMod 0 u p then some (c * powMod 2 ((p - 1) / 4) p % p) else none
  match x with
  | none => none
  | some x => if x = 0 ∧ sign = 1 then none else if x % 2 = sign then some x else some (p - x)

/-- An encoded point: y and the sign bit of x. -/
def edY (bs : List Byte) : Nat × Nat := (leNat bs % 2 ^ 255, leNat bs / 2 ^ 255)

def edPoint (x y : Nat) : Nat × Nat × Nat × Nat := (x, y, 1, x * y % p25519)

/-- The base point. -/
def edBase : Nat × Nat × Nat × Nat :=
  let y := 4 * invMod 5 p25519 % p25519
  edPoint ((edRecover y 0).getD 0) y

def edEncode (a : Nat × Nat × Nat × Nat) : List Byte :=
  let zi := invMod a.2.2.1 p25519
  leBytes 32 (a.2.1 * zi % p25519 + 2 ^ 255 * (a.1 * zi % p25519 % 2))

/-- Ed25519: the secret scalar and the prefix of a seed. -/
def edSecret (seed : List Byte) : Nat × List Byte := let h := sha512 seed; (clampScalar (h.take 32), h.drop 32)

def edPublic (seed : List Byte) : List Byte := edEncode (edMul (edSecret seed).1 edBase)

/-- Ed25519 signature R ‖ S. -/
def edSign (seed msg : List Byte) : List Byte :=
  let (a, pre) := edSecret seed
  let r := leNat (sha512 (pre ++ msg)) % l25519
  let rb := edEncode (edMul r edBase)
  let k := leNat (sha512 (rb ++ edPublic seed ++ msg)) % l25519
  rb ++ leBytes 32 ((r + k * a) % l25519)

/-- The cofactored equation of R304, for a checked key `a` and point `r`. -/
def edOk (pub sig msg : List Byte) (a r : Nat × Nat × Nat × Nat) : Bool :=
  let k := leNat (sha512 (sig.take 32 ++ pub ++ msg)) % l25519
  edEq (edMul 8 (edMul (leNat (sig.drop 32)) edBase)) (edMul 8 (edAdd r (edMul k a)))

/-! ### RSA -/

/-- An RSA private key of `k` bits from its material (R289). -/
structure RsaKey where
  e : Nat
  p : Nat
  q : Nat
  dp : Nat
  dq : Nat
  qinv : Nat

def rsaKey (k : Nat) (m : List Byte) : RsaKey :=
  let h := k / 16
  let f := fun i => beNat (sliceB m (8 + h * i) h)
  ⟨beNat (m.take 8), f 0, f 1, f 2, f 3, f 4⟩

/-- The checks of R291. -/
def RsaKey.ok (r : RsaKey) (k : Nat) : Bool :=
  let half := fun x => x % 2 == 1 && decide (2 ^ (k / 2 - 1) ≤ x) && decide (x < 2 ^ (k / 2))
  half r.p && half r.q && decide (2 ^ (k - 1) ≤ r.p * r.q) && r.qinv * r.q % r.p == 1 && r.e % 2 == 1 && decide (3 ≤ r.e)

/-- RSADP and RSASP1 by the CRT. -/
def RsaKey.priv (r : RsaKey) (c : Nat) : Nat :=
  let m1 := powMod c r.dp r.p
  let m2 := powMod c r.dq r.q
  m2 + (r.qinv * subMod m1 m2 r.p % r.p) * r.q

/-- The number of ones among the `n` low bits. -/
def popBits : Nat → Nat → Nat
  | 0, _ => 0
  | n + 1, x => x % 2 + popBits n (x / 2)

def popCount (x : Nat) : Nat := popBits (Nat.log2 x + 1) x

end Sys2Proof.Machine
end

