-- ==== Sys2Proof/Machine/Aes.lean ====
section
/-!
DEFINITION. The ciphers of R259 and R260: AES (FIPS 197) in CTR and CBC (SP 800-38A), CCM (SP 800-38C), GCM
(SP 800-38D) and XTS (IEEE 1619), AES key wrap (RFC 3394) and ChaCha20-Poly1305 (RFC 8439).
-/

namespace Sys2Proof.Machine

/-! ### AES -/

/-- Doubling in GF(2^8). -/
def xtime (b : Nat) : Nat := let x := 2 * b; if 256 ≤ x then (x ^^^ 0x11B) else x

/-- Multiplication in GF(2^8), by the bits of `b` from the lowest (fuel 8). -/
def gfMul : Nat → Nat → Nat → Nat
  | 0, _, _ => 0
  | n + 1, a, b => (if b % 2 = 1 then a else 0) ^^^ gfMul n (xtime a) (b / 2)

def gmul (a b : Nat) : Nat := gfMul 8 a b

/-- The inverse a^254 (0 for 0). -/
def ginv (a : Nat) : Nat :=
  let a2 := gmul a a
  let a4 := gmul a2 a2
  let a8 := gmul a4 a4
  let a16 := gmul a8 a8
  let a32 := gmul a16 a16
  let a64 := gmul a32 a32
  let a128 := gmul a64 a64
  gmul a128 (gmul a64 (gmul a32 (gmul a16 (gmul a8 (gmul a4 a2)))))

def rotl8 (n x : Nat) : Nat := (x * 2 ^ n) % 256 + x / 2 ^ (8 - n)

def sbox (x : Nat) : Nat :=
  let b := ginv x
  b ^^^ rotl8 1 b ^^^ rotl8 2 b ^^^ rotl8 3 b ^^^ rotl8 4 b ^^^ 0x63

def invSbox (x : Nat) : Nat := ginv (rotl8 1 x ^^^ rotl8 3 x ^^^ rotl8 6 x ^^^ 0x05)

def subB (bs : List Byte) : List Byte := bs.map fun b => BitVec.ofNat 8 (sbox b.toNat)

/-- The key schedule: words newest first, `n` more words to make; `nk` words in the key, `rcon` of the next round. -/
def expandKey (nk : Nat) : Nat → Nat → Nat → List (List Byte) → List (List Byte)
  | 0, _, _, ws => ws.reverse
  | n + 1, i, rcon, ws =>
    let t := ws.headD []
    let (t, rcon) :=
      if i % nk = 0 then
        let r := subB (t.drop 1 ++ t.take 1)
        (match r with
          | [] => []
          | b :: bs => (b ^^^ BitVec.ofNat 8 rcon) :: bs, xtime rcon)
      else if nk = 8 ∧ i % nk = 4 then (subB t, rcon)
      else (t, rcon)
    expandKey nk n (i + 1) rcon (xorB (ws.getD (nk - 1) []) t :: ws)

/-- The round keys of a key of 16, 24 or 32 bytes, 16 bytes each. -/
def roundKeys (key : List Byte) : List (List Byte) :=
  let nk := key.length / 4
  let nr := nk + 6
  let ws := expandKey nk (4 * (nr + 1) - nk) nk 1 (groups 4 nk key).reverse
  groups 16 (nr + 1) ws.flatten

/-- ShiftRows and its inverse, on the column-major state. -/
def shiftRows (s : List Byte) : List Byte := (List.range 16).map fun i => s.getD ((i + 4 * (i % 4)) % 16) 0#8
def invShiftRows (s : List Byte) : List Byte := (List.range 16).map fun i => s.getD ((i + 12 * (i % 4)) % 16) 0#8

/-- MixColumns with the coefficients of the first row. -/
def mixCols (c : List Nat) (s : List Byte) : List Byte :=
  (List.range 16).map fun i =>
    let col := 4 * (i / 4)
    BitVec.ofNat 8 ((List.range 4).foldl (fun x j => x ^^^ gmul (s.getD (col + j) 0#8).toNat (c.getD ((j + 4 - i % 4) % 4) 0)) 0)

/-- The rounds of encryption, round keys still to come. -/
def encRounds : List (List Byte) → List Byte → List Byte
  | [], s => s
  | [k], s => xorB (shiftRows (subB s)) k
  | k :: ks, s => encRounds ks (xorB (mixCols [2, 3, 1, 1] (shiftRows (subB s))) k)

/-- A block encrypted under round keys. -/
def encBlock (ks : List (List Byte)) (b : List Byte) : List Byte :=
  match ks with
  | [] => b
  | k :: ks => encRounds ks (xorB b k)

def invSubB (bs : List Byte) : List Byte := bs.map fun b => BitVec.ofNat 8 (invSbox b.toNat)

/-- The rounds of decryption, round keys from the last but one on. -/
def decRounds : List (List Byte) → List Byte → List Byte
  | [], s => s
  | [k], s => xorB (invSubB (invShiftRows s)) k
  | k :: ks, s => decRounds ks (mixCols [14, 11, 13, 9] (xorB (invSubB (invShiftRows s)) k))

/-- A block decrypted under round keys. -/
def decBlock (ks : List (List Byte)) (b : List Byte) : List Byte :=
  match ks.reverse with
  | [] => b
  | k :: ks => decRounds ks (xorB b k)

/-- The 16-byte blocks of a text, the last one short. -/
def blocks16 (bs : List Byte) : List (List Byte) := groups 16 (ceilDiv bs.length 16) bs

/-! ### CTR and CBC -/

/-- The counter block `n` steps on: its last 32 bits counted. -/
def ctrBlock (cb : List Byte) (n : Nat) : List Byte := cb.take 12 ++ beBytes 4 (beNat (cb.drop 12) + n)

/-- CTR from a counter block: encryption and decryption alike. -/
def aesCtr (ks : List (List Byte)) (cb bs : List Byte) : List Byte :=
  ((blocks16 bs).zipIdx).flatMap fun (b, i) => xorB b (encBlock ks (ctrBlock cb i))

def cbcEnc (ks : List (List Byte)) : List Byte → List (List Byte) → List Byte
  | _, [] => []
  | iv, b :: bs => let c := encBlock ks (xorB b iv); c ++ cbcEnc ks c bs

def cbcDec (ks : List (List Byte)) : List Byte → List (List Byte) → List Byte
  | _, [] => []
  | iv, c :: cs => xorB (decBlock ks c) iv ++ cbcDec ks c cs

/-! ### GCM -/

/-- Multiplication in GF(2^128) as GCM has it, on 128-bit numbers, bits of `x` from the highest (fuel 128). -/
def ghMul : Nat → Nat → Nat → Nat → Nat
  | 0, _, _, z => z
  | n + 1, x, v, z =>
    let z := if x / 2 ^ n % 2 = 1 then z ^^^ v else z
    ghMul n x (if v % 2 = 1 then v / 2 ^^^ 0xE1 * 2 ^ 120 else v / 2) z

/-- Bytes padded with zeros to whole blocks. -/
def pad16 (bs : List Byte) : List Byte := bs ++ List.replicate ((16 - bs.length % 16) % 16) 0#8

def ghash (h : Nat) (bs : List Byte) : Nat := (blocks16 bs).foldl (fun y b => ghMul 128 (y ^^^ beNat b) h 0) 0

/-- GCM's text and full tag: `enc` says whether `bs` is plaintext. -/
def aesGcm (key iv aad bs : List Byte) (enc : Bool) : List Byte × List Byte :=
  let ks := roundKeys key
  let h := beNat (encBlock ks (List.replicate 16 0#8))
  let j0 := iv ++ [0#8, 0#8, 0#8, 1#8]
  let out := aesCtr ks (ctrBlock j0 1) bs
  let c := if enc then out else bs
  let s := ghash h (pad16 aad ++ pad16 c ++ beBytes 8 (8 * aad.length) ++ beBytes 8 (8 * bs.length))
  (out, xorB (beBytes 16 s) (encBlock ks j0))

/-! ### CCM, with a 12-byte nonce -/

def ccmAad (aad : List Byte) : List Byte :=
  if aad.isEmpty then []
  else if aad.length < 0xFF00 then pad16 (beBytes 2 aad.length ++ aad)
  else pad16 ([0xFF#8, 0xFE#8] ++ beBytes 4 aad.length ++ aad)

/-- CCM's text and tag of `t` bytes. -/
def aesCcm (key nonce aad bs : List Byte) (t : Nat) (enc : Bool) : List Byte × List Byte :=
  let ks := roundKeys key
  let a0 := 2#8 :: nonce ++ [0#8, 0#8, 0#8]
  let out := aesCtr ks (ctrBlock a0 1) bs
  let p := if enc then bs else out
  let flags := (if aad.isEmpty then 0 else 64) + 8 * ((t - 2) / 2) + 2
  let b0 := BitVec.ofNat 8 flags :: nonce ++ beBytes 3 p.length
  let mac := (blocks16 (b0 ++ ccmAad aad ++ pad16 p)).foldl (fun x b => encBlock ks (xorB x b)) (List.replicate 16 0#8)
  (out, (xorB mac (encBlock ks a0)).take t)

/-! ### XTS -/

/-- The tweak times α. -/
def xtsNext (t : Nat) : Nat := if 2 ^ 127 ≤ t then ((2 * t) % 2 ^ 128) ^^^ 0x87 else 2 * t

/-- XTS over whole blocks from a tweak; the result and the tweak after them. -/
def xtsBlocks (f : List Byte → List Byte) : Nat → List (List Byte) → List Byte × Nat
  | t, [] => ([], t)
  | t, b :: bs =>
    let tb := leBytes 16 t
    let r := xtsBlocks f (xtsNext t) bs
    (xorB (f (xorB b tb)) tb ++ r.1, r.2)

/-- XTS with ciphertext stealing, of at least 16 bytes. -/
def aesXts (key tweak bs : List Byte) (enc : Bool) : List Byte :=
  let n := key.length / 2
  let k1 := roundKeys (key.take n)
  let f := if enc then encBlock k1 else decBlock k1
  let t0 := leNat (encBlock (roundKeys (key.drop n)) tweak)
  let m := bs.length / 16
  let r := bs.length % 16
  if r = 0 then (xtsBlocks f t0 (blocks16 bs)).1
  else
    let (head, t) := xtsBlocks f t0 (groups 16 (m - 1) bs)
    let last := (bs.drop (16 * (m - 1))).take 16
    let tail := bs.drop (16 * m)
    let one := fun (t : Nat) (b : List Byte) => (xtsBlocks f t [b]).1
    let (ta, tb) := if enc then (t, xtsNext t) else (xtsNext t, t)
    let cc := one ta last
    head ++ one tb (tail ++ cc.drop r) ++ cc.take r

/-! ### AES key wrap -/

def kwIv : List Byte := List.replicate 8 0xA6#8

/-- One pass of the wrap over the registers, `i` steps done: A and the registers. -/
def wrapPass (ks : List (List Byte)) : List (List Byte) → Nat → List Byte → List Byte × List (List Byte)
  | [], _, a => (a, [])
  | r :: rs, i, a =>
    let b := encBlock ks (a ++ r)
    let x := wrapPass ks rs (i + 1) (xorB (b.take 8) (beBytes 8 (i + 1)))
    (x.1, b.drop 8 :: x.2)

/-- AES key wrap of whole 8-byte units. -/
def keyWrap (key bs : List Byte) : List Byte :=
  let ks := roundKeys key
  let n := bs.length / 8
  let r := (List.range 6).foldl (fun (s : List Byte × List (List Byte)) j => wrapPass ks s.2 (n * j) s.1)
    (kwIv, groups 8 n bs)
  r.1 ++ r.2.flatten

/-- One pass of the unwrap, on the registers last first, at step `i`. -/
def unwrapPass (ks : List (List Byte)) : List (List Byte) → Nat → List Byte → List Byte × List (List Byte)
  | [], _, a => (a, [])
  | r :: rs, i, a =>
    let b := decBlock ks (xorB a (beBytes 8 i) ++ r)
    let x := unwrapPass ks rs (i - 1) (b.take 8)
    (x.1, b.drop 8 :: x.2)

/-- AES key unwrap: none if the integrity check fails. -/
def keyUnwrap (key bs : List Byte) : Option (List Byte) :=
  let ks := roundKeys key
  let n := bs.length / 8 - 1
  let r := (List.range 6).foldl (fun (s : List Byte × List (List Byte)) j => unwrapPass ks s.2 (n * (6 - j)) s.1)
    (bs.take 8, (groups 8 n (bs.drop 8)).reverse)
  if r.1 = kwIv then some r.2.reverse.flatten else none

/-! ### ChaCha20-Poly1305 -/

def rotl32 (n x : Nat) : Nat := (x * 2 ^ n) % 2 ^ 32 + x / 2 ^ (32 - n)

/-- The quarter round on the words a, b, c, d of a state. -/
def quarter (s : List Nat) (a b c d : Nat) : List Nat :=
  let g := fun i => s.getD i 0
  let m := fun x => x % 2 ^ 32
  let a1 := m (g a + g b)
  let d1 := rotl32 16 (g d ^^^ a1)
  let c1 := m (g c + d1)
  let b1 := rotl32 12 (g b ^^^ c1)
  let a2 := m (a1 + b1)
  let d2 := rotl32 8 (d1 ^^^ a2)
  let c2 := m (c1 + d2)
  let b2 := rotl32 7 (b1 ^^^ c2)
  (((s.set a a2).set b b2).set c c2).set d d2

def chachaDouble (s : List Nat) : List Nat :=
  let s := quarter (quarter (quarter (quarter s 0 4 8 12) 1 5 9 13) 2 6 10 14) 3 7 11 15
  quarter (quarter (quarter (quarter s 0 5 10 15) 1 6 11 12) 2 7 8 13) 3 4 9 14

/-- The key stream block number `n`. -/
def chachaBlock (key nonce : List Byte) (n : Nat) : List Byte :=
  let s := [0x61707865, 0x3320646E, 0x79622D32, 0x6B206574] ++ (groups 4 8 key).map leNat ++ [n % 2 ^ 32] ++
    (groups 4 3 nonce).map leNat
  let r := (List.range 10).foldl (fun x _ => chachaDouble x) s
  (s.zip r).flatMap fun (a, b) => leBytes 4 (a + b)

def chacha20 (key nonce : List Byte) (n : Nat) (bs : List Byte) : List Byte :=
  ((groups 64 (ceilDiv bs.length 64) bs).zipIdx).flatMap fun (b, i) => xorB b (chachaBlock key nonce (n + i))

def poly1305 (key bs : List Byte) : List Byte :=
  let r := leNat (key.take 16) &&& 0x0FFFFFFC0FFFFFFC0FFFFFFC0FFFFFFF
  let s := leNat (key.drop 16)
  let p := 2 ^ 130 - 5
  let a := (blocks16 bs).foldl (fun a b => (a + leNat b + 2 ^ (8 * b.length)) * r % p) 0
  leBytes 16 (a + s)

/-- The AEAD: text and tag. -/
def chachaPoly (key nonce aad bs : List Byte) (enc : Bool) : List Byte × List Byte :=
  let out := chacha20 key nonce 1 bs
  let c := if enc then out else bs
  (out, poly1305 ((chachaBlock key nonce 0).take 32)
    (pad16 aad ++ pad16 c ++ leBytes 8 aad.length ++ leBytes 8 c.length))

end Sys2Proof.Machine
end

