-- ==== Sys2Proof/Machine/GlzOps.lean ====
section
/-!
DEFINITION. The glaze engines: key contexts, the invocation counter, lookaside jobs, inline transforms and the inline
table (R259 to R286).
-/

namespace Sys2Proof.Machine

/-! ### Attributes (R264) -/

def KeyCtx.w0 (c : KeyCtx) : Nat := fieldLE c.attr 0 4
def KeyCtx.valid (c : KeyCtx) : Bool := bitOf c.w0 31
def KeyCtx.compat (c : KeyCtx) : Bool := bitOf c.w0 30
def KeyCtx.flagPolicy (c : KeyCtx) : Bool := bitOf c.w0 29
def KeyCtx.alg (c : KeyCtx) : Nat := bitsOf c.w0 24 5
def KeyCtx.useEnc (c : KeyCtx) : Bool := bitOf c.w0 23
def KeyCtx.useDec (c : KeyCtx) : Bool := bitOf c.w0 22
def KeyCtx.useInline (c : KeyCtx) : Bool := bitOf c.w0 21
def KeyCtx.useExport (c : KeyCtx) : Bool := bitOf c.w0 20
def KeyCtx.owner (c : KeyCtx) : Nat := bitsOf c.w0 0 11
def KeyCtx.fixed (c : KeyCtx) : Nat := fieldLE c.attr 4 4
def KeyCtx.counter (c : KeyCtx) : Nat := fieldLE c.attr 8 8
def KeyCtx.limit (c : KeyCtx) : Nat := fieldLE c.attr 16 8
def KeyCtx.warn (c : KeyCtx) : Nat := fieldLE c.attr 24 8
def KeyCtx.salt (c : KeyCtx) : List Byte := sliceB c.attr 32 12
def KeyCtx.setCounter (c : KeyCtx) (n : Nat) : KeyCtx := { c with attr := overlay c.attr 8 (leBytes 8 n) }

/-- Key bytes of an algorithm (R259); HMAC takes the 64 bytes, zero-padded as RFC 2104 pads. -/
def keyLen (alg : Nat) : Nat :=
  match alg with
  | 1 | 4 | 7 | 10 => 16
  | 2 | 5 | 8 | 11 => 24
  | 3 | 6 | 9 | 12 | 13 | 15 | 18 => 32
  | _ => 64
def KeyCtx.keyBytes (c : KeyCtx) : List Byte := c.key.take (keyLen c.alg)

/-- AES rounds of an algorithm (R259). -/
def roundsOf (alg : Nat) : Nat :=
  match alg with
  | 1 | 4 | 7 | 10 | 13 => 10
  | 2 | 5 | 8 | 11 => 12
  | _ => 14

def isGcm (a : Nat) : Bool := decide (1 ≤ a) && decide (a ≤ 3)
def isCtr (a : Nat) : Bool := decide (4 ≤ a) && decide (a ≤ 6)
def isCbc (a : Nat) : Bool := decide (7 ≤ a) && decide (a ≤ 9)
def isCcm (a : Nat) : Bool := decide (10 ≤ a) && decide (a ≤ 12)
def isXts (a : Nat) : Bool := a == 13 || a == 14
def isHmac (a : Nat) : Bool := a == 16 || a == 17
/-- Whether an algorithm carries a tag, and whether its encryption is an invocation (R270). -/
def isAead (a : Nat) : Bool := isGcm a || isCcm a || a == 15
def isInvocation (a : Nat) : Bool := isAead a || isCtr a

/-- Whether attributes break R259 or R264. SALT may be set only where MACsec XPN can use it (notes/assumptions/29). -/
def badAttr (attr : List Byte) : Bool :=
  let c : KeyCtx := ⟨attr, [], false, false⟩
  let a := c.alg
  bitsOf c.w0 11 9 != 0 || !(sliceB attr 44 20).all (· == 0#8) || a == 0 || decide (18 < a) ||
    (c.compat && !(a == 1 || a == 3 || a == 4 || a == 6 || a == 7 || a == 9 || isXts a)) ||
    (!c.salt.all (· == 0#8) && !((a == 1 || a == 3) && c.useInline))

/-- The 12-byte IV of a counter value (R269). -/
def KeyCtx.iv (c : KeyCtx) (n : Nat) : List Byte := xorB (beBytes 4 c.fixed ++ beBytes 8 n) c.salt

/-! ### Status values (R274) -/

def gzOk : Nat := 0x00
def gzDenied : Nat := 0x07
def gzBadOpcode : Nat := 0x08
def gzBadEntry : Nat := 0x0B
def gzAuthFail : Nat := 0x20
def gzExhausted : Nat := 0x21
def gzBadLen : Nat := 0x22
def gzBadKey : Nat := 0x23
def gzTimeout : Nat := 0x24

/-! ### Fields of a job block (R272) -/

def jbOp (b : List Byte) : Nat := fieldLE b 0 1
def jbHash (b : List Byte) : Nat := fieldLE b 1 1
def jbTagLen (b : List Byte) : Nat := fieldLE b 2 1
def jbKc (b : List Byte) : Nat := bitsOf (fieldLE b 4 4) 0 20
def jbLen (b : List Byte) : Nat := bitsOf (fieldLE b 8 4) 0 24
def jbKwk (b : List Byte) : Nat := bitsOf (fieldLE b 8 4) 0 20
def jbAadLen (b : List Byte) : Nat := fieldLE b 12 2
def jbIv (b : List Byte) : List Byte := sliceB b 16 16
def jbSrc (b : List Byte) : Nat := fieldLE b 32 8
def jbDst (b : List Byte) : Nat := fieldLE b 40 8
def jbAad (b : List Byte) : Nat := fieldLE b 48 8
def jbTag (b : List Byte) : Nat := fieldLE b 56 8

/-- The job block that stands for a COPY descriptor with KC_EN (R344). -/
def copyBlock (ds : List Byte) : List Byte :=
  let w0 := descWord ds 0
  let w3 := descWord ds 3
  [BitVec.ofNat 8 (1 + bitsOf w0 61 1), 0#8, 0#8, 0#8] ++ leBytes 4 (bitsOf w3 44 20) ++ leBytes 4 (bitsOf w0 32 24) ++
    leBytes 4 0 ++ leBytes 16 (bitsOf w3 0 44) ++ leBytes 8 (descWord ds 1) ++ leBytes 8 (descWord ds 2) ++
    List.replicate 80 0#8

/-- Whether two ranges of `n` bytes overlap without being equal. -/
def badOverlap (a b n : Nat) : Bool := a != b && decide (a < b + n) && decide (b < a + n)

/-- Digest length and block size of a HASH_ALG; none where unknown. -/
def digestLen : Nat → Option Nat
  | 1 => some 32 | 2 => some 48 | 3 => some 64 | 4 => some 32 | 5 => some 48 | 6 => some 64 | _ => none

def hashBy (alg : Nat) (bs : List Byte) : List Byte :=
  match alg with
  | 1 => sha256 bs | 2 => sha384 bs | 3 => sha512 bs | 4 => sha3 256 bs | 5 => sha3 384 bs | _ => sha3 512 bs

/-! ### Occupancy (R278) -/

def hashCycles (alg n : Nat) : Nat :=
  match alg with
  | 1 => 8 + 64 * ((n + 8) / 64 + 1)
  | 2 | 3 => 8 + 80 * ((n + 16) / 128 + 1)
  | 4 => 8 + 24 * (n / 136 + 1)
  | 5 => 8 + 24 * (n / 104 + 1)
  | _ => 8 + 24 * (n / 72 + 1)

/-- Cycles of a cipher job: algorithm, path, DATA_LEN, AAD_LEN. -/
def cipherCycles (alg : Nat) (compat : Bool) (dl al : Nat) : Nat :=
  let n := ceilDiv dl 16
  let a := ceilDiv al 16
  let a' := if al = 0 then 0 else ceilDiv (al + 2) 16
  let nr := roundsOf alg
  let b := if nr = 10 then 168 else 232
  if isGcm alg then (if compat then 64 + 128 * a + b * (n + 1) else 24 + a + nr * (n + 1))
  else if isCtr alg || isCbc alg then (if compat then 64 + b * n else 16 + nr * n)
  else if isXts alg then (if compat then 64 + b * (n + 1) else 16 + nr * (n + 1))
  else if isCcm alg then 24 + nr * (2 * n + a' + 1)
  else if alg = 15 then 24 + a + 20 * (ceilDiv dl 64 + 1)
  else if alg = 16 then hashCycles 1 (64 + dl) + hashCycles 1 (64 + 32)
  else hashCycles 2 (128 + dl) + hashCycles 2 (128 + 48)

def jobCycles (c : KeyCtx) (b : List Byte) : Nat :=
  if jbOp b = 3 then hashCycles (jbHash b) (jbLen b) else cipherCycles c.alg c.compat (jbLen b) (jbAadLen b)

/-- Whether the lengths of a block break R273, or SRC and DST overlap. -/
def badLens (c : KeyCtx) (b : List Byte) (copy : Bool) : Bool :=
  let a := c.alg
  let n := jbLen b
  let t := jbTagLen b
  let al := jbAadLen b
  match jbOp b with
  | 3 => al != 0 || t != 0
  | 4 => al != 0 || decide (t < 16) || decide ((if a = 16 then 32 else 48) < t)
  | op =>
    (op == 2 && !c.flagPolicy && decide (65536 < n)) ||
      (!copy && badOverlap (jbSrc b) (jbDst b) n) ||
      (if copy then isXts a && decide (n < 16)
       else if isGcm a then decide (t < 12) || decide (16 < t)
       else if isCcm a then decide (t < 4) || decide (16 < t) || t % 2 != 0
       else if a = 15 then t != 16
       else al != 0 || t != 0 || (isCbc a && n % 16 != 0) || (isXts a && decide (n < 16)))

/-! ### Keys from the device unique secret (R442) -/

/-- The KDF of SP 800-108 in counter mode with HMAC-SHA-384 and an empty context: `n` bytes of at most 96. -/
def kdf (secret label : List Byte) (n : Nat) : List Byte :=
  let blk := fun i => hmac sha384 128 secret (beBytes 4 i ++ label ++ [0#8] ++ beBytes 4 (8 * n))
  (blk 1 ++ blk 2).take n
/-- "HDM-STORAGE-1". -/
def labelStorage : List Byte := beBytes 13 0x48444D2D53544F524147452D31

namespace Dev

def setGlz (d : Dev) (f : GlzState → GlzState) : Dev := { d with glz := f d.glz }

/-- The device storage key (R265, R442), derived at each boot. -/
def storageKey (d : Dev) : List Byte := kdf d.boot.fuses.secret labelStorage 32

/-- Key context `i` in plain form: of one that only its slot in the HBM holds, the key is unwrapped (R265, R268). -/
def kctx (d : Dev) (i : Nat) : KeyCtx :=
  let c := tabGet (fun _ => .reset) d.glz.kc i
  if c.cached = false ∧ c.key.length = 72 then { c with key := (keyUnwrap d.storageKey c.key).getD [] } else c

/-- Writes key context `i`, given in plain form: outside the cache, the key is wrapped. -/
def setKctx (d : Dev) (i : Nat) (c : KeyCtx) : Dev :=
  let c := if c.cached = false ∧ c.valid = true then { c with key := keyWrap d.storageKey c.key } else c
  d.setGlz fun g => { g with kc := tabSet (fun _ => .reset) g.kc i c }
def glzEng (d : Dev) (e : Nat) : Option GlzRun := tabGet (fun _ => none) d.glz.engines e
def ixtEnt (d : Dev) (x : Nat) : Ixt := tabGet (fun _ => .reset) d.glz.ixt x
def setIxt (d : Dev) (x : Nat) (v : Ixt) : Dev := d.setGlz fun g => { g with ixt := tabSet (fun _ => .reset) g.ixt x v }

/-- An idle glaze engine whose SKIP bit is set leaves service, and its self-test begins (R464). -/
def glzLeave (d : Dev) (e : Nat) : Dev :=
  let out : Fld := ⟨RAS_GLZ_OUT (e / 32), e % 32, 1⟩
  if bitOf (d.get (RAS_GLZ_SKIP_SKIP (e / 32))) (e % 32) && !d.flag out then
    { d with ras := { d.ras with glzTest := tabSet (fun _ => none) d.ras.glzTest e (some d.cycle) } }.put out 1
  else d

/-- Sets an engine; GLZ_STATUS.BUSY follows. -/
def setGlzEng (d : Dev) (e : Nat) (r : Option GlzRun) : Dev :=
  let d := d.setGlz fun g => { g with engines := tabSet (fun _ => none) g.engines e r }
  let d := d.put GLZ_STATUS_BUSY d.glz.engines.length
  if r.isNone then d.glzLeave e else d

/-! ### Who may use a context (R267, R366) -/

/-- The saggar in whose key-context range a context lies. -/
def kcSag (d : Dev) (i : Nat) : Option Nat :=
  d.liveSags.find? fun s =>
    decide (d.get (SAG_KC_BASE_BASE s) ≤ i) && decide (i < d.get (SAG_KC_BASE_BASE s) + d.get (SAG_KC_COUNT_COUNT s))

/-- Whether an issuer (a saggar, or none for the manager) may use a context: it is the issuer's by its range, and inside a
saggar's range OWNER must name that saggar. -/
def kcUsable (d : Dev) (issuer : Option Nat) (i : Nat) : Bool :=
  let c := d.kctx i
  c.valid && d.kcSag i == issuer && (match issuer with | some s => c.owner == s | none => true)

/-- The issuer of a job: the saggar whose number it carries, else the owner of its channel (R267). -/
def issuerOf (j : Job) : Option Nat := match j.tagSag with | some s => some s | none => j.owner

/-- Writes a context in plain form; it is no longer cached state of the old one (R266). -/
def loadCtx (d : Dev) (i : Nat) (attr key : List Byte) : Dev := (d.setKctx i ⟨attr, key, false, false⟩).mark (.keyWrite i)

/-- A key-wrapping context's key: none where it is no valid KWK of the issuer. -/
def kwkKey (d : Dev) (issuer : Option Nat) (i : Nat) : Option (List Byte) :=
  if d.kcUsable issuer i && (d.kctx i).alg == 18 then some (d.kctx i).keyBytes else none

/-- A context as a blob under a KWK key (R265). -/
def blobOf (c : KeyCtx) (kwk : List Byte) : List Byte := keyWrap kwk (c.attr ++ c.key)

/-- An invalidated context: VALID = 0, the key material zeros (R266). -/
def invalidated (c : KeyCtx) : KeyCtx :=
  { KeyCtx.reset with attr := overlay c.attr 0 (leBytes 4 (c.w0 - (if bitOf c.w0 31 then 2 ^ 31 else 0))) }

/-! ### Reading what a job names -/

/-- `n` bytes at a Tearell address: from the HBM, or the bytes `host` that the host returned. -/
def fetchT (d : Dev) (a n : Nat) (host : List Byte) : List Byte :=
  if 2 ^ 63 ≤ a then d.hbmRead (a - 2 ^ 63) n else sliceB host 0 n

/-! ### Answers -/

/-- The job's block, a COPY's built from its descriptor. -/
def glzBlock (g : GlzJob) : List Byte := match g.copy with | some ds => copyBlock ds | none => g.job.block

/-- The jobs that the dispatcher starts: cipher and hash jobs. -/
def isCipherOp (op : Nat) : Bool := decide (1 ≤ op) && decide (op ≤ 4)

/-- The outcome counters of R286: of the statuses, a tag mismatch counts for jobs, not for key commands. -/
def glzCount (d : Dev) (op status : Nat) : Dev :=
  let d := d.inc (if status = 0 then GLZ_CNT_JOBS_OK else GLZ_CNT_JOBS_FAIL)
  if status = gzAuthFail ∧ isCipherOp op = true then d.inc GLZ_CNT_AUTH_FAIL
  else if status = gzExhausted then d.inc GLZ_CNT_KEY_EXHAUSTED else d

/-- Ends a COPY that passed through a glaze job: its outputs are written and its completion carries BYTES, or KEY_FAIL with
the glaze status (R344). -/
def finishCopy (d : Dev) (j : Job) (parts : List (Nat × List Byte)) (status : Nat) : Dev :=
  let o := tagOwner j.chan j.tagSag
  if d.firing o ≠ j.firing then d.lateDiscard o
  else
    let n := (parts.map fun p => p.2.length).sum
    (d.modChan j.chan fun c => { c with active := none }).answer j.chan j.idx parts
      (if status = 0 then ⟨false, 0, 0, n, 0⟩ else ⟨false, 7, status, 0, 0⟩)

/-- Answers a job: outputs to their addresses, then bytes 96–127 of the block (R272). -/
def glzAnswer (d : Dev) (g : GlzJob) (parts : List (Nat × List Byte)) (status rflags counter : Nat) (iv : List Byte) : Dev :=
  let d := (d.glzCount (jbOp (glzBlock g)) status).closeFeed g.job
  if let some x := g.job.sto then d.stoAnswer g.job x status (parts.flatMap (·.2))
  else if g.copy.isSome then d.finishCopy g.job parts status
  else
    let j := g.job
    let tail := [BitVec.ofNat 8 status, BitVec.ofNat 8 rflags] ++ List.replicate 6 0#8 ++ leBytes 8 counter ++
      sliceB iv 0 12 ++ List.replicate 4 0#8
    d.finishJob j parts [(96, tail)] status

/-- A job that names an address outside its channel's rights moves no byte (R334). -/
def glzDenied (d : Dev) (g : GlzJob) : Dev :=
  let j := g.job
  let o := tagOwner j.chan j.tagSag
  if d.firing o ≠ j.firing then d.lateDiscard o
  else
    (if g.copy.isSome then d.modChan j.chan fun c => { c with active := none } else d).answer j.chan j.idx [] ⟨false, 5, 0, 0, 0⟩

/-! ### The dispatcher (R261, R371) -/

/-- Whether an engine is in service (R464). -/
def glzInService (d : Dev) (e : Nat) : Bool :=
  !bitOf (d.get (RAS_GLZ_OUT_OUT (e / 32))) (e % 32) && !bitOf (d.get (RAS_GLZ_SKIP_SKIP (e / 32))) (e % 32)

/-- The lowest-numbered free engine of a pool that is in service. -/
def freeGlz (d : Dev) (inline_ : Bool) : Option Nat :=
  let n := d.get GLZ_POOL_INLINE_ENGINES
  (if inline_ then List.range n else (List.range (256 - n)).map (n + ·)).find? fun e =>
    d.glzInService e && (d.glzEng e).isNone

/-- Arbiter identity of a job: its issuer. -/
def glzOwner (g : GlzJob) : Option Nat := issuerOf g.job

/-- A COPY's tag length follows its algorithm (R344). -/
def withTag (c : KeyCtx) (g : GlzJob) (b : List Byte) : List Byte :=
  if g.copy.isSome && (isGcm c.alg || c.alg == 15) then overlay b 2 [16#8] else b

/-- 18 ms: the longest that a job waits at the dispatcher (R262). -/
def dispatch18 : Nat := 54000000

/-- Whether a waiting job may start: its channel is not pausing (R355). -/
def jobMay (d : Dev) (j : Job) : Bool := j.sto.isSome || !(d.chSt j.chan == chPausing || d.chSt j.chan == chPaused)

/-- The job that the arbiter serves next: the oldest of the owner it chooses. -/
def glzNext (d : Dev) : Option (GlzJob × Arb) × Dev :=
  let waiting := d.glz.jobs.filter fun g =>
    isCipherOp (jbOp (glzBlock g)) && decide (d.cycle < g.job.handed + dispatch18) && d.jobMay g.job
  let owners := (waiting.map glzOwner).dedup
  let heads := owners.filterMap fun o => (waiting.find? fun g => glzOwner g == o).map fun g => (o, g)
  let costOf := fun g : GlzJob => let b := glzBlock g; jobCycles (d.kctx (jbKc b)) b
  match arbChoose .glz (heads.map fun h => (h.1, costOf h.2)) [] d.glz.arb d with
  | (some (o, a), d') => ((heads.find? fun h => h.1 == o).map fun h => (h.2, a.served (kidOf o) (costOf h.2)), d')
  | (none, d') => (none, d')

/-- Where a job's data would be refused: the addresses it names (R334). -/
def glzAddrs (b : List Byte) (outLen : Nat) (tag : Nat) (dec : Bool) : List (Nat × Nat) :=
  (if jbLen b = 0 then [] else [(jbSrc b, jbLen b)]) ++ (if outLen = 0 then [] else [(jbDst b, outLen)]) ++
    (if jbAadLen b = 0 then [] else [(jbAad b, jbAadLen b)]) ++ (if tag = 0 then [] else [(jbTag b, tag)]) ++
    (if dec then [] else [])

/-- The use of an invocation value (R270): the value, or none where it is refused, and the context after it. A start that finds
COUNTER = 0 where packet number 0 is not used first sets it to 1. -/
def invoke (c : KeyCtx) (lim : Nat) (skip0 : Bool) : Option Nat × KeyCtx :=
  let c := if skip0 && c.counter == 0 then c.setCounter 1 else c
  if c.counter < Nat.min c.limit lim then (some c.counter, c.setCounter (c.counter + 1)) else (none, c)

/-- An invocation on context `i` under a limit of its use: the value, whether it left the margin within WARN, and the device. -/
def takeCounter (d : Dev) (i lim : Nat) (skip0 : Bool) : Option (Nat × Bool) × Dev :=
  let c := d.kctx i
  match invoke c lim skip0 with
  | (none, c') => (none, ((d.setKctx i c').setEvent GLZ_EVENT_EXHAUSTED).put GLZ_EVENT_KC_INDEX i)
  | (some n, c') =>
    let near := decide (Nat.min c'.limit lim - c'.counter ≤ c'.warn)
    let d := d.setKctx i { c' with near := c'.near || near }
    let d := if near && !c.near then (d.setEvent GLZ_EVENT_NEAR_LIMIT).put GLZ_EVENT_KC_INDEX i else d
    (some (n, near), d)

/-- An invocation on engine `e` comes before those of the same cycle on higher engines: where one has taken its value, it starts in the
next cycle (R271). -/
def turnInvoke (d : Dev) (i e : Nat) : Dev :=
  if d.marks.any fun m => match m with | .invoked y k => y == i && decide (e < k) | _ => false then d.tick else d

/-- What a job's start decides (R270, R273, R267): a refusal, or that it runs. -/
def glzCheck (d : Dev) (g : GlzJob) : Nat :=
  let b := withTag (d.kctx (jbKc (glzBlock g))) g (glzBlock g)
  let c := d.kctx (jbKc b)
  let op := jbOp b
  if !d.leftSetup GLZ_CTRL then gzBadKey
  else if op = 3 then
    (match digestLen (jbHash b) with
      | none => gzBadOpcode
      | some _ => if badLens c b false then gzBadLen else gzOk)
  else if !d.kcUsable (issuerOf g.job) (jbKc b) then gzBadKey
  else if (op = 4 && !(isHmac c.alg && c.useEnc)) || (op = 1 && !(decide (c.alg ≤ 15) && c.useEnc)) ||
      (op = 2 && !(decide (c.alg ≤ 15) && c.useDec)) then gzBadKey
  else if (match g.job.sto with | some ⟨_, .block _ _ _, _⟩ => !isXts c.alg | _ => false) then gzBadKey
  else if g.copy.isSome && !(isXts c.alg || (op == 1 && (isGcm c.alg || c.alg == 15 || isCtr c.alg))) then gzBadKey
  else if badLens c b g.copy.isSome then gzBadLen
  else gzOk

/-- The lookaside job that the arbiter serves next starts on the lowest-numbered free engine, if its opcode is `op`; a
refused job is answered at once. -/
def glzStart (d : Dev) (op : Nat) : Dev :=
  if d.leftSetup GLZ_CTRL && !d.flag GLZ_CTRL_ENABLE then d
  else match d.freeGlz false with
    | none => d
    | some e =>
      match d.glzNext with
      | (none, d) => d
      | (some (g, arb), d1) =>
        let i := jbKc (glzBlock g)
        let b := withTag (d.kctx i) g (glzBlock g)
        if jbOp b ≠ op then d
        else
          -- R271: with a key command in its cycle, the job would have used the old context: it starts in the next
          let d1 := d1.before (.keyWrite i)
          let d := d1.setGlz fun s => { s with jobs := s.jobs.filter (· != g), arb := arb }
          let st := d.glzCheck g
          if st ≠ gzOk then d.glzAnswer g [] st 0 0 []
          else
            let c := d.kctx i
            let a := c.alg
            let cost := jobCycles c b
            let outLen := if op = 3 ∨ op = 4 then 0
              else if g.copy.isSome = true then
                jbLen b + (if isGcm a || a == 15 then 28 else if isCtr a then 12 else 0)
              else jbLen b
            let tag := if op = 3 then (digestLen (jbHash b)).getD 0 else if g.copy.isSome then 0 else jbTagLen b
            if g.job.sto.isNone && (glzAddrs b outLen tag false).any fun r => !d.tAllowed g.job.chan r.1 r.2 then d.glzDenied g
            else
              let inv := op == 1 && isInvocation a
              let d := if inv then (d.turnInvoke i e).mark (.invoked i e) else d
              let r := if inv then d.takeCounter i (2 ^ 64) false else (some (0, false), d)
              match r.1 with
              | none => r.2.glzAnswer g [] gzExhausted 0 0 []
              | some (n, near) =>
                let d := (r.2.debitCost .glz (glzOwner g) cost).openFeed g.job
                  [(0, jbSrc b, jbLen b), (1, jbAad b, jbAadLen b), (2, jbTag b, if op = 2 ∧ g.copy.isNone then jbTagLen b else 0)] none
                let hit := op == 3 || c.cached
                let d := if hit then d else d.inc GLZ_CNT_KC_MISS
                d.setGlzEng e (some { work := .job g, ctx := c, ent := .reset, counter := if inv then some n else none,
                                      near := near, bad := none, started := d.cycle,
                                      due := if hit then some (d.cycle + cost) else none, cost := cost, wrote := 0, unt := false })

/-- What a started job computes: its outputs by address, status, and the IV used. -/
def glzResult (r : GlzRun) (g : GlzJob) (src aad tag : List Byte) : List (Nat × List Byte) × Nat × List Byte :=
  let c := r.ctx
  let a := c.alg
  let b := withTag c g (glzBlock g)
  let k := c.keyBytes
  let t := jbTagLen b
  let dst := jbDst b
  match jbOp b with
  | 3 => ([(jbTag b, hashBy (jbHash b) src)], gzOk, [])
  | 4 => ([(jbTag b, ((if a = 16 then hmac sha256 64 k src else hmac sha384 128 k src)).take t)], gzOk, [])
  | op =>
    let enc := op == 1
    let n := r.counter.getD 0
    let iv := if enc && isInvocation a then c.iv n else (jbIv b).take 12
    if isXts a then ([(dst, aesXts k (jbIv b) src enc)], gzOk, [])
    else if isCbc a then
      ([(dst, if enc then cbcEnc (roundKeys k) (jbIv b) (blocks16 src) else cbcDec (roundKeys k) (jbIv b) (blocks16 src))],
        gzOk, [])
    else if isCtr a then
      -- R269: the counter block is the IV of R269 followed by 1; decryption takes the IV from the job
      let out := aesCtr (roundKeys k) (iv ++ [0#8, 0#8, 0#8, 1#8]) src
      ([(dst, if g.copy.isSome then out ++ iv else out)], gzOk, if enc then iv else [])
    else
      let r := if isGcm a then aesGcm k iv aad src enc
        else if isCcm a then aesCcm k iv aad src t enc
        else chachaPoly k iv aad src enc
      let full := r.2.take t
      if enc then
        (if g.copy.isSome then [(dst, r.1 ++ full ++ iv)] else [(dst, r.1), (jbTag b, full)], gzOk, iv)
      else if full = tag.take t then ([(dst, r.1)], gzOk, [])
      else if c.flagPolicy then ([(dst, r.1)], gzAuthFail, [])
      else ([(dst, List.replicate src.length 0#8)], gzAuthFail, [])

end Dev

/-- ENCRYPT, DECRYPT, HASH, HMAC (R270 to R273): the start of the job that the dispatcher serves next. -/
def doGlzEncrypt (d : Dev) : Dev := d.glzStart 1
def doGlzDecrypt (d : Dev) : Dev := d.glzStart 2
def doGlzHash (d : Dev) : Dev := d.glzStart 3
def doGlzHmac (d : Dev) : Dev := d.glzStart 4

/-- An uncorrectable error in a context invalidates it in the cache and in its store, and is recorded (R268, R458). -/
def Dev.kcLost (d : Dev) (i : Nat) : Dev :=
  let d := if (d.kctx i).valid then
      (((d.setKctx i (invalidated (d.kctx i))).setEvent GLZ_EVENT_KC_UNCORR).put GLZ_EVENT_KC_INDEX i).inc GLZ_CNT_KC_UNCORR
    else d
  d.rasError { RasErr.of 0x13 0 .uc i with owner := d.kcSag i }

/-- KC_MISS_FILL (R268): the context of engine `e`'s job is in the cache, and its work goes on with the key as it stood at its
start (R271). Where the cache is full, a cached context leaves it; which one is free (notes/assumptions/29). A job whose context
the fetch finds lost returns BAD_KEY, and a frame has an unusable entry. -/
def doKcMissFill (e : Fin 256) (d : Dev) : Dev :=
  match d.glzEng e with
  | none => d
  | some r =>
    if r.due.isSome then d
    else
      let i := match r.work with
        | .job g => jbKc (Dev.glzBlock g)
        | .frame _ _ => bitsOf (r.ent.cfg.getD 0 0) 0 20
      let full := (d.glz.kc.filter fun kv => kv.2.cached).map (·.1)
      let d := if 16384 ≤ full.length then
          let (x, d) := d.free
          let v := full.getD (x % full.length) 0
          d.setKctx v { d.kctx v with cached := false }
        else d
      -- R268, R453: a context stored in a poisoned line is lost
      if d.poisoned (d.kcBase + 256 * i) 256 then
        let d := (d.consumed (d.kcBase + 256 * i)).kcLost i
        match r.work with
        | .job g => (d.setGlzEng e none).glzAnswer g [] gzBadKey 0 0 []
        | .frame _ _ => d.setGlzEng e (some { r with due := some d.cycle, bad := some 3 })
      else
        let c := d.kctx i
        let d := if c.valid then d.setKctx i { c with cached := true } else d
        d.setGlzEng e (some { r with due := some (d.cycle + r.cost) })

/-- A started job returns TIMEOUT 100 ms after its hand-over (R262). -/
def Dev.glzExpire (d : Dev) (e : Nat) (r : GlzRun) (g : GlzJob) : Dev :=
  ((d.setGlzEng e none).inc GLZ_CNT_JOB_TIMEOUT).glzAnswer g [] gzTimeout (b2n r.unt + 2 * b2n r.near) (r.counter.getD 0)
    (match r.counter with | some n => r.ctx.iv n | none => [])

/-- 100 ms. -/
def glzLimit : Nat := 300000000

/-- A decryption under POLICY FLAG, which writes plaintext as it decrypts (R277). -/
def Dev.flagDec (r : GlzRun) (g : GlzJob) : Bool := jbOp (Dev.glzBlock g) == 2 && isAead r.ctx.alg && r.ctx.flagPolicy

/-- GLAZE_JOB_COMPLETE (R272, R275 to R277, R271): engine `e`'s job ends, once its channel's engine has read all that it needs and its
occupancy is over (R278, R352). In part, a decryption under POLICY FLAG has come to so many bytes: it writes their plaintext, and at
the last byte finds whether the tag matches. What it reads comes through its channel's engine, so no input stands in the
command. -/
def doGlazeJobComplete (e : Fin 256) (_src _aad _tag : Unit) (fin : JobEnd) (d : Dev) : Dev :=
  match d.glzEng e with
  | none => d
  | some r =>
    match r.work, r.due with
    | .job g, some due =>
      let b := Dev.glzBlock g
      let j := g.job
      let src := match j.sto with | some x => x.data | none => d.fed j 0
      let flag := Dev.flagDec r g
      let n := match fin with | .part n => n | .whole => jbLen b
      let res := Dev.glzResult r g (src.take n) (d.fed j 1) (d.fed j 2)
      let outs := if flag then res.1.map fun o => (o.1 + r.wrote, o.2.drop r.wrote) else res.1
      match fin with
      | .part n =>
        if !flag || decide (jbLen b < n) || decide (n < r.wrote) || decide (src.length < n) || (n == jbLen b && !d.fedAll j) ||
            d.writesHeld j.chan then d
        else
          let d := if d.firing (Dev.tagOwner j.chan j.tagSag) = j.firing then
              outs.foldl (fun d p => d.tWrite j.chan p.1 p.2 (some (j.idx, 0)) none) d
            else d
          d.setGlzEng e (some { r with wrote := n, unt := n == jbLen b && res.2.1 == gzAuthFail })
      | .whole =>
        if j.handed + glzLimit ≤ d.cycle then d.glzExpire e r g
        else if d.cycle < due ∨ d.fedAll j = false then d
        else (d.setGlzEng e none).glzAnswer g outs res.2.1 (b2n (res.2.1 == gzAuthFail && flag) + 2 * b2n r.near) (r.counter.getD 0) res.2.2
    | _, _ => d

/-- GLAZE_DISPATCH_TIMEOUT (R262): the oldest lookaside job, key commands among them (R272), that has not been started within
18 ms. -/
def doGlazeDispatchTimeout (d : Dev) : Dev :=
  match d.glz.jobs.find? fun g => decide (g.job.handed + Dev.dispatch18 ≤ d.cycle) with
  | none => d
  | some g => ((d.setGlz fun s => { s with jobs := s.jobs.filter (· != g) }).inc GLZ_CNT_JOB_TIMEOUT).glzAnswer g [] gzTimeout 0 0 []

/-- GLAZE_JOB_TIMEOUT (R262): the job of engine `e`, 100 ms after its hand-over. -/
def doGlazeJobTimeout (e : Fin 256) (d : Dev) : Dev :=
  match d.glzEng e with
  | none => d
  | some r =>
    match r.work with
    | .job g =>
      if g.job.handed + glzLimit ≤ d.cycle then d.glzExpire e r g else d
    | .frame _ _ => d

/-! ### Key commands (R266, R267) -/

/-- Takes the oldest job block of channel `g`, if it holds the key command `op`. `f` decides it: outputs and status. -/
def doKeyCmd (op g : Nat) (d : Dev) (addr : List Byte → List (Nat × Nat))
    (f : Job → List Byte → Dev → (List (Nat × List Byte) × Nat) × Dev) : Dev :=
  match d.glz.jobs.find? fun x => x.job.chan == g && x.copy.isNone && x.job.sto.isNone with
  | none => d
  | some x =>
    let b := x.job.block
    if jbOp b ≠ op ∨ d.jobMay x.job = false then d
    else
      let d := d.setGlz fun s => { s with jobs := s.jobs.filter (· != x) }
      if !d.leftSetup GLZ_CTRL then d.glzAnswer x [] gzBadKey 0 0 []
      else if x.job.owner.isSome && d.kcSag (jbKc b) != x.job.owner then d.glzAnswer x [] gzDenied 0 0 []
      else if (addr b).any fun r => !d.tAllowed g r.1 r.2 then d.glzDenied x
      else
        let ins := if op ≤ 0x72 then addr b else []
        let r := f x.job b (ins.foldl (fun d r =>
          ((d.ioReadT r.1 r.2).debitCost .dma x.job.owner r.2).engRead (g / 256) r.2) d)
        r.2.glzAnswer x r.1.1 r.1.2 0 0 []

/-- KC_LOAD (R266): `host` is what the host returned for SRC. -/
def doKcLoad (g : Fin 4096) (host : List Byte) (d : Dev) : Dev :=
  doKeyCmd 0x70 g d (fun b => [(jbSrc b, 128)]) fun j b d =>
    let x := d.fetchT (jbSrc b) 128 host
    if j.owner.isSome then (([], gzDenied), d)
    else if badAttr (x.take 64) then (([], gzBadEntry), d)
    else (([], gzOk), d.loadCtx (jbKc b) (x.take 64) (x.drop 64))

/-- KC_GENERATE (R266). -/
def doKcGenerate (g : Fin 4096) (host : List Byte) (d : Dev) : Dev :=
  doKeyCmd 0x71 g d (fun b => [(jbSrc b, 64)]) fun _ b d =>
    let x := d.fetchT (jbSrc b) 64 host
    if badAttr x then (([], gzBadEntry), d)
    else
      let n := keyLen (KeyCtx.alg ⟨x, [], false, false⟩)
      let key := (List.range 64).map fun i => if i < n then Config.randomByte d.fresh i else 0#8
      (([], gzOk), ({ d with fresh := d.fresh + 1 }).loadCtx (jbKc b) x key)

/-- KC_UNWRAP (R266). -/
def doKcUnwrap (g : Fin 4096) (host : List Byte) (d : Dev) : Dev :=
  doKeyCmd 0x72 g d (fun b => [(jbSrc b, 136)]) fun j b d =>
    if j.owner.isSome && d.kcSag (jbKwk b) != j.owner then (([], gzDenied), d)
    else match d.kwkKey j.owner (jbKwk b) with
      | none => (([], gzBadKey), d)
      | some k =>
        match keyUnwrap k (d.fetchT (jbSrc b) 136 host) with
        | none => (([], gzAuthFail), d)
        | some x =>
          let attr := match j.owner with
            | some s => overlay (x.take 64) 0 (leBytes 4 (let w := fieldLE x 0 4; w - w % 2 ^ 11 + s))
            | none => x.take 64
          if badAttr attr then (([], gzBadEntry), d) else (([], gzOk), d.loadCtx (jbKc b) attr (x.drop 64))

/-- KC_EXPORT (R266). -/
def doKcExport (g : Fin 4096) (d : Dev) : Dev :=
  doKeyCmd 0x73 g d (fun b => [(jbDst b, 136)]) fun j b d =>
    if j.owner.isSome && d.kcSag (jbKwk b) != j.owner then (([], gzDenied), d)
    else
      let c := d.kctx (jbKc b)
      match d.kwkKey j.owner (jbKwk b) with
      | none => (([], gzBadKey), d)
      | some k =>
        if !d.kcUsable j.owner (jbKc b) || !c.useExport then (([], gzBadKey), d)
        else (([(jbDst b, Dev.blobOf c k)], gzOk), (d.setKctx (jbKc b) (Dev.invalidated c)).mark (.keyWrite (jbKc b)))

/-- KC_INVALIDATE (R266). -/
def doKcInvalidate (g : Fin 4096) (d : Dev) : Dev :=
  doKeyCmd 0x74 g d (fun _ => []) fun _ b d =>
    (([], gzOk), (d.setKctx (jbKc b) (Dev.invalidated (d.kctx (jbKc b)))).mark (.keyWrite (jbKc b)))

/-- KC_READ_ATTR (R266). -/
def doKcReadAttr (g : Fin 4096) (d : Dev) : Dev :=
  doKeyCmd 0x75 g d (fun b => [(jbDst b, 64)]) fun _ b d => (([(jbDst b, (d.kctx (jbKc b)).attr)], gzOk), d)

/-! ### Inline transforms (R280 to R285) -/

def Ixt.w (x : Ixt) (i : Nat) : Nat := x.cfg.getD i 0
def Ixt.valid (x : Ixt) : Bool := bitOf (x.w 0) 31
def Ixt.type (x : Ixt) : Nat := bitsOf (x.w 0) 28 3
def Ixt.conf (x : Ixt) : Bool := bitOf (x.w 0) 27
def Ixt.xpn (x : Ixt) : Bool := bitOf (x.w 0) 26
def Ixt.esn (x : Ixt) : Bool := bitOf (x.w 0) 25
def Ixt.replayEn (x : Ixt) : Bool := bitOf (x.w 0) 24
def Ixt.kc (x : Ixt) : Nat := bitsOf (x.w 0) 0 20
def Ixt.hdrOff (x : Ixt) : Nat := bitsOf (x.w 1) 24 8
def Ixt.an (x : Ixt) : Nat := bitsOf (x.w 1) 16 2
def Ixt.owner (x : Ixt) : Nat := bitsOf (x.w 1) 0 11
/-- The SCI in wire order (bytes 8–15), and the SPI (bytes 8–11). -/
def Ixt.sci (x : Ixt) : List Byte := leBytes 4 (x.w 2) ++ leBytes 4 (x.w 3)
def Ixt.spi (x : Ixt) : Nat := x.w 2
def Ixt.window (x : Ixt) : Nat := x.w 4
def Ixt.isRx (x : Ixt) : Bool := x.type % 2 == 1

/-- The refusals of an inline frame (R285). -/
inductive InlFail where
  | icv | replay | format | entry | exhausted
  deriving DecidableEq, Repr

def InlFail.ctr : InlFail → Ctr
  | .icv => GLZ_CNT_INL_ICV_FAIL | .replay => GLZ_CNT_INL_REPLAY | .format => GLZ_CNT_INL_FORMAT
  | .entry => GLZ_CNT_INL_BAD_ENTRY | .exhausted => GLZ_CNT_INL_EXHAUSTED
def InlFail.code : InlFail → Nat
  | .icv => 0 | .replay => 1 | .format => 2 | .entry => 3 | .exhausted => 4
def InlFail.ofCode : Nat → InlFail
  | 0 => .icv | 1 => .replay | 2 => .format | 3 => .entry | _ => .exhausted

/-- MACsec transmit of a body (without FCS) with packet number `n` (R282). -/
def macsecTx (x : Ixt) (c : KeyCtx) (n : Nat) (body : List Byte) : List Byte :=
  let data := body.drop 12
  let tci := 0x20 + (if x.conf then 0x0C else 0) + x.an
  let sl := if data.length < 48 then data.length else 0
  let tag := [0x88#8, 0xE5#8, BitVec.ofNat 8 tci, BitVec.ofNat 8 sl] ++ beBytes 4 n ++ x.sci
  let iv := if x.xpn then c.iv n else x.sci ++ beBytes 4 n
  let head := body.take 12 ++ tag
  if x.conf then
    let r := aesGcm c.keyBytes iv head data true
    head ++ r.1 ++ r.2
  else head ++ data ++ (aesGcm c.keyBytes iv (head ++ data) [] true).2

/-- The packet number of XPN from its low 32 bits and the lowest acceptable number (IEEE 802.1AE). -/
def xpnRecover (lowest low : Nat) : Nat :=
  let hi := lowest / 2 ^ 32
  (if bitOf lowest 31 && !bitOf low 31 then hi + 1 else hi) * 2 ^ 32 + low

/-- MACsec receive of a body: the body without SecTAG and ICV, and the packet number (R282). What IEEE 802.1AE calls an invalid
MPDU has no SecTAG where one is expected. -/
def macsecRx (x : Ixt) (c : KeyCtx) (highest : Nat) (body : List Byte) : Except InlFail (List Byte × Nat) :=
  let tci := (fieldLE body 14 1)
  let sl := fieldLE body 15 1
  let sc := bitOf tci 5
  let hl := if sc then 16 else 8
  if body.length < 12 + hl + 16 ∨ beNat (sliceB body 12 2) ≠ 0x88E5 ∨ bitOf tci 7 = true ∨ bitOf tci 3 ≠ bitOf tci 2 ∨
      (sc = true ∧ (bitOf tci 6 = true ∨ bitOf tci 4 = true)) ∨ 48 ≤ sl then .error .format
  else
    let sci := if sc then sliceB body 20 8 else sliceB body 6 6 ++ [0#8, if bitOf tci 4 then 0#8 else 1#8]
    let low := beNat (sliceB body 16 4)
    let dl := if sl = 0 then body.length - 12 - hl - 16 else sl
    if body.length < 12 + hl + dl + 16 ∨ (sl = 0 ∧ dl < 48) ∨ (low = 0 ∧ x.xpn = false) then .error .format
    else if sci ≠ x.sci then .error .entry
    else
      let lowest := highest + 1 - x.window
      let pn := if x.xpn then xpnRecover lowest low else low
      if x.replayEn && decide (pn < lowest) then .error .replay
      else
        let head := body.take (12 + hl)
        let data := sliceB body (12 + hl) dl
        let icv := sliceB body (12 + hl + dl) 16
        let iv := if x.xpn then c.iv pn else x.sci ++ beBytes 4 pn
        let r := if bitOf tci 3 then aesGcm c.keyBytes iv head data false
          else (data, (aesGcm c.keyBytes iv (head ++ data) [] true).2)
        if r.2 = icv then .ok (body.take 12 ++ r.1, pn) else .error .icv

/-- ESP transmit with counter `n` (R283): sequence, IV, ciphertext and ICV are written in place. -/
def espTx (x : Ixt) (c : KeyCtx) (n : Nat) (body : List Byte) : Option (List Byte) :=
  let h := x.hdrOff
  if body.length < h + 32 then none
  else
    let spi := sliceB body h 4
    let pt := sliceB body (h + 16) (body.length - h - 32)
    let seq := beBytes 4 n
    let aad := spi ++ (if x.esn then beBytes 4 (n / 2 ^ 32) else []) ++ seq
    let r := aesGcm c.keyBytes (c.iv n) aad pt true
    some (body.take h ++ spi ++ seq ++ beBytes 8 n ++ r.1 ++ r.2)

/-- The 64-bit sequence number of ESN (RFC 4303, Appendix A). -/
def esnRecover (top win low : Nat) : Nat :=
  let tl := top % 2 ^ 32
  let th := top / 2 ^ 32
  let hi := if win - 1 ≤ tl then (if tl + 1 - win ≤ low then th else th + 1)
    else (if tl + 2 ^ 32 + 1 - win ≤ low then th - 1 else th)
  hi * 2 ^ 32 + low

/-- WINDOW as an ESP bitmap size: 32 to 1,024 (notes/assumptions/29). -/
def Ixt.espWin (x : Ixt) : Nat := Nat.max 32 (Nat.min 1024 x.window)

/-- Whether a sequence number is a replay: 0, behind the window, or seen. Bit k of the bitmap stands for HIGHEST − k. -/
def espReplay (top bitmap win seq : Nat) : Bool :=
  seq == 0 || decide (seq + win ≤ top) || (decide (seq ≤ top) && bitOf bitmap (top - seq))

/-- The bitmap and HIGHEST after a sequence number is accepted. -/
def espAccept (top bitmap win seq : Nat) : Nat × Nat :=
  if top < seq then (seq, (bitmap * 2 ^ Nat.min win (seq - top) + 1) % 2 ^ win)
  else (top, if bitOf bitmap (top - seq) then bitmap else bitmap + 2 ^ (top - seq))

/-- ESP receive (R283): the body decrypted in place with its ICV zeroed, and the sequence number. -/
def espRx (x : Ixt) (c : KeyCtx) (top bitmap : Nat) (body : List Byte) : Except InlFail (List Byte × Nat) :=
  let h := x.hdrOff
  if body.length < h + 32 then .error .format
  else if beNat (sliceB body h 4) ≠ x.spi then .error .entry
  else
    let low := beNat (sliceB body (h + 4) 4)
    let seq := if x.esn then esnRecover top x.espWin low else low
    if x.replayEn && espReplay top bitmap x.espWin seq then .error .replay
    else
      let n := body.length - h - 32
      let aad := sliceB body h 4 ++ (if x.esn then beBytes 4 (seq / 2 ^ 32) else []) ++ sliceB body (h + 4) 4
      let iv := xorB (beBytes 4 c.fixed ++ sliceB body (h + 8) 8) c.salt
      let r := aesGcm c.keyBytes iv aad (sliceB body (h + 16) n) false
      if r.2 = sliceB body (h + 16 + n) 16 then .ok (body.take (h + 16) ++ r.1 ++ List.replicate 16 0#8, seq)
      else .error .icv

namespace Dev

/-- Whether an entry and its context serve a frame (R281, R285). -/
def ixtOk (d : Dev) (x : Ixt) : Bool :=
  let c := d.kctx x.kc
  d.leftSetup GLZ_CTRL && x.valid && decide (x.type < 4) && c.valid && c.owner == x.owner && (c.alg == 1 || c.alg == 3) &&
    c.useInline && (if x.isRx then c.useDec else c.useEnc) &&
    (match d.kcSag x.kc with | some s => c.owner == s | none => true)

/-- Cycles of an inline frame of `l` bytes, FCS included: the GCM row with its headers as AAD (R278, R285). The data of a MACsec
frame are its L bytes in the clear and its ICV, as the figure of R285 takes them (notes/assumptions/29). -/
def inlineCycles (x : Ixt) (c : KeyCtx) (l : Nat) (body : List Byte) : Nat :=
  let clear := if x.type = 1 then l - 16 - (if bitOf (fieldLE body 14 1) 5 then 16 else 8) else l
  if x.type < 2 then
    (if x.conf then cipherCycles c.alg c.compat (clear + 16) 28 else cipherCycles c.alg c.compat 0 (clear + 12))
  else cipherCycles c.alg c.compat (l - 4 - x.hdrOff - 32) (if x.esn then 12 else 8)

/-- A frame refused by its transform (R285). -/
def inlineDrop (d : Dev) (i x : Nat) (f : InlFail) : Dev :=
  let e := d.ixtEnt x
  ((d.inc f.ctr).setIxt x { e with drop := satAdd 64 e.drop 1 }).freeFrame i

/-- Where a transformed frame goes: a frame read in by DMA is marked for admission, any other goes to placement or
metering (R280, R342). -/
def afterInline (d : Dev) (i : Nat) : Dev := d.modFrame i fun f => { f with stage := .meter }

end Dev

/-- The frames of the inline queue that wait there still, oldest first. -/
def Dev.inlineWaiting (d : Dev) : List Nat :=
  d.glz.inlineQ.filter fun i => match d.frame? i with | some f => f.stage == .inline | none => false

/-- INLINE_START (R280, R270): the first frame of the inline queue starts on the lowest-numbered free inline engine. -/
def doInlineStart (d : Dev) : Dev :=
  match d.freeGlz true, d.inlineWaiting with
  | some e, i :: q =>
    match d.frame? i with
    | none => d
    | some f =>
      let d := (d.setGlz fun s => { s with inlineQ := q }).syncInline
      let xi := match f.act with | some a => a.xform.getD 0 | none => 0
      -- R271, R285: with a write of its entry or context in its cycle, the frame would have used the old one
      let d := (d.before (.ixtWrite xi)).before (.keyWrite (d.ixtEnt xi).kc)
      let d := if (d.ixtEnt xi).isRx then d else d.turnInvoke (d.ixtEnt xi).kc e
      let x := d.ixtEnt xi
      let c := d.kctx x.kc
      let run : GlzRun := { work := .frame i xi, ctx := c, ent := x, counter := none, near := false, bad := none,
                            started := d.cycle, due := some d.cycle, cost := 0, wrote := 0, unt := false }
      if !d.ixtOk x then d.setGlzEng e (some { run with bad := some InlFail.entry.code })
      else if !x.isRx && decide (2 ≤ x.type) && decide (f.len - 4 < x.hdrOff + 32) then
        d.setGlzEng e (some { run with bad := some InlFail.format.code })
      else
        let cost := Dev.inlineCycles x c f.len f.bytes
        let d := if c.cached then d else d.inc GLZ_CNT_KC_MISS
        let due := if c.cached then some (d.cycle + cost) else none
        if x.isRx then d.setGlzEng e (some { run with due := due, cost := cost })
        else
          let lim := if x.type = 0 ∧ x.xpn = false then 2 ^ 32 else 2 ^ 64
          let d := d.mark (.invoked x.kc e)
          match d.takeCounter x.kc lim true with
          | (none, d) => d.setGlzEng e (some { run with bad := some InlFail.exhausted.code })
          | (some (n, near), d) =>
            d.setGlzEng e (some { run with counter := some n, near := near, due := due, cost := cost })
  | _, _ => d

/-- INLINE_TRANSFORM (R285): the transform on engine `e` ends and the frame is forwarded or discarded. `placed` tells the
frame's further course: see CLASSIFICATION_COMPLETE. -/
def inlineEnd (e : Nat) (d : Dev) : Option (Nat × Dev) :=
  match d.glzEng e with
  | none => none
  | some r =>
    match r.work, r.due with
    | .frame i xi, some due =>
      if d.cycle < due then none
      else
        -- R285: of the frames of one entry that finish in one cycle, the lower engine first
        let d := if d.marks.any (fun m => match m with | .inlineDone y k => y == xi && decide (e < k) | _ => false) then d.tick else d
        let d := (d.setGlzEng e none).mark (.inlineDone xi e)
        match d.frame? i with
        | none => none
        | some f =>
          match r.bad with
          | some k => some (i, d.inlineDrop i xi (InlFail.ofCode k))
          | none =>
            let x := r.ent
            let live := d.ixtEnt xi
            let body := f.bytes.take (f.len - 4)
            let done := fun (d : Dev) (b : List Byte) (v : Ixt) =>
              let d := (d.inc GLZ_CNT_INL_OK).setIxt xi { v with ok := satAdd 64 v.ok 1 }
              d.setFrame i { f with bytes := withFcs false b }
            match x.type with
            | 0 => some (i, (done d (macsecTx x r.ctx (r.counter.getD 0) body) live).afterInline i)
            | 1 =>
              match macsecRx x r.ctx live.highest body with
              | .error k => some (i, d.inlineDrop i xi k)
              | .ok (b, pn) => some (i, (done d b { live with highest := Nat.max live.highest pn }).afterInline i)
            | 2 =>
              match espTx x r.ctx (r.counter.getD 0) body with
              | none => some (i, d.inlineDrop i xi .format)
              | some b => some (i, (done d b live).afterInline i)
            | _ =>
              match espRx x r.ctx live.highest live.bitmap body with
              | .error k => some (i, d.inlineDrop i xi k)
              | .ok (b, seq) =>
                let a := espAccept live.highest live.bitmap x.espWin seq
                some (i, (done d b { live with highest := a.1, bitmap := a.2 }).afterInline i)
    | _, _ => none

/-! ### The inline table and the registers -/

/-- The words of an inline entry (R281). -/
def ixtWords (x : Ixt) : List Nat :=
  x.cfg ++ [x.highest % 2 ^ 32, x.highest / 2 ^ 32, 0, 0, 0, 0, x.ok % 2 ^ 32, x.ok / 2 ^ 32, x.drop % 2 ^ 32, x.drop / 2 ^ 32]

/-- An indirect command of the inline table: the write, then the operation on entry INDEX if OP names it. -/
def doIxtCmd (op : Nat) (p : Path) (data : W32) (f : Dev → Nat → Dev) (d : Dev) : Dev :=
  let d := d.writeFields p GLZ_IND_CMD data
  if fieldGet data 24 3 = op then f d (fieldGet data 0 14) else d

/-- READ_IXT (R281). -/
def doReadIxt (p : Path) (data : W32) (d : Dev) : Dev :=
  doIxtCmd 1 p data (fun d i => d.indFill (GLZ_IND_DATA 0) (ixtWords (d.ixtEnt i))) d

/-- WRITE_IXT (R281): bytes 0–23 without their reserved bits; HIGHEST and the replay bitmap are cleared. -/
def doWriteIxt (p : Path) (data : W32) (d : Dev) : Dev :=
  doIxtCmd 2 p data (fun d i =>
    let w := d.indRd (GLZ_IND_DATA 0)
    let w0 := w 0 - bitsOf (w 0) 20 4 * 2 ^ 20
    let w1 := bitsOf (w 1) 24 8 * 2 ^ 24 + bitsOf (w 1) 16 2 * 2 ^ 16 + bitsOf (w 1) 0 11
    (d.setIxt i { d.ixtEnt i with cfg := [w0, w1, w 2, w 3, w 4, 0], highest := 0, bitmap := 0 }).mark (.ixtWrite i)) d

/-- CLEAR_IXT_CNT (R281). -/
def doClearIxtCnt (p : Path) (data : W32) (d : Dev) : Dev :=
  doIxtCmd 3 p data (fun d i => d.setIxt i { d.ixtEnt i with ok := 0, drop := 0 }) d

/-- Whether the key-context region that a write of GLZ_KC_BASE names would meet the spill region of a BUF block that has left
set-up, or the HBM range of a saggar that is not FREE (R155, R366). -/
def Dev.kcClash (d : Dev) (data : W32) : Bool :=
  let lo := Nat.min 383 (fieldGet data 0 9) * 2 ^ 28
  let clash := fun (a n : Nat) => decide (a < lo + 2 ^ 28) && decide (lo < a + n) && n != 0
  (d.leftSetup BUF_CTRL && clash (d.get BUF_SPILL_BASE_GIB * 2 ^ 30) (d.get BUF_SPILL_SIZE_GIB * 2 ^ 30)) ||
    d.liveSags.any fun s => clash (d.get (SAG_HBM_BASE_BASE s) * 2 ^ 21) (d.get (SAG_HBM_PAGES_PAGES s) * 2 ^ 21)

/-- GLZ_KC_BASE_WRITE (R155, GLZ_KC_BASE): in set-up, a write that would make the region overlap the spill region of a BUF
block that has left set-up, or the HBM range of a saggar that is not FREE, is ignored; otherwise the field is written under
its access type. -/
def doGlzKcBaseWrite (p : Path) (data : W32) (d : Dev) : Dev :=
  if !d.locked GLZ_CTRL && d.kcClash data then d else d.writeFields p GLZ_KC_BASE data

/-- GLAZE_ENABLE (R46). -/
def doGlazeEnable (p : Path) (data : W32) (d : Dev) : Dev :=
  let d := d.writeFields p GLZ_CTRL data
  let on := fieldGet data 0 1
  let d := d.put GLZ_CTRL_ENABLE on
  if on = 1 then d.lock GLZ_CTRL else d

end Sys2Proof.Machine
end

