-- ==== Sys2Proof/Machine/Lattice.lean ====
section
/-!
DEFINITION. ML-KEM (FIPS 203) and ML-DSA (FIPS 204), as the public-key units implement them (R288, R299, R300, R305).
A polynomial is the list of its 256 coefficients, each below q.
-/

namespace Sys2Proof.Machine

/-- A polynomial. -/
abbrev Poly := List Nat

/-! ### Bits and numbers -/

/-- The low `n` bits of a number, least first. -/
def bitsLE : Nat → Nat → List Nat
  | 0, _ => []
  | n + 1, x => x % 2 :: bitsLE n (x / 2)

/-- Packs numbers of `w` bits each, least significant bit first, into bytes. -/
def packBits (w : Nat) (xs : List Nat) : List Byte :=
  leBytes (ceilDiv (w * xs.length) 8) (xs.foldr (fun x acc => x % 2 ^ w + 2 ^ w * acc) 0)

/-- `n` numbers of `w` bits each from bytes. -/
def unpackBits (w n : Nat) (bs : List Byte) : List Nat :=
  let x := leNat bs
  (List.range n).map fun i => bitsOf x (w * i) w

/-- The reversal of the `n` low bits. -/
def bitRev : Nat → Nat → Nat
  | 0, _ => 0
  | n + 1, x => x % 2 * 2 ^ n + bitRev n (x / 2)

/-- `b ^ e mod m` by repeated multiplication (small exponents). -/
def powSmall (b m : Nat) : Nat → Nat
  | 0 => 1 % m
  | e + 1 => powSmall b m e * b % m

/-! ### The number-theoretic transforms -/

/-- A ring: modulus q, root ζ, layers of the transform. -/
structure Ring where
  q : Nat
  zeta : Nat
  depth : Nat
  /-- 1 / 2^depth modulo q. -/
  scale : Nat

def kemRing : Ring := ⟨3329, 17, 7, 3303⟩
def dsaRing : Ring := ⟨8380417, 1753, 8, 8347681⟩

namespace Ring

/-- ζ to the bit-reversed index `i`. -/
def root (r : Ring) (i : Nat) : Nat := powSmall r.zeta r.q (bitRev r.depth i)

/-- −ζ to the power that inverts it: ζ has order 2^(depth + 1). -/
def rootInv (r : Ring) (i : Nat) : Nat := powSmall r.zeta r.q (2 ^ (r.depth + 1) - bitRev r.depth i)

def add (r : Ring) (a b : Poly) : Poly := List.zipWith (fun x y => (x + y) % r.q) a b
def sub (r : Ring) (a b : Poly) : Poly := List.zipWith (fun x y => (x + r.q - y) % r.q) a b
def neg (r : Ring) (a : Poly) : Poly := a.map fun x => (r.q - x) % r.q
def scaleBy (r : Ring) (c : Nat) (a : Poly) : Poly := a.map fun x => c * x % r.q

/-- The transform below node `i` of the tree of layers. -/
def fwd (r : Ring) : Nat → Nat → Poly → Poly
  | 0, _, f => f
  | n + 1, i, f =>
    let h := f.length / 2
    let lo := f.take h
    let t := r.scaleBy (r.root i) (f.drop h)
    fwd r n (2 * i) (r.add lo t) ++ fwd r n (2 * i + 1) (r.sub lo t)

def bwd (r : Ring) : Nat → Nat → Poly → Poly
  | 0, _, f => f
  | n + 1, i, f =>
    let h := f.length / 2
    let lo := bwd r n (2 * i) (f.take h)
    let hi := bwd r n (2 * i + 1) (f.drop h)
    r.add lo hi ++ r.scaleBy (r.rootInv i) (r.sub lo hi)

def ntt (r : Ring) (f : Poly) : Poly := r.fwd r.depth 1 f
def intt (r : Ring) (f : Poly) : Poly := r.scaleBy r.scale (r.bwd r.depth 1 f)

/-- Products of pairs modulo X² − ζ^(2·BitRev(i) + 1): for ML-KEM. -/
def mulPairs (r : Ring) : Nat → Poly → Poly → Poly
  | i, a0 :: a1 :: as, b0 :: b1 :: bs =>
    let z := powSmall r.zeta r.q (2 * bitRev 7 i + 1)
    (a0 * b0 + a1 * b1 % r.q * z) % r.q :: (a0 * b1 + a1 * b0) % r.q :: mulPairs r (i + 1) as bs
  | _, _, _ => []

/-- The product of two transformed polynomials. -/
def mul (r : Ring) (a b : Poly) : Poly :=
  if r.depth = 7 then r.mulPairs 0 a b else List.zipWith (fun x y => x * y % r.q) a b

def zero : Poly := List.replicate 256 0

/-- The inner product of two transformed vectors. -/
def dot (r : Ring) (a b : List Poly) : Poly := (List.zipWith r.mul a b).foldl r.add zero

/-- A matrix times a transformed vector. -/
def mat (r : Ring) (m : List (List Poly)) (v : List Poly) : List Poly := m.map fun row => r.dot row v

end Ring

/-! ### ML-KEM -/

/-- The parameters: k, du, dv (η1 = η2 = 2). -/
structure Kem where
  k : Nat
  du : Nat
  dv : Nat

def kemOf (alg : Nat) : Kem := if alg = 7 then ⟨3, 10, 4⟩ else ⟨4, 11, 5⟩

/-- The first 256 values below q of the pairs of 12-bit numbers in a byte stream (SampleNTT). -/
def rej12 : Nat → List Byte → List Nat
  | 0, _ => []
  | n + 1, bs =>
    match bs with
    | a :: b :: c :: rest =>
      let d1 := a.toNat + 256 * (b.toNat % 16)
      let d2 := b.toNat / 16 + 16 * c.toNat
      (if d1 < 3329 then [d1] else []) ++ (if d2 < 3329 then [d2] else []) ++ rej12 n rest
    | _ => []

def sampleNtt (seed : List Byte) : Poly := (rej12 280 (shake 128 840 seed)).take 256

/-- A centred binomial sample of 64 η bytes with η = 2. -/
def cbd2 (bs : List Byte) : Poly :=
  (unpackBits 4 256 bs).map fun n => (n % 2 + n / 2 % 2 + 3329 - (n / 4 % 2 + n / 8 % 2)) % 3329

def prf2 (s : List Byte) (n : Nat) : Poly := cbd2 (shake 256 128 (s ++ [BitVec.ofNat 8 n]))

def kemMatrix (p : Kem) (rho : List Byte) : List (List Poly) :=
  (List.range p.k).map fun i => (List.range p.k).map fun j =>
    sampleNtt (rho ++ [BitVec.ofNat 8 j, BitVec.ofNat 8 i])

def transpose (m : List (List Poly)) : List (List Poly) :=
  (List.range m.length).map fun j => m.map fun row => row.getD j Ring.zero

def compress (dd x : Nat) : Nat := ((x * 2 ^ dd + 1664) / 3329) % 2 ^ dd
def decompress (dd y : Nat) : Nat := (y * 3329 + 2 ^ (dd - 1)) / 2 ^ dd

/-- The polynomials of a packed vector. -/
def unpackVec (w k : Nat) (bs : List Byte) : List Poly :=
  (List.range k).map fun i => unpackBits w 256 (sliceB bs (32 * w * i) (32 * w))

/-- K-PKE key generation from the seed d: the encryption key and the packed secret. -/
def kpkeGen (p : Kem) (dseed : List Byte) : List Byte × List Byte :=
  let g := sha3 512 (dseed ++ [BitVec.ofNat 8 p.k])
  let rho := g.take 32
  let sig := g.drop 32
  let s := (List.range p.k).map fun i => kemRing.ntt (prf2 sig i)
  let e := (List.range p.k).map fun i => kemRing.ntt (prf2 sig (p.k + i))
  let t := List.zipWith kemRing.add (kemRing.mat (kemMatrix p rho) s) e
  ((t.map (packBits 12)).flatten ++ rho, (s.map (packBits 12)).flatten)

/-- K-PKE encryption. -/
def kpkeEnc (p : Kem) (ek m r : List Byte) : List Byte :=
  let t := (unpackVec 12 p.k ek).map fun f => f.map (· % 3329)
  let a := kemMatrix p (sliceB ek (384 * p.k) 32)
  let y := (List.range p.k).map fun i => kemRing.ntt (prf2 r i)
  let e1 := (List.range p.k).map fun i => prf2 r (p.k + i)
  let e2 := prf2 r (2 * p.k)
  let u := List.zipWith kemRing.add ((kemRing.mat (transpose a) y).map kemRing.intt) e1
  let mu := (unpackBits 1 256 m).map (decompress 1)
  let v := kemRing.add (kemRing.add (kemRing.intt (kemRing.dot t y)) e2) mu
  (u.map fun f => packBits p.du (f.map (compress p.du))).flatten ++ packBits p.dv (v.map (compress p.dv))

/-- K-PKE decryption. -/
def kpkeDec (p : Kem) (dk c : List Byte) : List Byte :=
  let u := (unpackVec p.du p.k c).map fun f => f.map (decompress p.du)
  let v := (unpackBits p.dv 256 (c.drop (32 * p.du * p.k))).map (decompress p.dv)
  let s := unpackVec 12 p.k dk
  let w := kemRing.sub v (kemRing.intt (kemRing.dot s (u.map kemRing.ntt)))
  packBits 1 (w.map (compress 1))

/-- ML-KEM key generation: encapsulation key and decapsulation key. -/
def kemGen (p : Kem) (dseed z : List Byte) : List Byte × List Byte :=
  let (ek, dk) := kpkeGen p dseed
  (ek, dk ++ ek ++ sha3 256 ek ++ z)

/-- Encapsulation with the message m: shared secret and ciphertext. -/
def kemEncaps (p : Kem) (ek m : List Byte) : List Byte × List Byte :=
  let g := sha3 512 (m ++ sha3 256 ek)
  (g.take 32, kpkeEnc p ek m (g.drop 32))

/-- Decapsulation, with implicit rejection (R300). -/
def kemDecaps (p : Kem) (dk c : List Byte) : List Byte :=
  let n := 384 * p.k
  let ek := sliceB dk n (n + 32)
  let m := kpkeDec p (dk.take n) c
  let g := sha3 512 (m ++ sliceB dk (2 * n + 32) 32)
  if kpkeEnc p ek m (g.drop 32) = c then g.take 32 else shake 256 32 (sliceB dk (2 * n + 64) 32 ++ c)

/-- The hash check of FIPS 203 §7.3. -/
def kemKeyOk (p : Kem) (dk : List Byte) : Bool :=
  let n := 384 * p.k
  sha3 256 (sliceB dk n (n + 32)) == sliceB dk (2 * n + 32) 32

/-- The lowest-indexed coefficient of an encapsulation key that is not below q (R305). -/
def kemBadCoeff (p : Kem) (ek : List Byte) : Option Nat := (unpackVec 12 p.k ek).flatten.find? fun x => decide (3329 ≤ x)

/-! ### ML-DSA -/

/-- The parameters (FIPS 204): rows k, columns l, η, τ, bytes of c̃, ω. γ1 = 2^19 and γ2 = (q − 1) / 32 in both sets. -/
structure Dsa where
  k : Nat
  l : Nat
  eta : Nat
  tau : Nat
  cLen : Nat
  omega : Nat

def dsaOf (alg : Nat) : Dsa := if alg = 9 then ⟨6, 5, 4, 49, 48, 55⟩ else ⟨8, 7, 2, 60, 64, 75⟩

def qDsa : Nat := 8380417
def gamma1 : Nat := 2 ^ 19
def gamma2 : Nat := 261888
def Dsa.beta (p : Dsa) : Nat := p.tau * p.eta

/-- A coefficient's absolute value in its centred form. -/
def absMod (x : Nat) : Nat := Nat.min x (qDsa - x)

/-- Whether every coefficient is below a bound in absolute value. -/
def below (b : Nat) (vs : List Poly) : Bool := vs.all fun f => f.all fun x => decide (absMod x < b)

/-- 23-bit candidates below q (RejNTTPoly). -/
def rej23 : Nat → List Byte → List Nat
  | 0, _ => []
  | n + 1, bs =>
    match bs with
    | a :: b :: c :: rest =>
      let z := a.toNat + 256 * b.toNat + 65536 * (c.toNat % 128)
      (if z < qDsa then [z] else []) ++ rej23 n rest
    | _ => []

/-- Half-byte candidates (RejBoundedPoly). -/
def rejEta (eta : Nat) (bs : List Byte) : List Nat :=
  (bs.flatMap fun b => [b.toNat % 16, b.toNat / 16]).filterMap fun z =>
    if eta = 2 then (if z < 15 then some ((qDsa + 2 - z % 5) % qDsa) else none)
    else if z < 9 then some ((qDsa + 4 - z) % qDsa) else none

def Dsa.matrix (p : Dsa) (rho : List Byte) : List (List Poly) :=
  (List.range p.k).map fun r => (List.range p.l).map fun s =>
    (rej23 298 (shake 128 894 (rho ++ [BitVec.ofNat 8 s, BitVec.ofNat 8 r]))).take 256

def Dsa.small (p : Dsa) (seed : List Byte) (n : Nat) : Poly :=
  (rejEta p.eta (shake 256 481 (seed ++ leBytes 2 n))).take 256

/-- Packs b − w with `bits` bits each (BitPack); coefficients are modulo q. -/
def packSigned (b bits : Nat) (f : Poly) : List Byte := packBits bits (f.map fun x => (b + qDsa - x) % qDsa)
def unpackSigned (b bits : Nat) (bs : List Byte) : Poly := (unpackBits bits 256 bs).map fun x => (b + qDsa - x) % qDsa

/-- t as (t1, t0 modulo q) (Power2Round, d = 13). -/
def power2Round (x : Nat) : Nat × Nat :=
  let r := x % 8192
  if r ≤ 4096 then (x / 8192, r) else (x / 8192 + 1, (qDsa + r - 8192) % qDsa)

/-- The high part and the low part (signed) of Decompose. -/
def decomposeQ (x : Nat) : Nat × Int :=
  let m := 2 * gamma2
  let r := x % m
  let r0 : Int := if r ≤ gamma2 then r else (r : Int) - m
  if (x : Int) - r0 = qDsa - 1 then (0, r0 - 1) else ((((x : Int) - r0) / m).toNat, r0)

def highBits (x : Nat) : Nat := (decomposeQ x).1
def lowBits (x : Nat) : Int := (decomposeQ x).2

def useHint (h : Bool) (x : Nat) : Nat :=
  let (r1, r0) := decomposeQ x
  if !h then r1 else if 0 < r0 then (r1 + 1) % 16 else (r1 + 15) % 16

/-- The ball sample: rejection over the byte stream, position by position. -/
def ballStep : Nat → Nat → List Nat → List Byte → Poly → Poly
  | 0, _, _, _, c => c
  | _ + 1, _, [], _, c => c
  | n + 1, i, s :: ss, bs, c =>
    match bs with
    | [] => c
    | b :: rest =>
      if i < b.toNat then ballStep n i (s :: ss) rest c
      else ballStep n (i + 1) ss rest ((c.set i (c.getD b.toNat 0)).set b.toNat (if s = 1 then qDsa - 1 else 1))

def Dsa.ball (p : Dsa) (seed : List Byte) : Poly :=
  let h := shake 256 (8 + 512) seed
  ballStep 512 (256 - p.tau) (bitsLE p.tau (leNat (h.take 8))) (h.drop 8) Ring.zero

/-- An ML-DSA key from the seed ξ: public key and private key. -/
def Dsa.gen (p : Dsa) (xi : List Byte) : List Byte × List Byte :=
  let h := shake 256 128 (xi ++ [BitVec.ofNat 8 p.k, BitVec.ofNat 8 p.l])
  let rho := h.take 32
  let rho' := sliceB h 32 64
  let kk := sliceB h 96 32
  let s1 := (List.range p.l).map fun i => p.small rho' i
  let s2 := (List.range p.k).map fun i => p.small rho' (p.l + i)
  let t := List.zipWith dsaRing.add ((dsaRing.mat (p.matrix rho) (s1.map dsaRing.ntt)).map dsaRing.intt) s2
  let t1 := t.map fun f => f.map fun x => (power2Round x).1
  let t0 := t.map fun f => f.map fun x => (power2Round x).2
  let pk := rho ++ (t1.map (packBits 10)).flatten
  let w := if p.eta = 2 then 3 else 4
  (pk, rho ++ kk ++ shake 256 64 pk ++ ((s1 ++ s2).map (packSigned p.eta w)).flatten ++
    (t0.map (packSigned 4096 13)).flatten)

/-- μ of a message with its context (FIPS 204, pure ML-DSA). -/
def dsaMu (tr ctx msg : List Byte) : List Byte :=
  shake 256 64 (tr ++ [0#8, BitVec.ofNat 8 ctx.length] ++ ctx ++ msg)

/-- The hint positions, packed (HintBitPack). -/
def Dsa.packHint (p : Dsa) (h : List (List Nat)) : List Byte :=
  let flat := h.flatten
  let ends := (h.foldl (fun (acc : List Nat × Nat) x => (acc.1 ++ [acc.2 + x.length], acc.2 + x.length)) ([], 0)).1
  (flat ++ List.replicate (p.omega - flat.length) 0 ++ ends).map (BitVec.ofNat 8)

/-- The hint positions of a signature, or none where they are malformed (HintBitUnpack). -/
def Dsa.unpackHint (p : Dsa) (y : List Byte) : Option (List (List Nat)) :=
  let at_ := fun i => (y.getD i 0#8).toNat
  let r := (List.range p.k).foldl (fun (acc : Option (List (List Nat) × Nat)) i =>
    match acc with
    | none => none
    | some (hs, idx) =>
      let e := at_ (p.omega + i)
      if e < idx ∨ p.omega < e then none
      else
        let xs := (List.range (e - idx)).map fun j => at_ (idx + j)
        if (List.range (xs.length - 1)).any fun j => decide (xs.getD (j + 1) 0 ≤ xs.getD j 0) then none
        else some (hs ++ [xs], e)) (some ([], 0))
  match r with
  | none => none
  | some (hs, idx) => if (List.range (p.omega - idx)).any fun j => at_ (idx + j) != 0 then none else some hs

/-- One iteration of the signing loop: the signature of the candidate, if FIPS 204 accepts it. -/
def Dsa.attempt (p : Dsa) (a : List (List Poly)) (s1 s2 t0 : List Poly) (mu rho' : List Byte) (kappa : Nat) :
    Option (List Byte) :=
  let y := (List.range p.l).map fun r => unpackSigned gamma1 20 (shake 256 640 (rho' ++ leBytes 2 (kappa + r)))
  let w := (dsaRing.mat a (y.map dsaRing.ntt)).map dsaRing.intt
  let ct := shake 256 p.cLen (mu ++ (w.map fun f => packBits 4 (f.map highBits)).flatten)
  let c := dsaRing.ntt (p.ball ct)
  let times := fun v : List Poly => v.map fun f => dsaRing.intt (dsaRing.mul c f)
  let z := List.zipWith dsaRing.add y (times s1)
  let r := List.zipWith dsaRing.sub w (times s2)
  if !below (gamma1 - p.beta) z || !(r.all fun f => f.all fun x => decide ((lowBits x).natAbs < gamma2 - p.beta)) then none
  else
    let ct0 := times t0
    let r' := List.zipWith dsaRing.add r ct0
    -- MakeHint(−ct0, w − cs2 + ct0): the positions whose high bits differ
    let hint := (List.zipWith (fun f g => (f.zip g).zipIdx.filterMap fun (x, i) =>
      if highBits x.1 ≠ highBits x.2 then some i else none) r' r)
    if !below gamma2 ct0 || decide (p.omega < (hint.map (·.length)).sum) then none
    else some (ct ++ (z.map (packSigned gamma1 20)).flatten ++ p.packHint hint)

/-- The first candidate accepted among the next `n` iterations (R299). -/
def Dsa.loop (p : Dsa) (a : List (List Poly)) (s1 s2 t0 : List Poly) (mu rho' : List Byte) : Nat → Nat → Option (List Byte)
  | 0, _ => none
  | n + 1, kappa =>
    match p.attempt a s1 s2 t0 mu rho' kappa with
    | some s => some s
    | none => p.loop a s1 s2 t0 mu rho' n (kappa + p.l)

/-- Hedged signing: 128 iterations (R299). -/
def Dsa.sign (p : Dsa) (sk ctx msg rnd : List Byte) : Option (List Byte) :=
  let w := if p.eta = 2 then 3 else 4
  let s := (List.range (p.l + p.k)).map fun i => unpackSigned p.eta w (sliceB sk (128 + 32 * w * i) (32 * w))
  let t0 := (List.range p.k).map fun i => unpackSigned 4096 13 (sliceB sk (128 + 32 * w * (p.l + p.k) + 416 * i) 416)
  let mu := dsaMu (sliceB sk 64 64) ctx msg
  let rho' := shake 256 64 (sliceB sk 32 32 ++ rnd ++ mu)
  let n := fun v : List Poly => v.map dsaRing.ntt
  p.loop (p.matrix (sk.take 32)) (n (s.take p.l)) (n (s.drop p.l)) (n t0) mu rho' 128 0

/-- Verification of a signature whose hint decodes. -/
def Dsa.verify (p : Dsa) (pk sig ctx msg : List Byte) (hint : List (List Nat)) : Bool :=
  let rho := pk.take 32
  let t1 := (List.range p.k).map fun i => (unpackBits 10 256 (sliceB pk (32 + 320 * i) 320)).map (· * 8192 % qDsa)
  let ct := sig.take p.cLen
  let z := (List.range p.l).map fun i => unpackSigned gamma1 20 (sliceB sig (p.cLen + 640 * i) 640)
  let mu := dsaMu (shake 256 64 pk) ctx msg
  let c := dsaRing.ntt (p.ball ct)
  let az := dsaRing.mat (p.matrix rho) (z.map dsaRing.ntt)
  let w := List.zipWith (fun x t => dsaRing.intt (dsaRing.sub x (dsaRing.mul c (dsaRing.ntt t)))) az t1
  let w1 := List.zipWith (fun f h => (f.zipIdx).map fun (x, i) => useHint (h.contains i) x) w hint
  below (gamma1 - p.beta) z && shake 256 p.cLen (mu ++ (w1.map (packBits 4)).flatten) == ct

end Sys2Proof.Machine
end

