-- ==== Sys2Proof/Machine/Lms.lean ====
section
/-!
DEFINITION. Verification of LMS and HSS signatures with the SHA-256 parameter sets of n = 32 (RFC 8554, NIST SP 800-208;
R288, R305).
-/

namespace Sys2Proof.Machine

/-- The height of an LMS type code: LMS_SHA256_M32_H5 to H25. -/
def lmsHeight (t : Nat) : Option Nat := if 5 ≤ t ∧ t ≤ 9 then some (5 * (t - 4)) else none

/-- Width w, chains p and checksum shift ls of an LM-OTS type code. -/
def otsParams : Nat → Option (Nat × Nat × Nat)
  | 1 => some (1, 265, 7) | 2 => some (2, 133, 6) | 3 => some (4, 67, 4) | 4 => some (8, 34, 0) | _ => none

/-- One LMS public key: type, LM-OTS type, I, T. -/
structure LmsPub where
  typ : Nat
  ots : Nat
  i : List Byte
  t : List Byte

def lmsPub (bs : List Byte) : LmsPub := ⟨beNat (bs.take 4), beNat (sliceB bs 4 4), sliceB bs 8 16, sliceB bs 24 32⟩

/-- Whether both type codes of a public key are known. -/
def LmsPub.known (k : LmsPub) : Bool := (lmsHeight k.typ).isSome && (otsParams k.ots).isSome

def LmsPub.h (k : LmsPub) : Nat := (lmsHeight k.typ).getD 0
def LmsPub.params (k : LmsPub) : Nat × Nat × Nat := (otsParams k.ots).getD (1, 0, 0)

/-- The length of an LMS signature under a key. -/
def LmsPub.sigLen (k : LmsPub) : Nat := 12 + 32 * (k.params.2.1 + 1) + 32 * k.h

/-- SHA-256 compressions that a key's parameter sets call for: 34 × 255 + 25 + 4 for W8 and H25 (R298). -/
def LmsPub.compressions (k : LmsPub) : Nat := k.params.2.1 * (2 ^ k.params.1 - 1) + k.h + 4

/-- Coefficient `i` of width `w` of a byte string (RFC 8554, coef). -/
def lmsCoef (s : List Byte) (i w : Nat) : Nat :=
  ((s.getD (i * w / 8) 0#8).toNat / 2 ^ (8 - (w * (i % (8 / w)) + w))) % 2 ^ w

/-- A hash chain from step `a`, `n` steps. -/
def lmsChain (pre : List Byte) : Nat → Nat → List Byte → List Byte
  | 0, _, x => x
  | n + 1, a, x => lmsChain pre n (a + 1) (sha256 (pre ++ [BitVec.ofNat 8 a] ++ x))

/-- The LM-OTS public key candidate of a signature (RFC 8554, algorithm 4b). -/
def otsCandidate (k : LmsPub) (q : Nat) (sig msg : List Byte) : List Byte :=
  let (w, p, ls) := k.params
  let pre := k.i ++ beBytes 4 q
  let qh := sha256 (pre ++ [0x81#8, 0x81#8] ++ sliceB sig 4 32 ++ msg)
  let sum := ((List.range (256 / w)).map fun i => 2 ^ w - 1 - lmsCoef qh i w).sum
  let s := qh ++ beBytes 2 (sum * 2 ^ ls)
  let z := (List.range p).map fun i =>
    let a := lmsCoef s i w
    lmsChain (pre ++ beBytes 2 i) (2 ^ w - 1 - a) a (sliceB sig (36 + 32 * i) 32)
  sha256 (pre ++ [0x80#8, 0x80#8] ++ z.flatten)

/-- The root reached from a node over its path. -/
def lmsRoot (i : List Byte) : List (List Byte) → Nat → List Byte → List Byte
  | [], _, x => x
  | s :: path, node, x =>
    let pre := i ++ beBytes 4 (node / 2) ++ [0x83#8, 0x83#8]
    lmsRoot i path (node / 2) (sha256 (if node % 2 = 1 then pre ++ s ++ x else pre ++ x ++ s))

/-- Whether an LMS signature of a message is valid (RFC 8554, algorithm 6). -/
def lmsOk (k : LmsPub) (sig msg : List Byte) : Bool :=
  let q := beNat (sig.take 4)
  let ots := sliceB sig 4 (4 + 32 * (k.params.2.1 + 1))
  let off := 12 + 32 * (k.params.2.1 + 1)
  let node := 2 ^ k.h + q
  let leaf := sha256 (k.i ++ beBytes 4 node ++ [0x82#8, 0x82#8] ++ otsCandidate k q ots msg)
  lmsRoot k.i ((List.range k.h).map fun j => sliceB sig (off + 32 * j) 32) node leaf == k.t

/-- A level of an HSS signature: its key, its signature, and the message it signs (none at the last level, which signs the
job's message). -/
structure HssLevel where
  key : LmsPub
  sig : List Byte
  msg : Option (List Byte)

/-- The levels of an HSS signature, read with `rd off len`, from the key of its first; none where it is malformed. -/
def hssLevels (rd : Nat → Nat → List Byte) : Nat → Nat → LmsPub → Option (List HssLevel × Nat)
  | 0, _, _ => none
  | n + 1, off, k =>
    if !k.known then none
    else
      let sig := rd off k.sigLen
      -- the type codes inside the signature are those of its key
      if beNat (sliceB sig 4 4) ≠ k.ots ∨ beNat (sliceB sig (8 + 32 * (k.params.2.1 + 1)) 4) ≠ k.typ then none
      else if n = 0 then some ([⟨k, sig, none⟩], off + k.sigLen)
      else
        let nx := rd (off + k.sigLen) 56
        match hssLevels rd n (off + k.sigLen + 56) (lmsPub nx) with
        | none => none
        | some (ls, e) => some (⟨k, sig, some nx⟩ :: ls, e)

/-- How many bytes of an HSS signature are known to be read, from the bytes of it at hand: each key names the length of the next level,
and a structure that is found malformed asks for no more (R289, R305). -/
def hssSpan (sig : List Byte) : Nat → Nat → LmsPub → Nat
  | 0, off, _ => off
  | n + 1, off, k =>
    if !k.known then off
    else
      let s := sliceB sig off k.sigLen
      let stop := off + k.sigLen
      if sig.length < stop then stop
      else if beNat (sliceB s 4 4) ≠ k.ots ∨ beNat (sliceB s (8 + 32 * (k.params.2.1 + 1)) 4) ≠ k.typ ∨ n = 0 then stop
      else if sig.length < stop + 56 then stop + 56
      else hssSpan sig n (stop + 56) (lmsPub (sliceB sig stop 56))

/-- The same from the HSS public key (60 bytes: the level count, then an LMS key) and the level count of the signature. -/
def hssNeed (key sig : List Byte) : Nat :=
  let lv := beNat (key.take 4)
  if key.length < 60 ∨ sig.length < 4 ∨ lv = 0 ∨ 8 < lv ∨ beNat (sig.take 4) + 1 ≠ lv then 4
  else hssSpan sig lv 4 (lmsPub (key.drop 4))

/-- Whether every level of an HSS signature is valid. -/
def hssOk (msg : List Byte) (ls : List HssLevel) : Bool := ls.all fun l => lmsOk l.key l.sig (l.msg.getD msg)

end Sys2Proof.Machine
end

