-- ==== Sys2Proof/Machine/PkeOps.lean ====
section
/-!
DEFINITION. The public-key units: job blocks, refusals, dispatch, the operations with their validation of public inputs
and their fixed cycles (chapter Public-Key Units).
-/

namespace Sys2Proof.Machine

/-! ### Job blocks (R293) -/

def pkOp (b : List Byte) : Nat := fieldLE b 0 1
def pkAlg (b : List Byte) : Nat := fieldLE b 1 1
def pkAttest (b : List Byte) : Bool := bitOf (fieldLE b 2 1) 0
def pkNoZero (b : List Byte) : Bool := bitOf (fieldLE b 2 1) 1
def pkKwk (b : List Byte) : Nat := bitsOf (fieldLE b 4 4) 0 20
def pkInLen (b : List Byte) : Nat := fieldLE b 8 4
def pkOutLen (b : List Byte) : Nat := fieldLE b 12 4
def pkKeyAddr (b : List Byte) : Nat := fieldLE b 16 8
def pkIn (b : List Byte) : Nat := fieldLE b 24 8
def pkIn2 (b : List Byte) : Nat := fieldLE b 32 8
def pkOut (b : List Byte) : Nat := fieldLE b 40 8
def pkOut2 (b : List Byte) : Nat := fieldLE b 48 8
def pkCtxLen (b : List Byte) : Nat := fieldLE b 56 2
def pkKeyLen (b : List Byte) : Nat := fieldLE b 60 4

/-! ### Statuses (R295) -/

def pkOk : Nat := 0x00
def pkDenied : Nat := 0x07
def pkBadOpcode : Nat := 0x08
def pkNotReady : Nat := 0x0A
def pkBadEntry : Nat := 0x0B
def pkAuthFail : Nat := 0x20
def pkBadLen : Nat := 0x22
def pkBadKey : Nat := 0x23
def pkTimeout : Nat := 0x24
def pkInputZero : Nat := 0x30
def pkInputEq : Nat := 0x31
def pkInputAbove : Nat := 0x32
def pkNotOnCurve : Nat := 0x33
def pkInfinity : Nat := 0x34
def pkVerifyFail : Nat := 0x35
def pkZeroShared : Nat := 0x36
def pkNoCandidate : Nat := 0x37
def pkBadEncoding : Nat := 0x38
def pkBadPubkey : Nat := 0x39
def pkUnitError : Nat := 0x3A

/-! ### Sizes (R289, R290) -/

def isEc (a : Nat) : Bool := decide (1 ≤ a) && decide (a ≤ 3)
def isKem (a : Nat) : Bool := a == 7 || a == 8
def isDsa (a : Nat) : Bool := a == 9 || a == 10

/-- Private key material of an algorithm other than RSA. -/
def privLen (a : Nat) : Nat :=
  match a with
  | 1 => 32 | 2 => 48 | 3 => 66 | 4 => 32 | 5 => 32 | 7 => 2400 | 8 => 3168 | 9 => 4032 | 10 => 4896 | _ => 0

def pubLen (a : Nat) : Nat :=
  match a with
  | 1 => 64 | 2 => 96 | 3 => 132 | 4 => 32 | 5 => 32 | 7 => 1184 | 8 => 1568 | 9 => 1952 | 10 => 2592 | 11 => 60 | _ => 0

def sigLen (a : Nat) : Nat :=
  match a with
  | 1 => 64 | 2 => 96 | 3 => 132 | 5 => 64 | 7 => 1088 | 8 => 1568 | 9 => 3309 | 10 => 4627 | _ => 0

/-- The shared secret. -/
def secretLen (a : Nat) : Nat :=
  match a with
  | 1 => 32 | 2 => 48 | 3 => 66 | 4 => 32 | 7 => 32 | 8 => 32 | _ => 0

/-- Whether an RSA modulus of `k` bits is implemented. -/
def rsaBits (k : Nat) : Bool := decide (2048 ≤ k) && decide (k ≤ 8192) && k % 64 == 0

/-- The modulus that `n` bytes of RSA private material belong to. -/
def rsaOfPriv (n : Nat) : Nat := (n - 8) * 16 / 5

/-- Whether `n` bytes is the private key material of an algorithm. -/
def privLenOk (a n : Nat) : Bool :=
  if a = 6 then decide (8 ≤ n) && rsaBits (rsaOfPriv n) && n == 8 + 5 * rsaOfPriv n / 16 else n == privLen a

/-- The length of a blob of `n` bytes of material. -/
def blobLen (n : Nat) : Nat := 24 + ceilDiv n 8 * 8

/-- A blob (R290). -/
def pkBlob (kwk : List Byte) (alg owner : Nat) (key : List Byte) : List Byte :=
  let hdr := leBytes 8 (alg + owner * 2 ^ 16 + key.length * 2 ^ 32)
  hdr ++ keyWrap kwk (hdr ++ key ++ List.replicate (ceilDiv key.length 8 * 8 - key.length) 0#8)

/-- The material of a blob, none where its integrity check fails or its headers differ. -/
def pkUnblob (kwk blob : List Byte) : Option (List Byte) :=
  match keyUnwrap kwk (blob.drop 8) with
  | none => none
  | some x => if x.take 8 = blob.take 8 then some (sliceB x 8 (fieldLE blob 4 4)) else none

/-! ### Opcodes (R294) -/

/-- Whether the table of R294 lists an opcode with an ALG. -/
def pkListed (op a : Nat) : Bool :=
  match op with
  | 0x80 => decide (1 ≤ a) && decide (a ≤ 10) && a != 6
  | 0x81 => decide (1 ≤ a) && decide (a ≤ 10)
  | 0x82 => isEc a || a == 5 || isDsa a
  | 0x83 => isEc a || a == 5 || isDsa a || a == 11
  | 0x84 => decide (1 ≤ a) && decide (a ≤ 4)
  | 0x85 => a == 6
  | 0x86 => a == 6
  | 0x87 => isKem a
  | 0x88 => isKem a
  | _ => false

/-- Whether a job takes its key from a blob. -/
def takesBlob (b : List Byte) : Bool :=
  let op := pkOp b
  (op == 0x82 && !pkAttest b) || op == 0x84 || op == 0x86 || op == 0x88

/-- Whether a job names a key-wrapping context. -/
def namesKwk (b : List Byte) : Bool := takesBlob b || pkOp b == 0x80 || pkOp b == 0x81

/-- The message length D: what IN_LEN leaves beyond the context string. -/
def pkMsgLen (b : List Byte) : Nat := if isDsa (pkAlg b) then pkInLen b - pkCtxLen b else pkInLen b

/-- Bytes at IN2_ADDR; an HSS signature's length is its own. -/
def pkIn2Len (b : List Byte) : Nat :=
  if pkOp b = 0x83 then sigLen (pkAlg b) else if pkOp b = 0x84 then pubLen (pkAlg b) else 0

/-- Bytes at KEY_ADDR. -/
def pkKeyBytes (b : List Byte) : Nat :=
  let op := pkOp b
  if op == 0x83 && pkAlg b == 11 then Nat.min 60 (pkKeyLen b)
  else if takesBlob b || op == 0x83 || op == 0x85 || op == 0x87 then pkKeyLen b else 0

/-- Bytes at IN_ADDR. -/
def pkInBytes (b : List Byte) : Nat :=
  let op := pkOp b
  if op = 0x80 ∨ op = 0x84 ∨ op = 0x87 then 0 else pkInLen b

/-- Bytes written at OUT_ADDR and OUT2_ADDR by a job that ends OK. -/
def pkOutSizes (b : List Byte) : Nat × Nat :=
  let a := pkAlg b
  match pkOp b with
  | 0x80 => (pubLen a, blobLen (privLen a))
  | 0x81 => (0, blobLen (pkInLen b))
  | 0x82 => (sigLen a, 0)
  | 0x84 => (secretLen a, 0)
  | 0x85 => (pkInLen b, 0)
  | 0x86 => (pkInLen b, 0)
  | 0x87 => (32, sigLen a)
  | 0x88 => (32, 0)
  | _ => (0, 0)

/-- Two byte ranges overlap. -/
def rangesMeet (x y : Nat × Nat) : Bool := x.2 != 0 && y.2 != 0 && decide (x.1 < y.1 + y.2) && decide (y.1 < x.1 + x.2)

/-- The lengths of a job that R289 and R295 refuse. `hdr` is a blob's plain header. -/
def pkBadLens (b hdr : List Byte) : Bool :=
  let a := pkAlg b
  let op := pkOp b
  let mat := fieldLE hdr 4 4
  let (o1, o2) := pkOutSizes b
  let outs := [(pkOut b, o1), (pkOut2 b, o2)]
  let ins := [(pkKeyAddr b, pkKeyBytes b), (pkIn b, pkInBytes b), (pkIn2 b, pkIn2Len b)]
  (takesBlob b && fieldLE hdr 0 1 == a && (!privLenOk a mat || pkKeyLen b != blobLen mat)) ||
  ((op == 0x83 || op == 0x87) && a != 11 && pkKeyLen b != pubLen a) ||
  (op == 0x85 && !(decide (8 ≤ pkKeyLen b) && rsaBits ((pkKeyLen b - 8) * 8) && pkInLen b == pkKeyLen b - 8)) ||
  (op == 0x86 && fieldLE hdr 0 1 == 6 && pkInLen b != rsaOfPriv mat / 8) ||
  (op == 0x88 && pkInLen b != sigLen a) ||
  (op == 0x81 && !privLenOk a (pkInLen b)) ||
  ((op == 0x82 || op == 0x83) && isEc a && (pkInLen b == 0 || decide (66 < pkInLen b))) ||
  ((op == 0x82 || op == 0x83) && isDsa a && (decide (255 < pkCtxLen b) || decide (pkInLen b < pkCtxLen b))) ||
  ((op == 0x82 || op == 0x83) && decide (65536 < pkMsgLen b)) ||
  decide (pkOutLen b < o1) ||
  (outs.any fun o => ins.any fun i => rangesMeet o i)

/-! ### Cycles (R298, R302) -/

/-- The SHA-512 cost of x bytes. -/
def shaCost (x : Nat) : Nat := 80 * ((x + 16) / 128 + 1)
/-- The SHAKE256 cost of an ML-DSA message. -/
def shakeCost (b : List Byte) : Nat := 24 * ((66 + pkInLen b) / 136 + 1)

/-- The length in bits of a number. -/
def bitLen (x : Nat) : Nat := if x = 0 then 0 else Nat.log2 x + 1

/-- The cycles of a job that passes validation. `mat` is the blob's material length, `e` the RSA public exponent, `comp`
the compressions of an LMS or HSS signature. -/
def pkCycles (b : List Byte) (mat e comp : Nat) : Nat :=
  let a := pkAlg b
  let op := pkOp b
  let pick3 := fun x y z => if a = 1 then x else if a = 2 then y else z
  match op with
  | 0x80 =>
    if isEc a then pick3 270000 600000 1350000
    else if a = 4 then 240000 else if a = 5 then 180000
    else if a = 7 then 90000 else if a = 8 then 140000 else if a = 9 then 120000 else 170000
  | 0x81 =>
    if a ≤ 5 then 5000
    else if a = 6 then 40 * (rsaOfPriv (pkInLen b) / 64) ^ 2
    else if isKem a then 20000 else 10000
  | 0x82 =>
    if isEc a then pick3 300000 660000 1500000
    else if a = 5 then 250000 + shaCost (32 + pkInLen b) + shaCost (64 + pkInLen b)
    else (if a = 9 then 3990000 else 5320000) + shakeCost b
  | 0x83 =>
    if isEc a then pick3 390000 870000 1950000
    else if a = 5 then 330000 + shaCost (64 + pkInLen b)
    else if a = 11 then 2000 + 64 * comp
    else (if a = 9 then 180000 else 270000) + shakeCost b
  | 0x84 => if isEc a then pick3 300000 660000 1500000 else 240000
  | 0x85 => 6 * (pkInLen b / 8) ^ 2 * (bitLen e + popCount e - 2) + 2000
  | 0x86 => 183 * (rsaOfPriv mat / 64) ^ 3
  | 0x87 => if a = 7 then 110000 else 165000
  | _ => if a = 7 then 140000 else 205000

/-- V: the cycles of a rejected job (R302). -/
def pkReject (b : List Byte) : Nat :=
  let a := pkAlg b
  if isEc a then (if a = 1 then 1200 else if a = 2 then 1800 else 2600)
  else if a = 5 then 1500
  else if a = 6 then 400 + 4 * (pkInLen b / 8)
  else if isKem a then (if a = 7 then 3000 else 4000)
  else if isDsa a then (if a = 9 then 2000 else 2600)
  else 400

/-- The cycles of a blob's unwrap, counted outside CYCLES. -/
def unwrapCycles (mat : Nat) : Nat := 84 * (ceilDiv mat 8 + 1)

/-- What the dispatcher charges before it knows e or the signature: the greatest they allow (R371, notes/assumptions/30). -/
def pkCharge (b hdr : List Byte) : Nat := pkCycles b (fieldLE hdr 4 4) (2 ^ 64 - 1) 69592

/-! ### The operations -/

/-- What a started job answers. -/
structure PkRes where
  status : Nat
  failed : Nat
  cycles : Nat
  out : List Byte
  out2 : List Byte

/-- Where a number meets a bound: equal or above (R303, R304). -/
def rangeFail (x bound : Nat) : Option Nat :=
  if x = bound then some pkInputEq else if bound < x then some pkInputAbove else none

/-- The first failing check. -/
def firstFail (cs : List (Option Nat)) : Option Nat := cs.findSome? id

/-- The checks of a NIST public point (R303). -/
def pointCheck (c : Curve) (bs : List Byte) : Option Nat :=
  let x := beNat (bs.take c.len)
  let y := beNat (bs.drop c.len)
  firstFail [rangeFail x c.p, rangeFail y c.p, if x = 0 ∧ y = 0 then some pkInfinity else none,
    if c.on x y then none else some pkNotOnCurve]

/-- The checks of a signature value r or s (R303). -/
def scalarCheck (x n : Nat) : Option Nat := if x = 0 then some pkInputZero else rangeFail x n

/-- A PK_VERIFY that passed its input checks. -/
def verified (ok : Bool) : Nat := if ok then pkOk else pkVerifyFail

/-- Public inputs of PK_VERIFY: the failing input and its status, or the outcome. `rd2` reads at IN2_ADDR; the last value is
the compressions of an HSS signature. -/
def pkVerify (b key inn : List Byte) (rd2 : Nat → Nat → List Byte) : Except (Nat × Nat) (Nat × Nat) :=
  let a := pkAlg b
  let sig := rd2 0 (sigLen a)
  if isEc a then
    let c := curveOf a
    let r := beNat (sig.take c.len)
    let s := beNat (sig.drop c.len)
    match pointCheck c key, firstFail [scalarCheck r c.n, scalarCheck s c.n] with
    | some st, _ => .error (1, st)
    | none, some st => .error (3, st)
    | none, none => .ok (verified (c.ecdsaOk (beNat (key.take c.len), beNat (key.drop c.len)) r s inn), 0)
  else if a = 5 then
    let (ya, sa) := edY key
    let (yr, sr) := edY (sig.take 32)
    let onC := fun y s => if (edRecover y s).isSome then none else some pkNotOnCurve
    let neutral := if ya = 1 ∧ sa = 0 then some pkInfinity else none
    match firstFail [rangeFail ya p25519, neutral, onC ya sa],
        firstFail [rangeFail yr p25519, rangeFail (leNat (sig.drop 32)) l25519, onC yr sr] with
    | some st, _ => .error (1, st)
    | none, some st => .error (3, st)
    | none, none =>
      .ok (verified (edOk key sig inn (edPoint ((edRecover ya sa).getD 0) ya) (edPoint ((edRecover yr sr).getD 0) yr)), 0)
  else if a = 11 then
    let lv := beNat (key.take 4)
    let k := lmsPub (key.drop 4)
    if pkKeyLen b ≠ 60 ∨ lv = 0 ∨ 8 < lv ∨ k.known = false then .error (1, pkBadEncoding)
    else if beNat (rd2 0 4) + 1 ≠ lv then .error (3, pkBadEncoding)
    else match hssLevels rd2 lv 4 k with
      | none => .error (3, pkBadEncoding)
      | some (ls, _) =>
        match firstFail (ls.map fun l => rangeFail (beNat (l.sig.take 4)) (2 ^ l.key.h)) with
        | some st => .error (3, st)
        | none => .ok (verified (hssOk inn ls), (ls.map fun l => l.key.compressions).sum)
  else
    let p := dsaOf a
    match p.unpackHint (sig.drop (p.cLen + 640 * p.l)) with
    | none => .error (3, pkBadEncoding)
    | some h => .ok (verified (p.verify key sig (inn.take (pkCtxLen b)) (inn.drop (pkCtxLen b)) h), 0)

/-- A scalar in [1, n − 1] from random bytes. -/
def drawScalar (n : Nat) (rnd : Nat → List Byte) : Nat := 1 + leNat (rnd 80) % (n - 1)

/-- Key generation: public key and private material. -/
def pkKeygen (a : Nat) (rnd : Nat → List Byte) : List Byte × List Byte :=
  if isEc a then
    let c := curveOf a
    let k := drawScalar c.n rnd
    (c.encode (c.mul k c.g), beBytes c.len k)
  else if a = 4 then let k := rnd 32; (x25519 k (leBytes 32 9), k)
  else if a = 5 then let k := rnd 32; (edPublic k, k)
  else if isKem a then let r := rnd 64; kemGen (kemOf a) (r.take 32) (r.drop 32)
  else (dsaOf a).gen (rnd 32)

/-- Whether private material is valid (R291). -/
def privOk (a : Nat) (m : List Byte) : Bool :=
  if isEc a then decide (1 ≤ beNat m) && decide (beNat m < (curveOf a).n)
  else if a = 6 then (rsaKey (rsaOfPriv m.length) m).ok (rsaOfPriv m.length)
  else if isKem a then kemKeyOk (kemOf a) m
  else true

/-- PK_SIGN: the signature; none where no candidate was accepted, an empty one where the check of R300 fails. -/
def pkSign (b key inn : List Byte) (rnd : Nat → List Byte) : Nat × List Byte :=
  let a := pkAlg b
  if isEc a then
    let c := curveOf a
    let dk := beNat key
    match c.ecdsa dk (drawScalar c.n rnd) inn with
    | none => (pkNoCandidate, [])
    | some (r, s) =>
      match c.mul dk c.g with
      | some q => if c.ecdsaOk q r s inn then (pkOk, beBytes c.len r ++ beBytes c.len s) else (pkUnitError, [])
      | none => (pkUnitError, [])
  else if a = 5 then (pkOk, edSign key inn)
  else match (dsaOf a).sign key (inn.take (pkCtxLen b)) (inn.drop (pkCtxLen b)) (rnd 32) with
    | some s => (pkOk, s)
    | none => (pkNoCandidate, [])

/-- The checks of an RSA public key and of a representative (R304). -/
def rsaPubCheck (e n k : Nat) : Option Nat :=
  if n % 2 = 0 ∨ n < 2 ^ (k - 1) ∨ e % 2 = 0 ∨ e < 3 ∨ n ≤ e then some pkBadPubkey else none

/-- A started job's result from its bytes: the key (public, or a blob's material), IN, a reader of IN2, random bytes. The
result lacks the blob that a key generation or an import writes: it is given as its material in `out2`. -/
def pkRun (b key inn : List Byte) (rd2 : Nat → Nat → List Byte) (rnd : Nat → List Byte) : PkRes :=
  let a := pkAlg b
  let full := pkCycles b key.length (beNat (key.take 8)) 0
  let rej := fun (f st : Nat) => (⟨st, f, pkReject b, [], []⟩ : PkRes)
  match pkOp b with
  | 0x80 => let k := pkKeygen a rnd; ⟨pkOk, 0, full, k.1, k.2⟩
  | 0x81 => if privOk a inn then ⟨pkOk, 0, full, [], inn⟩ else ⟨pkBadEntry, 0, full, [], []⟩
  | 0x82 => let s := pkSign b key inn rnd; ⟨s.1, 0, full, s.2, []⟩
  | 0x83 =>
    match pkVerify b key inn rd2 with
    | .error (f, st) => rej f st
    | .ok (st, comp) => ⟨st, 0, pkCycles b 0 0 comp, [], []⟩
  | 0x84 =>
    let peer := rd2 0 (pubLen a)
    if a = 4 then
      let s := x25519 key peer
      if leNat s = 0 ∧ pkNoZero b = false then ⟨pkZeroShared, 0, full, [], []⟩ else ⟨pkOk, 0, full, s, []⟩
    else
      let c := curveOf a
      match pointCheck c peer with
      | some st => rej 3 st
      | none =>
        match c.mul (beNat key) (some (beNat (peer.take c.len), beNat (peer.drop c.len))) with
        | some q => ⟨pkOk, 0, full, beBytes c.len q.1, []⟩
        | none => ⟨pkUnitError, 0, full, [], []⟩
  | 0x85 =>
    let k := inn.length
    let e := beNat (key.take 8)
    let n := beNat (key.drop 8)
    let x := beNat inn
    match rsaPubCheck e n (8 * k), firstFail [if x = 0 then some pkInputZero else none, rangeFail x n] with
    | some st, _ => rej 1 st
    | none, some st => rej 2 st
    | none, none => ⟨pkOk, 0, full, beBytes k (powMod x e n), []⟩
  | 0x86 =>
    let k := rsaKey (rsaOfPriv key.length) key
    let n := k.p * k.q
    let x := beNat inn
    match firstFail [if x = 0 then some pkInputZero else none, rangeFail x n] with
    | some st => rej 2 st
    | none =>
      let y := k.priv x
      if powMod y k.e n = x then ⟨pkOk, 0, full, beBytes inn.length y, []⟩ else ⟨pkUnitError, 0, full, [], []⟩
  | 0x87 =>
    match kemBadCoeff (kemOf a) key with
    | some x => rej 1 (if x = 3329 then pkInputEq else pkInputAbove)
    | none => let r := kemEncaps (kemOf a) key (rnd 32); ⟨pkOk, 0, full, r.1, r.2⟩
  | _ => ⟨pkOk, 0, full, kemDecaps (kemOf a) key inn, []⟩

/-! ### Keys from the device unique secret (R442) -/

/-- "HDM-ATTEST-EC-1", "HDM-ATTEST-MLDSA-1". -/
def labelEc : List Byte := beBytes 15 0x48444D2D4154544553542D45432D31
def labelDsa : List Byte := beBytes 18 0x48444D2D4154544553542D4D4C4453412D31

/-- The attestation private keys: P-384 d, and the ML-DSA-65 private key. -/
def attestEc (secret : List Byte) : Nat := beNat (kdf secret labelEc 56) % (p384.n - 1) + 1
def attestDsa (secret : List Byte) : List Byte × List Byte := (dsaOf 9).gen (kdf secret labelDsa 32)

namespace Dev

def setPke (d : Dev) (f : PkeState → PkeState) : Dev := { d with pke := f d.pke }
def pkeUnit (d : Dev) (u : Nat) : Option PkeRun := tabGet (fun _ => none) d.pke.units u

/-- An idle public-key unit whose SKIP bit is set leaves service, and its self-test begins (R464). -/
def pkeLeave (d : Dev) (u : Nat) : Dev :=
  let on : Fld := ⟨PKE_STATUS, PKE_STATUS_IN_SERVICE.lo + u, 1⟩
  if bitOf (d.get RAS_PKE_SKIP_SKIP) u && d.flag on then
    { d with ras := { d.ras with pkeTest := tabSet (fun _ => none) d.ras.pkeTest u (some d.cycle) } }.put on 0
  else d

/-- Sets a unit; PKE_STATUS.BUSY follows. -/
def setPkeUnit (d : Dev) (u : Nat) (r : Option PkeRun) : Dev :=
  let d := d.setPke fun s => { s with units := tabSet (fun _ => none) s.units u r }
  let d := d.put PKE_STATUS_BUSY d.pke.units.length
  if r.isNone then d.pkeLeave u else d

/-- Whether a unit is in service (R297, R464). -/
def pkeInService (d : Dev) (u : Nat) : Bool :=
  bitOf (d.get PKE_STATUS_IN_SERVICE) u && !bitOf (d.get RAS_PKE_SKIP_SKIP) u

/-- Answers a job: its outputs, then bytes 96–127 of the block (R293), and the counters of R307. -/
def pkAnswer (d : Dev) (u : Nat) (j : Job) (r : PkRes) (parts : List (Nat × List Byte)) : Dev :=
  let d := d.inc (if r.status = pkOk then PKE_CNT_JOBS_OK else PKE_CNT_JOBS_FAIL)
  let d := if r.status = pkVerifyFail then d.inc PKE_CNT_VERIFY_FAIL
    else if r.status = pkZeroShared then d.inc PKE_CNT_ZERO_SHARED
    else if r.status = pkNoCandidate then
      ((d.inc PKE_CNT_NO_CANDIDATE).setEvent PKE_EVENT_NO_CANDIDATE).put PKE_EVENT_UNIT_UNIT u
    else if r.status = pkTimeout then (d.inc PKE_CNT_TIMEOUT).setEvent PKE_EVENT_TIMEOUT
    else if r.status = pkUnitError then
      (((d.inc PKE_CNT_UNIT_ERROR).setEvent PKE_EVENT_UNIT_ERROR).put PKE_EVENT_UNIT_UNIT u).rasError
        { RasErr.of 0x14 u .uc 0 with owner := issuerOf j }
    else d
  let d := if r.failed ≠ 0 then d.inc PKE_CNT_INPUT_REJECT else d
  let tail := [BitVec.ofNat 8 r.status, 0#8, BitVec.ofNat 8 r.failed, 0#8] ++ leBytes 4 r.cycles ++
    leBytes 4 r.out.length ++ List.replicate 20 0#8
  let parts := if r.status = pkOk then parts.filter fun p => !p.2.isEmpty else []
  match j.sto with
  | some x => d.stoAnswer j x r.status (parts.flatMap (·.2))
  | none => (d.closeFeed j).finishJob j parts [(96, tail)] r.status

/-- A refusal before any unit starts the job: CYCLES 0. -/
def pkRefuse (d : Dev) (j : Job) (st : Nat) : Dev := d.pkAnswer 0 j ⟨st, 0, 0, [], []⟩ []

/-- A job comes to the public-key units: refused at once where they are not ready or know no such opcode (R294, R295), else
it waits. -/
def pkHand (d : Dev) (j : Job) : Dev :=
  let op := pkOp j.block
  if !d.flag PKE_CTRL_ENABLE then d.pkRefuse j pkNotReady
  else if decide (op < 0x80) || decide (0x88 < op) then d.pkRefuse j pkBadOpcode
  else d.setPke fun s => { s with jobs := s.jobs ++ [j] }

/-- The plain header of a job's blob, where it is at hand: from the HBM, or as the host has returned it. -/
def pkHdr (d : Dev) (j : Job) : Option (List Byte) :=
  let b := j.block
  if !takesBlob b then some (List.replicate 8 0#8)
  else if 2 ^ 63 ≤ pkKeyAddr b then some (d.hbmRead (pkKeyAddr b - 2 ^ 63) 8)
  else (d.pke.hdrs.find? fun h => h.1 == j).map (·.2)

/-- A job leaves the dispatcher. -/
def pkLeave (d : Dev) (j : Job) : Dev :=
  d.setPke fun s => { s with jobs := s.jobs.filter (· != j), hdrs := s.hdrs.filter (·.1 != j) }

/-- 1.8 s: the longest that a job waits at the dispatcher (R297). -/
def dispatch1800 : Nat := 5400000000

/-- The waiting jobs that can be judged, each with its header. -/
def pkWaiting (d : Dev) : List (Job × List Byte) :=
  d.pke.jobs.filterMap fun j => if d.cycle < j.handed + dispatch1800 ∧ d.jobMay j = true then (d.pkHdr j).map fun h => (j, h) else none

/-- What refuses a job before its start: the opcode (R294), the issuer's rights (R296), the lengths, the context. A job that
carries a saggar's number is device firmware's, which alone can set TAG_SAGGAR (R353). -/
def pkCheck (d : Dev) (j : Job) (hdr : List Byte) : Nat :=
  let b := j.block
  if !pkListed (pkOp b) (pkAlg b) then pkBadOpcode
  else if j.owner.isSome && j.tagSag.isNone && (pkOp b == 0x81 || pkAttest b) then pkDenied
  else if pkAttest b && pkOp b == 0x82 && pkAlg b != 2 && pkAlg b != 9 then pkBadOpcode
  else if takesBlob b && (issuerOf j).isSome && some (bitsOf (fieldLE hdr 2 2) 0 11) != issuerOf j then pkDenied
  else if pkBadLens b hdr then pkBadLen
  else if namesKwk b && (d.kwkKey (issuerOf j) (pkKwk b)).isNone then pkBadKey
  else if takesBlob b && fieldLE hdr 0 1 != pkAlg b then pkBadKey
  else pkOk

/-- The ranges a job names, with the rights they need (R334). -/
def pkRanges (b : List Byte) : List (Nat × Nat) :=
  let (o1, o2) := pkOutSizes b
  [(pkKeyAddr b, pkKeyBytes b), (pkIn b, pkInBytes b), (pkIn2 b, if pkAlg b = 11 then 4 else pkIn2Len b), (pkOut b, o1),
    (pkOut2 b, o2)].filter fun r => r.2 != 0

/-- The waiting job that the dispatcher serves next: the oldest of the owner that the arbiter chooses, with its header. -/
def pkNext (d : Dev) : Option (Job × List Byte × Arb) × Dev :=
  let waiting := d.pkWaiting
  let owners := (waiting.map fun x => issuerOf x.1).dedup
  let heads := owners.filterMap fun o => (waiting.find? fun x => issuerOf x.1 == o).map fun x => (o, x)
  match arbChoose .pke (heads.map fun h => (h.1, pkCharge h.2.1.block h.2.2)) [] d.pke.arb d with
  | (some (o, a), d') =>
    ((heads.find? fun h => h.1 == o).map fun h => (h.2.1, h.2.2, a.served (kidOf o) (pkCharge h.2.1.block h.2.2)), d')
  | (none, d') => (none, d')

/-- The header of the oldest job of opcode `op` whose blob lies in host memory and has not been judged, as the host returns it. -/
def pkHostHdr (d : Dev) (op : Nat) (host : List Byte) : Dev :=
  match d.pke.jobs.find? fun j => pkOp j.block == op && (d.pkHdr j).isNone with
  | none => d
  | some j => if host.length < 8 then d else d.setPke fun s => { s with hdrs := s.hdrs ++ [(j, host.take 8)] }

/-- The oldest job with opcode `op` that is refused is answered; else the job that the arbiter serves next starts on the
lowest-numbered free unit in service, if its opcode is `op` (R296, R297). `host` is what the host returned for the header
of the blob of the oldest such job that waits for it. -/
def pkStart (d : Dev) (op : Nat) (host : List Byte) : Dev :=
  let d := d.pkHostHdr op host
  match d.pkWaiting.find? fun x => pkOp x.1.block == op && d.pkCheck x.1 x.2 != pkOk with
  | some (j, h) => (d.pkLeave j).pkRefuse j (d.pkCheck j h)
  | none =>
    match (List.range 16).find? fun u => d.pkeInService u && (d.pkeUnit u).isNone with
    | none => d
    | some u =>
      match d.pkNext with
      | (none, d) => d
      | (some (j, hdr, arb), d1) =>
        let b := j.block
        if pkOp b ≠ op then d
        else
          -- R306: with a key command in its cycle, the job would have used the old KWK: it starts in the next
          let d1 := d1.before (.keyWrite (pkKwk b))
          let d := (d1.pkLeave j).setPke fun s => { s with arb := arb }
          if j.sto.isNone && (pkRanges b).any fun r => !d.tAllowed j.chan r.1 r.2 then
            let o := tagOwner j.chan j.tagSag
            if d.firing o ≠ j.firing then d.lateDiscard o else d.answer j.chan j.idx [] ⟨false, 5, 0, 0, 0⟩
          else
            let cost := pkCharge b hdr
            let hss := pkOp b == 0x83 && pkAlg b == 11
            ((d.debitCost .pke (issuerOf j) cost).setPkeUnit u (some
              { job := j, kwk := if namesKwk b then d.kwkKey (issuerOf j) (pkKwk b) else none, hdr := hdr,
                started := d.cycle, charged := cost, fault := false })).openFeed j
              [(0, pkIn b, pkInBytes b), (1, pkKeyAddr b, pkKeyBytes b), (2, pkIn2 b, if hss then 4 else pkIn2Len b)]
              (if hss then some (pkIn2 b, 4) else none)

/-- A random byte string of a draw. -/
def draw (d : Dev) (n : Nat) : List Byte := (List.range n).map fun i => Config.randomByte d.fresh i

/-- What a started job computes from the bytes it reads, and the cycles it occupies its unit beyond CYCLES. A job whose
unwrap fails has a free CYCLES, which the manual does not state (notes/assumptions/30). -/
def pkOutcome (d : Dev) (r : PkeRun) : PkRes × Nat × Dev :=
  let j := r.job
  let b := j.block
  let a := pkAlg b
  let inB := match j.sto with | some x => x.data | none => d.fed j 0
  let kb := d.fed j 1
  let rd2 := fun o n => sliceB (d.fed j 2) o n
  let secret := d.boot.fuses.secret
  let rnd := d.draw
  let mat := fieldLE r.hdr 4 4
  let d' := { d with fresh := d.fresh + 1 }
  -- R301, R302: a public input is judged before the blob is unwrapped, and a rejected job occupies its unit for V cycles
  let peer := if pkOp b = 0x84 ∧ isEc a = true then pointCheck (curveOf a) (rd2 0 (pubLen a)) else none
  if let some st := peer then (⟨st, 3, pkReject b, [], []⟩, 0, d')
  else if takesBlob b then
    match pkUnblob (r.kwk.getD []) kb with
    | none => let (x, d') := d'.free; (⟨pkAuthFail, 0, x % 2 ^ 32, [], []⟩, unwrapCycles mat, d')
    | some m =>
      let x := pkRun b m inB rd2 rnd
      (x, if x.failed = 0 then unwrapCycles mat else 0, d')
  else if pkOp b = 0x82 then
    (pkRun b (if a = 2 then beBytes 48 (attestEc secret) else (attestDsa secret).2) inB rd2 rnd, 0, d')
  else (pkRun b kb inB rd2 rnd, 0, d')

end Dev

/-- PK_KEYGEN to PK_DECAPS (R294): the refusal or the start of a job. -/
def doPkKeygen (d : Dev) : Dev := d.pkStart 0x80 []
def doPkImport (d : Dev) : Dev := d.pkStart 0x81 []
def doPkSign (host : List Byte) (d : Dev) : Dev := d.pkStart 0x82 host
def doPkVerify (d : Dev) : Dev := d.pkStart 0x83 []
def doPkAgree (host : List Byte) (d : Dev) : Dev := d.pkStart 0x84 host
def doPkRsaPub (d : Dev) : Dev := d.pkStart 0x85 []
def doPkRsaPriv (host : List Byte) (d : Dev) : Dev := d.pkStart 0x86 host
def doPkEncaps (d : Dev) : Dev := d.pkStart 0x87 []
def doPkDecaps (host : List Byte) (d : Dev) : Dev := d.pkStart 0x88 host

/-- 2.0 s. -/
def pkeLimit : Nat := 6000000000

/-- A started job returns TIMEOUT 2.0 s after its hand-over, with a free CYCLES (R297, notes/assumptions/30). -/
def Dev.pkExpire (d : Dev) (u : Nat) (r : PkeRun) : Dev :=
  let (x, d) := d.free
  (d.setPkeUnit u none).pkAnswer u r.job ⟨pkTimeout, 0, x % 2 ^ 32, [], []⟩ []

/-- PKE_JOB_COMPLETE (R298, R300): unit `u`'s job ends, once its channel's engine has read all that it needs and its fixed cycles are
over; `fault` says that the check of R300 failed. What it reads comes through its channel's engine (R352), so no input stands in
the command. -/
def doPkeJobComplete (u : Fin 16) (_key _inn _in2 : Unit) (fault : Bool) (_fail : Unit) (d : Dev) : Dev :=
  match d.pkeUnit u with
  | none => d
  | some r =>
    let j := r.job
    let b := j.block
    if j.handed + pkeLimit ≤ d.cycle then d.pkExpire u r
    else if !d.fedAll j then d
    else
      let (x, extra, d') := d.pkOutcome r
      let auth := x.status == pkAuthFail
      let x := if fault || r.fault then { x with status := pkUnitError, failed := 0, out := [], out2 := [] } else x
      if d.cycle < r.started + extra + (if auth then 0 else x.cycles) then d
      else
        let more : Int := (x.cycles : Int) - r.charged
        let d := (d'.setPkeUnit u none).debitCost .pke (Dev.issuerOf j) more
        let d := d.setPke fun s => { s with arb := s.arb.served (kidOf (Dev.issuerOf j)) more }
        -- a key generation or an import wraps its material as the context stands at the end (R306)
        let wraps := (pkOp b == 0x80 || pkOp b == 0x81) && x.status == pkOk
        match (if wraps then d.kwkKey (Dev.issuerOf j) (pkKwk b) else some []) with
        | none => d.pkAnswer u j { x with status := pkBadKey, out := [], out2 := [] } []
        | some k =>
          let (own, d) := match Dev.issuerOf j with
            | some s => (s, d)
            | none => if wraps then let (f, d) := d.free; (f % 2 ^ 11, d) else (0, d)
          let out2 := if wraps then pkBlob k (pkAlg b) own x.out2 else x.out2
          d.pkAnswer u j x [(pkOut b, x.out), (pkOut2 b, out2)]

/-- PKE_DISPATCH_TIMEOUT (R297): the oldest job that no unit has started within 1.8 s. -/
def doPkeDispatchTimeout (d : Dev) : Dev :=
  match d.pke.jobs.find? fun j => decide (j.handed + Dev.dispatch1800 ≤ d.cycle) with
  | none => d
  | some j => (d.pkLeave j).pkRefuse j pkTimeout

/-- PKE_JOB_TIMEOUT (R297): the job of unit `u`, 2.0 s after its hand-over. -/
def doPkeJobTimeout (u : Fin 16) (d : Dev) : Dev :=
  match d.pkeUnit u with
  | none => d
  | some r =>
    if r.job.handed + pkeLimit ≤ d.cycle then d.pkExpire u r else d

/-- PKE_ENABLE (R46, R295). -/
def doPkeEnable (p : Path) (data : W32) (d : Dev) : Dev :=
  let d := (d.writeFields p PKE_CTRL data).put PKE_CTRL_ENABLE (data.toNat % 2)
  if data.toNat % 2 = 1 then d.lock PKE_CTRL else d

end Sys2Proof.Machine
end

