-- ==== Sys2Proof/Machine/DmaOps.lean ====
section
/-!
DEFINITION. The commands of the DMA engines (chapter Tearell Rings, Doorbells and DMA).
-/

namespace Sys2Proof.Machine
namespace Dev

/-! ### Reads and their returns -/

/-- Every engine forgets the translations of a function (R318, R334). -/
def forgetAtc (d : Dev) (l f : Nat) : Dev :=
  { d with dma := { d.dma with engs := tabMapAll (fun _ => .reset) d.dma.engs fun _ e =>
      { e with atc := e.atc.filter fun x => !(x.link == l && x.func == f) } } }

/-- The invalidations of a link that wait for nothing more complete (R334). -/
def invalEnd (d : Dev) (l : Nat) : Dev :=
  let (done, rest) := (d.link l).invals.partition fun v => v.2.1.isEmpty && v.2.2 == 0
  done.foldl (fun d v => d.sendMsg l v.1 .invalidateDone) (d.modLink l fun x => { x with invals := rest })

/-- A read, or a write, issued under an old translation has resolved (R334). -/
def invalRead (d : Dev) (l tag : Nat) : Dev :=
  if (d.link l).invals.isEmpty then d
  else (d.modLink l fun x => { x with invals := x.invals.map fun v => (v.1, v.2.1.filter (· != tag), v.2.2) }).invalEnd l
def invalWrite (d : Dev) (l : Nat) : Dev :=
  if (d.link l).invals.isEmpty then d
  else (d.modLink l fun x => { x with invals := x.invals.map fun v => (v.1, v.2.1, v.2.2 - 1) }).invalEnd l

/-- A read resolves: it is outstanding no longer. -/
def dropRead (d : Dev) (r : Read) : Dev :=
  let e := r.chan / 256
  let d := d.modDeng e fun x => { x with reads := x.reads.filter (·.tag != r.tag) }
  (d.put (DMA_ENG_STATUS_OUT_READS e) (d.deng e).reads.length).invalRead (d.chLink r.chan) r.tag

def isDescRead (r : Read) : Bool := match r.what with | .desc _ _ => true | _ => false

def isAts (r : Read) : Bool := match r.what with | .ats _ => true | _ => false

/-- Whether a read goes to the host. -/
def hostRead (r : Read) : Bool := decide (r.addr < 2 ^ 63)

/-- Every outstanding read, engine by engine. -/
def allReads (d : Dev) : List Read := d.dma.engs.flatMap fun kv => kv.2.reads

/-- The outstanding host read of a tag on a link. -/
def readByTag (d : Dev) (l tag : Nat) : Option Read :=
  d.allReads.find? fun r => r.tag == tag && hostRead r && d.chLink r.chan == l

/-- An error that AER records as uncorrectable (R321, R331): its bit at a function, its message as severity and the enables
and mask set (ERR_COR where it is advisory), UNCORR_ERR, and its entry in the catalogue (R457), as corrected where it is advisory. -/
def aerError (d : Dev) (l f bit : Nat) (advisory : Bool) : Dev :=
  let d := d.modFunc l f fun x => { x with
    aerUncorr := x.aerUncorr ||| 2 ^ bit, aerCorr := if advisory then x.aerCorr ||| 2 ^ 13 else x.aerCorr }
  let x := d.func l f
  let fatal := bitOf x.aerSev bit
  let on := x.serr || (bitOf x.errEn (if fatal then 2 else 1) && (bit != 20 || bitOf x.errEn 3))
  let d := if bitOf x.aerUncorrMask bit then d
    else if advisory then (if bitOf x.errEn 0 && !bitOf x.aerCorrMask 13 then d.sendMsg l f .errCor else d)
    else if on then d.sendMsg l f (if fatal then .errFatal else .errNonFatal) else d
  (d.inc (HIF_CNT_UNCORR_ERR (l / 4) (l % 4))).rasError (.of 0x16 l (if advisory then .ce else .uc) 0)

/-- The completion timeout in µs of a Completion Timeout Value with bit 4 for Disable, at most 50 ms (R319). -/
def ctoUs (c : Nat) : Nat := if c = 1 then 100 else if c = 2 then 10000 else 50000

/-- A channel and its engine execute, with a descriptor of kind `k` due (R352: at most one per 8 cycles). -/
def canStart (d : Dev) (g k : Nat) : Bool :=
  d.engRuns (g / 256) && d.chSt g == chRunning && d.chKind g == k && decide ((d.deng (g / 256)).nextDesc ≤ d.cycle)

/-- `n` descriptors have been started on an engine. -/
def spent (d : Dev) (g n : Nat) : Dev := d.modDeng (g / 256) fun x => { x with nextDesc := d.cycle + 8 * n }

def setActive (d : Dev) (g : Nat) (a : Option Active) : Dev := d.modChan g fun c => { c with active := a }

/-- Takes `n` of the descriptors that a read returned, while they belong to the device (R336, R339). -/
def takeOwned (d : Dev) (g i : Nat) (bs : List Byte) : Nat → Dev
  | 0 => d
  | n + 1 =>
    let ds := bs.take 32
    let s := d.ringSize g
    let after := fun j => (j + s - d.chDone g) % s
    if bitsOf (descWord ds 0) 63 1 = d.ownPhase g i then
      let nxt := (i + 1) % s
      let d := if (d.chan g).scan && decide (after (d.chTail g) < after nxt) then d.put (DMA_CH_TAIL_TAIL (g / 256) (g % 256)) nxt else d
      takeOwned (d.modChan g fun c => { c with pre := c.pre ++ [(i, ds)] }) g nxt (bs.drop 32) n
    else if (d.chan g).scan && decide (after (d.chTail g) ≤ after i) then d.modChan g fun c => { c with scan := false }
    else ((d.modChan g fun c => { c with scan := false }).put (DMA_CH_STATUS_OWN_STALL (g / 256) (g % 256)) 1).inc (DMA_CH_CNT_OWN_STALLS (g / 256) (g % 256))

/-- HEAD passes `n` descriptors. -/
def advanceBy (g : Nat) : Nat → Dev → Dev
  | 0, d => d
  | n + 1, d => advanceBy g n (d.advanceHead g)

/-- The bytes of a TX descriptor. -/
def txLen (ds : List Byte) : Nat := bitsOf (descWord ds 2) 0 14

/-- How many of a frame's descriptors its first `n` bytes cover, and the bytes of the next (R337). -/
def txCover : List (Nat × List Byte) → Nat → Nat × Nat
  | [], n => (0, n)
  | x :: xs, n => if txLen x.2 ≤ n then let r := txCover xs (n - txLen x.2); (r.1 + 1, r.2) else (0, n)

/-- Whether a frame's descriptors reach its end. -/
def txEnds (ds : List (Nat × List Byte)) : Bool := match ds.getLast? with | some x => bitOf (descWord x.2 0) 62 | none => false

/-- The completion of a TX descriptor: its frame's queue above TAG (R346). -/
def txComp (ds : List Byte) (queue status bytes : Nat) : Comp :=
  ⟨bitOf (descWord ds 0) 62, status, 0, bytes, queue⟩

/-- Every descriptor of a frame completes with one status. -/
def txFinish (d : Dev) (g : Nat) (descs : List (Nat × List Byte)) (status : Nat) (read : Bool) : Dev :=
  let q := match descs with | (_, ds) :: _ => bitsOf (descWord ds 2) 48 16 | [] => 0
  let d := descs.foldl (fun d x => d.setComp g x.1 (txComp x.2 q status (if read then txLen x.2 else 0))) d
  d.inc (if status = 0 then DMA_CNT_TX_FRAMES (g / 256) else DMA_CNT_TX_REFUSED (g / 256))

/-- Whether a read carries its owner's present number (R38). -/
def readCurrent (d : Dev) (r : Read) : Bool := d.firing (tagOwner r.chan r.sag) == r.firing

/-- The lookaside job that a glaze engine runs. -/
def runJob (r : Option GlzRun) : Option Job :=
  match r with
  | some r => (match r.work with | .job x => some x.job | .frame _ _ => none)
  | none => none

/-- Glaze and public-key jobs are abandoned, those that have started too if `started`: what they have used of counters stays used
(R271, R306, R357). The storage service's are not a channel's. -/
def dropJobs (d : Dev) (p : Job → Bool) (started : Bool) : Dev :=
  let mine := fun j : Job => j.sto.isNone && p j
  let d := { d with
    glz := { d.glz with jobs := d.glz.jobs.filter fun x => !mine x.job }
    pke := { d.pke with jobs := d.pke.jobs.filter fun j => !mine j, hdrs := d.pke.hdrs.filter fun h => !mine h.1 } }
  if !started then d
  else
    let d := (d.glz.engines.filter fun kv => (runJob kv.2).any mine).foldl (fun d kv => d.setGlzEng kv.1 none) d
    (d.pke.units.filter fun kv => kv.2.any fun r => mine r.job).foldl (fun d kv => d.setPkeUnit kv.1 none) d

/-- A started job names an address outside its channel's rights: it moves no byte further (R334). -/
def jobDenied (d : Dev) (g i : Nat) : Dev :=
  let d := d.dropJobs (fun j => j.chan == g && j.idx == i) true
  let d := d.modChan g fun c => { c with feeds := c.feeds.filter (·.idx != i) }
  (d.setActive g (match (d.chan g).active with | some (.job _ _) => none | a => a)).setComp g i ⟨false, 5, 0, 0, 0⟩

/-- What has come of an HSS signature names how many bytes of it are to be read (R289). -/
def hssMore (d : Dev) (g i : Nat) : Dev :=
  match (d.chan g).feeds.find? (·.idx == i) with
  | some f =>
    match f.sig with
    | some (a, n) =>
      let part := fun p => (f.got.filter (·.1 == p)).flatMap (·.2)
      let m := hssNeed (part 1) (part 2)
      if m ≤ n then d
      else if !d.tAllowed g (a + n) (m - n) then d.jobDenied g i
      else d.modChan g fun c => { c with feeds := c.feeds.map fun x =>
        if x.idx = i then { x with need := x.need ++ [(2, a + n, m - n)], sig := some (a, m) } else x }
    | none => d
  | none => d

/-- Bytes of a data read are used: written to a COPY's target, read into a TX frame, kept as a block, or given to a job (R352). Of a read whose
channel has been reset since, only the write is left (R40). -/
def useData (d : Dev) (r : Read) (bs : List Byte) : Dev :=
  let g := r.chan
  let n := bs.length
  let d := d.engRead (g / 256) n
  match r.what, (if r.orphan then none else (d.chan g).active) with
  | .copy i off dst, act =>
    let d := d.tWrite g (dst + r.used) bs (some (i, off + r.used)) none
    match act with
    | some (.copy j ds asked wr) =>
      if i ≠ j then d
      else
        let len := bitsOf (descWord ds 0) 32 24
        if wr + n = len then (d.setActive g none).setComp g i ⟨false, 0, 0, len, 0⟩
        else (d.setActive g (some (.copy i ds asked (wr + n)))).setOffset g (off + r.used + n)
    | _ => d
  | .tx _ _, some (.tx ds fr asked inn) =>
    let total := (ds.map fun x => txLen x.2).sum
    let d := d.modFrame fr fun f => { f with bytes := f.bytes ++ bs }
    let was := (txCover ds inn).1
    let now := txCover ds (inn + n)
    let d := advanceBy g (now.1 - was) d
    if inn + n = total ∧ txEnds ds = true then
      let d := d.modFrame fr fun f => { f with
        bytes := withFcs false (f.bytes ++ List.replicate (60 - f.bytes.length) 0#8), ended := true }
      d.setActive g (some (.txDone ds fr))
    else (d.setActive g (some (.tx ds fr asked (inn + n)))).setOffset g now.2
  | .block i _, _ =>
    if r.orphan || ((d.chan g).pre.head?.map (·.1)) != some i then d
    else d.modChan g fun c => { c with block := some (i, (match c.block with | some (_, x) => x | none => []) ++ bs) }
  | .job i p, _ =>
    if r.orphan then d
    else (d.modChan g fun c => { c with
      feeds := c.feeds.map fun f => if f.idx = i then { f with got := f.got ++ [(p, bs)] } else f }).hssMore g i
  | _, _ => d

/-- Whether a started job of a channel, or a command of it at the table block or a kiln, has not ended. -/
def jobsGo (d : Dev) (g : Nat) : Bool :=
  let mine := fun j : Job => j.chan == g && j.sto.isNone
  (d.glz.engines.any fun kv => (runJob kv.2).any mine) || (d.pke.units.any fun kv => kv.2.any fun r => mine r.job) ||
  ((d.chKind g == 3 || d.chKind g == 4) && (d.chan g).slots.any (·.comp.isNone))

/-- Writes of a channel that wait for translations are not issued: its position goes back to them, and its other writes stay (R357). -/
def backX (d : Dev) (g : Nat) : Dev :=
  let l := d.chLink g
  let (mine, rest) := (d.link l).xwait.partition fun w => w.chan == some g
  let (kept, d) := (d.modLink l fun x => { x with xwait := rest }).rewind g mine
  d.modLink l fun x => { x with xwait := x.xwait ++ kept }

/-- An engine stops on a failed read (R357): its channels stop where they stand, and the glaze and public-key jobs that they started
are abandoned, to be done again from their descriptors (DESIGN CHOICE, notes/assumptions/68). -/
def engineStop (d : Dev) (e : Nat) (cause : ReadFail) (src rid addr : Nat) : Dev :=
  if d.flag (DMA_ENG_STATUS_STOPPED e) then
    if d.flag (DMA_ENG_ERR_VALID e) then d.setEvent (DMA_ENG_ERR_MULTI e) else d
  else
    let d := if d.flag (DMA_ENG_ERR_VALID e) then d.setEvent (DMA_ENG_ERR_MULTI e)
      else
        let d := d.setEvent (DMA_ENG_ERR_VALID e)
        let d := ((d.put (DMA_ENG_ERR_CAUSE e) (readFailCode cause)).put (DMA_ENG_ERR_SRC e) src).put (DMA_ENG_ERR_RID e) rid
        (d.put (DMA_ENG_ERR_ADDR_LO_ADDR e) (addr % 2 ^ 32)).put (DMA_ENG_ERR_ADDR_HI_ADDR e) (addr / 2 ^ 32)
    let d := (d.put (DMA_ENG_STATUS_STOPPED e) 1).inc (DMA_CNT_STOPS e)
    let d := d.put (DMA_ENG_STATUS_DRAINING e) (b2n (decide ((d.deng e).reads ≠ [])))
    ((d.dma.chans.map (·.1)).filter fun g => g / 256 == e).foldl (fun d g =>
      let st := d.chSt g
      if st = chSetup ∨ st = chResetting then d else ((((d.backX g).dropJobs (·.chan == g) true).setBack g).setChSt g chStopped)) d

/-- A failed read (R357): it is recorded and the engine stops. One of the host is recorded through AER at its function; a freeze of
its link in the same cycle of the HIF domain would have come first (R321, R330). -/
def readFailed (d : Dev) (r : Read) (cause : ReadFail) : Dev :=
  let s := d.failSrc r.chan r.addr
  let e := r.chan / 256
  let d := if hostRead r then
      let f := d.chFunc r.chan
      let bit := match cause with | .ur => 20 | .ca => 15 | .poisoned => 12 | .timeout => 14 | .hbm => 0
      (d.mark (.busStop s.1 (hifOf d.cycle))).aerError s.1 f bit false
    else d
  (d.dropRead r).engineStop e cause s.1 s.2 r.addr

/-- The host does not permit what channel `g` asks for next, where it lies in `page`: its descriptor completes with ADDR_DENIED (R334). -/
def denyNext (d : Dev) (g page : Nat) : Dev :=
  match d.nextRead g with
  | none => d
  | some (a, _, w) =>
    if a / 4096 ≠ page then d
    else match w, (d.chan g).active, (d.chan g).pre with
      | .copy i _ _, some (.copy _ _ _ _), _ => (d.setActive g none).setComp g i ⟨false, 5, 0, 0, 0⟩
      | .tx _ _, some (.tx ds fr _ _), _ => ((d.freeFrame fr).setActive g none).txFinish g ds 5 false
      | .block i _, _, (j, ds) :: _ => if i = j then d.failDesc g i ds 5 else d
      | .job i _, _, _ => d.jobDenied g i
      | .desc i n, _, _ => d.modChan g fun c => { c with
          pre := c.pre ++ (List.range n).map fun k => ((i + k) % d.ringSize g, []) }
      | _, _, _ => d

/-- The host answers a translation request: a translation with its rights, or a refusal (R334). The writes that waited for it go on, or
are refused, and so is what its channel asked for. -/
def atsAnswer (d : Dev) (r : Read) (page : Nat) (x : Option (Nat × Bool × Bool)) : Dev :=
  let l := d.chLink r.chan
  let f := d.chFunc r.chan
  let e := r.chan / 256
  let d := d.dropRead r
  let mine := fun y : Atc => y.link == l && y.func == f && y.page == page
  let ent : Atc := match x with
    | some (dest, rd, wr) => ⟨l, f, page, dest, rd, wr⟩
    | none => ⟨l, f, page, 0, false, false⟩
  let d := d.modDeng e fun y => { y with atc := y.atc.filter (fun z => !mine z) ++ [ent] }
  let d := d.flushX l
  let d := if ent.rd || r.orphan then d else d.denyNext r.chan page
  -- what gives no right is asked for again
  let d := if ent.rd || ent.wr then d else d.modDeng e fun y => { y with atc := y.atc.filter fun z => !mine z }
  d.pump e

end Dev

namespace Dev

/-- One completion of a stale read is discarded and counted (R39, R40); with its last byte, or where no data will follow, the
read resolves. -/
def discardPart (d : Dev) (r : Read) (n : Nat) (ends : Bool) : Dev :=
  let d := d.lateDiscard (tagOwner r.chan r.sag)
  if ends || (decide (r.got + n = r.len) && r.pieces.isEmpty) then (d.dropRead r).pump (r.chan / 256)
  else d.modDeng (r.chan / 256) fun x => { x with reads := x.reads.map fun y =>
    if y.tag = r.tag then { y with got := y.got + n } else y }

end Dev

/-- READ_COMPLETION (R321): a completion with a tag arrives on a host link. Its number is compared before it has any effect
(R38, R39). -/
def doReadCompletion (l : Fin 8) (tag : Nat) (st : Cpl) (bytes : List Byte) (d : Dev) : Dev :=
  let d := d.tlpOn l
  if (d.link l).oldTags.any fun t => t.1 == tag && decide (d.cycle < t.2) then d
  else match d.readByTag l tag with
    | none => d.aerError l 0 16 true
    | some r =>
      let bs := bytes.take (r.len - r.got)
      match st with
      | .data =>
        if bs.isEmpty || (match r.what with | .ats _ => true | _ => false) then d
        else if !d.readCurrent r then d.discardPart r bs.length false
        else d.modDeng (r.chan / 256) fun x => { x with reads := x.reads.map fun y =>
          if y.tag = tag then { y with pieces := y.pieces ++ [bs], got := y.got + bs.length } else y }
      | .ur => if d.readCurrent r then d.readFailed r .ur else d.discardPart r 0 true
      | .ca => if d.readCurrent r then d.readFailed r .ca else d.discardPart r 0 true
      | .poisoned => if d.readCurrent r then d.readFailed r .poisoned else d.discardPart r 0 true
      | .translation x =>
        match r.what with
        | .ats page =>
          if !d.readCurrent r then d.discardPart r 0 true
          else if d.flag (DMA_ENG_STATUS_STOPPED (r.chan / 256)) then (d.dropRead r).inc (DMA_CNT_STOP_DISCARD (r.chan / 256))
          else d.atsAnswer r page x
        | _ => d.aerError l 0 16 true

namespace Dev

/-- A read that has not resolved at its limit is abandoned as a completion timeout, wherever it stands (R41, R319). -/
def abandonRead (d : Dev) (r : Read) : Dev :=
  let l := d.chLink r.chan
  if hostRead r then
    let d := d.modLink l fun x => { x with
      outq := x.outq.filter fun q => match q with | .read _ t _ _ _ _ => t != r.tag | .write _ => true }
    d.readFailed r .timeout
  else d.readFailed r .timeout

end Dev

/-- COMPLETION_TIMEOUT (R319): the read with a tag on a link has been outstanding for the function's completion timeout, at
most 50 ms. -/
def doCompletionTimeout (l : Fin 8) (tag : Nat) (d : Dev) : Dev :=
  match d.readByTag l tag with
  | none => d
  | some r =>
    let f := d.chFunc r.chan
    let us := Dev.ctoUs (d.ctlFunc l f).cto
    let abandoned := (d.link l).oldTags.any fun t => t.1 == tag
    let queued := (d.link l).outq.any fun q => match q with | .read _ t _ _ _ _ => t == tag | _ => false
    if queued || abandoned || decide (r.got = r.len) || decide (d.cycle < r.issued + us * 3000) then d
    else d.abandonRead r

/-- The limit of a DMA read (R41): 50 ms from its issue, whether it waits in a queue behind a frozen link, has been sent, or
reads the HBM. -/
def readLimit (tag : Nat) (d : Dev) : Dev :=
  match d.allReads.find? fun r => r.tag == tag with
  | none => d
  | some r => if (Dev.hostRead r && decide (r.got = r.len)) || decide (d.cycle < r.issued + 150000000) then d else d.abandonRead r

/-- DESCRIPTOR_READ_RETURN (R339): the oldest descriptor read of channel `g` has returned whole; `uncorr` tells of an
uncorrectable HBM error. -/
def doDescriptorReadReturn (g : Fin 4096) (uncorr : Bool) (d : Dev) : Dev :=
  match (d.readsOf g).find? Dev.isDescRead with
  | none => d
  | some r =>
    if Dev.hostRead r && decide (r.got < r.len) || !d.readDue (g / 256) then d
    else
      let a := r.addr - 2 ^ 63
      if !Dev.hostRead r && !d.readCurrent r then d.discardPart r r.len true
      else if !Dev.hostRead r && (uncorr || d.poisoned a r.len) then (d.consumed a).readFailed r .hbm
      else if d.flag (DMA_ENG_STATUS_STOPPED (g / 256)) then (d.dropRead r).inc (DMA_CNT_STOP_DISCARD (g / 256))
      else
        let bs := if Dev.hostRead r then r.pieces.flatten else d.hbmRead a r.len
        let d := if Dev.hostRead r then d else d.ioRead a r.len
        let d := (d.dropRead r).engRead (g / 256) bs.length
        match r.what with
        | .desc i n => (if d.chSt g = chRunning ∧ r.orphan = false ∧ bs.length = r.len then d.takeOwned g i bs n else d).pump (g / 256)
        | _ => d

/-- DMA_READ_RETURN (R352): the next piece of the oldest data read of channel `g` is used; `uncorr` tells of an
uncorrectable HBM error. The engine's rate lets it move the bytes (R352). What the host has returned was compared as it arrived; data of the HBM is compared here (R38). -/
def doDmaReadReturn (g : Fin 4096) (uncorr : Bool) (d : Dev) : Dev :=
  match (d.readsOf g).find? fun r => !Dev.isDescRead r && !Dev.isAts r && !(Dev.hostRead r && r.pieces.isEmpty && r.orphan) with
  | none => d
  | some r =>
    if Dev.hostRead r && r.pieces.isEmpty || !d.readDue (g / 256) || !d.writeDue (g / 256) then d
    else
      let a := r.addr - 2 ^ 63
      let bs := if Dev.hostRead r then r.pieces.headD [] else d.hbmRead a r.len
      let last := !Dev.hostRead r || (decide (r.got = r.len) && decide (r.pieces.length = 1))
      -- a read stays outstanding until its last byte
      let next := fun (d : Dev) => if last then d.dropRead r
        else d.modDeng (g / 256) fun x => { x with reads := x.reads.map fun y =>
          if y.tag = r.tag then { y with pieces := y.pieces.drop 1, used := y.used + bs.length } else y }
      if !Dev.hostRead r && !d.readCurrent r then d.discardPart r r.len true
      else if !Dev.hostRead r && (uncorr || d.poisoned a r.len) then (d.consumed a).readFailed r .hbm
      else if d.flag (DMA_ENG_STATUS_STOPPED (g / 256)) then
        (if last then (next d).inc (DMA_CNT_STOP_DISCARD (g / 256)) else next d)
      else ((next d).useData r bs).pump (g / 256)

/-! ### Descriptors (R340 to R345) -/

namespace Dev

/-- A reserved bit or a length outside its range in a TX or RX descriptor (R340, R341, R343). -/
def badTx (ds : List Byte) : Bool :=
  bitsOf (descWord ds 0) 32 10 != 0 || bitsOf (descWord ds 2) 14 34 != 0 || descWord ds 3 != 0 || txLen ds == 0
def badRx (ds : List Byte) : Bool :=
  bitsOf (descWord ds 0) 32 31 != 0 || bitsOf (descWord ds 2) 14 50 != 0 || descWord ds 3 != 0 || txLen ds == 0
def badCopy (ds : List Byte) : Bool :=
  let len := bitsOf (descWord ds 0) 32 24
  bitsOf (descWord ds 0) 56 5 != 0 || len == 0 || badOverlap (descWord ds 1) (descWord ds 2) len

/-- The descriptors up to and including the first EOP, or the first that could not be read (R334). -/
def upToEop : List (Nat × List Byte) → List (Nat × List Byte) × Bool
  | [] => ([], false)
  | x :: xs => if x.2.isEmpty || bitOf (descWord x.2 0) 62 then ([x], true) else let r := upToEop xs; (x :: r.1, r.2)

/-- Takes a frame's descriptors and completes them without a byte read. -/
def txRefuse (d : Dev) (g : Nat) (descs : List (Nat × List Byte)) (status : Nat) : Dev :=
  let (descs, d) := descs.foldl (fun (acc : List (Nat × List Byte) × Dev) x =>
    let (ds, d) := if x.2.isEmpty then acc.2.deniedDesc else (x.2, acc.2)
    (acc.1 ++ [(x.1, ds)], d.takeDesc g x.1 ds)) ([], d)
  ((d.txFinish g descs status false).spent g descs.length).pump (g / 256)

/-- Whether a queue or inline entry lies outside a channel's rights (R342); manager channels have every right. -/
def txDenied (d : Dev) (g : Nat) (ds : List Byte) : Bool :=
  match d.chOwner g with
  | none => false
  | some s =>
    d.queueSag (bitsOf (descWord ds 2) 48 16) != some s ||
      (bitOf (descWord ds 0) 61 && (d.ixtEnt (bitsOf (descWord ds 0) 47 14)).owner != s)

end Dev

namespace Dev

/-- The descriptors of a frame that a pause or a stop has interrupted have been read again from HEAD: the frame goes on where it was, with
cells for its length as it now stands; a frame that they no longer describe is discarded (R355, R356). -/
def txResume (d : Dev) (g : Nat) (ds : List (Nat × List Byte)) (fr inn : Nat) (more : List (Nat × List Byte)) (eop : Bool) : Dev :=
  let all := ds ++ more
  let status := if 16 < all.length ∨ eop = false then 4
    else if more.any fun x => x.2.isEmpty then 5
    else if more.any fun x => badTx x.2 then 4
    else if more.any fun x => !d.tAllowed g (descWord x.2 1) (txLen x.2) then 5 else 0
  let d := more.foldl (fun d x => d.takeDesc g x.1 x.2) d
  let refuse := fun (d : Dev) st => ((((d.freeFrame fr).setActive g none).txFinish g all st false).spent g more.length).pump (g / 256)
  if status ≠ 0 then refuse d status
  else
    let n := cellsOf (Nat.max 64 ((all.map fun x => txLen x.2).sum + 4) + 32)
    let had := match d.frame? fr with | some f => f.cells | none => n
    let (ok, d) := if had < n then d.takeForeign (n - had) else (true, d.giveCells (had - n))
    if !ok then refuse d 1
    else (((d.modFrame fr fun f => { f with cells := n }).setActive g (some (.tx all fr inn inn))).spent g more.length).pump (g / 256)

end Dev

/-- TX_DESCRIPTOR (R341, R342): the next frame of a TX channel is taken once its descriptors up to EOP are read; a frame of
more than 16 is refused, descriptor by descriptor. A frame that was interrupted goes on with its descriptors as they are read again (R356).
A frame refused its cells counts in the DROP_FRAMES of the queue that its
first descriptor names (DESIGN CHOICE, notes/assumptions/50), unless it is longer than MAX_FRAME, which then counts beside the row
of R153 that refused it and gives the status (DESIGN CHOICE, notes/assumptions/59). -/
def doTxDescriptor (g : Fin 4096) (d : Dev) : Dev :=
  if !d.canStart g 0 then d
  else
    let c := d.chan g
    let (fr, eop) := Dev.upToEop c.pre
    match c.active, c.pre with
    | some (.skip q), (i, ds) :: _ =>
      let d :=
        if ds.isEmpty then (d.failDesc g i ds 5).spent g 1
        else ((d.takeDesc g i ds).setComp g i (Dev.txComp ds q 4 0)).spent g 1
      (if bitOf (descWord ds 0) 62 then d.setActive g none else d).pump (g / 256)
    | some (.tx ds k _ inn), _ :: _ =>
      if Dev.txEnds ds ∨ (eop = false ∧ ds.length + fr.length < 16) then d else d.txResume g ds k inn fr eop
    | none, (_, ds0) :: _ =>
      let q := bitsOf (descWord ds0 2) 48 16
      if !eop && decide (fr.length < 16) then d
      else if 16 < fr.length ∨ eop = false then (d.txRefuse g (fr.take 16) 4).setActive g (some (.skip q))
      else if fr.any fun x => x.2.isEmpty then d.txRefuse g fr 5
      else if fr.any fun x => Dev.badTx x.2 then d.txRefuse g fr 4
      else if d.txDenied g ds0 then d.txRefuse g fr 6
      else if fr.any fun x => !d.tAllowed g (descWord x.2 1) (Dev.txLen x.2) then d.txRefuse g fr 5
      else
        let len := (fr.map fun x => Dev.txLen x.2).sum
        let n := cellsOf (Nat.max 64 (len + 4) + 32)
        let r := d.takeForeign n
        match (r.1, r.2.mark (.admission 8)) with
        | (false, d) =>
          -- R342 decides OVERSIZE before an empty pool
          let p := d.portOf q
          if bitOf (descWord ds0 0) 61 = false ∧ d.maxFrame p < Nat.max 64 (len + 4) then
            (if d.subExists (p / 4) (p % 4) then d.inc (ETH_CNT_TX_OVERSIZE_DROP (p / 4) (p % 4)) else d).txRefuse g fr 2
          else (d.modQueue q fun x => { x with dropFrames := satAdd 64 x.dropFrames 1 }).txRefuse g fr 1
        | (true, d) =>
          let act : Actions :=
            { queue := q, cls := bitsOf (descWord ds0 0) 44 3, colour := .ofCode (bitsOf (descWord ds0 0) 42 2),
              xform := if bitOf (descWord ds0 0) 61 then some (bitsOf (descWord ds0 0) 47 14) else none }
          let (k, d) := d.addFrame { Frame.new (.dma g) [] 0 d.cycle with act := some act, cells := n, cutThrough := some false }
          let d := fr.foldl (fun d x => d.takeDesc g x.1 x.2) d
          ((d.setActive g (some (.tx fr k 0 0))).spent g fr.length).pump (g / 256)
    | _, _ => d

/-- TX_FRAME_ADMIT (R342): a frame whose bytes are all in passes the inline queue if XFORM_EN = 1, then metering and
admission; then the completions of its descriptors are decided. -/
def doTxFrameAdmit (g : Fin 4096) (d : Dev) : Dev :=
  if d.chSt g = chStopped ∨ d.chSt g = chResetting then d
  else match (d.chan g).active with
    | some (.txDone ds fr) =>
      let fin := fun (d : Dev) (st : Nat) => ((d.setActive g none).txFinish g ds st true).pump (g / 256)
      match d.frame? fr with
      | none => fin d 1
      | some f =>
        match f.act with
        | none => fin d 1
        | some a =>
          if f.stage = .inline then d
          else if f.stage = .rx ∧ a.xform.isSome then d.enterInline fr
          else
            let p := d.portOf a.queue
            if d.maxFrame p < f.len then
              let d := if d.subExists (p / 4) (p % 4) then d.inc (ETH_CNT_TX_OVERSIZE_DROP (p / 4) (p % 4)) else d
              fin (d.freeFrame fr) 2
            else
              let d := (d.setFrame fr { f with stage := .meter }).meterAndAdmit fr
              fin d (if (d.frame? fr).isSome then 0 else 1)
    | _ => d

/-- RX_DESCRIPTOR (R343): the next descriptor of an RX channel is posted as a buffer. -/
def doRxDescriptor (g : Fin 4096) (d : Dev) : Dev :=
  if !d.canStart g 1 then d
  else match (d.chan g).pre with
    | [] => d
    | (i, ds) :: _ =>
      let st := if ds.isEmpty then 5 else if Dev.badRx ds then 4 else if !d.tAllowed g (descWord ds 1) (Dev.txLen ds) then 5 else 0
      if st = 0 then
        (((d.takeDesc g i ds).spent g 1).modChan g fun c => { c with bufs := c.bufs ++ [(i, ds)] }).pump (g / 256)
      else ((d.failDesc g i ds st).spent g 1).pump (g / 256)

namespace Dev

/-- Word 1 above TAG of an RX completion (R346). -/
def rxHi (d : Dev) (f : Frame) : Nat :=
  let (port, loc) := match f.src with | .port p => (p, 0) | .dma _ => (0, 1) | .firmware => (0, 0)
  match f.act with
  | none => port * 2 ^ 26 + loc * 2 ^ 19
  | some a =>
    let x := match a.xform with | some e => b2n (d.ixtEnt e).isRx | none => 0
    port * 2 ^ 26 + a.cls * 2 ^ 23 + a.colour.code * 2 ^ 21 + x * 2 ^ 20 + loc * 2 ^ 19 + a.queue

/-- A received frame has been written: its cells return once none of its writes waits for an acknowledgement (R328). -/
def rxDelivered (d : Dev) (g fr first : Nat) : Dev :=
  let l := d.link (d.chLink g)
  let mine := fun w : PWrite => match w.frame with | some (i, _) => i == fr | none => false
  let waits := l.unacked.any mine || l.abandoned.any mine ||
    l.outq.any fun q => match q with | .write w => mine w | _ => false
  if waits then d.modChan g fun c => { c with sent := c.sent ++ [(fr, first)] } else d.freeFrame fr

/-- The next data write of frame `fr` into the buffer in front, of at most MPS bytes (R343, R352): `done` bytes are written, `used`
descriptors filled, `off` bytes of the buffer used. -/
def rxWrite (d : Dev) (g fr : Nat) (f : Frame) (body : List Byte) (done used off : Nat) : Dev :=
  match (d.chan g).bufs with
  | [] => d
  | (i, ds) :: rest =>
    let cap := txLen ds
    let k := Nat.min (d.mpsOf (d.chLink g) (d.chFunc g)) (Nat.min (cap - off) (body.length - done))
    let d := d.tWriteF g (descWord ds 1 + off) (sliceB body done k) (some (i, off)) none (some (fr, done))
    let first := (i + d.ringSize g - used) % d.ringSize g
    let fill := fun (eop : Bool) (st : Nat) => (d.setComp g i ⟨eop, st, 0, off + k, d.rxHi f⟩).modChan g fun c => { c with bufs := rest }
    if done + k = body.length then
      (((fill true 0).setActive g none).inc (DMA_CNT_RX_FRAMES (g / 256))).rxDelivered g fr first
    else if off + k < cap then (d.setActive g (some (.rx fr (done + k) used (off + k)))).setOffset g (off + k)
    else if used = 15 then
      ((((fill true 3).inc (DMA_CNT_RX_TRUNC (g / 256))).inc (DMA_CNT_RX_FRAMES (g / 256))).setActive g none).rxDelivered g fr first
    else (fill false 0).setActive g (some (.rx fr (done + k) (used + 1) 0))

/-- What a channel writes of a frame. -/
def rxBody (d : Dev) (g : Nat) (f : Frame) : List Byte :=
  if d.flag (DMA_CH_CFG_KEEP_FCS (g / 256) (g % 256)) then f.bytes else f.bytes.take (f.len - 4)

/-- The next frame of a channel: one to deliver anew, else the head of its queue once its last byte is in, past aged frames (R68,
R343). -/
def rxNext (g q : Nat) : Nat → Dev → Option Nat × Dev
  | 0, d => (none, d)
  | n + 1, d =>
    match (d.chan g).redo with
    | i :: rest => (some i, d.modChan g fun c => { c with redo := rest })
    | [] =>
      match (d.queue q).frames with
      | [] => (none, d)
      | i :: _ =>
        match d.frame? i with
        | none => (none, d)
        | some f =>
          let p := d.portOf q
          if d.aged p f then
            let d := if d.subExists (p / 4) (p % 4) then d.inc (ETH_CNT_TX_AGED (p / 4) (p % 4)) else d
            rxNext g q n ((d.freeFrame i).leftQueue q)
          else if !f.ended then (none, d)
          else
            (some i, ((d.modQueue q fun x => { x with frames := x.frames.drop 1 }).setFrame i
              { f with stage := .rxDma }).leftQueue q)

end Dev

/-- RX_FRAME_DELIVERY (R343): an RX channel that holds a posted buffer takes the next frame of its host queue, and makes the data write
of its frame that comes next, once the engine's arbiter has granted it and its rate lets it (R352, R371). -/
def doRxFrameDelivery (g : Fin 4096) (d : Dev) : Dev :=
  let d := d.startDue
  if !(d.engRuns (g / 256) && d.chSt g == chRunning && d.chKind g == 1) || (d.chan g).bufs.isEmpty then d
  else
    let d := match (d.chan g).active with
      | none =>
        match Dev.rxNext g (d.get (DMA_CH_QUEUE_QUEUE (g / 256) (g % 256))) 65536 d with
        | (none, d) => d
        | (some fr, d) => d.setActive g (some (.rx fr 0 0 0))
      | _ => d
    let d := d.pump (g / 256)
    if !((d.chan g).grant && d.writeDue (g / 256)) then d
    else match (d.chan g).active with
      | some (.rx fr done used off) =>
        let d := d.modChan g fun c => { c with grant := false }
        (match d.frame? fr with
          | none => d.setActive g none
          | some f => d.rxWrite g fr f (d.rxBody g f) done used off).pump (g / 256)
      | _ => d

namespace Dev

/-- The job of a channel's descriptor. -/
def jobOf (d : Dev) (g i a : Nat) (b : List Byte) : Job :=
  let (fir, sag) := d.chTag g
  { chan := g, idx := i, addr := a, block := b, firing := fir, owner := d.chOwner g, tagSag := sag, handed := d.cycle, sto := none }

/-- Hands a block to the unit of the channel's kind (R345); a unit that does not accept it answers at once. -/
def handOver (d : Dev) (j : Job) : Dev :=
  let op := fieldLE j.block 0 1
  match d.chKind j.chan with
  | 3 =>
    if !d.tblOn || !([0x01, 0x02, 0x03, 0x04, 0x05, 0x10, 0x11, 0x12, 0x13, 0x20, 0x21].contains op) then
      let r := d.tblCommand j.owner j.block
      r.2.tblAnswer j r.1
    else d.setTbl fun t => { t with jobs := t.jobs ++ [j] }
  | 4 =>
    if [0x40, 0x41, 0x42, 0x50, 0x51, 0x52, 0x53, 0x60, 0x61].contains op then
      d.setCore fun s => { s with jobs := s.jobs ++ [j] }
    else d.coreAnswer j (if j.owner.isSome then csDenied else csBadOpcode) []
  | 5 =>
    let x : GlzJob := ⟨j, none⟩
    if isCipherOp op || (decide (0x70 ≤ op) && decide (op ≤ 0x75)) then d.setGlz fun s => { s with jobs := s.jobs ++ [x] }
    else d.glzAnswer x [] gzBadOpcode 0 0 []
  | _ => d.pkHand j

end Dev

/-- COPY_DESCRIPTOR (R344): the next descriptor of a COPY channel starts, from byte OFFSET of it, or is handed to the glaze
dispatcher. -/
def doCopyDescriptor (g : Fin 4096) (d : Dev) : Dev :=
  if !d.canStart g 2 then d
  else match (d.chan g).active, (d.chan g).pre with
    | none, (i, ds) :: _ =>
      let len := bitsOf (descWord ds 0) 32 24
      if ds.isEmpty || Dev.badCopy ds then ((d.failDesc g i ds 4).spent g 1).pump (g / 256)
      else if !d.tAllowed g (descWord ds 1) len || !d.tAllowed g (descWord ds 2) len then
        ((d.failDesc g i ds 5).spent g 1).pump (g / 256)
      else
        let d := (d.takeDesc g i ds).spent g 1
        if bitOf (descWord ds 0) 62 then
          (d.setActive g (some (.job i ds))).setGlz fun s => { s with jobs := s.jobs ++ [⟨d.jobOf g i 0 [], some ds⟩] }
        else (d.setActive g (some (.copy i ds (d.chOffset g) (d.chOffset g)))).pump (g / 256)
    | _, _ => d

/-- BLOCK_DESCRIPTOR (R345): the next descriptor of a TABLE, CORE, GLAZE or PKE channel; its block, once read, is handed to
its unit. -/
def doBlockDescriptor (g : Fin 4096) (d : Dev) : Dev :=
  let k := d.chKind g
  if !(decide (3 ≤ k) && decide (k ≤ 6) && d.canStart g k) then d
  else match (d.chan g).pre with
    | [] => d
    | (i, ds) :: _ =>
      if ds.isEmpty || Dev.badBlock ds then ((d.failDesc g i ds 4).spent g 1).pump (g / 256)
      else if !d.tAllowed g (descWord ds 1) 128 then ((d.failDesc g i ds 5).spent g 1).pump (g / 256)
      else match (d.chan g).block with
        | some (j, bs) =>
          if i ≠ j ∨ bs.length < 128 then d
          else
            let job := d.jobOf g i (descWord ds 1) bs
            (((d.takeDesc g i ds).spent g 1).handOver job).pump (g / 256)
        | none => d

/-! ### Doorbells, completions, interrupts (R338, R348 to R350) -/

namespace Dev

/-- Whether a doorbell to a channel is ignored and counted in DB_BAD (R345, R349). -/
def dbIgnored (d : Dev) (g : Nat) : Bool :=
  let st := d.chSt g
  st == chSetup || st == chResetting || d.chKind g == 7 ||
    (match d.chOwner g with | some s => d.get (SAG_STATUS_STATE s) == 5 | none => false)

def dbBad (d : Dev) (g : Nat) : Dev := d.inc (DMA_CH_CNT_DB_BAD (g / 256) (g % 256))

end Dev

/-- DB_TAIL (R349). -/
def doDbTail (g : Fin 4096) (data : W32) (d : Dev) : Dev :=
  let v := data.toNat
  let s := d.ringSize g
  let done := d.chDone g
  if d.dbIgnored g || decide (s ≤ v) then d.dbBad g
  else if (v + s - done) % s < (d.chTail g + s - done) % s then
    (d.mark (.doorbell g true)).inc (DMA_CH_CNT_DB_STALE (g / 256) (g % 256))
  else
    let d := d.mark (.doorbell g false)
    let d := d.put (DMA_CH_TAIL_TAIL (g / 256) (g % 256)) v
    -- R339: a doorbell write reads a stalled descriptor again
    (d.put (DMA_CH_STATUS_OWN_STALL (g / 256) (g % 256)) 0).pump (g / 256)

/-- DB_IRQ (R350). -/
def doDbIrq (g : Fin 4096) (data : W32) (d : Dev) : Dev :=
  if d.dbIgnored g then d.dbBad g
  else if fieldGet data 31 1 = 0 then d.mark (.doorbell g false)
  else
    let d := d.mark (.doorbell g false)
    let d := d.mark (.armed g (d.flag (DMA_CH_STATUS_IRQ_ARMED (g / 256) (g % 256))) (d.get (DMA_CH_IRQ_NEXT_NEXT (g / 256) (g % 256))))
    let d := d.put (DMA_CH_IRQ_NEXT_NEXT (g / 256) (g % 256)) (fieldGet data 0 16)
    (d.put (DMA_CH_STATUS_IRQ_ARMED (g / 256) (g % 256)) 1).chMsix g

/-- COMPLETION_POST (R338, R346): the completion at DONE of channel `g`, once it is decided. A stopped engine or channel
posts nothing (R357). An arm of the same cycle is evaluated after the posting (R360). -/
def doCompletionPost (g : Fin 4096) (d : Dev) : Dev :=
  let st := d.chSt g
  if d.flag (DMA_ENG_STATUS_STOPPED (g / 256)) || !(st == chRunning || st == chPausing || st == chPaused) then d
  else
    let e := (g : Nat) / 256
    let c := (g : Nat) % 256
    let next := d.get (DMA_CH_IRQ_NEXT_NEXT e c)
    match (if d.flag (DMA_CH_STATUS_IRQ_ARMED e c) then d.marks.find? (fun m => match m with | .armed k _ _ => k == g.val | _ => false)
           else none) with
    | some (.armed _ was old) =>
      let d := (((d.put (DMA_CH_STATUS_IRQ_ARMED e c) (b2n was)).put (DMA_CH_IRQ_NEXT_NEXT e c) old).postComp g)
      (((d.put (DMA_CH_STATUS_IRQ_ARMED e c) 1).put (DMA_CH_IRQ_NEXT_NEXT e c) next).chMsix g).pump e
    | _ => (d.postComp g).pump e

/-- IRQ_HOLDOFF_EXPIRY (R350). -/
def doIrqHoldoffExpiry (g : Fin 4096) (d : Dev) : Dev := d.chMsix g

/-! ### Pause, stop, reset, start (R354 to R360) -/

/-- PAUSE (R354, R355): a write of DMA_CH_CTRL.PAUSE. -/
def doDmaPause (g : Fin 4096) (data : W32) (d : Dev) : Dev :=
  (d.swPut (DMA_CH_CTRL_PAUSE (g / 256) (g % 256)) (fieldGet data 1 1)).setPause g srcMgr (fieldGet data 1 1 == 1)

/-- CHANNEL_PAUSED (R355): nothing of a PAUSING channel is outstanding: no read, no write that waits for its translation, and no job
that has started, which runs on (DESIGN CHOICE, notes/assumptions/68). Jobs that have not started are withdrawn. -/
def doChannelPaused (g : Fin 4096) (d : Dev) : Dev :=
  if d.chSt g = chPausing ∧ d.readsOf g = [] ∧ d.jobsGo g = false ∧
      ((d.link (d.chLink g)).xwait.any fun w => w.chan == some g.val) = false then
    (((d.dropJobs (·.chan == g) false).setBack g).setChSt g chPaused)
  else d

/-- RESET (R359): a write of DMA_CH_CTRL.RESET. -/
def doDmaReset (g : Fin 4096) (data : W32) (d : Dev) : Dev := if fieldGet data 31 1 = 1 then d.chanReset g else d

/-- CHANNEL_RESET_COMPLETE (R359): the bump is done. -/
def doChannelResetComplete (g : Fin 4096) (d : Dev) : Dev :=
  if d.chSt g = chResetting ∧ d.bumpPending (.chan g) = false then (d.endChReset g).pump (g / 256) else d

/-- RESUME (R358): a STOPPED channel of an engine that is not stopped. -/
def doDmaResume (g : Fin 4096) (data : W32) (d : Dev) : Dev :=
  if fieldGet data 30 1 = 1 ∧ d.chSt g = chStopped ∧ d.flag (DMA_ENG_STATUS_STOPPED (g / 256)) = false then
    ((((d.setBack g).setChSt g (if d.pauseSrc g = 0 then chRunning else chPaused)).put
      (DMA_CH_STATUS_OWN_STALL (g / 256) (g % 256)) 0).answerHeld g).pump (g / 256)
  else d

/-- CLEAR_STOP (R358): ignored while DRAINING. -/
def doDmaClearStop (n : Fin 16) (data : W32) (d : Dev) : Dev :=
  if fieldGet data 8 1 = 1 ∧ d.flag (DMA_ENG_STATUS_DRAINING n) = false then
    ((List.range 8).foldl (fun d l => d.flushX l) (d.put (DMA_ENG_STATUS_STOPPED n) 0)).pump n
  else d

/-- ENGINE_DRAIN_END (R357): the last outstanding read of a stopped engine has resolved. -/
def doEngineDrainEnd (n : Fin 16) (d : Dev) : Dev :=
  if d.flag (DMA_ENG_STATUS_STOPPED n) && (d.deng n).reads.isEmpty then d.put (DMA_ENG_STATUS_DRAINING n) 0 else d

/-- DMA_ENGINE_ENABLE (R360). -/
def doDmaEngineEnable (n : Fin 16) (data : W32) (d : Dev) : Dev :=
  (d.put (DMA_ENG_CTRL_ENABLE n) (fieldGet data 0 1)).pump n

namespace Dev

/-- Whether a saggar's channels pause for its freeze: FREEZING, FROZEN or RESTORING (R354, R376). -/
def sagPauses (d : Dev) (s : Nat) : Bool :=
  let st := d.get (SAG_STATUS_STATE s)
  st == 2 || st == 3 || st == 5

/-- The pause sources that a channel's conditions set (R354, R359). -/
def conditionSrc (d : Dev) (g : Nat) : Nat :=
  let l := d.chLink g
  let f := d.func l (d.chFunc g)
  (if d.chBound g && (f.d3hot || !f.bme) then srcPm else 0) +
  (if d.chBound g && d.frozen l then srcFreeze else 0) +
  (match d.chOwner g with | some s => if d.sagPauses s then srcSaggar else 0 | none => 0)

/-- Whether START is refused (R332, R350, R360). -/
def startRefused (d : Dev) (g : Nat) : Bool :=
  let e := g / 256
  let c := g % 256
  let l := d.chLink g
  let f := d.chFunc g
  let page := d.get (DMA_CH_CFG_DBPAGE e c)
  let q := d.get (DMA_CH_QUEUE_QUEUE e c)
  decide (8 ≤ d.chKind g) ||
  -- R367: a tenant's channel is allotted, bound to the saggar's function, and its saggar ACTIVE or FROZEN
  (match d.chOwner g with
   | some s => (d.chan g).allot != some s || !(d.get (SAG_STATUS_STATE s) == 1 || d.get (SAG_STATUS_STATE s) == 3) ||
       d.get (SAG_FUNC_LINK s) != l || d.get (SAG_FUNC_FUNC s) != f
   | none => false) ||
  (d.chBound g && (!d.linkExists l || (d.funcAt l f).isNone || decide (d.dbPages l f ≤ page) ||
    decide (d.msixSize l f ≤ d.get (DMA_CH_SIZE_VECTOR e c)) ||
    (d.dma.chans.any fun kv => kv.1 != g && d.chSt kv.1 != chSetup && d.chBound kv.1 && d.chLink kv.1 == l &&
      d.chFunc kv.1 == f && d.get (DMA_CH_CFG_DBPAGE (kv.1 / 256) (kv.1 % 256)) == page))) ||
  (d.chKind g == 1 && ((match d.chOwner g with | some s => d.queueSag q != some s | none => false) || d.rxServed q))

end Dev

/-- START (R360): a channel in set-up state starts, or the start is refused with CFG_ERR. -/
def doDmaStart (g : Fin 4096) (data : W32) (d : Dev) : Dev :=
  let e := (g : Nat) / 256
  let c := (g : Nat) % 256
  let l := d.chLink g
  if fieldGet data 0 1 = 0 ∨ d.chSt g ≠ chSetup then d
  else if d.startRefused g then d.setEvent (DMA_CH_STATUS_CFG_ERR e c)
  else
    let src := (d.pauseSrc g &&& srcMgr) + d.conditionSrc g
    let d := (d.put (DMA_CH_STATUS_PAUSE_SRC e c) src).lock (DMA_CH_CTRL e c)
    let d := (d.modChan g fun x => { x with started := true, known := true }).setChSt g (if src = 0 then chRunning else chPaused)
    let d := if d.chKind g = 1 then
        { d with dma := { d.dma with rxServe := d.dma.rxServe ++ [(d.get (DMA_CH_QUEUE_QUEUE e c), (g : Nat))] } }
      else d
    (d.ltrUpdate l).pump e

/-- ATS_INVALIDATION (R334): every engine forgets the translations of a function, and the invalidation completes once every request
issued under them has resolved: a read returned, a write acknowledged. -/
def doAtsInvalidation (l : Fin 8) (f : Fin 2048) (d : Dev) : Dev :=
  if !(d.func l f).atsEn then d
  else
    let reads := (d.allReads.filter fun r => Dev.hostRead r && !Dev.isAts r && d.chLink r.chan == l && d.chFunc r.chan == f).map (·.tag)
    let ws := (d.link l).unacked ++ (d.link l).outq.filterMap fun q => match q with | .write w => some w | .read .. => none
    let writes := ws.length - (ws.reverse.takeWhile fun w => w.func != f.val).length
    let d := d.forgetAtc l f
    (d.modLink l fun x => { x with invals := x.invals ++ [(f.val, reads, writes)] }).invalEnd l

end Sys2Proof.Machine
end

