-- ==== Sys2Proof/Machine/StoBase.lean ====
section
/-!
DEFINITION. The shared operations of the storage service: namespaces and their backing, completions and events of the
emulated controllers, and the chain of a sealed journal (chapter Emulated Storage and the Sealed Journal). Status codes,
queue entries and data structures are those of the cited NVM Express specifications (notes/assumptions/40).
-/

namespace Sys2Proof.Machine

/-! ### Entries -/

namespace NsEnt

def w (e : NsEnt) (i : Nat) : Nat := fieldLE e.cfg (4 * i) 4
def valid (e : NsEnt) : Bool := bitOf (e.w 0) 31
def kind (e : NsEnt) : Nat := bitsOf (e.w 0) 28 3
def xts (e : NsEnt) : Bool := bitOf (e.w 0) 27
def lba (e : NsEnt) : Nat := if bitOf (e.w 0) 26 then 4096 else 512
def readerEn (e : NsEnt) : Bool := bitOf (e.w 1) 31
def reader (e : NsEnt) : Nat := bitsOf (e.w 1) 16 11
def readerNsid (e : NsEnt) : Nat := bitsOf (e.w 1) 8 5
def nsid (e : NsEnt) : Nat := bitsOf (e.w 1) 0 5
def size (e : NsEnt) : Nat := fieldLE e.cfg 8 8
def base (e : NsEnt) : Nat := bitsOf (e.w 4) 0 16
def pages (e : NsEnt) : Nat := bitsOf (e.w 5) 0 16
def kc (e : NsEnt) : Nat := bitsOf (e.w 6) 0 20
def target (e : NsEnt) : Nat := bitsOf (e.w 7) 0 10
def batchMs (e : NsEnt) : Nat := bitsOf (e.w 8) 16 16
def batchMax (e : NsEnt) : Nat := bitsOf (e.w 8) 0 16
/-- Kinds 2 and 3 are journals; kinds 0 and 2 lie in the HBM (R392). -/
def isJnl (e : NsEnt) : Bool := decide (2 ≤ e.kind)
def inHbm (e : NsEnt) : Bool := e.kind % 2 == 0
/-- Bytes of the namespace. -/
def bytes (e : NsEnt) : Nat := e.size * e.lba

end NsEnt

/-- Fields of a controller entry (R415). -/
def Nvme.cacheBase (c : Nvme) : Nat := fieldLE c.cfg 4 2
def Nvme.cachePages (c : Nvme) : Nat := fieldLE c.cfg 6 2

/-- A status code by its type and code. -/
def nvSt (sct sc : Nat) : Nat := sct * 256 + sc
def nvOk : Nat := nvSt 0 0x00
def nvBadOp : Nat := nvSt 0 0x01
def nvBadField : Nat := nvSt 0 0x02
def nvInternal : Nat := nvSt 0 0x06
def nvAborted : Nat := nvSt 0 0x07
def nvSqGone : Nat := nvSt 0 0x08
def nvBadNs : Nat := nvSt 0 0x0B
def nvBadPrp : Nat := nvSt 0 0x13
def nvProtected : Nat := nvSt 0 0x20
def nvTransport : Nat := nvSt 0 0x22
def nvRange : Nat := nvSt 0 0x80
def nvCapacity : Nat := nvSt 0 0x81
def nvWriteFault : Nat := nvSt 2 0x80
def nvReadErr : Nat := nvSt 2 0x81

/-! ### The chain (R403 to R406) -/

/-- The header of a sherd (R403); `t` is its time stamp in 2^-16 ns. -/
def sherdHeader (typ flags seq t len : Nat) (jid prev : List Byte) (app tag : Nat) : List Byte :=
  leBytes 4 0x44524853 ++ leBytes 2 1 ++ leBytes 1 typ ++ leBytes 1 flags ++ leBytes 8 seq ++
  leBytes 6 (t / 2 ^ 16 / 10 ^ 9) ++ leBytes 4 (t / 2 ^ 16 % 10 ^ 9) ++ leBytes 2 (t % 2 ^ 16) ++ leBytes 4 len ++
  sliceB jid 0 16 ++ sliceB prev 0 48 ++ leBytes 2 app ++ List.replicate 6 0#8 ++ leBytes 8 tag

/-- Bytes that a sherd with a payload of `n` bytes takes (R404). -/
def sherdLen (n : Nat) : Nat := 8 * ceilDiv (112 + n) 8

/-- The hash H of a sherd's bytes (R404). -/
def sherdHash (bs : List Byte) : List Byte := sha3 384 bs

/-- The chain after a sherd of type `typ` with time stamp `t` and bytes `bs`, chained in cycle `now`, in a namespace of `lba`-byte
blocks. -/
def ChainPos.next (c : ChainPos) (typ t now lba : Nat) (bs : List Byte) : ChainPos :=
  let all := c.part ++ sliceB bs 0 (8 * ceilDiv bs.length 8)
  { seq := c.seq + 1, off := c.off + 8 * ceilDiv bs.length 8, hash := sherdHash bs, time := t,
    lastSeal := if typ = 2 then some c.seq else c.lastSeal,
    unsealed := if typ = 2 then 0 else c.unsealed + 1,
    firstAt := if typ = 2 then none else some (c.firstAt.getD now)
    ran := if typ = 2 then 0 else c.ran
    part := all.drop (all.length / lba * lba) }

/-- Bytes 0–127 of the payload of a SEAL (R407), stamped at `t`. -/
def sealBody (j : Journal) (t sync devnum : Nat) : List Byte :=
  sliceB j.jid 0 16 ++ leBytes 8 (match j.head.lastSeal with | some n => n + 1 | none => 0) ++ leBytes 8 (j.head.seq - 1) ++
  sliceB j.head.hash 0 48 ++ leBytes 6 (t / 2 ^ 16 / 10 ^ 9) ++ leBytes 4 (t / 2 ^ 16 % 10 ^ 9) ++ leBytes 2 (t % 2 ^ 16) ++
  leBytes 1 sync ++ List.replicate 3 0#8 ++ leBytes 8 devnum ++ List.replicate 24 0#8

/-- The context string HDM-SHERD-SEAL-1 (R407). -/
def sealContext : List Byte := beBytes 16 0x48444D2D53484552442D5345414C2D31

/-- The walk of R406 over a remote journal's bytes from byte 0, at most `fuel` sherds: the chain position and JOURNAL_ID. -/
def walkJournal (bs : List Byte) (now lba : Nat) : Nat → ChainPos → ChainPos
  | 0, c => c
  | fuel + 1, c =>
    let h := bs.drop c.off
    if h.length < 112 ∨ fieldLE h 0 4 ≠ 0x44524853 then c
    else
      let n := fieldLE h 28 4
      let t := (fieldLE h 16 6 * 10 ^ 9 + fieldLE h 22 4) * 2 ^ 16 + fieldLE h 26 2
      walkJournal bs now lba fuel (c.next (fieldLE h 6 1) t now lba (sliceB h 0 (112 + n)))

namespace Dev

def setSto (d : Dev) (f : StoState → StoState) : Dev := { d with sto := f d.sto }
def nsEnt (d : Dev) (n : Nat) : NsEnt := tabGet (fun _ => .reset) d.sto.ns n
def setNs (d : Dev) (n : Nat) (e : NsEnt) : Dev := d.setSto fun s => { s with ns := tabSet (fun _ => .reset) s.ns n e }
def modJnl (d : Dev) (n : Nat) (f : Journal → Journal) : Dev := d.setNs n { d.nsEnt n with jnl := f (d.nsEnt n).jnl }
def tgtEnt (d : Dev) (t : Nat) : List Byte := tabGet (fun _ => tgtReset) d.sto.tgt t

/-- The entry that controller `s` names by an NSID, and whether it is only the reader of it (R412). -/
def nsFind (d : Dev) (s nsid : Nat) : Option (Nat × Bool) :=
  d.sto.ns.findSome? fun kv =>
    let e := kv.2
    if e.valid && e.owner == s && e.nsid == nsid then some (kv.1, false)
    else if e.valid && e.isJnl && e.readerEn && e.reader == s && e.readerNsid == nsid then some (kv.1, true)
    else none

/-- `n` bytes that nothing fixes (notes/assumptions/5). -/
def freeBytes (d : Dev) (n : Nat) : List Byte × Dev := let r := d.free; (leBytes n r.1, r.2)

/-! ### Controllers -/

def sagLink (d : Dev) (s : Nat) : Nat := d.get (SAG_FUNC_LINK s)
def sagFunc (d : Dev) (s : Nat) : Nat := d.get (SAG_FUNC_FUNC s)

/-- Controller `s` is presented and enabled (R385). -/
def ctlOn (d : Dev) (s : Nat) : Bool :=
  d.flag STO_CTRL_ENABLE && (d.nvme s).enabled && d.isNvme (d.sagLink s) (d.sagFunc s) && d.get (SAG_STATUS_STATE s) != 0

/-- The service's threads and channels run for saggar `s`: it is ACTIVE (R376, R401), none of the service's channels is paused
(R354), and no engine of theirs is stopped (R357). -/
def svcRuns (d : Dev) (s : Nat) : Bool :=
  d.get (SAG_STATUS_STATE s) == 1 && (d.nvme s).chans.all fun g => !d.flag (DMA_ENG_STATUS_STOPPED (g / 256)) && d.pauseSrc g == 0

/-- The storage service runs commands of controller `s` and posts their completions: it is ready, and its function may issue requests
(R323, R327). -/
def ctlRuns (d : Dev) (s : Nat) : Bool :=
  let l := d.get (SAG_FUNC_LINK s)
  let x := d.func l (d.get (SAG_FUNC_FUNC s))
  d.ctlOn s && (d.nvme s).rdy && d.svcRuns s && x.bme && !x.d3hot && !d.frozen l

/-- The service has moved `n` bytes through its channel, the first that it has taken (R386; R352, R362); reads are charged, and
writes of what has been read are not (R371). -/
def svcMoved (d : Dev) (s n : Nat) (read : Bool) : Dev :=
  match (d.nvme s).chans with
  | [] => d
  | g :: _ => if read then (d.engRead (g / 256) n).debitCost .dma (some s) n else d.engWrote (g / 256) n

/-- Writes bytes to the host at an address of the controller's function, with the firing number `fir` of the command that they
are for, through the service's channel: data with Relaxed Ordering where that is enabled, completions without (R386, R351). -/
def ctlWrite (d : Dev) (s fir a : Nat) (bs : List Byte) (data : Bool) : Dev :=
  let l := d.sagLink s
  let f := d.sagFunc s
  let d := d.svcMoved s bs.length false
  (chunks (d.mpsOf l f) bs.length 0 bs).foldl (fun d (o, b) =>
    d.sendReq l (.write { func := f, addr := a + o, bytes := b, chan := none, pos := none, cpl := none, frame := none,
                          tag := some (.saggar s, fir), at_ := d.cycle, ro := data && (d.ctlFunc l f).ro, ido := (d.ctlFunc l f).ido })) d

/-- A completion was posted to queue `i` with interrupt vector `vec`: its message is raised, or waits under Interrupt Coalescing for
THR + 1 completions or TIME × 100 µs, unless the queue is the admin queue or the vector is exempt (R389, R390). -/
def cqMessage (d : Dev) (s i vec : Nat) : Dev :=
  let c := d.nvme s
  let thr := bitsOf c.coal 0 8
  let (n, t) := (tabGet (fun _ => none) c.irqHeld vec).getD (0, d.cycle)
  if i = 0 ∨ bitsOf c.coal 8 8 = 0 ∨ tabGet (fun _ => 0) c.vecs vec = 1 ∨ thr ≤ n then
    ((d.msix (d.sagLink s) (d.sagFunc s) vec).2).modNvme s fun c => { c with irqHeld := tabSet (fun _ => none) c.irqHeld vec none }
  else d.modNvme s fun c => { c with irqHeld := tabSet (fun _ => none) c.irqHeld vec (some (n + 1, t)) }

/-- The messages whose aggregation time has passed (R389). -/
def coalTick (d : Dev) : Dev :=
  d.sto.ctl.foldl (fun d kv => kv.2.irqHeld.foldl (fun d h => match h.2 with
    | some (_, t) =>
      if t + bitsOf kv.2.coal 8 8 * 300000 ≤ d.cycle then
        ((d.msix (d.sagLink kv.1) (d.sagFunc kv.1) h.1).2).modNvme kv.1 fun c => { c with irqHeld := tabSet (fun _ => none) c.irqHeld h.1 none }
      else d
    | none => d) d) d

/-- Posts the waiting completions for which their queues have room, in order (R387, R391), while the service runs and its function may
issue requests (R323, R401). -/
def postCqes (s : Nat) : Nat → Dev → Dev
  | 0, d => d
  | fuel + 1, d =>
    if !d.ctlRuns s then d else
    let c := d.nvme s
    let room := fun (x : Cqe) => match tabGet (fun _ => none) c.cqs x.cq with
      | some (q : Cq) => (q.tail + 1) % q.size != q.head
      | none => true
    match c.cqes.find? room with
    | none => d
    | some x =>
      let d := d.setNvme s { c with cqes := c.cqes.erase x }
      match tabGet (fun _ => none) c.cqs x.cq with
      | none => postCqes s fuel d
      | some q =>
        let sqhd := match tabGet (fun _ => none) c.sqs x.sq with | some (y : Sq) => y.head | none => 0
        let bs := leBytes 4 x.dw0 ++ leBytes 4 x.dw1 ++ leBytes 2 sqhd ++ leBytes 2 x.sq ++ leBytes 2 x.cid ++
          leBytes 2 (b2n q.phase + 2 * x.status)
        let d := d.ctlWrite s x.firing (q.base + 16 * q.tail) bs false
        let t := (q.tail + 1) % q.size
        let d := d.modNvme s fun c => { c with
          cqs := tabSet (fun _ => none) c.cqs x.cq (some { q with tail := t, phase := if t = 0 then !q.phase else q.phase }) }
        postCqes s fuel (if q.ien then d.cqMessage s x.cq q.vec else d)

/-! ### The service's channels and jobs (R386) -/

/-- The service takes set-up channels of the saggar's allotment for its transfers, one for each of its threads, and fewer where
the allotment has fewer (notes/assumptions/34). -/
def takeChans (d : Dev) (s : Nat) : Dev :=
  let mine := (d.chansOf fun g => (d.chan g).allot == some s && d.chSt g == chSetup).take (Nat.max 1 (d.nvme s).svcThreads)
  (mine.foldl (fun d g => d.put (DMA_CH_CFG_TAG_SAGGAR (g / 256) (g % 256)) 1) d).modNvme s fun c => { c with chans := mine }

/-- They go back to the allotment. -/
def dropChans (d : Dev) (s : Nat) : Dev :=
  ((d.nvme s).chans.foldl (fun d g =>
    if (d.chan g).allot = some s then d.put (DMA_CH_CFG_TAG_SAGGAR (g / 256) (g % 256)) 0 else d) d).modNvme s
    fun c => { c with chans := [] }

/-- A job of the service for saggar `s`, which carries its firing number (R33). -/
def stoJob (d : Dev) (s : Nat) (what : StoWork) (block data : List Byte) : Job :=
  { chan := (d.nvme s).chans.headD 0, idx := 0, addr := 0, block := block, firing := d.firing (.saggar s), owner := some s
    tagSag := some s, handed := d.cycle, sto := some ⟨s, what, data⟩ }

/-- A 128-byte block with fields at their places. -/
def blockWith (fs : List (Nat × List Byte)) : List Byte := fs.foldl (fun b f => overlay b f.1 f.2) (List.replicate 128 0#8)

/-- What satisfies `p` asks for nothing any longer: the answers to its jobs are dropped when they come. -/
def retireJobs (d : Dev) (p : Nat → StoWork → Bool) : Dev :=
  let job := fun (j : Job) => match j.sto with
    | some x => if p x.ctl x.what then { j with sto := some { x with what := .gone } } else j
    | none => j
  { d with
    glz := { d.glz with
      jobs := d.glz.jobs.map fun x => { x with job := job x.job }
      engines := tabMapAll (fun _ => none) d.glz.engines fun _ r => r.map fun r => { r with work := match r.work with
        | .job x => .job { x with job := job x.job }
        | w => w } }
    pke := { d.pke with
      jobs := d.pke.jobs.map job
      units := tabMapAll (fun _ => none) d.pke.units fun _ r => r.map fun r => { r with job := job r.job } }
    sto := { d.sto with answers := d.sto.answers.filter fun a => !p a.ctl a.what } }

/-- The answer to a job of controller `s`, if it has come. -/
def stoAns (d : Dev) (s : Nat) (w : StoWork) : Option StoAns := d.sto.answers.find? fun a => a.ctl == s && a.what == w

/-- A return for work that a reset has abandoned: it is compared and, its number being stale, counted (R38, R39, R400). -/
def lateReturn (d : Dev) (s : Nat) (w : LateFor) : Dev :=
  match (d.nvme s).late.find? (·.what == w) with
  | none => d
  | some x =>
    let d := d.modNvme s fun c => { c with late := c.late.erase x }
    if x.firing ≠ d.firing (.saggar s) then d.lateDiscard (.saggar s) else d

/-! ### Completions and events -/

/-- The Error Information log and the SMART counts take note of a command's end (R390): its entries are numbered from 1, and 64 are kept. -/
def noteEnd (d : Dev) (s : Nat) (x : NvmeCmd) (status : Nat) : Dev :=
  let op := fieldLE x.sqe 0 1
  let nsid := fieldLE x.sqe 4 4
  if status ≠ 0 then d.modNvme s fun c => { c with
      errN := c.errN + 1, errs := (⟨c.errN + 1, x.sq, x.cid, status, fieldLE x.sqe 40 8, nsid⟩ :: c.errs).take 64 }
  else if x.sq = 0 ∨ (op ≠ 1 ∧ op ≠ 2) then d
  else
    let lba := match d.nsFind s nsid with | some (n, _) => (d.nsEnt n).lba | none => 512
    let n := (fieldLE x.sqe 48 2 + 1) * (lba / 512)
    let k := if op = 2 then 0 else 1
    d.modNvme s fun c => { c with
      smart := c.smart.mapIdx fun i v => if i = k then v + n else if i = k + 2 then v + 1 else v }

/-- A command completes: it leaves the commands in progress, counts, and its completion is posted. -/
def complete (d : Dev) (s sq cid dw0 dw1 status : Nat) : Dev :=
  let mine := (d.nvme s).cmds.find? fun x => x.sq == sq && x.cid == cid
  let fir := match mine with | some x => x.firing | none => d.firing (.saggar s)
  let d := match mine.map (·.wait) with
    | some (.xts _ _) => d.retireJobs fun k w => k == s && match w with | .block q i _ => q == sq && i == cid | _ => false
    | _ => d
  let d := match mine with | some x => d.noteEnd s x status | none => d
  let c := d.nvme s
  let cq := match tabGet (fun _ => none) c.sqs sq with | some (q : Sq) => q.cq | none => 0
  let d := d.setNvme s { c with
    cmds := c.cmds.filter (fun x => !(x.sq == sq && x.cid == cid))
    cqes := c.cqes ++ [⟨cq, sq, cid, dw0, dw1, status, fir, d.cycle⟩] }
  postCqes s 4096 (d.inc (if status = nvOk then STO_CNT_CMDS_DONE else STO_CNT_CMDS_ERR))

/-- A command to namespace entry `n` completes: DEFERRED tells a write error since the last one (R391, R396). -/
def completeNs (d : Dev) (s n sq cid dw0 dw1 status : Nat) : Dev :=
  let e := d.nsEnt n
  (d.setNs n { e with flag := false }).complete s sq cid dw0 (dw1 + b2n e.flag * 2 ^ 31) status

/-- Sets what a command in progress waits for. -/
def waitFor (d : Dev) (s : Nat) (x : NvmeCmd) (w : CmdWait) : Dev :=
  d.modNvme s fun c => { c with cmds := c.cmds.filter (fun y => !(y.sq == x.sq && y.cid == x.cid)) ++ [{ x with wait := w }] }

/-- Reports events to waiting Asynchronous Event Requests; a reported type stays masked until its page is read. -/
def pumpEvents (s : Nat) : Nat → Dev → Dev
  | 0, d => d
  | fuel + 1, d =>
    let c := d.nvme s
    match c.cmds.find? (fun x => x.wait == .aer), c.events.find? fun e => !c.masked.any fun m => m / 256 == e.1 with
    | some x, some e =>
      let d := d.setNvme s { c with events := c.events.erase e, masked := c.masked ++ [e.1 * 256 + e.2.2] }
      pumpEvents s fuel (d.complete s x.sq x.cid (e.1 + e.2.1 * 2 ^ 8 + e.2.2 * 2 ^ 16) 0 nvOk)
    | _, _ => d

/-- Posts an asynchronous event. -/
def postEvent (d : Dev) (s typ info page : Nat) : Dev :=
  pumpEvents s 8 (d.modNvme s fun c => { c with events := c.events ++ [(typ, info, page)] })

/-- The attributes of a namespace changed: Changed Namespace List and its notice (R392). -/
def nsChanged (d : Dev) (s nsid : Nat) : Dev :=
  let d := d.modNvme s fun c => { c with changed := (c.changed ++ [nsid]).dedup }
  if bitOf (d.nvme s).aec 8 then d.postEvent s 2 0 4 else d

/-! ### Backing (R392, R394, R395) -/

/-- First HBM byte of a namespace. -/
def nsAddr (d : Dev) (e : NsEnt) : Nat := (d.get (SAG_HBM_BASE_BASE e.owner) + e.base) * 2 ^ 21

/-- The lookaside jobs of a command, one for each logical block, the tweak being the block address (R394, R284): the command
waits for their answers. `blocks` lists block addresses and their bytes; `data` is what the command named. -/
def xtsAsk (d : Dev) (s : Nat) (e : NsEnt) (x : NvmeCmd) (enc : Bool) (blocks : List (Nat × List Byte)) (data : List Byte) : Dev :=
  let jobs := blocks.zipIdx.map fun (b, i) =>
    let j := d.stoJob s (.block x.sq x.cid i)
      (blockWith [(0, [if enc then 1#8 else 2#8]), (4, leBytes 4 e.kc), (8, leBytes 4 e.lba), (16, leBytes 16 b.1)]) b.2
    (⟨{ j with firing := x.firing }, none⟩ : GlzJob)
  (d.setGlz fun g => { g with jobs := g.jobs ++ jobs }).waitFor s x (.xts blocks.length data)

/-- The blocks of `bs` with their addresses. -/
def lbaBlocks (e : NsEnt) (slba : Nat) (bs : List Byte) : List (Nat × List Byte) :=
  (List.range (bs.length / e.lba)).map fun i => (slba + i, sliceB bs (i * e.lba) e.lba)

/-- The outcome of a command's `n` jobs, once all have been answered: their outputs in order, or none where one failed. -/
def xtsOutcome (d : Dev) (s : Nat) (x : NvmeCmd) (n : Nat) : Option (Option (List Byte)) :=
  let as := (List.range n).map fun i => d.stoAns s (.block x.sq x.cid i)
  if as.any (·.isNone) then none
  else if as.any (fun a => a.any (·.status != gzOk)) then some none
  else some (some (as.flatMap fun a => match a with | some a => a.out | none => []))

/-- Zero-fills a range of the HBM. -/
def hbmZero (d : Dev) (a n : Nat) : Dev :=
  if n = 0 then d
  else
    let d := { d with
      mem := { d.mem with
        hbm := if d.mem.era = 0 then d.mem.hbm.filter fun kv => !(decide (a ≤ kv.1) && decide (kv.1 < a + n))
          else listBytes d.mem.hbm a (List.replicate n 0#8)
        poison := d.mem.poison.filter fun l => !(decide (a ≤ 64 * l) && decide (64 * l + 64 ≤ a + n)) }
      core := { d.core with threads := tabMapAll (fun _ => .reset) d.core.threads fun _ t =>
        match t.resv with
        | some l => if a / 64 ≤ l ∧ l ≤ (a + n - 1) / 64 then { t with resv := none } else t
        | none => t } }
    d.markDirty a n

/-- First HBM byte of the write cache area of controller `s` (R395, R415). -/
def cacheAddr (d : Dev) (s : Nat) : Nat := (d.get (SAG_HBM_BASE_BASE s) + (d.nvme s).cacheBase) * 2 ^ 21

/-- The data of a piece of the write cache. -/
def cacheData (d : Dev) (s : Nat) (w : CacheW) : List Byte := d.hbmRead (d.cacheAddr s + w.off) w.len

/-- The lowest place of the cache area at which `n` bytes fit between what it holds (DESIGN CHOICE, notes/assumptions/40). -/
def cacheFit (c : Nvme) (n : Nat) : Option Nat :=
  let used := c.cache.filter fun w => w.len != 0
  ((0 :: used.map fun w => w.off + w.len).insertionSort (· ≤ ·)).find? fun o =>
    decide (o + n ≤ c.cachePages * 2 ^ 21) && used.all fun w => decide (o + n ≤ w.off) || decide (w.off + w.len ≤ o)

/-- The pieces of a cached write outside blocks `slba … slba + n − 1`; the first piece stands for the write, be it empty. -/
def trimW (slba n : Nat) (w : CacheW) (lba : Nat) : List CacheW :=
  if w.slba + w.nlb ≤ slba ∨ slba + n ≤ w.slba then [w]
  else
    let a := slba - w.slba
    let z := w.slba + w.nlb - (slba + n)
    { w with nlb := a, len := a * lba } ::
      (if z = 0 then [] else [{ w with slba := slba + n, nlb := z, off := w.off + (w.nlb - z) * lba, len := z * lba }])

/-- Newer data, or a deallocation, takes the place of what the write cache holds for those blocks. A failed write leaves
once nothing of it is left (R396). -/
def trimCache (d : Dev) (s n : Nat) (e : NsEnt) (slba nlb : Nat) : Dev :=
  d.modNvme s fun c => { c with cache := (c.cache.flatMap (fun w => if w.ns = n then trimW slba nlb w e.lba else [w])).filter (fun w => !(w.failed && w.nlb == 0)) }

/-- The blocks that a target returned with the writes that controller `s` has cached laid over them (R396). -/
def overCache (d : Dev) (s n : Nat) (lba slba : Nat) (bs : List Byte) : List Byte :=
  (d.nvme s).cache.foldl (fun bs w =>
    if w.ns ≠ n then bs
    else if slba ≤ w.slba then overlay bs ((w.slba - slba) * lba) (d.cacheData s w)
    else overlay bs 0 ((d.cacheData s w).drop ((slba - w.slba) * lba))) bs

/-- Writes of the cache that no target has acknowledged yet. -/
def dirty (c : Nvme) : List CacheW := c.cache.filter fun w => !w.failed

/-! ### Targets (R393) -/

/-- Whether the service of saggar `s` can send to target `t`: the entry is valid and the saggar's, and so is its egress queue (R366, R393). -/
def tgtUsable (d : Dev) (s t : Nat) : Bool :=
  let e := d.tgtEnt t
  let q := fieldLE e 34 2
  bitOf (fieldLE e 40 4) 31 && bitsOf (fieldLE e 40 4) 0 11 == s &&
    decide (d.get (SAG_QUEUES_BASE s) ≤ q) && decide (q < d.get (SAG_QUEUES_BASE s) + d.get (SAG_QUEUES_COUNT s))

/-- The frames of a message to a target leave through its egress queue, under SEC 1 by the inline transform SEC_INDEX (R393). -/
def tgtFrames (d : Dev) (s t op slba nlb : Nat) (data : List Byte) : Dev :=
  let e := d.tgtEnt t
  let q := fieldLE e 34 2
  let esp := bitsOf (fieldLE e 40 4) 29 2 == 1
  let act : Actions := { queue := q, cls := d.classOf q % 8, colour := .green, xform := if esp then some (bitsOf (fieldLE e 44 4) 0 20) else none }
  let fs := Config.targetFrames e s op slba nlb data d.fresh
  fs.foldl (fun d b =>
    let r := d.addFrame { Frame.new .firmware (withFcs false b) d.time.net d.cycle with
      ended := true, stage := if esp then .rx else .meter, act := some act, cutThrough := some false }
    if esp then r.2.enterInline r.1 else r.2) { d with fresh := d.fresh + 1 }

/-- The service opens its connections to a target, one admin connection and one for each service thread, where it has none (R393). -/
def tgtOpen (d : Dev) (s t : Nat) : Dev :=
  if (d.nvme s).conns.contains t then d
  else ((d.modNvme s fun c => { c with conns := c.conns ++ [t] }).emit (.tgtConnect s t (1 + (d.nvme s).svcThreads))).tgtFrames s t 0xFF 0 0 []

/-- A command to a target: what cannot leave gets no answer, and ends by TIMEOUT_S (R393). -/
def toTarget (d : Dev) (s t op slba nlb : Nat) (data : List Byte) : Dev :=
  if !d.tgtUsable s t then d
  else ((d.tgtOpen s t).emit (.toTarget t op slba nlb data)).tgtFrames s t op slba nlb data

/-! ### The journal (R402 to R411) -/

/-- The hash of a sherd is made on a glaze engine (R404): a SHA3-384 job of the service, whose digest is the one that the chain holds. -/
def askHash (d : Dev) (s : Nat) (bs : List Byte) : Dev :=
  let j := d.stoJob s .gone (blockWith [(0, [3#8, 5#8]), (8, leBytes 4 bs.length)]) bs
  d.setGlz fun g => { g with jobs := g.jobs ++ [⟨j, none⟩] }

/-- Whether a sherd with a payload of `n` bytes fits in what is left of a journal, its reserve included (R410). -/
def sherdFits (e : NsEnt) (n : Nat) : Bool := decide (e.jnl.head.off + sherdLen n ≤ e.bytes)

/-- The stamp of a sherd chained now to journal `n`, and its FLAGS (R403, R405). -/
def stampOf (d : Dev) (n : Nat) : Nat × Nat :=
  let now := d.time.net / 2 ^ 32
  let last := (d.nsEnt n).jnl.head.time
  (Nat.max now last, b2n (decide (now < last)) + 2 * d.get TIME_SYNC_STATE)

/-- The chain of journal `n` gets a sherd with a stamp: chained now, its hash is made, and its write to the backing begins. A remote
journal's write covers whole blocks: the bytes before the sherd again, and zeros behind it (R404). -/
def chainAs (d : Dev) (n typ app tag : Nat) (payload : List Byte) (cmd : Option (Nat × Nat × Nat × Bool)) (stamp : Nat × Nat) : Dev :=
  let e := d.nsEnt n
  let j := e.jnl
  let bs := sherdHeader typ stamp.2 j.head.seq stamp.1 payload.length j.jid j.head.hash app tag ++ payload
  let h := j.head.next typ stamp.1 d.cycle e.lba bs
  -- FULL once not even an append of one byte fits (R410)
  let full := decide (e.bytes < h.off + sherdLen 1 + 8192)
  let x : Sherd := ⟨j.head.seq, j.head.off, typ, bs, h, cmd, d.firing (.saggar e.owner), d.cycle⟩
  let d := (d.setNs n { e with jnl := { j with
    head := h, chained := j.chained ++ [x], high := Nat.max j.high (x.off + bs.length)
    state := if j.state = 0 ∧ full = true then 1 else j.state } }).askHash e.owner bs
  if e.inHbm then d
  else
    let all := j.head.part ++ bs
    let k := ceilDiv all.length e.lba
    d.toTarget e.owner e.target 0x01 (x.off / e.lba) k (sliceB all 0 (k * e.lba))

def chain (d : Dev) (n typ app tag : Nat) (payload : List Byte) (cmd : Option (Nat × Nat × Nat × Bool)) : Dev :=
  d.chainAs n typ app tag payload cmd (d.stampOf n)

/-- A signing job for the seal of journal `n` under the attestation key (R292, R408), over `msg` with `c` bytes of context in
front. -/
def askSign (d : Dev) (s n : Nat) (dsa : Bool) (c : Nat) (msg : List Byte) : Dev :=
  let alg := if dsa then 9 else 2
  d.pkHand (d.stoJob s (.sign n dsa)
    (blockWith [(0, [0x82#8, BitVec.ofNat 8 alg, 1#8]), (8, leBytes 4 msg.length), (12, leBytes 4 (sigLen alg)),
      (40, leBytes 8 (2 ^ 40)), (56, leBytes 2 c)]) msg)

/-- The result codes of the indirect set (R364, STO_IND_STATUS). -/
def stoEnd (d : Dev) (result : Nat) : Dev :=
  ((d.put STO_IND_STATUS_BUSY 0).setEvent STO_IND_STATUS_DONE).put STO_IND_STATUS_RESULT result

/-- Every command of every controller, with its controller. -/
def allCmds (d : Dev) : List (Nat × NvmeCmd) := d.sto.ctl.flatMap fun kv => kv.2.cmds.map fun x => (kv.1, x)

/-- The operation of the STO block that journal `n` runs ends (R408, R411). -/
def jnlOpEnd (d : Dev) (n result : Nat) : Dev :=
  match d.sto.op with
  | some (m, _) => if m = n then (d.setSto fun s => { s with op := none }).stoEnd result else d
  | none => d

/-- A journal has no room for a SEAL: what waits for one completes with Capacity Exceeded (DESIGN CHOICE, notes/assumptions/70). -/
def sealRefused (d : Dev) (n : Nat) : Dev :=
  let waits := d.allCmds.filter fun (_, x) => match x.wait with | .seal m _ => m == n | _ => false
  (waits.foldl (fun d (s, x) => d.completeNs s n x.sq x.cid 0 0 nvCapacity) d).jnlOpEnd n 0x17

/-- A seal of journal `n` begins if a sherd other than a SEAL stands after the last one (R408): its BODY is fixed with its stamp, and the
two signing jobs are handed to the public-key units. While the service does not run, what asked for it waits (R401, `svcResume`). -/
def startSeal (d : Dev) (n : Nat) : Dev :=
  let e := d.nsEnt n
  let j := e.jnl
  if j.sealing.isSome ∨ j.head.unsealed = 0 ∨ j.state = 2 ∨ d.svcRuns e.owner = false then d
  else if !sherdFits e 3533 then d.sealRefused n
  else
    let (t, flags) := d.stampOf n
    let body := sealBody j t (flags / 2) d.boot.fuses.devnum
    let d := d.modJnl n fun j => { j with sealing := some ⟨body, t, flags⟩ }
    (d.askSign e.owner n false 0 (sha384 body)).askSign e.owner n true 16 (sealContext ++ body)

/-- BATCH_MAX sherds since the last SEAL begin a seal (R408). -/
def batchFull (d : Dev) (n : Nat) : Dev :=
  let e := d.nsEnt n
  if Nat.max 1 e.batchMax ≤ e.jnl.head.unsealed then d.startSeal n else d

/-- The payload of GENESIS and RESUME (R406). -/
def keyPayload (d : Dev) : List Byte :=
  leBytes 4 (d.rd GLB_DEVID).toNat ++ leBytes 8 d.boot.fuses.devnum ++ List.replicate 4 0#8 ++
  (match p384.mul (attestEc d.boot.fuses.secret) p384.g with
   | some q => beBytes 48 q.1 ++ beBytes 48 q.2
   | none => List.replicate 96 0#8) ++ (attestDsa d.boot.fuses.secret).1

/-- One append (R402, R408, R410, R411). -/
def takeAppend (d : Dev) (n : Nat) (a : SherdAppend) : Dev :=
  let e := d.nsEnt n
  let j := e.jnl
  if j.state = 2 then d.completeNs a.ctl n a.sq a.cid 0 0 nvWriteFault
  else if j.sealing.isSome then d.modJnl n fun j => { j with waiting := j.waiting ++ [a] }
  else if e.bytes < j.head.off + sherdLen a.payload.length + 8192 then (d.completeNs a.ctl n a.sq a.cid 0 0 nvCapacity).startSeal n
  else
    let seq := j.head.seq
    let d := d.chain n 1 a.app a.tag a.payload (some (a.ctl, a.sq, a.cid, a.sealed))
    let d := d.modNvme a.ctl fun c => { c with
      cmds := c.cmds.map fun x => if x.sq = a.sq ∧ x.cid = a.cid then { x with wait := .durable n seq } else x }
    if a.sealed then d.startSeal n else d.batchFull n

/-- Journal `n` enters FAULT (R411): what is not durable is undone, and its commands complete with Write Fault. -/
def journalFault (d : Dev) (n status : Nat) : Dev :=
  let e := d.nsEnt n
  let j := e.jnl
  let d := d.retireJobs fun _ w => w == .sign n false || w == .sign n true
  let d := d.setNs n { e with jnl := { j with state := 2, head := j.durable, chained := [], waiting := [], sealing := none, resume := none,
                                              fault := status } }
  -- an append whose sherd is durable waits on for its seal, which follows the RESUME
  let lost := d.allCmds.filter fun (_, x) => match x.wait with
    | .durable m _ => m == n
    | .seal m _ => m == n && fieldLE x.sqe 0 1 != 0x81
    | .chain m => m == n
    | _ => false
  let d := lost.foldl (fun d (s, x) => d.completeNs s n x.sq x.cid 0 0 nvWriteFault) d
  (((d.setEvent STO_EVENT_JOURNAL_FAULT).inc STO_CNT_JOURNAL_FAULTS).postEvent e.owner 7 2 0xC1).jnlOpEnd n 0x17

/-- DW0 and DW1 of an append that succeeded (R402). -/
def appendDone (d : Dev) (s n sq cid seq : Nat) : Dev := d.completeNs s n sq cid (seq % 2 ^ 32) (seq / 2 ^ 32 % 2 ^ 24) nvOk

/-- The oldest chained sherd of journal `n` is durable (R402, R408). -/
def sherdDurable (d : Dev) (n : Nat) : Dev :=
  let e := d.nsEnt n
  let j := e.jnl
  match j.chained with
  | [] => d
  | x :: rest =>
    let pad := List.replicate (8 * ceilDiv x.bytes.length 8 - x.bytes.length) 0#8
    let d := if e.inHbm then d.hbmWrite (d.nsAddr e + x.off) (x.bytes ++ pad) else d
    let d := (d.setNs n { e with jnl := { j with chained := rest, durable := x.after } }).inc STO_CNT_SHERDS
    let d := match x.cmd with
      | some (s, sq, cid, sealed) =>
        if sealed then
          (d.modNvme s fun c => { c with
            cmds := c.cmds.map (fun (y : NvmeCmd) => if y.sq = sq ∧ y.cid = cid then { y with wait := .seal n x.seq } else y) }).startSeal n
        else d.appendDone s n sq cid x.seq
      | none => d
    let d :=
      if x.typ = 2 then
        let done := d.allCmds.filter fun (_, (y : NvmeCmd)) => match y.wait with
          | .seal m q => m == n && decide (q < x.seq)
          | _ => false
        (done.foldl (fun (d : Dev) (z : Nat × NvmeCmd) => match z.2.wait with
          | .seal _ q =>
            if fieldLE z.2.sqe 0 1 = 0x81 then d.appendDone z.1 n z.2.sq z.2.cid q else d.completeNs z.1 n z.2.sq z.2.cid 0 0 nvOk
          | _ => d) d).inc STO_CNT_SEALS
      else if x.typ = 3 then d.inc STO_CNT_RESUMES else d
    match d.sto.op with
    | some (m, q) => if m = n ∧ q ≤ x.seq then (d.setSto fun s => { s with op := none }).stoEnd 0x00 else d
    | none => d

/-- A RESUME sherd is chained (R406, R411), behind a SEAL that is being signed; then a seal begins for what waits for one. One for
which there is no room is not written (notes/assumptions/70). -/
def chainResume (d : Dev) (n app : Nat) : Dev :=
  let e := d.nsEnt n
  if e.jnl.sealing.isSome then d.modJnl n fun j => { j with resume := some app }
  else if !sherdFits e 2064 then d.jnlOpEnd n 0x17
  else
    let d := d.chain n 3 app 0 d.keyPayload none
    if d.allCmds.any fun (_, x) => match x.wait with | .seal m _ => m == n | _ => false then d.startSeal n else d.batchFull n

/-- The service of saggar `s` goes on (R378, R386): the seals that something waits for begin, and waiting completions are posted. -/
def svcResume (d : Dev) (s : Nat) : Dev :=
  if !d.svcRuns s then d
  else
    let mine := d.sto.ns.filter fun kv => kv.2.valid && kv.2.isJnl && kv.2.owner == s
    postCqes s 4096 (mine.foldl (fun d kv =>
      let asked := (d.allCmds.any fun (_, x) => match x.wait with | .seal m _ => m == kv.1 | _ => false) ||
        (match d.sto.op with | some (m, _) => m == kv.1 | none => false) || bitsOf (d.nvme s).cc 14 2 == 1
      if asked then d.startSeal kv.1 else d.batchFull kv.1) d)

/-- In a cycle: messages whose aggregation time has passed, and the service where it runs again. -/
def svcTick (d : Dev) : Dev := d.coalTick.sto.ctl.foldl (fun d kv => if kv.2.enabled then d.svcResume kv.1 else d) d.coalTick

/-! ### Resets -/

/-- The queues, commands and features of controller `s` go; a seal that is being signed goes on. Targets may still answer commands
of it (R387, R400). -/
def ctlClear (d : Dev) (s : Nat) : Dev :=
  let d := d.retireJobs fun k w => k == s && match w with | .sign _ _ => false | _ => true
  let d := d.modNvme s fun c => { c with
    late := c.late ++ c.cmds.filterMap fun x => match x.wait with
      | .target _ _ => some ⟨.answer x.sq x.cid, x.firing, d.cycle⟩
      | _ => none
    held := c.held.filter fun j => match j.sto with | some ⟨_, .sign _ _, _⟩ => true | _ => false
    rdy := false, cfs := false, shst := 0, sqs := [], cqs := [], cmds := [], cqes := [], events := [], masked := [], ps := 0
    vwc := true, coal := 0, vecs := [], aec := 0, irqHeld := [] }
  (d.sto.ns.filter fun kv => kv.2.owner == s && kv.2.isJnl).foldl (fun d kv =>
    d.modJnl kv.1 fun j => { j with waiting := [], chained := j.chained.map fun x => { x with cmd := none } }) d

/-- A write that no target has acknowledged is lost, or has failed: it is logged as it was issued (R396, R400). -/
def logDeferred (d : Dev) (s : Nat) (w : CacheW) (status : Nat) : Dev :=
  let x : DeferE := ⟨(d.nsEnt w.ns).nsid, w.wslba, w.wnlb, status, d.time.net / 2 ^ 32⟩
  (d.modNvme s fun c => if c.log.length < 64 then { c with log := c.log ++ [x] } else { c with logLost := true }).inc
    STO_CNT_DEFERRED_ERRORS

/-- The cached writes that no target has acknowledged, one for each however many pieces of it are left. -/
def dirtyWrites (c : Nvme) : List CacheW := (dirty c).foldl (fun ws w => if ws.any (·.id == w.id) then ws else ws ++ [w]) []

/-- A saggar reset, or a WRITE_CTL that clears ENABLE, resets controller `s` (R400): unacknowledged cached writes are lost,
counted and logged, and sherds that are not durable are lost (R412), with the seals that are being signed. -/
def ctlReset (d : Dev) (s : Nat) : Dev :=
  let lost := dirtyWrites (d.nvme s)
  let d := lost.foldl (fun d w => d.logDeferred s w 0) d
  let jnls := d.sto.ns.filter fun kv => kv.2.owner == s && kv.2.isJnl
  let d := d.modNvme s fun c => { c with
    late := c.late ++ lost.map (fun w => ⟨.cached w.id, w.firing, d.cycle⟩) ++
      jnls.flatMap fun kv => kv.2.jnl.chained.map fun x => ⟨.sherd kv.1, x.firing, d.cycle⟩ }
  let d := (d.modNvme s fun c => { c with cache := [], cc := 0, aqa := 0, asq := 0, acq := 0, conns := [] }).ctlClear s
  let d := (d.retireJobs fun k _ => k == s).modNvme s fun c => { c with held := [] }
  (d.sto.ns.filter fun kv => kv.2.owner == s && kv.2.isJnl).foldl (fun d kv =>
    (d.modJnl kv.1 fun j => { j with head := j.durable, chained := [], sealing := none, resume := none }).jnlOpEnd kv.1 0x17) d

end Dev
end Sys2Proof.Machine
end

