-- ==== Sys2Proof/Machine/TimeOps.lean ====
section
/-!
DEFINITION. Network time, its sync states and pulses, and the events of the gate lists (chapter Scheduling, Shaping,
Time Gates and Network Time).
-/

namespace Sys2Proof.Machine

namespace Dev

/-! ### Gate list changes (R178 to R181) -/

/-- The ADMIN values of a gate: length, cycle, extension and base in ns. -/
def adminOf (d : Dev) (g : Nat) : Nat × Nat × Nat × Nat :=
  (d.get (gateFld g 4 0 11), d.get (gateFld g 8 0 32), d.get (gateFld g 0xC 0 32),
   (d.get (gateFld g 0x18 0 16) * 2 ^ 32 + d.get (gateFld g 0x14 0 32)) * 10 ^ 9 + d.get (gateFld g 0x10 0 30))

/-- Whether a CONFIG_CHANGE is refused (R181). -/
def changeBad (d : Dev) (g : Nat) : Bool :=
  let (len, cycle, _, _) := d.adminOf g
  len == 0 || decide ((if g < 16 then 1024 else 64) < len) || decide (cycle < 1000) ||
    (List.range len).all fun e => (d.gateEntry g (1 - d.operBank g) e).1 == 0

/-- The configuration change time for an acceptance at `now` ns (R180). -/
def cctOf (base cycle now : Nat) : Nat :=
  if now + 10000 ≤ base then base else base + ceilDiv (now + 10000 - base) cycle * cycle

/-- Drops a pending change. -/
def dropChange (d : Dev) (g : Nat) : Dev :=
  let d := d.leaveView g d.cycle
  ((d.setGate g { d.gate g with pending := none }).put (gateFld g 0 4 1) 0).syncGate g

/-- The administrative list becomes operational (R180). -/
def swapList (d : Dev) (g : Nat) : Dev :=
  match (d.gate g).pending with
  | none => d
  | some c =>
    let d := d.leaveView g d.cycle
    let d := d.setGate g { d.gate g with oper := some (c.len, c.cycle, c.base), pending := none }
    let d := (d.put (gateFld g 0 3 1) (1 - d.operBank g)).put (gateFld g 0 4 1) 0
    ((d.setEvent (gateFld g 0 17 1)).inc TM_CNT_GATE_SWAPS).syncGate g

/-- The loss state that the sync state and GATE_ON_LOSS call for (R193). -/
def lossKind (d : Dev) : Option Loss :=
  if d.get TIME_SYNC_STATE = 0 ∨ d.get TIME_SYNC_STATE = 3 then
    match d.get TIME_HOLD_GATE_ON_LOSS with
    | 1 => some .closeAll
    | 2 => some .holdOpen
    | _ => none
  else none

/-- The next cycle boundary of a gate's list after the present, in ns; a pending change that takes over before it, or whose
extension leaves no old cycle to start there, begins its first cycle at its CCT (R180, R193). -/
def nextBoundary (d : Dev) (g : Nat) : Nat :=
  match (d.gate g).oper with
  | none => d.netNs
  | some (_, cycle, base) =>
    let next := fun (cycle base : Nat) => d.netNs + cycle - (⟨cycle, base, []⟩ : GateList).pos d.netNs
    let old := next cycle base
    match (d.gate g).pending with
    | none => old
    | some c =>
      if c.cct ≤ d.netNs then next c.cycle c.base
      else if c.cct ≤ old + c.ext then c.cct else old

/-- Every gate with GATE_EN = 1 takes, from cycle `c` on, the loss state that is now called for; where none is, a list held by
one resumes at its next cycle boundary (R193). -/
def applyLoss (d : Dev) (c : Nat) : Dev :=
  (List.range 272).foldl (fun d g =>
    if !d.flag (gateFld g 0 0 1) then d
    else match d.lossKind with
      | some k => let d := d.leaveView g c; (d.setGate g { d.gate g with loss := some (k, none) }).syncGate g
      | none =>
        match (d.gate g).loss with
        | some (k, none) =>
          let d := d.leaveView g c
          (d.setGate g { d.gate g with loss := some (k, some (d.nextBoundary g)) }).syncGate g
        | _ => d) d

/-! ### Sync states (R192) -/

/-- The time unit enters EXPIRED. -/
def enterExpired (d : Dev) : Dev := ((d.put TIME_SYNC_STATE 3).setEvent TIME_EVENT_EXPIRED).applyLoss d.cycle

/-- The time unit enters HOLDOVER; with HOLDOVER_LIMIT = 0 it passes to EXPIRED in the same cycle (R192, R193). -/
def enterHoldover (d : Dev) : Dev :=
  let d := ((d.put TIME_SYNC_STATE 2).setEvent TIME_EVENT_HOLDOVER).put TIME_HOLD_ELAPSED_S 0
  let d := { d with time := { d.time with since := d.cycle } }
  if d.get TIME_HOLD_HOLDOVER_LIMIT = 0 then d.enterExpired else d

/-! ### The counter (R187) -/

/-- Network time jumps: list positions follow the new time, a pending CCT already passed is applied at once, and no
pulse is emitted for the seconds jumped over (R181, R190). -/
def jumpTo (d : Dev) (net : Nat) : Dev :=
  let d := d.leaveCount d.cycle
  let d := { d with time := { d.time with net := net }, tm := { d.tm with held := [] } }
  let ofs := signedOf 32 (d.get TIME_PPS_OUT_OFS_NS)
  let d := { d with time := { d.time with ppsLast := (((d.netNs : Int) - ofs + 4000000000) / 1000000000).toNat } }
  let gs := (List.range 272).filter fun g => decide (d.gate g ≠ Gate.reset)
  gs.foldl (fun d g =>
    let d := match (d.gate g).pending with
      | some c => if c.cct ≤ d.netNs then d.swapList g else d
      | none => d
    let d := match (d.gate g).loss with
      | some (k, some _) =>
        let d := d.leaveView g d.cycle
        d.setGate g { d.gate g with loss := some (k, some (d.nextBoundary g)) }
      | _ => d
    d.syncGate g) d

end Dev

/-! ### The commands -/

/-- GATE_TRANSITION (R177): the gate states in force at this network time are shown. -/
def doGateTransition (g : Fin 272) (d : Dev) : Dev := d.syncGate g

/-- CONFIG_CHANGE (R180, R181). -/
def doGateConfigChange (p : Path) (g : Fin 272) (data : W32) (d : Dev) : Dev :=
  let d := d.writeFields p (Dev.gateCtrl g) data
  if fieldGet data 7 1 = 0 then d
  else if d.changeBad g then ((d.dropChange g).setEvent (Dev.gateFld g 0 16 1))
  else
    let (len, cycle, ext, base) := d.adminOf g
    let cct := Dev.cctOf base cycle (ceilDiv d.time.net (2 ^ 48))
    let d := d.leaveView g d.cycle
    let d := d.setGate g { d.gate g with pending := some ⟨len, cycle, ext, base, cct⟩ }
    let d := (d.put (Dev.gateFld g 0x20 0 30) (cct % 10 ^ 9)).put (Dev.gateFld g 0x24 0 32) (cct / 10 ^ 9 % 2 ^ 32)
    ((d.put (Dev.gateFld g 0x28 0 16) (cct / 10 ^ 9 / 2 ^ 32)).put (Dev.gateFld g 0 4 1) 1).syncGate g

/-- CANCEL (R181). -/
def doGateCancel (p : Path) (g : Fin 272) (data : W32) (d : Dev) : Dev :=
  let d := d.writeFields p (Dev.gateCtrl g) data
  if fieldGet data 8 1 = 1 ∧ (d.gate g).pending.isSome = true then d.dropChange g else d

/-- GATE_ENABLE (R178, R193): from the next cycle on. Clearing GATE_EN also cancels a pending change and keeps the operational
list. -/
def doGateEnable (p : Path) (g : Fin 272) (data : W32) (d : Dev) : Dev :=
  let d := d.writeFields p (Dev.gateCtrl g) data
  let on := fieldGet data 0 1
  if on = d.get (Dev.gateFld g 0 0 1) then d
  else
    let d := (d.leaveView g (d.cycle + 1)).put (Dev.gateFld g 0 0 1) on
    if on = 0 then (d.setGate g { d.gate g with loss := none }).dropChange g
    else d.setGate g { d.gate g with loss := d.lossKind.map fun k => (k, none) }

/-- GATE_LIST_SWAP (R180). -/
def doGateListSwap (g : Fin 272) (d : Dev) : Dev :=
  match (d.gate g).pending with
  | some c => if c.cct ≤ d.netNs then d.swapList g else d
  | none => d

/-- GATE_LIST_RESUME (R193). -/
def doGateListResume (g : Fin 272) (d : Dev) : Dev :=
  match (d.gate g).loss with
  | some (_, some r) =>
    if r ≤ d.netNs then
      let d := d.leaveView g d.cycle
      (d.setGate g { d.gate g with loss := none }).syncGate g
    else d
  | _ => d

/-- GATE_ON_LOSS_WRITE (R193): it acts from the next cycle on. -/
def doGateOnLossWrite (p : Path) (data : W32) (d : Dev) : Dev :=
  let d := d.writeFields p TIME_HOLD data
  (d.put TIME_HOLD_GATE_ON_LOSS (fieldGet data 30 2)).applyLoss (d.cycle + 1)

/-- The time that STEP loads, in 2^-48 ns (R187). -/
def stepTime (d : Dev) : Nat :=
  ((d.get TIME_SET_S_HI_S * 2 ^ 32 + d.get TIME_SET_S_LO_S) * 10 ^ 9 + d.get TIME_SET_NS_NS) * 2 ^ 48

/-- The time `net` after OFFSET; a negative time becomes 0 (R187). -/
def offsetTime (d : Dev) (net : Nat) : Nat :=
  let ns := signedOf 32 (d.get TIME_OFFSET_NS)
  let t := (net : Int) + ns * 2 ^ 48
  (if t < 0 then 0 else t.toNat) % (2 ^ 96 * 10 ^ 9)

/-- STEP (R187). -/
def doTimeStep (_p : Path) (data : W32) (d : Dev) : Dev :=
  if fieldGet data 0 1 = 1 then d.jumpTo (stepTime d) else d

/-- OFFSET (R187). -/
def doTimeOffset (_p : Path) (data : W32) (d : Dev) : Dev :=
  if fieldGet data 1 1 = 1 then d.jumpTo (offsetTime d d.time.net) else d

/-- A write of TIME_CMD: STEP first and then OFFSET, in one TIME cycle (R187). -/
def timeCmd (data : W32) (d : Dev) : Dev :=
  let step := fieldGet data 0 1 == 1
  let offset := fieldGet data 1 1 == 1
  let t := if step then stepTime d else d.time.net
  if step || offset then d.jumpTo (if offset then offsetTime d t else t) else d

/-- KICK (R192, R193): it wins over the limits that run out in its cycle. -/
def doTimeKick (p : Path) (data : W32) (d : Dev) : Dev :=
  let d := (if fieldGet data 31 1 = 1 then d.before .syncExpired else d).writeFields p TIME_SYNC data
  if fieldGet data 31 1 = 0 then d
  else
    let was := d.get TIME_SYNC_STATE
    let d := { d.put TIME_SYNC_STATE 1 with time := { d.time with since := d.cycle } }
    if was = 1 then d else (d.setEvent TIME_EVENT_LOCKED).applyLoss d.cycle

/-- FORCE_HOLDOVER (R192): acts only in LOCKED. -/
def doForceHoldover (p : Path) (data : W32) (d : Dev) : Dev :=
  let d := d.writeFields p TIME_SYNC data
  if fieldGet data 30 1 = 1 ∧ d.get TIME_SYNC_STATE = 1 then d.enterHoldover else d

/-- SYNC_TIMEOUT (R192). -/
def doSyncTimeout (d : Dev) : Dev :=
  if d.get TIME_SYNC_STATE = 1 ∧ d.time.since + d.get TIME_SYNC_TIMEOUT_S * cyS ≤ d.cycle then
    d.enterHoldover.mark .syncExpired
  else d

/-- HOLDOVER_EXPIRY (R192). -/
def doHoldoverExpiry (d : Dev) : Dev :=
  if d.get TIME_SYNC_STATE = 2 ∧ d.time.since + d.get TIME_HOLD_HOLDOVER_LIMIT * cyS ≤ d.cycle then
    d.enterExpired.mark .syncExpired
  else d

/-- PPS_OUT_PULSE (R190): network time has reached, by counting, a whole second plus PPS_OUT_OFS. While the gate is closed the
pin stays low (R440). -/
def doPpsOutPulse (d : Dev) : Dev :=
  let x := (d.netNs : Int) - signedOf 32 (d.get TIME_PPS_OUT_OFS_NS) + 4000000000
  let idx := (x / 1000000000).toNat
  if d.flag TIME_PPS_OUT_EN ∧ idx ≠ d.time.ppsLast ∧ x % 1000000000 < 3 then
    { d with time := { d.time with ppsOut := d.flag BOOT_STATUS_GATE_OPEN, ppsLast := idx,
                                   ppsFall := d.cycle + d.get TIME_PPS_OUT_WIDTH_US * cyUs } }
  else d

/-- PPS_OUT_FALL (R190). -/
def doPpsOutFall (d : Dev) : Dev :=
  if d.time.ppsOut = true ∧ d.time.ppsFall ≤ d.cycle then { d with time := { d.time with ppsOut := false } } else d

/-- PPS_IN_EDGE (R191): an edge of PPS_IN, falling or rising, of a pulse that lasts so many ns; pulses shorter than 100 ns are
ignored. -/
def doPpsInEdge (edge : Bool × Nat) (d : Dev) : Dev :=
  let (falling, ns) := edge
  if d.flag TIME_PPS_IN_CFG_EN && (d.flag TIME_PPS_IN_CFG_FALLING == falling) && decide (100 ≤ ns) then
    let d := if d.flag TIME_EVENT_PPS_IN then d.setEvent TIME_EVENT_PPS_IN_OVERRUN else d
    { d with time := { d.time with ppsIn := d.time.net } }.setEvent TIME_EVENT_PPS_IN
  else d

end Sys2Proof.Machine
end

