-- ==== Sys2Proof/Machine/StoOps.lean ====
section
/-!
DEFINITION. The storage commands: doorbells, controller enable and shutdown, the admin and I/O commands, the sealed
journal, and the indirect operations of the STO block. A command's operands carry what the service reads from outside:
the submission queue entry and the data from host memory, and the answer of a remote target.
-/

namespace Sys2Proof.Machine

/-! ### Taking a command -/

/-- A field of a submission queue entry: command dword `i`. -/
def cdw (sqe : List Byte) (i : Nat) : Nat := fieldLE sqe (4 * i) 4
def sqeCid (sqe : List Byte) : Nat := fieldLE sqe 2 2
def sqeNsid (sqe : List Byte) : Nat := cdw sqe 1
def sqeSlba (sqe : List Byte) : Nat := fieldLE sqe 40 8
def sqeNlb (sqe : List Byte) : Nat := bitsOf (cdw sqe 12) 0 16 + 1
/-- FUSE or PSDT is set: both are absent (R389). -/
def sqeBad (sqe : List Byte) : Bool := bitsOf (cdw sqe 0) 8 8 != 0

/-- The segments of a PRP data pointer (R389): addresses and lengths of `n` bytes; `prps` is what its PRP list holds. None
where an entry behind the first is not page aligned. -/
def prpSegs (sqe : List Byte) (n : Nat) (prps : List Nat) : Option (List (Nat × Nat)) :=
  let p1 := fieldLE sqe 24 8
  let p2 := fieldLE sqe 32 8
  let n1 := Nat.min n (4096 - p1 % 4096)
  let rest := n - n1
  let pages := if rest = 0 then [] else if rest ≤ 4096 then [p2] else prps.take (ceilDiv rest 4096)
  if pages.any (fun a => a % 4096 != 0) then none
  else some ((p1, n1) :: pages.zipIdx.map fun (a, i) => (a, Nat.min 4096 (rest - 4096 * i)))

namespace Dev

/-- Controller `s` leaves PS1: its service threads run again (R397). -/
def leavePs1 (d : Dev) (s : Nat) : Dev :=
  if (d.nvme s).ps = 0 then d
  else
    let d := d.modNvme s fun c => { c with ps := 0 }
    (List.range (d.nvme s).svcThreads).foldl (fun d i =>
      d.modThread (d.get (SAG_THREADS_BASE s) + i) fun t =>
        { t with wait := match t.wait with | .twait _ => .run | w => w }) d

/-- The service takes the next command of SQ `q` of controller `s` (R390): the oldest that an Abort has fetched, or the entry
`sqe` at the queue's head. It must carry opcode `op`. An I/O command leaves PS1 (R397), and waits while the saggar's DMA rate holds
the service's channel (R373, R386). -/
def takeCmd (d : Dev) (s q op : Nat) (sqe : List Byte) : Option (NvmeCmd × Dev) :=
  let c := d.nvme s
  if !d.ctlRuns s || (q != 0 && !d.rateOk .dma (some s)) then none
  else match tabGet (fun _ => none) c.sqs q with
    | none => none
    | some (y : Sq) =>
      match c.cmds.find? fun x => x.sq == q && x.wait == .queued with
      | some x =>
        if fieldLE x.sqe 0 1 ≠ op then none
        else some (x, if q = 0 then d else d.leavePs1 s)
      | none =>
        if y.head = y.tail ∨ fieldLE sqe 0 1 ≠ op then none
        else
          let x : NvmeCmd := { sq := q, cid := sqeCid sqe, sqe := sqe, at_ := d.cycle, wait := .queued, firing := d.firing (.saggar s) }
          let d := d.setNvme s { c with
            sqs := tabSet (fun _ => none) c.sqs q (some { y with head := (y.head + 1) % y.size })
            cmds := c.cmds ++ [x] }
          some (x, if q = 0 then d else d.leavePs1 s)

/-- A command that waits for its target, or for the service to take its target's answer, which the operands name by queue and identifier. -/
def awaiting (d : Dev) (s q op : Nat) (sqe : List Byte) : Option NvmeCmd :=
  (d.nvme s).cmds.find? fun x => x.sq == q && x.cid == sqeCid sqe && fieldLE x.sqe 0 1 == op && match x.wait with
    | .target _ _ => true
    | .got _ _ => true
    | _ => false

/-- A command that waits for its encryption or decryption jobs, with their number and the data that it named. -/
def ciphering (d : Dev) (s q op : Nat) (sqe : List Byte) : Option (NvmeCmd × Nat × List Byte) :=
  (d.nvme s).cmds.findSome? fun x => if x.sq == q && x.cid == sqeCid sqe && fieldLE x.sqe 0 1 == op then (match x.wait with
      | .xts n data => some (x, n, data)
      | _ => none)
    else none

/-- A command completes; an I/O command to a namespace shows DEFERRED, whatever ended it (R391, R396). -/
def done (d : Dev) (s : Nat) (x : NvmeCmd) (dw0 status : Nat) : Dev :=
  match if x.sq = 0 then none else d.nsFind s (sqeNsid x.sqe) with
  | some (n, _) => d.completeNs s n x.sq x.cid dw0 0 status
  | none => d.complete s x.sq x.cid dw0 0 status
def doneNs (d : Dev) (s n : Nat) (x : NvmeCmd) (status : Nat) : Dev := d.completeNs s n x.sq x.cid 0 0 status

/-- Data of a command go to the host by its PRPs through the service's channel, and it completes (R386). -/
def giveData (d : Dev) (s : Nat) (x : NvmeCmd) (prps : List Nat) (bs : List Byte) (fin : Nat → Dev → Dev) : Dev :=
  match prpSegs x.sqe bs.length prps with
  | none => fin nvBadPrp d
  | some segs =>
    fin nvOk (segs.foldl (fun (acc : Dev × Nat) g => (acc.1.ctlWrite s x.firing g.1 (sliceB bs acc.2 g.2) true, acc.2 + g.2)) (d.svcMoved s bs.length true, 0)).1

/-- The common checks of an I/O command that names blocks: the entry, or the status of its failure. -/
def ioCheck (d : Dev) (s : Nat) (x : NvmeCmd) (slba nlb : Nat) (write : Bool) : Except (Option Nat × Nat) Nat :=
  match d.nsFind s (sqeNsid x.sqe) with
  | none => .error (none, nvBadNs)
  | some (n, reader) =>
    let e := d.nsEnt n
    if sqeBad x.sqe then .error (some n, nvBadField)
    else if write && (e.isJnl || reader) then .error (some n, nvProtected)
    else if e.size < slba + nlb then .error (some n, nvRange)
    else .ok n

def ioFail (d : Dev) (s : Nat) (x : NvmeCmd) (f : Option Nat × Nat) : Dev :=
  match f.1 with
  | some n => d.doneNs s n x f.2
  | none => d.done s x 0 f.2

/-- The cached writes with number `id` are acknowledged, or have failed: what waits for them goes on (R395, R397). -/
def cacheSettled (d : Dev) (s id : Nat) (failed : Bool) : Dev :=
  let c := d.nvme s
  let step := fun (x : NvmeCmd) => match x.wait with
    | .cache ids f => if ids.contains id then { x with wait := .cache (ids.filter (· != id)) (f || failed) } else x
    | .ps1 f => { x with wait := .ps1 (f || failed) }
    | _ => x
  let d := d.setNvme s { c with
    cmds := c.cmds.map step
    shst := if c.shst = 1 ∧ (dirty c).isEmpty = true then 2 else c.shst }
  let ready := (d.nvme s).cmds.filterMap fun x => match x.wait with | .cache [] f => some (x, f) | _ => none
  ready.foldl (fun d (x, f) =>
    match d.nsFind s (sqeNsid x.sqe) with
    | some (n, _) => d.doneNs s n x (if f then nvWriteFault else nvOk)
    | none => d.done s x 0 (if f then nvWriteFault else nvOk)) d

/-- What target `t` answers to a command of saggar `s`: nothing, where the command could not leave (R393). -/
def heard (d : Dev) (s t : Nat) (ans : Option (Nat × List Byte)) : Option (Nat × List Byte) := if d.tgtUsable s t then ans else none

/-- Write or Write Zeroes of `data` (in stored form) to blocks of entry `n` (R395). -/
def storeBlocks (d : Dev) (s n : Nat) (x : NvmeCmd) (op slba nlb : Nat) (data : List Byte) (ans : Option (Nat × List Byte)) : Dev :=
  let e := d.nsEnt n
  if e.inHbm then ((d.hbmWrite (d.nsAddr e + slba * e.lba) data).svcMoved s data.length false).doneNs s n x nvOk
  else
    let d := (d.toTarget s e.target op slba nlb data).trimCache s n e slba nlb
    let c := d.nvme s
    match if c.vwc then cacheFit c data.length else none with
    | some off =>
      let d := (d.hbmWrite (d.cacheAddr s + off) data).svcMoved s data.length false
      let d := d.modNvme s fun c => { c with
        cache := c.cache ++ [⟨c.nextId, n, slba, nlb, off, data.length, false, slba, nlb, x.firing, d.cycle⟩], nextId := c.nextId + 1 }
      d.doneNs s n x nvOk
    | none =>
      match d.heard s e.target ans with
      | some (st, _) => d.doneNs s n x (st % 2 ^ 11)
      | none => d.waitFor s x (.target e.target d.cycle)

/-- A command of opcode `op` of SQ `q` goes on: one that its target has answered, one whose jobs are all answered, or else the
next of the queue, which starts. `answered` gets the entry and the target's answer; `ciphered` the entry, the jobs' outputs
and the data the command named. While the service does not run a target's answer is kept until it does (R401). An answer to nothing
that waits is a late one (R400). -/
def ioStep (d : Dev) (s q op : Nat) (sqe : List Byte) (ans : Option (Nat × List Byte))
    (answered : Dev → Nat → NvmeCmd → Nat × List Byte → Dev) (ciphered : Dev → Nat → NvmeCmd → List Byte → List Byte → Dev)
    (start : Dev → NvmeCmd → Dev) : Dev :=
  let named := fun (d : Dev) (x : NvmeCmd) (f : Nat → Dev) => match d.nsFind s (sqeNsid x.sqe) with
    | some (n, _) => f n
    | none => d.done s x 0 nvBadNs
  if q = 0 then d
  else match d.awaiting s q op sqe, ans with
    | some x, a =>
      match x.wait, a with
      | .got st bs, _ => if d.ctlRuns s then named d x fun n => answered d n x (st, bs) else d
      | _, some a => if d.ctlRuns s then named d x fun n => answered d n x a else d.waitFor s x (.got a.1 a.2)
      | _, none => d
    | none, _ =>
      match d.ciphering s q op sqe with
      | some (x, n, data) =>
        if !d.ctlRuns s then d
        else match d.xtsOutcome s x n with
          | none => d
          | some r =>
            let d := d.retireJobs fun k w => k == s && match w with | .block y i _ => y == x.sq && i == x.cid | _ => false
            named d x fun k => match r with
              | none => d.doneNs s k x nvInternal
              | some out => ciphered d k x out data
      | none =>
        match d.takeCmd s q op sqe with
        | some (x, d) => start d x
        | none => if ans.isSome then d.lateReturn s (.answer q (sqeCid sqe)) else d

end Dev

/-! ### Doorbells and controller control (R387, R388) -/

/-- SQ_TAIL_DOORBELL (R387): new entries are available; the value already held has no effect (R388). A bad queue or value is
an error event. -/
def doSqTailDoorbell (s : Fin 2048) (y : Fin 65) (data : W32) (d : Dev) : Dev :=
  let v := fieldGet data 0 16
  if !(d.ctlOn s && (d.nvme s).rdy) then d
  else match tabGet (fun _ => none) (d.nvme s).sqs y with
    | none => d.postEvent s 0 0 1
    | some (q : Sq) =>
      if q.size ≤ v then d.postEvent s 0 1 1
      else d.modNvme s fun c => { c with sqs := tabSet (fun _ => none) c.sqs y (some { q with tail := v }) }

/-- CQ_HEAD_DOORBELL (R387): entries are free, and completions that wait are posted. -/
def doCqHeadDoorbell (s : Fin 2048) (y : Fin 65) (data : W32) (d : Dev) : Dev :=
  let v := fieldGet data 0 16
  if !(d.ctlOn s && (d.nvme s).rdy) then d
  else match tabGet (fun _ => none) (d.nvme s).cqs y with
    | none => d.postEvent s 0 0 1
    | some (q : Cq) =>
      if q.size ≤ v then d.postEvent s 0 1 1
      else Dev.postCqes s 4096 (d.modNvme s fun c => { c with cqs := tabSet (fun _ => none) c.cqs y (some { q with head := v }) })

/-- Whether a value of CC has every size and set of R387, as it must while EN = 1. -/
def ccGood (v : Nat) : Bool :=
  bitsOf v 4 3 == 0 && bitsOf v 7 4 == 0 && bitsOf v 11 3 == 0 && bitsOf v 16 4 == 6 && bitsOf v 20 4 == 4

/-- CC_ENABLE (R387, R406): the fields of CC but SHN; reserved bits stay 0. A size or set other than those of R387 is a fatal
status while EN = 1; enabled well, the controller is ready, with its admin queues and a RESUME on every journal that has sherds. -/
def doCcEnable (s : Fin 2048) (data : W32) (d : Dev) : Dev :=
  if !d.ctlOn s then d
  else
    let c := d.nvme s
    let v := data.toNat
    let was := bitOf c.cc 0
    let d := d.modNvme s fun c => { c with cc := bitsOf v 0 1 + bitsOf v 4 10 * 2 ^ 4 + bitsOf c.cc 14 2 * 2 ^ 14 + bitsOf v 16 8 * 2 ^ 16 }
    if bitOf v 0 && !ccGood v then d.modNvme s fun c => { c with cfs := true }
    else if bitOf v 0 && !was then
      let d := d.modNvme s fun c => { c with
        rdy := true
        sqs := [(0, some ⟨c.asq / 4096 * 4096, bitsOf c.aqa 0 12 + 1, 0, 0, 0⟩)]
        cqs := [(0, some ⟨c.acq / 4096 * 4096, bitsOf c.aqa 16 12 + 1, true, 0, 0, 0, true⟩)] }
      (d.sto.ns.filter fun kv => kv.2.valid && kv.2.isJnl && kv.2.owner == s.val && kv.2.jnl.head.seq != 0 &&
          kv.2.jnl.state != 2).foldl (fun d kv => d.chainResume kv.1 1) d
    else if !bitOf v 0 && was then d.ctlClear s
    else d

/-- CC_SHUTDOWN (R387, R408): the write cache is flushed, and a normal shutdown seals the journals. -/
def doCcShutdown (s : Fin 2048) (data : W32) (d : Dev) : Dev :=
  let shn := fieldGet data 14 2
  if !d.ctlOn s then d
  else
    let d := d.modNvme s fun c => { c with cc := c.cc - bitsOf c.cc 14 2 * 2 ^ 14 + shn * 2 ^ 14 }
    if shn = 0 ∨ (d.nvme s).shst ≠ 0 then d
    else
      let d := d.modNvme s fun c => { c with shst := if (Dev.dirty c).isEmpty then 2 else 1 }
      if shn = 1 then
        (d.sto.ns.filter fun kv => kv.2.valid && kv.2.isJnl && kv.2.owner == s.val).foldl (fun d kv => d.startSeal kv.1) d
      else d

namespace Dev

/-- CSTS (R387); 0 while the controller is not enabled (R385). -/
def csts (d : Dev) (s : Nat) : Nat :=
  let c := d.nvme s
  if d.ctlOn s then b2n c.rdy + 2 * b2n c.cfs + 4 * c.shst else 0

/-- A DW of the NVMe controller registers (R387); registers of absent features read 0. -/
def nvmeReg (d : Dev) (s off : Nat) : Nat :=
  let c := d.nvme s
  match off with
  | 0x00 => 0x02010FFF
  | 0x04 => 0x00000020
  | 0x08 => 0x00020000
  | 0x14 => c.cc
  | 0x1C => d.csts s
  | 0x24 => c.aqa
  | 0x28 => c.asq % 2 ^ 32
  | 0x2C => c.asq / 2 ^ 32
  | 0x30 => c.acq % 2 ^ 32
  | 0x34 => c.acq / 2 ^ 32
  | _ => 0

/-- A write of a DW of AQA, ASQ or ACQ. -/
def nvmeRegWrite (d : Dev) (s off v : Nat) : Dev :=
  let lo := fun x => x / 2 ^ 32 * 2 ^ 32 + v / 4096 * 4096
  let hi := fun x => v * 2 ^ 32 + x % 2 ^ 32
  d.modNvme s fun c => match off with
    | 0x24 => { c with aqa := bitsOf v 0 12 + bitsOf v 16 12 * 2 ^ 16 }
    | 0x28 => { c with asq := lo c.asq }
    | 0x2C => { c with asq := hi c.asq }
    | 0x30 => { c with acq := lo c.acq }
    | 0x34 => { c with acq := hi c.acq }
    | _ => c

end Dev

/-! ### Admin commands (R390) -/

/-- CREATE_IO_SQ (R390): up to 64, physically contiguous. -/
def doNvmeCreateIoSq (s : Fin 2048) (sqe : List Byte) (d : Dev) : Dev :=
  match d.takeCmd s 0 0x01 sqe with
  | none => d
  | some (x, d) =>
    let c := d.nvme s
    let qid := bitsOf (cdw x.sqe 10) 0 16
    let size := bitsOf (cdw x.sqe 10) 16 16
    let cq := bitsOf (cdw x.sqe 11) 16 16
    if sqeBad x.sqe then d.done s x 0 nvBadField
    else if qid = 0 ∨ 64 < qid ∨ tabGet (fun _ => none) c.sqs qid ≠ none then d.done s x 0 (nvSt 1 0x01)
    else if cq = 0 ∨ 64 < cq then d.done s x 0 (nvSt 1 0x01)
    else if tabGet (fun _ => none) c.cqs cq = none then d.done s x 0 (nvSt 1 0x00)
    else if size = 0 ∨ 4095 < size then d.done s x 0 (nvSt 1 0x02)
    else if bitOf (cdw x.sqe 11) 0 = false then d.done s x 0 nvBadField
    else
      (d.modNvme s fun c => { c with
        sqs := tabSet (fun _ => none) c.sqs qid (some ⟨fieldLE x.sqe 24 8, size + 1, cq, 0, 0⟩) }).done s x 0 nvOk

/-- CREATE_IO_CQ (R390). -/
def doNvmeCreateIoCq (s : Fin 2048) (sqe : List Byte) (d : Dev) : Dev :=
  match d.takeCmd s 0 0x05 sqe with
  | none => d
  | some (x, d) =>
    let c := d.nvme s
    let qid := bitsOf (cdw x.sqe 10) 0 16
    let size := bitsOf (cdw x.sqe 10) 16 16
    let vec := bitsOf (cdw x.sqe 11) 16 16
    let ien := bitOf (cdw x.sqe 11) 1
    if sqeBad x.sqe then d.done s x 0 nvBadField
    else if qid = 0 ∨ 64 < qid ∨ tabGet (fun _ => none) c.cqs qid ≠ none then d.done s x 0 (nvSt 1 0x01)
    else if size = 0 ∨ 4095 < size then d.done s x 0 (nvSt 1 0x02)
    else if bitOf (cdw x.sqe 11) 0 = false then d.done s x 0 nvBadField
    else if d.msixSize (d.sagLink s) (d.sagFunc s) ≤ vec then d.done s x 0 (nvSt 1 0x08)
    else
      (d.modNvme s fun c => { c with
        cqs := tabSet (fun _ => none) c.cqs qid (some ⟨fieldLE x.sqe 24 8, size + 1, ien, vec, 0, 0, true⟩) }).done s x 0 nvOk

/-- DELETE_IO_SQ (R390): the commands that the queue still holds complete with Command Aborted due to SQ Deletion. -/
def doNvmeDeleteIoSq (s : Fin 2048) (sqe : List Byte) (d : Dev) : Dev :=
  match d.takeCmd s 0 0x00 sqe with
  | none => d
  | some (x, d) =>
    let qid := bitsOf (cdw x.sqe 10) 0 16
    if qid = 0 ∨ tabGet (fun _ => none) (d.nvme s).sqs qid = none then d.done s x 0 (nvSt 1 0x01)
    else
      let gone := (d.nvme s).cmds.filter fun y => y.sq == qid
      let d := gone.foldl (fun d y => d.done s y 0 nvSqGone) d
      let d := d.setSto fun t => { t with ns := tabMapAll (fun _ => .reset) t.ns fun _ e =>
        { e with jnl := { e.jnl with
            waiting := e.jnl.waiting.filter (fun a => !(a.ctl == s.val && a.sq == qid))
            chained := e.jnl.chained.map (fun (z : Sherd) => match z.cmd with
              | some (c, q, _, _) => if c = s.val ∧ q = qid then { z with cmd := none } else z
              | none => z) } } }
      (d.modNvme s fun c => { c with sqs := tabSet (fun _ => none) c.sqs qid none }).done s x 0 nvOk

/-- DELETE_IO_CQ (R390): refused while a submission queue posts to it. -/
def doNvmeDeleteIoCq (s : Fin 2048) (sqe : List Byte) (d : Dev) : Dev :=
  match d.takeCmd s 0 0x04 sqe with
  | none => d
  | some (x, d) =>
    let c := d.nvme s
    let qid := bitsOf (cdw x.sqe 10) 0 16
    if qid = 0 ∨ tabGet (fun _ => none) c.cqs qid = none then d.done s x 0 (nvSt 1 0x01)
    else if c.sqs.any fun kv => match kv.2 with | some q => q.cq == qid | none => false then d.done s x 0 (nvSt 1 0x0C)
    else (d.modNvme s fun c => { c with cqs := tabSet (fun _ => none) c.cqs qid none }).done s x 0 nvOk

/-- The log pages of R390. -/
def logPages : List Nat := [0x01, 0x02, 0x03, 0x04, 0xC0, 0xC1]

/-- Fields of a data structure laid over it. -/
def layAll (bs : List Byte) (fs : List (Nat × List Byte)) : List Byte := fs.foldl (fun b f => overlay b f.1 f.2) bs

namespace Dev

/-- `n` bytes at `off` of a log page of controller `s` (R390, R396, R411), over bytes that nothing fixes: the cited specification lays out
pages 0x01 to 0x04; the fields of 0xC0 and 0xC1 are the manual's, and their places are not given (notes/assumptions/40). -/
def logPage (d : Dev) (s lid nsid off n : Nat) (fb : List Byte) : List Byte :=
  let c := d.nvme s
  let laid := fun (page : List Byte) => let p := (page.drop off).take n; p ++ fb.drop p.length
  let tail := fun i m => (fb.drop i).take m
  let bytes := fun (f : Nat → Byte) => (List.range n).map fun i => f (off + i)
  match lid with
  | 0x01 => laid ((c.errs.flatMap fun e => leBytes 8 e.num ++ leBytes 2 e.sq ++ leBytes 2 e.cid ++ leBytes 2 (2 * e.status) ++ tail 14 2 ++
      leBytes 8 e.slba ++ leBytes 4 e.nsid ++ tail 28 36) ++ (List.replicate (64 - c.errs.length) (List.replicate 64 0#8)).flatten)
  | 0x02 =>
    let v := fun i => c.smart.getD i 0
    laid (layAll (sliceB (fb ++ List.replicate 512 0#8) 0 512) [(32, leBytes 16 (ceilDiv (v 0) 1000)), (48, leBytes 16 (ceilDiv (v 1) 1000)),
      (64, leBytes 16 (v 2)), (80, leBytes 16 (v 3)), (176, leBytes 16 c.errN)])
  | 0x03 => laid ([1#8] ++ List.replicate 7 0#8 ++ (List.range 8).map (Config.firmwareRev d.boot.glost) ++ List.replicate 496 0#8)
  | 0x04 => laid ((c.changed.insertionSort (· ≤ ·)).flatMap (leBytes 4 ·) ++ List.replicate (4096 - 4 * c.changed.length) 0#8)
  | 0xC0 =>
    let f := Config.deferredPage (c.log.map fun e => [e.nsid, e.slba, e.nlb, e.status, e.time])
    bytes fun i => if i = 0 then f 0 &&& 0xFE#8 ||| BitVec.ofNat 8 (b2n c.logLost) else f i
  | _ =>
    let j := (match d.nsFind s nsid with | some (k, _) => d.nsEnt k | none => .reset).jnl
    bytes (Config.journalPage [j.state, j.head.seq, j.head.off, match j.head.lastSeal with | some q => q + 1 | none => 0, j.fault])

end Dev

/-- GET_LOG_PAGE (R389, R390, R396, R411): at most 256 KiB. Reading 0xC0 clears its bit and the log; reading 0x04 clears the list. -/
def doNvmeGetLogPage (s : Fin 2048) (sqe : List Byte) (prps : List Nat) (d : Dev) : Dev :=
  match d.takeCmd s 0 0x02 sqe with
  | none => d
  | some (x, d) =>
    let lid := bitsOf (cdw x.sqe 10) 0 8
    let n := (bitsOf (cdw x.sqe 10) 16 16 + bitsOf (cdw x.sqe 11) 0 16 * 2 ^ 16 + 1) * 4
    let off := cdw x.sqe 12 + cdw x.sqe 13 * 2 ^ 32
    if sqeBad x.sqe ∨ 262144 < n then d.done s x 0 nvBadField
    else if !logPages.contains lid then d.done s x 0 (nvSt 1 0x09)
    else
      let (fb, d) := d.freeBytes n
      let bs := d.logPage s lid (sqeNsid x.sqe) off n fb
      let clear := fun (d : Dev) => d.modNvme s fun c => { c with
        changed := if lid = 0x04 then [] else c.changed
        log := if lid = 0xC0 then [] else c.log
        logLost := if lid = 0xC0 then false else c.logLost
        masked := if bitOf (cdw x.sqe 10) 15 then c.masked else c.masked.filter (fun m => m % 256 != lid) }
      Dev.giveData d s x prps bs fun st d =>
        if st = nvOk then Dev.pumpEvents s 8 ((clear d).done s x 0 st) else d.done s x 0 st

/-- ASCII of decimal text and hexadecimal digits. -/
def hexDigit (v : Nat) : Byte := BitVec.ofNat 8 (if v < 10 then 0x30 + v else 0x37 + v)
def hexText (n v : Nat) : List Byte := ((List.range n).map fun i => hexDigit (v / 16 ^ i % 16)).reverse

namespace Dev

/-- The Identify Controller data of R389 and R390, over bytes that nothing fixes: what reports an absent feature is zero. -/
def idController (d : Dev) (s : Nat) (fb : List Byte) : List Byte :=
  let h := d.hifProfile (d.sagLink s / 4)
  layAll fb
    [(0, leBytes 2 0x1F7A), (2, match h.ssvid with | some v => leBytes 2 v | none => sliceB fb 2 2),
     (4, hexText 16 d.boot.fuses.devnum ++ hexText 4 s),
     (24, beBytes 21 0x4F5A583132383020454D554C41544544204E564D45 ++ List.replicate 19 0x20#8),
     (64, (List.range 8).map (Config.firmwareRev d.boot.glost)),
     (76, [0#8, 6#8]), (80, leBytes 4 0x20000), (92, leBytes 4 0x100), (96, leBytes 4 0), (111, [1#8]), (256, leBytes 2 0), (258, [3#8, 3#8]),
     (261, [(fb.getD 261 0#8) &&& 0xE7#8]), (262, [63#8]), (263, [1#8]), (265, [0#8]), (272, leBytes 8 0), (312, leBytes 4 0), (320, leBytes 2 0),
     (328, leBytes 4 0), (332, leBytes 6 0), (343, List.replicate 9 0#8), (512, [0x66#8, 0x44#8]), (516, leBytes 4 16), (520, leBytes 2 0x0C),
     (522, leBytes 2 0), (524, [0#8, 1#8]), (531, [0#8]), (536, leBytes 4 0), (2080, [0#8, 0#8, 0#8, 2#8]), (2088, leBytes 4 50)]

/-- The Identify Namespace data: zero for an inactive NSID. -/
def idNamespace (d : Dev) (s nsid : Nat) (fb : List Byte) : List Byte :=
  match d.nsFind s nsid with
  | none => List.replicate 4096 0#8
  | some (n, _) =>
    let e := d.nsEnt n
    layAll fb
      [(0, leBytes 8 e.size), (8, leBytes 8 e.size), (25, [1#8]), (26, [if e.lba = 4096 then 1#8 else 0#8]), (27, [0#8, 0#8, 0#8]),
       (104, sliceB e.jnl.jid 0 16), (128, leBytes 4 (9 * 2 ^ 16)), (132, leBytes 4 (12 * 2 ^ 16))]

end Dev

/-- IDENTIFY (R390): CNS 0x00 to 0x03. -/
def doNvmeIdentify (s : Fin 2048) (sqe : List Byte) (prps : List Nat) (d : Dev) : Dev :=
  match d.takeCmd s 0 0x06 sqe with
  | none => d
  | some (x, d) =>
    let cns := bitsOf (cdw x.sqe 10) 0 8
    let nsid := sqeNsid x.sqe
    if sqeBad x.sqe ∨ 3 < cns then d.done s x 0 nvBadField
    else
      let (fb, d) := d.freeBytes 4096
      let send := fun (d : Dev) (bs : List Byte) => Dev.giveData d s x prps bs fun st d => d.done s x 0 st
      match cns with
      | 0 => if nsid = 0 ∨ 16 < nsid then d.done s x 0 nvBadNs else send d (d.idNamespace s nsid fb)
      | 1 => send d (d.idController s fb)
      | 2 =>
        let ids := (List.range 17).filter fun i => decide (nsid < i) && (d.nsFind s i).isSome
        send d (sliceB (ids.flatMap (leBytes 4 ·)) 0 4096)
      | _ =>
        match d.nsFind s nsid with
        | none => d.done s x 0 nvBadNs
        | some (n, _) => send d (sliceB ([2#8, 16#8, 0#8, 0#8] ++ sliceB (d.nsEnt n).jnl.jid 0 16) 0 4096)

/-- ABORT (R398): the service first fetches the named queue's entries up to its tail (`fetched`). Of the Aborts that it has then fetched, this
one among them, those behind the fourth are refused. -/
def doNvmeAbort (s : Fin 2048) (sqe : List Byte) (fetched : List (List Byte)) (d : Dev) : Dev :=
  match d.takeCmd s 0 0x08 sqe with
  | none => d
  | some (x, d) =>
    let sqid := bitsOf (cdw x.sqe 10) 0 16
    let cid := bitsOf (cdw x.sqe 10) 16 16
    let c := d.nvme s
    let d := match tabGet (fun _ => none) c.sqs sqid with
      | none => d
      | some (q : Sq) =>
        let n := (q.tail + q.size - q.head) % q.size
        d.setNvme s { c with
          sqs := tabSet (fun _ => none) c.sqs sqid (some { q with head := q.tail })
          cmds := c.cmds ++ (fetched.take n).map (fun e => ({ sq := sqid, cid := sqeCid e, sqe := e, at_ := d.cycle, wait := .queued, firing := d.firing (.saggar s) } : NvmeCmd)) }
    let aborts := (d.nvme s).cmds.filter fun y => y.sq == 0 && y.wait == .queued && fieldLE y.sqe 0 1 == 0x08
    let d := (aborts.drop 4).foldl (fun d y => d.done s y 0 (nvSt 1 0x03)) d
    let y := (d.nvme s).cmds.find? (fun (y : NvmeCmd) => y.sq == sqid && y.cid == cid && !(y.sq == x.sq && y.cid == x.cid))
    let caught := fun (d : Dev) (y : NvmeCmd) => ((d.done s y 0 nvAborted).inc STO_CNT_ABORT_CAUGHT).done s x 0 nvOk
    match y with
    | none => (d.inc STO_CNT_ABORT_MISSED).done s x 1 nvOk
    | some y =>
      match y.wait with
      | .queued => caught d y
      | .aer => caught d y
      | .chain n =>
        caught (d.modJnl n fun j => { j with waiting := j.waiting.filter (fun a => !(a.ctl == s.val && a.sq == sqid && a.cid == cid)) }) y
      | _ => (d.inc STO_CNT_ABORT_MISSED).done s x 1 nvOk

/-- SET_FEATURES (R390, R397). -/
def doNvmeSetFeatures (s : Fin 2048) (sqe : List Byte) (d : Dev) : Dev :=
  match d.takeCmd s 0 0x09 sqe with
  | none => d
  | some (x, d) =>
    let v := cdw x.sqe 11
    if sqeBad x.sqe then d.done s x 0 nvBadField
    else if bitOf (cdw x.sqe 10) 31 then d.done s x 0 (nvSt 1 0x0D)
    else match bitsOf (cdw x.sqe 10) 0 8 with
      | 0x02 =>
        let ps := bitsOf v 0 5
        let entering := (d.nvme s).cmds.any fun y => match y.wait with | .ps1 _ => true | _ => false
        if 1 < ps then d.done s x 0 nvBadField
        else if ps = 1 then (if (d.nvme s).ps = 1 then d.done s x 0 nvOk else d.waitFor s x (.ps1 false))
        else if entering then d.waitFor s x .ps0
        else (d.leavePs1 s).done s x 0 nvOk
      | 0x06 => (d.modNvme s fun c => { c with vwc := bitOf v 0 }).done s x 0 nvOk
      | 0x07 =>
        if bitsOf v 0 16 = 65535 ∨ bitsOf v 16 16 = 65535 then d.done s x 0 nvBadField else d.done s x (63 + 63 * 2 ^ 16) nvOk
      | 0x08 => (d.modNvme s fun c => { c with coal := bitsOf v 0 16 }).done s x 0 nvOk
      | 0x09 =>
        if d.msixSize (d.sagLink s) (d.sagFunc s) ≤ bitsOf v 0 16 then d.done s x 0 nvBadField
        else (d.modNvme s fun c => { c with vecs := tabSet (fun _ => 0) c.vecs (bitsOf v 0 16) (bitsOf v 16 1) }).done s x 0 nvOk
      | 0x0B => (d.modNvme s fun c => { c with aec := v }).done s x 0 nvOk
      | _ => d.done s x 0 nvBadField

/-- GET_FEATURES (R390): the current value. -/
def doNvmeGetFeatures (s : Fin 2048) (sqe : List Byte) (d : Dev) : Dev :=
  match d.takeCmd s 0 0x0A sqe with
  | none => d
  | some (x, d) =>
    let c := d.nvme s
    if sqeBad x.sqe then d.done s x 0 nvBadField
    else match bitsOf (cdw x.sqe 10) 0 8 with
      | 0x02 => d.done s x c.ps nvOk
      | 0x06 => d.done s x (b2n c.vwc) nvOk
      | 0x07 => d.done s x (63 + 63 * 2 ^ 16) nvOk
      | 0x08 => d.done s x c.coal nvOk
      | 0x09 =>
        let iv := bitsOf (cdw x.sqe 11) 0 16
        d.done s x (iv + tabGet (fun _ => 0) c.vecs iv * 2 ^ 16) nvOk
      | 0x0B => d.done s x c.aec nvOk
      | _ => d.done s x 0 nvBadField

/-- ASYNCHRONOUS_EVENT_REQUEST (R390): four may be outstanding. -/
def doNvmeAsyncEventRequest (s : Fin 2048) (sqe : List Byte) (d : Dev) : Dev :=
  match d.takeCmd s 0 0x0C sqe with
  | none => d
  | some (x, d) =>
    if sqeBad x.sqe then d.done s x 0 nvBadField
    else if 4 ≤ ((d.nvme s).cmds.filter fun y => y.wait == .aer).length then d.done s x 0 (nvSt 1 0x05)
    else Dev.pumpEvents s 8 (d.waitFor s x .aer)

/-- PS1_ENTRY_COMPLETE (R397): the cache holds no dirty data and no other command is outstanding. -/
def doPs1EntryComplete (s : Fin 2048) (d : Dev) : Dev :=
  let c := d.nvme s
  match c.cmds.find? fun x => match x.wait with | .ps1 _ => true | _ => false with
  | none => d
  | some x =>
    let others := c.cmds.any fun y => match y.wait with | .ps1 _ => false | .ps0 => false | .aer => false | _ => true
    if others || !(Dev.dirty c).isEmpty || !d.ctlRuns s then d
    else
      let failed := match x.wait with | .ps1 f => f | _ => false
      let back := c.cmds.filter fun y => y.wait == .ps0
      let stays := failed || !back.isEmpty
      let d := d.modNvme s fun c => { c with ps := b2n !stays }
      let d := if stays then d else (List.range c.svcThreads).foldl (fun d i =>
        d.modThread (d.get (SAG_THREADS_BASE s) + i) fun t => { t with wait := .twait 0 }) d
      let d := d.done s x 0 (if failed then nvWriteFault else nvOk)
      back.foldl (fun d y => d.done s y 0 nvOk) d

/-! ### I/O commands -/

/-- FLUSH (R395, R408). -/
def doNvmeFlush (s : Fin 2048) (q : Fin 65) (sqe : List Byte) (d : Dev) : Dev :=
  if q.val = 0 then d
  else match d.takeCmd s q 0x00 sqe with
    | none => d
    | some (x, d) =>
      match d.nsFind s (sqeNsid x.sqe) with
      | none => d.done s x 0 nvBadNs
      | some (n, reader) =>
        let e := d.nsEnt n
        if sqeBad x.sqe then d.doneNs s n x nvBadField
        else if e.isJnl then
          if reader || e.jnl.head.unsealed == 0 then d.doneNs s n x nvOk
          else if e.jnl.state = 2 then d.doneNs s n x nvWriteFault
          else (d.waitFor s x (.seal n (e.jnl.head.seq - 1))).startSeal n
        else
          let mine := (d.nvme s).cache.filter fun w => w.ns == n
          let ids := ((mine.filter fun w => !w.failed).map (·.id)).dedup
          let failed := mine.any (·.failed)
          if ids.isEmpty then d.doneNs s n x (if failed then nvWriteFault else nvOk) else d.waitFor s x (.cache ids failed)

/-- WRITE (R395): `data` is what the PRPs name. -/
def doNvmeWrite (s : Fin 2048) (q : Fin 65) (sqe data : List Byte) (ans : Option (Nat × List Byte)) (d : Dev) : Dev :=
  let store := fun (d : Dev) n (x : NvmeCmd) bs => d.storeBlocks s n x 0x01 (sqeSlba x.sqe) (sqeNlb x.sqe) bs ans
  d.ioStep s q 0x01 sqe ans (fun d n x a => d.doneNs s n x (a.1 % 2 ^ 11)) (fun d n x out _ => store d n x out) fun d x =>
    match d.ioCheck s x (sqeSlba x.sqe) (sqeNlb x.sqe) true with
    | .error f => d.ioFail s x f
    | .ok n =>
      let e := d.nsEnt n
      let len := sqeNlb x.sqe * e.lba
      if 262144 < len then d.doneNs s n x nvBadField
      else if (prpSegs x.sqe len []).isNone then d.doneNs s n x nvBadPrp
      else
        let d := d.svcMoved s len true
        if e.xts then d.xtsAsk s e x true (Dev.lbaBlocks e (sqeSlba x.sqe) (sliceB data 0 len)) []
        else store d n x (sliceB data 0 len)

/-- READ (R389, R394, R396): from the HBM, or from the target's answer with the cached writes over it. -/
def doNvmeRead (s : Fin 2048) (q : Fin 65) (sqe : List Byte) (prps : List Nat) (ans : Option (Nat × List Byte)) (d : Dev) : Dev :=
  let give := fun (d : Dev) (n : Nat) (x : NvmeCmd) (bs : List Byte) => Dev.giveData d s x prps bs fun st d => d.doneNs s n x st
  let finish := fun (d : Dev) (n : Nat) (x : NvmeCmd) (st : Nat) (bs : List Byte) =>
    let e := d.nsEnt n
    if st % 2 ^ 11 ≠ nvOk then d.doneNs s n x (st % 2 ^ 11)
    else
      let stored := d.overCache e.owner n e.lba (sqeSlba x.sqe) (sliceB bs 0 (sqeNlb x.sqe * e.lba))
      if e.xts then d.xtsAsk s e x false (Dev.lbaBlocks e (sqeSlba x.sqe) stored) [] else give d n x stored
  d.ioStep s q 0x02 sqe ans (fun d n x a => finish d n x a.1 a.2) (fun d n x out _ => give d n x out) fun d x =>
    match d.ioCheck s x (sqeSlba x.sqe) (sqeNlb x.sqe) false with
    | .error f => d.ioFail s x f
    | .ok n =>
      let e := d.nsEnt n
      let len := sqeNlb x.sqe * e.lba
      let a := d.nsAddr e + sqeSlba x.sqe * e.lba
      if 262144 < len then d.doneNs s n x nvBadField
      else if e.inHbm then
        let d := d.ioRead a len
        if d.poisoned a len then (d.consumed a).doneNs s n x nvReadErr else finish d n x nvOk (d.hbmRead a len)
      else
        let d := d.toTarget s e.target 0x02 (sqeSlba x.sqe) (sqeNlb x.sqe) []
        match d.heard s e.target ans with
        | some (st, bs) => finish d n x st bs
        | none => d.waitFor s x (.target e.target d.cycle)

/-- WRITE_ZEROES (R390, R395). -/
def doNvmeWriteZeroes (s : Fin 2048) (q : Fin 65) (sqe : List Byte) (ans : Option (Nat × List Byte)) (d : Dev) : Dev :=
  let store := fun (d : Dev) n (x : NvmeCmd) op bs => d.storeBlocks s n x op (sqeSlba x.sqe) (sqeNlb x.sqe) bs ans
  d.ioStep s q 0x08 sqe ans (fun d n x a => d.doneNs s n x (a.1 % 2 ^ 11)) (fun d n x out _ => store d n x 0x01 out) fun d x =>
    match d.ioCheck s x (sqeSlba x.sqe) (sqeNlb x.sqe) true with
    | .error f => d.ioFail s x f
    | .ok n =>
      let e := d.nsEnt n
      let zeros := List.replicate (sqeNlb x.sqe * e.lba) 0#8
      if e.xts then d.xtsAsk s e x true (Dev.lbaBlocks e (sqeSlba x.sqe) zeros) [] else store d n x 0x08 zeros

/-- DATASET_MANAGEMENT (R390): deallocate only; deallocated blocks read as zero. `data` holds the ranges. -/
def doNvmeDatasetManagement (s : Fin 2048) (q : Fin 65) (sqe data : List Byte) (ans : Option (Nat × List Byte)) (d : Dev) : Dev :=
  let ranges := fun (x : NvmeCmd) (data : List Byte) =>
    (List.range (bitsOf (cdw x.sqe 10) 0 8 + 1)).map fun i => (fieldLE data (16 * i + 8) 8, fieldLE data (16 * i + 4) 4)
  -- the zeros of each range in stored form, one after the other
  let store := fun (d : Dev) n (x : NvmeCmd) (rs : List (Nat × Nat)) (bs : List Byte) =>
    let e := d.nsEnt n
    let d := (rs.foldl (fun (acc : Dev × Nat) r =>
      let b := sliceB bs acc.2 (r.2 * e.lba)
      (if e.inHbm then acc.1.hbmWrite (acc.1.nsAddr e + r.1 * e.lba) b
       else (acc.1.trimCache s n e r.1 r.2).toTarget s e.target (if e.xts then 0x01 else 0x09) r.1 r.2 (if e.xts then b else []),
       acc.2 + r.2 * e.lba)) (d, 0)).1
    if e.inHbm then d.doneNs s n x nvOk
    else match d.heard s e.target ans with
      | some (st, _) => d.doneNs s n x (st % 2 ^ 11)
      | none => d.waitFor s x (.target e.target d.cycle)
  d.ioStep s q 0x09 sqe ans (fun d n x a => d.doneNs s n x (a.1 % 2 ^ 11))
    (fun d n x out data => store d n x (ranges x data) out) fun d x =>
    match d.ioCheck s x 0 0 true with
    | .error f => d.ioFail s x f
    | .ok n =>
      let e := d.nsEnt n
      let rs := ranges x data
      let zeros := fun (r : Nat × Nat) => List.replicate (r.2 * e.lba) 0#8
      let d := d.svcMoved s (16 * rs.length) true
      if bitOf (cdw x.sqe 11) 2 = false then d.doneNs s n x nvOk
      else if rs.any fun r => decide (e.size < r.1 + r.2) then d.doneNs s n x nvRange
      else if e.xts && rs.any (·.2 != 0) then d.xtsAsk s e x true (rs.flatMap fun r => Dev.lbaBlocks e r.1 (zeros r)) data
      else store d n x rs (rs.flatMap zeros)

/-- JOURNAL_APPEND (R402): `data` is the payload that the PRPs name. -/
def doNvmeJournalAppend (s : Fin 2048) (q : Fin 65) (sqe data : List Byte) (d : Dev) : Dev :=
  if q.val = 0 then d
  else match d.takeCmd s q 0x81 sqe with
    | none => d
    | some (x, d) =>
      let len := bitsOf (cdw x.sqe 10) 0 17
      match d.nsFind s (sqeNsid x.sqe) with
      | none => d.done s x 0 nvBadNs
      | some (n, reader) =>
        if reader then d.doneNs s n x nvProtected
        else if sqeBad x.sqe ∨ (d.nsEnt n).isJnl = false ∨ len = 0 ∨ 65536 < len then d.doneNs s n x nvBadField
        else if (prpSegs x.sqe len []).isNone then d.doneNs s n x nvBadPrp
        else ((d.svcMoved s len true).waitFor s x (.chain n)).takeAppend n
          ⟨s, q, x.cid, bitOf (cdw x.sqe 12) 30, bitsOf (cdw x.sqe 11) 0 16, fieldLE x.sqe 56 8, sliceB data 0 len⟩

/-- The opcodes of R390. -/
def adminOps : List Nat := [0x00, 0x01, 0x02, 0x04, 0x05, 0x06, 0x08, 0x09, 0x0A, 0x0C]
def ioOps : List Nat := [0x00, 0x01, 0x02, 0x08, 0x09, 0x81]

/-- INVALID_COMMAND_OPCODE (R390). -/
def doNvmeInvalidOpcode (s : Fin 2048) (q : Fin 65) (sqe : List Byte) (d : Dev) : Dev :=
  let op := match (d.nvme s).cmds.find? fun x => x.sq == q.val && x.wait == .queued with
    | some x => fieldLE x.sqe 0 1
    | none => fieldLE sqe 0 1
  if (if q.val = 0 then adminOps else ioOps).contains op then d
  else match d.takeCmd s q op sqe with
    | none => d
    | some (x, d) => d.done s x 0 nvBadOp

/-! ### Background work and time limits -/

/-- BACKGROUND_WRITE_DONE (R395): the target has acknowledged the cached write `id`. -/
def doBackgroundWriteDone (s : Fin 2048) (id : Nat) (d : Dev) : Dev :=
  if !((Dev.dirty (d.nvme s)).any fun w => w.id == id) then d.lateReturn s (.cached id)
  else (d.modNvme s fun c => { c with cache := c.cache.filter (fun w => w.id != id || w.failed) }).cacheSettled s id false

/-- DEFERRED_WRITE_ERROR (R396): the cached write `id` fails with a target status. Whether the vendor event is enabled is
not given: a free value. -/
def doDeferredWriteError (s : Fin 2048) (id status : Nat) (d : Dev) : Dev :=
  match (Dev.dirty (d.nvme s)).find? fun w => w.id == id with
  | none => d.lateReturn s (.cached id)
  | some w =>
    let d := (d.modNvme s fun c => { c with
      cache := (c.cache.map fun w => if w.id = id then { w with failed := true } else w).filter fun w => !(w.failed && w.nlb == 0) }).logDeferred s w status
    let d := (d.setNs w.ns { d.nsEnt w.ns with flag := true }).setEvent STO_EVENT_DEFERRED
    let (v, d) := d.free
    let d := if v % 2 = 1 then d.postEvent s 7 1 0xC0 else d
    d.cacheSettled s id true

/-- TARGET_TIMEOUT (R393): the oldest command that a target has not answered within TIMEOUT_S; the service then reconnects. -/
def doTargetTimeout (s : Fin 2048) (d : Dev) : Dev :=
  let late := (d.nvme s).cmds.find? fun x => match x.wait with
    | .target t since => decide (since + Nat.min 230 (fieldLE (d.tgtEnt t) 56 2) * cyS ≤ d.cycle)
    | _ => false
  match late with
  | none => d
  | some x =>
    if !d.svcRuns s then d
    else
      let t := match x.wait with | .target t _ => t | _ => 0
      let d := d.modNvme s fun c => { c with conns := c.conns.filter (· != t) }
      (if d.tgtUsable s t then d.tgtOpen s t else d).done s x 0 nvTransport

/-- STORAGE_TIMEOUT (R399): the oldest command still unresolved 240 s after its fetch. An entry to PS1 ends so, too, and the Set Features
to PS0 behind it follow (R397). What has not returned 240 s after a reset is awaited no longer (R41). -/
def doStorageTimeout (s : Fin 2048) (d : Dev) : Dev :=
  let d := d.modNvme s fun c => { c with late := c.late.filter fun x => decide (d.cycle < x.at_ + 240 * cyS) }
  match (d.nvme s).cmds.find? fun x => decide (x.at_ + 240 * cyS ≤ d.cycle) with
  | none => d
  | some x =>
    let d := match x.wait with
      | .chain n => d.modJnl n fun j => { j with waiting := j.waiting.filter (fun a => !(a.ctl == s.val && a.sq == x.sq && a.cid == x.cid)) }
      | .durable n _ => d.modJnl n fun j => { j with chained := j.chained.map (fun (z : Sherd) => match z.cmd with
          | some (c, q, i, _) => if c = s.val ∧ q = x.sq ∧ i = x.cid then { z with cmd := none } else z
          | none => z) }
      | _ => d
    let d := ((d.done s x 0 nvInternal).inc STO_CNT_TIMEOUT_ABANDON).setEvent STO_EVENT_TIMEOUT
    match x.wait with
    | .ps1 _ => ((d.nvme s).cmds.filter fun y => y.wait == .ps0).foldl (fun d y => d.done s y 0 nvOk) d
    | _ => d

/-! ### Journal events -/

/-- SHERD_DURABLE (R402): the oldest chained sherd of namespace entry `n`; where none is chained, a write that a reset has
abandoned returns late (R400). -/
def doSherdDurable (n : Fin 4096) (d : Dev) : Dev :=
  if (d.nsEnt n).jnl.chained.isEmpty then d.lateReturn (d.nsEnt n).owner (.sherd n) else d.sherdDurable n

/-- BATCH_TIMEOUT (R408): a sherd that a restore brought has waited `ran` cycles before (R401). -/
def doBatchTimeout (n : Fin 4096) (d : Dev) : Dev :=
  let e := d.nsEnt n
  match e.jnl.head.firstAt with
  | some t => if t + Nat.max 1 e.batchMs * cyMs ≤ d.cycle + e.jnl.head.ran then d.startSeal n else d
  | none => d

/-- SEAL_CHAINED (R407, R408, R411): both signing jobs have ended, and the SEAL is chained; a RESUME and the appends that waited follow
it. A signing job that fails makes the journal FAULT. `s` is the controller whose service chains it. -/
def doSealChained (n : Fin 4096) (s : Fin 2048) (d : Dev) : Dev :=
  let e := d.nsEnt n
  match e.jnl.sealing with
  | none => d
  | some y =>
    if e.owner ≠ s ∨ d.svcRuns s = false then d else
    let ec := d.stoAns e.owner (.sign n false)
    let dsa := d.stoAns e.owner (.sign n true)
    if ec.any (·.status != pkOk) || dsa.any (·.status != pkOk) then d.journalFault n 0
    else match ec, dsa with
      | some ec, some dsa =>
        let d := d.retireJobs fun _ w => w == .sign n false || w == .sign n true
        let waiting := e.jnl.waiting
        let d := (d.modJnl n fun j => { j with sealing := none, resume := none, waiting := [] }).chainAs n 2 0 0 (y.body ++ ec.out ++ dsa.out) none
          (y.time, y.flags)
        let d := match e.jnl.resume with | some app => d.chainResume n app | none => d
        waiting.foldl (fun d a => d.takeAppend n a) d
      | _, _ => d

/-- JOURNAL_WRITE_FAULT (R411): the backing write of the oldest chained sherd fails. -/
def doJournalWriteFault (n : Fin 4096) (status : Nat) (d : Dev) : Dev :=
  if (d.nsEnt n).jnl.chained.isEmpty then d.lateReturn (d.nsEnt n).owner (.sherd n) else d.journalFault n status

/-! ### The indirect operations (STO_IND_CMD) -/

/-- An indirect operation: an OP written while one runs is ignored. -/
def stoIndirect (op : Nat) (p : Path) (data : W32) (f : Dev → Nat → Dev) (d : Dev) : Dev :=
  let d := d.writeFields p STO_IND_CMD data
  if fieldGet data 24 3 ≠ op ∨ d.flag STO_IND_STATUS_BUSY = true then d else f d (fieldGet data 0 12)

namespace Dev

def stoRd (d : Dev) : Nat → Nat := d.indRd (STO_IND_DATA 0)
def wordsOf (bs : List Byte) (n : Nat) : List Nat := (List.range n).map fun i => fieldLE bs (4 * i) 4
def bytesFrom (d : Dev) (n : Nat) : List Byte := (List.range n).flatMap fun i => leBytes 4 (d.stoRd i)

/-- Reserved bits or fields out of range in a namespace entry (STO_IND_STATUS, R413). -/
def nsBad (e : NsEnt) : Bool :=
  bitsOf (e.w 0) 11 15 != 0 || bitsOf (e.w 1) 27 4 != 0 || bitsOf (e.w 1) 13 3 != 0 || bitsOf (e.w 1) 5 3 != 0 ||
  bitsOf (e.w 4) 16 16 != 0 || bitsOf (e.w 5) 16 16 != 0 || bitsOf (e.w 6) 20 12 != 0 || bitsOf (e.w 7) 10 22 != 0 || e.w 9 != 0 ||
  (e.valid && (decide (3 < e.kind) || e.nsid == 0 || decide (16 < e.nsid) ||
    (e.readerEn && (e.readerNsid == 0 || decide (16 < e.readerNsid)))))

def rangesCross (a n b m : Nat) : Bool := n != 0 && m != 0 && decide (a < b + m) && decide (b < a + n)

/-- The checks of R392 and R394 on an entry to be made valid. -/
def nsRefused (d : Dev) (n : Nat) (e : NsEnt) : Bool :=
  let others := d.sto.ns.filter fun kv => kv.1 != n && kv.2.valid && kv.2.owner == e.owner
  let c := d.nvme e.owner
  (e.inHbm && (decide (e.pages * 2 ^ 21 < e.bytes) || decide (d.get (SAG_HBM_PAGES_PAGES e.owner) < e.base + e.pages) ||
    others.any (fun kv => kv.2.inHbm && rangesCross e.base e.pages kv.2.base kv.2.pages) ||
    rangesCross e.base e.pages c.cacheBase c.cachePages)) ||
  others.any (fun kv => kv.2.nsid == e.nsid) ||
  (e.xts && (e.isJnl || d.kcSag e.kc != some e.owner))

/-- A batch field of 0 stores 1 (R413). -/
def fixBatch (bs : List Byte) : List Byte :=
  let one := fun o => if fieldLE bs o 2 = 0 then [1#8, 0#8] else sliceB bs o 2
  overlay bs 32 (one 32 ++ one 34)

/-- A namespace made valid (R392, R406): zero-filled, and a journal gets its GENESIS, unless its target holds a journal
already (`old`, its bytes from byte 0), whose head is found by its headers; its reopening under a controller that is ready writes a
RESUME. A target that cannot be reached fails it. -/
def nsOpen (d : Dev) (n : Nat) (cfg : List Byte) (old : List Byte) (ok : Bool) : Dev :=
  let e : NsEnt := { cfg := cfg, jnl := .reset, flag := false }
  let kept := e.kind = 3 ∧ 112 ≤ old.length ∧ fieldLE old 0 4 = 0x44524853
  if !e.inHbm && !d.tgtUsable e.owner e.target then d.stoEnd 0x17
  else if kept then
    let pos := walkJournal old d.cycle e.lba old.length .start
    let d := d.setNs n { e with jnl := { Journal.reset with jid := sliceB old 32 16, head := pos, durable := pos, high := pos.off } }
    let d := d.nsChanged e.owner e.nsid
    if (d.nvme e.owner).rdy then
      (((d.setSto fun s => { s with op := some (n, pos.seq) }).put STO_IND_STATUS_BUSY 1).chainResume n 1)
    else d.stoEnd 0x00
  else if !e.inHbm && !ok then
    d.stoEnd 0x17
  else
    let d := if e.inHbm then d.hbmZero (d.nsAddr e) (e.pages * 2 ^ 21) else d.toTarget e.owner e.target 0x08 0 e.size []
    let jid := (List.range 16).map fun i => Config.randomByte d.fresh i
    let d := { d with fresh := d.fresh + 1 }
    let d := d.setNs n { e with jnl := { Journal.reset with jid := jid } }
    let d := d.nsChanged e.owner e.nsid
    if e.isJnl then
      let d := ((d.setSto fun s => { s with op := some (n, 0) }).put STO_IND_STATUS_BUSY 1).chain n 0 0 0 d.keyPayload none
      d.batchFull n
    else d.stoEnd 0x00

/-- The words that READ_NS returns (R413). -/
def nsWords (e : NsEnt) : List Nat :=
  let j := e.jnl
  let r := fun x => if e.isJnl then x else 0
  wordsOf e.cfg 10 ++ two (r j.head.seq) ++ two (r j.head.off) ++ [r j.state, 0]

end Dev

/-- READ_NS (R413). -/
def doReadNs (p : Path) (data : W32) (d : Dev) : Dev :=
  stoIndirect 1 p data (fun d i => (d.indFill (STO_IND_DATA 0) (Dev.nsWords (d.nsEnt i))).stoEnd 0x00) d

/-- The cached writes of namespace entry `i` go with the namespace: nothing waits for them any longer (R396). -/
def Dev.cacheGone (d : Dev) (i : Nat) : Dev :=
  let s := (d.nsEnt i).owner
  let ids := (((Dev.dirty (d.nvme s)).filter fun w => w.ns == i).map (·.id)).dedup
  ids.foldl (fun d id => d.cacheSettled s id true) (d.modNvme s fun c => { c with cache := c.cache.filter (fun w => w.ns != i) })

/-- WRITE_NS (R392, R412, R413). A valid journal takes only the READER and batch fields. `old` and `ok` are what the remote
target answers. -/
def doWriteNs (p : Path) (data : W32) (old : List Byte) (ok : Bool) (d : Dev) : Dev :=
  stoIndirect 2 p data (fun d i =>
    let was := d.nsEnt i
    let e : NsEnt := { was with cfg := Dev.fixBatch (d.bytesFrom 10) }
    if Dev.nsBad e then d.stoEnd 0x0B
    else if was.valid ∧ was.isJnl = true then
      let w1 := leBytes 4 (bitsOf (was.w 1) 0 5 + bitsOf (e.w 1) 8 24 * 2 ^ 8)
      (d.setNs i { was with cfg := overlay (overlay was.cfg 4 w1) 32 (sliceB e.cfg 32 4) }).stoEnd 0x00
    else if !e.valid then
      let d := (d.cacheGone i).setNs i { e with jnl := .reset, flag := false }
      (if was.valid then d.nsChanged was.owner was.nsid else d).stoEnd 0x00
    else if d.nsRefused i e then d.stoEnd 0x11
    else if was.valid ∧ (overlay (overlay was.cfg 4 (sliceB e.cfg 4 4)) 32 (sliceB e.cfg 32 4)) = e.cfg ∧ was.nsid = e.nsid then
      (d.setNs i e).stoEnd 0x00
    else
      (d.cacheGone i).nsOpen i e.cfg old ok) d

/-- READ_TGT (R414). -/
def doReadTgt (p : Path) (data : W32) (d : Dev) : Dev :=
  stoIndirect 3 p data (fun d i =>
    if 1024 ≤ i then d.stoEnd 0x06 else (d.indFill (STO_IND_DATA 0) (Dev.wordsOf (d.tgtEnt i) 16)).stoEnd 0x00) d

/-- WRITE_TGT (R414): a TIMEOUT_S above 230 stores 230. -/
def doWriteTgt (p : Path) (data : W32) (d : Dev) : Dev :=
  stoIndirect 4 p data (fun d i =>
    let b := d.bytesFrom 16
    if 1024 ≤ i then d.stoEnd 0x06
    else if bitsOf (fieldLE b 40 4) 11 18 ≠ 0 ∨ bitsOf (fieldLE b 40 4) 29 2 = 3 ∨ bitsOf (fieldLE b 44 4) 20 12 ≠ 0 then d.stoEnd 0x0B
    else
      let b := overlay b 56 (leBytes 2 (Nat.min 230 (fieldLE b 56 2)))
      (d.setSto fun s => { s with tgt := tabSet (fun _ => tgtReset) s.tgt i b }).stoEnd 0x00) d

/-- READ_CTL (R415). -/
def doReadCtl (p : Path) (data : W32) (d : Dev) : Dev :=
  stoIndirect 5 p data (fun d i =>
    if 2048 ≤ i then d.stoEnd 0x06 else (d.indFill (STO_IND_DATA 0) (Dev.wordsOf (d.nvme i).cfg 4)).stoEnd 0x00) d

/-- WRITE_CTL (R385, R386, R415): setting ENABLE takes the service's channels; clearing it resets the controller and gives them
back; any other change of an enabled entry is refused. -/
def doWriteCtl (p : Path) (data : W32) (d : Dev) : Dev :=
  stoIndirect 6 p data (fun d i =>
    let b := d.bytesFrom 4
    let w0 := fieldLE b 0 4
    let b := if bitsOf w0 0 4 = 0 then overlay b 0 (leBytes 4 (w0 + 1)) else b
    let was := d.nvme i
    if 2048 ≤ i then d.stoEnd 0x06
    else if bitsOf w0 4 27 ≠ 0 ∨ 8 < bitsOf w0 0 4 ∨ fieldLE b 14 2 ≠ 0 then d.stoEnd 0x0B
    else if was.enabled ∧ bitOf w0 31 = true then d.stoEnd (if b = was.cfg then 0x00 else 0x10)
    else if was.enabled then (((d.ctlReset i).dropChans i).modNvme i fun c => { c with cfg := b }).stoEnd 0x00
    else if bitOf w0 31 && !d.isNvme (d.sagLink i) (d.sagFunc i) then d.stoEnd 0x12
    else
      let d := d.modNvme i fun c => { c with cfg := b }
      (if bitOf w0 31 then d.takeChans i else d).stoEnd 0x00) d

/-- JOURNAL_SEAL (R408): ends once the SEAL is durable, at once where nothing is unsealed. A JOP other than the two returns
BAD_INDEX. -/
def doJournalSeal (p : Path) (data : W32) (d : Dev) : Dev :=
  if fieldGet data 20 2 = 1 then d
  else stoIndirect 7 p data (fun d i =>
    let e := d.nsEnt i
    if fieldGet data 20 2 ≠ 0 ∨ e.valid = false ∨ e.isJnl = false then d.stoEnd 0x06
    else if e.jnl.state = 2 then d.stoEnd 0x17
    else if e.jnl.head.unsealed = 0 then d.stoEnd 0x00
    else ((d.setSto fun s => { s with op := some (i, e.jnl.head.seq) }).put STO_IND_STATUS_BUSY 1).startSeal i) d

/-- A journal is zero-filled from the end of its last durable sherd to the highest byte written (R411); a remote one in whole blocks, with the
durable bytes of the first again. -/
def Dev.jnlZero (d : Dev) (i : Nat) : Dev :=
  let e := d.nsEnt i
  let j := e.jnl
  let n := j.high - j.durable.off
  if e.inHbm then d.hbmZero (d.nsAddr e + j.durable.off) n
  else if n = 0 then d
  else
    let b := j.durable.off / e.lba
    let last := ceilDiv j.high e.lba
    let d := d.toTarget e.owner e.target 0x01 b 1 (sliceB j.durable.part 0 e.lba)
    if last ≤ b + 1 then d else d.toTarget e.owner e.target 0x08 (b + 1) (last - b - 1) []

/-- JOURNAL_RESUME (R411): a journal in FAULT is zero-filled behind its last durable sherd and gets a RESUME sherd. -/
def doJournalResume (p : Path) (data : W32) (d : Dev) : Dev :=
  if fieldGet data 20 2 ≠ 1 then d
  else stoIndirect 7 p data (fun d i =>
    let e := d.nsEnt i
    let j := e.jnl
    if e.valid = false ∨ e.isJnl = false then d.stoEnd 0x06
    else if j.state ≠ 2 then d.stoEnd 0x10
    else
      let d := (d.jnlZero i).modJnl i fun j => { j with state := 0, high := j.durable.off }
      ((d.setSto fun s => { s with op := some (i, j.durable.seq) }).put STO_IND_STATUS_BUSY 1).chainResume i 2) d

/-- STORAGE_ENABLE (R46). -/
def doStorageEnable (p : Path) (data : W32) (d : Dev) : Dev :=
  let d := d.writeFields p STO_CTRL data
  let on := fieldGet data 0 1
  let d := d.put STO_CTRL_ENABLE on
  if on = 1 then d.lock STO_CTRL else d

end Sys2Proof.Machine
end

