-- ==== Sys2Proof/Machine/SagImage.lean ====
section
/-!
DEFINITION. The saggar image of R380: its header and section table as the manual lays them out, and the entries of its
sections. Where the manual names an entry's contents and not their places (sections 1, 5, 8 and 9), the order here is the
model's (notes/assumptions/42).
-/

namespace Sys2Proof.Machine

/-! ### Words in sequence -/

/-- A list of byte strings and numbers as 64-bit words: a string is its length and its bytes. -/
def serBytes (bs : List Byte) : List Nat := bs.length :: bs.map (·.toNat)

/-- Reads a string; a length beyond the words that remain reads what remains. -/
def desBytes (ws : List Nat) : List Byte × List Nat :=
  let n := Nat.min (ws.headD 0) ws.tail.length
  ((ws.tail.take n).map (BitVec.ofNat 8 ·), ws.tail.drop n)

/-- A list of records of `k` words, with its length in front. -/
def serRecs (rs : List (List Nat)) : List Nat := rs.length :: rs.flatten

def desRecs (k : Nat) (ws : List Nat) : List (List Nat) × List Nat :=
  let n := Nat.min (ws.headD 0) (ws.tail.length / k)
  ((List.range n).map fun i => (ws.tail.drop (k * i)).take k, ws.tail.drop (k * n))

/-- A list of things of varying length. -/
def serMany {α : Type} (f : α → List Nat) (xs : List α) : List Nat := xs.length :: xs.flatMap f

def desLoop {α : Type} (p : List Nat → α × List Nat) : Nat → List Nat → List α × List Nat
  | 0, ws => ([], ws)
  | n + 1, ws =>
    let a := p ws
    let r := desLoop p n a.2
    (a.1 :: r.1, r.2)

def desMany {α : Type} (p : List Nat → α × List Nat) (ws : List Nat) : List α × List Nat :=
  desLoop p (Nat.min (ws.headD 0) ws.tail.length) ws.tail

def wordsToBytes (ws : List Nat) : List Byte := ws.flatMap (leBytes 8 ·)
def bytesToWords (bs : List Byte) : List Nat := (List.range (bs.length / 8)).map fun i => fieldLE bs (8 * i) 8
/-- A list padded with zeros to `n` bytes. -/
def padTo (n : Nat) (bs : List Byte) : List Byte := sliceB bs 0 n

/-! ### Emulated storage (section 9, R401) -/

/-- A chain position as words, in cycle `now` at network time `net` (in 2^-16 ns): the time of the first unsealed sherd is saved as network
time, plus one (R401). -/
def serPos (now net : Nat) (c : ChainPos) : List Nat :=
  [c.seq, c.off, c.time, match c.lastSeal with | some n => n + 1 | none => 0, c.unsealed,
    match c.firstAt with | some t => net - (now - t + c.ran) * 2 ^ 16 / 3 + 1 | none => 0] ++ serBytes c.hash ++ serBytes c.part

/-- A chain position from its words: its first unsealed sherd has waited since the time that was saved. -/
def desPos (now net : Nat) (ws : List Nat) : ChainPos × List Nat :=
  let g := fun i => ws.getD i 0
  let h := desBytes (ws.drop 6)
  let p := desBytes h.2
  ({ seq := g 0, off := g 1, hash := h.1, time := g 2, lastSeal := if g 3 = 0 then none else some (g 3 - 1), unsealed := g 4
     firstAt := if g 5 = 0 then none else some now, ran := if g 5 = 0 then 0 else (net + 1 - g 5) * 3 / 2 ^ 16, part := p.1 }, p.2)

/-- A namespace entry: its key context is relative to the saggar's range. -/
def serNs (kcBase now net n : Nat) (e : NsEnt) : List Nat :=
  [n, e.kc - kcBase, b2n e.flag, e.jnl.state, e.jnl.high, e.jnl.fault] ++ serBytes e.cfg ++ serBytes e.jnl.jid ++ serPos now net e.jnl.durable

def desNs (kcBase owner now net : Nat) (ws : List Nat) : (Nat × NsEnt) × List Nat :=
  let g := fun i => ws.getD i 0
  let c := desBytes (ws.drop 6)
  let j := desBytes c.2
  let p := desPos now net j.2
  let cfg := padTo 40 c.1
  let w0 := fieldLE cfg 0 4
  let cfg := overlay (overlay cfg 0 (leBytes 4 (w0 - w0 % 2 ^ 11 + owner))) 24 (leBytes 4 (g 1 + kcBase))
  ((g 0, { cfg := cfg, flag := g 2 == 1,
           jnl := { Journal.reset with jid := j.1, state := g 3, head := p.1, durable := p.1, high := g 4, fault := g 5 } }), p.2)

/-- The controller, its queues, features and logs, what its write cache holds (the data lie in the saggar's pages), and the commands in
progress. -/
def serNvme (c : Nvme) : List Nat :=
  serBytes c.cfg ++
  [c.cc, b2n c.rdy, b2n c.cfs, c.shst, c.aqa, c.asq, c.acq, c.ps, b2n c.vwc, c.coal, c.aec, c.nextId, b2n c.logLost, c.errN] ++ c.smart.take 4 ++
  serRecs (c.sqs.filterMap fun kv => kv.2.map fun q => [kv.1, q.base, q.size, q.cq, q.head, q.tail]) ++
  serRecs (c.cqs.filterMap fun kv => kv.2.map fun q => [kv.1, q.base, q.size, b2n q.ien, q.vec, q.head, q.tail, b2n q.phase]) ++
  serRecs (c.vecs.map fun kv => [kv.1, kv.2]) ++
  serRecs (c.log.map fun e => [e.nsid, e.slba, e.nlb, e.status, e.time]) ++
  serRecs (c.changed.map fun n => [n]) ++ serRecs (c.masked.map fun n => [n]) ++
  serRecs (c.events.map fun e => [e.1, e.2.1, e.2.2]) ++
  serRecs (c.cqes.map fun x => [x.cq, x.sq, x.cid, x.dw0, x.dw1, x.status]) ++
  serRecs (c.errs.map fun e => [e.num, e.sq, e.cid, e.status, e.slba, e.nsid]) ++
  serRecs (c.irqHeld.filterMap fun kv => kv.2.map fun h => [kv.1, h.1]) ++
  serRecs (c.cache.map fun w => [w.id, w.ns, w.slba, w.nlb, w.off, w.len, b2n w.failed, w.wslba, w.wnlb]) ++
  serMany (fun (x : NvmeCmd) =>
    let durable := match x.wait with | .seal n q => if fieldLE x.sqe 0 1 = 0x81 then (n + 1, q) else (0, 0) | _ => (0, 0)
    [x.sq, x.cid, durable.1, durable.2] ++ serBytes x.sqe) c.cmds

/-- The controller from its words: every command in progress runs again from its start, but for an append whose sherd is
durable, which waits for its seal (R401). -/
def desNvme (now : Nat) (ws : List Nat) : Nvme :=
  let c := desBytes ws
  let g := fun i => c.2.getD i 0
  let sqs := desRecs 6 (c.2.drop 18)
  let cqs := desRecs 8 sqs.2
  let vecs := desRecs 2 cqs.2
  let log := desRecs 5 vecs.2
  let chg := desRecs 1 log.2
  let msk := desRecs 1 chg.2
  let evs := desRecs 3 msk.2
  let cqes := desRecs 6 evs.2
  let errs := desRecs 6 cqes.2
  let irqs := desRecs 2 errs.2
  let cache := desRecs 9 irqs.2
  let cmds := desMany (fun ws =>
    let b := desBytes (ws.drop 4)
    let w : CmdWait := if ws.getD 2 0 = 0 then .queued else .seal (ws.getD 2 0 - 1) (ws.getD 3 0)
    ((⟨ws.getD 0 0, ws.getD 1 0, b.1, now, if fieldLE b.1 0 1 = 0x0C ∧ ws.getD 0 0 = 0 then .aer else w, 0⟩ : NvmeCmd), b.2)) cache.2
  let r := fun (x : List Nat) i => x.getD i 0
  { cfg := padTo 16 c.1, cc := g 0, rdy := g 1 == 1, cfs := g 2 == 1, shst := g 3, aqa := g 4, asq := g 5, acq := g 6, ps := g 7,
    vwc := g 8 == 1, coal := g 9, aec := g 10, nextId := g 11, logLost := g 12 == 1, errN := g 13, smart := [g 14, g 15, g 16, g 17]
    errs := errs.1.map fun x => ⟨r x 0, r x 1, r x 2, r x 3, r x 4, r x 5⟩
    irqHeld := irqs.1.foldl (fun t x => tabSet (fun _ => none) t (r x 0) (some (r x 1, now))) []
    sqs := sqs.1.foldl (fun t x => tabSet (fun _ => none) t (r x 0) (some ⟨r x 1, r x 2, r x 3, r x 4, r x 5⟩)) []
    cqs := cqs.1.foldl (fun t x => tabSet (fun _ => none) t (r x 0) (some ⟨r x 1, r x 2, r x 3 == 1, r x 4, r x 5, r x 6, r x 7 == 1⟩)) []
    vecs := vecs.1.foldl (fun t x => tabSet (fun _ => 0) t (r x 0) (r x 1)) []
    log := log.1.map fun x => ⟨r x 0, r x 1, r x 2, r x 3, r x 4⟩
    changed := chg.1.map fun x => r x 0
    masked := msk.1.map fun x => r x 0
    events := evs.1.map fun x => (r x 0, r x 1, r x 2)
    cqes := cqes.1.map fun x => ⟨r x 0, r x 1, r x 2, r x 3, r x 4, r x 5, 0, 0⟩
    cache := cache.1.map fun x => ⟨r x 0, r x 1, r x 2, r x 3, r x 4, r x 5, r x 6 == 1, r x 7, r x 8, 0, now⟩
    cmds := cmds.1, conns := [], chans := [], held := [], late := [] }

/-! ### Threads and channels (sections 8 and 1) -/

/-- The CSRs of a thread's image, by number. -/
def savedCsrs : List Nat :=
  [0x300, 0x302, 0x303, 0x304, 0x305, 0x306, 0x30A, 0x340, 0x341, 0x342, 0x343, 0x344, 0x140, 0x141, 0x142, 0x143, 0x105,
   0x106, 0x10A, 0x180, 0x003, 0x8C0, 0x7C2, 0x3A0, 0x3A2] ++ (List.range 16).map (0x3B0 + ·)

namespace Dev

/-- The image of a thread: pc, mode and enable, x and f registers, CSRs, counters. -/
def serThread (d : Dev) (t : Nat) : List Byte :=
  let x := d.thread t
  padTo 1024 (wordsToBytes ([x.pc.toNat, x.mode.code + 4 * b2n x.enabled + 8 * x.last] ++
    x.x.toList.map (·.toNat) ++ x.f.toList.map (·.toNat) ++ savedCsrs.map x.csr ++ ctrCsrs.map (d.ctrVal t)))

/-- A thread as its image gives it; its endpoints and inbox stay. -/
def desThread (d : Dev) (t : Nat) (bs : List Byte) : Thread :=
  let w := bytesToWords (padTo 1024 bs)
  let g := fun i => w.getD i 0
  let reg := fun b => Vector.ofFn fun (i : Fin 32) => BitVec.ofNat 64 (g (b + i))
  let old := d.thread t
  let x := { old with
    pc := BitVec.ofNat 64 (g 0), mode := .ofCode (g 1 % 4), enabled := bitOf (g 1) 2, last := bitsOf (g 1) 3 8, wait := .run
    resv := none, busy := [], missed := [], x := reg 2, f := reg 34
    csrs := (List.range savedCsrs.length).foldl (fun tb i => tabSet (fun _ => 0) tb (savedCsrs.getD i 0) (g (66 + i))) [] }
  (List.range ctrCsrs.length).foldl (fun x i =>
    let n := ctrCsrs.getD i 0
    setCtr x n (d.ctrRaw t n) (g (66 + savedCsrs.length + i))) x

/-- The channels of a saggar, in number order (R367). -/
def sagChans (d : Dev) (s : Nat) : List Nat := d.chansOf fun g => (d.chan g).allot == some s

/-- HEAD, OFFSET and DPHASE of a channel as SAVE records them (R379): a frame partly moved is set back to its first
descriptor. -/
def savedHead (d : Dev) (g : Nat) : Nat × Nat × Nat :=
  let h := d.chHead g
  let p := d.get (DMA_CH_STATUS_DPHASE (g / 256) (g % 256))
  let back := fun i => (i, 0, if h < i then 1 - p else p)
  match (d.chan g).active with
  | some (.tx ((i, _) :: _) _ _ _) => back i
  | some (.txDone ((i, _) :: _) _) => back i
  | some (.rx _ _ used off) =>
    if used = 0 ∧ off = 0 then (h, d.chOffset g, p) else back ((h + d.ringSize g - used) % d.ringSize g)
  | _ => (h, d.chOffset g, p)

/-- A channel in 64 bytes. -/
def serChan (d : Dev) (s g : Nat) : List Byte :=
  let e := g / 256
  let c := g % 256
  let w := fun a => (d.rd a).toNat
  let (h, o, p) := d.savedHead g
  padTo 64 ([w (DMA_CH_CFG e c), d.get (DMA_CH_QUEUE_QUEUE e c) - d.get (SAG_QUEUES_BASE s), w (DMA_CH_DRING_LO e c),
    w (DMA_CH_DRING_HI e c), w (DMA_CH_CRING_LO e c), w (DMA_CH_CRING_HI e c), w (DMA_CH_SIZE e c), w (DMA_CH_HOLDOFF e c),
    d.chTail g + h * 2 ^ 16, d.chDone g, o, p + 2 * d.get (DMA_CH_STATUS_CPHASE e c) + 4 * d.get (DMA_CH_STATUS_IRQ_ARMED e c) +
      8 * d.chSt g + 64 * b2n (d.chan g).started + 256 * (d.pauseSrc g &&& srcMgr), w (DMA_CH_IRQ_NEXT e c)].flatMap (leBytes 4 ·))

/-- A saved channel laid into the set-up channel `g` of saggar `s`: paused under the manager's source, or under the saggar's
until the restore ends; reserved bits of its image words are ignored (R8). -/
def desChan (d : Dev) (s g : Nat) (bs : List Byte) : Dev :=
  let e := g / 256
  let c := g % 256
  let w := fun i => fieldLE bs (4 * i) 4
  let put := fun (d : Dev) (a i : Nat) => d.loadReg a (BitVec.ofNat 32 (w i))
  let d := put (put (put (put (put (put (put d (DMA_CH_CFG e c) 0) (DMA_CH_DRING_LO e c) 2) (DMA_CH_DRING_HI e c) 3)
    (DMA_CH_CRING_LO e c) 4) (DMA_CH_CRING_HI e c) 5) (DMA_CH_SIZE e c) 6) (DMA_CH_HOLDOFF e c) 7
  let d := (put d (DMA_CH_IRQ_NEXT e c) 12).put (DMA_CH_QUEUE_QUEUE e c) (w 1 + d.get (SAG_QUEUES_BASE s))
  let d := (d.put (DMA_CH_CFG_LINK e c) (d.get (SAG_FUNC_LINK s))).put (DMA_CH_CFG_FUNC e c) (d.get (SAG_FUNC_FUNC s))
  let d := (d.put (DMA_CH_OWNER_MANAGER e c) 0).put (DMA_CH_OWNER_OWNER e c) s
  let d := ((d.put (DMA_CH_TAIL_TAIL e c) (w 8 % 2 ^ 16)).setHead g (w 8 / 2 ^ 16)).put (DMA_CH_HEAD_DONE e c) (w 9 % 2 ^ 16)
  let d := ((d.setOffset g (w 10)).put (DMA_CH_STATUS_DPHASE e c) (w 11 % 2)).put (DMA_CH_STATUS_CPHASE e c) (bitsOf (w 11) 1 1)
  let d := (d.put (DMA_CH_STATUS_IRQ_ARMED e c) (bitsOf (w 11) 2 1)).put (DMA_CH_STATUS_OWN_STALL e c) 0
  let started := bitOf (w 11) 6
  let d := d.modChan g fun x => { x with allot := some s, started := started, known := x.known || started }
  let d := d.put (SAG_CH_CH_USED s) (d.get (SAG_CH_CH_USED s) + 1)
  if !started then d
  else
    let d := (d.lock (DMA_CH_CTRL e c)).put (DMA_CH_CTRL_PAUSE e c) (bitsOf (w 11) 8 1)
    let d := d.put (DMA_CH_STATUS_PAUSE_SRC e c) (bitsOf (w 11) 8 1 + srcSaggar)
    let d := if d.chKind g = 1 then
        { d with dma := { d.dma with rxServe := d.dma.rxServe ++ [(d.get (DMA_CH_QUEUE_QUEUE e c), g)] } }
      else d
    if bitsOf (w 11) 3 3 = chStopped then d.setChSt g chStopped else d.setChSt g chPaused

/-! ### The image -/

/-- The sixteen counts and registers of ALLOT (R380). -/
def allotWords (d : Dev) (s : Nat) : List Nat :=
  let w := fun a => (d.rd a).toNat
  [1, d.get (SAG_GROUPS_COUNT s), d.get (SAG_QUEUES_COUNT s), d.get (SAG_METERS_COUNT s), d.get (SAG_KC_COUNT_COUNT s),
   d.get (SAG_HBM_PAGES_PAGES s), d.get (SAG_THREADS_COUNT s), d.get (SAG_TBL_QUOTA s), d.get (SAG_CH_CH_MAX s),
   d.get (SAG_WEIGHT_WEIGHT s), w (SAG_DMA_RL s), w (SAG_DMA_BURST s), w (SAG_GLZ_RL s), w (SAG_GLZ_BURST s),
   w (SAG_PKE_RL s), w (SAG_PKE_BURST s)]

/-- A control word with its QUEUE field moved by a range base, where the entry sets a queue. -/
def moveQueue (ctl : Nat) (f : Nat → Nat) : Nat := if bitOf ctl 53 then ctl - bitsOf ctl 32 16 * 2 ^ 32 + f (bitsOf ctl 32 16) % 2 ^ 16 * 2 ^ 32 else ctl

/-- The sections of a saggar: type, number of entries, bytes (R380). `kwk` wraps the contexts. -/
def sagSections (d : Dev) (s : Nat) (kwk : List Byte) : List (Nat × Nat × List Byte) :=
  let range := fun b n => (List.range n).map (b + ·)
  let groups := range (d.get (SAG_GROUPS_BASE s)) (d.get (SAG_GROUPS_COUNT s))
  let queues := range (d.get (SAG_QUEUES_BASE s)) (d.get (SAG_QUEUES_COUNT s))
  let meters := range (d.get (SAG_METERS_BASE s)) (d.get (SAG_METERS_COUNT s))
  let threads := range (d.get (SAG_THREADS_BASE s)) (d.get (SAG_THREADS_COUNT s))
  let w32 := fun (n : Nat) (ws : List Nat) => padTo n (ws.flatMap (leBytes 4 ·))
  let qs := queues.flatMap fun q =>
    let x := d.queue q
    w32 64 ((queueWords { x with meter := x.meter - d.get (SAG_METERS_BASE s) } false).take 5)
  let ems := (d.tbl.em ++ d.tbl.ovf).filter fun kv => kv.2.valid && ownerOf kv.2.ctl == s
  let kcs := (List.range (d.get (SAG_KC_COUNT_COUNT s))).filter fun i => (d.kctx (d.get (SAG_KC_BASE_BASE s) + i)).valid
  let ns := d.sto.ns.filter fun kv => kv.2.valid && kv.2.owner == s
  let sto := serNvme (d.nvme s) ++ serMany (fun (kv : Nat × NsEnt) => serNs (d.get (SAG_KC_BASE_BASE s)) d.cycle (d.time.net / 2 ^ 32) kv.1 kv.2) ns
  [(1, (d.sagChans s).length, (d.sagChans s).flatMap (d.serChan s ·)),
   (2, groups.length, groups.flatMap fun g => w32 32 (nodeWords ((d.node 2 g).settle d.cycle))),
   (3, queues.length, qs),
   (4, meters.length, meters.flatMap fun m => w32 64 ((meterWords ((d.meter m).settle d.cycle)).take 6)),
   (5, queues.length, queues.flatMap fun q =>
      w32 16 [b2n (d.place q).valid * 2 ^ 31 + ((d.place q).thread - d.get (SAG_THREADS_BASE s))]),
   (6, ems.length, ems.flatMap fun kv => emBytes { kv.2 with ctl := moveQueue kv.2.ctl (· - d.get (SAG_QUEUES_BASE s)) }),
   (7, kcs.length, kcs.flatMap fun i => leBytes 8 i ++ blobOf (d.kctx (d.get (SAG_KC_BASE_BASE s) + i)) kwk),
   (8, threads.length, threads.flatMap d.serThread),
   (9, 1, if (d.nvme s).enabled || !ns.isEmpty then wordsToBytes sto else [])].filter fun x => !x.2.2.isEmpty

/-- The image of saggar `s` (R380). -/
def sagImage (d : Dev) (s : Nat) (kwk : List Byte) : List Byte :=
  let secs := d.sagSections s kwk
  let table := (secs.foldl (fun (acc : List Byte × Nat) x =>
    (acc.1 ++ leBytes 4 x.1 ++ leBytes 4 acc.2 ++ leBytes 4 x.2.2.length ++ leBytes 4 x.2.1, acc.2 + x.2.2.length)) ([], 4096)).1
  let body := secs.flatMap (·.2.2)
  let hdr := padTo 4096 (leBytes 8 0x4D4953474153585A ++ leBytes 2 1 ++ leBytes 2 4096 ++ leBytes 4 (d.rd GLB_DEVID).toNat ++
    leBytes 8 0 ++ leBytes 4 (4096 + body.length) ++ leBytes 2 secs.length ++ leBytes 2 0 ++ leBytes 4 s ++ List.replicate 28 0#8 ++
    (d.allotWords s).flatMap (leBytes 4 ·) ++ table)
  let img := hdr ++ body
  overlay img 4048 (sha384 img)

/-- A section of an image: its entries' bytes and their number. -/
def imgSection (img : List Byte) (typ : Nat) : Nat × List Byte :=
  match (List.range (fieldLE img 28 2)).find? fun i => fieldLE img (128 + 16 * i) 4 == typ with
  | some i => (fieldLE img (140 + 16 * i) 4, sliceB img (fieldLE img (132 + 16 * i) 4) (fieldLE img (136 + 16 * i) 4))
  | none => (0, [])

/-- The checks of R381 in their order: the RESULT of the first that fails. -/
def imgCheck (d : Dev) (s : Nat) (img : List Byte) : Option Nat :=
  let n := fieldLE img 28 2
  let len := fieldLE img 24 4
  let rows := (List.range n).map fun i =>
    (fieldLE img (128 + 16 * i) 4, fieldLE img (132 + 16 * i) 4, fieldLE img (136 + 16 * i) 4)
  if fieldLE img 0 8 ≠ 0x4D4953474153585A ∨ fieldLE img 10 2 ≠ 4096 ∨ 2 ^ 24 < len ∨ len < 4096 ∨ n = 0 ∨ 16 < n ∨
      (rows.any fun r => decide (r.2.1 < 4096) || decide (len < r.2.1 + r.2.2)) = true then some 0x14
  else if fieldLE img 8 2 ≠ 1 ∨ fieldLE img 14 2 ≠ 0x1280 ∨ fieldLE img 16 8 ≠ 0 ∨
      (d.get GLB_DEVID_REV_LETTER * 256 + d.get GLB_DEVID_REV_NUM) < fieldLE img 12 2 ∨
      (rows.any fun r => r.1 == 0 || decide (9 < r.1)) = true then some 0x15
  else if sliceB img 4048 48 ≠ sha384 (overlay (img.take len) 4048 (List.replicate 48 0#8)) then some 0x14
  else if ((d.allotWords s).take 9).zipIdx.any fun (v, i) => decide (v < fieldLE img (64 + 4 * i) 4) then some 0x16
  else none

end Dev
end Sys2Proof.Machine
end

