-- ==== Sys2Proof/Machine/SagOps.lean ====
section
/-!
DEFINITION. Saggar operations and the mailbox (chapter Saggars: Isolated Instances).
-/

namespace Sys2Proof.Machine
namespace Dev

def sgOk : Nat := 0x00
def sgBadState : Nat := 0x10
def sgNoResource : Nat := 0x11
def sgBadFunc : Nat := 0x12
def sgChBusy : Nat := 0x13
def sgIoFail : Nat := 0x17

def sgState (d : Dev) (s : Nat) : Nat := d.get (SAG_STATUS_STATE s)
def setSgState (d : Dev) (s v : Nat) : Dev := d.put (SAG_STATUS_STATE s) v

/-- The end of an operation (R364). -/
def sagEnd (d : Dev) (s result : Nat) : Dev :=
  let d := d.modSag s fun x => { x with op := none }
  ((d.put (SAG_STATUS_BUSY s) 0).setEvent (SAG_STATUS_DONE s)).put (SAG_STATUS_RESULT s) result

/-- An operation is accepted and runs. -/
def sagBegin (d : Dev) (s op arg : Nat) : Dev :=
  (d.modSag s fun x => { x with op := some (op, arg, d.cycle) }).put (SAG_STATUS_BUSY s) 1

/-! ### CREATE (R365) -/

/-- Two ranges of base and count meet. -/
def rangesMeet (a b : Nat × Nat) : Bool := a.2 != 0 && b.2 != 0 && decide (a.1 < b.1 + b.2) && decide (b.1 < a.1 + a.2)
def rangeIn (a p : Nat × Nat) : Bool := a.2 == 0 || (decide (p.1 ≤ a.1) && decide (a.1 + a.2 ≤ p.1 + p.2))

/-- The six ranges of a saggar, in the order of the profile's pools: groups, queues, meters, contexts, pages, threads. -/
def sagRanges (d : Dev) (s : Nat) : List (Nat × Nat) :=
  [(d.get (SAG_GROUPS_BASE s), d.get (SAG_GROUPS_COUNT s)), (d.get (SAG_QUEUES_BASE s), d.get (SAG_QUEUES_COUNT s)),
   (d.get (SAG_METERS_BASE s), d.get (SAG_METERS_COUNT s)), (d.get (SAG_KC_BASE_BASE s), d.get (SAG_KC_COUNT_COUNT s)),
   (d.get (SAG_HBM_BASE_BASE s), d.get (SAG_HBM_PAGES_PAGES s)), (d.get (SAG_THREADS_BASE s), d.get (SAG_THREADS_COUNT s))]

/-- The most of each range that a saggar may hold (R365). -/
def sagMax : List Nat := [1024, 8192, 8192, 32768, 49152, 256]

/-- A range lies outside its pool, meets another saggar's, or exceeds its maximum (R364, R366). -/
def noResource (d : Dev) (s : Nat) : Bool :=
  let mine := d.sagRanges s
  let others := d.liveSags.filter (· != s)
  let hbm := mine.getD 4 (0, 0)
  let byte := fun (p : Nat × Nat) => (p.1 * 2 ^ 21, p.2 * 2 ^ 21)
  (mine.zip (d.boot.profile.pools.zip sagMax)).any (fun (r, p, m) => !rangeIn r p || decide (m < r.2)) ||
  others.any (fun o => (mine.zip (d.sagRanges o)).any fun (a, b) => rangesMeet a b) ||
  rangesMeet (byte hbm) (d.kcBase, 2 ^ 28) ||
  rangesMeet (byte hbm) (d.get BUF_SPILL_BASE_GIB * 2 ^ 30, d.get BUF_SPILL_SIZE_GIB * 2 ^ 30) ||
  rangesMeet hbm (d.boot.profile.rsvBase, d.boot.profile.rsvCount) || d.retired (byte hbm).1 (byte hbm).2 ||
  decide (1024 < d.get (SAG_CH_CH_MAX s)) || decide (65536 < d.get (SAG_TBL_QUOTA s))

/-- SAG_FUNC names no enabled Tearell or NVMe function, or one bound to another saggar (R364). -/
def badFunc (d : Dev) (s : Nat) : Bool :=
  let l := d.sagLink s
  let f := d.sagFunc s
  (match d.funcAt l f with | some k => kindPf k == 0 | none => true) ||
  d.liveSags.any fun o => o != s && d.sagLink o == l && d.sagFunc o == f

/-- The numbers of a range. -/
def rangeOf (r : Nat × Nat) : List Nat := (List.range r.2).map (r.1 + ·)
def inRangeOf (r : Nat × Nat) (i : Nat) : Bool := decide (r.1 ≤ i) && decide (i < r.1 + r.2)

/-- The actions of CREATE (R365). -/
def createSag (d : Dev) (s : Nat) : Dev :=
  let r := d.sagRanges s
  let g := fun i => r.getD i (0, 0)
  let d := (rangeOf (g 0)).foldl (fun d i => d.setNode 2 i { d.node 2 i with owner := s }) d
  let d := { d with buf := { d.buf with
    queues := tabMapAll (fun _ => .reset) d.buf.queues fun i q =>
      if inRangeOf (g 1) i then { QEntry.reset with occ := q.occ, spillCells := q.spillCells, spilling := q.spilling,
                                                    frames := q.frames, spill := q.spill } else q
    meters := tabMapAll (fun _ => .reset) d.buf.meters fun i m => if inRangeOf (g 2) i then .reset else m } }
  let d := (rangeOf (g 1)).foldl (fun d q => d.modPlace q fun x => { x with valid := false, owner := s }) d
  let d := (rangeOf (g 3)).foldl (fun d i => if (d.kctx i).valid then d.setKctx i (invalidated (d.kctx i)) else d) d
  d.lock (SAG_CTRL s)

/-! ### Jobs and channels of a saggar -/

/-- Jobs that act for saggar `s`: from its channels, or carrying its number (R375, R376). -/
def ofSag (s : Nat) (j : Job) : Bool := j.owner == some s || j.tagSag == some s

/-- Whether a job of the saggar runs on an engine or unit (R379). -/
def jobsRun (d : Dev) (s : Nat) : Bool :=
  (d.glz.engines.any fun kv => match kv.2 with
    | some r => match r.work with | .job j => ofSag s j.job | .frame _ _ => false
    | none => false) ||
  d.pke.units.any fun kv => match kv.2 with | some r => ofSag s r.job | none => false

/-- Withdraws the jobs handed over and not started; the result lists them (R375, R376). -/
def withdrawJobs (d : Dev) (s : Nat) : List Job × Dev :=
  let js := (d.glz.jobs.filter fun x => ofSag s x.job).map (·.job) ++ d.pke.jobs.filter (ofSag s)
  (js, { d with glz := { d.glz with jobs := d.glz.jobs.filter fun x => !ofSag s x.job }
                pke := { d.pke with jobs := d.pke.jobs.filter (fun j => !ofSag s j), hdrs := d.pke.hdrs.filter fun h => !ofSag s h.1 } })

/-- Jobs that FREEZE has withdrawn: their channels, of which HEAD has passed none of them (R337), go back to the first (R376), and the storage service, halted with its
threads, keeps its own to hand them over again. -/
def backJobs (d : Dev) (s : Nat) (js : List Job) : Dev :=
  let d := d.modNvme s fun c => { c with held := c.held ++ js.filter (·.sto.isSome) }
  let js := js.filter (·.sto.isNone)
  ((js.map (·.chan)).dedup).foldl (fun d g =>
    match js.find? (·.chan == g) with
    | some j => (d.untake g j.idx).pump (g / 256)
    | none => d) d

/-- The storage service hands its jobs over again, with the number that the saggar has now (R378). -/
def handHeld (d : Dev) (s : Nat) : Dev :=
  let js := (d.nvme s).held
  js.foldl (fun d j =>
    let j := { j with firing := d.firing (.saggar s), handed := d.cycle }
    match j.sto with
    | some ⟨_, .sign _ _, _⟩ => d.pkHand j
    | _ => d.setGlz fun g => { g with jobs := g.jobs ++ [⟨j, none⟩] }) (d.modNvme s fun c => { c with held := [] })

/-! ### Reset (R374) -/

/-- Cycle 0 of a saggar reset. -/
def sagResetStart (d : Dev) (s : Nat) (destroys : Bool) : Dev :=
  let d := (d.setSgState s 4).modSag s fun x => { x with destroys := destroys, flrWaits := false, dirty := [] }
  let d := (d.put (SAG_STATUS_DIRTY_ON s) 0).bumpOwner (.saggar s)
  let d := (d.sagChans s).foldl (fun d g => (d.chanReset g).setPause g srcSaggar false) d
  let r := d.sagRanges s
  let d := (rangeOf (r.getD 1 (0, 0))).foldl (fun d q =>
    if (d.place q).next.isSome then d.endHold q false else d.bumpOwner (.place q)) d
  let d := (rangeOf (r.getD 5 (0, 0))).foldl (fun d t => d.modThread t fun x => { x with enabled := false, wait := .run, resv := none }) d
  let d := (d.ctlReset s).withdrawJobs s |>.2
  { d with tbl := { d.tbl with jobs := d.tbl.jobs.filter fun j => j.owner != some s }
           core := { d.core with jobs := d.core.jobs.filter fun j => j.owner != some s } }

/-- The queues of a saggar are flushed (R374): the cells of a frame that still arrives return when it ends (R154). -/
def sagFlush (d : Dev) (r : Nat × Nat) : Dev :=
  let mine := d.frames.filter fun kv => match kv.2 with
    | none => false
    | some f => match f.stage, f.act with
      | .admitted _, some a => inRangeOf r a.queue
      | .queued, some a => inRangeOf r a.queue
      | .spilled _, some a => inRangeOf r a.queue
      | _, _ => false
  let qs := (d.buf.queues.filter fun kv => inRangeOf r kv.1).map (·.1)
  let d := mine.foldl (fun d kv => d.flushFrame kv.1) d
  qs.foldl (fun d q => (d.modQueue q fun x => { x with spilling := false }).leftQueue q) d

/-- Deletes every exact-match entry of an owner (R374). -/
def sagEntries (d : Dev) (s : Nat) : Dev :=
  let keys := ((d.tbl.em ++ d.tbl.ovf).filter fun kv => kv.2.valid && ownerOf kv.2.ctl == s).map (·.2.key)
  keys.foldl (fun d k =>
    match d.emFind k with
    | some loc => if ownerOf (d.locEnt loc).ctl = s then (d.emDeleteAt loc).2 else d
    | none => d) d

/-- The sweep and the end of a saggar reset (R374). -/
def sagSweep (d : Dev) (s : Nat) : Dev :=
  let r := d.sagRanges s
  let g := fun i => r.getD i (0, 0)
  let d := ((d.sagFlush (g 1)).sagEntries s)
  let d := (rangeOf (g 3)).foldl (fun d i => if (d.kctx i).valid then d.setKctx i (invalidated (d.kctx i)) else d) d
  let ms := tabMapAll (fun _ => .reset) d.buf.meters fun i m =>
    if inRangeOf (g 2) i then { m with tc := m.cbs * tokenUnit, tp := m.pbs * tokenUnit, at_ := d.cycle } else m
  let d := { d with buf := { d.buf with meters := ms } }
  let d := (rangeOf (g 5)).foldl (fun d t => d.modThread t fun x =>
    ctrCsrs.foldl (fun y n => setCtr y n (d.ctrRaw t n) 0)
      { Thread.reset with tx := x.tx, rx := x.rx, inbox := x.inbox, retq := x.retq, ownIssues := x.ownIssues
                          freeIssues := x.freeIssues, xplcStall := x.xplcStall, misses := x.misses, retired := x.retired }) d
  let tail := d.get (SAG_MBX_M2T_TAIL_TAIL s)
  let d := d.bump (SAG_CNT_MBX_DROPPED s) ((tail + 65536 - d.get (SAG_MBX_STATUS_M2T_DONE s)) % 65536)
  let d := d.put (SAG_MBX_STATUS_M2T_DONE s) tail
  let destroys := (d.sagOf s).destroys
  let busy := (d.sagOf s).op.isSome
  let d := d.modSag s fun x => { x with t2mTail := 0, t2mHead := 0, m2tTail := 0, m2tHead := 0, t2m := [], m2t := [], destroys := false }
  let d := (d.sagChans s).foldl (fun d g => if d.chSt g = chResetting then d.endChReset g else d) d
  let d := d.put (SAG_STATUS_SAVED s) 0
  let d :=
    if destroys then
      let d := d.dropChans s
      let d := (d.sagChans s).foldl (fun d g =>
        ((d.modChan g fun x => { x with allot := none }).put (DMA_CH_OWNER_MANAGER (g / 256) (g % 256)) 1).put
          (DMA_CH_OWNER_OWNER (g / 256) (g % 256)) 0) d
      let d := (rangeOf (g 0)).foldl (fun d i => d.setNode 2 i { d.node 2 i with owner := 0 }) d
      let d := d.setSto fun x => { x with ns := tabMapAll (fun _ => .reset) x.ns fun _ e =>
        if e.valid && e.owner == s then { e with cfg := overlay e.cfg 0 (leBytes 4 (e.w 0 - 2 ^ 31)), jnl := .reset } else e }
      (((d.put (SAG_CH_CH_USED s) 0).setSgState s 0).syncUsed s).unlock (SAG_CTRL s)
    else d.setSgState s 1
  if busy then d.sagEnd s sgOk else d

/-! ### Freeze (R376) -/

/-- The condition of FROZEN (R376): every channel rests. -/
def sagQuiet (d : Dev) (s : Nat) : Bool :=
  (d.sagChans s).all fun g => d.chSt g != chRunning && d.chSt g != chPausing

/-- A channel is a running manager EVENT channel (R364). -/
def eventChan (d : Dev) (g : Nat) : Bool := d.chManager g && d.chKind g == 7 && d.chSt g == chRunning

def addr64 (d : Dev) (lo hi : Fld) (al : Nat) : Nat := (d.get lo + d.get hi * 2 ^ 32) / al * al

/-- Writes bytes at an address through an EVENT channel; none where it cannot (IO_FAIL). -/
def eventWrite (d : Dev) (g a : Nat) (bs : List Byte) : Option Dev :=
  if d.eventChan g && d.engRuns (g / 256) && d.tAllowed g a bs.length then some (d.tWrite g a bs none none) else none

/-- SAVE once no job of the saggar runs (R379): the image is written, its contexts become invalid. -/
def saveNow (d : Dev) (s : Nat) : Dev :=
  let g := d.get (SAG_IMG_CFG_CHANNEL s)
  match d.kwkKey none (d.get (SAG_IMG_KWK_INDEX s)) with
  | none => d.sagEnd s sgIoFail
  | some k =>
    let img := d.sagImage s k
    match d.eventWrite g (d.addr64 (SAG_IMG_ADDR_LO_ADDR s) (SAG_IMG_ADDR_HI_ADDR s) 4096) img with
    | none => d.sagEnd s sgIoFail
    | some d =>
      let kcs := (d.get (SAG_KC_BASE_BASE s), d.get (SAG_KC_COUNT_COUNT s))
      let d := (rangeOf kcs).foldl (fun d i => if (d.kctx i).valid then d.setKctx i (invalidated (d.kctx i)) else d) d
      ((d.put (SAG_IMG_LEN_BYTES s) img.length).put (SAG_STATUS_SAVED s) 1).sagEnd s sgOk

/-- SAVE operations whose saggar's jobs have ended go on (R379). -/
def pendingSaves (d : Dev) : Dev :=
  d.sag.sags.foldl (fun d kv =>
    match kv.2.op with
    | some (6, _, _) => if d.jobsRun kv.1 then d else d.saveNow kv.1
    | _ => d) d

/-! ### RESTORE (R381) -/

/-- Entry `i` of a section of `n`-byte entries. -/
def entryOf (sec : List Byte) (n i : Nat) : List Byte := sliceB sec (n * i) n
def words32 (bs : List Byte) (i : Nat) : Nat := fieldLE bs (4 * i) 4

/-- Channels of the profile's pool that are in set-up state and allotted to nobody. -/
def freeChans (d : Dev) : List Nat :=
  (rangeOf (d.boot.profile.pools.getD 6 (0, 0))).filter fun g => (d.chan g).allot.isNone && d.chSt g == chSetup

/-- The sections of an image laid into the ranges of saggar `s`; `kwk` unwraps the contexts. -/
def loadSections (d : Dev) (s : Nat) (img kwk : List Byte) : Dev :=
  let r := d.sagRanges s
  let b := fun i => (r.getD i (0, 0)).1
  let sec := imgSection img
  let fold := fun (typ : Nat) (f : Dev → Nat → List Byte → Dev) (n : Nat) (d : Dev) =>
    (List.range (sec typ).1).foldl (fun d i => f d i (entryOf (sec typ).2 n i)) d
  let d := fold 2 (fun d i e => d.setNode 2 (b 0 + i) { nodeFrom (words32 e) d.cycle 2 (d.node 2 (b 0 + i)) true with owner := s }) 32 d
  let d := fold 3 (fun d i e =>
    let q := queueFrom (words32 e) (d.queue (b 1 + i))
    d.setQueue (b 1 + i) { q with meter := (q.meter + b 2) % 65536 }) 64 d
  let d := fold 4 (fun d i e =>
    let m := meterFrom (words32 e) d.cycle (d.meter (b 2 + i)) false
    d.setMeter (b 2 + i) { m with tc := Nat.min (m.cbs * tokenUnit) (words32 e 4 * tokenUnit), tp := Nat.min (m.pbs * tokenUnit) (words32 e 5 * tokenUnit) }) 64 d
  let d := fold 5 (fun d i e => d.modPlace (b 1 + i) fun x =>
    { x with valid := bitOf (words32 e 0) 31, thread := bitsOf (words32 e 0) 0 10 + b 5, owner := s }) 16 d
  let d := fold 6 (fun d _ e =>
    let ctl := fieldLE e 16 8
    let ctl := moveQueue (ctl - bitsOf ctl 21 11 * 2 ^ 21 + s * 2 ^ 21) (· + b 1)
    (d.emInsertAt ⟨e.take 16, ctl, fieldLE e 24 8⟩ true).2) 32 d
  let d := fold 7 (fun d _ e =>
    match keyUnwrap kwk (sliceB e 8 136) with
    | some x => d.loadCtx (b 3 + fieldLE e 0 8) (overlay (x.take 64) 0 (leBytes 4 (let w := fieldLE x 0 4; w - w % 2 ^ 11 + s))) (x.drop 64)
    | none => d) 144 d
  let d := fold 8 (fun d i e => d.setThread (b 5 + i) (d.desThread (b 5 + i) e)) 1024 d
  let chans := d.freeChans
  let d := fold 1 (fun d i e => match chans[i]? with | some g => d.desChan s g e | none => d) 64 d
  if (sec 9).1 = 0 then d
  else
    let ws := bytesToWords (sec 9).2
    let c := desNvme d.cycle ws
    let ns := (desMany (desNs (b 3) s d.cycle (d.time.net / 2 ^ 32)) (ws.drop (serNvme c).length)).1
    -- a namespace keeps its entry number where that is free, and what names it follows it to another
    let (d, at_) := ns.foldl (fun (acc : Dev × List (Nat × Nat)) x =>
      let d := acc.1
      let i := if (d.nsEnt x.1).valid then ((List.range 4096).find? fun i => !(d.nsEnt i).valid).getD x.1 else x.1
      (d.setNs i x.2, acc.2 ++ [(x.1, i)])) (d, [])
    let entryNow := fun n => ((at_.find? (·.1 == n)).map (·.2)).getD n
    d.setNvme s { c with
      cache := c.cache.map fun w => { w with ns := entryNow w.ns }
      cmds := c.cmds.map fun x => { x with wait := match x.wait with | .seal n q => .seal (entryNow n) q | w => w } }

/-- The bumps of a RESTORE (R34, R35); a hold on one of its placement entries ends in them (R231). -/
def restoreBumps (d : Dev) (s : Nat) : Dev :=
  let d := d.bumpOwner (.saggar s)
  let d := (d.sagChans s).foldl (fun d g => d.bumpOwner (.chan g)) d
  (rangeOf ((d.sagRanges s).getD 1 (0, 0))).foldl (fun d q => d.endRestored q) d

/-- The storage service of a restored saggar (R386, R395, R401): it takes its channels, its work carries the saggar's number, and
the cached writes go to their targets again. -/
def serviceBack (d : Dev) (s : Nat) : Dev :=
  let f := d.firing (.saggar s)
  let d := if (d.nvme s).enabled then d.takeChans s else d
  let d := d.modNvme s fun c => { c with
    cmds := c.cmds.map fun x => { x with firing := f }
    cqes := c.cqes.map fun x => { x with firing := f }
    cache := c.cache.map fun x => { x with firing := f } }
  (dirty (d.nvme s)).foldl (fun d w => d.toTarget s (d.nsEnt w.ns).target 0x01 w.slba w.nlb (d.cacheData s w)) d

/-- The end of RESTORE, once its bumps are done (R36): the saggar is ACTIVE, its channels go on from HEAD, a ready controller
writes RESUME on its journals (R406), and seals those that a restored append waits for. -/
def restored (d : Dev) (s : Nat) : Dev :=
  let d := (d.setSgState s 1).put (SAG_STATUS_SAVED s) 0
  let d := (d.sagChans s).foldl (fun d g =>
    if d.chSt g ≠ chPaused then d
    else
      let d := d.put (DMA_CH_STATUS_PAUSE_SRC (g / 256) (g % 256)) ((d.pauseSrc g &&& srcMgr) + d.conditionSrc g + srcSaggar)
      (d.modChan g fun x => { x with scan := true }).setPause g srcSaggar false) d
  let d := d.serviceBack s
  let d := if (d.nvme s).rdy then
      (d.sto.ns.filter fun kv => kv.2.valid && kv.2.isJnl && kv.2.owner == s && kv.2.jnl.head.seq != 0 && kv.2.jnl.state != 2).foldl
        (fun d kv => d.chainResume kv.1 1) d
    else d
  let d := (d.nvme s).cmds.foldl (fun d x => match x.wait with | .seal n _ => d.startSeal n | _ => d) d
  d.sagEnd s sgOk

/-- The end of FREE_CH (R367): channel `g` is released from saggar `s`. -/
def freedCh (d : Dev) (s g : Nat) : Dev :=
  let d := (d.modChan g fun x => { x with allot := none }).modNvme s fun c => { c with chans := c.chans.filter (· != g) }
  let d := (d.put (DMA_CH_OWNER_MANAGER (g / 256) (g % 256)) 1).put (DMA_CH_OWNER_OWNER (g / 256) (g % 256)) 0
  (d.put (SAG_CH_CH_USED s) (d.get (SAG_CH_CH_USED s) - 1)).sagEnd s sgOk

/-- A FREE_CH or RESTORE whose bumps are done ends (R36). -/
def sagOpGo (d : Dev) (s : Nat) : Dev :=
  match (d.sagOf s).op with
  | some (7, _, _) => if d.sagBumped s then d.restored s else d
  | some (9, g, _) => if d.bumpPending (.chan g) then d else d.freedCh s g
  | _ => d

/-- Every such operation. -/
def sagOpsGo (d : Dev) : Dev := (d.sag.sags.map (·.1)).foldl (fun d s => d.sagOpGo s) d

/-! ### The mailbox (R369, R370) -/

/-- `n` bytes of a window slot. -/
def slotBytes (t : Tab Byte) (i : Nat) : List Byte := (List.range 64).map fun k => tabGet (fun _ => 0#8) t (64 * i + k)
def putSlot (t : Tab Byte) (a : Nat) (bs : List Byte) : Tab Byte := layBytes t a bs

/-- The mailbox of a saggar runs (R370). -/
def mbxRuns (d : Dev) (s : Nat) : Bool :=
  let st := d.sgState s
  d.flag (SAG_MBX_CFG_EN s) && d.eventChan (d.get (SAG_MBX_CFG_CHANNEL s)) && st != 0 && st != 4

end Dev

/-- A saggar operation (R364): ignored and counted while one runs, BAD_STATE where the state does not accept it. The write's
other field is ARG. -/
def doSag (op : Nat) (states : List Nat) (p : Path) (s : Nat) (data : W32) (f : Nat → Dev → Dev) (d : Dev) : Dev :=
  let d := d.writeFields p (SAG_CTRL s) data
  if fieldGet data 28 4 ≠ op then d
  else if d.flag (SAG_STATUS_BUSY s) then d.inc (SAG_CNT_CMD_IGNORED s)
  else if !states.contains (d.sgState s) then d.sagEnd s Dev.sgBadState
  else f (fieldGet data 0 12) d

/-- CREATE (R365). -/
def doSagCreate (p : Path) (s : Fin 2048) (data : W32) (d : Dev) : Dev :=
  doSag 1 [0] p s data (fun _ d =>
    if d.noResource s then d.sagEnd s Dev.sgNoResource
    else if d.badFunc s then d.sagEnd s Dev.sgBadFunc
    else (((d.createSag s).setSgState s 1).syncUsed s).sagEnd s Dev.sgOk) d

/-- DESTROY (R363, R374): the reset, at whose end the saggar is FREE. -/
def doSagDestroy (p : Path) (s : Fin 2048) (data : W32) (d : Dev) : Dev :=
  doSag 2 [1, 3] p s data (fun a d => (d.sagBegin s 2 a).sagResetStart s true) d

/-- SAGGAR_RESET (R374). -/
def doSagReset (p : Path) (s : Fin 2048) (data : W32) (d : Dev) : Dev :=
  doSag 3 [1, 3] p s data (fun a d => (d.sagBegin s 3 a).sagResetStart s false) d

/-- SAGGAR_RESET_SWEEP (R374): once the bumps are done. -/
def doSagResetSweep (s : Fin 2048) (d : Dev) : Dev := if d.sgState s = 4 ∧ d.sagBumped s = true then d.sagSweep s else d

/-- FREEZE (R376). -/
def doSagFreeze (p : Path) (s : Fin 2048) (data : W32) (d : Dev) : Dev :=
  doSag 4 [1] p s data (fun a d =>
    let d := (d.sagBegin s 4 a).setSgState s 2
    let d := (d.sagChans s).foldl (fun d g => d.setPause g srcSaggar true) d
    let r := d.withdrawJobs s
    let d := r.2.backJobs s r.1
    let d := (Dev.rangeOf ((d.sagRanges s).getD 5 (0, 0))).foldl (fun d t =>
      if (Dev.waitSince (d.thread t).wait).isSome then d.unstall t else d) d
    let kcs := (d.get (SAG_KC_BASE_BASE s), d.get (SAG_KC_COUNT_COUNT s))
    let kc := tabMapAll (fun _ => .reset) d.glz.kc fun i c => if Dev.inRangeOf kcs i then { c with cached := false } else c
    { d with glz := { d.glz with kc := kc } }) d

/-- FROZEN_REACHED (R376): every channel is paused, every thread halted, every write-back done. A reset that waited for it
begins (R374). -/
def doSagFrozenReached (s : Fin 2048) (d : Dev) : Dev :=
  if d.sgState s = 2 ∧ d.sagQuiet s = true then
    let waits := (d.sagOf s).flrWaits
    let d := (d.setSgState s 3).sagEnd s Dev.sgOk
    if waits then d.sagResetStart s false else d
  else d

/-- THAW (R378). -/
def doSagThaw (p : Path) (s : Fin 2048) (data : W32) (d : Dev) : Dev :=
  doSag 5 [3] p s data (fun _ d =>
    let d := (d.setSgState s 1).put (SAG_STATUS_SAVED s) 0
    ((((d.sagChans s).foldl (fun d g => d.setPause g srcSaggar false) d).handHeld s).svcResume s).sagEnd s Dev.sgOk) d

/-- SAVE (R370, R379): refused while a mailbox message is not consumed; it waits for the saggar's jobs. -/
def doSagSave (p : Path) (s : Fin 2048) (data : W32) (d : Dev) : Dev :=
  doSag 6 [3] p s data (fun a d =>
    let x := d.sagOf s
    let pending := x.t2mTail != x.t2mHead || x.m2tTail != x.m2tHead ||
      d.get (SAG_MBX_STATUS_M2T_DONE s) != d.get (SAG_MBX_M2T_TAIL_TAIL s) ||
      d.get (SAG_MBX_STATUS_T2M_POSTED s) != d.get (SAG_MBX_T2M_HEAD_HEAD s)
    if pending then d.sagEnd s Dev.sgBadState
    else if !d.eventChan (d.get (SAG_IMG_CFG_CHANNEL s)) then d.sagEnd s Dev.sgIoFail
    else
      let d := d.sagBegin s 6 a
      if d.jobsRun s then d else d.saveNow s) d

/-- RESTORE (R381, R382): `host` is the image as the host returned it, where SAG_IMG_ADDR lies in host memory. -/
def doSagRestore (p : Path) (s : Fin 2048) (data : W32) (host : List Byte) (d : Dev) : Dev :=
  doSag 7 [0] p s data (fun a d =>
    let at_ := d.addr64 (SAG_IMG_ADDR_LO_ADDR s) (SAG_IMG_ADDR_HI_ADDR s) 4096
    let g := d.get (SAG_IMG_CFG_CHANNEL s)
    let hdr := d.fetchT at_ 4096 host
    let d := d.ioReadT at_ 4096
    let len := Nat.min (2 ^ 24) (Nat.max 4096 (fieldLE hdr 24 4))
    if !(d.eventChan g && d.engRuns (g / 256) && d.tAllowed g at_ len) then d.sagEnd s Dev.sgIoFail
    else
      let img := d.fetchT at_ len host
      match d.imgCheck s img with
      | some e => d.sagEnd s e
      | none =>
        if d.noResource s ∨ (d.freeChans).length < (Dev.imgSection img 1).1 then d.sagEnd s Dev.sgNoResource
        else if d.badFunc s then d.sagEnd s Dev.sgBadFunc
        else
          let d := (d.sagBegin s 7 a).setSgState s 5
          let k := (d.kwkKey none (d.get (SAG_IMG_KWK_INDEX s))).getD []
          ((((d.createSag s).syncUsed s).loadSections s img k).restoreBumps s).sagOpGo s) d

/-- ALLOT_CH (R367). -/
def doSagAllotCh (p : Path) (s : Fin 2048) (data : W32) (d : Dev) : Dev :=
  doSag 8 [1] p s data (fun g d =>
    let e := g / 256
    let c := g % 256
    if d.chSt g ≠ chSetup ∨ (d.chan g).allot.isSome = true ∨ d.get (SAG_CH_CH_MAX s) ≤ d.get (SAG_CH_CH_USED s) then d.sagEnd s Dev.sgChBusy
    else
      let d := (d.put (DMA_CH_OWNER_MANAGER e c) 0).put (DMA_CH_OWNER_OWNER e c) s
      let d := (d.put (DMA_CH_CFG_LINK e c) (d.sagLink s)).put (DMA_CH_CFG_FUNC e c) (d.sagFunc s)
      let d := d.modChan g fun x => { x with allot := some s }
      (d.put (SAG_CH_CH_USED s) (d.get (SAG_CH_CH_USED s) + 1)).sagEnd s Dev.sgOk) d

/-- FREE_CH (R367). -/
def doSagFreeCh (p : Path) (s : Fin 2048) (data : W32) (d : Dev) : Dev :=
  doSag 9 [1] p s data (fun g d =>
    if (d.chan g).allot ≠ some (s : Nat) then d.sagEnd s Dev.sgChBusy
    else ((d.sagBegin s 9 g).chanReset g).sagOpGo s) d

/-- DIRTY_START (R383). -/
def doSagDirtyStart (p : Path) (s : Fin 2048) (data : W32) (d : Dev) : Dev :=
  doSag 10 [1] p s data (fun _ d => ((d.modSag s fun x => { x with dirty := [] }).put (SAG_STATUS_DIRTY_ON s) 1).sagEnd s Dev.sgOk) d

/-- DIRTY_READ (R383): the log is written through the image channel, and cleared as it is read. -/
def doSagDirtyRead (p : Path) (s : Fin 2048) (data : W32) (d : Dev) : Dev :=
  doSag 11 [1, 3] p s data (fun _ d =>
    let n := 64 * d.get (SAG_HBM_PAGES_PAGES s)
    let log := (List.range n).map fun i => tabGet (fun _ => 0#8) (d.sagOf s).dirty i
    let at_ := d.get (SAG_DIRTY_ADDR_LO_ADDR s) + d.get (SAG_DIRTY_ADDR_HI_ADDR s) * 2 ^ 32
    match (d.modSag s fun x => { x with dirty := [] }).eventWrite (d.get (SAG_IMG_CFG_CHANNEL s)) at_ log with
    | some d => d.sagEnd s Dev.sgOk
    | none => d.sagEnd s Dev.sgIoFail) d

/-- DIRTY_STOP (R383). -/
def doSagDirtyStop (p : Path) (s : Fin 2048) (data : W32) (d : Dev) : Dev :=
  doSag 12 [1, 3] p s data (fun _ d => (d.put (SAG_STATUS_DIRTY_ON s) 0).sagEnd s Dev.sgOk) d

/-- SW_T2M_TAIL (R370): the tenant announces messages; a tail out of order is ignored and counted. -/
def doSwT2mTail (s : Fin 2048) (data : W32) (d : Dev) : Dev :=
  let x := d.sagOf s
  let v := (fieldGet data 0 16 + 65536 - x.t2mHead) % 65536
  let t := (x.t2mTail + 65536 - x.t2mHead) % 65536
  if d.sgState s = 0 then d
  else if 16 < v ∨ v < t then d.inc (SAG_CNT_MBX_BAD s)
  else d.modSag s fun x => { x with t2mTail := fieldGet data 0 16 }

/-- MAILBOX_T2M_COPY (R369, R370). -/
def doMailboxT2mCopy (s : Fin 2048) (d : Dev) : Dev :=
  let x := d.sagOf s
  let posted := d.get (SAG_MBX_STATUS_T2M_POSTED s)
  if !d.mbxRuns s ∨ x.t2mHead = x.t2mTail ∨ 16 ≤ (posted + 65536 - d.get (SAG_MBX_T2M_HEAD_HEAD s)) % 65536 then d
  else
    let g := d.get (SAG_MBX_CFG_CHANNEL s)
    let msg := Dev.slotBytes x.t2m (x.t2mHead % 16)
    let hi := posted + s.val * 2 ^ 16 + (if posted / 16 % 2 = 0 then 2 ^ 31 else 0)
    let a := d.addr64 (SAG_MBX_ADDR_LO_ADDR s) (SAG_MBX_ADDR_HI_ADDR s) 2048 + 64 * (posted % 16)
    match d.eventWrite g a (overlay msg 4 (leBytes 4 hi)) with
    | none => d
    | some d =>
      let d := d.modSag s fun x => { x with t2mHead := (x.t2mHead + 1) % 65536 }
      let d := (d.put (SAG_MBX_STATUS_T2M_POSTED s) ((posted + 1) % 65536)).inc (SAG_CNT_MBX_T2M s)
      let l := d.chLink g
      (d.msix l 0 (d.get (SAG_MBX_CFG_VECTOR s))).2

/-- SAG_MBX_M2T_TAIL (R370): the manager announces messages for the tenant, which is a wake source of its function
(R323). -/
def doSagMbxM2tTail (p : Path) (s : Fin 2048) (data : W32) (d : Dev) : Dev :=
  let was := d.get (SAG_MBX_M2T_TAIL_TAIL s)
  let d := (d.writeFields p (SAG_MBX_M2T_TAIL s) data).put (SAG_MBX_M2T_TAIL_TAIL s) (fieldGet data 0 16)
  if d.get (SAG_MBX_M2T_TAIL_TAIL s) = was ∨ d.sgState s = 0 then d else d.wakeSource (d.sagLink s) (d.sagFunc s)

/-- MAILBOX_M2T_COPY (R370): `host` is the entry as the host returned it, where the manager's area lies in host memory. -/
def doMailboxM2tCopy (s : Fin 2048) (host : List Byte) (d : Dev) : Dev :=
  let x := d.sagOf s
  let done := d.get (SAG_MBX_STATUS_M2T_DONE s)
  let g := d.get (SAG_MBX_CFG_CHANNEL s)
  let a := d.addr64 (SAG_MBX_ADDR_LO_ADDR s) (SAG_MBX_ADDR_HI_ADDR s) 2048 + 1024 + 64 * (done % 16)
  if !d.mbxRuns s ∨ done = d.get (SAG_MBX_M2T_TAIL_TAIL s) ∨ 16 ≤ (x.m2tTail + 65536 - x.m2tHead) % 65536 ∨
      d.engRuns (g / 256) = false ∨ d.tAllowed g a 64 = false then d
  else
    let d := d.modSag s fun x => { x with
      m2t := Dev.putSlot x.m2t (64 * (x.m2tTail % 16)) (d.fetchT a 64 host), m2tTail := (x.m2tTail + 1) % 65536 }
    let d := d.ioReadT a 64
    let d := (d.put (SAG_MBX_STATUS_M2T_DONE s) ((done + 1) % 65536)).inc (SAG_CNT_MBX_M2T s)
    let l := d.sagLink s
    let f := d.sagFunc s
    let d := if (d.sagOf s).irqEn then (d.msix l f (d.sagOf s).vector).2 else d
    if (d.func l f).d3hot && !(d.func l f).pmeStatus then d.wakeSource l f else d

end Sys2Proof.Machine
end

