-- ==== Sys2Proof/Machine/ClockOps.lean ====
section
/-!
DEFINITION. What the passing of one PIPE cycle does (notes/assumptions/1).
-/

namespace Sys2Proof.Machine

/-- One PIPE cycle passes; SAVE operations whose saggar's jobs have ended go on (R379), and so does a storage service that runs again
(R389, R401). -/
def Dev.clockTick (d : Dev) : Dev := d.tick.pendingSaves.svcTick

end Sys2Proof.Machine
end

