-- ==== Sys2Proof/Machine/Flags.lean ====
section
/-!
DEFINITION. The flag computations of the parse engines (R82, R86). Arithmetic is done on numbers below 2^16 and
narrowed at the end.
-/

namespace Sys2Proof.Machine

/-- Z and S of a 16-bit result; C and X stay (R86: LDB, LDH, EXT). -/
def flagsZS (fl : PFlags) (r : W16) : PFlags := { fl with z := r == 0#16, s := r.msb }

/-- Z, S and a new C of a 16-bit result; X stays. -/
def flagsZCS (fl : PFlags) (r : W16) (c : Bool) : PFlags := { flagsZS fl r with c := c }

/-- Sum and flags: C is 1 if the true sum is 2^16 or more. -/
def addRes (fl : PFlags) (a b : W16) : W16 × PFlags :=
  (a + b, flagsZCS fl (a + b) (decide (65536 ≤ a.toNat + b.toNat)))

/-- Difference and flags: C is 1 if the first operand is below the second. -/
def subRes (fl : PFlags) (a b : W16) : W16 × PFlags :=
  (a - b, flagsZCS fl (a - b) (decide (a.toNat < b.toNat)))

/-- Result and flags of a logical operation: C is 0. -/
def logicRes (fl : PFlags) (r : W16) : W16 × PFlags := (r, flagsZCS fl r false)

/-- Left shift by 0–15: C is the last bit shifted out of bit 15, 0 for a shift of 0. -/
def shlRes (fl : PFlags) (a : W16) (n : Nat) : W16 × PFlags :=
  (a <<< n, flagsZCS fl (a <<< n) (n != 0 && bitOf a.toNat (16 - n)))

/-- Logical right shift by 0–15: C is the last bit shifted out of bit 0, 0 for a shift of 0. -/
def shrRes (fl : PFlags) (a : W16) (n : Nat) : W16 × PFlags :=
  (a >>> n, flagsZCS fl (a >>> n) (n != 0 && bitOf a.toNat (n - 1)))

/-- The condition codes of B (R87). -/
def condHolds (fl : PFlags) : Nat → Bool
  | 0x0 => true
  | 0x1 => fl.z
  | 0x2 => !fl.z
  | 0x3 => fl.c
  | 0x4 => !fl.c
  | 0x5 => fl.s
  | 0x6 => !fl.s
  | 0x7 => fl.x
  | 0x8 => !fl.x
  | 0x9 => !fl.c && !fl.z
  | 0xA => fl.c || fl.z
  | _ => false

end Sys2Proof.Machine
end

