-- ==== Sys2Proof/Machine/ParseIsa.lean ====
section
/-!
DEFINITION. The instruction set of the parse engines (chapter Parse Engines, R83 to R89): its instructions, the
decoder of a 32-bit instruction word, and the encoder, both from the format and opcode tables.
-/

namespace Sys2Proof.Machine

/-- The operations of the opcode table of R84. -/
inductive POp where
  | nop | add | sub | and | or | xor | shl | shr
  | addi | subi | andi | ori | xori | shli | shri | movi
  | cmp | cmpi | tsti | ldb | ldh | ext | gets | st | sti
  | b | setx | clrx | done | reject
  deriving DecidableEq, Repr

/-- A parse instruction with its operands; an operand that the form does not have is 0. `imm` is imm16, the branch
target, or the exit code; `rd` is the record word of STI and the condition of B. -/
structure PInstr where
  op : POp
  rd : Nat
  ra : Nat
  rb : Nat
  imm : Nat
  deriving DecidableEq, Repr

/-- The four formats of an instruction word. -/
inductive PFormat where
  | rr | ri | j | t
  deriving DecidableEq, Repr

/-- The operation with an opcode (R84); every other opcode is illegal. -/
def opOfCode : Nat → Option POp
  | 0x00 => some .nop | 0x01 => some .add | 0x02 => some .sub | 0x03 => some .and
  | 0x04 => some .or | 0x05 => some .xor | 0x06 => some .shl | 0x07 => some .shr
  | 0x08 => some .addi | 0x09 => some .subi | 0x0A => some .andi | 0x0B => some .ori
  | 0x0C => some .xori | 0x0D => some .shli | 0x0E => some .shri | 0x0F => some .movi
  | 0x10 => some .cmp | 0x11 => some .cmpi | 0x12 => some .tsti
  | 0x14 => some .ldb | 0x15 => some .ldh | 0x16 => some .ext | 0x18 => some .gets
  | 0x1C => some .st | 0x1D => some .sti | 0x20 => some .b
  | 0x24 => some .setx | 0x25 => some .clrx | 0x30 => some .done | 0x31 => some .reject
  | _ => none

/-- The opcode of an operation (R84). -/
def codeOfOp : POp → Nat
  | .nop => 0x00 | .add => 0x01 | .sub => 0x02 | .and => 0x03
  | .or => 0x04 | .xor => 0x05 | .shl => 0x06 | .shr => 0x07
  | .addi => 0x08 | .subi => 0x09 | .andi => 0x0A | .ori => 0x0B
  | .xori => 0x0C | .shli => 0x0D | .shri => 0x0E | .movi => 0x0F
  | .cmp => 0x10 | .cmpi => 0x11 | .tsti => 0x12
  | .ldb => 0x14 | .ldh => 0x15 | .ext => 0x16 | .gets => 0x18
  | .st => 0x1C | .sti => 0x1D | .b => 0x20
  | .setx => 0x24 | .clrx => 0x25 | .done => 0x30 | .reject => 0x31

/-- The format of an operation (R84). -/
def formatOf : POp → PFormat
  | .add | .sub | .and | .or | .xor | .shl | .shr | .cmp => .rr
  | .sti => .t
  | .b => .j
  | _ => .ri

/-- The further zero fields of R84, with the record-word rule of R89 and the condition codes of R87: whether the
operands of an instruction are legal. -/
def operandsLegal (i : PInstr) : Bool :=
  match i.op with
  | .nop | .setx | .clrx => i.rd == 0 && i.ra == 0 && i.imm == 0
  | .shli | .shri => decide (i.imm < 16)
  | .movi => i.ra == 0
  | .cmp | .cmpi | .tsti => i.rd == 0
  | .ext => i.imm / 4096 == 0 && i.imm / 16 % 16 == 0
  | .gets => i.ra == 0 && decide (i.imm < 4)
  | .st => i.rd == 0 && decide (2 ≤ i.imm) && decide (i.imm < 32)
  | .sti => decide (2 ≤ i.rd)
  | .b => decide (i.rd ≤ 0xA)
  | .done | .reject => i.rd == 0 && i.ra == 0 && decide (i.imm < 256)
  | _ => true

/-- The fields of an instruction word under a format; none where a bit required to be zero is set (R83). -/
def fieldsOf (f : PFormat) (op : POp) (w : Nat) : Option PInstr :=
  match f with
  | .rr => if bitsOf w 0 14 = 0 then some ⟨op, bitsOf w 22 4, bitsOf w 18 4, bitsOf w 14 4, 0⟩ else none
  | .ri => if bitsOf w 16 2 = 0 then some ⟨op, bitsOf w 22 4, bitsOf w 18 4, 0, bitsOf w 0 16⟩ else none
  | .j => if bitsOf w 12 10 = 0 then some ⟨op, bitsOf w 22 4, 0, 0, bitsOf w 0 12⟩ else none
  | .t => if bitsOf w 16 5 = 0 then some ⟨op, bitsOf w 21 5, 0, 0, bitsOf w 0 16⟩ else none

/-- The decoder of a parse instruction word (R83, R84, R87, R89); none is an illegal instruction. -/
def decodeParse (w : W32) : Option PInstr :=
  match opOfCode (bitsOf w.toNat 26 6) with
  | none => none
  | some op =>
    match fieldsOf (formatOf op) op w.toNat with
    | none => none
    | some i => if operandsLegal i then some i else none

/-- Whether an instruction's operands lie in its form's fields and are legal. -/
def PInstr.wf (i : PInstr) : Bool :=
  operandsLegal i &&
    match formatOf i.op with
    | .rr => decide (i.rd < 16) && decide (i.ra < 16) && decide (i.rb < 16) && i.imm == 0
    | .ri => decide (i.rd < 16) && decide (i.ra < 16) && i.rb == 0 && decide (i.imm < 65536)
    | .j => decide (i.rd < 16) && i.ra == 0 && i.rb == 0 && decide (i.imm < 4096)
    | .t => decide (i.rd < 32) && i.ra == 0 && i.rb == 0 && decide (i.imm < 65536)

/-- The word of an instruction (R84). -/
def encodeParse (i : PInstr) : W32 :=
  let c := codeOfOp i.op * 2 ^ 26
  BitVec.ofNat 32 <| match formatOf i.op with
    | .rr => c + i.rd * 2 ^ 22 + i.ra * 2 ^ 18 + i.rb * 2 ^ 14
    | .ri => c + i.rd * 2 ^ 22 + i.ra * 2 ^ 18 + i.imm
    | .j => c + i.rd * 2 ^ 22 + i.imm
    | .t => c + i.rd * 2 ^ 21 + i.imm

end Sys2Proof.Machine
end

