-- ==== Sys2Proof/Machine/ParseOps.lean ====
section
/-!
DEFINITION. The parse engines: allocation and order, the instruction set, the end of a parse and the hand-over of its
record (chapter Parse Engines).
-/

namespace Sys2Proof.Machine

/-- Sets an element of a vector by a number; out of range changes nothing. -/
def vset {α : Type} {n : Nat} (v : Vector α n) (i : Nat) (x : α) : Vector α n := v.setIfInBounds i x

/-- Register g[r]; g0 reads as zero (R81). -/
def Engine.rd (e : Engine) (r : Nat) : W16 := if r = 0 then 0#16 else e.g.getD r 0#16

/-- Writes g[r]; a write to g0 is discarded (R81). -/
def Engine.wr (e : Engine) (r : Nat) (v : W16) : Engine := if r = 0 then e else { e with g := vset e.g r v }

/-- An engine as it is allocated to a frame (R81). -/
def Engine.start (frame entry cycle : Nat) : Engine :=
  { frame, g := Vector.replicate 16 0#16, fl := ⟨false, false, false, false⟩, pc := entry, n := 0, stalls := 0,
    words := Vector.replicate 32 0#16, entry, allocCycle := cycle, nextAt := cycle + 1, stalledFrom := none }

namespace Dev

/-! ### What arrives -/

/-- LOOPBACK as it acts: 0b11 acts as 0b00. -/
def loopback (d : Dev) (n : Nat) : Nat := if d.get (ETH_CTRL_LOOPBACK n) = 3 then 0 else d.get (ETH_CTRL_LOOPBACK n)

/-- What the lanes of sub-port `p` receive where the wire brings `bytes`: in near-end loopback, as much of the frame that the
sub-port sent first and has not yet received whole, or the rest of it where `last` (R71). In far-end loopback the data are
sent back on the same lanes. -/
def hears (d : Dev) (p : Nat) (bytes : List Byte) (last : Bool) : Option (List Byte × Dev) :=
  if d.loopback (p / 4) = 1 then
    match (d.sub p).loop with
    | [] => none
    | f :: fs =>
      let n := if last then f.length else bytes.length
      some (f.take n, d.modSub p fun x => { x with loop := if last then fs else f.drop n :: fs })
  else if d.loopback (p / 4) = 2 ∧ bytes ≠ [] then some (bytes, d.emit (.echo p bytes))
  else some (bytes, d)

/-- More bytes of frame `i` have arrived, if it is in reception. -/
def arrive (d : Dev) (i : Nat) (bytes : List Byte) : Dev :=
  match d.frame? i with
  | some f =>
    match f.src with
    | .port p =>
      if f.ended = false ∧ (d.sub p).rx = some i then
        match d.hears p bytes false with
        | some (bytes, d) => d.setFrame i { f with bytes := f.bytes ++ bytes }
        | none => d
      else d
    | _ => d
  | none => d

/-! ### Engines -/

/-- Engine `e` of pipeline `k`, if it runs a parse. -/
def eng (d : Dev) (k e : Nat) : Option Engine := tabGet (fun _ => none) (d.pst k).engines e

/-- The engine of pipeline `k` that is out of rotation, with the cycle in which its self-test began (R463). -/
def peTest (d : Dev) (k : Nat) : Option (Nat × Option Nat) := tabGet (fun _ => none) d.ras.peTest k
def setPeTest (d : Dev) (k : Nat) (x : Option (Nat × Option Nat)) : Dev :=
  { d with ras := { d.ras with peTest := tabSet (fun _ => none) d.ras.peTest k x } }

/-- The self-test of engine `e` begins (R463). -/
def peBegin (d : Dev) (k e : Nat) : Dev := (d.setPeTest k (some (e, some d.cycle))).put (RAS_PE_STATUS_TESTING k) e

/-- Sets an engine; one that waits to be tested begins its self-test when it falls idle (R463). -/
def setEng (d : Dev) (k e : Nat) (x : Option Engine) : Dev :=
  let d := d.setPst k { d.pst k with engines := tabSet (fun _ => none) (d.pst k).engines e x }
  if x.isNone && d.peTest k == some (e, none) then d.peBegin k e else d

/-- Whether an engine is in service: neither out of rotation for test nor retired (R76, R463). -/
def engineInService (d : Dev) (k e : Nat) : Bool :=
  !((d.peTest k).map (·.1) == some e) && !(d.flag (RAS_PE_STATUS_RETIRED k) && d.get (RAS_PE_STATUS_ENGINE k) == e)

/-- The lowest-numbered free engine in service (R76). -/
def freeEngine (d : Dev) (k : Nat) : Option Nat :=
  (List.range 64).find? fun e =>
    (d.eng k e).isNone && d.engineInService k e && decide (tabGet (fun _ => 0) (d.pst k).freeFrom e ≤ d.cycle)

/-- PL_PARSE_STATUS follows the engines and the queue (R102). -/
def syncParse (d : Dev) (k : Nat) : Dev :=
  let ps := d.pst k
  let cur := d.get (PL_PARSE_ENTRY_ENTRY k)
  let prev := (ps.engines.filter fun x => match x.2 with | some e => e.entry != cur | none => false).length
  ((d.put (PL_PARSE_STATUS_BUSY k) ps.engines.length).put (PL_PARSE_STATUS_QDEPTH k) ps.queue.length).put
    (PL_PARSE_STATUS_PREV_BUSY k) prev

/-- Gives engine `e` to a frame (R75, R81, R102); the frame's place in the order is fixed. -/
def allocate (d : Dev) (k e i : Nat) : Dev :=
  let d := d.setEng k e (some (Engine.start i (d.get (PL_PARSE_ENTRY_ENTRY k)) d.cycle))
  (d.setPst k { d.pst k with order := (d.pst k).order ++ [i] }).syncParse k

/-- Takes a frame out of the crossing, the parse queue, its engine, the record check and the order (R100). -/
def parseCancel (d : Dev) (k i : Nat) : Dev :=
  let ps := d.pst k
  let mine := ps.engines.filter fun x => match x.2 with | some e => e.frame == i | none => false
  let d := mine.foldl (fun d x =>
    let d := d.setEng k x.1 none
    d.setPst k { d.pst k with freeFrom := tabSet (fun _ => 0) (d.pst k).freeFrom x.1 (d.cycle + 1) }) d
  let ps := d.pst k
  (d.setPst k { ps with
      crossing := ps.crossing.filter (·.1 != i), queue := ps.queue.filter (· != i),
      order := ps.order.filter (· != i), done := ps.done.filter (·.1 != i) }).syncParse k

/-- The instruction word that an engine fetches: in the cycle of a write, the old word (R100). -/
def fetchWord (d : Dev) (k pc : Nat) : W32 :=
  match tabGet (fun _ => none) d.reg.imemOld (PL_IMEM k pc) with
  | some x => x.1
  | none => d.rd (PL_IMEM k pc)

/-- Whether the instruction-memory word that an engine fetches holds an uncorrectable error (R91, R100). -/
def imemIsBad (d : Dev) (k pc : Nat) : Bool :=
  match tabGet (fun _ => none) d.reg.imemOld (PL_IMEM k pc) with
  | some x => x.2
  | none => (d.pst k).imemBad.contains pc

/-- Whether a frame has a place in the parse stage or the classification stage of pipeline `k`. -/
def inPipe (d : Dev) (k i : Nat) : Bool :=
  let ps := d.pst k
  ps.crossing.any (·.1 == i) || ps.queue.contains i || ps.order.contains i || (d.cp k).inflight.any (·.frame == i)

/-- A discarded frame that has ended is dropped once no record of it is on its way: one of 257 bytes or more is parsed as any
other (R100). Cells that it still holds return (R154). -/
def reap (d : Dev) (i : Nat) : Dev :=
  match d.frame? i with
  | none => d
  | some f =>
    if f.stage = .dead ∧ f.ended = true then
      let d := if f.cells = 0 then d
        else let d := d.beforeAdmits; d.put BUF_POOL_STATUS_FREE (d.get BUF_POOL_STATUS_FREE + f.cells)
      let gone := match f.src with | .port p => !d.inPipe (p / 8) i | _ => true
      if gone then d.dropFrame i else d.setFrame i { f with cells := 0 }
    else d

/-- Ends the parse of engine `e`: words 0 and 1 are filled (R93), the engine is freed from the next cycle (R98) and the
record enters the 28-cycle check. -/
def endParse (d : Dev) (k e : Nat) (x : Engine) (cause : Option Cause) (exit : Nat) : Dev :=
  let port := match d.frame? x.frame with
    | some f => (match f.src with | .port p => p | _ => 0)
    | none => 0
  let w0 := (if cause.isSome then 0x8000 else 0) + causeCode cause * 0x1000 + port
  let w1 := x.n * 256 + exit
  let words := vset (vset x.words 0 (BitVec.ofNat 16 w0)) 1 (BitVec.ofNat 16 w1)
  let d := d.setEng k e none
  let ps := d.pst k
  let d := d.setPst k { ps with
    freeFrom := tabSet (fun _ => 0) ps.freeFrom e (d.cycle + 1),
    done := ps.done ++ [(x.frame, { words, cause, malf := d.rd (PL_MALF_CTRL k), n := x.n, stalls := x.stalls, readyAt := d.cycle + 28 })] }
  let d := match cause with
    | some .illegal => d.setEvent (PL_PARSE_EVENT_ILLEGAL k)
    | some .imem => (d.setEvent (PL_PARSE_EVENT_IMEM_UNCORR k)).rasError (.of 0x10 k .uc x.pc)
    | _ => d
  d.syncParse k

/-- Completes an instruction that is no taken branch and no end: PC moves to the next word, or the parse ends with cause
ILLEGAL past word 0xFFF (R85). -/
def retire (d : Dev) (k e : Nat) (x : Engine) : Dev :=
  let x := { x with n := x.n + 1, nextAt := d.cycle + 1, stalledFrom := none }
  if x.pc = 0xFFF then d.endParse k e x (some .illegal) 0
  else d.setEng k e (some { x with pc := x.pc + 1 })

/-- How a load of the bytes up to `hi` is decided now (R80, R94). -/
inductive LoadCase where
  | window | overEnd | ready | stall
  deriving DecidableEq, Repr

def loadCase (f : Frame) (hi : Nat) : LoadCase :=
  if 256 ≤ hi then .window
  else if f.ended then (if f.len ≤ hi + 4 then .overEnd else .ready)
  else if hi + 5 ≤ f.len then .ready else .stall

/-- Window byte `a` as a number (R79). -/
def windowByte (f : Frame) (a : Nat) : Nat := (f.bytes.getD a 0#8).toNat

/-- LDB or LDH with the frame as received so far (R88, R94). -/
def doLoad (d : Dev) (k e : Nat) (x : Engine) (i : PInstr) : Dev :=
  let a := (x.rd i.ra).toNat + i.imm
  let half := i.op == .ldh
  let hi := if half then a + 1 else a
  match d.frame? x.frame with
  | none => d
  | some f =>
    let x := match x.stalledFrom with
      | some (c, _) => { x with stalls := x.stalls + (d.cycle - c), stalledFrom := none }
      | none => x
    match loadCase f hi with
    | .window => d.endParse k e x (some .window) 0
    | .overEnd => d.endParse k e x (some .overEnd) 0
    | .stall => d.setEng k e (some { x with stalledFrom := some (d.cycle, encodeParse i) })
    | .ready =>
      let v := BitVec.ofNat 16 (if half then windowByte f a * 256 + windowByte f (a + 1) else windowByte f a)
      d.retire k e { x.wr i.rd v with fl := flagsZS x.fl v }

/-- The source that GETS selects (R88). -/
def getsSource (d : Dev) (k : Nat) (x : Engine) (sel : Nat) : W16 :=
  match sel with
  | 0 => match d.frame? x.frame with
    | some f => (match f.src with | .port p => BitVec.ofNat 16 p | _ => 0#16)
    | none => 0#16
  | 1 => BitVec.ofNat 16 k
  | 2 => BitVec.ofNat 16 (d.get (PL_PARSE_CONST_CONST0 k))
  | _ => BitVec.ofNat 16 (d.get (PL_PARSE_CONST_CONST1 k))

/-- The second operand: g[rb] for RR forms, imm16 for RI forms (R84). -/
def op2 (x : Engine) (i : PInstr) : W16 :=
  match formatOf i.op with
  | .rr => x.rd i.rb
  | _ => BitVec.ofNat 16 i.imm

/-- The shift amount: g[rb][3:0] or imm16[3:0] (R84). -/
def shamt (x : Engine) (i : PInstr) : Nat := (op2 x i).toNat % 16

/-- The engine with a result written and its flags set. -/
def setRes (x : Engine) (rd : Nat) (r : W16 × PFlags) : Engine := { x.wr rd r.1 with fl := r.2 }

/-- Executes the instruction `i`, which engine `e` of pipeline `k` has fetched (R84 to R91). -/
def execParse (d : Dev) (k e : Nat) (x : Engine) (i : PInstr) : Dev :=
  let a := x.rd i.ra
  let b := op2 x i
  match i.op with
  | .nop => d.retire k e x
  | .add | .addi => d.retire k e (setRes x i.rd (addRes x.fl a b))
  | .sub | .subi => d.retire k e (setRes x i.rd (subRes x.fl a b))
  | .and | .andi => d.retire k e (setRes x i.rd (logicRes x.fl (a &&& b)))
  | .or | .ori => d.retire k e (setRes x i.rd (logicRes x.fl (a ||| b)))
  | .xor | .xori => d.retire k e (setRes x i.rd (logicRes x.fl (a ^^^ b)))
  | .shl | .shli => d.retire k e (setRes x i.rd (shlRes x.fl a (shamt x i)))
  | .shr | .shri => d.retire k e (setRes x i.rd (shrRes x.fl a (shamt x i)))
  | .movi => d.retire k e (x.wr i.rd b)
  | .cmp | .cmpi => d.retire k e { x with fl := (subRes x.fl a b).2 }
  | .tsti => d.retire k e { x with fl := (logicRes x.fl (a &&& b)).2 }
  | .ldb | .ldh => d.doLoad k e x i
  | .ext =>
    let v := BitVec.ofNat 16 (a.toNat / 2 ^ (i.imm / 256 % 16) % 2 ^ (i.imm % 16 + 1))
    d.retire k e (setRes x i.rd (v, flagsZS x.fl v))
  | .gets => d.retire k e (x.wr i.rd (d.getsSource k x i.imm))
  | .st => d.retire k e { x with words := vset x.words i.imm a }
  | .sti => d.retire k e { x with words := vset x.words i.rd (BitVec.ofNat 16 i.imm) }
  | .b =>
    if condHolds x.fl i.rd then
      d.setEng k e (some { x with n := x.n + 1, nextAt := d.cycle + 1, pc := i.imm })
    else d.retire k e x
  | .setx => d.retire k e { x with fl := { x.fl with x := true } }
  | .clrx => d.retire k e { x with fl := { x.fl with x := false } }
  | .done => d.endParse k e { x with n := x.n + 1 } none i.imm
  | .reject => d.endParse k e { x with n := x.n + 1 } (some .reject) i.imm

/-- The instruction that engine `e` would execute in this cycle: it runs, does not wait, has budget left, and its word
is sound and legal (R83, R91, R97). -/
def nextInstr (d : Dev) (k e : Nat) : Option (Engine × PInstr) :=
  match d.eng k e with
  | none => none
  | some x =>
    if x.stalledFrom.isNone ∧ x.nextAt ≤ d.cycle ∧ x.n < d.get (PL_PARSE_CTRL_BUDGET k) ∧ d.imemIsBad k x.pc = false
    then (decodeParse (d.fetchWord k x.pc)).map fun i => (x, i)
    else none

end Dev

/-- A parse instruction of operation `op` executes on engine `e` of pipeline `k`, if that is the instruction the engine
has fetched; otherwise the event has not happened (notes/assumptions/2). -/
def doParse (op : POp) (k : Fin 8) (e : Fin 64) (d : Dev) : Dev :=
  match d.nextInstr k e with
  | some (x, i) => if i.op = op then d.execParse k e x i else d
  | none => d

/-- ILLEGAL_INSTRUCTION (R83, R91): the fetched word is illegal or uncorrectable. Such a parse, and one whose load fails (R94), ends
in the cycle after its n-th instruction's, the one that fetches the word or runs the load, so it holds its engine for n + s + 2
cycles, where R98's n + s + 1 counts to the n-th instruction (DESIGN CHOICE, notes/assumptions/56). -/
def doIllegalInstruction (k : Fin 8) (e : Fin 64) (d : Dev) : Dev :=
  match d.eng k e with
  | none => d
  | some x =>
    if x.stalledFrom.isNone ∧ x.nextAt ≤ d.cycle ∧ x.n < d.get (PL_PARSE_CTRL_BUDGET k) then
      if d.imemIsBad k x.pc then d.endParse k e x (some .imem) 0
      else if (decodeParse (d.fetchWord k x.pc)).isNone then d.endParse k e x (some .illegal) 0
      else d
    else d

/-- PARSE_LOAD_RESUME (R80, R94): bytes of the frame arrive, and the stalled load is decided again. -/
def doParseLoadResume (k : Fin 8) (e : Fin 64) (bytes : List Byte) (d : Dev) : Dev :=
  match d.eng k e with
  | none => d
  | some x =>
    match x.stalledFrom with
    | none => d
    | some (_, w) =>
      let d := d.arrive x.frame bytes
      match decodeParse w with
      | some i => d.doLoad k e x i
      | none => d

/-- PARSE_BUDGET_EXHAUSTED (R91): n has reached BUDGET, so the parse ends in the cycle of its last instruction: it holds its
engine for n + s + 1 cycles (R98). -/
def doParseBudgetExhausted (k : Fin 8) (e : Fin 64) (d : Dev) : Dev :=
  match d.eng k e with
  | none => d
  | some x =>
    if x.stalledFrom.isNone ∧ x.nextAt ≤ d.cycle + 1 ∧ d.get (PL_PARSE_CTRL_BUDGET k) ≤ x.n then
      d.endParse k e x (some .budget) 0
    else d

/-- ENGINE_ALLOCATION (R75 to R77): the head of the parse queue takes an engine that has fallen free, or the frame that
reaches the engines takes the lowest free engine, waits in the queue, or is discarded. -/
def doEngineAllocation (k : Fin 8) (d : Dev) : Dev :=
  let ps := d.pst k
  match ps.queue, d.freeEngine k with
  | i :: rest, some e => (d.setPst k { ps with queue := rest }).allocate k e i
  | q, fe =>
    match ps.crossing with
    | [] => d
    | (i, at_) :: rest =>
      if d.cycle < at_ then d
      else
        let d := d.setPst k { ps with crossing := rest }
        match q, fe with
        | [], some e => d.allocate k e i
        | _, _ =>
          if q.length < 128 then (d.setPst k { d.pst k with queue := q ++ [i] }).syncParse k
          else
            (((d.modFrame i fun f => { f with stage := .dead }).reap i).inc (PL_CNT_PARSE_OVF_DROP k)).setEvent
              (PL_PARSE_EVENT_QUEUE_FULL k)

/-- The counter of a malformed parse's cause (R96, R104). -/
def causeCounter (k : Nat) : Cause → Ctr
  | .budget => PL_CNT_MALF_BUDGET k
  | .overEnd => PL_CNT_MALF_OVER_END k
  | .reject => PL_CNT_MALF_REJECT k
  | .window => PL_CNT_MALF_WINDOW k
  | .illegal => PL_CNT_MALF_ILLEGAL k
  | .imem => PL_CNT_MALF_IMEM k

/-- PARSE_RECORD_HANDOFF (R78, R96, R98): the record at the head of a pipeline's order leaves the parse stage, no earlier than
the end of a frame of 256 bytes or fewer; bytes of that frame have arrived meanwhile. -/
def doParseRecordHandoff (a : Fin 8 × List Byte) (d : Dev) : Dev :=
  let (k, bytes) := a
  match (d.pst k).order with
  | [] => d
  | i :: rest =>
    let d := d.arrive i bytes
    match (d.pst k).done.find? (·.1 == i) with
    | none => d
    | some (_, r) =>
      let waits := match d.frame? i with
        | some f => !f.ended && decide (f.len ≤ 256)
        | none => false
      if d.cycle < r.readyAt ∨ waits = true then d
      else
        let d := d.setPst k { d.pst k with order := rest, done := (d.pst k).done.filter (·.1 != i) }
        let d := match r.cause with
          | none => d.inc (PL_CNT_PARSED k)
          | some c => (d.inc (PL_CNT_MALF_TOTAL k)).inc (causeCounter k c)
        let d := (d.bump (PL_CNT_INSTR_TOTAL k) r.n).bump (PL_CNT_STALL_TOTAL k) r.stalls
        let d := d.setCp k { d.cp k with inflight := (d.cp k).inflight ++
          [{ frame := i, words := r.words, at_ := d.cycle, malformed := r.cause.isSome, malf := r.malf, look := none }] }
        d.modFrame i fun f =>
          if f.stage = .dead then f
          else { f with words := some r.words, malformed := r.cause.isSome, stage := .classify }

/-- PARSE_ENTRY_WRITE (R100, R102): the new entry serves every frame allocated from this cycle on. -/
def doParseEntryWrite (p : Path) (k : Fin 8) (data : W32) (d : Dev) : Dev :=
  let d := d.writeFields p (PL_PARSE_ENTRY k) data
  let entry := fieldGet data 0 12
  let d := d.put (PL_PARSE_ENTRY_ENTRY k) entry
  let ps := d.pst k
  let renew : Nat → Option Engine → Option Engine := fun _ x =>
    x.map fun e => if e.allocCycle = d.cycle then { e with entry := entry, pc := entry } else e
  (d.setPst k { ps with engines := tabMapAll (fun _ => none) ps.engines renew }).syncParse k

/-- PARSE_ENABLE (R46, R103): the first write of 1 locks BUDGET; while VERIFIED = 0 a 1 is ignored and counted (R439). -/
def doParseEnable (p : Path) (k : Fin 8) (data : W32) (d : Dev) : Dev :=
  let d := d.writeFields p (PL_PARSE_CTRL k) data
  let on := fieldGet data 0 1
  if on = 1 ∧ d.flag BOOT_STATUS_VERIFIED = false then d.inc BOOT_GATE_VIOL
  else
  let d := d.put (PL_PARSE_CTRL_ENABLE k) on
  if on = 1 then d.lock (PL_PARSE_CTRL k) else d

end Sys2Proof.Machine
end

