-- ==== Sys2Proof/Machine/EthOps.lean ====
section
/-!
DEFINITION. The Ethernet ports: link state, hold and flush, port reset and loopback, the reception of a frame and its
end, and transmission (chapter Ethernet Ports and Lanes).
-/

namespace Sys2Proof.Machine

/-- Whether a lane map names each of the four lanes once (ETH_LANE_CFG.RX_MAP). -/
def mapValid (m : Nat) : Bool := ((List.range 4).map fun i => bitsOf m (2 * i) 2).Nodup

/-- Whether a frame's first bytes are those of a MAC Control frame: EtherType 0x8808 untagged (R56). -/
def isMacControl (bs : List Byte) : Bool := decide (14 ≤ bs.length) && (beNat (sliceB bs 12 2) == 0x8808)

/-- The EtherType of a frame behind at most two tags, with the offset of what follows it (R188). -/
def etherType (bs : List Byte) : Nat × Nat :=
  let et := fun o => beNat (sliceB bs o 2)
  let tag := fun x => x == 0x8100 || x == 0x88A8
  if tag (et 12) then (if tag (et 16) then (et 20, 22) else (et 16, 18)) else (et 12, 14)

/-- Whether a frame is one of the time-protocol messages that R188 names, with the offset of its PTP header. Up to two tags may
stand before a UDP message as before EtherType 0x88F7 (DESIGN CHOICE, notes/assumptions/65). -/
def ptpOffset (bs : List Byte) : Option Nat :=
  let (et, o) := etherType bs
  let port := fun u => let p := beNat (sliceB bs (u + 2) 2); p == 319 || p == 320
  if et = 0x88F7 then some o
  else if et = 0x0800 then
    let u := o + 4 * bitsOf (bs.getD o 0#8).toNat 0 4
    if (bs.getD (o + 9) 0#8).toNat = 17 ∧ port u = true then some (u + 8) else none
  else if et = 0x86DD then
    if (bs.getD (o + 6) 0#8).toNat = 17 ∧ port (o + 40) = true then some (o + 48) else none
  else none

namespace Dev

/-- Whether the receive path of a sub-port runs: the port enabled in a mode that creates it, its bit of CLK_RX_EN set, its
lane map valid (R504, R52). -/
def rxRuns (d : Dev) (n i : Nat) : Bool :=
  d.flag (ETH_CTRL_ENABLE n) && d.subExists n i && bitOf (d.get CLK_RX_EN_EN) n &&
    mapValid (d.get (ETH_LANE_CFG_RX_MAP n))

/-- A frame's egress transmission has begun (R64). -/
def txBegun (d : Dev) (i : Nat) (f : Frame) : Bool :=
  match f.stage with
  | .chosen p _ => (d.sub p).tx == some i && (d.sub p).started
  | _ => false

/-- Discards a frame of which no part has left, wherever it stands (R64, R100). What a chosen one took from deficits and tokens
is not given back, as R64 does for a link that falls (DESIGN CHOICE, notes/assumptions/63). A frame of 257 bytes or more does not
disturb its parse. The nodes that a queued frame empties lose their deficits (R168). -/
def discardFrame (d : Dev) (i : Nat) (f : Frame) : Dev :=
  let d := d.setFrame i f
  let left := fun (d : Dev) => match f.act with | some a => d.leftQueue a.queue | none => d
  match f.stage with
  | .parse =>
    match f.src with
    | .port p =>
      if f.len ≤ 256 then (d.parseCancel (p / 8) i).freeFrame i
      else (d.setFrame i { f with stage := .dead }).reap i
    | _ => d.freeFrame i
  | .classify => (d.setFrame i { f with stage := .dead }).reap i
  | .dead => d.reap i
  | .queued => left (d.freeFrame i)
  | .chosen p _ => left ((d.modSub p fun x => { x with tx := none }).freeFrame i)
  | _ => d.freeFrame i

/-- An egress frame cut off by the loss of its link, or returned to the head of its queue if its first preamble bit has
not been sent (R64). -/
def abortTx (d : Dev) (p : Nat) : Dev :=
  let d := d.startDue
  match (d.sub p).tx with
  | none => d
  | some i =>
    match d.frame? i with
    | none => d.modSub p fun x => { x with tx := none }
    | some f =>
      let started := (d.sub p).started
      let d := d.modSub p fun x => { x with tx := none, started := false, txFreeAt := d.cycle }
      if started then ((d.inc (ETH_CNT_TX_LINK_ABORT (p / 4) (p % 4))).setFrame i { f with stage := .queued }).freeFrame i
      else match f.act with
        | none => d
        | some a =>
          let d := d.chargePath a.queue f.charge true true
          (d.modQueue a.queue fun x => { x with frames := i :: x.frames }).setFrame i { f with stage := .queued }

/-- A received frame meets an error: a frame whose transmission has begun completes with a stomped FCS, every other frame
is discarded; `cut` says that the loss of its link ended it, whatever its length (R64). -/
def errorEnd (d : Dev) (i : Nat) (f : Frame) (cut : Bool) : Dev :=
  if d.txBegun i f ∧ (257 ≤ f.len ∨ cut = true) then d.setFrame i { f with stomp := true } else d.discardFrame i f

/-- The charge of a frame that was charged MAX_FRAME before it ended is corrected in the cycle in which it ends with L no
greater (R144); one that was refused with neither a debit nor cells has no charge to correct, and counts no CHARGE_REFUND (DESIGN
CHOICE, notes/assumptions/57). The bytes of an admitted frame are counted now (R160). -/
def settleEnd (d : Dev) (i : Nat) : Dev :=
  match d.frame? i with
  | none => d
  | some f =>
    match f.src with
    | .port p =>
      let mf := d.maxFrame p
      let d := match f.act with
        | some a =>
          if f.charge ≠ 0 then d.modQueue a.queue fun x => { x with admitBytes := satAdd 64 x.admitBytes (d.acctLen f) }
          else d
        | none => d
      let d := if f.sent then d.bump TM_CNT_DEQ_BYTES (d.acctLen f) else d
      if (f.charge ≠ 0 ∨ f.debit.isSome = true) ∧ f.len ≤ mf ∧ f.oversize = false then
        (d.correctTree f mf f.len).correctCharge i mf f.len
      else d
    | _ => d

/-- The frame in reception on port index `p` with further bytes, or a new one whose SFD crossed `lag` PIPE cycles ago
(R79, R189). -/
def receive (d : Dev) (p : Nat) (bytes : List Byte) (lag : Nat) : Nat × Dev :=
  match (d.sub p).rx with
  | some i => (i, d.modFrame i fun f => { f with bytes := f.bytes ++ bytes })
  | none =>
    let rx := d.get (TIME_PORT_DLY_RX_NS p)
    let (i, d) := d.addFrame (Frame.new (.port p) bytes (d.netAt (d.cycle - lag) - rx * 2 ^ 48) (d.cycle - lag - 3 * rx))
    (i, d.modSub p fun x => { x with rx := some i })

/-- A frame has grown beyond MAX_FRAME: it is stomped if its transmission has begun, else dropped (R64). -/
def oversizeNow (d : Dev) (p i : Nat) (f : Frame) : Dev :=
  if d.txBegun i f then
    (d.inc (ETH_CNT_OVERSIZE_STOMP (p / 4) (p % 4))).setFrame i { f with oversize := true, stomp := true }
  else
    (d.inc (ETH_CNT_RX_OVERSIZE_DROP (p / 4) (p % 4))).discardFrame i { f with oversize := true }

/-- The allocation condition of a frame received on `p` (R75, R98). Frames withheld by the MAC (R56, R71, R188) never enter the
crossing. -/
def meetAllocation (d : Dev) (p i : Nat) : Dev :=
  match d.frame? i with
  | none => d
  | some f =>
    let k := p / 8
    if f.stage ≠ .rx then d
    else if isMacControl f.bytes ∨ d.loopback (p / 4) = 2 ∨
        (d.flag (TIME_PORT_CFG_PTP_EN p) = true ∧ (ptpOffset f.bytes).isSome = true) then
      d.setFrame i { f with stage := .withheld }
    else if !d.flag (PL_PARSE_CTRL_ENABLE k) then
      (d.inc (PL_CNT_PARSE_OFF_DROP k)).setFrame i { f with stage := .dead }
    else
      (d.setFrame i { f with stage := .parse }).setPst k
        { d.pst k with crossing := (d.pst k).crossing ++ [(i, d.cycle + 28)] }

/-- A frame of 64 bytes or more that ends with a good FCS and no longer than MAX_FRAME (R64, R56, R71, R188). -/
def goodEnd (d : Dev) (p i : Nat) (f : Frame) : Dev :=
  let n := p / 4
  let s := p % 4
  if isMacControl f.bytes then (d.inc (ETH_CNT_RX_MAC_CTRL n s)).dropFrame i
  else
    let d := (d.inc (ETH_CNT_RX_FRAMES n s)).bump (ETH_CNT_RX_BYTES n s) f.len
    -- R188: a message whose port number lies past the bytes of its allocation is diverted now, wherever it stands
    let late := f.stage != .withheld && !d.txBegun i f && d.flag (TIME_PORT_CFG_PTP_EN p) && (ptpOffset f.bytes).isSome
    if late then
      let d := if f.stage = .parse then (d.parseCancel (p / 8) i).freeFrame i else d.discardFrame i f
      if d.loopback n = 2 then d else (d.inc TIME_CNT_PTP_RX).emit (.toFirmware f.bytes f.sfd)
    else match f.stage with
    | .dead => d.reap i
    | .withheld =>
      if d.loopback n = 2 then d.dropFrame i
      else ((d.inc TIME_CNT_PTP_RX).emit (.toFirmware f.bytes f.sfd)).dropFrame i
    | .punt => d.resizeCells i (cellsOf (f.len + 64))
    | .inline => d.enterInline i
    | .placed => if 0 < f.cells then d.resizeCells i (cellsOf (f.len + 64)) else d
    | _ =>
      let chk := d.sduCheck f
      if chk.1 then chk.2.errorEnd i f false else chk.2

/-- Ends the frame `i` received on `p`: the rows of R64 in their order. `code` says that a code error or an uncorrectable
codeword lies inside it, `cut` that its link was lost in the middle of it. -/
def endFrame (d : Dev) (p i : Nat) (code cut : Bool) : Dev :=
  let n := p / 4
  let s := p % 4
  let d := d.modSub p fun x => { x with rx := none }
  match d.frame? i with
  | none => d
  | some f0 =>
    let d := if !f0.oversize && decide (d.maxFrame p < f0.len) && decide (64 ≤ f0.len) then d.oversizeNow p i f0 else d
    match d.frame? i with
    | none => d
    | some f1 =>
      let d := (d.setFrame i { f1 with ended := true }).settleEnd i
      match d.frame? i with
      | none => d
      | some f =>
        if f.len ≤ 63 then (d.inc (ETH_CNT_RX_RUNT n s)).discardFrame i f
        else if f.oversize then d.reap i
        else
          let bad := fun (c : Ctr) => ((d.inc c).errorEnd i f cut).reap i
          if code || cut then bad (ETH_CNT_RX_CODE_ERR n s)
          else match judgeFcs f.bytes with
            | .stomped => bad (ETH_CNT_RX_STOMP_IN n s)
            | .bad => bad (ETH_CNT_RX_FCS_ERR n s)
            | .good => d.goodEnd p i f

/-- A frame in reception is cut off by the loss of its link (R64). -/
def cutRx (d : Dev) (p : Nat) : Dev :=
  match (d.sub p).rx with
  | none => d
  | some i => d.endFrame p i false true

/-! ### Link state, hold and flush (R58, R66 to R71) -/

/-- A hold starts with the present HOLD_MS, unless one runs or has expired; one of 0 ms ends in the next cycle (R66, R69). -/
def startHold (d : Dev) (n i : Nat) : Dev :=
  let x := d.sub (4 * n + i)
  if x.holdEnds.isSome ∨ x.pastHold = true ∨ x.everUp = false then d
  else (d.setSub (4 * n + i) { x with holdEnds := some (d.cycle + Nat.max 1 (d.get (ETH_LINK_HOLD_HOLD_MS n) * cyMs)) }).put
    (ETH_SP_STATUS_HOLDING n i) 1

/-- A sub-port's link goes down, if it is up: frames in reception and transmission are cut off, and what near-end
loopback had still to return is lost (R58, R64, R66, R71). -/
def linkFalls (d : Dev) (n i : Nat) : Dev :=
  let p := 4 * n + i
  let d := d.modSub p fun x => { x with brokenAt := d.cycle, loop := [] }
  if d.flag (ETH_SP_STATUS_LINK_UP n i) then
    let d := (d.put (ETH_SP_STATUS_LINK_UP n i) 0).setEvent (ETH_SP_EVENT_LINK_DOWN n i)
    ((d.cutRx p).abortTx p).startHold n i
  else d

/-- Flushes every egress queue of a sub-port: its frames, spilled ones included, are discarded and their cells and
granules freed; queues that an enabled RX channel serves are not its queues to flush (R69, R158, R343). -/
def flushSub (d : Dev) (p : Nat) : Dev :=
  let mine := d.frames.filter fun kv => match kv.2 with
    | none => false
    | some f =>
      match f.stage, f.act with
      | .admitted _, some a => d.portOf a.queue == p && !d.rxServed a.queue
      | .queued, some a => d.portOf a.queue == p && !d.rxServed a.queue
      | .spilled _, some a => d.portOf a.queue == p && !d.rxServed a.queue
      | _, _ => false
  let qs := (d.buf.queues.filter fun kv => d.portOf kv.1 == p && !d.rxServed kv.1).map (·.1)
  let d := mine.foldl (fun d kv => d.flushFrame kv.1) d
  let d := qs.foldl (fun d q => (d.modQueue q fun x => { x with spilling := false }).leftQueue q) d
  (d.bump (ETH_CNT_LINK_FLUSH_FRAMES (p / 4) (p % 4)) mine.length).put (ETH_SP_LAST_FLUSH_FRAMES (p / 4) (p % 4))
    (Nat.min mine.length (2 ^ 32 - 1))

/-- The sub-ports that a port's mode creates. -/
def subsOf (d : Dev) (n : Nat) : List Nat := List.range (subPortsOf (d.mode n))

/-- The receive paths of a port that do not run show no fault, and one that starts has no alignment yet (R504); an invalid lane
map is an event on sub-port 0. -/
def syncPort (d : Dev) (n : Nat) : Dev :=
  let d := (d.subsOf n).foldl (fun d i =>
    let p := 4 * n + i
    if d.rxRuns n i then
      if (d.sub p).ran then d
      else ((d.modSub p fun x => { x with ran := true, brokenAt := d.cycle }).put (ETH_SP_STATUS_LOCAL_FAULT n i) 1).put
        (ETH_SP_STATUS_REMOTE_FAULT n i) 0
    else
      ((((d.linkFalls n i).put (ETH_SP_STATUS_LOCAL_FAULT n i) 0).put (ETH_SP_STATUS_REMOTE_FAULT n i) 0).modSub p
        fun x => { x with ran := false })) d
  if mapValid (d.get (ETH_LANE_CFG_RX_MAP n)) then d
  else if d.flag (ETH_SP_EVENT_CFG_ERR n 0) then d else d.setEvent (ETH_SP_EVENT_CFG_ERR n 0)

/-- Applies one preload entry: every RWL or RW field that its MASK covers is written, and no other (R70, R449). -/
def applyPreload (d : Dev) (e : Preload) : Dev :=
  match regAt e.offset with
  | none => d
  | some (_, r) =>
    r.fields.foldl (fun d f =>
      let covered := bitsOf e.mask f.lo f.width != 0
      let v := (bitsOf e.value f.lo f.width &&& bitsOf e.mask f.lo f.width) |||
        (d.get ⟨e.offset, f.lo, f.width⟩ &&& (2 ^ f.width - 1 - bitsOf e.mask f.lo f.width))
      if covered && (f.acc == .rw || f.acc == .rwl) then d.put ⟨e.offset, f.lo, f.width⟩ (d.fieldStore e.offset f v)
      else d) d

/-- A port reset (R70, R69). -/
def portReset (d : Dev) (n : Nat) : Dev :=
  let d := (List.range 4).foldl (fun d i =>
    let p := 4 * n + i
    let d := d.linkFalls n i
    let d := if d.subExists n i then d.flushSub p else d
    let d := (d.put (ETH_SP_STATUS_HOLDING n i) 0).put (ETH_SP_STATUS_FLUSHING n i) 0
    let d := (d.put (ETH_SP_STATUS_LOCAL_FAULT n i) 0).put (ETH_SP_STATUS_REMOTE_FAULT n i) 0
    d.modSub p fun x => { x with everUp := false, holdEnds := none, pastHold := false, flushEnds := none,
                                 brokenAt := d.cycle, ran := false, loop := [] }) d
  -- step 1: RWL fields and ENABLE return to their reset values
  let base := 0x100000 + n * 0x10000
  let d := regsETH.foldl (fun d r =>
    r.fields.foldl (fun d f => if f.acc == .rwl then d.put ⟨base + r.off, f.lo, f.width⟩ f.reset else d) d) d
  let d := (d.put (ETH_CTRL_ENABLE n) 0).unlock (ETH_CTRL n)
  -- steps 2 and 3: the preload entries of this port's window, in profile order
  let d := (d.boot.preload.filter fun e => decide (base ≤ e.offset) && decide (e.offset < base + 0x10000)).foldl
    applyPreload d
  let d := if d.flag (ETH_CTRL_ENABLE n) then d.lock (ETH_CTRL n) else d
  d.syncPort n

end Dev

/-! ### The commands -/

/-- LINK_UP (R58, R440): the four conditions have held for 10 µs; no link comes up while the gate is closed, or before the
port's crossing has reconnected. It wins over a hold that expires in its cycle (R69). A link that first comes up in far-end
loopback ends the discard of R69 too (DESIGN CHOICE, notes/assumptions/48). -/
def doLinkUp (n : Fin 16) (i : Fin 4) (d : Dev) : Dev :=
  let p := 4 * n.val + i.val
  let d := d.before (.holdExpired p)
  if d.rxRuns n i ∧ d.flag BOOT_STATUS_GATE_OPEN ∧ d.severed (.rx n) = false ∧ d.flag (RAS_LANE_TEST_RUN n) = false ∧
      d.flag (ETH_SP_STATUS_LINK_UP n i) = false ∧ (d.sub p).brokenAt + 10 * cyUs ≤ d.cycle then
    let d := ((d.put (ETH_SP_STATUS_LINK_UP n i) 1).put (ETH_SP_STATUS_LOCAL_FAULT n i) 0).put
      (ETH_SP_STATUS_REMOTE_FAULT n i) 0
    let d := d.setEvent (ETH_SP_EVENT_LINK_UP n i)
    if d.loopback n = 2 then d.modSub p fun x => { x with everUp := true }
    else (d.modSub p fun x => { x with everUp := true, holdEnds := none, pastHold := false }).put
      (ETH_SP_STATUS_HOLDING n i) 0
  else d

/-- LINK_DOWN (R58, R504): the line signals now are: alignment, codeword lock, local fault, remote fault. One that fails brings
the link down; the fault bits show them as they are, and where they turn good the 10 µs begin. In near-end loopback a remote fault is the sub-port's own echo and is
ignored. -/
def doLinkDown (n : Fin 16) (i : Fin 4) (align lock lf rf : Bool) (d : Dev) : Dev :=
  if d.rxRuns n i then
    let rf := rf && !(d.loopback n == 1)
    let local_ := !align || !lock || lf
    let d := if local_ || rf then d.linkFalls n i
      else if d.flag (ETH_SP_STATUS_LOCAL_FAULT n i) || d.flag (ETH_SP_STATUS_REMOTE_FAULT n i) then
        d.modSub (4 * n.val + i.val) fun x => { x with brokenAt := d.cycle }
      else d
    (d.put (ETH_SP_STATUS_LOCAL_FAULT n i) (b2n local_)).put (ETH_SP_STATUS_REMOTE_FAULT n i) (b2n rf)
  else d

/-- HOLD_EXPIRY (R69): the hold runs out with the link still down, or in far-end loopback (R71). -/
def doHoldExpiry (n : Fin 16) (i : Fin 4) (d : Dev) : Dev :=
  let p := 4 * n.val + i.val
  match (d.sub p).holdEnds with
  | none => d
  | some e =>
    if e ≤ d.cycle ∧ (d.flag (ETH_SP_STATUS_LINK_UP n i) = false ∨ d.loopback n = 2) then
      let d := d.setEvent (ETH_SP_EVENT_HOLD_EXPIRED n i)
      let d := (d.put (ETH_SP_STATUS_HOLDING n i) 0).put (ETH_SP_STATUS_FLUSHING n i) 1
      let d := d.modSub p fun x => { x with holdEnds := none, pastHold := true, flushEnds := some (d.cycle + 1) }
      (d.flushSub p).mark (.holdExpired p)
    else d

/-- FLUSH_COMPLETE (R69): the flush ends; scheduling resumes if the link has returned, and a hold that began during the flush runs on. -/
def doFlushComplete (n : Fin 16) (i : Fin 4) (d : Dev) : Dev :=
  let p := 4 * n.val + i.val
  match (d.sub p).flushEnds with
  | none => d
  | some e =>
    if e ≤ d.cycle then
      (d.modSub p fun x => { x with flushEnds := none }).put (ETH_SP_STATUS_FLUSHING n i) 0
    else d

/-- PORT_RESET (R70). The frames that are partly in are discarded whole at the severed crossing, and so is every other register write to
the port in this cycle (R426). -/
def doPortReset (p : Path) (n : Fin 16) (data : W32) (d : Dev) : Dev :=
  let d := d.writeFields p (ETH_CTRL n) data
  if fieldGet data 31 1 = 1 then
    let cut := d.frames.filter fun kv => match kv.2 with
      | some f => !f.ended && match f.src with | .port q => q / 4 == n.val | _ => false
      | none => false
    let lost := d.marks.filterMap fun m => match m with
      | .portWrite a old => if (a - 0x100000) / 0x10000 = n then some (a, old) else none
      | _ => none
    let d := lost.foldl (fun d w => d.wr w.1 w.2) d
    (((d.portReset n).sever (.rx n)).bump CLK_CNT_XING_DROP (cut.length + lost.length)).mark (.portReset n)
  else d

/-- PORT_ENABLE (R46): 1 enables the port and locks its RWL fields; 0 holds every sub-port link down. -/
def doPortEnable (p : Path) (n : Fin 16) (data : W32) (d : Dev) : Dev :=
  let d := d.writeFields p (ETH_CTRL n) data
  let on := fieldGet data 0 1
  let was := d.get (ETH_CTRL_ENABLE n)
  let d := d.put (ETH_CTRL_ENABLE n) on
  if on = 1 then
    let d := d.lock (ETH_CTRL n)
    let d := if was = 1 then d
      else (List.range 4).foldl (fun d i => d.modSub (4 * n + i) fun x => { x with brokenAt := d.cycle, ran := false }) d
    d.syncPort n
  else d.syncPort n

/-- LOOPBACK of a port changes: frames in reception end in the old setting, and the receive paths align anew (R71, R504). -/
def Dev.setLoopback (d : Dev) (n v : Nat) : Dev :=
  let was := d.loopback n
  let x := d.put (ETH_CTRL_LOOPBACK n) v
  if x.loopback n = was then x
  else
    let d := (d.subsOf n).foldl (fun d i => d.linkFalls n i) d
    let d := d.put (ETH_CTRL_LOOPBACK n) v
    let d := (d.subsOf n).foldl (fun d i => d.modSub (4 * n + i) fun x => { x with ran := false, loop := [] }) d
    let d := d.syncPort n
    if d.loopback n = 2 then (d.subsOf n).foldl (fun d i => d.startHold n i) d else d

/-- LOOPBACK_CHANGE (R71); while a lane test forces the loopback, the value is kept for its end (R466). -/
def doLoopbackChange (p : Path) (n : Fin 16) (data : W32) (d : Dev) : Dev :=
  let d := d.writeFields p (ETH_CTRL n) data
  match tabGet (fun _ => none) d.ras.lane n with
  | some (_, c) => { d with ras := { d.ras with lane := tabSet (fun _ => none) d.ras.lane n (some (fieldGet data 4 2, c)) } }
  | none => d.setLoopback n (fieldGet data 4 2)

/-- RX_CLK_SWITCH (R55, R420): RX_Pn takes the lane of the lowest-numbered sub-port whose link is up, or the reference
oscillator while none is. The switch severs the port's crossing, which loses nothing (R426). -/
def doRxClkSwitch (n : Fin 16) (d : Dev) : Dev :=
  let up := (d.subsOf n).find? fun i => d.flag (ETH_SP_STATUS_LINK_UP n i)
  let src := match up with
    | none => (1, 0)
    | some i => (0, (lanesOf (d.mode n) i).headD 0)
  if (d.get (CLK_RX_SRC_REF n), d.get (CLK_RX_SRC_LANE n)) = src then d
  else (((d.put (CLK_RX_SRC_REF n) src.1).put (CLK_RX_SRC_LANE n) src.2).sever (.rx n)).inc CLK_CNT_RX_CLK_SWITCH

/-- ALLOCATION_CONDITION (R75, R98): `bytes` more of a frame have arrived, so that it has 68 bytes, or `ended` says that it
has ended with 64 or more. -/
def doAllocationCondition (n : Fin 16) (i : Fin 4) (bytes : List Byte) (lag : Nat) (ended : Bool) (d : Dev) : Dev :=
  let p := 4 * n.val + i.val
  let have_ := match (d.sub p).rx with
    | some j => (match d.frame? j with | some f => if f.stage = .rx then f.len else 0 | none => 0)
    | none => 0
  let first := match (d.sub p).rx with
    | some j => (match d.frame? j with | some f => f.stage == .rx | none => false)
    | none => true
  match d.hears p bytes false with
  | none => d
  | some (bytes, e) =>
    let total := have_ + bytes.length
    if d.flag (ETH_SP_STATUS_LINK_UP n i) ∧ first = true ∧ (68 ≤ total ∨ (ended = true ∧ 64 ≤ total)) then
      let (j, d) := e.receive p bytes lag
      d.meetAllocation p j
    else d

/-- OVERSIZE_DETECT (R64): byte MAX_FRAME + 1 arrives with `bytes`. -/
def doOversizeDetect (n : Fin 16) (i : Fin 4) (bytes : List Byte) (d : Dev) : Dev :=
  let p := 4 * n.val + i.val
  let d := d.startDue
  match (d.sub p).rx, d.hears p bytes false with
  | some j, some (bytes, e) =>
    match d.frame? j with
    | none => d
    | some f =>
      let f := { f with bytes := f.bytes ++ bytes }
      if d.maxFrame p < f.len ∧ f.oversize = false then
        let e := (e.setFrame j f).meetAllocation p j
        match e.frame? j with
        | some f => e.oversizeNow p j f
        | none => e
      else d
  | _, _ => d

/-- CUT_THROUGH_TX_START (R60): byte 256 or the end of the frame has been received, so the frame chosen on `n`.`i` begins
to leave; `bytes` have arrived meanwhile. -/
def doCutThroughTxStart (n : Fin 16) (i : Fin 4) (bytes : List Byte) (d : Dev) : Dev :=
  let p := 4 * n.val + i.val
  match (d.sub p).tx with
  | none => d
  | some j =>
    match d.frame? j with
    | none => d
    | some f =>
      let e := d.arrive j bytes
      let f := (e.frame? j).getD f
      match f.stage with
      | .chosen _ st =>
        if f.cutThrough = some true ∧ (256 ≤ f.len ∨ f.ended = true) ∧ st ≤ d.cycle then
          (e.setFrame j { f with ctStarted := true }).startDue
        else d
      | _ => d

/-- FRAME_END (R64): the rest of a frame arrives and it ends; `code` tells of a code error or uncorrectable codeword inside
it, and `corr` and `uncorr` count the RS codewords received since the last report, which count while the receive path runs
(R72). -/
def doFrameEnd (n : Fin 16) (i : Fin 4) (bytes : List Byte) (lag : Nat) (code : Bool) (corr uncorr : Nat) (d : Dev) :
    Dev :=
  let p := 4 * n.val + i.val
  let d := if d.rxRuns n i then (d.bump (ETH_CNT_FEC_CORR_CW n i) corr).bump (ETH_CNT_FEC_UNCORR_CW n i) uncorr else d
  if d.flag (ETH_SP_STATUS_LINK_UP n i) then
    match d.startDue.hears p bytes true with
    | none => d
    | some (bytes, e) =>
      let (j, e) := e.receive p bytes lag
      let e := match e.frame? j with
        | some f => if 64 ≤ f.len then e.meetAllocation p j else e
        | none => e
      e.endFrame p j code false
  else d

/-- TX_FRAME_COMPLETE (R65, R142): the last byte of the frame in transmission leaves; its cells return to the pool. -/
def doTxFrameComplete (n : Fin 16) (i : Fin 4) (d : Dev) : Dev :=
  let p := 4 * n.val + i.val
  let d := d.startDue
  match (d.sub p).tx with
  | none => d
  | some j =>
    match d.frame? j with
    | none => d
    | some f =>
      match f.stage with
      | .chosen _ st =>
        let l := d.acctLen f
        if (d.sub p).started = true ∧ (f.ended = true ∨ f.oversize = true) ∧ st + wireCycles (l + 8) (d.rate p) ≤ d.cycle then
          let body := f.bytes.take (l - 4)
          let d := (d.inc (ETH_CNT_TX_FRAMES n i)).bump (ETH_CNT_TX_BYTES n i) l
          let d := if f.stomp then d.inc (ETH_CNT_TX_STOMPED n i) else d
          let sent := withFcs f.stomp body
          -- R71: in near-end loopback nothing reaches the wire, and the frame returns to the sub-port's own receive
          let d := if d.loopback n = 1 then d.modSub p fun x => { x with loop := x.loop ++ [sent] } else d.emit (.frame p sent)
          -- R188, R189: an event message that firmware sends returns the time at which its SFD crossed, and is what PTP_TX counts
          -- (DESIGN CHOICE, notes/assumptions/64)
          let d := match f.src, ptpOffset f.bytes with
            | .firmware, some o =>
              if bitsOf (f.bytes.getD o 0#8).toNat 0 4 < 4 then
                let stamp := d.netAt (st + wireCycles 8 (d.rate p)) + d.get (TIME_PORT_DLY_TX_NS p) * 2 ^ 48
                (d.inc TIME_CNT_PTP_TX).emit (.txStamp p stamp)
              else d
            | _, _ => d
          let d := d.modSub p fun x => { x with tx := none, started := false,
                                                txFreeAt := st + wireCycles (l + 20) (d.rate p) }
          d.freeFrame j
        else d
      | _ => d

/-- MGMT_FRAME_RX (R74): a frame of 64 to 1,518 bytes with a good FCS goes to device firmware; any other is discarded. -/
def doMgmtFrameRx (bytes : List Byte) (d : Dev) : Dev :=
  if 64 ≤ bytes.length ∧ bytes.length ≤ 1518 ∧ judgeFcs bytes = .good then d.emit (.toFirmware bytes 0) else d

end Sys2Proof.Machine
end

