-- ==== Sys2Proof/Machine/HifOps.lean ====
section
/-!
DEFINITION. The commands of the PCIe endpoint but for inbound memory requests: links, containment, resets, power states
and configuration (chapter PCIe Endpoint).
-/

namespace Sys2Proof.Machine

/-- 50 ms and 100 ms in cycles. -/
def ms50 : Nat := 150000000
def ms100 : Nat := 300000000

/-- CAUSE of a freeze (HIF_FREEZE). -/
def linkErrCause : LinkError → Nat
  | .dllp => 2 | .fc => 3 | .rxOverflow => 4 | .malformed => 5 | .flitUncorr => 6

/-- The uncorrectable AER bit of a freezing error (notes/assumptions/20). -/
def linkErrBit : LinkError → Nat
  | .dllp => 4 | .fc => 13 | .rxOverflow => 17 | .malformed => 18 | .flitUncorr => 4

namespace Dev

/-! ### Freezing (R326 to R328) -/

/-- The started channels bound to functions of a link. -/
def chansOn (d : Dev) (l : Nat) : List Nat := d.chansOf fun g => d.chBound g && d.chLink g == l

/-- The writes among requests. -/
def writesOf (q : List HostReq) : List PWrite := q.filterMap fun r => match r with | .write w => some w | .read .. => none

/-- A link becomes frozen; `lost` are the writes it abandons (R326, R328). -/
def enterFreeze (d : Dev) (l cause : Nat) (lost : List PWrite) : Dev :=
  let n := l / 4
  let m := l % 4
  let d := d.modLink l fun x => { x with abandoned := x.abandoned ++ lost, unacked := [], outq := [], invals := [] }
  let d := ((d.put (HIF_FREEZE_FROZEN n m) 1).setEvent (HIF_FREEZE_FREEZE_EVENT n m)).put (HIF_FREEZE_CAUSE n m) cause
  (d.inc (HIF_CNT_FREEZES n m)).bump (HIF_CNT_REWOUND_WRITES n m) lost.length

/-- A freeze event on a host link (R326, R328): its outbound queue closes, its reads are abandoned, and so is every write
not yet acknowledged. One that comes after a release of the link, or after an engine stop on a read of it, in the same cycle of the HIF
domain is an event of the next (R330). -/
def freezeLink (d : Dev) (l cause : Nat) : Dev :=
  if !d.linkExists l then d
  else
    let late := d.marks.any fun m => match m with | .busStop k _ => k == l | .relAsked k _ => k == l | _ => false
    let d := if late then d.nextHif else d
    let d := d.modLink l fun x => { x with frozeAt := some d.cycle, l0Since := d.cycle }
    if d.frozen l then d
    else
      let x := d.link l
      let tags := (d.allReads.filter fun r => hostRead r && d.chLink r.chan == l).map fun r => (r.tag, d.cycle + ms50)
      let d := d.modLink l fun x => { x with
        oldTags := (x.oldTags.filter fun t => decide (d.cycle < t.2)) ++ tags }
      d.enterFreeze l cause (x.unacked ++ writesOf x.outq)

/-- FREEZE_ABORT at one channel (R328): its host reads are no longer outstanding, the glaze and public-key jobs that need one are
abandoned with them, and its position goes back to the first byte that an abandoned write holds. -/
def freezeAbortChan (d : Dev) (l g : Nat) : Dev :=
  let rs := d.readsOf g
  let isJob := fun r : Read => match r.what with | .job _ _ => true | _ => false
  let stuck := fun j : Job => j.chan == g &&
    (rs.any (fun r => hostRead r && match r.what with | .job i _ => i == j.idx | _ => false) ||
     (d.chan g).feeds.any fun f => f.idx == j.idx && f.need.any fun x => decide (x.2.1 < 2 ^ 63))
  let d := (rs.filter hostRead ++
    (rs.dropWhile fun r => isDescRead r || isJob r || !hostRead r).filter fun r => !isDescRead r && !isJob r && !hostRead r).foldl dropRead d
  let d := d.dropJobs stuck true
  let mine := fun w : PWrite => w.chan == some g
  let late := (writesOf (d.link l).outq).filter mine ++ (d.link l).xwait.filter mine
  let d := d.modLink l fun x => { x with
    abandoned := x.abandoned ++ late, xwait := x.xwait.filter fun w => !mine w
    outq := x.outq.filter fun r => match r with | .write w => !mine w | .read _ t _ _ _ _ => !(rs.any fun y => y.tag == t) }
  let d := d.bump (HIF_CNT_REWOUND_WRITES (l / 4) (l % 4)) late.length
  if d.chSt g = chSetup ∨ d.chSt g = chResetting then d
  else
    let (kept, d) := d.rewind g (d.link l).abandoned
    d.modLink l fun x => { x with abandoned := kept }

/-- A write that its link still holds 50 ms after its issue is abandoned with those of its channel behind it, and reported as a
completion timeout of its engine, which stops (R41, R357). -/
def writeLimit (d : Dev) (l i : Nat) : Dev :=
  match (writesOf (d.link l).outq)[i]? with
  | none => d
  | some w =>
    if d.cycle < w.at_ + ms50 then d
    else match w.chan with
      | none => d.modLink l fun x => { x with outq := x.outq.filter fun r => r != .write w }
      | some g =>
        let mine := fun v : PWrite => v.chan == some g && decide (w.at_ ≤ v.at_)
        let lost := (writesOf (d.link l).outq).filter mine
        let d := d.modLink l fun x => { x with outq := x.outq.filter fun r => match r with | .write v => !mine v | .read .. => true }
        ((d.rewind g lost).2.engineStop (g / 256) .timeout l (d.routingId l w.func) w.addr)

/-- FREEZE_ABORT at engine `e` for link `l` (R328): every channel of the link on the engine, and only those. -/
def freezeAbort (d : Dev) (e l : Nat) : Dev :=
  ((d.chansOn l).filter fun g => g / 256 == e).foldl (fun d g =>
    if bitOf (d.pauseSrc g) 2 then d else (d.freezeAbortChan l g).setPause g srcFreeze true) d

/-! ### Function resets and power states (R322, R323) -/

/-- The PM pause source of every channel of a link follows its function (R323, R354). -/
def pmSync (d : Dev) (l : Nat) : Dev :=
  (d.chansOn l).foldl (fun d g =>
    let x := d.func l (d.chFunc g)
    let on := x.d3hot || !x.bme
    if bitOf (d.pauseSrc g) 1 = on then d else d.setPause g srcPm on) d

/-- The saggar of a function is reset: once it is FROZEN if it is FREEZING (R322, R374). -/
def saggarFlr (d : Dev) (l f : Nat) : Dev :=
  match d.saggarOf l f with
  | none => d
  | some s =>
    let st := d.sgState s
    if st = 2 then d.modSag s fun x => { x with flrWaits := true }
    else if st = 1 ∨ st = 3 then d.sagResetStart s false else d

/-- The offsets of the VFs of PF `k` on a link (R313). -/
def vfOffsets (d : Dev) (l k : Nat) : List Nat :=
  (List.range ((d.hifProfile (l / 4)).pf k).totalVfs).map (d.vfBase l k + ·)

/-- The VFs of PF `k` that are live, or whose configuration or saggar holds something. -/
def vfTouched (d : Dev) (l k : Nat) : List Nat :=
  let b := d.vfBase l k
  let n := ((d.hifProfile (l / 4)).pf k).totalVfs
  ((d.hif.funcs.map (·.1)).filterMap fun x =>
    if x / 2048 = l ∧ b ≤ x % 2048 ∧ x % 2048 < b + n then some (x % 2048) else none) ++
  d.liveSags.filterMap fun s =>
    let f := d.sagFunc s
    if d.sagLink s = l ∧ b ≤ f ∧ f < b + n then some f else none

/-- What an FLR resets beyond configuration space (R322). -/
def flrReset (d : Dev) (l f : Nat) : Dev :=
  match d.funcAt l f with
  | none => d
  | some (.pf 0) => ((List.range 4096).filter fun g => d.chBound g && d.chLink g == l && d.chFunc g == f).foldl (fun d g => d.chanReset g) d
  | some (.pf k) => (d.vfTouched l k).dedup.foldl (fun d v => d.saggarFlr l v) (d.saggarFlr l f)
  | some (.vf _ _) => d.saggarFlr l f

/-- The reset of a function's configuration space: PME and AER status are sticky (notes/assumptions/20). -/
def cfgReset (d : Dev) (l f : Nat) (sticky : Bool) : Dev :=
  let d := d.modFunc l f fun x =>
    if sticky then { Func.reset with pmeEn := x.pmeEn, pmeStatus := x.pmeStatus, aerCorr := x.aerCorr, aerUncorr := x.aerUncorr,
                                     aerSev := x.aerSev, aerUncorrMask := x.aerUncorrMask, aerCorrMask := x.aerCorrMask }
    else .reset
  { d with hif := { d.hif with msix := d.hif.msix.filter fun kv => kv.1 / 2048 != fkey l f } }.forgetAtc l f

/-- The VFs of a PF are disabled: their configuration is lost, and their saggars are reset (R322); while the link is frozen
the resets wait. -/
def vfsOff (d : Dev) (l k : Nat) (resets : Bool) : Dev :=
  (d.vfTouched l k).dedup.foldl (fun d v =>
    let d := d.cfgReset l v false
    if !resets then d
    else if d.frozen l then
      (d.modLink l fun x => { x with flrs := x.flrs ++ [v] }).put (HIF_FREEZE_FLR_DEFERRED (l / 4) (l % 4)) 1
    else d.saggarFlr l v) d

/-- An FLR of a live function (R322, R330). -/
def flr (d : Dev) (l f : Nat) : Dev :=
  let mps := (d.func l f).mps
  let d := (d.cfgReset l f true).modFunc l f fun x => { x with mps := mps }
  let d := match d.funcAt l f with | some (.pf (k + 1)) => d.vfsOff l (k + 1) false | _ => d
  let d := if d.frozen l then
      (d.modLink l fun x => { x with flrs := x.flrs ++ [f] }).put (HIF_FREEZE_FLR_DEFERRED (l / 4) (l % 4)) 1
    else d.flrReset l f
  d.pmSync l

/-- The power state and Bus Master Enable of a function change (R323). -/
def powerChange (d : Dev) (l f : Nat) (d3hot bme : Bool) : Dev :=
  ((d.modFunc l f fun x => { x with d3hot := d3hot, bme := bme }).pmSync l).msixFlush l f

/-! ### Release (R329) -/

/-- The release of a frozen link. -/
def release (d : Dev) (l : Nat) : Dev :=
  let n := l / 4
  let m := l % 4
  let d := (List.range 16).foldl (fun d e => d.freezeAbort e l) d
  let flrs := (d.link l).flrs
  let d := (d.put (HIF_FREEZE_FROZEN n m) 0).put (HIF_FREEZE_FLR_DEFERRED n m) 0
  let d := flrs.foldl (fun d f => d.flrReset l f) (d.modLink l fun x => { x with flrs := [] })
  let d := d.modLink l fun x => { x with outq := x.abandoned.map (fun w => .write { w with at_ := d.cycle }) ++ x.outq, abandoned := [] }
  let d := (d.pumpLink l).flushX l
  let d := (d.chansOn l).foldl (fun d g => (d.modChan g fun x => { x with scan := true }).setPause g srcFreeze false) d
  d.ltrUpdate l

/-! ### Reset of links -/

/-- A link leaves DL_Active. -/
def linkOff (d : Dev) (l : Nat) : Dev :=
  let n := l / 4
  let m := l % 4
  let d := (((d.put (HIF_LINK_STATUS_LINK_UP n m) 0).put (HIF_LINK_STATUS_SPEED n m) 0).put (HIF_LINK_STATUS_WIDTH n m) 0).put
    (HIF_LINK_STATUS_FLIT n m) 0
  (d.put (HIF_LINK_STATUS_PM_STATE n m) 5).modLink l fun x => { x with inL23 := false, ltr := none, active := 0 }

/-- The reset of a link severs its crossing (R426). -/
def severLink (d : Dev) (l : Nat) : Dev := if h : l < 8 then d.sever (.hif ⟨l, h⟩) else d

/-- DL_Down of a link: it freezes if it has been active (R326). -/
def linkDown (d : Dev) (l : Nat) : Dev :=
  let was := (d.link l).wasActive && d.linkUp l
  let d := d.linkOff l
  if was then d.freezeLink l 1 else d

/-- The host links of a controller. -/
def linksOf (d : Dev) (n : Nat) : List Nat := ((List.range 4).map (4 * n + ·)).filter d.linkExists

/-- The functions of a link whose configuration is not at its reset values. -/
def touchedFuncs (d : Dev) (l : Nat) : List Nat := ((d.hif.funcs.map (·.1)).filter fun x => x / 2048 == l).map (· % 2048)

/-- The reset of a link's configuration space: every function, sticky state kept in all of them or lost. -/
def linkCfgReset (d : Dev) (l : Nat) (sticky : Bool) : Dev :=
  ((d.touchedFuncs l).foldl (fun d f => d.cfgReset l f sticky) (d.modLink l fun x => { x with aspm := 0, l1pm1 := 0, l1pm2 := 0, ltrEn := false })).pmSync l

end Dev

/-- HIF_DL_ACTIVE (R308): link `l` trains at a rate and width and reaches DL_Active. -/
def doHifDlActive (l : Fin 8) (speed width : Nat) (flit : Bool) (d : Dev) : Dev :=
  let n := (l : Nat) / 4
  let m := (l : Nat) % 4
  let lanes := match d.bifurc n with | 0 => 16 | 1 => 8 | _ => 4
  if !d.linkExists l || d.hif.perst.contains n || d.severed (.hif l) || d.linkUp l || decide (speed = 0) || decide (d.get (HIF_CTRL_MAX_GEN n) < speed) ||
      !([1, 2, 4, 8, 16].contains width) || decide (lanes < width) || (speed == 6 && !flit) then d
  else
    let d := ((d.put (HIF_LINK_STATUS_LINK_UP n m) 1).put (HIF_LINK_STATUS_SPEED n m) speed).put (HIF_LINK_STATUS_WIDTH n m) width
    let d := (d.put (HIF_LINK_STATUS_FLIT n m) (b2n flit)).put (HIF_LINK_STATUS_PM_STATE n m) 0
    let d := d.modLink l fun x => { x with wasActive := true, l0Since := d.cycle, lastTlp := d.cycle, active := width }
    (d.pumpLink l).ltrUpdate l

/-- HIF_DL_DOWN (R326). -/
def doHifDlDown (l : Fin 8) (d : Dev) : Dev := if d.linkUp l then d.linkDown l else d

/-- LINK_PROTOCOL_ERROR (R321). -/
def doLinkProtocolError (l : Fin 8) (k : LinkError) (d : Dev) : Dev :=
  if d.linkUp l then (d.aerError l 0 (linkErrBit k) false).freezeLink l (linkErrCause k) else d

/-- CONTROLLER_INTERNAL_ERROR (R321, R330): every link of controller `n` freezes. -/
def doControllerInternalError (n : Fin 2) (d : Dev) : Dev :=
  let d := (d.linksOf n).foldl (fun d l =>
    let d := d.modFunc l 0 fun x => { x with aerUncorr := x.aerUncorr ||| 2 ^ 22 }
    (d.inc (HIF_CNT_UNCORR_ERR (l / 4) (l % 4))).freezeLink l 7) d
  d.rasError (.of 0x16 (8 + n) .uc 0)

/-- POSTED_WRITE_ACK (R328): the partner of link `l` has acknowledged its oldest write. -/
def doPostedWriteAck (l : Fin 8) (d : Dev) : Dev :=
  match (d.link l).unacked with
  | [] => d
  | w :: rest =>
    let d := (d.modLink l fun x => { x with unacked := rest }).invalWrite l
    match w.frame, w.chan with
    | some (fr, _), some g =>
      let x := d.link l
      let carries := fun v : PWrite => match v.frame with | some (i, _) => i == fr | none => false
      if (d.chan g).sent.any (fun y => y.1 == fr) && !(x.unacked ++ x.abandoned ++ Dev.writesOf x.outq).any carries then
        (d.modChan g fun c => { c with sent := c.sent.filter fun y => y.1 != fr }).freeFrame fr
      else d
    | _, _ => d

/-- FREEZE_ABORT (R328) at engine `e`, for the frozen link `l`. -/
def doFreezeAbort (e : Fin 16) (l : Fin 8) (d : Dev) : Dev := if d.frozen l then d.freezeAbort e l else d

/-- FLR (R322). -/
def doHifFlr (l : Fin 8) (f : Fin 2048) (d : Dev) : Dev := if d.linkUp l && d.funcLive l f then d.flr l f else d

/-- POWER_STATE_CHANGE (R323): function `f` enters or leaves D3hot, or its Bus Master Enable changes. -/
def doPowerStateChange (l : Fin 8) (f : Fin 2048) (d3hot bme : Bool) (d : Dev) : Dev :=
  if d.linkUp l && d.funcLive l f then d.powerChange l f d3hot bme else d

/-- PERST_ASSERT (R310, R324, R326) of controller `n`. -/
def doPerstAssert (n : Fin 2) (d : Dev) : Dev :=
  if d.hif.perst.contains (n : Nat) then d
  else
    let ls := d.linksOf n
    let orderly := ls.all fun l => (d.link l).inL23
    let d := { d with hif := { d.hif with perst := d.hif.perst ++ [(n : Nat)] } }
    if orderly then
      let d := { d with hif := { d.hif with d3cold := d.hif.d3cold ++ [(n : Nat)] } }
      ls.foldl (fun d l => (d.linkOff l).severLink l) d
    else ls.foldl (fun d l => ((d.linkDown l).linkCfgReset l false).severLink l) d

/-- PERST_DEASSERT (R324) of controller `n`: from D3cold, PF0 and PF1 return with their sticky state and saggars, every other
function as after a fundamental reset, its saggar reset. -/
def doPerstDeassert (n : Fin 2) (d : Dev) : Dev :=
  if !d.hif.perst.contains (n : Nat) then d
  else
    let cold := d.hif.d3cold.contains (n : Nat)
    let waking := d.hif.wake
    let d := { d with hif := { d.hif with
      perst := d.hif.perst.filter (· != (n : Nat)), d3cold := d.hif.d3cold.filter (· != (n : Nat))
      wake := d.hif.wake.filter (· != (n : Nat)) } }
    let d := if !waking.isEmpty && d.hif.wake.isEmpty then d.emit (.pin .wakeN true) else d
    if !cold then d
    else (d.linksOf n).foldl (fun d l =>
      let keeps := fun f => match d.funcAt l f with | some (.pf k) => decide (k ≤ 1) | _ => false
      let fs := (d.touchedFuncs l ++ d.liveSags.filterMap fun s => if d.sagLink s = l then some (d.sagFunc s) else none).dedup
      let d := fs.foldl (fun d f => if keeps f then d.cfgReset l f true else (d.cfgReset l f false).saggarFlr l f) d
      (d.modLink l fun x => { x with aspm := 0, l1pm1 := 0, l1pm2 := 0, ltrEn := false }).pmSync l) d

/-- HOT_RESET (R310, R326): a hot reset or link disable received on link `l`. -/
def doHotReset (l : Fin 8) (d : Dev) : Dev :=
  if d.linkUp l then ((d.linkDown l).linkCfgReset l true).sever (.hif l) else d

/-- LTR_L1.2_THRESHOLD of a link in nanoseconds: a value times a power of 32 (notes/assumptions/20). -/
def Dev.l12Threshold (d : Dev) (l : Nat) : Nat := bitsOf (d.link l).l1pm1 16 10 * 32 ^ bitsOf (d.link l).l1pm1 29 3

/-- ASPM_L1_ENTRY (R325): link `l` enters L1 (2), L1.1 (3) or L1.2 (4), as the host enables it, after 10 µs without a
TLP; L1.2, where the reported LTR reaches the threshold that the host sets. -/
def doAspmL1Entry (l : Fin 8) (st : Fin 3) (d : Dev) : Dev :=
  let x := d.link l
  if d.linkUp l && !x.inL23 && bitOf x.aspm st && decide (x.lastTlp + 30000 ≤ d.cycle) && x.outq.isEmpty &&
      (st.val != 2 || x.ltr.all fun us => decide (d.l12Threshold l ≤ 1000 * us)) then
    d.put (HIF_LINK_STATUS_PM_STATE ((l : Nat) / 4) ((l : Nat) % 4)) (2 + st)
  else d

/-- L0P_WIDTH_CHANGE (R325): the traffic offered over the last 100 µs needs `need` lanes; at half the width or less the link
goes to the least width that carries it. -/
def doL0pWidthChange (l : Fin 8) (need : Nat) (d : Dev) : Dev :=
  let n := (l : Nat) / 4
  let m := (l : Nat) % 4
  let w := d.get (HIF_LINK_STATUS_WIDTH n m)
  let pm := d.get (HIF_LINK_STATUS_PM_STATE n m)
  if !d.linkUp l || !d.flag (HIF_LINK_STATUS_FLIT n m) || decide (1 < pm) then d
  else if 2 * need ≤ w then
    let lanes := ([1, 2, 4, 8].find? fun k => decide (need ≤ k)).getD w
    (d.put (HIF_LINK_STATUS_PM_STATE n m) 1).modLink l fun x => { x with active := lanes }
  else
    let d := d.modLink l fun x => { x with active := w, l0Since := if pm = 1 then d.cycle else x.l0Since }
    d.put (HIF_LINK_STATUS_PM_STATE n m) 0

namespace Dev

/-- Whether requests of the host arrive on a link: it is up, not in L2/L3 Ready, and not frozen (R31, R324, R327). -/
def carries (d : Dev) (l : Nat) : Bool := d.linkUp l && !d.frozen l && !(d.link l).inL23

/-- An inbound write is dropped on a frozen link, or one that is down (R31, R327). -/
def dropInbound (d : Dev) (l : Nat) (hit : Option (Nat × Nat × Nat)) : Dev :=
  let n := l / 4
  let m := l % 4
  let d := d.inc (HIF_CNT_DROPPED_WRITES n m)
  match hit with
  | none => d
  | some (f, bar, off) =>
    let d := ((d.setEvent (HIF_DROP_SRC_VALID n m)).put (HIF_DROP_SRC_BAR n m) bar).put (HIF_DROP_SRC_RID n m) (d.routingId l f)
    d.put (HIF_DROP_OFS_OFFSET n m) (off % 2 ^ 32)

end Dev

/-- FREEZE_REL (R329, R330): a write of HIF_FREEZE_m.FREEZE_REL of link `l`; one through the frozen link itself is dropped
before it gets here. -/
def doFreezeRel (p : Path) (l : Fin 8) (data : W32) (d : Dev) : Dev :=
  let n := (l : Nat) / 4
  let m := (l : Nat) % 4
  if !d.linkExists l then d
  else
    let d := d.writeFields p (HIF_FREEZE n m) data
    let d := if fieldGet data 30 1 = 0 then d else d.mark (.relAsked l (Dev.hifOf d.cycle))
    if fieldGet data 30 1 = 0 ∨ d.frozen l = false then d
    else if !d.linkUp l || ((d.link l).frozeAt.map Dev.hifOf) == some (Dev.hifOf d.cycle) then d.setEvent (HIF_FREEZE_REL_REFUSED n m)
    else d.release l

/-- FIRMWARE_FREEZE_RELEASE (R329). -/
def doFirmwareFreezeRelease (l : Fin 8) (d : Dev) : Dev :=
  let n := (l : Nat) / 4
  let m := (l : Nat) % 4
  if bitOf (d.get (HIF_CTRL_FW_REL n)) m && d.frozen l && d.linkUp l && d.get (HIF_LINK_STATUS_PM_STATE n m) == 0 &&
      decide ((d.link l).l0Since + ms100 ≤ d.cycle) then d.release l else d

/-- HIF_ENABLE (R46): a write of HIF_CTRL of controller `n`. The first 1 also locks the clock plan; that of HIF0, the last
step of bring-up, makes the device READY (R434, R435). -/
def doHifEnable (p : Path) (n : Fin 2) (data : W32) (d : Dev) : Dev :=
  let d := d.writeFields p (HIF_CTRL n) data
  let d := d.put (HIF_CTRL_ENABLE n) (fieldGet data 0 1)
  if fieldGet data 0 1 = 1 then
    let d := (d.lock (HIF_CTRL n)).lock 0x1FFFC
    if n.val = 0 && d.flag BOOT_STATUS_VERIFIED then d.put BOOT_STATUS_STAGE 5 else d
  else d

/-- INBOUND_MESSAGE (R320, R324): PME_Turn_Off is acknowledged and the link rests in L2/L3 Ready; a message of a type that the
device does not implement is an unsupported request. -/
def doInboundMessage (l : Fin 8) (k : InMsg) (d : Dev) : Dev :=
  if !d.linkUp l || (d.link l).inL23 then d
  else
    let d := d.tlpOn l
    match k with
    | .pmeTurnOff =>
      let d := d.emit (.message l 0 .pmeToAck)
      (d.modLink l fun x => { x with inL23 := true }).put (HIF_LINK_STATUS_PM_STATE ((l : Nat) / 4) ((l : Nat) % 4)) 5
    | .unsupported => d.aerError l 0 20 false

/-! ### Configuration requests (R312 to R320, R327) -/

namespace Dev

/-- BAR `i`'s DW of a base address. -/
def barDw (d : Dev) (l f : Nat) (i : Nat) (base : Nat) : Nat :=
  match d.barOf l f (i / 2 * 2) with
  | none => 0
  | some (_, use) =>
    if i % 2 = 1 then base / 2 ^ 32
    else base % 2 ^ 32 + 4 + (match use with | .doorbells => 8 | .window => 8 | _ => 0)

/-- A base address after a write of one of its DWs: bits below the size stay zero; an absent BAR stays zero. -/
def barPut (d : Dev) (l f : Nat) (i : Nat) (base v : Nat) : Nat :=
  match d.barOf l f (i / 2 * 2) with
  | none => 0
  | some (size, _) => (if i % 2 = 1 then v * 2 ^ 32 + base % 2 ^ 32 else base / 2 ^ 32 * 2 ^ 32 + v) / size * size

/-- The next function of the ARI chain: the next PF that is there, else 0. -/
def nextPf (d : Dev) (l f : Nat) : Nat :=
  (((List.range (linkPfs (d.bifurc (l / 4)) (l % 4)).length).filter fun o => decide (f < o) && (d.funcAt l o).isSome).head?).getD 0

/-- The capabilities and features of a function of personality place `pf` at offset `f` (R318): those of the link stand on function 0. -/
def hasCap (f pf : Nat) (vf : Bool) : CfgCap → Bool
  | .express | .powerManagement | .msix | .aer | .ari | .flr | .relaxedOrdering | .idOrdering | .tag10 | .tag14 | .aspmL1 | .l0p => true
  | .sriov => !vf && pf != 0
  | .ats => pf != 0
  | .ltr | .l1PmSubstates | .secondary | .phy16 | .phy32 | .phy64 | .laneMargining | .dataLinkFeature | .flitLogging
  | .serialNumber => f == 0
  | .pri | .pasid | .atomicOp | .tph | .ecrc | .ide | .doe | .obff | .resizableBar | .multicast | .ioSpace | .msi | .intx | .aspmL0s => false

/-- Subsystem ID or Subsystem Vendor ID of the profile; a free value where it states none (notes/assumptions/21). -/
def subsysId (d : Dev) (x : Option Nat) : Nat × Dev :=
  match x with
  | some v => (v, d)
  | none => let r := d.free; (r.1 % 65536, r.2)

/-- A field of a function's configuration space. -/
def cfgRead (d : Dev) (l f : Nat) (k : FuncKind) (r : CfgField) : Nat × Dev :=
  let x := d.func l f
  let c := d.ctlFunc l f
  let vf := match k with | .vf _ _ => true | .pf _ => false
  let nv := d.isNvme l f
  let pf := kindPf k
  let p := (d.hifProfile (l / 4)).pf pf
  let v : Nat := match r with
    | .vendorId => 0x1F7A
    | .deviceId => if pf = 0 then 0x1280 else (if nv then 0x1283 else 0x1281) + b2n vf
    | .revisionId => ((d.get GLB_DEVID_REV_LETTER - 0x41) * 16 + d.get GLB_DEVID_REV_NUM) % 256
    | .classCode => if pf = 0 then 0x120000 else if nv then 0x010802 else 0x020000
    | .subsystemVendorId => 0
    | .subsystemId => 0
    | .interruptPin => 0
    | .memorySpaceEnable => b2n x.mse
    | .busMasterEnable => b2n x.bme
    | .serrEnable => b2n x.serr
    | .bar i => if vf then 0 else d.barDw l f i (if i.val < 2 then x.bar0 else if i.val < 4 then x.bar2 else x.bar4)
    | .vfBar i => if vf || pf == 0 then 0
        else d.barDw l (d.vfBase l pf) i (if i.val < 2 then x.vfBar0 else if i.val < 4 then x.vfBar2 else x.vfBar4)
    | .powerState => if x.d3hot then 3 else 0
    | .pmeEn => b2n x.pmeEn
    | .pmeStatus => b2n x.pmeStatus
    | .pmeD3cold => b2n (!vf && decide (pf ≤ 1))
    | .maxPayload => c.mps
    | .maxPayloadSupported => 2
    | .maxReadRequest => c.mrrs
    | .relaxedOrdering => b2n c.ro
    | .idOrdering => b2n c.ido
    | .errorReporting => x.errEn
    | .completionTimeout => c.cto
    | .ltrEnable => if f = 0 then b2n (d.link l).ltrEn else 0
    | .initiateFlr => 0
    | .msixEnable => b2n x.msixEn
    | .msixMask => b2n x.msixMask
    | .msixTableSize => d.msixSize l f - 1
    | .aerUncorrStatus => x.aerUncorr
    | .aerUncorrSeverity => x.aerSev
    | .aerCorrStatus => x.aerCorr
    | .aerUncorrMask => x.aerUncorrMask
    | .aerCorrMask => x.aerCorrMask
    | .vfEnable => b2n x.vfEnable
    | .vfMemorySpaceEnable => b2n x.vfMse
    | .numVfs => x.numVfs
    | .totalVfs => if vf || pf == 0 then 0 else p.totalVfs
    | .firstVfOffset => if vf || pf == 0 || p.totalVfs == 0 then 0 else d.vfBase l pf - f
    | .vfStride => if vf || pf == 0 then 0 else 1
    | .atsEnable => b2n x.atsEn
    | .atsQueueDepth => if pf = 0 then 0 else 32 % 32
    | .atsStu => 0
    | .ariNext => if vf then 0 else d.nextPf l f
    | .serialLow => if f = 0 then d.boot.fuses.devnum % 2 ^ 32 else 0
    | .serialHigh => if f = 0 then d.boot.fuses.devnum / 2 ^ 32 else 0
    | .aspmEnable => if f = 0 then (d.link l).aspm else 0
    -- the rates that the link trains at, and SRIS at each of them (R311)
    | .linkCapabilities2 => let m := 2 ^ d.get (HIF_CTRL_MAX_GEN (l / 4)) - 1; m * 2 + m * 2 ^ 9 + m * 2 ^ 16
    | .l1PmControl1 =>
        if f = 0 then (d.link l).l1pm1 + 4 * bitsOf (d.link l).aspm 2 1 + 8 * bitsOf (d.link l).aspm 1 1 else 0
    | .l1PmControl2 => if f = 0 then (d.link l).l1pm2 else 0
    | .capability c => b2n (hasCap f pf vf c)
  match r with
  | .subsystemVendorId => d.subsysId (d.hifProfile (l / 4)).ssvid
  | .subsystemId => d.subsysId (d.hifProfile (l / 4)).ssid
  | _ => (v, d)

/-- A write of a field of a function's configuration space; read-only fields ignore it. -/
def cfgWrite (d : Dev) (l f : Nat) (k : FuncKind) (r : CfgField) (v : Nat) : Dev :=
  let b := v % 2 == 1
  let pf := kindPf k
  let x := d.func l f
  match k, r with
  -- every function
  | _, .busMasterEnable => d.powerChange l f x.d3hot b
  | _, .powerState => if v % 4 = 3 then d.powerChange l f true x.bme else if v % 4 = 0 then d.powerChange l f false x.bme else d
  | _, .pmeEn => d.modFunc l f fun x => { x with pmeEn := b }
  | _, .pmeStatus => if b then d.modFunc l f fun x => { x with pmeStatus := false } else d
  | _, .serrEnable => d.modFunc l f fun x => { x with serr := b }
  | _, .errorReporting => d.modFunc l f fun x => { x with errEn := v % 16 }
  | _, .initiateFlr => if b then d.flr l f else d
  | _, .msixEnable => (d.modFunc l f fun x => { x with msixEn := b }).msixFlush l f
  | _, .msixMask => (d.modFunc l f fun x => { x with msixMask := b }).msixFlush l f
  | _, .aerUncorrStatus => d.modFunc l f fun x => { x with aerUncorr := x.aerUncorr &&& (2 ^ 32 - 1 - v) }
  | _, .aerCorrStatus => d.modFunc l f fun x => { x with aerCorr := x.aerCorr &&& (2 ^ 32 - 1 - v) }
  | _, .aerUncorrSeverity => d.modFunc l f fun x => { x with aerSev := v }
  | _, .aerUncorrMask => d.modFunc l f fun x => { x with aerUncorrMask := v }
  | _, .aerCorrMask => d.modFunc l f fun x => { x with aerCorrMask := v }
  | _, .atsEnable => if pf = 0 then d else (d.modFunc l f fun x => { x with atsEn := b }).forgetAtc l f
  -- PFs
  | .pf _, .memorySpaceEnable => d.modFunc l f fun x => { x with mse := b }
  | .pf _, .bar i => d.modFunc l f fun x =>
      if i.val < 2 then { x with bar0 := d.barPut l f i x.bar0 v } else if i.val < 4 then { x with bar2 := d.barPut l f i x.bar2 v }
      else { x with bar4 := d.barPut l f i x.bar4 v }
  | .pf _, .maxPayload => d.modFunc l f fun x => { x with mps := v % 8 }
  | .pf _, .maxReadRequest => d.modFunc l f fun x => { x with mrrs := v % 8 }
  | .pf _, .relaxedOrdering => d.modFunc l f fun x => { x with ro := b }
  | .pf _, .idOrdering => d.modFunc l f fun x => { x with ido := b }
  | .pf _, .completionTimeout => d.modFunc l f fun x => { x with cto := v % 32 }
  | .pf _, .ltrEnable => if f = 0 then (d.modLink l fun x => { x with ltrEn := b }).ltrUpdate l else d
  | .pf _, .aspmEnable => if f = 0 then d.modLink l fun x => { x with aspm := v % 8 } else d
  | .pf _, .l1PmControl1 =>
    if f = 0 then d.modLink l fun x => { x with
      l1pm1 := v &&& 0xE3FFFF03, aspm := x.aspm % 2 + 2 * bitsOf v 3 1 + 4 * bitsOf v 2 1 }
    else d
  | .pf _, .l1PmControl2 => if f = 0 then d.modLink l fun x => { x with l1pm2 := v % 256 } else d
  | .pf (_ + 1), .vfEnable =>
    let d := d.modFunc l f fun x => { x with vfEnable := b }
    if x.vfEnable && !b then (d.vfsOff l pf true).pmSync l else d
  | .pf (_ + 1), .vfMemorySpaceEnable => d.modFunc l f fun x => { x with vfMse := b }
  | .pf (_ + 1), .numVfs =>
    if x.vfEnable then d else d.modFunc l f fun x => { x with numVfs := Nat.min (v % 65536) ((d.hifProfile (l / 4)).pf pf).totalVfs }
  | .pf (_ + 1), .vfBar i =>
    let o := d.vfBase l pf
    d.modFunc l f fun x =>
      if i.val < 2 then { x with vfBar0 := d.barPut l o i x.vfBar0 v } else if i.val < 4 then { x with vfBar2 := d.barPut l o i x.vfBar2 v }
      else { x with vfBar4 := d.barPut l o i x.vfBar4 v }
  | _, _ => d

/-- A request is answered with UR (R320, R321). -/
def urReply (d : Dev) (l f : Nat) : Dev :=
  ((d.aerError l f 20 false).inc (HIF_CNT_UR_SENT (l / 4) (l % 4))).emit (.completion l 1 [])

end Dev

/-- CONFIGURATION_REQUEST (R312 to R320, R327, R440): a request to the function at offset `f` of link `l`, on bus `bus`. -/
def doConfigurationRequest (l : Fin 8) (f : Fin 2048) (bus : Fin 256) (r : CfgReq) (d : Dev) : Dev :=
  if !d.linkUp l || (d.link l).inL23 then d
  else
    let d := d.tlpOn l
    if !d.gateOpen || !d.flag (HIF_CTRL_ENABLE ((l : Nat) / 4)) then d.emit (.completion l 3 [])
    else match r with
      | .typeOne => d.urReply l 0
      | .read x =>
        match d.funcAt l f with
        | some k => if d.funcLive l f then let v := d.cfgRead l f k x; v.2.emit (.completion l 0 (leBytes 4 v.1)) else d.urReply l 0
        | none => d.urReply l 0
      | .write x v =>
        match d.funcAt l f with
        | some k =>
          if d.funcLive l f then
            let d := d.modLink l fun y => { y with bus := (bus.val + 256 - (f : Nat) / 256) % 256 }
            (d.cfgWrite l f k x v.toNat).emit (.completion l 0 [])
          else d.urReply l 0
        | none => d.urReply l 0

end Sys2Proof.Machine
end

