-- ==== Sys2Proof/Machine/BootBase.lean ====
section
/-!
DEFINITION. The flash die, images, profiles, the boot control record and the boot-attempt log (R433, R436 to R438, R443, R445,
R449).
-/

namespace Sys2Proof.Machine

/-- Results of R437 and R448 (BOOT_FLASH_STATUS). -/
def btOk : Nat := 0x00
def btBadIndex : Nat := 0x06
def btBadState : Nat := 0x10
def btImageBad : Nat := 0x14
def btIoFail : Nat := 0x17
def btSigFail : Nat := 0x40
def btRollback : Nat := 0x41
def btKeySlot : Nat := 0x42
def btGated : Nat := 0x43
def btFlashErr : Nat := 0x44
def btDigest : Nat := 0x45
def btBadProfile : Nat := 0x46

/-- Flash addresses (R433). -/
def slotBase (s : Nat) : Nat := if s = 0 then 0 else 0x1800000
def slotSize : Nat := 0x1800000
def profileBase (p : Nat) : Nat := 0x3000000 + p * 0x10000
def recordBase : Nat := 0x3040000
def logBase : Nat := 0x3041000
def certBase : Nat := 0x3050000

/-- A reader of bytes: offset, length. -/
abbrev ByteSrc := Nat → Nat → List Byte

/-- Whether a range holds zeros only. -/
def zerosAt (rd : ByteSrc) (o n : Nat) : Bool := (rd o n).all (· == 0#8)

/-- Whether two of some ranges meet. -/
def anyMeet : List (Nat × Nat) → Bool
  | [] => false
  | r :: rs => rs.any (Dev.rangesMeet r) || anyMeet rs

/-! ### Images (R436 to R438) -/

/-- Segment entry `i`. -/
def segAt (rd : ByteSrc) (i : Nat) : Segment :=
  let e := rd (64 + 68 * i) 68
  { type := fieldLE e 0 1, target := fieldLE e 1 1, offset := fieldLE e 4 4, length := fieldLE e 8 4, load := fieldLE e 12 8
    digest := sliceB e 20 48 }

/-- A segment that is loaded to its HBM address: all but PARSE. -/
def Segment.toHbm (s : Segment) : Bool := s.type != 3

/-- The rules of R438 over the segments of an image of `len` bytes. -/
def segsOk (segs : List Segment) (len : Nat) : Bool :=
  let one := fun (s : Segment) (i : Nat) =>
    s.offset % 4096 == 0 && decide (16384 ≤ s.offset) && decide (s.offset + s.length ≤ len) &&
    match s.type with
    | 1 => i == 0 && s.target == 0 && decide (s.length ≤ 8 * 2 ^ 20) && s.load % 2 == 0
    | 2 => decide (s.target < 16) && s.load % 2 == 0
    | 3 => s.length % 4 == 0 && decide (s.length / 4 + s.load % 4096 ≤ 4096)
    | 4 => s.target == 0
    | _ => false
  let named := fun (typ bit : Nat) => (segs.filter fun s => s.type == typ && bitOf s.target bit).length == 1
  (segs.zipIdx.all fun (s, i) => one s i) && (segs.head?.map (·.type)) == some 1 &&
    ((List.range 4).all fun q => named 2 q) && ((List.range 8).all fun k => named 3 k) &&
    !anyMeet (segs.map fun s => (s.offset, s.length)) &&
    ((segs.filter Segment.toHbm).all fun s => decide (s.load + s.length ≤ hbmSize)) &&
    !anyMeet ((segs.filter Segment.toHbm).map fun s => (s.load, s.length))

/-- The structure check of an image (R437): its header, if it passes. -/
def imageHdr (rd : ByteSrc) : Option ImageHdr :=
  let u := fun o n => leNat (rd o n)
  if u 0 8 ≠ 0x54534F4C474D4448 ∨ u 8 2 ≠ 1 ∨ u 10 2 ≠ 16384 then none
  else
    let len := u 12 4
    let n := u 22 2
    if len % 4096 ≠ 0 ∨ 25165824 < len ∨ len < 16384 ∨ n = 0 ∨ 32 < n then none
    else if !zerosAt rd 24 40 || !zerosAt rd (64 + 68 * n) (4096 - 64 - 68 * n) || !zerosAt rd 11507 4877 ||
        !((List.range n).all fun i => zerosAt rd (64 + 68 * i + 2) 2) then none
    else
      let segs := (List.range n).map (segAt rd)
      if segsOk segs len then some { length := len, version := u 16 4, svn := u 20 1, keySlot := u 21 1, segs := segs } else none

/-- The check of an image's keys against its fuse slot (R437). -/
def keySlotBad (f : Fuses) (rd : ByteSrc) (h : ImageHdr) : Bool :=
  let dg := f.digests.getD h.keySlot []
  dg.all (· == 0#8) || f.revoked.getD h.keySlot false || sha384 (rd 4096 2688) != dg

/-- "HDM-GLOST-IMAGE-1". -/
def imageContext : List Byte :=
  [0x48, 0x44, 0x4D, 0x2D, 0x47, 0x4C, 0x4F, 0x53, 0x54, 0x2D, 0x49, 0x4D, 0x41, 0x47, 0x45, 0x2D, 0x31].map (BitVec.ofNat 8)

/-- Both signatures of an image over its bytes 0–4,095 (R436). -/
def sigsOk (rd : ByteSrc) : Bool :=
  let tbs := rd 0 4096
  let ec := rd 4096 96
  let s1 := rd 6784 96
  let r := beNat (s1.take 48)
  let s := beNat (s1.drop 48)
  let ecOk := (pointCheck p384 ec).isNone && (scalarCheck r p384.n).isNone && (scalarCheck s p384.n).isNone &&
    p384.ecdsaOk (beNat (ec.take 48), beNat (ec.drop 48)) r s (sha384 tbs)
  let p := dsaOf 10
  let s2 := rd 6880 4627
  let dsaOk := match p.unpackHint (s2.drop (p.cLen + 640 * p.l)) with
    | none => false
    | some h => p.verify (rd 4192 2592) s2 imageContext tbs h
  ecOk && dsaOk

/-- Whether a segment's digest matches. -/
def segOk (rd : ByteSrc) (s : Segment) : Bool := sha384 (rd s.offset s.length) == s.digest

/-- The checks of R437 over a whole image, in their order. -/
def imageCheck (f : Fuses) (rd : ByteSrc) : Nat :=
  match imageHdr rd with
  | none => btImageBad
  | some h =>
    if keySlotBad f rd h then btKeySlot
    else if h.svn < f.rollback then btRollback
    else if !sigsOk rd then btSigFail
    else if h.segs.all (segOk rd) then btOk else btDigest

/-! ### Profiles (R449) -/

/-- The function section of a controller. -/
def hifSection (b : List Byte) (n : Nat) : HifProfile :=
  let w := fun i => fieldLE b (64 + 32 * n + 4 * i) 4
  let pf := fun i => (⟨bitOf (w 0) i, bitsOf (w 0) (2 + 2 * i) 2 == 1,
    if i = 1 then bitsOf (w 1) 0 16 else if i = 2 then bitsOf (w 1) 16 16 else bitsOf (w 2) 0 16, bitsOf (w 2) (12 + 4 * i) 4,
    (if i = 1 then bitsOf (w 3) 0 11 else if i = 2 then bitsOf (w 3) 11 11 else bitsOf (w 4) 0 11) + 1⟩ : PfProfile)
  { regPath := n == 1 && bitOf (w 0) 0, pf1 := pf 1, pf2 := pf 2, pf3 := pf 3, vfMsix := bitsOf (w 4) 11 8 + 1
    ssvid := some (bitsOf (w 5) 0 16), ssid := some (bitsOf (w 5) 16 16) }

def HifProfile.consistent (h : HifProfile) : Bool :=
  decide (h.pf1.totalVfs + h.pf2.totalVfs + h.pf3.totalVfs ≤ 1024) &&
    [h.pf1, h.pf2, h.pf3].all fun p => decide (4 ≤ p.dbLog2) && decide (p.dbLog2 ≤ 12)

/-- A preload MASK covers RW and RWL fields only. -/
def Preload.ok (e : Preload) : Bool :=
  match regAt e.offset with
  | none => e.mask == 0
  | some (_, r) =>
    let open_ := r.fields.foldl (fun m f => if f.acc == .rw || f.acc == .rwl then m ||| ((2 ^ f.width - 1) * 2 ^ f.lo) else m) 0
    (e.mask &&& (2 ^ 32 - 1 - open_)) == 0

/-- The resources behind the eight pools. -/
def poolLimits : List Nat := [8192, 65536, 65536, 1048576, 49152, 1024, 4096, 1048576]

/-- A profile read from 64 KiB of flash or of a write, if it is valid (R449). -/
def parseProfile (rd : ByteSrc) : Option Profile :=
  let u := fun o n => leNat (rd o n)
  let n := u 10 2
  let len := 256 + 16 * n + 48
  if u 0 8 ≠ 0x4C464F52504D4448 ∨ u 8 2 ≠ 1 ∨ 4077 < n ∨ u 12 4 ≠ len ∨ u 16 8 ≠ 0 then none
  else if sha384 (rd 0 (len - 48)) ≠ rd (len - 48) 48 then none
  else
    let b := rd 0 256
    let pre := (List.range n).map fun i =>
      let e := rd (256 + 16 * i) 16
      (⟨busKey (fieldLE e 0 4), fieldLE e 4 4, fieldLE e 8 4⟩ : Preload)
    let pools := (List.range 8).map fun i => (fieldLE b (128 + 8 * i) 4, fieldLE b (132 + 8 * i) 4)
    let p : Profile :=
      { hif0 := hifSection b 0, hif1 := hifSection b 1, pools := pools
        rsvBase := fieldLE b 192 4, rsvCount := fieldLE b 196 4, oobEn := bitOf (fieldLE b 200 4) 0
        mgmtFec := bitsOf (fieldLE b 200 4) 1 2, preload := pre }
    let d := pre.foldl Dev.applyPreload Dev.reset
    let gib := 2 ^ 30
    let regions := [(let r := p.pools.getD 4 (0, 0); (r.1 * 2 ^ 21, r.2 * 2 ^ 21)), (p.rsvBase * 2 ^ 21, p.rsvCount * 2 ^ 21),
      (d.kcBase, 2 ^ 28), (d.get BUF_SPILL_BASE_GIB * gib, d.get BUF_SPILL_SIZE_GIB * gib)]
    if pre.all Preload.ok && p.hif0.consistent && p.hif1.consistent &&
        ((p.pools.zip poolLimits).all fun (r, m) => decide (r.1 + r.2 ≤ m)) && !anyMeet regions then some p
    else none

/-! ### The boot control record and the log (R445) -/

/-- The boot control record. -/
structure BootRecord where
  seq : Nat
  preferred : Nat
  trial : Nat
  deriving DecidableEq, Repr

/-- A copy of the record, if its CRC is right. -/
def recordOf (b : List Byte) : Option BootRecord :=
  if crc32c 0xFFFFFFFF#32 (b.take 60) = BitVec.ofNat 32 (fieldLE b 60 4) then
    some ⟨fieldLE b 0 4, fieldLE b 4 1 % 2, if fieldLE b 5 1 ≤ 2 then fieldLE b 5 1 else 0⟩
  else none

/-- A structure with the CRC-32C of its bytes behind it. -/
def withCrc (b : List Byte) : List Byte := b ++ leBytes 4 (crc32c 0xFFFFFFFF#32 b).toNat

namespace Dev

def setBoot (d : Dev) (f : BootState → BootState) : Dev := { d with boot := f d.boot }

/-- A byte of flash: erased reads as 0xFF (R433). -/
def flashByte (d : Dev) (a : Nat) : Byte := tabGet (fun _ => 0xFF#8) d.boot.flash a
def flashRead (d : Dev) (a n : Nat) : List Byte := (List.range n).map fun i => d.flashByte (a + i)
def flashErase (d : Dev) (a n : Nat) : Dev :=
  d.setBoot fun b => { b with flash := b.flash.filter fun kv => !(decide (a ≤ kv.1) && decide (kv.1 < a + n)) }
def flashWrite (d : Dev) (a : Nat) (bs : List Byte) : Dev :=
  d.setBoot fun b => { b with flash := bs.zipIdx.foldl (fun t x => tabSet (fun _ => 0xFF#8) t (a + x.2) x.1) b.flash }

/-- The bytes of image `s`: a flash slot, or the recovery buffer. -/
def imageSrc (d : Dev) (s : Nat) : ByteSrc := fun o n =>
  if s = 2 then sliceB d.boot.recovery o n else d.flashRead (slotBase s + o) n

/-- The copy in use of the boot control record, and the record; without a valid copy A is preferred and nothing tried. -/
def bootRecord (d : Dev) : Option Nat × BootRecord :=
  match recordOf (d.flashRead recordBase 64), recordOf (d.flashRead (recordBase + 64) 64) with
  | some a, some b => if a.seq < b.seq then (some 1, b) else (some 0, a)
  | some a, none => (some 0, a)
  | none, some b => (some 1, b)
  | none, none => (none, ⟨0, 0, 0⟩)

/-- Writes an update of the record to the other copy, with SEQ + 1; the first SEQ of all is open. -/
def writeRecord (d : Dev) (preferred trial : Nat) : Dev :=
  let (at_, r) := d.bootRecord
  let (x, d) := d.free
  let seq := if at_.isSome then r.seq + 1 else x
  let bs := withCrc (leBytes 4 seq ++ [BitVec.ofNat 8 preferred, BitVec.ofNat 8 trial] ++ List.replicate 54 0#8)
  d.flashWrite (recordBase + if at_ = some 0 then 64 else 0) bs

/-- The valid entries of the boot-attempt log: place and SEQ. -/
def logEntries (d : Dev) : List (Nat × Nat) :=
  (List.range 256).filterMap fun i =>
    let b := d.flashRead (logBase + 32 * i) 32
    if b.all (· == 0xFF#8) then none
    else if crc32c 0xFFFFFFFF#32 (b.take 28) = BitVec.ofNat 32 (fieldLE b 28 4) then some (i, fieldLE b 0 4) else none

/-- Appends a log entry (R445): behind the one with the highest SEQ; the SEQ of the first is open. -/
def appendLog (d : Dev) (cause image result stage tVerified : Nat) (h : ImageHdr) : Dev :=
  let last := d.logEntries.foldl (fun m e => match m with
    | none => some e
    | some x => if x.2 < e.2 then some e else m) (none : Option (Nat × Nat))
  let (x, d) := d.free
  let (pos, seq) := match last with
    | some (i, s) => ((i + 1) % 256, s + 1)
    | none => (0, x)
  let prof := d.get BOOT_STATUS_PROFILE + 128 * d.get BOOT_STATUS_PROFILE_ROM
  let bs := leBytes 4 seq ++ [cause, image, prof, result, h.svn, h.keySlot, stage, 0].map (BitVec.ofNat 8) ++ leBytes 4 tVerified ++
    leBytes 4 h.version ++ List.replicate 8 0#8
  d.flashWrite (logBase + 32 * pos) (withCrc bs)

/-- A package reset cuts the flash or fuse operation that runs (R443, R448): a slot or profile being written is left invalid,
and a raise leaves a count between the old value and the new. -/
def cutFlash (d : Dev) : Dev :=
  match d.boot.flashOp with
  | some (1, _, slot, _, _) => d.flashErase (slotBase slot) slotSize
  | some (2, _, slot, _, _) => d.flashErase (profileBase slot) 0x10000
  | some (6, _, _, _, len) =>
    let (x, d) := d.free
    let old := d.boot.fuses.rollback
    d.setBoot fun b => { b with fuses := { b.fuses with rollback := old + x % (len - old + 1) } }
  | _ => d

end Dev
end Sys2Proof.Machine
end

