-- ==== Sys2Proof/Machine/ResetOps.lean ====
section
/-!
DEFINITION. The package resets (R427 to R431) and what follows from the supplies, the clocks and the cones (R420, R421, R425,
R489, R495 to R498).
-/

namespace Sys2Proof.Machine

/-- Causes of a package reset (RST_CAUSE). -/
def causePor : Nat := 1
def causeMain : Nat := 2
def causeWarm : Nat := 3
def causeFatal : Nat := 4
def causeI3c : Nat := 5

/-- The order in which causes of one AON cycle are recorded (R431). -/
def causeRank : Nat → Nat
  | 4 => 3 | 5 => 2 | 3 => 1 | _ => 0

/-- The registers that are AON-held as a whole (R427); of RAS_STATUS only FATAL_PRIOR is. -/
def aonHeld (a : Nat) : Bool :=
  a == RST_CAUSE || a == RST_WARM_COUNT || a == BOOT_PROFILE_NEXT || (decide (RAS_FATAL_REC 0 ≤ a) && decide (a < RAS_FATAL_REC 8)) ||
    (decide (RAS_HBM_RETIRED 0 ≤ a) && decide (a < RAS_HBM_RETIRED 4)) || a == RAS_KILN_RETIRED_LO || a == RAS_KILN_RETIRED_HI

/-- What a cold reset keeps: BOOT_PROFILE_NEXT and RST_WARM_COUNT it clears. -/
def coldKeeps (a : Nat) : Bool := aonHeld a && a != BOOT_PROFILE_NEXT && a != RST_WARM_COUNT

/-- What a warm reset keeps: the AON-held registers, and those that reset at package cold reset only: the CLK and TIME windows,
the cone registers, and the instruction memories (R101). -/
def warmKeeps (a : Nat) : Bool :=
  aonHeld a || (decide (0x10000 ≤ a) && decide (a < 0x20000)) || (decide (0x50000 ≤ a) && decide (a < 0x60000)) ||
    (decide (0x43000 ≤ a) && decide (a < 0x43300)) ||
    (decide (0x200000 ≤ a) && decide (a < 0x300000) && decide (0x10000 ≤ a % 0x20000) && decide (a % 0x20000 < 0x14000))

namespace Dev

/-- The read view of the fuses (R443). -/
def syncFuses (d : Dev) : Dev :=
  let f := d.boot.fuses
  let bits := fun (p : Nat → Bool) => ((List.range 4).map fun k => b2n (p k) * 2 ^ k).sum
  let d := d.put BOOT_FUSE_STATUS_SLOT_PROG (bits fun k => (f.digests.getD k []).any (· != 0#8))
  let d := d.put BOOT_FUSE_STATUS_SLOT_REVOKED (bits fun k => f.revoked.getD k false)
  let d := (d.put BOOT_FUSE_STATUS_MFG_LOCK (b2n f.mfgLock)).put BOOT_FUSE_STATUS_ROLLBACK f.rollback
  let d := (List.range 4).foldl (fun d k => (List.range 12).foldl (fun d w =>
    d.put (BOOT_KEY_DIGEST_DIGEST k w) (fieldLE (f.digests.getD k []) (4 * w) 4)) d) d
  let d := (List.range 36).foldl (fun d p =>
    if f.kilns.contains p then d.put ⟨if p < 32 then RAS_KILN_RETIRED_LO else RAS_KILN_RETIRED_HI, p % 32, 1⟩ 1 else d) d
  (d.put BOOT_DEVNUM_LO_NUMBER (f.devnum % 2 ^ 32)).put BOOT_DEVNUM_HI_NUMBER (f.devnum / 2 ^ 32)

/-- The state after a package reset: the registers that `keep` names keep their values, and so do the fuses, the flash, the
strap and reset pins and the AON-held state; the HBM's contents are lost (R427, R429). -/
def resetBase (d : Dev) (keep : Nat → Bool) : Dev :=
  let d := d.cutFlash
  let x := { Dev.reset with
    fresh := d.fresh, out := d.out
    reg := { RegState.reset with
      regs := d.reg.regs.filter fun kv => keep kv.1
      cnt := d.reg.cnt.filter fun kv => keep kv.1
      latch := d.reg.latch.filter fun kv => keep kv.1 }
    mem := { hbm := [], era := d.mem.era + 1, poison := [], modified := [] }
    hif := { HifState.reset with perst := d.hif.perst }
    parse := if keep (PL_IMEM 0 0) then
        (d.parse.filter fun (kv : Nat × ParseState) => !kv.2.imemBad.isEmpty).map fun (kv : Nat × ParseState) =>
          (kv.1, { ParseState.reset with imemBad := kv.2.imemBad })
      else []
    boot := { BootState.reset with
      flash := d.boot.flash, fuses := d.boot.fuses, profileSel := d.boot.profileSel, powered := d.boot.powered,
      lastProfile := d.boot.lastProfile }
    pkg := { PkgState.reset with
      standby := d.pkg.standby, porPending := d.pkg.porPending, oscBad := d.pkg.oscBad, lastWarm := d.pkg.lastWarm, trip := d.pkg.trip } }
  let x := (x.put RAS_STATUS_FATAL_PRIOR (d.get RAS_STATUS_FATAL_PRIOR)).syncFuses
  if d.hif.wake.isEmpty then x else x.emit (.pin .wakeN true)

/-- A package warm reset (R427 to R429, R431): triggers of one AON cycle make one reset, whose cause is the first of them in
the order of R431. -/
def warmReset (d : Dev) (cause : Nat) : Dev :=
  let aon := d.cycle * 5 / 96
  let prior := fun (d : Dev) => if cause = causeFatal then d.put RAS_STATUS_FATAL_PRIOR 1 else d
  if d.pkg.lastWarm = some aon then
    prior (if causeRank (d.get RST_CAUSE_CAUSE) < causeRank cause then d.put RST_CAUSE_CAUSE cause else d)
  else
    let x := d.resetBase warmKeeps
    let x := { x with
      cycle := d.cycle, time := d.time
      tbl := { x.tbl with scrubAt := d.cycle }
      boot := { x.boot with since := d.cycle }
      pkg := { x.pkg with
        severed := [.time, .aon], lastWarm := some aon, cones := d.pkg.cones, warned := d.pkg.warned, sums := d.pkg.sums } }
    let x := (List.range 6).foldl (fun x i => x.put ⟨CLK_PLL_STATUS, i + 1, 1⟩ 0) x
    prior ((x.put RST_CAUSE_CAUSE cause).put RST_WARM_COUNT_COUNT (satAdd 16 (d.get RST_WARM_COUNT_COUNT) 1))

/-- A fatal error: its record is latched, then the device starts a warm reset (R456). -/
def fatal (d : Dev) (e : RasErr) : Dev := (d.rasError e).warmReset causeFatal

/-- A package cold reset (R427); the clock of the model starts again. -/
def coldReset (d : Dev) (cause : Nat) : Dev :=
  let x := d.resetBase coldKeeps
  let x := ({ x with pkg := { x.pkg with severed := [.aon], lastWarm := none } }).put RST_CAUSE_CAUSE cause
  if d.pkg.oscBad then x.put CLK_PLL_STATUS_OSC_OK 0 else x

/-- The standby power-on reset: fuses and flash contents stay (R427). -/
def porReset (d : Dev) (standby : Bool) : Dev :=
  let x := d.resetBase fun _ => false
  { x with
    boot := { x.boot with powered := false }
    pkg := { PkgState.reset with standby := standby, porPending := true } }.put RAS_STATUS_FATAL_PRIOR 0

/-! ### Cones (R495 to R498) -/

def cone (d : Dev) (c : Nat) : Cone := tabGet (fun _ => .reset) d.pkg.cones c
def modCone (d : Dev) (c : Nat) (f : Cone → Cone) : Dev :=
  { d with pkg := { d.pkg with cones := tabMod (fun _ => .reset) d.pkg.cones c f } }

/-- The die of a cone (R496). -/
def coneDie (c : Nat) : Nat := if c < 18 then 0 else if c < 36 then 1 else 2

/-- The valid cones that have been read, with their readings. -/
def coneReads (d : Dev) : List (Nat × Int) :=
  (List.range 60).filterMap fun c =>
    if d.flag (RAS_CONE_TEMP_VALID c) then some (c, signedOf 16 (d.get (RAS_CONE_TEMP_TEMP c))) else none

/-- The hottest of some cones, the lowest-numbered of equals. -/
def hottest (cs : List (Nat × Int)) : Option (Nat × Int) :=
  cs.foldl (fun m c => match m with | none => some c | some x => if x.2 < c.2 then some c else m) none

/-- RAS_CONE_HOT and RAS_CONE_MARGIN follow the cones (R498). -/
def syncCones (d : Dev) : Dev :=
  let d := match hottest d.coneReads with
    | none => d.put RAS_CONE_HOT_VALID 0
    | some (c, t) => ((d.put RAS_CONE_HOT_VALID 1).put RAS_CONE_HOT_CONE c).put RAS_CONE_HOT_TEMP (ofSigned 16 t)
  let ms := (List.range 60).filterMap fun c =>
    if d.flag (RAS_CONE_WEAR_VALID c) then some (c, -(d.get (RAS_CONE_WEAR_MARGIN c) : Int)) else none
  match hottest ms with
  | none => d.put RAS_CONE_MARGIN_VALID 0
  | some (c, m) => ((d.put RAS_CONE_MARGIN_VALID 1).put RAS_CONE_MARGIN_CONE c).put RAS_CONE_MARGIN_MARGIN (-m).toNat

/-- A cone becomes invalid until package cold reset (R498). -/
def coneFails (d : Dev) (c : Nat) : Dev :=
  if (d.cone c).bad then d
  else
    let d := ((d.modCone c fun x => { x with bad := true }).put (RAS_CONE_TEMP_VALID c) 0).put (RAS_CONE_WEAR_VALID c) 0
    d.rasError (.of 0x1C (coneDie c) .ce c)

/-- A thermal trip (R495): the record, THERMTRIP_N low, a warm reset. During a boot it merges with that boot, which it
holds. -/
def thermalTrip (d : Dev) (die loc : Nat) : Dev :=
  if d.pkg.trip then d
  else
    let d := d.rasError (.of 0x1C die .fatal loc)
    let d := { d with pkg := { d.pkg with trip := true } }.emit (.pin .thermtripN false)
    if d.flag BOOT_STATUS_VERIFIED then d.warmReset causeFatal else d.put RAS_STATUS_FATAL_PRIOR 1

/-- RAS_CONE_AVG follows the hours since package cold reset; how the mean is rounded the manual does not say. -/
def coneHours (d : Dev) (die : Nat) : Dev :=
  let h := Nat.min 65535 (d.cycle / (3600 * cyS))
  let (sum, n) := tabGet (fun _ => ((0 : Int), 0)) d.pkg.sums die
  if h ≤ d.get (RAS_CONE_AVG_HOURS die) ∨ n = 0 then d
  else
    let (up, d) := d.free
    let m := sum / n + if sum % n = 0 then 0 else ((up % 2 : Nat) : Int)
    (d.put (RAS_CONE_AVG_HOURS die) h).put (RAS_CONE_AVG_TEMP die) (ofSigned 16 m)

end Dev

namespace Dev

/-- Every cone takes its reading up (R497, R498): one that is out of line for ten of them fails. -/
def conesRead (d : Dev) (temps : List (BitVec 16)) (odd : List Bool) : Dev :=
  ((List.range 60).foldl (fun d c =>
    let t := (temps.getD c 0#16).toInt
    let d := d.modCone c fun x => { x with
      hot := if 920 ≤ t then x.hot + 1 else 0, off := if odd.getD c false then x.off + 1 else 0 }
    let d := d.put (RAS_CONE_TEMP_TEMP c) (temps.getD c 0#16).toNat
    if (d.cone c).bad then d
    else
      let d := d.put (RAS_CONE_TEMP_VALID c) 1
      if 10 ≤ (d.cone c).off then d.coneFails c else d) d).syncCones

/-- The hottest valid cone of each die enters the die's average (R498). -/
def conesSum (d : Dev) : Dev :=
  [0, 1, 2].foldl (fun d die =>
    match hottest (d.coneReads.filter fun x => coneDie x.1 == die) with
    | none => d
    | some (_, t) =>
      ({ d with pkg := { d.pkg with sums := tabMod (fun _ => ((0 : Int), 0)) d.pkg.sums die fun x => (x.1 + t, x.2 + 1) } }).coneHours die) d

/-- The warning of TEMP_WARN, which falls away 2 °C below it (R495). -/
def conesWarn (d : Dev) : Dev :=
  let warn := signedOf 16 (d.get RAS_CONE_CFG_TEMP_WARN)
  match hottest d.coneReads with
  | none => d
  | some (c, t) =>
    if warn ≤ t then
      if d.pkg.warned then d
      else
        let d := { d with pkg := { d.pkg with warned := true } }.setEvent RAS_CONE_EVENT_TEMP_WARN
        d.rasError { RasErr.of 0x1C (coneDie c) .ce 0 with info := ofSigned 16 t }
    else if t ≤ warn - 16 then { d with pkg := { d.pkg with warned := false } } else d

end Dev

/-- CONE_TEMP_READING (R495, R497, R498): every cone reads its temperature, in units of 0.125 °C; `odd` says of each cone
whether it differs from every neighbouring cone on its die by more than 10 °C (notes/assumptions/33). -/
def doConeTempReading (temps : List (BitVec 16)) (odd : List Bool) (d : Dev) : Dev :=
  if !d.boot.powered || !d.pkg.standby then d
  else
    let d := (d.conesRead temps odd).conesSum.conesWarn
    match d.coneReads.find? fun x => decide (3 ≤ (d.cone x.1).hot) with
    | some (c, _) => d.thermalTrip (Dev.coneDie c) c
    | none => d

/-- ANALOG_THERMAL_TRIP (R495): the detector on a die reaches 120 °C; no cone is named, so LOCATION is open. -/
def doAnalogThermalTrip (die : Fin 3) (d : Dev) : Dev :=
  if d.alive then let r := d.free; r.2.thermalTrip die (r.1 % 2 ^ 64) else d

/-- THERMTRIP_RELEASE (R495): BISQUE waits, and every valid cone reads below 95 °C. -/
def doThermtripRelease (d : Dev) : Dev :=
  if d.alive && d.pkg.trip && d.boot.started && (d.coneReads.all fun x => decide (x.2 < 760)) then
    { d with pkg := { d.pkg with trip := false } }.emit (.pin .thermtripN true)
  else d

namespace Dev

/-- Every cone's wear is taken up (R497); none for a cone whose oscillators fail to count. -/
def wearRead (d : Dev) (shifts : List (Option Nat)) : Dev :=
  ((List.range 60).foldl (fun d c =>
    match shifts.getD c none with
    | none => d.coneFails c
    | some x =>
      let d := (d.put (RAS_CONE_WEAR_SHIFT c) (Nat.min 8191 x)).put (RAS_CONE_WEAR_MARGIN c) (1000 * (4000 - x) / 4000)
      if (d.cone c).bad then d else d.put (RAS_CONE_WEAR_VALID c) 1) d).syncCones

/-- The first valid cone whose wear has reached a limit. -/
def wornCone (d : Dev) (limit : Nat) : Option Nat :=
  (List.range 60).find? fun c => d.flag (RAS_CONE_WEAR_VALID c) && decide (limit ≤ d.get (RAS_CONE_WEAR_SHIFT c))

/-- A limit that no cone had reached `before` is noted by the event `f`, and recorded. -/
def wearJudge (d before : Dev) (limit : Nat) (f : Fld) : Dev :=
  match d.wornCone limit with
  | none => d
  | some c =>
    if (before.wornCone limit).isSome then d
    else (d.setEvent f).rasError { RasErr.of 0x1C (coneDie c) .ce 0 with info := d.get (RAS_CONE_WEAR_SHIFT c) }

end Dev

/-- CONE_WEAR_MEASURE (R497, R498): every cone's SHIFT in units of 0.001 %. A limit is reached when a valid cone is first found at
it. -/
def doConeWearMeasure (shifts : List (Option Nat)) (d : Dev) : Dev :=
  if !d.boot.powered || !d.pkg.standby then d
  else ((d.wearRead shifts).wearJudge d 3200 RAS_CONE_EVENT_WEAR_WARN).wearJudge d 4000 RAS_CONE_EVENT_WEAR_LIMIT

/-! ### Supplies (R489) -/

/-- STANDBY_POWER_ON (R427, R489). -/
def doStandbyPowerOn (d : Dev) : Dev := if d.pkg.standby then d else d.porReset true

/-- MAIN_POWER_GOOD (R427, R489): MAIN_PG rises; `sel` is PROFILE_SEL[1:0]. -/
def doMainPowerGood (sel : Fin 4) (d : Dev) : Dev :=
  if !d.pkg.standby || d.boot.powered then d
  else
    let x := d.coldReset (if d.pkg.porPending then causePor else causeMain)
    { x with boot := { x.boot with powered := true, profileSel := sel }, pkg := { x.pkg with porPending := false } }.emit (.pin .mainPg true)

namespace Dev

/-- Main power is lost: package cold reset until it returns (R427, R489). -/
def mainLost (d : Dev) : Dev :=
  if !d.pkg.standby || !d.boot.powered then d
  else
    let x := d.coldReset causeMain
    { x with boot := { x.boot with powered := false } }.emit (.pin .mainPg false)

end Dev

/-- MAIN_UNDERVOLTAGE (R427, R431, R489). -/
def doMainUndervoltage (d : Dev) : Dev := d.mainLost

/-- MAIN_OVERVOLTAGE (R489): the regulators shut down; everything but AON is held in reset until the supply is back and MAIN_PG
rises. -/
def doMainOvervoltage (d : Dev) : Dev := d.mainLost

/-- VSTBY_LOSS (R489): everything stops, MAIN_PG falls. -/
def doVstbyLoss (d : Dev) : Dev :=
  if !d.pkg.standby then d
  else if d.boot.powered then (d.porReset false).emit (.pin .mainPg false) else d.porReset false

/-! ### Clocks (R420, R421, R425) -/

/-- PLL_LOCK_LOSS (R421): the PLL of CLK_PLL_STATUS bit `i` loses lock. -/
def doPllLockLoss (i : Fin 8) (d : Dev) : Dev :=
  let lock : Fld := ⟨CLK_PLL_STATUS, i, 1⟩
  if i = 0 ∨ d.flag lock = false then d
  else
    let d := ((d.put lock 0).setEvent ⟨CLK_PLL_EVENT, i, 1⟩).inc CLK_CNT_PLL_LOSS
    if i < 6 then d.fatal (.of 0x19 i .fatal 0)
    else
      let d := d.rasError (.of 0x19 i .uc 0)
      if i = 6 then
        (d.linksOf 0 ++ d.linksOf 1).foldl (fun d l => (d.inc (HIF_CNT_UNCORR_ERR (l / 4) (l % 4))).freezeLink l 7) d
      else (d.put TIME_SYNC_STATE 0).applyLoss d.cycle

/-- PLL_RELOCK (R421, R434): a PLL locks, the first time after a reset or again. -/
def doPllRelock (i : Fin 8) (d : Dev) : Dev := if i = 0 then d else d.put ⟨CLK_PLL_STATUS, i, 1⟩ 1

/-- OSC_FAIL (R421): every domain but AON is held in reset, and no output is driven. The monitor runs on standby (R427). -/
def doOscFail (d : Dev) : Dev :=
  if !d.pkg.standby || d.pkg.oscBad then d
  else
    let x := d.resetBase warmKeeps
    let x := { x with pkg := { x.pkg with oscBad := true, severed := [.aon], cones := d.pkg.cones, warned := d.pkg.warned, sums := d.pkg.sums } }
    let x := { x with reg := { x.reg with regs := x.reg.regs.filter fun kv => !(decide (0x50000 ≤ kv.1) && decide (kv.1 < 0x60000)) } }
    let x := (List.range 7).foldl (fun x i => x.put ⟨CLK_PLL_STATUS, i + 1, 1⟩ 0) x
    (x.put CLK_PLL_STATUS_OSC_OK 0).setEvent CLK_PLL_EVENT_OSC_FAIL

/-! ### Warm reset by command (R429, R446) -/

/-- WARM (R429): RST_CTRL.WARM with KEY = 0xA5. -/
def doRstWarm (_p : Path) (data : W32) (d : Dev) : Dev :=
  if fieldGet data 31 1 = 1 ∧ fieldGet data 0 8 = 0xA5 then d.warmReset causeWarm else d

/-- WARM_RESET (R446): the I3C command with its key byte, in every state in which standby is good. -/
def doI3cWarmReset (key : Byte) (d : Dev) : Dev := if d.pkg.standby && key == 0xA5#8 then d.warmReset causeI3c else d

/-- CONES (R498): 8 bytes, in every state in which standby is good. -/
def doI3cCones (d : Dev) : Dev :=
  if d.pkg.standby then d.emit (.i3c (leBytes 4 (d.rd RAS_CONE_HOT).toNat ++ leBytes 4 (d.rd RAS_CONE_MARGIN).toNat)) else d

/-- STATUS (R446): 16 bytes, in every state in which standby is good. -/
def doI3cStatus (d : Dev) : Dev :=
  if d.pkg.standby then
    d.emit (.i3c ([BOOT_STATUS, RST_CAUSE, RST_WARM_COUNT, BOOT_FUSE_STATUS].flatMap fun a => leBytes 4 (d.rd a).toNat))
  else d

end Sys2Proof.Machine
end

