-- ==== Sys2Proof/Machine/BootOps.lean ====
section
/-!
DEFINITION. Flash and fuse operations of the manager (R448) and the I3C recovery commands (R446).
-/

namespace Sys2Proof.Machine
namespace Dev

/-- The end of a flash or fuse operation (R448). -/
def flashEnd (d : Dev) (result : Nat) : Dev :=
  let d := d.setBoot fun b => { b with flashOp := none }
  ((d.put BOOT_FLASH_STATUS_BUSY 0).setEvent BOOT_FLASH_STATUS_DONE).put BOOT_FLASH_STATUS_RESULT result

/-- The Tearell address of a flash operation. -/
def flashAddr (d : Dev) : Nat := d.get BOOT_FLASH_ADDR_LO_ADDR + d.get BOOT_FLASH_ADDR_HI_ADDR * 2 ^ 32

/-- Whether an operation's data can move: over a running manager EVENT channel, to an address inside its rights. -/
def flashPath (d : Dev) (g a n : Nat) : Bool := d.eventChan g && d.engRuns (g / 256) && d.tAllowed g a n

/-- How many bytes an operation moves at its address. -/
def flashBytes (op len : Nat) : Nat :=
  match op with
  | 1 => len | 2 => Nat.min len 65536 | 5 => 6899 | 8 => 8192 | _ => 0

/-- An operation that its table row refuses: the RESULT (R448). -/
def flashRefusal (d : Dev) (op slot len : Nat) : Option Nat :=
  let run := d.get BOOT_STATUS_IMAGE
  match op with
  | 1 => if 1 < slot then some btBadIndex else if slot = run then some btBadState else if slotSize < len then some btImageBad else none
  | 3 =>
    if 1 < slot then some btBadIndex
    else if imageCheck d.boot.fuses (d.imageSrc slot) ≠ btOk then some btBadState else none
  | 4 => if run = 2 then some btBadState else none
  | 6 => if d.get BOOT_STATUS_SVN < len then some btBadState else none
  | 7 => if slot = d.get BOOT_FUSE_STATUS_RUN_SLOT then some btBadState else none
  | 2 => if 65536 < len then some btBadProfile else none
  | _ => none

end Dev

/-- A flash or fuse operation (R448): the whole write is ignored and counted while one runs (R451); GATED while the gate is
closed (R440); IO_FAIL without a path for its data. WRITE_IMAGE erases its slot first. -/
def flashCmd (op : Nat) (p : Path) (data : W32) (d : Dev) : Dev :=
  if d.flag BOOT_FLASH_STATUS_BUSY then d.inc BOOT_GATE_VIOL
  else
    let d := d.writeFields p BOOT_FLASH_CMD data
    let g := fieldGet data 16 12
    let slot := fieldGet data 0 2
    let len := d.get BOOT_FLASH_LEN_LEN
    let n := Dev.flashBytes op len
    if fieldGet data 28 4 ≠ op then d
    else if !d.flag BOOT_STATUS_GATE_OPEN then d.flashEnd btGated
    else
      match d.flashRefusal op slot len with
      | some r => d.flashEnd r
      | none =>
        if (op = 1 ∨ op = 2 ∨ op = 5 ∨ op = 8) ∧ d.flashPath g d.flashAddr n = false then d.flashEnd btIoFail
        else
          let d := d.setBoot fun b => { b with flashOp := some (op, g, slot, d.flashAddr, len) }
          let d := d.put BOOT_FLASH_STATUS_BUSY 1
          if op = 1 then d.flashErase (slotBase slot) slotSize else d

/-- WRITE_IMAGE (R448). -/
def doWriteImage (p : Path) (data : W32) (d : Dev) : Dev := flashCmd 1 p data d
/-- WRITE_PROFILE (R448). -/
def doWriteProfile (p : Path) (data : W32) (d : Dev) : Dev := flashCmd 2 p data d
/-- SET_TRIAL (R448). -/
def doSetTrial (p : Path) (data : W32) (d : Dev) : Dev := flashCmd 3 p data d
/-- CONFIRM (R448). -/
def doBootConfirm (p : Path) (data : W32) (d : Dev) : Dev := flashCmd 4 p data d
/-- READ_CERT (R448). -/
def doReadCert (p : Path) (data : W32) (d : Dev) : Dev := flashCmd 5 p data d
/-- RAISE_ROLLBACK (R448). -/
def doRaiseRollback (p : Path) (data : W32) (d : Dev) : Dev := flashCmd 6 p data d
/-- REVOKE_SLOT (R448). -/
def doRevokeSlot (p : Path) (data : W32) (d : Dev) : Dev := flashCmd 7 p data d
/-- READ_LOG (R448). -/
def doReadLog (p : Path) (data : W32) (d : Dev) : Dev := flashCmd 8 p data d

namespace Dev

/-- The data of an operation that reads memory: none where the path is gone, or where the HBM holds it poisoned or failed. -/
def flashFetch (d : Dev) (g a n : Nat) (host : List Byte) (uncorr : Bool) : Option (List Byte) × Dev :=
  if !d.flashPath g a n then (none, d)
  else if 2 ^ 63 ≤ a ∧ (uncorr = true ∨ d.poisoned (a - 2 ^ 63) n = true) then (none, d.consumed (a - 2 ^ 63))
  else (some (d.fetchT a n host), d)

/-- Writes what an operation has read to memory. -/
def flashGive (d : Dev) (g a : Nat) (bs : List Byte) : Dev :=
  match d.eventWrite g a bs with
  | some d => d.flashEnd btOk
  | none => d.flashEnd btIoFail

end Dev

/-- An uncorrectable page of flash at `a` enters the catalogue (R457, R458). -/
def Dev.flashBad (d : Dev) (a : Nat) : Dev := d.rasError (.of 0x18 0 .uc a)

/-- FLASH_OP_COMPLETE (R448): `host` is what the host returned for the operation's reads; `uncorr` says that a page of flash, or
a line of the HBM, that the operation reads is uncorrectable. -/
def doFlashOpComplete (host : List Byte) (uncorr : Bool) (d : Dev) : Dev :=
  match d.boot.flashOp with
  | none => d
  | some (op, g, slot, a, len) =>
    match op with
    | 1 =>
      match d.flashFetch g a len host uncorr with
      | (none, d) => d.flashEnd btIoFail
      | (some bs, d) =>
        let x := d.flashWrite (slotBase slot) bs
        let r := imageCheck x.boot.fuses (x.imageSrc slot)
        if r = btOk then
          if uncorr then ((x.flashBad (slotBase slot)).flashErase (slotBase slot) slotSize).flashEnd btFlashErr else x.flashEnd btOk
        else (x.flashErase (slotBase slot) slotSize).flashEnd r
    | 2 =>
      match d.flashFetch g a len host uncorr with
      | (none, d) => d.flashEnd btIoFail
      | (some bs, d) =>
        match parseProfile (sliceB bs) with
        | none => d.flashEnd btBadProfile
        | some _ => ((d.flashErase (profileBase slot) 0x10000).flashWrite (profileBase slot) bs).flashEnd btOk
    | 3 => if uncorr then (d.flashBad (slotBase slot)).flashEnd btBadState else (d.writeRecord d.bootRecord.2.preferred (slot + 1)).flashEnd btOk
    | 4 => (d.writeRecord (d.get BOOT_STATUS_IMAGE) d.bootRecord.2.trial).flashEnd btOk
    | 5 => if uncorr then (d.flashBad certBase).flashEnd btIoFail else d.flashGive g a (d.flashRead certBase 6899)
    | 6 =>
      let d := d.setBoot fun b => { b with fuses := { b.fuses with rollback := Nat.max b.fuses.rollback (Nat.min len 128) } }
      d.syncFuses.flashEnd btOk
    | 7 =>
      let d := d.setBoot fun b => { b with fuses := { b.fuses with revoked := b.fuses.revoked.set slot true } }
      d.syncFuses.flashEnd btOk
    | _ => if uncorr then (d.flashBad logBase).flashEnd btIoFail else d.flashGive g a (d.flashRead logBase 8192)

/-- Whether the recovery commands are accepted: BISQUE waits in RECOVERY (R446). -/
def Dev.inRecovery (d : Dev) : Bool := d.alive && d.get BOOT_STATUS_STAGE == 6 && d.boot.attempt.isNone

/-- REC_BEGIN (R446): with the length of the image to come. -/
def doI3cRecBegin (len : W32) (d : Dev) : Dev :=
  if d.inRecovery then d.setBoot fun b => { b with recovery := [], recLen := some len.toNat } else d

/-- REC_DATA (R446): up to 256 bytes, appended. -/
def doI3cRecData (bytes : List Byte) (d : Dev) : Dev :=
  if d.inRecovery && d.boot.recLen.isSome && decide (bytes.length ≤ 256) then
    d.setBoot fun b => { b with recovery := b.recovery ++ bytes }
  else d

/-- REC_END (R446): BISQUE attempts the buffer as image 2. -/
def doI3cRecEnd (d : Dev) : Dev :=
  if d.inRecovery && d.boot.recLen.isSome then
    d.setBoot fun b => { b with attempt := some ⟨2, [], .header, .none, true, false⟩, recLen := none }
  else d

end Sys2Proof.Machine
end

