-- ==== Sys2Proof/Machine/ClsDone.lean ====
section
/-!
DEFINITION. What becomes of a frame behind the classification stage: the punt queue, the inline transform, the placement,
metering and the egress queue (chapters Classification, Packet Buffer, Cores and Glaze).
-/

namespace Sys2Proof.Machine
namespace Dev

/-- Whole µs since package reset. -/
def usSinceReset (d : Dev) : Nat := (d.cycle - d.boot.since) / cyUs

/-- The punt bucket of pipeline `k` up to this cycle: RATE_KPPS milli-packets per whole µs since package reset, capped at
BURST × 1,000 (R138). -/
def puntBucket (d : Dev) (k : Nat) : Nat :=
  let c := d.cp k
  Nat.min (d.get (PL_PUNT_CFG_BURST k) * 1000)
    (c.bucket + (d.usSinceReset - c.bucketAt) * d.get (PL_PUNT_CFG_RATE_KPPS k))

/-- Settles the punt bucket. -/
def settlePunt (d : Dev) (k : Nat) : Dev :=
  d.setCp k { d.cp k with bucket := d.puntBucket k, bucketAt := d.usSinceReset }

/-- Sends frame `i` to the punt queue of pipeline `k` (R137, R138, R153). -/
def puntFrame (d : Dev) (k i : Nat) (f : Frame) : Dev :=
  let d := d.settlePunt k
  let c := d.cp k
  if d.get (PL_PUNT_CFG_RATE_KPPS k) = 0 then (d.inc (PL_CNT_PUNT_RATE_DROP k)).discardFrame i f
  else if 1024 ≤ c.punt.length then (d.inc (PL_CNT_PUNT_FULL_DROP k)).discardFrame i f
  else if c.bucket < 1000 then (d.inc (PL_CNT_PUNT_RATE_DROP k)).discardFrame i f
  else
    let n := cellsOf (d.chargeLen f + 64)
    let r := d.takeForeign n
    match (r.1, r.2.mark (.admission k)) with
    | (false, d) => d.discardFrame i f
    | (true, d) =>
      let d := d.setCp k { d.cp k with punt := c.punt ++ [i], bucket := c.bucket - 1000 }
      ((d.setFrame i { f with stage := .punt, cells := n, cutThrough := some false }).inc (PL_CNT_PUNT_IN k))

/-- A frame that was given a queue goes on to its placement entry, or to metering (R224, R225). -/
def toQueue (d : Dev) (i : Nat) (f : Frame) (a : Actions) : Dev :=
  let f := { f with act := some a, stage := .meter }
  if (d.place a.queue).valid then
    let n := cellsOf (d.chargeLen f + 64)
    match d.takeForeign n with
    | (false, d) => (d.stat statPoolDrop 1).discardFrame i f
    | (true, d) =>
      let k := match f.src with | .port p => p / 8 | _ => 8
      ((d.setFrame i { f with cells := n, cutThrough := some false }).placeFrame a.queue i).mark (.admission k)
  else d.setFrame i f

/-- The entry of the inline table that pipeline `k` selects for a record (R280). -/
def inlineSel (d : Dev) (k : Nat) (ws : Vector W16 32) : Option Nat :=
  if d.flag (GLZ_SEL_EN k) then
    let w := (ws.getD (d.get (GLZ_SEL_WORD k)) 0#16).toNat
    if bitOf w 15 then some (w % 16384) else none
  else none

/-- A malformed frame behind the stage (R95). -/
def malfAction (d : Dev) (k i : Nat) (f : Frame) (ctl : W32) : Dev :=
  match fieldGet ctl 0 2 with
  | 1 => d.puntFrame k i f
  | 2 =>
    d.setFrame i { f with
      stage := .meter
      act := some { queue := fieldGet ctl 16 16, cls := fieldGet ctl 8 3, colour := .ofCode (fieldGet ctl 12 2), xform := none } }
  | _ => (d.inc (PL_CNT_MALF_DROP k)).discardFrame i f

/-- The record `r` leaves the stage of pipeline `k` (R108, R109, R280). A frame discarded in the meantime counts, and
goes no further. -/
def classified (d : Dev) (k : Nat) (r : InCls) : Dev :=
  let live := match d.frame? r.frame with | some f => if f.stage = .classify then some f else none | none => none
  if r.malformed then
    match live with
    | some f => d.malfAction k r.frame f r.malf
    | none => d.reap r.frame
  else match r.look with
    | none => d
    | some l =>
      match l.queue with
      | none =>
        let d := d.inc (PL_CNT_CLS_NOMATCH k)
        match live with
        | some f => d.puntFrame k r.frame f
        | none => d.reap r.frame
      | some q =>
        let d := d.inc (PL_CNT_CLS_QUEUED k)
        match live with
        | none => d.reap r.frame
        | some f =>
          let a : Actions := { queue := q, cls := l.cls, colour := l.colour, xform := d.inlineSel k r.words }
          if a.xform.isSome then
            let d := d.setFrame r.frame { f with act := some a, stage := .inline }
            if f.ended then d.enterInline r.frame else d
          else d.toQueue r.frame f a

/-- A frame that joins a queue which receive channels serve wakes their functions (R323). -/
def wakeReceivers (d : Dev) (q : Nat) : Dev :=
  (d.dma.rxServe.filter (·.1 == q)).foldl (fun d s => d.wakeSource (d.chLink s.2) (d.chFunc s.2)) d

end Dev

/-- CLASSIFICATION_COMPLETE (R109): the oldest record of pipeline `k` leaves the stage 105 cycles after it arrived. Pipelines
take cells in ascending order (R154). -/
def doClassificationComplete (k : Fin 8) (d : Dev) : Dev :=
  let d := d.afterPipes k
  match (d.cp k).inflight with
  | [] => d
  | r :: rest =>
    if d.cycle < r.at_ + 105 ∨ (r.malformed = false ∧ r.look = none) then d
    else (d.setCp k { d.cp k with inflight := rest }).classified k r

/-- INLINE_TRANSFORM (R285): the transform on engine `e` ends. A frame that passed goes to placement or metering with its
new length; one read in by DMA waits for TX_FRAME_ADMIT (R280, R342). -/
def doInlineTransform (e : Fin 256) (d : Dev) : Dev :=
  match inlineEnd e d with
  | none => d
  | some (i, d) =>
    match d.frame? i with
    | none => d
    | some f =>
      match f.src, f.act with
      | .port _, some a => d.toQueue i f a
      | _, _ => d

namespace Dev

/-- A frame that device firmware sends on port index `p` enters metering for the queue TX_QUEUE, green (R188; DESIGN CHOICE,
notes/assumptions/48). -/
def firmwareFrame (d : Dev) (p : Nat) (bytes : List Byte) : Dev × Nat :=
  let q := d.get (TIME_PORT_CFG_TX_QUEUE p)
  let act : Actions := { queue := q, cls := d.classOf q % 8, colour := .green, xform := none }
  let r := d.addFrame { Frame.new .firmware (withFcs false bytes) d.time.net d.cycle with
    ended := true, stage := .meter, act := some act, cutThrough := some false }
  (r.2, r.1)

end Dev

/-- METER_ADMIT (R153): a frame is metered and admitted; one that device firmware sends comes to that stage first (R188). -/
def doMeterAdmit (x : Admitted) (d : Dev) : Dev :=
  match x with
  | .frame i => d.meterAndAdmit i
  | .firmware p bytes => let r := d.firmwareFrame p bytes; r.1.meterAndAdmit r.2

/-- ENQUEUE (R152): the admitted frame `i` becomes visible to the scheduler, which is a wake source of the functions whose
receive channels serve its queue (R323). -/
def doEnqueue (i : Nat) (d : Dev) : Dev :=
  let d := d.startDue
  let e := d.enqueue i
  match e.frame? i with
  | some f =>
    match f.stage, f.act with
    | .queued, some a => if (d.frame? i).map (·.stage) = some .queued then e else e.wakeReceivers a.queue
    | _, _ => e
  | none => e

end Sys2Proof.Machine
end

