-- ==== Sys2Proof/Machine/KilnOps.lean ====
section
/-!
DEFINITION. Quadrant resets, and the kilns and their spares (R430, R431, R469 to R478).
-/

namespace Sys2Proof.Machine

/-- Results of the spare commands (RAS_SPARE_STATUS). -/
def spOk : Nat := 0x00
def spBadIndex : Nat := 0x06
def spBadState : Nat := 0x10
def spNoSpare : Nat := 0x50
def spDied : Nat := 0x51
def spTestFail : Nat := 0x53

/-- Roles of a physical kiln (R471). -/
def roleActive : Nat := 0
def roleSpare : Nat := 1
def roleTesting : Nat := 2
def roleFenced : Nat := 3
def roleRetired : Nat := 4
def roleUnused : Nat := 5

namespace Dev

/-- What stood at the endpoints, inboxes and return queues of the threads that `p` names is discarded (R430 step 4). -/
def dropEnds (d : Dev) (p : Nat → Bool) : Dev :=
  let cs := d.core.chans.filterMap fun kv => match kv.2 with
    | some c => if p c.srcT || p c.dstT then some kv.1 else none
    | none => none
  let d := cs.foldl (fun d i =>
    match d.channel i with
    | none => d
    | some c =>
      let tag := fun (o : Option (Nat × Nat)) => (o.filter fun (k, n) => d.firing (.kiln k) != n).map (·.1)
      let late := c.msgs.filterMap fun m => tag m.kiln
      let d := (late ++ c.creds.filterMap fun m => tag m.kiln).foldl (fun d k => d.lateDiscard (.kiln k)) d
      let n := (c.msgs.length - late.length) + (d.txFifo c.srcT c.srcEp).length + (d.rxFifo c.dstT c.dstEp).length
      let d := ((d.setTx c.srcT c.srcEp []).setRx c.dstT c.dstEp []).setChannel i (some { c with msgs := [], creds := [], credits := 8 })
      (d.stat statForce n).serveSend i) d
  let gone := d.core.given.filter fun g => p g.thread
  let d := d.setCore fun s => { s with
    given := s.given.filter fun g => !p g.thread, markers := s.markers.filter fun m => !(m.delivered && p m.thread) }
  gone.foldl (fun d g => (d.stat statAbandon 1).freeFrame g.frame) d

/-- Kiln `k` holds no line Modified any more: each has been written back to its home, or poisoned there (R430 step 2, R472, R474). -/
def nothingModified (d : Dev) (k : Nat) : Dev :=
  { d with mem := { d.mem with modified := d.mem.modified.filter fun kv => kv.2 != some k } }

/-- The lines that the threads that `p` names have asked for will come back under an old number (R475). -/
def strandLines (d : Dev) (p : Nat → Bool) : Dev :=
  let gone := (d.core.threads.filter fun kv => p kv.1).flatMap fun kv => kv.2.missed.filterMap fun m =>
    m.tag.map fun (k, n) => (kv.1, k, n)
  d.setCore fun s => { s with
    strays := s.strays ++ gone
    threads := tabMapAll (fun _ => .reset) s.threads fun t x => if p t then { x with missed := x.missed.filter fun m => m.tag.isNone } else x }

/-- The architectural state of the threads that `p` names is cleared, and that of their cores. -/
def clearThreads (d : Dev) (p : Nat → Bool) : Dev :=
  d.setCore fun s => { s with
    threads := s.threads.filter fun kv => !p kv.1, cores := s.cores.filter fun kv => !(decide (kv.1 < 128) && p (8 * kv.1)) }

/-- The threads that `p` names stop at an instruction boundary; a blocked Xplc instruction is abandoned (R211). -/
def stopThreads (d : Dev) (p : Nat → Bool) : Dev :=
  (d.core.threads.filter fun kv => p kv.1).foldl (fun d kv => d.unstall kv.1) d

/-- The reset vector of a quadrant. -/
def quadVec (d : Dev) (q : Nat) : W64 :=
  BitVec.ofNat 64 (d.get (BOOT_QUAD_VEC_LO_ADDR q) + d.get (BOOT_QUAD_VEC_HI_ADDR q) * 2 ^ 32)

/-- Thread 0 of each core of logical kiln `k` starts at its quadrant's vector; threads 1–7 are disabled (R203). -/
def startKiln (d : Dev) (k : Nat) : Dev :=
  let d := d.clearThreads fun t => kilnOf t == k
  (List.range 4).foldl (fun d i =>
    (d.setThread (32 * k + 8 * i) { Thread.reset with enabled := true, pc := d.quadVec (k / 8), fetchAt := d.cycle }).setCoreSt
      (4 * k + i) { CoreSt.reset with since := d.cycle }) d

/-! ### Quadrant reset (R430) -/

def setPkg (d : Dev) (f : PkgState → PkgState) : Dev := { d with pkg := f d.pkg }

/-- Step 1 to 3 of a quadrant reset. The lines on their way to its kilns are discarded at the severed crossing (R426). -/
def quadBegin (d : Dev) (q : Fin 4) : Dev :=
  let d := d.setPkg fun s => { s with quads := (s.quads.filter fun x => x.1 != q.val) ++ [(q.val, true)] }
  let d := (d.put ⟨RST_QUAD_CTRL, q, 1⟩ 0).put ⟨RST_QUAD_STATUS, 16 + q, 1⟩ 1
  let d := d.stopThreads fun t => !isMgmt t && quadOf t == q
  let mine := fun t => !isMgmt t && quadOf t == q.val
  let lines := (d.core.threads.filter fun kv => mine kv.1).flatMap fun (kv : Nat × Thread) => kv.2.missed.filter fun m => m.port && m.sent
  let d := d.bump CLK_CNT_XING_DROP lines.length
  let halt := fun (t : Nat) (x : Thread) => if mine t then { x with enabled := false, resv := none, missed := [] } else x
  let d := d.setCore fun s => { s with threads := tabMapAll (fun _ => .reset) s.threads halt }
  ((List.range 8).foldl (fun d i => (d.nothingModified (8 * q + i)).bumpOwner (.kiln (8 * q + i))) d).sever (.core q)

/-- A quadrant reset is asked for: it merges with one that runs, and waits for a spare procedure of its kilns (R431). -/
def quadAsk (d : Dev) (q : Fin 4) : Dev :=
  if (d.pkg.quads.any fun x => x.1 == q.val) then d
  else if ((List.range 8).any fun i => d.kilnHeld (8 * q + i)) then
    ((d.setPkg fun s => { s with quads := s.quads ++ [(q.val, false)] }).put ⟨RST_QUAD_CTRL, q, 1⟩ 1).put ⟨RST_QUAD_STATUS, 16 + q, 1⟩ 1
  else d.quadBegin q

/-- The quadrant resets that waited for a spare procedure begin. -/
def quadsDue (d : Dev) : Dev :=
  [0, 1, 2, 3].foldl (fun (d : Dev) (q : Fin 4) =>
    if d.pkg.quads.contains (q.val, false) && !((List.range 8).any fun i => d.kilnHeld (8 * q + i)) then d.quadBegin q else d) d

end Dev

/-- QUADRANT_RESET (R430): a write of RST_QUAD_CTRL.RESET. -/
def doQuadrantReset (p : Path) (data : W32) (d : Dev) : Dev :=
  let d := d.writeFields p RST_QUAD_CTRL data
  [0, 1, 2, 3].foldl (fun (d : Dev) (q : Fin 4) => if bitOf data.toNat q then d.quadAsk q else d) d

/-- QUADRANT_RESET_DONE (R430): the bumps are done, and nothing of the quadrant's channels stays in flight. -/
def doQuadrantResetDone (q : Fin 4) (d : Dev) : Dev :=
  if !d.pkg.quads.contains (q.val, true) || ((List.range 8).any fun i => d.bumpPending (.kiln (8 * q + i))) then d
  else
    let mine := fun t => !Dev.isMgmt t && Dev.quadOf t == q.val
    let d := (d.dropEnds mine).clearThreads mine
    let d := d.setPkg fun s => { s with quads := s.quads.filter fun x => x.1 != q.val }
    ((d.put ⟨RST_QUAD_STATUS, q, 1⟩ 1).put ⟨RST_QUAD_STATUS, 16 + q, 1⟩ 0).setEvent ⟨RST_QUAD_STATUS, 8 + q, 1⟩

/-- BOOT_QUAD_REL (R439, R203): while VERIFIED = 0 it is ignored and counted. -/
def doBootQuadRel (p : Path) (data : W32) (d : Dev) : Dev :=
  let d := d.writeFields p BOOT_QUAD_REL data
  if fieldGet data 0 4 = 0 then d
  else if d.flag BOOT_STATUS_VERIFIED = false then d.inc BOOT_GATE_VIOL
  else
    (List.range 4).foldl (fun d q =>
      if bitOf data.toNat q && bitOf (d.get RST_QUAD_STATUS_HELD) q && !bitOf (d.get RST_QUAD_STATUS_RESETTING) q then
        let d := d.put ⟨RST_QUAD_STATUS, q, 1⟩ 0
        (List.range 8).foldl (fun d i =>
          if d.flag (RAS_KILN_MAP_VALID (8 * q + i)) && !d.kilnHeld (8 * q + i) then d.startKiln (8 * q + i) else d) d
      else d) d

namespace Dev

/-! ### Roles and the map (R470, R471) -/

def role (d : Dev) (p : Nat) : Nat := d.get (KLN_STATE_ROLE p)
def setRole (d : Dev) (p r : Nat) : Dev := d.put (KLN_STATE_ROLE p) r

/-- The physical kilns of quadrant `q`, and its spare. -/
def quadPhys (q : Nat) : List Nat := (List.range 9).map (9 * q + ·)
def spareOf (d : Dev) (q : Nat) : Option Nat := (quadPhys q).find? fun p => d.role p == roleSpare

/-- Logical kiln `k` maps to physical kiln `p`. -/
def mapKiln (d : Dev) (k p : Nat) : Dev :=
  (((d.put (RAS_KILN_MAP_VALID k) 1).put (RAS_KILN_MAP_PHYS k) p).setRole p roleActive).put (KLN_STATE_LOGICAL p) k

/-- A physical kiln is retired, its repair fuse blown if firmware does so (R470). -/
def retireKiln (d : Dev) (p : Nat) : Dev :=
  let d := (d.setRole p roleRetired).put ⟨if p < 32 then RAS_KILN_RETIRED_LO else RAS_KILN_RETIRED_HI, p % 32, 1⟩ 1
  if d.flag RAS_CTRL_FUSE_RETIRE then
    { d with boot := { d.boot with fuses := { d.boot.fuses with kilns := d.boot.fuses.kilns ++ [p] } } }
  else d

/-- Whether a physical kiln is retired, by fuse or by register. -/
def kilnRetired (d : Dev) (p : Nat) : Bool :=
  d.boot.fuses.kilns.contains p || d.flag ⟨if p < 32 then RAS_KILN_RETIRED_LO else RAS_KILN_RETIRED_HI, p % 32, 1⟩

/-- The boot map (R470). -/
def bootMap (d : Dev) : Dev :=
  (List.range 4).foldl (fun d q =>
    let good := (quadPhys q).filter fun p => !d.kilnRetired p
    let d := (quadPhys q).foldl (fun d p => if d.kilnRetired p then d.setRole p roleRetired else d) d
    let d := (List.range 8).foldl (fun d i =>
      match good[i]? with
      | some p => d.mapKiln (8 * q + i) p
      | none => (d.put (RAS_KILN_MAP_VALID (8 * q + i)) 0).put (RAS_KILN_MAP_PHYS (8 * q + i)) 0) d
    match good[8]? with
    | some p => d.setRole p roleSpare
    | none => d) d

/-- The saggar that holds all the threads of a kiln, if one does. -/
def kilnSag (d : Dev) (k : Nat) : Option Nat :=
  match d.threadSag (32 * k) with
  | none => none
  | some s => if ((List.range 32).all fun i => d.threadSag (32 * k + i) == some s) then some s else none

/-! ### Spare commands (R471) -/

/-- A spare command begins, and ends with its result. -/
def spareBegin (d : Dev) (op : SpareOp) : Dev :=
  ((d.setRas fun r => { r with op := some op }).put RAS_SPARE_STATUS_BUSY 1).put RAS_SPARE_STATUS_RESULT 0
def spareEnd (d : Dev) (result : Nat) : Dev :=
  (((d.setRas fun r => { r with op := none }).put RAS_SPARE_STATUS_BUSY 0).put RAS_SPARE_STATUS_RESULT result).setEvent
    RAS_SPARE_STATUS_DONE

/-- A spare command of OP `op` reaches the block: while BUSY it is ignored and counted. -/
def spareCmd (p : Path) (op limit : Nat) (data : W32) (f : Nat → Dev → Dev) (d : Dev) : Dev :=
  let d := d.writeFields p RAS_SPARE_CMD data
  if fieldGet data 28 4 ≠ op then d
  else if d.flag RAS_SPARE_STATUS_BUSY then d.inc RAS_CNT_SPARE_CMD_IGNORED
  else if limit ≤ fieldGet data 0 6 then d.spareEnd spBadIndex
  else f (fieldGet data 0 6) d

/-- REPLACE ends: the bump has been applied, the router maps the kiln to the spare, and its threads resume (R472); its crossing is then
severed until the spare's half has reconnected (R425, R426). -/
def finishReplace (d : Dev) (k p : Nat) : Dev :=
  let old := d.get (RAS_KILN_MAP_PHYS k)
  let d := d.strandLines fun t => !isMgmt t && kilnOf t == k
  (((((d.nothingModified k).setRole old roleFenced).mapKiln k p).sever (.kiln (Fin.ofNat 32 k))).inc RAS_CNT_KILN_REPLACED).spareEnd spOk
    |>.quadsDue

/-- Step 4 of a takeover: the spare takes the kiln, and its threads start where the quadrant is released; without a spare the
kiln is degraded (R474, R477). -/
def giveSpare (d : Dev) (k : Nat) (p : Option Nat) : Dev :=
  match p with
  | none => (d.clearThreads fun t => kilnOf t == k).put (RAS_KILN_MAP_VALID k) 0
  | some p =>
    let d := d.mapKiln k p
    let d := d.setRas fun r => { r with lastTake := tabSet (fun _ => none) r.lastTake (k / 8) (some (d.cycle, k, p)) }
    if bitOf (d.get RST_QUAD_STATUS_HELD) (k / 8) || bitOf (d.get RST_QUAD_STATUS_RESETTING) (k / 8) then
      d.clearThreads fun t => kilnOf t == k
    else d.startKiln k

/-- A takeover ends, its bump done (R474, R478): of kilns of one quadrant declared dead in one cycle the lower takes the
spare. -/
def finishTakeover (d : Dev) (k : Nat) : Dev :=
  match d.ras.takeovers.find? fun x => x.kiln == k with
  | none => d
  | some t =>
    let q := k / 8
    let first := d.ras.takeovers.all fun x => x.kiln == k || x.kiln / 8 != q || decide (t.since < x.since) ||
      (x.since == t.since && decide (k < x.kiln))
    let d := d.dropEnds fun t => !isMgmt t && kilnOf t == k
    let d := d.setRas fun r => { r with takeovers := r.takeovers.filter fun x => x.kiln != k }
    let d := match d.spareOf q, tabGet (fun _ => none) d.ras.lastTake q with
      | some p, _ => d.giveSpare k (if first then some p else none)
      | none, some (c, j, p) =>
        if c = t.since ∧ k < j ∧ d.get (RAS_KILN_MAP_PHYS j) = p then (d.giveSpare j none).giveSpare k (some p) else d.giveSpare k none
      | none, none => d.giveSpare k none
    let d := match d.ras.op with
      | some (.dead j) => if j = k then d.spareEnd spOk else d
      | _ => d
    d.quadsDue

/-- Logical kiln `k` is declared dead by a detector of family `fam`; `lost` are the lines Modified in it, which are poisoned
at home (R473, R474). -/
def declareDead (d : Dev) (k fam : Nat) (lost : List Nat) (inj : Bool) : Dev :=
  if d.flag (RAS_KILN_MAP_VALID k) = false ∨ (d.ras.takeovers.any fun x => x.kiln == k) then d
  else
    let owner := d.kilnSag k
    let lost := lost.filter fun l => tabGet (fun _ => none) d.mem.modified l == some k
    let d := (d.inc RAS_CNT_KILN_DEAD).rasError { RasErr.of fam k .uc 0 with owner := owner, injected := inj }
    let d := match d.ras.op with
      | some (.replace j _ _) => if j = k then d.spareEnd spDied else d
      | _ => d
    let d := d.setRole (d.get (RAS_KILN_MAP_PHYS k)) roleFenced
    let d := d.setRas fun r => { r with takeovers := r.takeovers ++ [⟨k, d.cycle⟩] }
    let d := (d.stopThreads fun t => !isMgmt t && kilnOf t == k).strandLines fun t => !isMgmt t && kilnOf t == k
    let d := (d.nothingModified k).bumpOwner (.kiln k)
    let d := if lost.isEmpty then d
      else (d.poisonLines lost).rasError
        { RasErr.of 0x04 k .de 0 with poison := true, owner := owner, injected := inj, info := lost.length }
    if d.bumpPending (.kiln k) then d else d.finishTakeover k

/-- A kiln's bump, held for its spacing, has been applied: the procedure that waited for it ends. -/
def kilnBumped (d : Dev) (k : Nat) : Dev :=
  match d.ras.op with
  | some (.replace j p true) => if j = k then d.finishReplace k p else d.finishTakeover k
  | _ => d.finishTakeover k

end Dev

/-- REPLACE (R471, R472, R478). -/
def doKilnReplace (p : Path) (data : W32) (d : Dev) : Dev :=
  Dev.spareCmd p 1 32 data (fun k d =>
    if d.flag (RAS_KILN_MAP_VALID k) = false ∨ d.kilnHeld k then d.spareEnd spBadState
    else match d.spareOf (k / 8) with
      | none => d.spareEnd spNoSpare
      | some s => (d.stopThreads fun t => !Dev.isMgmt t && Dev.kilnOf t == k).spareBegin (.replace k s false)) d

/-- KILN_REPLACE_COMPLETE (R472): nothing that the kiln sent is in flight; it bumps, and with the bump the router maps it to the
spare. -/
def doKilnReplaceComplete (d : Dev) : Dev :=
  match d.ras.op with
  | some (.replace k p false) =>
    let flies := d.core.chans.any fun kv => match kv.2 with
      | some c => (c.msgs.map (·.kiln) ++ c.creds.map (·.kiln)).any fun m => m.any fun (j, _) => j == k
      | none => false
    if flies then d
    else
      let d := (d.setRas fun r => { r with op := some (.replace k p true) }).bumpOwner (.kiln k)
      if d.bumpPending (.kiln k) then d else d.finishReplace k p
  | _ => d

/-- DECLARE_DEAD (R471, R473); `lost` are the lines Modified in the kiln. -/
def doKilnDeclareDead (p : Path) (data : W32) (lost : List Nat) (d : Dev) : Dev :=
  Dev.spareCmd p 2 32 data (fun k d =>
    if d.flag (RAS_KILN_MAP_VALID k) = false ∨ (d.ras.takeovers.any fun x => x.kiln == k) then d.spareEnd spBadState
    else (d.spareBegin (.dead k)).declareDead k 0x04 lost false) d

/-- KILN_RESPONSE_TIMEOUT (R473): a message to kiln `k` has gone unanswered for RAS_KILN_TIMEOUT. -/
def doKilnResponseTimeout (k : Fin 32) (lost : List Nat) (d : Dev) : Dev := d.declareDead k 0x05 lost false

/-- FENCED_PORT_ARRIVAL (R475): traffic from the fenced physical kiln `p`. -/
def doFencedPortArrival (p : Fin 36) (d : Dev) : Dev :=
  if d.role p = roleFenced ∨ (d.role p = roleTesting) then
    (d.lateDiscard (.kiln (d.get (KLN_STATE_LOGICAL p)))).inc (KLN_FENCE_DISCARD p)
  else d

/-- TEST (R471, R476). -/
def doKilnTest (p : Path) (data : W32) (d : Dev) : Dev :=
  Dev.spareCmd p 3 36 data (fun x d =>
    if d.role x = roleFenced ∨ d.role x = roleSpare then (d.setRole x roleTesting).spareBegin (.test x) else d.spareEnd spBadState) d

/-- KILN_TEST_COMPLETE (R476, R477): the test ends with `fails` failing bits and addresses. A spare that arises takes over the
lowest degraded kiln of its quadrant. -/
def doKilnTestComplete (fails : Nat) (d : Dev) : Dev :=
  match d.ras.op with
  | some (.test p) =>
    let pass := fails == 0
    let d := ((d.put (KLN_TEST_RESULT_PASS p) (b2n pass)).put (KLN_TEST_RESULT_FAILS p) (Nat.min fails (2 ^ 24 - 1))).setEvent
      (KLN_TEST_RESULT_VALID p)
    let q := p / 9
    if pass then
      let hurt := ((List.range 8).map (8 * q + ·)).find? fun k => !d.flag (RAS_KILN_MAP_VALID k)
      let d := match hurt, d.spareOf q with
        | some k, none => d.giveSpare k (some p)
        | _, some _ => d.setRole p roleUnused
        | none, none => d.setRole p roleSpare
      d.spareEnd spOk
    else (d.retireKiln p).spareEnd spTestFail
  | _ => d

/-- RETIRE (R471, R476). -/
def doKilnRetire (p : Path) (data : W32) (d : Dev) : Dev :=
  Dev.spareCmd p 4 36 data (fun x d =>
    if d.role x = roleFenced ∨ d.role x = roleSpare then (d.retireKiln x).spareEnd spOk else d.spareEnd spBadState) d

end Sys2Proof.Machine
end

