-- ==== Sys2Proof/Machine/RasOps.lean ====
section
/-!
DEFINITION. The error catalogue, the injector, the online tests, and the spares of LPM and HBM (R452 to R468).
-/

namespace Sys2Proof.Machine

/-- The families of R458 whose uncorrectable errors are fatal. -/
def fatalFamily (fam : Nat) : Bool := [0x07, 0x09, 0x0B, 0x0C, 0x17].contains fam

/-- The instances of a family (R458). -/
def familySize : Nat → Nat
  | 0x01 => 128 | 0x02 => 128 | 0x03 => 32 | 0x04 => 32 | 0x05 => 32 | 0x06 => 64 | 0x07 => 64 | 0x08 => 128 | 0x09 => 1024
  | 0x0A => 64 | 0x0B => 64 | 0x0C => 8 | 0x0D => 8 | 0x0E => 65 | 0x0F => 17 | 0x10 => 8 | 0x11 => 512 | 0x12 => 256 | 0x13 => 1
  | 0x14 => 16 | 0x15 => 16 | 0x16 => 10 | 0x17 => 1 | 0x18 => 1 | 0x19 => 8 | 0x1A => 1 | 0x1B => 64 | 0x1C => 3 | _ => 0

/-- The injection TYPEs of a family (R458). -/
def familyTypes (fam : Nat) : List Nat :=
  if fam = 0x05 then [4]
  else if fam = 0x09 then [5]
  else if fam = 0x0D ∨ fam = 0x0E ∨ fam = 0x0F then [3]
  else if fam = 0x11 then [6]
  else if fam = 0x12 ∨ fam = 0x14 then [1, 2, 6]
  else if fam = 0x16 then [1, 2, 5]
  else if 1 ≤ fam ∧ fam ≤ 0x18 then [1, 2]
  else []

/-- The errors that an injection TYPE presents (R461). -/
def typeKind (typ : Nat) : ErrKind → Bool
  | .corrected => typ == 1 || typ == 5
  | .row _ _ => typ == 1
  | .uncorr => typ == 2 || typ == 3 || typ == 4
  | .dirty => typ == 2
  | .failed => false
  | .upset => false

namespace Dev

/-! ### The injector (R460 to R462) -/

/-- Whether the armed injector acts on an access at a detector, of index `idx`. -/
def injMatches (d : Dev) (fam inst idx : Nat) : Bool :=
  d.flag RAS_INJ_ARM && d.get RAS_INJ_DETECTOR == fam * 1024 + inst &&
    (d.flag RAS_INJ_MATCH_ANY || d.get RAS_INJ_MATCH_INDEX == idx)

/-- A matching access: whether the injector fires on it. -/
def injTake (d : Dev) : Bool × Dev :=
  if d.flag RAS_INJ_MODE then
    let n := d.ras.injN + 1
    if n < d.get RAS_INJ_N_N then (false, d.setRas fun r => { r with injN := n })
    else (true, (d.setRas fun r => { r with injN := 0 }).inc RAS_CNT_INJ_FIRED)
  else (true, (d.putRW RAS_INJ_ARM 0).inc RAS_CNT_INJ_FIRED)

/-- An effect whose errors are injected ones. -/
def asInjected (d : Dev) (f : Dev → Dev) : Dev :=
  (f (d.setRas fun r => { r with injNow := true })).setRas fun r => { r with injNow := false }

/-- A self-test of TYPE 6: whether the injector makes it report failure. -/
def injTest (d : Dev) (fam inst : Nat) : Bool × Dev :=
  if d.injMatches fam inst 0 && d.get RAS_INJ_TYPE == 6 then d.injTake else (false, d)

/-! ### HBM rows and pseudo-channels (R467, R468) -/

/-- The key of a bank, and of a row in it. -/
def bankKey (pc bank : Nat) : Nat := pc * 16 + bank
def rowKey (pc bank row : Nat) : Nat := bankKey pc bank * 65536 + row

/-- A row is to be spared: whether a spare row is left (R467). -/
def spareRow (d : Dev) (pc bank row : Nat) (byCommand : Bool) : Bool × Dev :=
  let b := bankKey pc bank
  let used := tabGet (fun _ => 0) d.ras.rowsUsed b
  if 2 ≤ used then (false, d)
  else (true, d.setRas fun r => { r with
    rowsUsed := tabSet (fun _ => 0) r.rowsUsed b (used + 1), sparing := r.sparing ++ [(rowKey pc bank row, byCommand)] })

/-- A spare-row or retire command ends. -/
def hbmEnd (d : Dev) (result : Nat) : Dev :=
  ((d.put RAS_HBM_STATUS_BUSY 0).put RAS_HBM_STATUS_RESULT result).setEvent RAS_HBM_STATUS_DONE

/-- A corrected error of a row counts toward its sparing (R467). -/
def rowError (d : Dev) (pc bank row : Nat) : Dev :=
  let k := rowKey pc bank row
  let n := tabGet (fun _ => 0) d.ras.rowCe k + 1
  let d := d.setRas fun r => { r with rowCe := tabSet (fun _ => 0) r.rowCe k n }
  let lim := d.get RAS_HBM_CFG_ROW_CE
  if lim = 0 ∨ n < lim ∨ d.ras.spared.contains k ∨ (d.ras.sparing.any fun x => x.1 == k) then d
  else
    let (ok, d) := d.spareRow pc bank row false
    if ok || d.flag RAS_HBM_STATUS_BUSY then d else d.hbmEnd 0x52

/-- A pseudo-channel is retired: the lines of its pages that kilns hold Modified are written back, or poisoned (R468). -/
def retirePc (d : Dev) (pc : Nat) : Dev :=
  { d with mem := { d.mem with modified := d.mem.modified.filter fun kv => hbmInst (64 * kv.1) != pc } }.put ⟨RAS_HBM_RETIRED (pc / 32), pc % 32, 1⟩ 1

/-! ### Detected errors (R458) -/

/-- The owner of a physical address's page. -/
def paOwner (d : Dev) (a : Nat) : Option Nat := if a < hbmSize then d.pageOwner (a / 2 ^ 21) else none

/-- A data line goes bad: DE, poisoned at home. -/
def deferred (d : Dev) (fam inst loc : Nat) : Dev :=
  (d.poisonLines [loc / 64]).rasError { RasErr.of fam inst .de loc with poison := true, owner := d.paOwner loc }

/-- The table entry that a detector of 0x0D to 0x0F names with its LOCATION. -/
def tableRef (d : Dev) (fam inst loc : Nat) : Option EntryRef :=
  if fam = 0x0D then (if loc < 16384 then some (.rule inst loc) else none)
  else if fam = 0x0E then
    (if inst = 64 then (if 2 ^ 31 ≤ loc ∧ loc < 2 ^ 31 + 8192 then some (.ovf (loc - 2 ^ 31)) else none)
     else if loc < 1048576 ∧ loc / 4 % 64 = inst then some (.em loc) else none)
  else if fam = 0x0F then (if loc < 262144 ∧ d.lpmPhys (loc / 16384) = inst then some (.lpm loc) else none)
  else none

/-- A glaze engine's datapath error: its job fails with TIMEOUT, a frame in it is lost, and the engine is out of service (R458,
R464). -/
def glzFault (d : Dev) (e : Nat) : Dev :=
  let d := match d.glzEng e with
    | none => d
    | some r =>
      match r.work with
      | .job g => (d.setGlzEng e none).glzAnswer g [] gzTimeout (b2n r.unt + 2 * b2n r.near) (r.counter.getD 0)
          (match r.counter with | some n => r.ctx.iv n | none => [])
      | .frame i _ => (d.setGlzEng e none).freeFrame i
  let d := (d.put ⟨RAS_GLZ_OUT (e / 32), e % 32, 1⟩ 1).setEvent ⟨RAS_GLZ_FAIL (e / 32), e % 32, 1⟩
  (d.setRas fun r => { r with glzBad := (r.glzBad ++ [e]).dedup }).rasError (.of 0x12 e .uc 0)

/-- A corrected error of a host link: AER and CORR_ERR (R321, R458). -/
def linkCorrected (d : Dev) (l : Nat) : Dev :=
  let d := (d.modFunc l 0 fun x => { x with aerCorr := x.aerCorr ||| 2 ^ 14 }).inc (HIF_CNT_CORR_ERR (l / 4) (l % 4))
  if bitOf (d.func l 0).errEn 0 && !bitOf (d.func l 0).aerCorrMask 14 then d.sendMsg l 0 .errCor else d

/-- An uncorrectable error that a detector finds: its class and action (R458, R459). -/
def uncorrectable (d : Dev) (fam inst loc : Nat) (kind : ErrKind) (items : List Nat) : Dev :=
  match fam with
  | 0x01 => d.rasError (.of fam inst .ce loc)
  | 0x02 | 0x03 =>
    if kind = .dirty ∧ tabGet (fun _ => none) d.mem.modified (loc / 64) = some (if fam = 0x02 then inst / 4 else inst) then d.deferred fam inst loc else d.rasError (.of fam inst .ce loc)
  | 0x04 | 0x05 => d.declareDead inst fam items false
  | 0x06 => d.deferred fam inst loc
  | 0x08 =>
    if kind = .failed then ((d.poisonLines items).retirePc inst).rasError { RasErr.of fam inst .uc loc with poison := !items.isEmpty }
    else d.deferred fam inst loc
  | 0x09 => if kind = .failed then d.fatal (.of fam inst .fatal 0) else d.rasError (.of fam inst .ce 0)
  | 0x07 | 0x0B | 0x0C | 0x17 => d.fatal (.of fam inst .fatal loc)
  | 0x0A =>
    -- R143: the frame that is being read out
    let d := (d.inc BUF_CNT_BUF_UNCORR).rasError (.of fam inst .uc loc)
    let i := items.headD 0
    match d.frame? i with
    | none => d
    | some f =>
      let d := d.startDue
      let f := (d.frame? i).getD f
      if d.txBegun i f then d.setFrame i { f with stomp := true } else d.discardFrame i f
  | 0x0D | 0x0E | 0x0F =>
    match d.tableRef fam inst loc with
    | some r => d.parityFound r
    | none => d
  | 0x10 =>
    -- R91: every parse that fetches the word in this cycle; one at its budget fetches none
    (d.pst inst).engines.foldl (fun y kv => match kv.2 with
      | some x =>
        if x.pc = loc ∧ x.stalledFrom.isNone = true ∧ x.nextAt ≤ d.cycle ∧ x.n < d.get (PL_PARSE_CTRL_BUDGET inst) then
          y.endParse inst kv.1 x (some .imem) 0
        else y
      | none => y) d
  | 0x12 => d.glzFault inst
  | 0x13 => d.kcLost loc
  | 0x14 =>
    match d.pkeUnit inst with
    | some r =>
      -- R299: the job still takes its cycles
      d.setPkeUnit inst (some { r with fault := true })
    | none => d.rasError (.of fam inst .uc 0)
  | 0x15 => (d.engineStop inst .hbm 8 0xFFFF loc).rasError (.of fam inst .uc loc)
  | 0x16 =>
    if inst < 8 then
      let d := d.modFunc inst 0 fun x => { x with aerUncorr := x.aerUncorr ||| 2 ^ 22 }
      ((d.inc (HIF_CNT_UNCORR_ERR (inst / 4) (inst % 4))).freezeLink inst 7).rasError (.of fam inst .uc 0)
    else if h : inst - 8 < 2 then doControllerInternalError ⟨inst - 8, h⟩ d else d
  | 0x18 => d.rasError (.of fam inst .uc loc)
  | _ => d

/-- A detected error of any kind; at an HBM address it is found by the address's home (R235, R468). -/
def detected (d : Dev) (fam inst loc : Nat) (kind : ErrKind) (items : List Nat) : Dev :=
  if kind != .failed && !isHomeOf fam inst loc then d
  else match kind with
  | .corrected =>
    if fam = 0x0D ∨ fam = 0x0E ∨ fam = 0x0F ∨ [0x05, 0x11, 0x19, 0x1B, 0x1C].contains fam then d
    else
      let d := if fam = 0x16 ∧ inst < 8 then d.linkCorrected inst else d
      d.rasError { RasErr.of fam inst .ce loc with owner := if [0x02, 0x03, 0x06, 0x08].contains fam then d.paOwner loc else none }
  | .row bank row =>
    if fam = 0x08 then
      (d.rasError { RasErr.of fam inst .ce loc with owner := d.paOwner loc }).rowError inst bank row
    else d
  | .upset =>
    if fam = 0x10 then d.setPst inst { d.pst inst with imemBad := ((d.pst inst).imemBad ++ [loc % 4096]).dedup }
    else match d.tableRef fam inst loc with
      | some r => d.setTbl fun t => { t with bad := (t.bad ++ [r]).dedup }
      | none => d
  | k => d.uncorrectable fam inst loc k items

end Dev

/-- ERROR_DETECTION (R452, R458, R460): detector `inst` of family `fam` finds an error at `loc`. `items` is what else it hits:
the lines Modified in a dead kiln, the cached lines of a failed pseudo-channel, or the frame being read out. With `inj` it is an
access on which the injector acts; the detectors of 0x05, 0x11, 0x19, 0x1B and 0x1C have commands of their own. -/
def doErrorDetection (fam : Fin 32) (inst : Nat) (kind : ErrKind) (loc : Nat) (items : List Nat) (inj : Bool) (d : Dev) : Dev :=
  if familySize fam ≤ inst then d
  else if inj then
    if d.injMatches fam inst (loc % 2 ^ 31) && typeKind (d.get RAS_INJ_TYPE) kind && (familyTypes fam).contains (d.get RAS_INJ_TYPE) then
      let (fires, d) := d.injTake
      if fires then d.asInjected fun d => d.detected fam inst loc kind items else d
    else d
  else if [0x05, 0x11, 0x19, 0x1B, 0x1C].contains fam.val then d
  else d.detected fam inst loc kind items

/-- RAS_INJ_WRITE (R460, R462). -/
def doRasInjWrite (p : Path) (data : W32) (d : Dev) : Dev :=
  let d := d.writeFields p RAS_INJ data
  let arm := fieldGet data 31 1
  let typ := fieldGet data 24 4
  let fam := fieldGet data 10 6
  let d := (d.put RAS_INJ_MODE (fieldGet data 30 1)).put RAS_INJ_FATAL_OK (fieldGet data 29 1)
  let d := (d.put RAS_INJ_TYPE typ).put RAS_INJ_DETECTOR (fieldGet data 0 16)
  if arm = 0 then (d.swPut RAS_INJ_ARM 0).put RAS_INJ_REFUSED 0
  else if !(familyTypes fam).contains typ || (fatalFamily fam && fieldGet data 29 1 == 0) then
    (d.swPut RAS_INJ_ARM 0).put RAS_INJ_REFUSED 1
  else
    let d := if d.flag RAS_INJ_ARM then d else d.setRas fun r => { r with injN := 0 }
    (d.swPut RAS_INJ_ARM 1).put RAS_INJ_REFUSED 0

/-! ### Parse engines (R463) -/

/-- PE_ROTATION (R463): pipeline `k` takes its next engine out of rotation. -/
def doPeRotation (k : Fin 8) (d : Dev) : Dev :=
  let last := tabGet (fun _ => 0) d.ras.peLast k
  if !d.flag RAS_PE_ROT_EN || decide (d.cycle < last + d.get RAS_PE_ROT_PERIOD_MS * cyMs) || (d.peTest k).isSome ||
      d.flag (RAS_PE_STATUS_RETIRED k) then d
  else
    let e := tabGet (fun _ => 0) d.ras.peNext k
    let d := d.setRas fun r => { r with
      peLast := tabSet (fun _ => 0) r.peLast k d.cycle, peNext := tabSet (fun _ => 0) r.peNext k ((e + 1) % 64) }
    if (d.eng k e).isSome then d.setPeTest k (some (e, none)) else d.peBegin k e

/-- PE_SELF_TEST_DONE (R463): the engine under test returns, or is retired. -/
def doPeSelfTestDone (k : Fin 8) (pass : Bool) (d : Dev) : Dev :=
  match d.peTest k with
  | some (e, some c) =>
    if d.cycle < c + 4096 then d
    else
      let (bad, d) := d.injTest 0x11 (k * 64 + e)
      let d := (d.setPeTest k none).put (RAS_PE_STATUS_TESTING k) 0x3F
      if pass && !bad then d
      else
        let d := (d.put (RAS_PE_STATUS_RETIRED k) 1).put (RAS_PE_STATUS_ENGINE k) e
        d.rasError { RasErr.of 0x11 (k * 64 + e) .uc 0 with injected := bad }
  | _ => d

/-! ### Glaze engines and public-key units (R464) -/

/-- GLZ_SKIP (R464): a write of RAS_GLZ_SKIP_w. -/
def doGlzSkip (p : Path) (w : Fin 8) (data : W32) (d : Dev) : Dev :=
  let d := (d.writeFields p (RAS_GLZ_SKIP w) data).put (RAS_GLZ_SKIP_SKIP w) data.toNat
  (List.range 32).foldl (fun d i =>
    let e := 32 * w.val + i
    if bitOf data.toNat i then (if (d.glzEng e).isNone then d.glzLeave e else d)
    else if (tabGet (fun _ => none) d.ras.glzTest e).isSome || d.ras.glzBad.contains e then d
    else d.put ⟨RAS_GLZ_OUT w, i, 1⟩ 0) d

/-- PKE_SKIP (R464): a write of RAS_PKE_SKIP. -/
def doPkeSkip (p : Path) (data : W32) (d : Dev) : Dev :=
  let d := (d.writeFields p RAS_PKE_SKIP data).put RAS_PKE_SKIP_SKIP (fieldGet data 0 16)
  (List.range 16).foldl (fun d i =>
    if bitOf data.toNat i then (if (d.pkeUnit i).isNone then d.pkeLeave i else d)
    else if (tabGet (fun _ => none) d.ras.pkeTest i).isSome || d.ras.pkeBad.contains i then d
    else d.put ⟨PKE_STATUS, PKE_STATUS_IN_SERVICE.lo + i, 1⟩ 1) d

/-- ENGINE_SELF_TEST_DONE (R464): the self-test of glaze engine or public-key unit `i` ends. -/
def doEngineSelfTestDone (pke : Bool) (i : Fin 256) (pass : Bool) (d : Dev) : Dev :=
  let fam := if pke then 0x14 else 0x12
  match tabGet (fun _ => none) (if pke then d.ras.pkeTest else d.ras.glzTest) i with
  | none => d
  | some c =>
    if d.cycle < c + (if pke then 1200000 else 60000) then d
    else
      let (bad, d) := d.injTest fam i
      let d := d.setRas fun r =>
        if pke then { r with pkeTest := tabSet (fun _ => none) r.pkeTest i none } else { r with glzTest := tabSet (fun _ => none) r.glzTest i none }
      if pass && !bad then
        if pke then (if bitOf (d.get RAS_PKE_SKIP_SKIP) i then d else d.put ⟨PKE_STATUS, PKE_STATUS_IN_SERVICE.lo + i, 1⟩ 1)
        else (if bitOf (d.get (RAS_GLZ_SKIP_SKIP (i.val / 32))) (i.val % 32) then d else d.put ⟨RAS_GLZ_OUT (i.val / 32), i.val % 32, 1⟩ 0)
      else
        let d := if pke then d.setEvent ⟨RAS_PKE_FAIL, i, 1⟩ else d.setEvent ⟨RAS_GLZ_FAIL (i.val / 32), i.val % 32, 1⟩
        let d := d.setRas fun r =>
          if pke then { r with pkeBad := (r.pkeBad ++ [i.val]).dedup } else { r with glzBad := (r.glzBad ++ [i.val]).dedup }
        d.rasError { RasErr.of fam i .uc 0 with injected := bad }

/-! ### LPM banks (R465) -/

/-- LPM_ROT_START (R465). -/
def doLpmRotStart (p : Path) (data : W32) (d : Dev) : Dev :=
  let d := d.writeFields p RAS_LPM_ROT data
  if fieldGet data 31 1 = 0 then d
  else if d.flag RAS_LPM_ROT_BUSY then d.inc RAS_CNT_LPM_ROT_IGNORED
  else if d.ras.lpmDead.isSome then d.setEvent RAS_LPM_ROT_FAIL
  else
    let b := fieldGet data 0 4
    let r : LpmRot := { bank := b, old := d.lpmPhys b, new := d.get RAS_LPM_ROT_SPARE, since := d.cycle, switched := false }
    (d.put RAS_LPM_ROT_BUSY 1).setRas fun x => { x with lpmRot := some r }

/-- LPM_BANK_SWITCH (R465): the copy has ended; slots that it found bad are invalidated, and the bank maps to its new physical
bank. -/
def doLpmBankSwitch (d : Dev) : Dev :=
  match d.ras.lpmRot with
  | none => d
  | some r =>
    if r.switched || decide (d.cycle < r.since + 16384) then d
    else
      let d := d.purge fun x => match x with | .lpm i => i / 16384 == r.bank | _ => false
      let new := if r.new = r.bank then none else some r.new
      (d.setRas fun x => { x with
        lpmMap := tabSet (fun _ => none) x.lpmMap r.bank new, lpmRot := some { r with switched := true, since := d.cycle } }).inc
        RAS_CNT_LPM_ROTATIONS

/-- LPM_MARCH_DONE (R465): the old bank becomes the spare, or is retired. -/
def doLpmMarchDone (pass : Bool) (d : Dev) : Dev :=
  match d.ras.lpmRot with
  | none => d
  | some r =>
    if !r.switched || decide (d.cycle < r.since + 2 * cyMs) then d
    else
      let d := (d.setRas fun x => { x with lpmRot := none }).put RAS_LPM_ROT_BUSY 0
      if pass then d.put RAS_LPM_ROT_SPARE r.old
      else ((d.setRas fun x => { x with lpmDead := some r.old }).setEvent RAS_LPM_ROT_FAIL).rasError (.of 0x0F r.old .uc 0)

/-! ### Lanes (R466) -/

namespace Dev

/-- The bit errors met on a port's lanes. -/
def laneErrors (d : Dev) (n : Nat) (errs : List Nat) : Dev :=
  (List.range 4).foldl (fun d i => d.bump (RAS_LANE_ERRS n i) (errs.getD i 0)) d

end Dev

/-- LANE_TEST_RUN (R466): a write of RAS_LANE_TEST_n; `errs` are the bit errors that a test has met so far. -/
def doLaneTestRun (p : Path) (n : Fin 16) (data : W32) (errs : List Nat) (d : Dev) : Dev :=
  let d := d.writeFields p (RAS_LANE_TEST n) data
  let on := fieldGet data 31 1
  let was := d.flag (RAS_LANE_TEST_RUN n)
  let d := if was then d.laneErrors n errs else d
  let d := d.put (RAS_LANE_TEST_RUN n) on
  if on = 1 ∧ was = false then
    let keep := some (d.get (ETH_CTRL_LOOPBACK n), d.cycle)
    let d := (d.setRas fun r => { r with lane := tabSet (fun _ => none) r.lane n keep }).put (RAS_LANE_TEST_LOCK n) 0
    let d := (d.subsOf n).foldl (fun d i => d.linkFalls n i) d
    d.setLoopback n 1
  else if on = 0 ∧ was = true then
    match tabGet (fun _ => none) d.ras.lane n with
    | some (v, _) =>
      let d := (d.setRas fun r => { r with lane := tabSet (fun _ => none) r.lane n none }).setLoopback n v
      (List.range 4).foldl (fun d i => d.modSub (4 * n + i) fun x => { x with brokenAt := d.cycle }) d
    | none => d
  else d

/-- LANE_LOCK_TIMEOUT (R466): 1 ms after RUN the lanes of `lost` have not locked their checkers, the others have; `errs` are the
bit errors met so far. -/
def doLaneLockTimeout (n : Fin 16) (lost : BitVec 4) (errs : List Nat) (d : Dev) : Dev :=
  match tabGet (fun _ => none) d.ras.lane n with
  | none => d
  | some (_, c) =>
    if d.cycle < c + cyMs then d
    else
      let d := d.laneErrors n errs
      (List.range 4).foldl (fun d i =>
        if lost.getLsbD i then
          (d.setEvent ⟨RAS_LANE_TEST n, i, 1⟩).rasError (.of 0x1B (4 * n + i) .uc (d.count (RAS_LANE_ERRS n i)))
        else d.put ⟨RAS_LANE_TEST n, 4 + i, 1⟩ 1) d

/-! ### HBM (R467, R468) -/

namespace Dev

/-- An HBM command of OP `op` reaches the block; while one runs it is ignored. -/
def hbmCmd (p : Path) (op : Nat) (data : W32) (f : Nat → Dev → Dev) (d : Dev) : Dev :=
  let d := d.writeFields p RAS_HBM_CMD data
  if fieldGet data 28 4 ≠ op ∨ d.flag RAS_HBM_STATUS_BUSY = true then d else f (fieldGet data 16 7) d

end Dev

/-- SPARE_ROW (R467). -/
def doSpareRow (p : Path) (data : W32) (d : Dev) : Dev :=
  Dev.hbmCmd p 1 data (fun pc d =>
    let (ok, d) := d.spareRow pc (d.get RAS_HBM_ROW_BANK) (d.get RAS_HBM_ROW_ROW) true
    if ok then d.put RAS_HBM_STATUS_BUSY 1 else d.hbmEnd 0x52) d

/-- ROW_SPARE_COMPLETE (R467): the copy of the first row being spared ends, and the remap takes effect. -/
def doRowSpareComplete (d : Dev) : Dev :=
  match d.ras.sparing with
  | [] => d
  | (k, byCommand) :: rest =>
    let d := (d.setRas fun r => { r with sparing := rest, spared := r.spared ++ [k] }).inc RAS_CNT_HBM_ROWS_SPARED
    if byCommand then d.hbmEnd 0 else d

/-- RETIRE_PC (R468). -/
def doRetirePc (p : Path) (data : W32) (d : Dev) : Dev :=
  Dev.hbmCmd p 2 data (fun pc d => (d.retirePc pc).hbmEnd 0) d

end Sys2Proof.Machine
end

