-- ==== Sys2Proof/Machine/BusOps.lean ====
section
/-!
DEFINITION. Accesses that carry whole register words: the write of one word with the actions of all its fields (R29, R43), the
inbound memory requests of the host links (R315 to R320, R327, R348, R368, R387), and the memory access of the JTAG TAP (R249).
-/

namespace Sys2Proof.Machine
namespace Dev

/-! ### Plain fields -/

/-- The gate whose registers or lists lie at an address. -/
def gateAt (a : Nat) : Option Nat :=
  match gateListAt a with
  | some (g, _) => some g
  | none => gateRegsAt a

/-- What a write settles first: the buckets whose rate or size it changes (R138, R373). -/
def settleFor (d : Dev) (a : Nat) : Dev :=
  if 0x1000000 ≤ a ∧ a < 0x1400000 ∧ 0x50 ≤ a % 0x800 ∧ a % 0x800 < 0x68 then
    let s := (a - 0x1000000) / 0x800
    d.modSag s fun x => [ArbKind.dma, .glz, .pke].foldl (fun x k => withBucket x k (d.settleBucket k s (bucketOf x k))) x
  else if 0x200000 ≤ a ∧ a < 0x300000 ∧ a % 0x20000 = 0x240 then d.settlePunt ((a - 0x200000) / 0x20000)
  else if a = TBL_CTRL then d.restartScrub
  else d

/-- The channel whose interrupt configuration, DMA_CH_SIZE or DMA_CH_HOLDOFF, lies at an address. -/
def irqRegAt (a : Nat) : Option Nat :=
  let o := a - DMA_CH_SIZE 0 0
  if a < DMA_CH_SIZE 0 0 then none
  else
    let e := o / 0x10000
    let c := o % 0x10000 / 0x80
    if e < 16 ∧ c < 256 ∧ (a = DMA_CH_SIZE e c ∨ a = DMA_CH_HOLDOFF e c) then some (256 * e + c) else none

/-- What follows from a plain field at once: the states of the gates and of the ports' receive paths, and the conditions of a
channel's message (R350). -/
def followUp (d : Dev) (a : Nat) : Dev :=
  match irqRegAt a with
  | some g => d.chMsix g
  | none =>
  match gateAt a with
  | some g => d.syncGate g
  | none =>
    if a = CLK_RX_EN then (List.range 16).foldl (fun d n => d.syncPort n) d
    else
      let n := (a - 0x100000) / 0x10000
      if 0x100000 ≤ a ∧ a < 0x200000 ∧ (a = ETH_MODE n ∨ a = ETH_LANE_CFG n) then d.syncPort n else d

/-- A write of the fields that have no row of their own; GLZ_KC_BASE keeps its value where the region it names would meet another
(R155). TAG_SAGGAR is stored as 0 from every path but device firmware's
(R353). -/
def plainWrite (d : Dev) (p : Path) (a : Nat) (data : W32) : Dev :=
  let isCfg := decide (0xF00000 ≤ a) && decide (a < 0x1000000) && decide (0x8000 ≤ a % 0x10000) && a % 0x80 == 4
  let data := if isCfg && p != .fw then data &&& ~~~(0x1000#32) else data
  if a = GLZ_KC_BASE ∧ d.locked GLZ_CTRL = false ∧ d.kcClash data = true then d
  else ((d.settleFor a).writeFields p a data).followUp a

end Dev

/-- REGISTER_WRITE (R43). -/
def doRegisterWrite (p : Path) (w : Fin 16777216) (data : W32) (d : Dev) : Dev := d.plainWrite p (busKey (4 * w)) data

namespace Dev

/-! ### Whole words -/

/-- The saggar operation that a write of SAG_CTRL names. -/
def sagOp (p : Path) (s : Fin 2048) (data : W32) (x : Aux) : Dev → Dev :=
  match fieldGet data 28 4 with
  | 1 => doSagCreate p s data
  | 2 => doSagDestroy p s data
  | 3 => doSagReset p s data
  | 4 => doSagFreeze p s data
  | 5 => doSagThaw p s data
  | 6 => doSagSave p s data
  | 7 => doSagRestore p s data x.host
  | 8 => doSagAllotCh p s data
  | 9 => doSagFreeCh p s data
  | 10 => doSagDirtyStart p s data
  | 11 => doSagDirtyRead p s data
  | 12 => doSagDirtyStop p s data
  | _ => id

/-- The indirect commands of BUF, TM, GLZ and STO. -/
def bufOp (p : Path) (data : W32) : Dev → Dev :=
  match fieldGet data 24 3 with
  | 1 => doReadQ p data | 2 => doWriteQ p data | 3 => doReadM p data | 4 => doWriteM p data
  | 5 => doClearQCnt p data | 6 => doClearMCnt p data | _ => id

def tmOp (p : Path) (data : W32) : Dev → Dev :=
  match fieldGet data 24 3 with
  | 1 => doReadNode p data | 2 => doWriteNode p data | 3 => doReadSf p data | 4 => doWriteSf p data
  | 5 => doClearSfCnt p data | _ => id

def ixtOp (p : Path) (data : W32) : Dev → Dev :=
  match fieldGet data 24 3 with
  | 1 => doReadIxt p data | 2 => doWriteIxt p data | 3 => doClearIxtCnt p data | _ => id

def stoOp (p : Path) (data : W32) (x : Aux) : Dev → Dev :=
  match fieldGet data 24 3 with
  | 1 => doReadNs p data | 2 => doWriteNs p data x.old x.ok | 3 => doReadTgt p data | 4 => doWriteTgt p data
  | 5 => doReadCtl p data | 6 => doWriteCtl p data
  | 7 => fun d => if fieldGet data 20 2 = 1 then doJournalResume p data d else doJournalSeal p data d
  | _ => id

/-- The flash and fuse operations. -/
def bootOp (p : Path) (data : W32) : Dev → Dev :=
  match fieldGet data 28 4 with
  | 1 => doWriteImage p data | 2 => doWriteProfile p data | 3 => doSetTrial p data | 4 => doBootConfirm p data
  | 5 => doReadCert p data | 6 => doRaiseRollback p data | 7 => doRevokeSlot p data | 8 => doReadLog p data
  | _ => fun d => if d.flag BOOT_FLASH_STATUS_BUSY then d.inc BOOT_GATE_VIOL else d.plainWrite p BOOT_FLASH_CMD data

/-- The spare commands. -/
def spareOp (p : Path) (data : W32) (x : Aux) : Dev → Dev :=
  match fieldGet data 28 4 with
  | 1 => doKilnReplace p data | 2 => doKilnDeclareDead p data x.lost | 3 => doKilnTest p data | 4 => doKilnRetire p data
  | _ => id

def hbmOp (p : Path) (data : W32) : Dev → Dev :=
  match fieldGet data 28 4 with
  | 1 => doSpareRow p data | 2 => doRetirePc p data | _ => id

/-- What the fields of a gate's control that have rows of their own do: CANCEL before CONFIG_CHANGE, the enable last. -/
def gateOp (p : Path) (g : Fin 272) (data : W32) (d : Dev) : Dev :=
  doGateEnable p g data (doGateConfigChange p g data (doGateCancel p g data d))

/-- The actions of the words of the island's and the chip-wide blocks. -/
def islandActs (p : Path) (a : Nat) (data : W32) (x : Aux) (d : Dev) : Dev :=
  if a = RST_CTRL then doRstWarm p data d
  else if a = RST_QUAD_CTRL then doQuadrantReset p data d
  else if a = BOOT_QUAD_REL then doBootQuadRel p data d
  else if a = RAS_INJ then doRasInjWrite p data d
  else if a = RAS_SPARE_CMD then spareOp p data x d
  else if a = RAS_HBM_CMD then hbmOp p data d
  else if a = RAS_LPM_ROT then doLpmRotStart p data d
  else if a = RAS_PKE_SKIP then doPkeSkip p data d
  else if RAS_GLZ_SKIP 0 ≤ a ∧ a < RAS_GLZ_SKIP 8 then doGlzSkip p (Fin.ofNat 8 ((a - RAS_GLZ_SKIP 0) / 4)) data d
  else if RAS_LANE_TEST 0 ≤ a ∧ a < RAS_LANE_TEST 16 then doLaneTestRun p (Fin.ofNat 16 ((a - RAS_LANE_TEST 0) / 4)) data x.errs d
  else if a = TIME_CMD then timeCmd data d
  else if a = TIME_SYNC then doForceHoldover p data (doTimeKick p data d)
  else if a = TIME_HOLD then doGateOnLossWrite p data d
  else d

/-- The actions of the words of the packet path. -/
def pathActs (p : Path) (a : Nat) (data : W32) (d : Dev) : Dev :=
  let n := (a - 0x100000) / 0x10000
  let k := (a - 0x200000) / 0x20000
  if a < 0x200000 ∧ a = ETH_CTRL n then
    if fieldGet data 31 1 = 1 then doPortReset p (Fin.ofNat 16 n) data d
    else doPortEnable p (Fin.ofNat 16 n) data (doLoopbackChange p (Fin.ofNat 16 n) data d)
  else if a < 0x300000 ∧ a = PL_PARSE_CTRL k then doParseEnable p (Fin.ofNat 8 k) data d
  else if a < 0x300000 ∧ a = PL_PARSE_ENTRY k then doParseEntryWrite p (Fin.ofNat 8 k) data d
  else if a < 0x300000 ∧ a = PL_CLS_CTRL k then doClassifyEnable p (Fin.ofNat 8 k) data d
  else if a = TBL_CTRL then doTableEnable p data d
  else if a = BUF_CTRL then doBufferEnable p data d
  else if a = BUF_IND_CMD then bufOp p data d
  else if a = TM_CTRL then doTmEnable p data d
  else if a = TM_IND_CMD then tmOp p data d
  else
    match gateAt a with
    | some g => if a = gateCtrl g then gateOp p (Fin.ofNat 272 g) data d else d
    | none => d

/-- The actions of the words of a DMA channel's control. -/
def chanCtl (g : Fin 4096) (data : W32) (d : Dev) : Dev :=
  doDmaStart g data (doDmaResume g data (doDmaPause g data (doDmaReset g data d)))

/-- The actions of the words of the engines, the host links, the saggars and storage. -/
def engineActs (p : Path) (a : Nat) (data : W32) (x : Aux) (d : Dev) : Dev :=
  let n := (a - 0xE00000) / 0x80000
  let m := (a % 0x80000 - 0x1000) / 0x100
  let e := (a - 0xF00000) / 0x10000
  let c := (a % 0x10000 - 0x8000) / 0x80
  let s := (a - 0x1000000) / 0x800
  if a = GLZ_CTRL then doGlazeEnable p data d
  else if a = GLZ_IND_CMD then ixtOp p data d
  else if a = PKE_CTRL then doPkeEnable p data d
  else if 0xE00000 ≤ a ∧ a < 0xF00000 then
    if a = HIF_CTRL n then doHifEnable p (Fin.ofNat 2 n) data d
    else if m < 4 ∧ a = HIF_FREEZE n m then doFreezeRel p (Fin.ofNat 8 (4 * n + m)) data d
    else d
  else if 0xF00000 ≤ a ∧ a < 0x1000000 then
    if a = DMA_ENG_CTRL e then doDmaEngineEnable (Fin.ofNat 16 e) data (doDmaClearStop (Fin.ofNat 16 e) data d)
    else if c < 256 ∧ a = DMA_CH_CTRL e c then chanCtl (Fin.ofNat 4096 (256 * e + c)) data d
    else d
  else if 0x1000000 ≤ a ∧ a < 0x1400000 then
    if a = SAG_CTRL s then sagOp p (Fin.ofNat 2048 s) data x d
    else if a = SAG_MBX_M2T_TAIL s then doSagMbxM2tTail p (Fin.ofNat 2048 s) data d
    else d
  else if a = STO_CTRL then doStorageEnable p data d
  else if a = STO_IND_CMD then stoOp p data x d
  else d

/-- A write of a whole word: the fields without a row under their access types, then the actions of the others; a lock
violation of the word is reported once. BOOT_FLASH_CMD and GLZ_KC_BASE decide over their whole word. -/
def busWrite (d : Dev) (p : Path) (a : Nat) (data : W32) (x : Aux) : Dev :=
  if a = BOOT_FLASH_CMD then bootOp p data d
  else if a = GLZ_KC_BASE then doGlzKcBaseWrite p data d
  else
    let d := d.plainWrite p a data
    if a < 0x100000 then islandActs p a data x d
    else
      let v := d.reg.viol
      let y := if a < 0xC00000 then pathActs p a data d else engineActs p a data x d
      { y with reg := { y.reg with viol := v } }

/-- A write to the register at `a` lands, its effect being `f`: one behind a severed crossing is held in front of it (R425), and one to a
port that this cycle resets is discarded and counted (R426). -/
def lands (d : Dev) (p : Path) (a : Nat) (data : W32) (f : Dev → Dev) : Dev :=
  if d.behind a then d.setPkg fun s => { s with held := s.held ++ [(p, a, data)] }
  else if 0x100000 ≤ a ∧ a < 0x200000 then
    let n := (a - 0x100000) / 0x10000
    if d.marked (.portReset n) then d.inc CLK_CNT_XING_DROP
    else
      let y := f d
      if y.marked (.portReset n) then y else y.mark (.portWrite a (d.rd a))
  else f d

/-- A crossing is whole again: the writes held in front of it land, in their order (R425). -/
def reconnect (d : Dev) (x : Crossing) : Dev :=
  let d := { d with pkg := { d.pkg with severed := d.pkg.severed.filter (· != x) } }
  let go := d.pkg.held.filter fun w => !d.behind w.2.1
  let d := d.setPkg fun s => { s with held := s.held.filter fun w => d.behind w.2.1 }
  go.foldl (fun d w => d.busWrite w.1 w.2.1 w.2.2 ⟨[], [], false, [], []⟩) d

end Dev

/-- CROSSING_RECONNECT (R425): the reset half of a crossing is released, and the handshake ends. -/
def doCrossingReconnect (x : Crossing) (d : Dev) : Dev :=
  let free := match x with
    | .core q => !bitOf (d.get RST_QUAD_STATUS_RESETTING) q
    | .kiln k => !d.kilnHeld k
    | .hif l => !d.hif.perst.contains (l.val / 4)
    | _ => true
  if free && d.severed x then d.reconnect x else d

namespace Dev

/-! ### The BARs of the functions (R315, R320) -/

/-- Whether an address lies in a BAR at `base`, and where. -/
def inBar (l f b base addr : Nat) (d : Dev) : Option (Nat × Nat × Nat × BarUse) :=
  match d.barOf l f b with
  | some (size, use) => if base ≤ addr ∧ addr < base + size then some (f, b, addr - base, use) else none
  | none => none

/-- A VF's share of the VF BARs of its PF. -/
def inVfBar (d : Dev) (l k o b base addr : Nat) : Option (Nat × Nat × Nat × BarUse) :=
  let first := d.vfBase l k
  match d.barOf l first b with
  | none => none
  | some (size, use) =>
    let i := (addr - base) / size
    if base ≤ addr ∧ i < (d.func l o).numVfs ∧ (d.func l (first + i)).d3hot = false then
      some (first + i, b, (addr - base) % size, use)
    else none

/-- What a memory address reaches behind a link: function, BAR, offset and use (R315, R320). -/
def barHit (d : Dev) (l addr : Nat) : Option (Nat × Nat × Nat × BarUse) :=
  let ps := linkPfs (d.bifurc (l / 4)) (l % 4)
  (List.range ps.length).findSome? fun o =>
    match d.funcAt l o with
    | some (.pf k) =>
      let x := d.func l o
      let own := if x.mse && !x.d3hot then
          [(0, x.bar0), (2, x.bar2), (4, x.bar4)].findSome? fun (b, base) => d.inBar l o b base addr
        else none
      match own with
      | some h => some h
      | none =>
        if k != 0 && x.vfEnable && x.vfMse then
          [(0, x.vfBar0), (2, x.vfBar2), (4, x.vfBar4)].findSome? fun (b, base) => d.inVfBar l k o b base addr
        else none
    | _ => none

/-! ### Doorbells (R333, R348) -/

/-- The channel that doorbell page `page` of a function serves: the one that has left set-up, else the lowest-numbered that
is configured for it. -/
def pageChan (d : Dev) (l f page : Nat) : Option Nat :=
  let mine := fun g => d.chBound g && d.chLink g == l && d.chFunc g == f && d.get (DMA_CH_CFG_DBPAGE (g / 256) (g % 256)) == page
  match (d.chansOf fun g => d.chSt g != chSetup && mine g).head? with
  | some g => some g
  | none => (List.range 4096).find? mine

def doorbellWrite (d : Dev) (l f off : Nat) (dws : List (Option W32)) : Dev :=
  match d.pageChan l f (off / 4096) with
  | none => d
  | some g =>
    match dws, off % 4096 with
    | [some v], 0x000 => doDbTail (Fin.ofNat 4096 g) v d
    | [some v], 0x008 => doDbIrq (Fin.ofNat 4096 g) v d
    | _, _ => d.dbBad g

def doorbellRead (d : Dev) (l f off : Nat) : Nat :=
  match d.pageChan l f (off / 4096) with
  | none => 0
  | some g =>
    match off % 4096 with
    | 0x010 => d.chDone g * 2 ^ 16 + d.chHead g
    | 0x014 => d.pauseSrc g * 2 ^ 16 + d.chSt g
    | _ => 0

/-! ### The saggar window (R368) -/

def windowRead (d : Dev) (s off : Nat) : Nat :=
  let x := d.sagOf s
  if 0x1000 ≤ off ∧ off < 0x1400 then fieldLE (slotBytes x.t2m ((off - 0x1000) / 64)) (off % 64) 4
  else if 0x1400 ≤ off ∧ off < 0x1800 then fieldLE (slotBytes x.m2t ((off - 0x1400) / 64)) (off % 64) 4
  else match off with
    | 0x00 => 0x1280 * 2 ^ 16 + d.sgState s
    | 0x04 => b2n x.irqEn * 2 ^ 31 + x.vector
    | 0x14 => x.t2mHead
    | 0x18 => x.m2tTail
    | 0x40 => d.get (SAG_CH_CH_MAX s)
    | 0x44 => d.get (SAG_GROUPS_COUNT s)
    | 0x48 => d.get (SAG_QUEUES_COUNT s)
    | 0x4C => d.get (SAG_METERS_COUNT s)
    | 0x50 => d.get (SAG_KC_COUNT_COUNT s)
    | 0x54 => d.get (SAG_HBM_PAGES_PAGES s)
    | 0x58 => d.get (SAG_THREADS_COUNT s)
    | 0x5C => d.get (SAG_TBL_QUOTA s)
    | 0x60 => d.get (SAG_TBL_USED_USED s)
    | _ => 0

def windowWrite (d : Dev) (s off : Nat) (v : W32) : Dev :=
  if 0x1000 ≤ off ∧ off < 0x1400 then
    d.modSag s fun x => { x with t2m := putSlot x.t2m (off - 0x1000) (leBytes 4 v.toNat) }
  else match off with
    | 0x04 => d.modSag s fun x => { x with irqEn := fieldGet v 31 1 == 1, vector := fieldGet v 0 11 }
    | 0x10 => doSwT2mTail (Fin.ofNat 2048 s) v d
    | 0x1C => d.modSag s fun x => { x with m2tHead := fieldGet v 0 16 }
    | _ => d

/-! ### NVMe registers and MSI-X (R316, R387) -/

def nvmeDwWrite (d : Dev) (s off : Nat) (v : W32) : Dev :=
  if off = 0x14 then doCcShutdown (Fin.ofNat 2048 s) v (doCcEnable (Fin.ofNat 2048 s) v d)
  else if 0x1000 ≤ off ∧ off < 0x1000 + 8 * 65 then
    let y := Fin.ofNat 65 ((off - 0x1000) / 8)
    if off % 8 = 0 then doSqTailDoorbell (Fin.ofNat 2048 s) y v d else doCqHeadDoorbell (Fin.ofNat 2048 s) y v d
  else d.nvmeRegWrite s off v.toNat

/-- Where the pending-bit array of a function's BAR4 begins. -/
def pbaAt (d : Dev) (l f : Nat) : Nat := match d.barOf l f 4 with | some (size, _) => size / 2 | none => 0

def msixRead (d : Dev) (l f off : Nat) : Nat :=
  let p := d.pbaAt l f
  if p ≤ off then
    ((List.range 32).map fun i =>
      let e := 8 * (off - p) + i
      if e < d.msixSize l f then b2n (d.msixEnt l f e).pending * 2 ^ i else 0).sum
  else
    let e := off / 16
    let x := d.msixEnt l f e
    if d.msixSize l f ≤ e then 0
    else match off % 16 with
      | 0 => x.addr % 2 ^ 32
      | 4 => x.addr / 2 ^ 32
      | 8 => x.data
      | _ => b2n x.masked

def msixWrite (d : Dev) (l f off : Nat) (v : W32) : Dev :=
  let e := off / 16
  if d.pbaAt l f ≤ off ∨ d.msixSize l f ≤ e then d
  else
    let x := d.msixEnt l f e
    let n := v.toNat
    (d.setMsix l f e (match off % 16 with
      | 0 => { x with addr := x.addr / 2 ^ 32 * 2 ^ 32 + n / 4 * 4 }
      | 4 => { x with addr := n * 2 ^ 32 + x.addr % 2 ^ 32 }
      | 8 => { x with data := n }
      | _ => { x with masked := n % 2 == 1 })).msixFlush l f

/-! ### Inbound requests -/

def regBad (d : Dev) (l : Nat) : Dev := d.inc (HIF_CNT_REG_BAD_ACCESS (l / 4) (l % 4))

/-- The DWs of a write to BAR `bar` of function `f`, from an offset: one whose byte enables are not all set is ignored, and counted
where `count` says so. What a link that freezes or goes down meanwhile has not applied is dropped and logged (R31). -/
def eachDw (l f bar : Nat) (count : Bool) (g : Nat → W32 → Dev → Dev) : Nat → List (Option W32) → Dev → Dev
  | _, [], d => d
  | off, x :: xs, d =>
    if !d.carries l then d.dropInbound l (some (f, bar, off))
    else eachDw l f bar count g (off + 4) xs (match x with
      | none => if count then d.regBad l else d
      | some v => g off v d)

/-- The path of register space that PF0 of a controller is. -/
def hifPath (l : Nat) : Path := if l / 4 = 0 then .hif0 else .hif1

/-- A write reaches a BAR. -/
def inboundWrite (d : Dev) (l f bar off : Nat) (use : BarUse) (dws : List (Option W32)) (x : Aux) : Dev :=
  match use with
  | .registers =>
    if 16 < dws.length then (d.regBad l).aerError l f 20 false
    else eachDw l f bar true (fun o v d => (d.inTurn (hifPath l)).lands (hifPath l) (busKey o) v fun d => d.busWrite (hifPath l) (busKey o) v x) off dws d
  | .doorbells => d.doorbellWrite l f off dws
  | .window =>
    match d.saggarOf l f with
    | some s => eachDw l f bar true (fun o v d => d.windowWrite s o v) off dws d
    | none => d
  | .nvme =>
    match d.saggarOf l f with
    | some s => eachDw l f bar false (fun o v d => d.nvmeDwWrite s o v) off dws d
    | none => d
  | .msix => eachDw l f bar false (fun o v d => d.msixWrite l f o v) off dws d

/-- One DW read from a BAR; a read of register space has its side effect. -/
def inboundDw (d : Dev) (l f off : Nat) (use : BarUse) : Nat × Dev :=
  match use with
  | .registers => (d.inTurn (hifPath l)).regRead (busKey off)
  | .doorbells => (d.doorbellRead l f off, d)
  | .window => (match d.saggarOf l f with | some s => d.windowRead s off | none => if off = 0 then 0x1280 * 2 ^ 16 else 0, d)
  | .nvme => (match d.saggarOf l f with | some s => d.nvmeReg s off | none => 0, d)
  | .msix => (d.msixRead l f off, d)

/-- `n` DWs from a BAR, in ascending order. -/
def inboundRead (l f : Nat) (use : BarUse) : Nat → Nat → Dev → List Byte × Dev
  | 0, _, d => ([], d)
  | n + 1, off, d =>
    let v := d.inboundDw l f off use
    let r := inboundRead l f use n (off + 4) v.2
    (leBytes 4 v.1 ++ r.1, r.2)

end Dev

/-- INBOUND_MEMORY_WRITE (R317, R320, R327): the DWs of a memory write at `addr` on link `l`, none for a DW whose byte enables
are not all set. -/
def doInboundMemoryWrite (l : Fin 8) (addr : Nat) (dws : List (Option W32)) (poisoned : Bool) (x : Aux) (d : Dev) : Dev :=
  if dws.isEmpty then d
  else
    let hit := d.barHit l (addr / 4 * 4)
    if !d.carries l then
      -- R331: a poisoned TLP received counts on a frozen link too
      let d := if poisoned && d.linkUp l then d.aerError l ((hit.map (·.1)).getD 0) 12 true else d
      d.dropInbound l (hit.map fun h => (h.1, h.2.1, h.2.2.1))
    else
      let d := d.tlpOn l
      match hit with
      | none => d.aerError l 0 20 false
      | some (f, bar, off, use) =>
        if poisoned then (d.aerError l f 12 true).inc (HIF_CNT_DROPPED_WRITES ((l : Nat) / 4) ((l : Nat) % 4))
        else d.inboundWrite l f bar off use dws x

/-- INBOUND_MEMORY_READ (R317, R320, R327): a non-posted request at `addr` on link `l`. -/
def doInboundMemoryRead (l : Fin 8) (addr : Nat) (r : MemReq) (d : Dev) : Dev :=
  if !d.linkUp l || (d.link l).inL23 then d
  else
    let d := d.tlpOn l
    let hit := d.barHit l (addr / 4 * 4)
    match r, hit with
    | .read n, at_ =>
      if d.frozen l then (d.inc (HIF_CNT_ABORTED_READS ((l : Nat) / 4) ((l : Nat) % 4))).emit (.completion l 2 [])
      else match at_ with
      | none => d.urReply l 0
      | some (f, _, off, use) =>
        let long := match use with | .registers => decide (16 < n) | _ => decide (1024 < n)
        if n = 0 || long then d.urReply l f
        else
          let v := Dev.inboundRead l f use n off d
          v.2.emit (.completion l 0 v.1)
    | _, some (f, _, _, _) => d.urReply l f
    | _, none => d.urReply l 0

/-- JTAG_MEMORY_ACCESS (R249): an access to the HBM through the JTAG TAP; a poisoned line that it reads is a use of it
(R453). It does not reach the key contexts (R263). -/
def doJtagMemoryAccess (r : JtagReq) (d : Dev) : Dev :=
  match r with
  | .read a n =>
    if n = 0 ∨ hbmSize < a + n ∨ d.retired a n = true ∨ d.inKc a n = true then d
    else
      let d := d.ioRead a n
      let d := if d.poisoned a n then d.consumed a else d
      d.emit (.jtag (d.hbmRead a n))
  | .write a bs => if bs.isEmpty = true ∨ hbmSize < a + bs.length ∨ d.retired a bs.length = true ∨ d.inKc a bs.length = true then d
    else d.hbmWriteAs (5 * 64 + 34) a bs

end Sys2Proof.Machine
end

