-- ==== Sys2Proof/Machine/State.lean ====
section
/-!
DEFINITION. The machine's state: the device and the queue of the commands that wait for it; and the reasons for which
a command can stop.
-/

namespace Sys2Proof.Machine

/-- The faults. None: the manual describes no condition that stops the part without an effect on its state. -/
inductive Fault where
  deriving DecidableEq, Repr

/-- The refusals. -/
inductive Refusal where
  /-- A command that has no meaning yet, by the mnemonic of its row. Raised by the dispatch alone; safe. -/
  | notModelled (mnemonic : String)
  deriving DecidableEq, Repr

/-- The state of the machine. -/
structure State where
  /-- The commands that wait, first in, first out: the model's own field, no state of the part. -/
  pending : List Instr
  /-- Everything the manual gives the part. -/
  dev : Dev
  deriving DecidableEq, Repr

/-- The machine right after package cold reset: nothing waits. -/
def State.reset : State := { pending := [], dev := .reset }

/-- The answer of a command whose effect is `f`: while the part has no power, or its oscillator has failed, nothing outside
AON happens (R421, R489). -/
def State.effect (s : State) (f : Dev → Dev) : Host.Outcome State Fault Refusal :=
  .next (if s.dev.alive then { s with dev := f s.dev } else s)

/-- The answer of a command of the AON domain, whose effect `f` says itself what power it needs. -/
def State.effectAon (s : State) (f : Dev → Dev) : Host.Outcome State Fault Refusal := .next { s with dev := f s.dev }

end Sys2Proof.Machine
end

