-- ==== Sys2Proof/Machine/Access.lean ====
section
/-!
DEFINITION. The ways into the device: the four paths into register space, which the profile and the state of the host links
open (R28, R31), and the BARs of the functions (R315, R327). The meanings of the commands that software sends go through them.
-/

namespace Sys2Proof.Machine
namespace Dev

/-- Whether the memory space of a function is enabled (R313, R323). -/
def funcOpen (d : Dev) (l f : Nat) : Bool :=
  match d.funcAt l f with
  | some (.pf _) => (d.func l f).mse && !(d.func l f).d3hot
  | some (.vf k i) =>
    match d.pfOffset l k with
    | some o => (d.func l o).vfEnable && (d.func l o).vfMse && decide (i < (d.func l o).numVfs) && !(d.func l f).d3hot
    | none => false
  | none => false

/-- Whether a request of the host on link `l` reaches a BAR of function `f`. -/
def hostOpen (d : Dev) (l f : Nat) : Bool := d.carries l && d.funcOpen l f

/-- The link whose PF0 is a path into register space (R28, R312). -/
def pathLink : Path → Option Nat
  | .hif0 => some 0
  | .hif1 => some 4
  | _ => none

/-- Whether a path reaches register space: HIF1 and the out-of-band path where the profile enables them (R28), a host path while
its link carries requests to PF0 (R31). -/
def pathOpen (d : Dev) : Path → Bool
  | .fw => true
  | .oob => d.boot.profile.oobEn
  | .hif0 => d.hostOpen 0 0
  | .hif1 => d.boot.profile.hif1.regPath && d.hostOpen 4 0

/-- An access comes in on a path: it is a TLP on a host link, and it takes its turn among the accesses of its cycle (R29). -/
def reach (d : Dev) (p : Path) : Dev :=
  (match pathLink p with | some l => d.tlpOn l | none => d).inTurn p

/-- A write that reaches no BAR: on a frozen link, or one that is down, it is dropped and logged (R31, R327), else it is an
unsupported request (R320). -/
def lostWrite (d : Dev) (l f bar off : Nat) : Dev :=
  if !d.carries l then d.dropInbound l (if d.funcOpen l f then some (f, bar, off) else none)
  else (d.tlpOn l).aerError l 0 20 false

/-- A read that reaches no BAR (R327, R320). -/
def lostRead (d : Dev) (l : Nat) : Dev :=
  if !d.linkUp l || (d.link l).inL23 then d
  else if d.frozen l then ((d.tlpOn l).inc (HIF_CNT_ABORTED_READS (l / 4) (l % 4))).emit (.completion l 2 [])
  else (d.tlpOn l).urReply l 0

/-- A write of `data` to register space at `a` by a path, whose effect is `f`. -/
def regWriteBy (d : Dev) (p : Path) (a : Nat) (data : W32) (f : Dev → Dev) : Dev :=
  if d.pathOpen p then (d.reach p).lands p (busKey a) data f
  else match pathLink p with
    | some l => d.lostWrite l 0 0 a
    | none => d

/-- A read of register space by a path, whose effect is `f`. -/
def regReadBy (d : Dev) (p : Path) (f : Dev → Dev) : Dev :=
  if d.pathOpen p then f (d.reach p)
  else match pathLink p with
    | some l => d.lostRead l
    | none => d

/-- A write at offset `off` of a BAR of function `f` on link `l`, whose effect is `g`; where there is no such function, no write
can come. -/
def barWriteBy (d : Dev) (l f bar off : Nat) (g : Dev → Dev) : Dev :=
  if d.hostOpen l f then g (d.tlpOn l) else if (d.funcAt l f).isNone then d else d.lostWrite l f bar off

end Dev

/-- The answer of a command that writes a register. -/
def State.regWrite (s : State) (p : Path) (a : Nat) (data : W32) (f : Dev → Dev) : Host.Outcome State Fault Refusal :=
  s.effect fun d => d.regWriteBy p a data f

/-- The answer of a command that reads a register. -/
def State.regRead (s : State) (p : Path) (f : Dev → Dev) : Host.Outcome State Fault Refusal :=
  s.effect fun d => d.regReadBy p f

/-- The answer of a command that writes at an offset of a function's BAR. -/
def State.barWrite (s : State) (l f bar off : Nat) (g : Dev → Dev) : Host.Outcome State Fault Refusal :=
  s.effect fun d => d.barWriteBy l f bar off g

/-! ### The reads of registers that have rows -/

/-- COUNTER_LOW_READ (R47): of the counter whose low half is the word `w`. -/
def doCounterLowRead (p : Path) (w : Fin 16777216) (d : Dev) : Dev :=
  match counterAt (busKey (4 * w)) with
  | some (true, true) => let r := d.regRead (busKey (4 * w)); r.2.emit (.regRead p (4 * w) r.1)
  | _ => d

/-- TIME_NOW_FRAC_READ (R198). -/
def doTimeNowFracRead (p : Path) (d : Dev) : Dev :=
  let r := d.regRead TIME_NOW_FRAC
  r.2.emit (.regRead p TIME_NOW_FRAC r.1)

/-- TIME_PPS_IN_FRAC_READ (R198). -/
def doTimePpsInFracRead (p : Path) (d : Dev) : Dev :=
  let r := d.regRead TIME_PPS_IN_FRAC
  r.2.emit (.regRead p TIME_PPS_IN_FRAC r.1)

end Sys2Proof.Machine
end

