-- ==== Sys2Proof/Machine/Boot.lean ====
section
/-!
DEFINITION. The meanings of the commands of the family Boot: each puts the effect of its row on the
device and leaves the queue alone.
-/

namespace Sys2Proof.Machine

/-- WRITE_IMAGE (R448): Flash operation WRITE_IMAGE erases and writes an image slot and checks it. -/
def execWriteImage (p : Path) (data : W32) (s : State) : Host.Outcome State Fault Refusal :=
  s.regWrite p BOOT_FLASH_CMD data (doWriteImage p data)

/-- WRITE_PROFILE (R448): Flash operation WRITE_PROFILE checks and writes a profile. -/
def execWriteProfile (p : Path) (data : W32) (s : State) : Host.Outcome State Fault Refusal :=
  s.regWrite p BOOT_FLASH_CMD data (doWriteProfile p data)

/-- SET_TRIAL (R448): Flash operation SET_TRIAL names a slot for a one-boot trial. -/
def execSetTrial (p : Path) (data : W32) (s : State) : Host.Outcome State Fault Refusal :=
  s.regWrite p BOOT_FLASH_CMD data (doSetTrial p data)

/-- CONFIRM (R448): Flash operation CONFIRM makes the running slot preferred. -/
def execBootConfirm (p : Path) (data : W32) (s : State) : Host.Outcome State Fault Refusal :=
  s.regWrite p BOOT_FLASH_CMD data (doBootConfirm p data)

/-- READ_CERT (R448): Flash operation READ_CERT writes the device certificate. -/
def execReadCert (p : Path) (data : W32) (s : State) : Host.Outcome State Fault Refusal :=
  s.regWrite p BOOT_FLASH_CMD data (doReadCert p data)

/-- RAISE_ROLLBACK (R448): Flash operation RAISE_ROLLBACK blows rollback fuses up to a count. -/
def execRaiseRollback (p : Path) (data : W32) (s : State) : Host.Outcome State Fault Refusal :=
  s.regWrite p BOOT_FLASH_CMD data (doRaiseRollback p data)

/-- REVOKE_SLOT (R448): Flash operation REVOKE_SLOT blows the revoke fuse of a key slot. -/
def execRevokeSlot (p : Path) (data : W32) (s : State) : Host.Outcome State Fault Refusal :=
  s.regWrite p BOOT_FLASH_CMD data (doRevokeSlot p data)

/-- READ_LOG (R448): Flash operation READ_LOG writes the boot-attempt log. -/
def execReadLog (p : Path) (data : W32) (s : State) : Host.Outcome State Fault Refusal :=
  s.regWrite p BOOT_FLASH_CMD data (doReadLog p data)

/-- FLASH_OP_COMPLETE (R448): A flash or fuse operation ends and sets DONE and RESULT. -/
def execFlashOpComplete (host : List Byte) (uncorr : Bool) (s : State) : Host.Outcome State Fault Refusal :=
  s.effect (doFlashOpComplete host uncorr)

/-- REC_BEGIN (R446): I3C command REC_BEGIN clears the recovery buffer in RECOVERY. -/
def execI3cRecBegin (len : W32) (s : State) : Host.Outcome State Fault Refusal :=
  s.effect (doI3cRecBegin len)

/-- REC_DATA (R446): I3C command REC_DATA appends bytes to the recovery buffer. -/
def execI3cRecData (bytes : List Byte) (s : State) : Host.Outcome State Fault Refusal :=
  s.effect (doI3cRecData bytes)

/-- REC_END (R446): I3C command REC_END attempts the recovery buffer as an image. -/
def execI3cRecEnd (s : State) : Host.Outcome State Fault Refusal :=
  s.effect doI3cRecEnd

end Sys2Proof.Machine
end

