-- ==== Sys2Proof/Machine/BootSeq.lean ====
section
/-!
DEFINITION. The steps of a boot: profile selection, the attempts on images, the release of the management cores, the opening of
the gate and the boot restart (R434 to R441, R445, R447).
-/

namespace Sys2Proof.Machine
namespace Dev

/-- Profile `i` as it stands in flash, if it is valid; `bad` are the profiles that cannot be read. -/
def flashProfile (d : Dev) (bad : List Nat) (i : Nat) : Option Profile :=
  if bad.contains i then none else parseProfile fun o n => d.flashRead (profileBase i + o) n

/-- The profile to begin with (R447): PROFILE_SEL at a cold reset; at a warm reset BOOT_PROFILE_NEXT, or the one in force
before. 4 stands for the built-in profile. -/
def wantedProfile (d : Dev) : Nat :=
  if d.get RST_CAUSE_CAUSE ≤ causeMain then d.boot.profileSel
  else if d.flag BOOT_PROFILE_NEXT_VALID then d.get BOOT_PROFILE_NEXT_INDEX
  else d.boot.lastProfile

/-- The profile that serves the boot: a profile that is not valid is replaced by profile 0, and that by the built-in one. -/
def chooseProfile (d : Dev) (bad : List Nat) : Nat × Profile :=
  let i := d.wantedProfile
  match (if i < 4 then d.flashProfile bad i else none) with
  | some p => (i, p)
  | none =>
    if i = 4 then (4, .builtin)
    else match d.flashProfile bad 0 with
      | some p => (0, p)
      | none => (4, .builtin)

/-- The preload of the profile is written through the device-firmware path, in order (R449). -/
def preloadAll (d : Dev) : Dev :=
  d.boot.preload.foldl (fun d e =>
    let old := (d.rd e.offset).toNat
    let v := (old &&& (2 ^ 32 - 1 - e.mask)) ||| (e.value &&& e.mask)
    d.busWrite .fw e.offset (BitVec.ofNat 32 v) ⟨[], [], false, [], []⟩) d

/-- The header fields of an image as they stand, sound or not. -/
def rawHdr (rd : ByteSrc) : ImageHdr := ⟨leNat (rd 12 4), leNat (rd 16 4), leNat (rd 20 1), leNat (rd 21 1), []⟩

/-- The boot restart (R441): every unit but the island's core, the AON-held state, the TIME domain and the HBM controllers is
reset, the HBM ranges of the failed image are filled with zero, and the profile's preload is applied again. -/
def bootRestart (d : Dev) : Dev :=
  let x := d.resetBase fun a => warmKeeps a || (decide (0x30000 ≤ a) && decide (a < 0x40000))
  let x := { x with
    cycle := d.cycle, time := d.time, mem := d.mem, tbl := { x.tbl with scrubAt := d.cycle }
    boot := { d.boot with wrote := [], staged := [] }
    pkg := { d.pkg with severed := [.time, .aon], held := [], quads := [] } }
  let x := d.boot.wrote.foldl (fun x r => x.hbmZero r.1 r.2) x
  (x.bootMap).preloadAll

/-- The cause that a log entry names: RST_CAUSE, or 6 after a failed attempt (R445). -/
def attemptCause (d : Dev) (t : Attempt) : Nat := if t.again then 6 else d.get RST_CAUSE_CAUSE

/-- An attempt fails (R437, R441, R445): its result, its log entry, and a boot restart if a segment has begun to load. -/
def attemptFails (d : Dev) (t : Attempt) (h : ImageHdr) (result : Nat) : Dev :=
  let stage := d.get BOOT_STATUS_STAGE
  let d := if d.get BOOT_STATUS_FIRST_FAIL = 0 then d.put BOOT_STATUS_FIRST_FAIL result else d
  let d := d.appendLog (d.attemptCause t) t.slot result stage 0 h
  let d := if d.boot.wrote.isEmpty && d.boot.staged.isEmpty then d else d.bootRestart
  d.setBoot fun b => { b with attempt := some { t with phase := .failed, hdr := h } }

/-- Whether BISQUE goes on: it has started, and no thermal trip holds it (R495). -/
def bisqueRuns (d : Dev) : Bool := d.boot.started && !d.pkg.trip

def setPhase (d : Dev) (t : Attempt) (p : Phase) : Dev := d.setBoot fun b => { b with attempt := some { t with phase := p } }

/-- Starts a management core at the management vector, in M mode (R439). -/
def startMgmt (d : Dev) (vec : Nat) : Dev :=
  [1024, 1025].foldl (fun d t =>
    (d.setThread t { Thread.reset with enabled := true, pc := BitVec.ofNat 64 vec, fetchAt := d.cycle }).setCoreSt
      (coreOf t) { CoreSt.reset with since := d.cycle * 2 / 3 }) d

/-- What a segment whose digest matches starts or shows (R439). -/
def segmentGood (d : Dev) (s : Segment) : Dev :=
  if s.type = 1 then
    let d := (d.put BOOT_MGMT_VEC_LO_ADDR (s.load % 2 ^ 32)).put BOOT_MGMT_VEC_HI_ADDR (s.load / 2 ^ 32)
    (d.put BOOT_STATUS_STAGE 3).startMgmt s.load
  else if s.type = 2 then
    (List.range 4).foldl (fun d q =>
      if bitOf s.target q then
        (d.put (BOOT_QUAD_VEC_LO_ADDR q) (s.load % 2 ^ 32)).put (BOOT_QUAD_VEC_HI_ADDR q) (s.load / 2 ^ 32)
      else d) d
  else d

end Dev

/-- BISQUE_START (R434, R445, R447): 2 ms after main power-good or the warm trigger. The profile is chosen and its preload
applied; a trial is struck from the control record before it is tried. `bad` are profiles with an uncorrectable page, which enters the
catalogue where BISQUE reads it (R457). -/
def doBisqueStart (bad : List Nat) (d : Dev) : Dev :=
  if d.boot.started || decide (d.cycle < d.boot.since + 2 * cyMs) then d
  else
    let (i, p) := d.chooseProfile bad
    let read := if d.wantedProfile = 4 then [] else [d.wantedProfile] ++ if (d.flashProfile bad d.wantedProfile).isSome then [] else [0]
    let d := (read.dedup.filter bad.contains).foldl (fun d i => d.flashBad (profileBase i)) d
    let d := d.setBoot fun b => { b with started := true, profile := p, preload := p.preload, lastProfile := i }
    let d := (d.put BOOT_STATUS_STAGE 1).put BOOT_STATUS_PROFILE (i % 4)
    let d := (d.put BOOT_STATUS_PROFILE_ROM (b2n (i == 4))).bootMap.preloadAll
    let r := d.bootRecord.2
    let d := if r.trial = 0 then d else d.writeRecord r.preferred 0
    let order := ((if r.trial = 0 then [] else [r.trial - 1]) ++ [r.preferred, 1 - r.preferred]).eraseDups
    d.setBoot fun b => { b with attempt := some ⟨order.headD 0, order.tail, .header, .none, false, false⟩ }

/-- IMAGE_HEADER_CHECK (R437): the structure, key-slot and rollback checks; `uncorr` says that a page read is uncorrectable, which fails
the attempt behind the signatures. -/
def doImageHeaderCheck (uncorr : Bool) (d : Dev) : Dev :=
  match d.boot.attempt with
  | some t =>
    if t.phase ≠ .header ∨ d.bisqueRuns = false then d
    else
      let d := d.put BOOT_STATUS_STAGE 2
      let rd := d.imageSrc t.slot
      let d := if uncorr ∧ t.slot < 2 then d.flashBad (slotBase t.slot) else d
      match imageHdr rd with
      | none => d.attemptFails t (Dev.rawHdr rd) btImageBad
      | some h =>
        if keySlotBad d.boot.fuses rd h then d.attemptFails t h btKeySlot
        else if h.svn < d.boot.fuses.rollback then d.attemptFails t h btRollback
        else d.setPhase { t with hdr := h, flash := uncorr } .sigs
  | none => d

/-- SIGNATURES_DECIDED (R437): both signatures have been checked. -/
def doSignaturesDecided (d : Dev) : Dev :=
  match d.boot.attempt with
  | some t =>
    if t.phase ≠ .sigs ∨ d.bisqueRuns = false then d
    else if !sigsOk (d.imageSrc t.slot) then d.attemptFails t t.hdr btSigFail
    else if t.flash then d.attemptFails t t.hdr btFlashErr
    else d.setPhase t (if d.boot.hbmTrained then .seg 0 else .hbm)
  | none => d

/-- HBM_TRAINING_COMPLETE (R434): streaming begins where the signatures have passed. -/
def doHbmTrainingComplete (d : Dev) : Dev :=
  if !d.flag ⟨CLK_PLL_STATUS, 5, 1⟩ then d
  else
    let d := d.setBoot fun b => { b with hbmTrained := true }
    match d.boot.attempt with
    | some t => if t.phase = .hbm ∧ d.bisqueRuns = true then d.setPhase t (.seg 0) else d
    | none => d

/-- The address ranges of shared memory that the security island core's port admits (R20): the HBM targets that the image names,
which it has written or is to write (notes/assumptions/52). -/
def Dev.islandPort (d : Dev) : List (Nat × Nat) :=
  d.boot.wrote ++ match d.boot.attempt with
    | some t => (t.hdr.segs.filter (·.toHbm)).map fun s => (s.load, s.length)
    | none => []

/-- A write of the security island core to shared memory, through its port; the key-context region is not reached (R20, R263). -/
def Dev.islandWrite (d : Dev) (a : Nat) (bs : List Byte) : Dev :=
  if d.islandPort.any fun r => decide (r.1 ≤ a) && decide (a + bs.length ≤ r.1 + r.2)
    then (if d.inKc a bs.length then d else d.hbmWrite a bs) else d

/-- SEGMENT_DIGEST (R437 to R439): the next segment has been streamed to its target and hashed; `uncorr` says that a page of it
is uncorrectable. -/
def doSegmentDigest (uncorr : Bool) (d : Dev) : Dev :=
  match d.boot.attempt with
  | some t =>
    match t.phase with
    | .seg k =>
      match t.hdr.segs[k]? with
      | none => d
      | some s =>
        if d.bisqueRuns = false ∨ d.boot.hbmTrained = false then d
        else
          let rd := d.imageSrc t.slot
          let bs := rd s.offset s.length
          let d := if s.toHbm then (d.islandWrite s.load bs).setBoot fun b => { b with wrote := b.wrote ++ [(s.load, s.length)] }
            else d.setBoot fun b => { b with staged := b.staged ++ [(s.target, s.load, bs)] }
          let d := if uncorr ∧ t.slot < 2 then d.flashBad (slotBase t.slot + s.offset) else d
          if sha384 bs ≠ s.digest then d.attemptFails t t.hdr btDigest
          else if uncorr then d.attemptFails t t.hdr btFlashErr
          else (d.segmentGood s).setPhase t (if k + 1 < t.hdr.segs.length then .seg (k + 1) else .last)
    | _ => d
  | none => d

/-- IMAGE_VERIFIED (R434, R440): the gate opens. -/
def doImageVerified (d : Dev) : Dev :=
  match d.boot.attempt with
  | some t =>
    if t.phase ≠ .last ∨ d.bisqueRuns = false then d
    else
      let h := t.hdr
      let d := ((d.put BOOT_STATUS_GATE_OPEN 1).put BOOT_STATUS_VERIFIED 1).put BOOT_STATUS_STAGE 4
      let d := ((d.put BOOT_STATUS_IMAGE t.slot).put BOOT_STATUS_SVN h.svn).put BOOT_FUSE_STATUS_RUN_SLOT h.keySlot
      let d := d.appendLog (d.attemptCause t) t.slot btOk 4 ((d.cycle - d.boot.since) / 3000 % 2 ^ 32) h
      let d := d.setBoot fun b => { b with attempt := none, glost := h.version }
      (List.range 8).foldl (fun d l => d.pumpLink l) d
  | none => d

/-- NEXT_IMAGE_ATTEMPT (R445): the next slot, or RECOVERY when every slot has failed. -/
def doNextImageAttempt (d : Dev) : Dev :=
  match d.boot.attempt with
  | some t =>
    if t.phase ≠ .failed ∨ d.bisqueRuns = false then d
    else match t.rest with
      | [] => ((d.put BOOT_STATUS_FAILED 1).put BOOT_STATUS_STAGE 6).setBoot fun b => { b with attempt := none }
      | s :: rest => d.setBoot fun b => { b with attempt := some ⟨s, rest, .header, .none, true, false⟩ }
  | none => d

end Sys2Proof.Machine
end

