-- ==== Sys2Proof/Machine/BootSequence.lean ====
section
/-!
DEFINITION. The meanings of the commands of the family BootSequence: each puts the effect of its row on the
device and leaves the queue alone.
-/

namespace Sys2Proof.Machine

/-- BISQUE_START (R434): 2 ms after a package reset BISQUE starts, derives keys and chooses a profile. -/
def execBisqueStart (bad : List Nat) (s : State) : Host.Outcome State Fault Refusal :=
  s.effect (doBisqueStart bad)

/-- IMAGE_HEADER_CHECK (R437): An image header is read and its structure, key slot and rollback checks are made and signatures started. -/
def execImageHeaderCheck (uncorr : Bool) (s : State) : Host.Outcome State Fault Refusal :=
  s.effect (doImageHeaderCheck uncorr)

/-- SIGNATURES_DECIDED (R437): Both image signatures are decided and the attempt passes or fails. -/
def execSignaturesDecided (s : State) : Host.Outcome State Fault Refusal :=
  s.effect doSignaturesDecided

/-- HBM_TRAINING_COMPLETE (R434): HBM training completes and segment streaming begins. -/
def execHbmTrainingComplete (s : State) : Host.Outcome State Fault Refusal :=
  s.effect doHbmTrainingComplete

/-- SEGMENT_DIGEST (R437): A loaded segment's digest is compared, releasing the management cores for MGMT or failing the attempt. -/
def execSegmentDigest (uncorr : Bool) (s : State) : Host.Outcome State Fault Refusal :=
  s.effect (doSegmentDigest uncorr)

/-- IMAGE_VERIFIED (R440): The last segment's digest matches, the image is VERIFIED and the output gate opens. -/
def execImageVerified (s : State) : Host.Outcome State Fault Refusal :=
  s.effect doImageVerified

/-- NEXT_IMAGE_ATTEMPT (R445): After a failed attempt BISQUE tries the next slot or enters RECOVERY. -/
def execNextImageAttempt (s : State) : Host.Outcome State Fault Refusal :=
  s.effect doNextImageAttempt

end Sys2Proof.Machine
end

