-- ==== Sys2Proof/Machine/Buffer.lean ====
section
/-!
DEFINITION. The meanings of the commands of the family Buffer: each puts the effect of its row on the
device and leaves the queue alone.
-/

namespace Sys2Proof.Machine

/-- SPILL_FETCH_START (R157): The spill engine starts fetching a spilled frame once the queue's on-die occupancy falls below its fetch level. -/
def execSpillFetchStart (q : Fin 65536) (s : State) : Host.Outcome State Fault Refusal :=
  s.effect (doSpillFetchStart q)

/-- READ_Q (R159): Indirect operation READ_Q fills BUF_IND_DATA with a queue entry. -/
def execReadQ (p : Path) (data : W32) (s : State) : Host.Outcome State Fault Refusal :=
  s.regWrite p BUF_IND_CMD data (doReadQ p data)

/-- WRITE_Q (R159): Indirect operation WRITE_Q writes the configuration bytes of a queue entry. -/
def execWriteQ (p : Path) (data : W32) (s : State) : Host.Outcome State Fault Refusal :=
  s.regWrite p BUF_IND_CMD data (doWriteQ p data)

/-- READ_M (R159): Indirect operation READ_M fills BUF_IND_DATA with a meter entry. -/
def execReadM (p : Path) (data : W32) (s : State) : Host.Outcome State Fault Refusal :=
  s.regWrite p BUF_IND_CMD data (doReadM p data)

/-- WRITE_M (R159): Indirect operation WRITE_M writes a meter configuration, filling or capping its buckets. -/
def execWriteM (p : Path) (data : W32) (s : State) : Host.Outcome State Fault Refusal :=
  s.regWrite p BUF_IND_CMD data (doWriteM p data)

/-- CLEAR_Q_CNT (R159): Indirect operation CLEAR_Q_CNT zeroes a queue entry's counters. -/
def execClearQCnt (p : Path) (data : W32) (s : State) : Host.Outcome State Fault Refusal :=
  s.regWrite p BUF_IND_CMD data (doClearQCnt p data)

/-- CLEAR_M_CNT (R159): Indirect operation CLEAR_M_CNT zeroes a meter entry's counters. -/
def execClearMCnt (p : Path) (data : W32) (s : State) : Host.Outcome State Fault Refusal :=
  s.regWrite p BUF_IND_CMD data (doClearMCnt p data)

/-- BUFFER_ENABLE (R155): A write of BUF_CTRL.ENABLE enables admission, checks the spill region and locks the RWL fields. -/
def execBufferEnable (p : Path) (data : W32) (s : State) : Host.Outcome State Fault Refusal :=
  s.regWrite p BUF_CTRL data (doBufferEnable p data)

end Sys2Proof.Machine
end

