-- ==== Sys2Proof/Machine/Bus.lean ====
section
/-!
DEFINITION. The meanings of the commands of the family Bus: each puts the effect of its row on the
device and leaves the queue alone.
-/

namespace Sys2Proof.Machine

/-- REGISTER_WRITE (R43): A software write to a register field that has no row of its own is applied under its access type. -/
def execRegisterWrite (p : Path) (w : Fin 16777216) (data : W32) (s : State) : Host.Outcome State Fault Refusal :=
  s.regWrite p (4 * w) data (doRegisterWrite p w data)

/-- INBOUND_MEMORY_WRITE (R320): An inbound memory write is applied to its BAR, discarded while frozen, or handled as unsupported. -/
def execInboundMemoryWrite (l : Fin 8) (addr : Nat) (dws : List (Option W32)) (poisoned : Bool) (x : Aux) (s : State) : Host.Outcome State Fault Refusal :=
  s.effect (doInboundMemoryWrite l addr dws poisoned x)

/-- INBOUND_MEMORY_READ (R320): An inbound memory read is served, aborted while frozen, or completed with UR. -/
def execInboundMemoryRead (l : Fin 8) (addr : Nat) (r : MemReq) (s : State) : Host.Outcome State Fault Refusal :=
  s.effect (doInboundMemoryRead l addr r)

/-- CROSSING_RECONNECT (R425): A reset half of a crossing is released and the ready handshake completes before items pass. -/
def execCrossingReconnect (x : Crossing) (s : State) : Host.Outcome State Fault Refusal :=
  s.effect (doCrossingReconnect x)

/-- JTAG_MEMORY_ACCESS (R249): A memory access requested through the JTAG TAP is carried as test-class NoC traffic across the TCK handshake crossing. -/
def execJtagMemoryAccess (r : JtagReq) (s : State) : Host.Outcome State Fault Refusal :=
  s.effect (doJtagMemoryAccess r)

end Sys2Proof.Machine
end

