-- ==== Sys2Proof/Machine/Channels.lean ====
section
/-!
DEFINITION. The meanings of the commands of the family Channels: each puts the effect of its row on the
device and leaves the queue alone.
-/

namespace Sys2Proof.Machine

/-- PUNT_DELIVER (R228): A punt queue frame is delivered as a handle to the target thread's inbox once it has room. -/
def execPuntDeliver (k : Fin 8) (s : State) : Host.Outcome State Fault Refusal :=
  s.effect (doPuntDeliver k)

/-- CHANNEL_MESSAGE_LEAVE (R217): A message leaves its send FIFO when the channel holds credit, lowering the credit count. -/
def execChannelMessageLeave (c : Fin 8192) (s : State) : Host.Outcome State Fault Refusal :=
  s.effect (doChannelMessageLeave c)

/-- CHANNEL_MESSAGE_ARRIVE (R218): A message arrives in its receive FIFO and completes a blocked receive. -/
def execChannelMessageArrive (c : Fin 8192) (s : State) : Host.Outcome State Fault Refusal :=
  s.effect (doChannelMessageArrive c)

/-- CREDIT_ARRIVE (R217): A returned credit arrives at the send side and raises the credit count. -/
def execCreditArrive (c : Fin 8192) (s : State) : Host.Outcome State Fault Refusal :=
  s.effect (doCreditArrive c)

/-- CHAN_BIND (R222): Core command CHAN_BIND binds a channel between two endpoints with 8 credits. -/
def execChanBind (g : Fin 4096) (s : State) : Host.Outcome State Fault Refusal :=
  s.effect (doChanBind g)

/-- CHAN_UNBIND (R223): Core command CHAN_UNBIND closes the send side and waits for traffic in flight. -/
def execChanUnbind (g : Fin 4096) (s : State) : Host.Outcome State Fault Refusal :=
  s.effect (doChanUnbind g)

/-- CHAN_UNBIND_COMPLETE (R223): Once nothing of the channel is in flight the unbind completes, unbinding or returning NOT_EMPTY. -/
def execChanUnbindComplete (c : Fin 8192) (s : State) : Host.Outcome State Fault Refusal :=
  s.effect (doChanUnbindComplete c)

/-- CHAN_READ (R221): Core command CHAN_READ returns a channel entry. -/
def execChanRead (g : Fin 4096) (s : State) : Host.Outcome State Fault Refusal :=
  s.effect (doChanRead g)

/-- PLACE_SET (R230): Core command PLACE_SET sets a placement entry, starting a migration when it changes a valid entry. -/
def execPlaceSet (g : Fin 4096) (s : State) : Host.Outcome State Fault Refusal :=
  s.effect (doPlaceSet g)

/-- PLACE_CLEAR (R230): Core command PLACE_CLEAR clears a placement entry through a migration. -/
def execPlaceClear (g : Fin 4096) (s : State) : Host.Outcome State Fault Refusal :=
  s.effect (doPlaceClear g)

/-- PLACE_READ (R232): Core command PLACE_READ returns a placement entry with its counters. -/
def execPlaceRead (g : Fin 4096) (s : State) : Host.Outcome State Fault Refusal :=
  s.effect (doPlaceRead g)

/-- PLACE_CLEAR_CNT (R221): Core command PLACE_CLEAR_CNT zeroes a placement entry's counters. -/
def execPlaceClearCnt (g : Fin 4096) (s : State) : Host.Outcome State Fault Refusal :=
  s.effect (doPlaceClearCnt g)

/-- CORE_STATS (R233): Core command CORE_STATS returns the core counters. -/
def execCoreStats (g : Fin 4096) (s : State) : Host.Outcome State Fault Refusal :=
  s.effect (doCoreStats g)

/-- CORE_STATS_CLEAR (R233): Core command CORE_STATS_CLEAR zeroes the core counters. -/
def execCoreStatsClear (g : Fin 4096) (s : State) : Host.Outcome State Fault Refusal :=
  s.effect (doCoreStatsClear g)

/-- PLACEMENT_DELIVERY (R225): A placed frame that has ended with a good FCS is delivered as a handle to its thread's inbox, or held or discarded. -/
def execPlacementDelivery (q : Fin 65536) (s : State) : Host.Outcome State Fault Refusal :=
  s.effect (doPlacementDelivery q)

/-- DRAIN_MARKER_DELIVERY (R230): Once all earlier frames of a moving entry are delivered, the drain marker enters the old thread's inbox. -/
def execDrainMarkerDelivery (q : Fin 65536) (s : State) : Host.Outcome State Fault Refusal :=
  s.effect (doDrainMarkerDelivery q)

/-- PACKET_RETURN (R227): A returned frame reaches the pipeline return port, is checked by firing number and verdict and enters metering or is freed. -/
def execPacketReturn (t : Fin 1026) (s : State) : Host.Outcome State Fault Refusal :=
  s.effect (doPacketReturn t)

/-- MIGRATION_HOLD_TIMEOUT (R230): 1 ms after acceptance a migration hold ends by its limit. -/
def execMigrationHoldTimeout (q : Fin 65536) (s : State) : Host.Outcome State Fault Refusal :=
  s.effect (doMigrationHoldTimeout q)

/-- PLACED_FRAME_ABANDON (R228): A delivered frame not returned within 1 s is abandoned and its cells freed. -/
def execPlacedFrameAbandon (t : Fin 1024) (c : Fin 786432) (s : State) : Host.Outcome State Fault Refusal :=
  s.effect (doPlacedFrameAbandon t c)

end Sys2Proof.Machine
end

