-- ==== Sys2Proof/Machine/Dma.lean ====
section
/-!
DEFINITION. The meanings of the commands of the family Dma: each puts the effect of its row on the
device and leaves the queue alone.
-/

namespace Sys2Proof.Machine

/-- READ_COMPLETION (R321): A completion for a device read arrives and is used, or stops the engine on an error, or is discarded if unexpected. -/
def execReadCompletion (l : Fin 8) (tag : Nat) (st : Cpl) (bytes : List Byte) (s : State) : Host.Outcome State Fault Refusal :=
  s.effect (doReadCompletion l tag st bytes)

/-- COMPLETION_TIMEOUT (R319): A device read stays outstanding for the completion timeout and fails. -/
def execCompletionTimeout (l : Fin 8) (tag : Nat) (s : State) : Host.Outcome State Fault Refusal :=
  s.effect (doCompletionTimeout l tag)

/-- DB_TAIL (R349): A doorbell write of DB_TAIL advances TAIL, or is ignored as stale or bad. -/
def execDbTail (g : Fin 4096) (data : W32) (s : State) : Host.Outcome State Fault Refusal :=
  s.barWrite (s.dev.chLink g) (s.dev.chFunc g) 2 (4096 * s.dev.get (DMA_CH_CFG_DBPAGE (g / 256) (g % 256))) (doDbTail g data)

/-- DB_IRQ (R350): A doorbell write of DB_IRQ arms the channel interrupt with NEXT. -/
def execDbIrq (g : Fin 4096) (data : W32) (s : State) : Host.Outcome State Fault Refusal :=
  s.barWrite (s.dev.chLink g) (s.dev.chFunc g) 2 (4096 * s.dev.get (DMA_CH_CFG_DBPAGE (g / 256) (g % 256)) + 8) (doDbIrq g data)

/-- DESCRIPTOR_READ_RETURN (R339): Prefetched descriptors return and those owned by the device are taken, or the channel stalls on OWN. -/
def execDescriptorReadReturn (g : Fin 4096) (uncorr : Bool) (s : State) : Host.Outcome State Fault Refusal :=
  s.effect (doDescriptorReadReturn g uncorr)

/-- TX_DESCRIPTOR (R342): A TX descriptor is processed, reading frame bytes into cells for a frame of up to 16 descriptors. -/
def execTxDescriptor (g : Fin 4096) (s : State) : Host.Outcome State Fault Refusal :=
  s.effect (doTxDescriptor g)

/-- RX_DESCRIPTOR (R343): An RX descriptor is posted as a buffer for its channel's host queue. -/
def execRxDescriptor (g : Fin 4096) (s : State) : Host.Outcome State Fault Refusal :=
  s.effect (doRxDescriptor g)

/-- COPY_DESCRIPTOR (R344): A COPY descriptor moves bytes between two addresses, optionally through a glaze job. -/
def execCopyDescriptor (g : Fin 4096) (s : State) : Host.Outcome State Fault Refusal :=
  s.effect (doCopyDescriptor g)

/-- BLOCK_DESCRIPTOR (R345): A TABLE, CORE, GLAZE or PKE descriptor hands its 128-byte block to its unit. -/
def execBlockDescriptor (g : Fin 4096) (s : State) : Host.Outcome State Fault Refusal :=
  s.effect (doBlockDescriptor g)

/-- DMA_READ_RETURN (R352): Data of a DMA read returns and is written to its target, or a failure stops the engine. -/
def execDmaReadReturn (g : Fin 4096) (uncorr : Bool) (s : State) : Host.Outcome State Fault Refusal :=
  s.effect (doDmaReadReturn g uncorr)

/-- TX_FRAME_ADMIT (R342): A DMA transmit frame whose bytes are all read enters metering and admission and its completions are decided. -/
def execTxFrameAdmit (g : Fin 4096) (s : State) : Host.Outcome State Fault Refusal :=
  s.effect (doTxFrameAdmit g)

/-- RX_FRAME_DELIVERY (R343): An RX channel holding a posted buffer dequeues a frame from its host queue and writes it. -/
def execRxFrameDelivery (g : Fin 4096) (s : State) : Host.Outcome State Fault Refusal :=
  s.effect (doRxFrameDelivery g)

/-- COMPLETION_POST (R338): A completion is written with the current phase in index order. -/
def execCompletionPost (g : Fin 4096) (s : State) : Host.Outcome State Fault Refusal :=
  s.effect (doCompletionPost g)

/-- IRQ_HOLDOFF_EXPIRY (R350): The holdoff of an armed channel expires and its MSI-X message is sent. -/
def execIrqHoldoffExpiry (g : Fin 4096) (s : State) : Host.Outcome State Fault Refusal :=
  s.effect (doIrqHoldoffExpiry g)

/-- PAUSE (R355): DMA_CH_CTRL.PAUSE sets or clears the manager pause source of a channel. -/
def execDmaPause (a : Path × Fin 4096) (data : W32) (s : State) : Host.Outcome State Fault Refusal :=
  s.regWrite a.1 (DMA_CH_CTRL (a.2 / 256) (a.2 % 256)) data (doDmaPause a.2 data)

/-- CHANNEL_PAUSED (R355): A pausing channel has drained its reads and enters PAUSED. -/
def execChannelPaused (g : Fin 4096) (s : State) : Host.Outcome State Fault Refusal :=
  s.effect (doChannelPaused g)

/-- RESET (R359): DMA_CH_CTRL.RESET resets a channel and bumps its firing number. -/
def execDmaReset (a : Path × Fin 4096) (data : W32) (s : State) : Host.Outcome State Fault Refusal :=
  s.regWrite a.1 (DMA_CH_CTRL (a.2 / 256) (a.2 % 256)) data (doDmaReset a.2 data)

/-- CHANNEL_RESET_COMPLETE (R359): A channel reset completes and the channel returns to set-up state. -/
def execChannelResetComplete (g : Fin 4096) (s : State) : Host.Outcome State Fault Refusal :=
  s.effect (doChannelResetComplete g)

/-- RESUME (R358): DMA_CH_CTRL.RESUME restarts a STOPPED channel. -/
def execDmaResume (a : Path × Fin 4096) (data : W32) (s : State) : Host.Outcome State Fault Refusal :=
  s.regWrite a.1 (DMA_CH_CTRL (a.2 / 256) (a.2 % 256)) data (doDmaResume a.2 data)

/-- START (R360): DMA_CH_CTRL.START starts a channel or is refused with CFG_ERR. -/
def execDmaStart (a : Path × Fin 4096) (data : W32) (s : State) : Host.Outcome State Fault Refusal :=
  s.regWrite a.1 (DMA_CH_CTRL (a.2 / 256) (a.2 % 256)) data (doDmaStart a.2 data)

/-- ENGINE_DRAIN_END (R357): The last outstanding read of a stopped engine resolves and DRAINING clears. -/
def execEngineDrainEnd (n : Fin 16) (s : State) : Host.Outcome State Fault Refusal :=
  s.effect (doEngineDrainEnd n)

/-- CLEAR_STOP (R358): DMA_ENG_CTRL.CLEAR_STOP ends an engine stop once draining is done. -/
def execDmaClearStop (a : Path × Fin 16) (data : W32) (s : State) : Host.Outcome State Fault Refusal :=
  s.regWrite a.1 (DMA_ENG_CTRL a.2) data (doDmaClearStop a.2 data)

/-- DMA_ENGINE_ENABLE (R360): A write of DMA_ENG_CTRL.ENABLE lets the engine run its channels. -/
def execDmaEngineEnable (a : Path × Fin 16) (data : W32) (s : State) : Host.Outcome State Fault Refusal :=
  s.regWrite a.1 (DMA_ENG_CTRL a.2) data (doDmaEngineEnable a.2 data)

/-- ATS_INVALIDATION (R334): An ATS invalidation completes once every request under the old translation has resolved. -/
def execAtsInvalidation (l : Fin 8) (f : Fin 2048) (s : State) : Host.Outcome State Fault Refusal :=
  s.effect (doAtsInvalidation l f)

end Sys2Proof.Machine
end

