-- ==== Sys2Proof/Machine/Ethernet.lean ====
section
/-!
DEFINITION. The meanings of the commands of the family Ethernet: each puts the effect of its row on the
device and leaves the queue alone.
-/

namespace Sys2Proof.Machine

/-- LINK_UP (R58): Alignment, codeword lock and absence of faults have held for 10 µs, so the sub-port link comes up and scheduling resumes. -/
def execLinkUp (n : Fin 16) (i : Fin 4) (s : State) : Host.Outcome State Fault Refusal :=
  s.effect (doLinkUp n i)

/-- LINK_DOWN (R58): One of the sub-port link conditions fails, so the link goes down, scheduling stops and a hold timer starts. -/
def execLinkDown (n : Fin 16) (i : Fin 4) (align lock lf rf : Bool) (s : State) : Host.Outcome State Fault Refusal :=
  s.effect (doLinkDown n i align lock lf rf)

/-- HOLD_EXPIRY (R69): The link-down hold expires with the link still down and the flush of the sub-port's queues begins. -/
def execHoldExpiry (n : Fin 16) (i : Fin 4) (s : State) : Host.Outcome State Fault Refusal :=
  s.effect (doHoldExpiry n i)

/-- FLUSH_COMPLETE (R69): A flush of a sub-port's queues completes and scheduling resumes if the link has returned. -/
def execFlushComplete (n : Fin 16) (i : Fin 4) (s : State) : Host.Outcome State Fault Refusal :=
  s.effect (doFlushComplete n i)

/-- PORT_RESET (R70): A write of ETH_CTRL.PORT_RESET resets the port, flushes its queues, restores RWL fields and re-applies its preload entries. -/
def execPortReset (p : Path) (n : Fin 16) (data : W32) (s : State) : Host.Outcome State Fault Refusal :=
  s.regWrite p (ETH_CTRL n) data (doPortReset p n data)

/-- PORT_ENABLE (R46): A write of ETH_CTRL.ENABLE enables the port and locks its RWL fields, or with 0 turns its transmitters off. -/
def execPortEnable (p : Path) (n : Fin 16) (data : W32) (s : State) : Host.Outcome State Fault Refusal :=
  s.regWrite p (ETH_CTRL n) data (doPortEnable p n data)

/-- LOOPBACK_CHANGE (R71): A change of ETH_CTRL.LOOPBACK brings every sub-port link of the port down to requalify in the new setting. -/
def execLoopbackChange (p : Path) (n : Fin 16) (data : W32) (s : State) : Host.Outcome State Fault Refusal :=
  s.regWrite p (ETH_CTRL n) data (doLoopbackChange p n data)

/-- RX_CLK_SWITCH (R420): The source of RX_Pn switches without a glitch to another lane or to the reference oscillator. -/
def execRxClkSwitch (n : Fin 16) (s : State) : Host.Outcome State Fault Refusal :=
  s.effect (doRxClkSwitch n)

/-- ALLOCATION_CONDITION (R75): A frame has 68 bytes received or has ended, so its header enters the 28-cycle crossing and its place in order is fixed. -/
def execAllocationCondition (n : Fin 16) (i : Fin 4) (bytes : List Byte) (lag : Nat) (ended : Bool) (s : State) : Host.Outcome State Fault Refusal :=
  s.effect (doAllocationCondition n i bytes lag ended)

/-- OVERSIZE_DETECT (R64): Byte MAX_FRAME + 1 of a frame arrives, so a store-and-forward frame is dropped or a cut-through frame is stomped. -/
def execOversizeDetect (n : Fin 16) (i : Fin 4) (bytes : List Byte) (s : State) : Host.Outcome State Fault Refusal :=
  s.effect (doOversizeDetect n i bytes)

/-- CUT_THROUGH_TX_START (R60): Byte 256 or the frame end has been received, so egress transmission of a cut-through frame may begin. -/
def execCutThroughTxStart (n : Fin 16) (i : Fin 4) (bytes : List Byte) (s : State) : Host.Outcome State Fault Refusal :=
  s.effect (doCutThroughTxStart n i bytes)

/-- FRAME_END (R64): A received frame ends; its FCS and code status are judged and it is forwarded, stomped or discarded. -/
def execFrameEnd (n : Fin 16) (i : Fin 4) (bytes : List Byte) (lag : Nat) (code : Bool) (corr uncorr : Nat) (s : State) : Host.Outcome State Fault Refusal :=
  s.effect (doFrameEnd n i bytes lag code corr uncorr)

/-- TX_FRAME_COMPLETE (R142): The last byte of a frame is transmitted and its cells return to the pool. -/
def execTxFrameComplete (n : Fin 16) (i : Fin 4) (s : State) : Host.Outcome State Fault Refusal :=
  s.effect (doTxFrameComplete n i)

/-- MGMT_FRAME_RX (R74): A frame received on the management lane is passed to device firmware or discarded. -/
def execMgmtFrameRx (bytes : List Byte) (s : State) : Host.Outcome State Fault Refusal :=
  s.effect (doMgmtFrameRx bytes)

end Sys2Proof.Machine
end

