-- ==== Sys2Proof/Machine/Glaze.lean ====
section
/-!
DEFINITION. The meanings of the commands of the family Glaze: each puts the effect of its row on the
device and leaves the queue alone.
-/

namespace Sys2Proof.Machine

/-- ENCRYPT (R270): Glaze job ENCRYPT starts on an engine, consuming an invocation counter value where the mode uses one. -/
def execGlzEncrypt (s : State) : Host.Outcome State Fault Refusal :=
  s.effect doGlzEncrypt

/-- DECRYPT (R275): Glaze job DECRYPT starts on an engine and checks the tag under the context's policy. -/
def execGlzDecrypt (s : State) : Host.Outcome State Fault Refusal :=
  s.effect doGlzDecrypt

/-- HASH (R278): Glaze job HASH starts on an engine and computes a digest. -/
def execGlzHash (s : State) : Host.Outcome State Fault Refusal :=
  s.effect doGlzHash

/-- HMAC (R260): Glaze job HMAC starts on an engine and computes an HMAC. -/
def execGlzHmac (s : State) : Host.Outcome State Fault Refusal :=
  s.effect doGlzHmac

/-- KC_LOAD (R266): Key command KC_LOAD writes a key context from attributes and key. -/
def execKcLoad (g : Fin 4096) (host : List Byte) (s : State) : Host.Outcome State Fault Refusal :=
  s.effect (doKcLoad g host)

/-- KC_GENERATE (R266): Key command KC_GENERATE writes a key context with random key material. -/
def execKcGenerate (g : Fin 4096) (host : List Byte) (s : State) : Host.Outcome State Fault Refusal :=
  s.effect (doKcGenerate g host)

/-- KC_UNWRAP (R266): Key command KC_UNWRAP unwraps a blob into a key context. -/
def execKcUnwrap (g : Fin 4096) (host : List Byte) (s : State) : Host.Outcome State Fault Refusal :=
  s.effect (doKcUnwrap g host)

/-- KC_EXPORT (R266): Key command KC_EXPORT writes a blob and invalidates the source context. -/
def execKcExport (g : Fin 4096) (s : State) : Host.Outcome State Fault Refusal :=
  s.effect (doKcExport g)

/-- KC_INVALIDATE (R266): Key command KC_INVALIDATE invalidates a context and zeroes its key. -/
def execKcInvalidate (g : Fin 4096) (s : State) : Host.Outcome State Fault Refusal :=
  s.effect (doKcInvalidate g)

/-- KC_READ_ATTR (R266): Key command KC_READ_ATTR writes a context's attributes. -/
def execKcReadAttr (g : Fin 4096) (s : State) : Host.Outcome State Fault Refusal :=
  s.effect (doKcReadAttr g)

/-- KC_MISS_FILL (R268): A key-context cache miss completes its HBM fetch and unwrap. -/
def execKcMissFill (e : Fin 256) (s : State) : Host.Outcome State Fault Refusal :=
  s.effect (doKcMissFill e)

/-- GLAZE_JOB_COMPLETE (R272): A glaze job ends, its outputs and job block are written and its engine is freed. -/
def execGlazeJobComplete (e : Fin 256) (src aad tag : Unit) (fin : JobEnd) (s : State) : Host.Outcome State Fault Refusal :=
  s.effect (doGlazeJobComplete e src aad tag fin)

/-- GLAZE_DISPATCH_TIMEOUT (R262): A lookaside job not started within 18 ms is abandoned with TIMEOUT. -/
def execGlazeDispatchTimeout (s : State) : Host.Outcome State Fault Refusal :=
  s.effect doGlazeDispatchTimeout

/-- GLAZE_JOB_TIMEOUT (R262): A started job not completed 100 ms after hand-over is abandoned with TIMEOUT. -/
def execGlazeJobTimeout (e : Fin 256) (s : State) : Host.Outcome State Fault Refusal :=
  s.effect (doGlazeJobTimeout e)

/-- INLINE_START (R280): A frame leaves the inline queue for a free inline engine. -/
def execInlineStart (s : State) : Host.Outcome State Fault Refusal :=
  s.effect doInlineStart

/-- READ_IXT (R281): Indirect operation READ_IXT returns an inline transform entry. -/
def execReadIxt (p : Path) (data : W32) (s : State) : Host.Outcome State Fault Refusal :=
  s.regWrite p GLZ_IND_CMD data (doReadIxt p data)

/-- WRITE_IXT (R281): Indirect operation WRITE_IXT writes an inline entry and clears its replay state. -/
def execWriteIxt (p : Path) (data : W32) (s : State) : Host.Outcome State Fault Refusal :=
  s.regWrite p GLZ_IND_CMD data (doWriteIxt p data)

/-- CLEAR_IXT_CNT (R281): Indirect operation CLEAR_IXT_CNT zeroes an inline entry's counters. -/
def execClearIxtCnt (p : Path) (data : W32) (s : State) : Host.Outcome State Fault Refusal :=
  s.regWrite p GLZ_IND_CMD data (doClearIxtCnt p data)

/-- GLZ_KC_BASE_WRITE (R155): A write of GLZ_KC_BASE moves the key-context region unless it would overlap spill or a saggar range. -/
def execGlzKcBaseWrite (p : Path) (data : W32) (s : State) : Host.Outcome State Fault Refusal :=
  s.regWrite p GLZ_KC_BASE data (doGlzKcBaseWrite p data)

/-- GLAZE_ENABLE (R46): A write of GLZ_CTRL.ENABLE enables the glaze engines and locks the RWL fields. -/
def execGlazeEnable (p : Path) (data : W32) (s : State) : Host.Outcome State Fault Refusal :=
  s.regWrite p GLZ_CTRL data (doGlazeEnable p data)

end Sys2Proof.Machine
end

