-- ==== Sys2Proof/Machine/Kilns.lean ====
section
/-!
DEFINITION. The meanings of the commands of the family Kilns: each puts the effect of its row on the
device and leaves the queue alone.
-/

namespace Sys2Proof.Machine

/-- QUADRANT_RESET (R430): RST_QUAD_CTRL.RESET starts a quadrant reset that stops threads, writes back lines and bumps kilns. -/
def execQuadrantReset (p : Path) (data : W32) (s : State) : Host.Outcome State Fault Refusal :=
  s.regWrite p RST_QUAD_CTRL data (doQuadrantReset p data)

/-- QUADRANT_RESET_DONE (R430): A quadrant reset completes step 4, sets DONE and holds the quadrant until released. -/
def execQuadrantResetDone (q : Fin 4) (s : State) : Host.Outcome State Fault Refusal :=
  s.effect (doQuadrantResetDone q)

/-- BOOT_QUAD_REL (R439): A write of BOOT_QUAD_REL releases quadrants once VERIFIED, or is ignored and counted. -/
def execBootQuadRel (p : Path) (data : W32) (s : State) : Host.Outcome State Fault Refusal :=
  s.regWrite p BOOT_QUAD_REL data (doBootQuadRel p data)

/-- REPLACE (R472): Kiln operation REPLACE moves a live logical kiln onto its quadrant's spare. -/
def execKilnReplace (p : Path) (data : W32) (s : State) : Host.Outcome State Fault Refusal :=
  s.regWrite p RAS_SPARE_CMD data (doKilnReplace p data)

/-- KILN_REPLACE_COMPLETE (R472): A REPLACE completes and the threads resume on the spare. -/
def execKilnReplaceComplete (s : State) : Host.Outcome State Fault Refusal :=
  s.effect doKilnReplaceComplete

/-- DECLARE_DEAD (R473): Kiln operation DECLARE_DEAD declares a logical kiln dead and starts its takeover. -/
def execKilnDeclareDead (p : Path) (data : W32) (lost : List Nat) (s : State) : Host.Outcome State Fault Refusal :=
  s.regWrite p RAS_SPARE_CMD data (doKilnDeclareDead p data lost)

/-- KILN_RESPONSE_TIMEOUT (R473): A message to a kiln goes unanswered for RAS_KILN_TIMEOUT and the kiln is declared dead. -/
def execKilnResponseTimeout (k : Fin 32) (lost : List Nat) (s : State) : Host.Outcome State Fault Refusal :=
  s.effect (doKilnResponseTimeout k lost)

/-- FENCED_PORT_ARRIVAL (R475): Traffic from a fenced physical kiln reaches the router and is discarded. -/
def execFencedPortArrival (p : Fin 36) (s : State) : Host.Outcome State Fault Refusal :=
  s.effect (doFencedPortArrival p)

/-- TEST (R476): Kiln operation TEST runs scan and march tests on a fenced or spare kiln. -/
def execKilnTest (p : Path) (data : W32) (s : State) : Host.Outcome State Fault Refusal :=
  s.regWrite p RAS_SPARE_CMD data (doKilnTest p data)

/-- KILN_TEST_COMPLETE (R476): A kiln test ends and the kiln becomes SPARE, UNUSED or RETIRED. -/
def execKilnTestComplete (fails : Nat) (s : State) : Host.Outcome State Fault Refusal :=
  s.effect (doKilnTestComplete fails)

/-- RETIRE (R476): Kiln operation RETIRE retires a fenced or spare physical kiln. -/
def execKilnRetire (p : Path) (data : W32) (s : State) : Host.Outcome State Fault Refusal :=
  s.regWrite p RAS_SPARE_CMD data (doKilnRetire p data)

end Sys2Proof.Machine
end

