-- ==== Sys2Proof/Machine/RvMem.lean ====
section
/-!
DEFINITION. A thread's memory accesses: PMP, page walks and the core-visible address map (R199, R239 to R242, R248), by the
RISC-V Privileged Architecture 1.12 where the manual cites it (notes/assumptions/26).
-/

namespace Sys2Proof.Machine

/-- What an access finds: the bytes read as a number and their physical address, or an exception. -/
inductive Got where
  | val (v pa : Nat)
  | exc (e : Exc)
  deriving DecidableEq, Repr

/-! ### PMP: 16 entries, 4 KiB grain -/

def pmpCfg (t : Thread) (i : Nat) : Nat := bitsOf (t.csr (if i < 8 then 0x3A0 else 0x3A2)) (8 * (i % 8)) 8
def pmpAddr (t : Thread) (i : Nat) : Nat := t.csr (0x3B0 + i)

/-- The addresses of an entry, from the first to below the second: top of range, or a naturally aligned power of two. -/
def pmpRange (t : Thread) (i : Nat) : Nat × Nat :=
  match bitsOf (pmpCfg t i) 3 2 with
  | 1 => (if i = 0 then 0 else pmpAddr t (i - 1) / 1024 * 4096, pmpAddr t i / 1024 * 4096)
  | 3 =>
    let a := pmpAddr t i ||| 511
    let k := ctzN 55 (a + 1)
    let base := a / 2 ^ (k + 1) * 2 ^ (k + 1) * 4
    (base, base + 2 ^ (k + 3))
  | _ => (0, 0)

/-- Whether PMP lets a mode make an access: by the first entry that meets it, which must hold it whole; where none does, only
in M mode. -/
def pmpOk (t : Thread) (mode : Priv) (acc : MemAcc) (a n : Nat) : Bool :=
  match (List.range 16).find? fun i => let r := pmpRange t i; decide (r.1 < r.2 ∧ a < r.2 ∧ r.1 < a + n) with
  | none => mode == .m
  | some i =>
    let r := pmpRange t i
    let c := pmpCfg t i
    decide (r.1 ≤ a ∧ a + n ≤ r.2) &&
      ((mode == .m && !bitOf c 7) || bitOf c (match acc with | .load => 0 | .store => 1 | .fetch => 2))

namespace Dev

/-! ### The address map (R239) -/

def windowBase : Nat := 0x4000000000
def windowSize : Nat := 192 * 2 ^ 20
def regBase : Nat := 0x4100000000
def regSize : Nat := 64 * 2 ^ 20

def inWindow (a n : Nat) : Bool := decide (windowBase ≤ a) && decide (a + n ≤ windowBase + windowSize)
def inRegs (a n : Nat) : Bool := decide (regBase ≤ a) && decide (a + n ≤ regBase + regSize)

/-- Whether a thread may reach a range of the HBM (R242, R263, R468). -/
def threadMay (d : Dev) (t a n : Nat) : Bool :=
  !d.inKc a n && match d.threadSag t with
    | some s => d.hbmAllowed (some s) a n
    | none => !d.retired a n

/-- An access refused: the fault counter of the thread's saggar (R242, R366). -/
def denied (d : Dev) (t : Nat) : Dev :=
  match d.threadSag t with
  | some s => d.inc (SAG_FAULTS s)
  | none => d

/-- The delivered frame that holds cell `c` for thread `t` (R240). -/
def givenAt (d : Dev) (t c : Nat) : Option Given :=
  d.core.given.find? fun g => g.thread == t && decide (g.cell ≤ c) && decide (c < g.cell + g.cells)

/-- A read of the packet window (R240). -/
def windowLoad (d : Dev) (t a n : Nat) : Nat :=
  let o := a - windowBase
  match d.givenAt t (o / 256) with
  | some g => fieldLE g.data (o - g.cell * 256) n
  | none => 0

/-- A write of the packet window (R240). -/
def windowStore (d : Dev) (t a : Nat) (bs : List Byte) : Dev :=
  let o := a - windowBase
  match d.givenAt t (o / 256) with
  | some g =>
    d.setCore fun s => { s with given := s.given.map fun y =>
      if y = g then { y with data := overlay y.data (o - y.cell * 256) bs } else y }
  | none => d

/-- A read at a physical address; none is an access fault. `plain` is a load that is no LR, AMO or fetch: only such a load may
reach the packet window and register space. A poisoned line faults, and its use is recorded (R248, R453). -/
def physLoad (d : Dev) (t : Nat) (plain : Bool) (a n : Nat) : Dev × Option Nat :=
  if a + n ≤ hbmSize then
    if !d.threadMay t a n then (d.denied t, none)
    else if d.poisoned a n then (d.consumed a, none)
    else (d.recallLines (requester t) a n, some (leNat (d.hbmRead a n)))
  else if plain && inWindow a n && a % n == 0 then (d, some (d.windowLoad t a n))
  else if plain && inRegs a n && isMgmt t && n == 4 && a % 4 == 0 then
    let r := (d.inTurn .fw).regRead (busKey (a - regBase))
    (r.2, some r.1)
  else (d, none)

/-- Whether a write at a physical address is taken. -/
def physMayStore (d : Dev) (t : Nat) (plain : Bool) (a n : Nat) : Bool :=
  if a + n ≤ hbmSize then d.threadMay t a n
  else plain && ((inWindow a n && a % n == 0) || (inRegs a n && isMgmt t && n == 4 && a % 4 == 0))

/-- A write at a physical address that is taken: of the HBM, the line is then Modified in the thread's kiln. -/
def physStore (d : Dev) (t order a n v : Nat) (x : Aux) : Dev :=
  if a + n ≤ hbmSize then
    let d := d.hbmWriteAs order a (leBytes n v)
    { d with mem := { d.mem with modified := tabSet (fun _ => none) d.mem.modified (a / 64) (some (requester t)) } }
  else if inWindow a n then d.windowStore t a (leBytes n v)
  else (d.inTurn .fw).lands .fw (busKey (a - regBase)) (BitVec.ofNat 32 v) fun d => d.busWrite .fw (busKey (a - regBase)) (BitVec.ofNat 32 v) x

/-! ### Translation: Sv39 and Sv48 -/

/-- The mode in which a thread's access is made: that of mstatus.MPP under MPRV. -/
def effMode (t : Thread) (acc : MemAcc) : Priv := if acc != .fetch && t.st 17 then Priv.ofCode t.mpp else t.mode

/-- Whether a leaf entry permits an access. -/
def pteOk (t : Thread) (mode : Priv) (acc : MemAcc) (pte : Nat) : Bool :=
  (match mode with
    | .u => bitOf pte 4
    | _ => !bitOf pte 4 || (acc != .fetch && t.st 18)) &&
  match acc with
  | .fetch => bitOf pte 3
  | .load => bitOf pte 1 || (t.st 19 && bitOf pte 3)
  | .store => bitOf pte 2

/-- The A and D bits of a leaf entry at `pa`: set by the walk, or a page fault where one is missing
(notes/assumptions/27). -/
def pteAD (d : Dev) (t : Nat) (acc : MemAcc) (pa pte : Nat) : Dev × Option Nat :=
  let want := pte ||| 64 ||| (if acc = .store then 128 else 0)
  if want = pte then (d, none)
  else if !Config.walkSetsAD then (d, some acc.page)
  else if !pmpOk (d.thread t) .s .store pa 8 || !d.physMayStore t false pa 8 then (d, some acc.fault)
  else (d.physStore t (orderCore (requester t)) pa 8 want ⟨[], [], true, [], []⟩, none)

/-- A page walk from the table at `tab`, with so many levels to go: the physical address, or the code of the fault. -/
def walk (t : Nat) (acc : MemAcc) (mode : Priv) (va : Nat) : Nat → Nat → Dev → Dev × Option Nat × Nat
  | 0, _, d => (d, some acc.page, 0)
  | i + 1, tab, d =>
    let pa := tab + bitsOf va (12 + 9 * i) 9 * 8
    if !pmpOk (d.thread t) .s .load pa 8 then (d, some acc.fault, 0)
    else
      match d.physLoad t false pa 8 with
      | (d, none) => (d, some acc.fault, 0)
      | (d, some pte) =>
        if !bitOf pte 0 || (!bitOf pte 1 && bitOf pte 2) || bitsOf pte 54 10 != 0 then (d, some acc.page, 0)
        else if bitsOf pte 1 3 = 0 then walk t acc mode va i (bitsOf pte 10 44 * 4096) d
        else if !pteOk (d.thread t) mode acc pte || bitsOf pte 10 (9 * i) != 0 then (d, some acc.page, 0)
        else
          let r := d.pteAD t acc pa pte
          (r.1, r.2, bitsOf pte 10 44 * 4096 + bitsOf va 0 (12 + 9 * i))

/-- The translation of an address (R200): its physical address, or the code of its fault. -/
def translate (d : Dev) (t : Nat) (acc : MemAcc) (va : Nat) : Dev × Option Nat × Nat :=
  let x := d.thread t
  let mode := effMode x acc
  let sm := bitsOf (x.csr 0x180) 60 4
  let bits := if sm = 8 then 39 else 48
  if mode = .m ∨ sm = 0 then (d, none, va)
  else if ((BitVec.ofNat bits va).signExtend 64).toNat ≠ va then (d, some acc.page, 0)
  else walk t acc mode va (if sm = 8 then 3 else 4) (bitsOf (x.csr 0x180) 0 44 * 4096) d

/-- The physical address of an access of `n` bytes, or the code of its fault (R239). -/
def vaddr (d : Dev) (t : Nat) (acc : MemAcc) (va n : Nat) : Dev × Option Nat × Nat :=
  match d.translate t acc va with
  | (d, some c, _) => (d, some c, 0)
  | (d, none, pa) =>
    let x := d.thread t
    if 2 ^ 40 < pa + n ∨ pmpOk x (effMode x acc) acc pa n = false then (d, some acc.fault, 0) else (d, none, pa)

/-- The exception of an address that is misaligned for its access (R201): outside the HBM an access fault (R239, R240, R241),
else address-misaligned. -/
def misaligned (d : Dev) (t : Nat) (acc : MemAcc) (va : Nat) : Exc :=
  let out := match d.translate t acc va with
    | (_, none, pa) => decide (hbmSize ≤ pa)
    | _ => false
  if out then ⟨acc.fault, va⟩ else ⟨if acc = .store then 6 else 4, va⟩

/-- A read at a virtual address (R201): inside one 64-byte line; an atomic on its natural alignment. -/
def vload (d : Dev) (t : Nat) (acc : MemAcc) (atomic : Bool) (va n : Nat) : Dev × Got :=
  if 64 < va % 64 + n ∨ (atomic = true ∧ va % n ≠ 0) then (d, .exc (d.misaligned t acc va))
  else
    match d.vaddr t acc va n with
    | (d, some c, _) => (d, .exc ⟨c, va⟩)
    | (d, none, pa) =>
      match d.physLoad t (acc != .fetch && !atomic) pa n with
      | (d, some v) => (d, .val v pa)
      | (d, none) => (d, .exc ⟨acc.fault, va⟩)

/-- Where a write at a virtual address goes: the physical address, or its exception. -/
def vstoreAt (d : Dev) (t : Nat) (atomic : Bool) (va n : Nat) : Dev × Got :=
  if 64 < va % 64 + n ∨ (atomic = true ∧ va % n ≠ 0) then (d, .exc (d.misaligned t .store va))
  else
    match d.vaddr t .store va n with
    | (d, some c, _) => (d, .exc ⟨c, va⟩)
    | (d, none, pa) =>
      if d.physMayStore t (!atomic) pa n then (d, .val 0 pa)
      else (if pa + n ≤ hbmSize then d.denied t else d, .exc ⟨7, va⟩)

/-! ### Fetch -/

/-- What a fetch brings: the 32-bit instruction, the bits fetched and their length in bytes, or an exception. -/
inductive Fetched where
  | ins (w raw len : Nat)
  | exc (e : Exc)
  deriving DecidableEq, Repr

/-- One 16-bit parcel. -/
def parcel (d : Dev) (t va : Nat) : Dev × Got := d.vload t .fetch false va 2

/-- The instruction at the pc (R199): a compressed one as what it stands for, 0 where it is illegal. An odd pc is a misaligned
instruction address (R211). -/
def fetchIns (d : Dev) (t : Nat) : Dev × Fetched :=
  let pc := (d.thread t).pc
  if pc.toNat % 2 = 1 then (d, .exc ⟨0, pc.toNat⟩)
  else
    match d.parcel t pc.toNat with
    | (d, .exc e) => (d, .exc e)
    | (d, .val lo _) =>
      if lo % 4 ≠ 3 then (d, .ins ((expandC lo).getD 0) lo 2)
      else
        match d.parcel t (pc + 2).toNat with
        | (d, .exc e) => (d, .exc e)
        | (d, .val hi _) => (d, .ins (lo + hi * 2 ^ 16) (lo + hi * 2 ^ 16) 4)

end Dev
end Sys2Proof.Machine
end

