-- ==== Sys2Proof/Machine/RvCsr.lean ====
section
/-!
DEFINITION. The control and status registers of a thread (R17, R199 to R201, R204, R211, R215, R220, R254), by the RISC-V
Privileged Architecture 1.12 where the manual cites it, and when a thread can issue (R205, R206).
-/

namespace Sys2Proof.Machine

/-! ### Operands of an instruction -/

/-- The registers that an instruction reads: x0–x31 as 0–31, f0–f31 as 32–63. -/
def rvSources (w : Nat) : List Nat :=
  let x1 := rvRs1 w
  let x2 := rvRs2 w
  match rvOp w with
  | 0x67 | 0x03 | 0x13 | 0x1B | 0x07 => [x1]
  | 0x63 | 0x23 | 0x33 | 0x3B | 0x2F | 0x0B | 0x2B => [x1, x2]
  | 0x73 => if bitOf (rvF3 w) 2 then [] else [x1]
  | 0x27 => [x1, 32 + x2]
  | 0x43 | 0x47 | 0x4B | 0x4F => [32 + x1, 32 + x2, 32 + rvRs3 w]
  | 0x53 =>
    match rvF7 w / 4 with
    | 0x1A | 0x1E => [x1]
    | 0x0B | 0x08 | 0x18 | 0x1C => [32 + x1]
    | _ => [32 + x1, 32 + x2]
  | _ => []

/-- The rows that execute an instruction. -/
inductive RvClass where
  | std | fp | wfi | tstart | tstop | twait | tpause
  | chsend | chsendnb | chrecv | chrecvnb | pkrecv | pkrecvnb | pksend
  deriving DecidableEq, Repr

/-- The row of an instruction (R201, R210, R214, R252). -/
def rvClass (w : Nat) : RvClass :=
  match rvOp w with
  | 0x07 | 0x27 | 0x43 | 0x47 | 0x4B | 0x4F | 0x53 => .fp
  | 0x0B => (match rvF3 w with | 0 => .tstart | 1 => .tstop | 2 => .twait | 3 => .tpause | _ => .std)
  | 0x2B =>
    (match rvF3 w with
      | 0 => .chsend | 1 => .chsendnb | 2 => .chrecv | 3 => .chrecvnb | 4 => .pkrecv | 5 => .pkrecvnb | 6 => .pksend
      | _ => .std)
  | _ => if w = 0x10500073 then .wfi else .std

namespace Dev

/-! ### When a thread can issue (R205, R206) -/

/-- Whether a thread may run at all: enabled, its quadrant released, its kiln not under a spare procedure, its saggar ACTIVE
(R203, R376, R472). A thread of the storage service runs that service only, which is what the storage commands do
(R386; notes/assumptions/34). -/
def runs (d : Dev) (t : Nat) : Bool :=
  !d.svcThread t && (d.thread t).enabled && d.released t && !(!isMgmt t && d.kilnHeld (kilnOf t)) &&
    match d.threadSag t with
    | some s => d.get (SAG_STATUS_STATE s) == 1
    | none => true

/-- The memory access of an instruction: its kind, its virtual address and its bytes. -/
def memAccess (x : Thread) (w : Nat) : Option (MemAcc × Nat × Nat) :=
  let a := x.rd (rvRs1 w)
  match rvOp w with
  | 0x03 | 0x07 => some (.load, (a + immI w).toNat, 2 ^ (rvF3 w % 4))
  | 0x23 | 0x27 => some (.store, (a + immS w).toNat, 2 ^ (rvF3 w % 4))
  | 0x2F => some (if rvF7 w / 4 = 2 then .load else .store, a.toNat, 2 ^ (rvF3 w % 4))
  | _ => none

/-- Whether an instruction is a store, which leaves its line to the store buffer (R238). -/
def isStore (w : Nat) : Bool := rvOp w == 0x23 || rvOp w == 0x27

/-- The physical address of an instruction's access, where it has one. -/
def memPa (d : Dev) (t w : Nat) : Option Nat :=
  match memAccess (d.thread t) w with
  | none => none
  | some (acc, va, n) => match d.vaddr t acc va n with
    | (_, none, pa) => some pa
    | _ => none

/-- Whether an instruction must wait for an outstanding miss of its thread (R205): for the line of an operand, for its own
line, or, a store, for one of the 8 entries of the thread's store buffer (R238). -/
def awaitsMiss (d : Dev) (t w : Nat) : Bool :=
  let ms := (d.thread t).missed
  !ms.isEmpty &&
    ((rvSources w).any (fun r => r != 0 && ms.any fun m => m.dest == r) ||
      (if isStore w then decide (8 ≤ (ms.filter (·.store)).length)
       else match d.memPa t w with
         | some pa => decide (pa < hbmSize) && ms.any fun m => !m.fetch && m.line == pa / 64
         | none => false))

/-- Whether the operands of a thread's next instruction are available, and its misses are; an interrupt or a fetch that faults
needs none. -/
def operandsReady (d : Dev) (t : Nat) : Bool :=
  let x := d.thread t
  (takeable x).isSome ||
    (decide (x.fetchAt ≤ d.cycle) && !(x.missed.any fun m => m.fetch && m.pc == x.pc) &&
      match (d.fetchIns t).2 with
      | .ins w _ _ => (rvSources w).all (fun r => decide (tabGet (fun _ => 0) x.busy r ≤ d.cycle)) && !d.awaitsMiss t w
      | .exc _ => true)

/-- Whether a thread is not held: it runs, or the entry that it lacked is free (R209). -/
def unheld (d : Dev) (t : Nat) : Bool :=
  match (d.thread t).wait with
  | .run => true
  | .entry => d.entryFree t
  | _ => false

/-- A thread that is ready (R205, R209). -/
def ready (d : Dev) (t : Nat) : Bool := d.runs t && d.unheld t && d.operandsReady t

/-- The first thread of a core. -/
def coreBase (c : Nat) : Nat := if c < 128 then 8 * c else 1024 + (c - 128)

/-- The thread that issues in this cycle on a core, whether the slot is its own, and the pointer F after it (R206); every slot
of a management core is its one thread's (R204). -/
def slotTo (d : Dev) (c : Nat) : Option (Nat × Bool × Nat) :=
  let k := d.coreSt c
  let b := coreBase c
  if 128 ≤ c then (if d.ready b then some (b, true, k.f) else none)
  else
    let own := d.cycle % 8
    if d.ready (b + own) then some (b + own, true, k.f)
    else if k.hpEn && d.ready (b + k.hp) then some (b + k.hp, false, k.f)
    else
      match ((List.range 8).map fun i => (k.f + i) % 8).find? fun i => !(k.hpEn && i == k.hp) && d.ready (b + i) with
      | some i => some (b + i, false, (i + 1) % 8)
      | none => none

/-- Thread `t` issues if this cycle's slot of its core is given to it and not yet used. -/
def issue (d : Dev) (t : Nat) : Option Dev :=
  let c := coreOf t
  let k := d.coreSt c
  if d.coreClk t < k.nextIssue then none
  else
    match d.slotTo c with
    | some (u, own, f) =>
      if u = t then
        some ((d.setCoreSt c { k with f := f, nextIssue := d.coreClk t + 1 }).modThread t fun x =>
          if own then { x with wait := .run, ownIssues := x.ownIssues + 1 } else { x with wait := .run, freeIssues := x.freeIssues + 1 })
      else none
    | none => none

/-- The state of a thread as thrstat gives it (R211). -/
def thrState (d : Dev) (t : Nat) : Nat :=
  let x := d.thread t
  if !x.enabled then 0
  else match x.wait with
    | .run => if d.operandsReady t then 1 else 2
    | .entry => if d.unheld t && d.operandsReady t then 1 else 2
    | .wfi => 3
    | .twait _ => 3
    | .pause _ => 4
    | .send _ _ _ => 5
    | .recv _ _ _ => 6
    | .pkrecv _ _ => 7
    | .pksend _ _ _ => 7

/-! ### Reading (R200, R201, R204, R211, R215) -/

/-- The sum of fields, each at its place. -/
def packed (n width lo : Nat) (f : Nat → Nat) : Nat := (List.range n).foldl (fun s i => s + f i * 2 ^ (lo + width * i)) 0

def thrctl (d : Dev) (t : Nat) : Nat :=
  if isMgmt t then 1
  else
    let k := d.coreSt (coreOf t)
    let b := coreBase (coreOf t)
    b2n k.hpEn * 2 ^ 15 + k.hp * 2 ^ 8 + packed 8 1 0 fun i => b2n (d.thread (b + i)).enabled

def thrstat (d : Dev) (t : Nat) : Nat :=
  let b := coreBase (coreOf t)
  if isMgmt t then (if t = b then d.thrState t else 0) else packed 8 4 0 fun i => if b + i = t then 1 else d.thrState (b + i)

def chstat (d : Dev) (t : Nat) : Nat :=
  let x := d.thread t
  x.inbox.length * 2 ^ 48 + packed 4 4 32 (fun e => (d.rxFifo t e).length) + packed 4 4 16 (fun e => 8 - (d.txFifo t e).length) +
    packed 4 1 12 (fun e => b2n (d.rxChan t e).isSome) +
    packed 4 1 8 (fun e => b2n (match d.txChan t e with | some c => !c.2.closed | none => false)) + x.last

/-- The bits of mstatus that software sets, and those of sstatus. -/
def mstatusMask : Nat := 0x7E79AA
def sstatusMask : Nat := 0xC6122

/-- mstatus as read: UXL and SXL are 64 bits, XS is off, SD says FS is Dirty. -/
def mstatusOf (t : Thread) : Nat := t.csr cMstatus + 0xA00000000 + b2n (t.fs == 3) * 2 ^ 63
def sstatusOf (t : Thread) : Nat := (t.csr cMstatus &&& sstatusMask) + 0x200000000 + b2n (t.fs == 3) * 2 ^ 63

/-- The delegable exceptions and interrupts, the interrupts of mie, and those that software sets in mip. -/
def medelegMask : Nat := 0x100B3FF
def midelegMask : Nat := 0x10222
def mieMask : Nat := 0x10AAA
def mipMask : Nat := 0x222

/-- pmpaddr as read: under a grain of 4 KiB its low bits read as ones where the entry is NAPOT, else as zeros. -/
def pmpaddrOf (t : Thread) (i : Nat) : Nat :=
  let a := pmpAddr t i
  if bitsOf (pmpCfg t i) 4 1 = 1 then a ||| 511 else a / 1024 * 1024

/-- A CSR's value; none where there is no such register. -/
def csrRead (d : Dev) (t n : Nat) : Option Nat :=
  let x := d.thread t
  match n with
  | 0x001 => some (x.csr 3 % 32)
  | 0x002 => some (x.csr 3 / 32)
  | 0x003 => some (x.csr 3)
  | 0x8C0 => some (x.csr n)
  | 0xC01 => some (d.cycle * 5 / 96)
  | 0xCC0 => some (d.chstat t)
  | 0x100 => some (sstatusOf x)
  | 0x104 => some (x.csr 0x304 &&& x.csr 0x303)
  | 0x144 => some (mipOf x &&& x.csr 0x303)
  | 0x300 => some (mstatusOf x)
  | 0x301 => some 0x800000000094112D
  | 0x344 => some (mipOf x)
  | 0x320 => some 0
  | 0x7C0 => some (d.thrctl t)
  | 0xFC0 => some (d.thrstat t)
  | 0xF11 => some 0
  | 0xF12 => some 0x8000000000001280
  | 0xF13 => some 0x4100
  | 0xF14 => some t
  | 0xF15 => some 0
  | _ =>
    if [0x105, 0x106, 0x10A, 0x140, 0x141, 0x142, 0x143, 0x180, 0x302, 0x303, 0x304, 0x305, 0x306, 0x30A, 0x340, 0x341, 0x342,
        0x343, 0x3A0, 0x3A2, 0x7C2].contains n then some (x.csr n)
    else if 0x323 ≤ n ∧ n ≤ 0x33F then some (if n ≤ 0x326 then n - 0x320 else 0)
    else if 0x3B0 ≤ n ∧ n ≤ 0x3BF then some (pmpaddrOf x (n - 0x3B0))
    else if 0xB00 ≤ n ∧ n ≤ 0xB1F ∧ n ≠ 0xB01 then some (if ctrCsrs.contains n then d.ctrVal t n else 0)
    else if 0xC00 ≤ n ∧ n ≤ 0xC1F then some (if ctrCsrs.contains (n - 0x100) then d.ctrVal t (n - 0x100) else 0)
    else none

/-! ### Writing -/

/-- `new` under a mask, the other bits of `old` kept. -/
def maskIn (old new mask : Nat) : Nat := (old &&& (2 ^ 64 - 1 - mask)) ||| (new &&& mask)

/-- mstatus written: MPP takes no reserved code. -/
def putStatus (t : Thread) (v mask : Nat) : Thread :=
  let w := maskIn (t.csr cMstatus) v mask
  t.setCsr cMstatus (if bitsOf w 11 2 = 2 then setBits w 11 2 t.mpp else w)

/-- A PMP configuration byte written: a locked entry keeps its byte; W without R is not taken, and NA4 is not selectable
under the grain. -/
def pmpCfgByte (old new : Nat) : Nat :=
  if bitOf old 7 then old
  else
    let new := new &&& 0x9F
    let new := if bitOf new 1 && !bitOf new 0 then new - 2 else new
    if bitsOf new 3 2 = 2 then setBits new 3 2 (bitsOf old 3 2) else new

/-- Whether pmpaddr of an entry is locked: by its own entry, or by the next one as the top of its range. -/
def pmpAddrLocked (t : Thread) (i : Nat) : Bool :=
  bitOf (pmpCfg t i) 7 || (decide (i < 15) && bitOf (pmpCfg t (i + 1)) 7 && bitsOf (pmpCfg t (i + 1)) 3 2 == 1)

/-- A thread's CSR written with a value. -/
def threadCsr (d : Dev) (t n v : Nat) (x : Thread) : Thread :=
  match n with
  | 0x001 => (x.setCsr 3 (setBits (x.csr 3) 0 5 v)).dirtyF
  | 0x002 => (x.setCsr 3 (setBits (x.csr 3) 5 3 v)).dirtyF
  | 0x003 => (x.setCsr 3 (v % 256)).dirtyF
  | 0x8C0 => (x.setCsr n (v % 4)).dirtyF
  | 0x100 => putStatus x v sstatusMask
  | 0x300 => putStatus x v mstatusMask
  | 0x104 => x.setCsr 0x304 (maskIn (x.csr 0x304) v (x.csr 0x303 &&& mieMask))
  | 0x144 => x.setCsr 0x344 (maskIn (x.csr 0x344) v (x.csr 0x303 &&& 2))
  | 0x302 => x.setCsr n (v &&& medelegMask)
  | 0x303 => x.setCsr n (v &&& midelegMask)
  | 0x304 => x.setCsr n (v &&& mieMask)
  | 0x344 => x.setCsr n (v &&& mipMask)
  | 0x105 => x.setCsr n (v - bitsOf v 1 1 * 2)
  | 0x305 => x.setCsr n (v - bitsOf v 1 1 * 2)
  | 0x106 => x.setCsr n (v % 2 ^ 32)
  | 0x306 => x.setCsr n (v % 2 ^ 32)
  | 0x10A => x.setCsr n (v % 2)
  | 0x30A => x.setCsr n (v % 2)
  | 0x141 => x.setCsr n (v / 2 * 2)
  | 0x341 => x.setCsr n (v / 2 * 2)
  | 0x180 => if [0, 8, 9].contains (v / 2 ^ 60) then x.setCsr n v else x
  | 0x7C2 => x.setCsr n (v % 32)
  | _ =>
    if [0x140, 0x142, 0x143, 0x340, 0x342, 0x343].contains n then x.setCsr n v
    else if n = 0x3A0 ∨ n = 0x3A2 then
      x.setCsr n (packed 8 8 0 fun i => pmpCfgByte (bitsOf (x.csr n) (8 * i) 8) (bitsOf v (8 * i) 8))
    else if 0x3B0 ≤ n ∧ n ≤ 0x3BF then
      (if pmpAddrLocked x (n - 0x3B0) then x else x.setCsr n (v % 2 ^ 54))
    else if ctrCsrs.contains n then setCtr x n (d.ctrRaw t n + b2n (n == 0xB02)) v
    else x

/-- A CSR written: thrctl is the core's, and a management core ignores it (R204, R211). -/
def csrWrite (d : Dev) (t n v : Nat) : Dev :=
  if n = 0x7C0 then
    (if isMgmt t then d
     else d.setCoreSt (coreOf t) { d.coreSt (coreOf t) with hpEn := bitOf v 15, hp := bitsOf v 8 3 })
  else d.modThread t (d.threadCsr t n v)

/-- The identity registers, whose writes are ignored (R200). -/
def idCsr (n : Nat) : Bool := [0x301, 0xF11, 0xF12, 0xF13].contains n

/-- Whether a thread may access a CSR: its mode, a write to a read-only one, the floating-point unit off (R254), satp under
TVM, a counter that the enables withhold. -/
def csrAllowed (t : Thread) (n : Nat) (write : Bool) : Bool :=
  decide (bitsOf n 8 2 ≤ t.mode.code) && (!(write && n / 1024 == 3) || idCsr n) &&
    !([0x001, 0x002, 0x003, 0x8C0].contains n && t.fs == 0) && !(n == 0x180 && t.mode == .s && t.st 20) &&
    !(decide (0xC00 ≤ n ∧ n ≤ 0xC1F) &&
      ((t.mode != .m && !bitOf (t.csr 0x306) (n - 0xC00)) || (t.mode == .u && !bitOf (t.csr 0x106) (n - 0xC00))))

end Dev
end Sys2Proof.Machine
end

