-- ==== Sys2Proof/Machine/RvFloat.lean ====
section
/-!
DEFINITION. Floating point (R252, R255 to R258): IEEE 754 binary32 and binary64 by exact arithmetic on numbers m × 2^e,
rounded once, with DAZ and FTZ.
-/

namespace Sys2Proof.Machine

/-- A binary format: precision (bits of the significand) and the largest exponent. -/
structure Fmt where
  p : Nat
  emax : Nat
  deriving DecidableEq, Repr

def f32 : Fmt := ⟨24, 127⟩
def f64 : Fmt := ⟨53, 1023⟩

/-- Width of a format, its exponent field, and its smallest exponent of a last place. -/
def Fmt.width (f : Fmt) : Nat := if f.p = 24 then 32 else 64
def Fmt.ebits (f : Fmt) : Nat := f.width - f.p
def Fmt.lmin (f : Fmt) : Int := 2 - (f.emax : Int) - f.p

/-- Flags: NV 16, DZ 8, OF 4, UF 2, NX 1. -/
def nv : Nat := 16
def dz : Nat := 8
def ofx : Nat := 5
def ufx : Nat := 3
def nx : Nat := 1

/-- A value: NaN (signalling or not), an infinity, or ± m × 2^e. -/
inductive FVal where
  | nan (sig : Bool)
  | inf (neg : Bool)
  | fin (neg : Bool) (m : Nat) (e : Int)
  deriving DecidableEq, Repr

def Fmt.canonNan (f : Fmt) : Nat := (2 ^ (f.ebits + 1) - 1) * 2 ^ (f.p - 2)
def Fmt.infBits (f : Fmt) (neg : Bool) : Nat := b2n neg * 2 ^ (f.width - 1) + (2 ^ f.ebits - 1) * 2 ^ (f.p - 1)
def Fmt.zeroBits (f : Fmt) (neg : Bool) : Nat := b2n neg * 2 ^ (f.width - 1)

/-- The value of a bit pattern. -/
def Fmt.val (f : Fmt) (x : Nat) : FVal :=
  let s := bitOf x (f.width - 1)
  let e := bitsOf x (f.p - 1) f.ebits
  let m := bitsOf x 0 (f.p - 1)
  if e = 2 ^ f.ebits - 1 then (if m = 0 then .inf s else .nan (!bitOf m (f.p - 2)))
  else if e = 0 then .fin s m f.lmin
  else .fin s (m + 2 ^ (f.p - 1)) (f.lmin + e - 1)

/-- A value with a subnormal replaced by a zero of its sign (DAZ, R255). -/
def Fmt.daz (f : Fmt) (on : Bool) : FVal → FVal
  | .fin s m e => if on = true ∧ m < 2 ^ (f.p - 1) then .fin s 0 f.lmin else .fin s m e
  | v => v

/-- Rounding modes by code: RNE 0, RTZ 1, RDN 2, RUP 3, RMM 4. -/
def roundsUp (rm : Nat) (neg : Bool) (odd : Bool) (above half : Bool) (inexact : Bool) : Bool :=
  match rm with
  | 0 => above || (half && odd)
  | 1 => false
  | 2 => neg && inexact
  | 3 => !neg && inexact
  | _ => above || half

/-- `m × 2^e` (with `sticky` for a further part below the last bit of `m`) rounded to a multiple of 2^l: the multiple,
and whether it is inexact. -/
def roundAt (rm : Nat) (neg : Bool) (m : Nat) (e : Int) (sticky : Bool) (l : Int) : Nat × Bool :=
  if l ≤ e then (m * 2 ^ (e - l).toNat, sticky)
  else
    let s := (l - e).toNat
    let q := m / 2 ^ s
    let r := m % 2 ^ s
    let h := 2 ^ (s - 1)
    let above := decide (h < r) || (r == h && sticky)
    let half := r == h && !sticky
    let inexact := r != 0 || sticky
    (if roundsUp rm neg (q % 2 == 1) above half inexact then q + 1 else q, inexact)

/-- Whether `r × 2^l < 2^k`. -/
def magBelow (r : Nat) (l k : Int) : Bool := if l ≤ k then decide (r < 2 ^ (k - l).toNat) else r == 0

/-- Rounds a non-zero magnitude into a format: bits and flags (R252, R255). -/
def Fmt.round (f : Fmt) (rm : Nat) (ftz : Bool) (neg : Bool) (m : Nat) (e : Int) (sticky : Bool) : Nat × Nat :=
  let emin : Int := 1 - f.emax
  let lu : Int := e + Nat.log2 m - (f.p - 1)
  let l := max lu f.lmin
  let (r, inexact) := roundAt rm neg m e sticky l
  let (ru, _) := roundAt rm neg m e sticky lu
  let tiny := magBelow ru lu emin
  let sgn := b2n neg * 2 ^ (f.width - 1)
  if !magBelow r l (f.emax + 1) then
    let toInf := rm == 0 || rm == 4 || (rm == 2 && neg) || (rm == 3 && !neg)
    (if toInf then f.infBits neg else f.infBits neg - 1, ofx)
  else if ftz && magBelow r l emin then (sgn, ufx)
  else
    (sgn + ((l - f.lmin).toNat * 2 ^ (f.p - 1) + r), if inexact then (if tiny then ufx else nx) else 0)

/-- NaN handling of an operation: the canonical NaN, NV where an operand signals. -/
def Fmt.nanRes (f : Fmt) (vs : List FVal) : Nat × Nat :=
  (f.canonNan, if vs.any fun v => v == .nan true then nv else 0)

def FVal.isNan : FVal → Bool
  | .nan _ => true
  | _ => false

def FVal.neg : FVal → FVal
  | .nan s => .nan s
  | .inf s => .inf (!s)
  | .fin s m e => .fin (!s) m e

/-- The control bits of an operation: rounding mode, DAZ, FTZ. -/
structure FCtl where
  rm : Nat
  daz : Bool
  ftz : Bool
  deriving DecidableEq, Repr

/-- A sum of two finite values, rounded. -/
def Fmt.addFin (f : Fmt) (c : FCtl) (s1 : Bool) (m1 : Nat) (e1 : Int) (s2 : Bool) (m2 : Nat) (e2 : Int) : Nat × Nat :=
  let e := min e1 e2
  let a : Int := (m1 * 2 ^ (e1 - e).toNat : Nat)
  let b : Int := (m2 * 2 ^ (e2 - e).toNat : Nat)
  let x : Int := (if s1 then -a else a) + (if s2 then -b else b)
  if x = 0 then
    (f.zeroBits (if m1 = 0 ∧ m2 = 0 ∧ s1 = s2 then s1 else c.rm == 2), 0)
  else f.round c.rm c.ftz (decide (x < 0)) x.natAbs e false

/-- Addition of values. -/
def Fmt.addV (f : Fmt) (c : FCtl) (a b : FVal) : Nat × Nat :=
  match a, b with
  | .nan x, b => f.nanRes [.nan x, b]
  | a, .nan y => f.nanRes [a, .nan y]
  | .inf s, .inf t => if s = t then (f.infBits s, 0) else (f.canonNan, nv)
  | .inf s, .fin _ _ _ => (f.infBits s, 0)
  | .fin _ _ _, .inf t => (f.infBits t, 0)
  | .fin s m e, .fin t n k => f.addFin c s m e t n k

/-- Multiplication of values. -/
def Fmt.mulV (f : Fmt) (c : FCtl) (a b : FVal) : Nat × Nat :=
  match a, b with
  | .nan x, b => f.nanRes [.nan x, b]
  | a, .nan y => f.nanRes [a, .nan y]
  | .inf s, .inf t => (f.infBits (s != t), 0)
  | .inf s, .fin t n _ => if n = 0 then (f.canonNan, nv) else (f.infBits (s != t), 0)
  | .fin s m _, .inf t => if m = 0 then (f.canonNan, nv) else (f.infBits (s != t), 0)
  | .fin s m e, .fin t n k =>
    if m * n = 0 then (f.zeroBits (s != t), 0) else f.round c.rm c.ftz (s != t) (m * n) (e + k) false

/-- Division of values. -/
def Fmt.divV (f : Fmt) (c : FCtl) (a b : FVal) : Nat × Nat :=
  match a, b with
  | .nan x, b => f.nanRes [.nan x, b]
  | a, .nan y => f.nanRes [a, .nan y]
  | .inf _, .inf _ => (f.canonNan, nv)
  | .inf s, .fin t _ _ => (f.infBits (s != t), 0)
  | .fin s _ _, .inf t => (f.zeroBits (s != t), 0)
  | .fin s m e, .fin t n k =>
    if n = 0 then (if m = 0 then (f.canonNan, nv) else (f.infBits (s != t), dz))
    else if m = 0 then (f.zeroBits (s != t), 0)
    else
      let sh := 2 * f.p + 4
      let x := m * 2 ^ sh
      f.round c.rm c.ftz (s != t) (x / n) (e - k - sh) (x % n != 0)

/-- Square root of a value. -/
def Fmt.sqrtV (f : Fmt) (c : FCtl) : FVal → Nat × Nat
  | .nan x => f.nanRes [.nan x]
  | .inf s => if s then (f.canonNan, nv) else (f.infBits false, 0)
  | .fin s m e =>
    if m = 0 then (f.zeroBits s, 0)
    else if s then (f.canonNan, nv)
    else
      -- an even exponent, and enough bits for the root
      let sh := 2 * f.p + 4 + (e % 2).toNat
      let x := m * 2 ^ sh
      let r := Nat.sqrt x
      f.round c.rm c.ftz false r ((e - sh) / 2) (r * r != x)

/-- a × b + c, rounded once. -/
def Fmt.fmaV (f : Fmt) (ct : FCtl) (a b c : FVal) : Nat × Nat :=
  let zeroInf : Bool := match a, b with
    | .inf _, .fin _ m _ => m == 0
    | .fin _ m _, .inf _ => m == 0
    | _, _ => false
  if zeroInf then (f.canonNan, nv)
  else
    match a, b with
    | .nan x, b => f.nanRes [.nan x, b, c]
    | a, .nan y => f.nanRes [a, .nan y, c]
    | .fin s m e, .fin t n k =>
      match c with
      | .nan z => f.nanRes [.nan z]
      | .inf u => (f.infBits u, 0)
      | .fin u o j => f.addFin ct (s != t) (m * n) (e + k) u o j
    | .inf s, .inf t => f.addV ct (.inf (s != t)) c
    | .inf s, .fin t _ _ => f.addV ct (.inf (s != t)) c
    | .fin s _ _, .inf t => f.addV ct (.inf (s != t)) c

/-- The order of two values that are no NaN: a < b, with −0 below +0 if `zeros`. -/
def FVal.lt (zeros : Bool) (a b : FVal) : Bool :=
  let key : FVal → Int × Nat × Int := fun v => match v with
    | .inf s => (if s then -2 else 2, 0, 0)
    | .fin s m e => (if m = 0 then 0 else if s then -1 else 1, m, e)
    | .nan _ => (0, 0, 0)
  let (ca, m, e) := key a
  let (cb, n, k) := key b
  if ca ≠ cb then decide (ca < cb)
  else if ca = 0 then zeros && (match a, b with | .fin s _ _, .fin t _ _ => s && !t | _, _ => false)
  else
    let l := min e k
    let x := m * 2 ^ (e - l).toNat
    let y := n * 2 ^ (k - l).toNat
    if ca = 1 then decide (x < y) else if ca = -1 then decide (y < x) else false

/-- FMIN and FMAX (minimumNumber, maximumNumber) on bit patterns. -/
def Fmt.minMax (f : Fmt) (wantMax : Bool) (x y : Nat) : Nat × Nat :=
  let a := f.val x
  let b := f.val y
  let fl := if a = .nan true ∨ b = .nan true then nv else 0
  if a.isNan && b.isNan then (f.canonNan, fl)
  else if a.isNan then (y, fl)
  else if b.isNan then (x, fl)
  else (if (if wantMax then b.lt true a else a.lt true b) then x else y, fl)

/-- FEQ 2, FLT 1, FLE 0. -/
def Fmt.cmp (f : Fmt) (op x y : Nat) : Nat × Nat :=
  let a := f.val x
  let b := f.val y
  if a.isNan || b.isNan then
    (0, if op ≠ 2 then nv else if a = .nan true ∨ b = .nan true then nv else 0)
  else
    let eq := !(a.lt false b) && !(b.lt false a)
    (match op with
      | 2 => b2n eq
      | 1 => b2n (a.lt false b)
      | _ => b2n (a.lt false b || eq), 0)

/-- FCLASS. -/
def Fmt.classify (f : Fmt) (x : Nat) : Nat :=
  match f.val x with
  | .nan s => if s then 2 ^ 8 else 2 ^ 9
  | .inf s => if s then 1 else 2 ^ 7
  | .fin s m _ =>
    if m = 0 then (if s then 2 ^ 3 else 2 ^ 4)
    else if m < 2 ^ (f.p - 1) then (if s then 2 ^ 2 else 2 ^ 5)
    else if s then 2 else 2 ^ 6

/-- Conversion to an integer of `w` bits, signed or not: the integer, and flags. -/
def toInt (c : FCtl) (w : Nat) (signed : Bool) (v : FVal) : Int × Nat :=
  let lo : Int := if signed then -(2 ^ (w - 1) : Nat) else 0
  let hi : Int := if signed then (2 ^ (w - 1) : Nat) - 1 else (2 ^ w : Nat) - 1
  match v with
  | .nan _ => (hi, nv)
  | .inf s => (if s then lo else hi, nv)
  | .fin s m e =>
    let (r, inexact) := roundAt c.rm s m e false 0
    let x : Int := if s then -(r : Int) else r
    if x < lo then (lo, nv) else if hi < x then (hi, nv) else (x, if inexact then nx else 0)

/-- Conversion of an integer to a format. -/
def Fmt.ofInt (f : Fmt) (c : FCtl) (x : Int) : Nat × Nat :=
  if x = 0 then (0, 0) else f.round c.rm false (decide (x < 0)) x.natAbs 0 false

/-- Conversion of a value of the other format. -/
def Fmt.convert (f : Fmt) (c : FCtl) : FVal → Nat × Nat
  | .nan x => f.nanRes [.nan x]
  | .inf s => (f.infBits s, 0)
  | .fin s m e => if m = 0 then (f.zeroBits s, 0) else f.round c.rm c.ftz s m e false

end Sys2Proof.Machine
end

