-- ==== Sys2Proof/Machine/RvCore.lean ====
section
/-!
DEFINITION. The execution of RISC-V instructions by the threads (R199 to R206, R211, R212, R247, R252 to R258), by the RISC-V
standards that R199 cites (notes/assumptions/26).
-/

namespace Sys2Proof.Machine
namespace Dev

/-! ### Ends of an instruction -/

/-- The illegal-instruction exception. -/
def illegal (d : Dev) (t raw : Nat) : Dev := d.raise t ⟨2, raw⟩

/-- An instruction retires and the pc moves past it. -/
def retireIns (d : Dev) (t len : Nat) : Dev :=
  d.modThread t fun x => { x with pc := x.pc + BitVec.ofNat 64 len, retired := x.retired + 1, wait := .run }

/-- Register `r` (x as 0–31, f as 32–63) is available after `lat` cycles (R205). -/
def setBusy (d : Dev) (t r lat : Nat) : Dev :=
  if r = 0 then d else d.modThread t fun x => { x with busy := tabSet (fun _ => 0) x.busy r (d.cycle + coreCy t lat) }

/-- An instruction retires with a result in x[rd], which a dependent one can read `lat` cycles later. -/
def finX (d : Dev) (t len rd : Nat) (v : W64) (lat : Nat) : Dev :=
  ((d.modThread t (·.wr rd v)).setBusy t rd lat).retireIns t len

/-- The same for f[rd]. -/
def finF (d : Dev) (t len rd : Nat) (v : W64) (lat : Nat) : Dev :=
  ((d.modThread t (·.fwr rd v)).setBusy t (32 + rd) lat).retireIns t len

/-- A taken branch or jump: the next fetch is 3 cycles later (R205). -/
def rvJump (d : Dev) (t : Nat) (target : W64) : Dev :=
  d.modThread t fun x => { x with pc := target, retired := x.retired + 1, fetchAt := d.cycle + coreCy t 3 }

/-- Whether an access of thread `t` at `pa` takes an entry of the miss buffer, and whether it travels by the kiln port (R208): a
line in no L1 does, by the port past the kiln's L2; so does an access outside the HBM, a register access aside. -/
def missPort (t : Nat) (c : CacheAt) (pa : Nat) : Option Bool :=
  if hbmSize ≤ pa then (if regBase ≤ pa then none else some (!isMgmt t))
  else match c with
    | .missed l2 => some (!l2 && !isMgmt t)
    | _ => none

/-- The access of the instruction at the pc of `d0`, at `va` and `pa`, has issued: where its line is in no L1 it stays outstanding
in the miss buffer, and register `dest` waits for it (R205, R209); `st` marks a store, which waits in the store buffer and needs no
entry of the miss buffer to get there (R238). -/
def outstanding (d0 : Dev) (t : Nat) (c : CacheAt) (m : MemAcc) (st : Bool) (va pa dest : Nat) (d : Dev) : Dev :=
  match missPort t c pa with
  | none => d
  | some port =>
    if st = true ∧ hbmSize ≤ pa ∧ port = false then d
    else
      let x := d0.thread t
      let e : Miss := { line := pa / 64, dest := dest, old := if dest < 32 then x.rd dest else x.frd (dest - 32), pc := x.pc, va := va,
                        fault := m.fault, fetch := m == .fetch, store := st, entered := !st || d0.entryFree t, port := port, since := d.cycle,
                        sent := false, tag := none }
      d.modThread t fun x => { x with
        missed := x.missed ++ [e], misses := x.misses + b2n (decide (pa < hbmSize) && m != .fetch) }

/-- What a load's read brings to the thread: a value for `k`, with its physical address, or an exception. -/
def afterLoad (t : Nat) (k : Nat → Nat → Dev → Dev) : Dev × Got → Dev
  | (d, .val v pa) => k v pa d
  | (d, .exc e) => d.raise t e

/-- A store of the low `n` bytes of `v` at `va`: the thread goes on before the bytes land, for a register write may reset
it. -/
def storeAt (d : Dev) (t len va n v : Nat) (c : CacheAt) (x : Aux) : Dev :=
  match d.vstoreAt t false va n with
  | (y, .val _ pa) => (outstanding d t c .store true va pa 0 (y.retireIns t len)).physStore t (orderCore (requester t)) pa n v x
  | (y, .exc e) => y.raise t e

/-! ### Memory instructions -/

/-- The value of a load by its funct3. -/
def loadVal (f3 v : Nat) : W64 :=
  match f3 with
  | 0 => sx 8 v
  | 1 => sx 16 v
  | 2 => sx 32 v
  | _ => BitVec.ofNat 64 v

/-- LOAD. -/
def execLoadX (d : Dev) (t w raw len : Nat) (c : CacheAt) : Dev :=
  let f3 := rvF3 w
  if f3 = 7 then d.illegal t raw
  else
    let va := ((d.thread t).rd (rvRs1 w) + immI w).toNat
    afterLoad t (fun v pa y => outstanding d t c .load false va pa (rvRd w) (y.finX t len (rvRd w) (loadVal f3 v) 4))
      (d.vload t .load false va (2 ^ (f3 % 4)))

/-- STORE. -/
def execStoreX (d : Dev) (t w raw len : Nat) (c : CacheAt) (x : Aux) : Dev :=
  let f3 := rvF3 w
  if 3 < f3 then d.illegal t raw
  else
    let th := d.thread t
    d.storeAt t len (th.rd (rvRs1 w) + immS w).toNat (2 ^ f3) (th.rd (rvRs2 w)).toNat c x

/-- The low `8 n` bits of a register sign-extended: an operand or a result of an atomic. -/
def amoExt (n v : Nat) : W64 := if n = 4 then sx 32 v else BitVec.ofNat 64 v

/-- LR: the reservation is the aligned 64-byte line (R247). -/
def execLr (d : Dev) (t w len n : Nat) (c : CacheAt) : Dev :=
  let va := ((d.thread t).rd (rvRs1 w)).toNat
  afterLoad t (fun v pa y => outstanding d t c .load false va pa (rvRd w)
    ((y.modThread t fun x => { x with resv := some (pa / 64) }).finX t len (rvRd w) (amoExt n v) 4))
    (d.vload t .load true va n)

/-- SC: succeeds on a reservation of the line; it ends the reservation (R247). A store of the same cycle comes first (R248). -/
def execSc (d : Dev) (t w len n : Nat) (c : CacheAt) (x : Aux) : Dev :=
  let th := d.thread t
  let va := (th.rd (rvRs1 w)).toNat
  match d.vstoreAt t true va n with
  | (y, .val _ pa) =>
    let ok := (y.thread t).resv == some (pa / 64)
    let y := y.modThread t fun y => { y with resv := none }
    let y := if ok then y.physStore t orderSc pa n (th.rd (rvRs2 w)).toNat x else y
    outstanding d t c .store false va pa (rvRd w) (y.finX t len (rvRd w) (BitVec.ofNat 64 (b2n (!ok))) 4)
  | (y, .exc e) => y.raise t e

/-- An AMO: reads, stores what the operation gives, and returns what it read. -/
def execAmo (d : Dev) (t w raw len n : Nat) (c : CacheAt) (x : Aux) : Dev :=
  let th := d.thread t
  let va := (th.rd (rvRs1 w)).toNat
  let f5 := rvF7 w / 4
  let op := fun (old : Nat) =>
    if n = 4 then (amoOp f5 (BitVec.ofNat 32 old) ((th.rd (rvRs2 w)).setWidth 32)).map (·.toNat)
    else (amoOp f5 (BitVec.ofNat 64 old) (th.rd (rvRs2 w))).map (·.toNat)
  if (op 0).isNone then d.illegal t raw
  else
    afterLoad t (fun old pa y =>
      match y.vstoreAt t true va n with
      | (y, .val _ _) => outstanding d t c .store false va pa (rvRd w)
          ((y.physStore t (orderCore (requester t)) pa n ((op old).getD 0) x).finX t len (rvRd w) (amoExt n old) 4)
      | (y, .exc e) => y.raise t e) (d.vload t .store true va n)

/-- The A extension. -/
def execAtomic (d : Dev) (t w raw len : Nat) (c : CacheAt) (x : Aux) : Dev :=
  let f3 := rvF3 w
  if f3 ≠ 2 ∧ f3 ≠ 3 then d.illegal t raw
  else
    let n := 2 ^ f3
    match rvF7 w / 4 with
    | 0x02 => if rvRs2 w = 0 then d.execLr t w len n c else d.illegal t raw
    | 0x03 => d.execSc t w len n c x
    | _ => d.execAmo t w raw len n c x

/-! ### System instructions -/

/-- MRET: the mode and the interrupt enable of before, from mstatus (R199). -/
def execMret (d : Dev) (t raw : Nat) : Dev :=
  let x := d.thread t
  if x.mode ≠ .m then d.illegal t raw
  else
    let ms := x.csr cMstatus
    let ms := setBits (setBits (setBits ms 3 1 (bitsOf ms 7 1)) 7 1 1) 11 2 0
    let ms := if x.mpp = 3 then ms else setBits ms 17 1 0
    d.modThread t fun y => { (y.setCsr cMstatus ms) with
      mode := .ofCode x.mpp, pc := BitVec.ofNat 64 (x.csr 0x341), retired := y.retired + 1 }

/-- SRET; below M mode under TSR, and in U mode, it is illegal. -/
def execSret (d : Dev) (t raw : Nat) : Dev :=
  let x := d.thread t
  if x.mode = .u ∨ (x.mode = .s ∧ x.st 22 = true) then d.illegal t raw
  else
    let ms := x.csr cMstatus
    let ms := setBits (setBits (setBits (setBits ms 1 1 (bitsOf ms 5 1)) 5 1 1) 8 1 0) 17 1 0
    d.modThread t fun y => { (y.setCsr cMstatus ms) with
      mode := if x.st 8 then .s else .u, pc := BitVec.ofNat 64 (x.csr 0x141), retired := y.retired + 1 }

/-- The CSR instructions: a register or a 5-bit number written, set or cleared; the old value to x[rd]. -/
def execCsr (d : Dev) (t w raw len : Nat) : Dev :=
  let x := d.thread t
  let n := bitsOf w 20 12
  let f3 := rvF3 w
  let src := if bitOf f3 2 then rvRs1 w else (x.rd (rvRs1 w)).toNat
  let writes := f3 % 4 == 1 || rvRs1 w != 0
  match d.csrRead t n with
  | none => d.illegal t raw
  | some old =>
    if !csrAllowed x n writes then d.illegal t raw
    else
      let new := match f3 % 4 with
        | 1 => src
        | 2 => old ||| src
        | _ => old &&& (2 ^ 64 - 1 - src)
      let d := if writes then d.csrWrite t n new else d
      d.finX t len (rvRd w) (BitVec.ofNat 64 old) 1

/-- SYSTEM. WFI has a row of its own. -/
def execSystem (d : Dev) (t w raw len : Nat) : Dev :=
  let x := d.thread t
  if rvF3 w % 4 ≠ 0 then d.execCsr t w raw len
  else if w = 0x00000073 then d.raise t ⟨8 + x.mode.code, 0⟩
  else if w = 0x00100073 then d.raise t ⟨3, x.pc.toNat⟩
  else if w = 0x30200073 then d.execMret t raw
  else if w = 0x10200073 then d.execSret t raw
  else if rvF3 w = 0 ∧ rvF7 w = 0x09 ∧ rvRd w = 0 then
    (if x.mode = .u ∨ (x.mode = .s ∧ x.st 20 = true) then d.illegal t raw else d.retireIns t len)
  else d.illegal t raw

/-! ### All standard instructions -/

/-- The latency of OP and OP-32: multiplications 3, divisions their maximum (R205). -/
def opLatency (w : Nat) : Nat :=
  if rvF7 w ≠ 1 then 1 else if rvF3 w < 4 then 3 else if rvOp w = 0x3B then 20 else 36

/-- A result in x[rd], or an illegal instruction. -/
def finOpt (d : Dev) (t raw len rd : Nat) (v : Option W64) (lat : Nat) : Dev :=
  match v with
  | some v => d.finX t len rd v lat
  | none => d.illegal t raw

/-- An instruction of RV64I, M, A, Zicsr, Zifencei, Zba or Zbb. FENCE and FENCE.I order what this model already keeps in
order (R243, R246). -/
def execStd (d : Dev) (t w raw len : Nat) (c : CacheAt) (x : Aux) : Dev :=
  let th := d.thread t
  let a := th.rd (rvRs1 w)
  let b := th.rd (rvRs2 w)
  let rd := rvRd w
  let next := th.pc + BitVec.ofNat 64 len
  match rvOp w with
  | 0x37 => d.finX t len rd (immU w) 1
  | 0x17 => d.finX t len rd (th.pc + immU w) 1
  | 0x6F => ((d.modThread t (·.wr rd next)).setBusy t rd 1).rvJump t (th.pc + immJ w)
  | 0x67 =>
    if rvF3 w ≠ 0 then d.illegal t raw
    else ((d.modThread t (·.wr rd next)).setBusy t rd 1).rvJump t ((a + immI w) &&& ~~~1#64)
  | 0x63 =>
    (match branchTaken (rvF3 w) a b with
      | none => d.illegal t raw
      | some true => d.rvJump t (th.pc + immB w)
      | some false => d.retireIns t len)
  | 0x03 => d.execLoadX t w raw len c
  | 0x23 => d.execStoreX t w raw len c x
  | 0x13 => d.finOpt t raw len rd (aluImm (rvF3 w) (bitsOf w 20 12) a) 1
  | 0x1B => d.finOpt t raw len rd (aluImm32 (rvF3 w) (bitsOf w 20 12) a) 1
  | 0x33 => d.finOpt t raw len rd (aluOp (rvF7 w) (rvF3 w) a b) (opLatency w)
  | 0x3B => d.finOpt t raw len rd (aluOp32 (rvF7 w) (rvF3 w) (rvRs2 w) a b) (opLatency w)
  | 0x2F => d.execAtomic t w raw len c x
  | 0x0F => if rvF3 w ≤ 1 then d.retireIns t len else d.illegal t raw
  | 0x73 => d.execSystem t w raw len
  | _ => d.illegal t raw

/-! ### Floating point (R252 to R258) -/

/-- An operand of a format from an f register: a single-precision value that is not NaN-boxed is the canonical NaN. -/
def fOperand (f : Fmt) (v : W64) : Nat :=
  if f.p = 53 then v.toNat else if v.toNat / 2 ^ 32 = 2 ^ 32 - 1 then v.toNat % 2 ^ 32 else f32.canonNan

/-- A result of a format as an f register holds it. -/
def boxF (f : Fmt) (v : Nat) : W64 := if f.p = 53 then BitVec.ofNat 64 v else BitVec.ofNat 64 ((2 ^ 32 - 1) * 2 ^ 32 + v)

/-- Flags accrue in fcsr. -/
def accrue (d : Dev) (t fl : Nat) : Dev := if fl = 0 then d else d.modThread t fun x => (x.setCsr 3 (x.csr 3 ||| fl)).dirtyF

/-- A result and its flags to f[rd]. -/
def finFlagsF (d : Dev) (t len rd : Nat) (f : Fmt) (r : Nat × Nat) (lat : Nat) : Dev :=
  (d.accrue t r.2).finF t len rd (boxF f r.1) lat

/-- The rounding mode of an instruction: static, or frm; none where it is reserved (R252). -/
def roundMode (x : Thread) (w : Nat) : Option Nat :=
  let m := if rvF3 w = 7 then x.csr 3 / 32 else rvF3 w
  if m ≤ 4 then some m else none

/-- The control of an operation with a rounding mode. -/
def fctl (x : Thread) (rm : Nat) : FCtl := ⟨rm, bitOf (x.csr 0x8C0) 0, bitOf (x.csr 0x8C0) 1⟩

/-- An operand's value under DAZ. -/
def fval (f : Fmt) (c : FCtl) (v : W64) : FVal := f.daz c.daz (f.val (fOperand f v))

/-- The fused multiply-adds: FMADD a b + c, FMSUB a b − c, FNMSUB − a b + c, FNMADD − a b − c. -/
def execFma (d : Dev) (t w len : Nat) (f : Fmt) (c : FCtl) : Dev :=
  let x := d.thread t
  let a := fval f c (x.frd (rvRs1 w))
  let b := fval f c (x.frd (rvRs2 w))
  let e := fval f c (x.frd (rvRs3 w))
  let r := match rvOp w with
    | 0x43 => f.fmaV c a b e
    | 0x47 => f.fmaV c a b e.neg
    | 0x4B => f.fmaV c a.neg b e
    | _ => f.fmaV c a.neg b e.neg
  d.finFlagsF t len (rvRd w) f r 4

/-- Sign injection on bit patterns. -/
def sgnj (f : Fmt) (f3 x y : Nat) : Nat :=
  let k := f.width - 1
  let s := match f3 with
    | 0 => bitOf y k
    | 1 => !bitOf y k
    | _ => bitOf x k != bitOf y k
  bitsOf x 0 k + b2n s * 2 ^ k

/-- The integer that FCVT from an integer takes: W, WU, L, LU. -/
def intOperand (k : Nat) (v : W64) : Int :=
  match k with
  | 0 => (v.setWidth 32).toInt
  | 1 => (v.setWidth 32).toNat
  | 2 => v.toInt
  | _ => v.toNat

/-- FCVT to an integer: a 32-bit result is sign-extended. -/
def fToInt (c : FCtl) (k : Nat) (v : FVal) : W64 × Nat :=
  let r := toInt c (if k < 2 then 32 else 64) (k % 2 == 0) v
  (if k < 2 then (BitVec.ofInt 32 r.1).signExtend 64 else BitVec.ofInt 64 r.1, r.2)

/-- OP-FP on one format. -/
def execOpFp (d : Dev) (t w raw len : Nat) (f : Fmt) : Dev :=
  let x := d.thread t
  let rd := rvRd w
  let k := rvRs2 w
  let f3 := rvF3 w
  let va := x.frd (rvRs1 w)
  let vb := x.frd (rvRs2 w)
  let pa := fOperand f va
  let pb := fOperand f vb
  let rounded := fun (g : FCtl → Dev) => match roundMode x w with
    | some rm => g (fctl x rm)
    | none => d.illegal t raw
  let longLat := if f.p = 24 then 14 else 24
  match rvF7 w / 4 with
  | 0x00 => rounded fun c => d.finFlagsF t len rd f (f.addV c (fval f c va) (fval f c vb)) 4
  | 0x01 => rounded fun c => d.finFlagsF t len rd f (f.addV c (fval f c va) (fval f c vb).neg) 4
  | 0x02 => rounded fun c => d.finFlagsF t len rd f (f.mulV c (fval f c va) (fval f c vb)) 4
  | 0x03 => rounded fun c => d.finFlagsF t len rd f (f.divV c (fval f c va) (fval f c vb)) longLat
  | 0x0B => if k ≠ 0 then d.illegal t raw else rounded fun c => d.finFlagsF t len rd f (f.sqrtV c (fval f c va)) longLat
  | 0x04 => if 2 < f3 then d.illegal t raw else d.finF t len rd (boxF f (sgnj f f3 pa pb)) 2
  | 0x05 => if 1 < f3 then d.illegal t raw else d.finFlagsF t len rd f (f.minMax (f3 == 1) pa pb) 2
  | 0x08 =>
    let src := if f.p = 24 then f64 else f32
    if k ≠ (if f.p = 24 then 1 else 0) then d.illegal t raw
    else rounded fun c => d.finFlagsF t len rd f (f.convert c (fval src c va)) 4
  | 0x14 =>
    if 2 < f3 then d.illegal t raw
    else let r := f.cmp f3 pa pb; (d.accrue t r.2).finX t len rd (BitVec.ofNat 64 r.1) 2
  | 0x18 =>
    if 3 < k then d.illegal t raw
    else rounded fun c => let r := fToInt c k (fval f c va); (d.accrue t r.2).finX t len rd r.1 3
  | 0x1A =>
    if 3 < k then d.illegal t raw
    else rounded fun c => d.finFlagsF t len rd f (f.ofInt c (intOperand k (x.rd (rvRs1 w)))) 3
  | 0x1C =>
    if k ≠ 0 then d.illegal t raw
    else if f3 = 0 then d.finX t len rd (if f.p = 24 then sext32 va else va) 2
    else if f3 = 1 then d.finX t len rd (BitVec.ofNat 64 (f.classify pa)) 2
    else d.illegal t raw
  | 0x1E =>
    if k ≠ 0 ∨ f3 ≠ 0 then d.illegal t raw
    else let v := x.rd (rvRs1 w); d.finF t len rd (if f.p = 24 then boxF f (v.toNat % 2 ^ 32) else v) 2
  | _ => d.illegal t raw

/-- An instruction of F or D: illegal while mstatus.FS is Off (R254). -/
def execFp (d : Dev) (t w raw len : Nat) (c : CacheAt) (x : Aux) : Dev :=
  let th := d.thread t
  let f3 := rvF3 w
  let f := if bitsOf w 25 2 = 0 then f32 else f64
  if th.fs = 0 then d.illegal t raw
  else match rvOp w with
    | 0x07 =>
      if f3 ≠ 2 ∧ f3 ≠ 3 then d.illegal t raw
      else
        let va := (th.rd (rvRs1 w) + immI w).toNat
        afterLoad t (fun v pa y => outstanding d t c .load false va pa (32 + rvRd w)
          (y.finF t len (rvRd w) (boxF (if f3 = 2 then f32 else f64) v) 4)) (d.vload t .load false va (2 ^ f3))
    | 0x27 =>
      if f3 ≠ 2 ∧ f3 ≠ 3 then d.illegal t raw
      else d.storeAt t len (th.rd (rvRs1 w) + immS w).toNat (2 ^ f3) (th.frd (rvRs2 w)).toNat c x
    | 0x53 => if 1 < bitsOf w 25 2 then d.illegal t raw else d.execOpFp t w raw len f
    | _ =>
      if 1 < bitsOf w 25 2 then d.illegal t raw
      else match roundMode th w with
        | some rm => d.execFma t w len f (fctl th rm)
        | none => d.illegal t raw

/-! ### Waits -/

/-- A wait ends: the waiting instruction has completed. -/
def wake (d : Dev) (t : Nat) : Dev := d.retireIns t 4

/-- Whether a source that a TWAIT mask selects is non-empty (R212). -/
def twaitHit (x : Thread) (mask : Nat) : Bool :=
  ((List.range 4).any fun e => bitOf mask e && !(tabGet (fun _ => []) x.rx e).isEmpty) || (bitOf mask 4 && !x.inbox.isEmpty)

/-- Thread `t` issues an instruction of a row: `f` gets its word, the bits fetched and its length. Nothing happens where the
slot is not the thread's, an interrupt comes first, or the instruction is of another row. -/
def issueRow (d : Dev) (t : Nat) (c : RvClass) (f : Nat → Nat → Nat → Dev → Dev) : Dev :=
  match d.issue t with
  | none => d
  | some y =>
    if (takeable (y.thread t)).isSome then d
    else match y.fetchIns t with
      | (z, .ins w raw len) => if rvClass w = c then f w raw len z else d
      | (_, .exc _) => d

/-- A thread whose next instruction finds no free entry of the miss buffer is not ready until one frees (R209). -/
def waitEntry (d : Dev) (t : Nat) : Dev := d.modThread t fun x => { x with wait := .entry }

/-- Whether an instruction's access needs an entry of the miss buffer and finds none; a store does not wait for one (R238). -/
def lacksEntry (d : Dev) (t w : Nat) (c : CacheAt) : Bool :=
  !isStore w && !d.entryFree t && match d.memPa t w with
    | some pa => (missPort t c pa).isSome
    | none => false

/-- The next fetch of a thread misses its L1I: it takes an entry of the miss buffer, and the thread issues nothing until the
line comes (R205, R209). -/
def fetchMiss (d : Dev) (t : Nat) (l2 : Bool) : Dev :=
  let x := d.thread t
  if !d.runs t || !d.unheld t || (takeable x).isSome || decide (d.cycle < x.fetchAt) || x.missed.any (fun m => m.fetch && m.pc == x.pc) then d
  else
    match d.vaddr t .fetch x.pc.toNat 2 with
    | (y, none, pa) =>
      if hbmSize ≤ pa then d
      else if !d.entryFree t then d.waitEntry t
      else outstanding y t (.missed l2) .fetch false x.pc.toNat pa 0 (y.modThread t fun x => { x with wait := .run })
    | _ => d

end Dev

/-! ### The rows -/

/-- RV_INSTRUCTION (R199, R205, R206): thread `t` issues a standard instruction, takes an interrupt that is due, or the
exception of its fetch. `c` says where the access, or the instruction, is found; `x` serves a store to register space. -/
def doRvInstruction (t : Fin 1026) (c : CacheAt) (x : Aux) (d : Dev) : Dev :=
  match c with
  | .noFetch l2 => d.fetchMiss t l2
  | _ =>
    match d.issue t with
    | none => d
    | some y =>
      match Dev.takeable (y.thread t) with
      | some i => y.interrupt t i
      | none =>
        match y.fetchIns t with
        | (z, .exc e) => z.raise t e
        | (z, .ins w raw len) =>
          if rvClass w ≠ .std then d
          else if z.lacksEntry t w c then d.waitEntry t
          else z.execStd t w raw len c x

/-- FP_INSTRUCTION (R252 to R258). -/
def doFpInstruction (t : Fin 1026) (c : CacheAt) (x : Aux) (d : Dev) : Dev :=
  match c with
  | .noFetch l2 => d.fetchMiss t l2
  | _ => d.issueRow t .fp fun w raw len y => if y.lacksEntry t w c then d.waitEntry t else y.execFp t w raw len c x

/-- WFI (R201): it ends at once where an interrupt is pending and enabled in mie. -/
def doWfi (t : Fin 1026) (d : Dev) : Dev :=
  d.issueRow t .wfi fun _ raw len d =>
    let x := d.thread t
    if x.mode ≠ .m ∧ x.st 21 = true then d.illegal t raw
    else if Dev.pendEn x ≠ 0 then d.retireIns t len
    else d.modThread t fun x => { x with wait := .wfi }

/-- INTERRUPT_WAKE (R201, R212, R216): an interrupt pending and enabled in mie ends WFI, TWAIT and TPAUSE; one that is taken
abandons a blocked instruction. -/
def doInterruptWake (t : Fin 1026) (d : Dev) : Dev :=
  let x := d.thread t
  if !d.runs t || Dev.pendEn x == 0 then d
  else match x.wait with
    | .wfi => d.wake t
    | .twait _ => d.wake t
    | .pause _ => d.wake t
    | .run => d
    | .entry => d
    | _ =>
      match Dev.takeable x with
      | some i => (d.unstall t).interrupt t i
      | none => d

/-- The load, LR, SC or AMO of a miss whose line does not come raises its access fault, its register as it was. -/
def Dev.missFault (d : Dev) (t : Nat) (m : Miss) : Dev :=
  let back := fun (x : Thread) =>
    if m.dest = 0 then x else if m.dest < 32 then x.wr m.dest m.old else x.fwr (m.dest - 32) m.old
  ((d.unstall t).modThread t fun x => { back x with pc := m.pc }).raise t ⟨m.fault, m.va⟩

/-- A line that thread `t`'s kiln holds Modified makes room and is written back: its data leave by the core's slots (R208). -/
def Dev.writeBack (d : Dev) (t l : Nat) : Dev :=
  if tabGet (fun _ => none) d.mem.modified l = some (Dev.requester t) then
    let d : Dev := { d with mem := { d.mem with modified := tabSet (fun _ => none) d.mem.modified l none } }
    let c := Dev.coreOf t
    if c < 128 then d.setCoreSt c { d.coreSt c with wbacks := (d.coreSt c).wbacks ++ [d.cycle] } else d
  else d

/-- A line comes back toward a kiln that has bumped since it asked: its number fails R38, and it is discarded (R39, R475). -/
def Dev.strayLine (d : Dev) (t i : Nat) : Dev :=
  match (d.core.strays.filter fun x => x.1 == t)[i]? with
  | none => d
  | some x =>
    if d.firing (.kiln x.2.1) = x.2.2 then d
    else (d.setCore fun s => { s with strays := s.strays.erase x }).lateDiscard (.kiln x.2.1)

/-- LINE_FILL (R205, R208, R238, R248): entry `fill.1` of a thread's misses is served, and what waits for its line goes on: past the
kiln's L2 the line comes in the core's slot of the kiln port, after its request has left. `fill.2.1` says that the fill met an
uncorrectable ECC error: the line is poisoned and the error recorded, and the load, LR, SC or AMO that needs it raises its access
fault, its register as it was (notes/assumptions/8). `fill.2.2` is the line that it displaces from the kiln. Entries past the
thread's misses are those that its kiln asked for before it was replaced or died. -/
def doLineFill (t : Fin 1026) (fill : Fin 32 × Bool × Option Nat) (d : Dev) : Dev :=
  let (i, uncorr, victim) := fill
  match (d.thread t).missed[i.val]? with
  | none => d.strayLine t (i.val - (d.thread t).missed.length)
  | some m =>
    let c := Dev.coreOf t
    let bad := uncorr && decide (64 * m.line < hbmSize)
    let faults := bad && !m.fetch && !m.store
    if !m.entered || (m.port && !(m.sent && d.portSlot c && decide ((d.coreSt c).portIn ≤ d.cycle))) || (faults && !d.runs t) then d
    else
      let d := if m.port then d.setCoreSt c { d.coreSt c with portIn := d.cycle + 1 } else d
      let d := d.modThread t fun x => { x with missed := x.missed.eraseIdx i.val }
      let d := match victim with | some l => d.writeBack t l | none => d
      let d := if bad then (d.poisonLines [m.line]).consumed (64 * m.line) else d
      if faults then d.missFault t m else d

end Sys2Proof.Machine
end

