-- ==== Sys2Proof/Machine/OwnerRows.lean ====
section
/-!
DEFINITION. The spacing of an owner's bumps (R36) and the resolve limits of tagged items (R41).
-/

namespace Sys2Proof.Machine

/-- The owner that an operand names. -/
def Owner.ofRef : OwnerRef → Owner
  | .saggar s => .saggar s
  | .chan g => .chan g
  | .place q => .place q
  | .kiln k => .kiln k

/-- What waited for an owner's bump goes on (R36): a placement change (R230), a kiln's replacement (R472, R474), a FREE_CH or
RESTORE (R367, R381); the resets of saggars, channels and quadrants have rows of their own. -/
def Dev.bumped (d : Dev) : Owner → Dev
  | .place q => ((if (d.place q).ended || (d.place q).next.isNone then d.finishMove q else d).answerPlace q).sagOpsGo
  | .kiln k => d.kilnBumped k
  | _ => d.sagOpsGo

/-- BUMP_SPACING_EXPIRY (R36): 16 µs after an owner's last bump, a bump that is pending is applied. -/
def doBumpSpacingExpiry (o : OwnerRef) (d : Dev) : Dev :=
  let o := Owner.ofRef o
  let due := match d.lastBump o with
    | none => true
    | some c => decide (c + bumpSpacing ≤ d.cycle)
  if d.bumpPending o && due then (d.applyBump o).bumped o else d

/-- ITEM_RESOLVE_LIMIT_EXPIRY (R41): a unit that still holds an item at its limit abandons it and reports it through its own
error path. For a message on a thread channel the manual names no such path; a load, LR, SC or AMO whose line has not come raises its
access fault (DESIGN CHOICE, notes/assumptions/66). -/
def doItemResolveLimitExpiry (item : TaggedItem) (d : Dev) : Dev :=
  match item with
  | .read tag => readLimit tag d
  | .glazeWaiting => doGlazeDispatchTimeout d
  | .glaze e => doGlazeJobTimeout e d
  | .pke u => doPkeJobTimeout u d
  | .frame t c => doPlacedFrameAbandon t c d
  | .storage s => doStorageTimeout s d
  | .line t i =>
    match (d.thread t).missed[i.val]? with
    | some m =>
      let faults := !m.fetch && !m.store
      if d.cycle < m.since + 3000000 ∨ (faults = true ∧ d.runs t = false) then d
      else
        let d := d.modThread t fun x => { x with missed := x.missed.eraseIdx i.val }
        if faults then d.missFault t m else d
    | none => d
  | .write l i => d.writeLimit l i
  | .message i =>
    match d.channel i with
    | some c =>
      match c.msgs with
      | m :: ms => if m.at_ + 3000000 ≤ d.cycle then d.setChannel i (some { c with msgs := ms }) else d
      | [] => d
    | none => d

end Sys2Proof.Machine
end

