-- ==== Sys2Proof/Machine/Owners.lean ====
section
/-!
DEFINITION. The meanings of the commands of the family Owners: each puts the effect of its row on the
device and leaves the queue alone.
-/

namespace Sys2Proof.Machine

/-- BUMP_SPACING_EXPIRY (R36): The 16 µs spacing after an owner's last bump expires and a pending bump is applied. -/
def execBumpSpacingExpiry (o : OwnerRef) (s : State) : Host.Outcome State Fault Refusal :=
  s.effect (doBumpSpacingExpiry o)

/-- ITEM_RESOLVE_LIMIT_EXPIRY (R41): A unit still holding a tagged item at its resolve limit abandons it and reports it through its own error path. -/
def execItemResolveLimitExpiry (item : TaggedItem) (s : State) : Host.Outcome State Fault Refusal :=
  s.effect (doItemResolveLimitExpiry item)

end Sys2Proof.Machine
end

