-- ==== Sys2Proof/Machine/ParseEngines.lean ====
section
/-!
DEFINITION. The meanings of the commands of the family ParseEngines: each puts the effect of its row on the
device and leaves the queue alone.
-/

namespace Sys2Proof.Machine

/-- ENGINE_ALLOCATION (R76): A frame reaching the parse engines, or leaving the parse queue, is given the lowest free engine or queued or discarded. -/
def execEngineAllocation (k : Fin 8) (s : State) : Host.Outcome State Fault Refusal :=
  s.effect (doEngineAllocation k)

/-- NOP (R84): Parse instruction NOP does nothing. -/
def execParseNop (k : Fin 8) (e : Fin 64) (s : State) : Host.Outcome State Fault Refusal :=
  s.effect (doParse .nop k e)

/-- ADD (R84): Parse instruction ADD adds two registers and sets the flags. -/
def execParseAdd (k : Fin 8) (e : Fin 64) (s : State) : Host.Outcome State Fault Refusal :=
  s.effect (doParse .add k e)

/-- SUB (R84): Parse instruction SUB subtracts two registers and sets the flags. -/
def execParseSub (k : Fin 8) (e : Fin 64) (s : State) : Host.Outcome State Fault Refusal :=
  s.effect (doParse .sub k e)

/-- AND (R84): Parse instruction AND ands two registers. -/
def execParseAnd (k : Fin 8) (e : Fin 64) (s : State) : Host.Outcome State Fault Refusal :=
  s.effect (doParse .and k e)

/-- OR (R84): Parse instruction OR ors two registers. -/
def execParseOr (k : Fin 8) (e : Fin 64) (s : State) : Host.Outcome State Fault Refusal :=
  s.effect (doParse .or k e)

/-- XOR (R84): Parse instruction XOR exclusive-ors two registers. -/
def execParseXor (k : Fin 8) (e : Fin 64) (s : State) : Host.Outcome State Fault Refusal :=
  s.effect (doParse .xor k e)

/-- SHL (R84): Parse instruction SHL shifts a register left by a register amount. -/
def execParseShl (k : Fin 8) (e : Fin 64) (s : State) : Host.Outcome State Fault Refusal :=
  s.effect (doParse .shl k e)

/-- SHR (R84): Parse instruction SHR shifts a register right logically by a register amount. -/
def execParseShr (k : Fin 8) (e : Fin 64) (s : State) : Host.Outcome State Fault Refusal :=
  s.effect (doParse .shr k e)

/-- ADDI (R84): Parse instruction ADDI adds an immediate. -/
def execParseAddi (k : Fin 8) (e : Fin 64) (s : State) : Host.Outcome State Fault Refusal :=
  s.effect (doParse .addi k e)

/-- SUBI (R84): Parse instruction SUBI subtracts an immediate. -/
def execParseSubi (k : Fin 8) (e : Fin 64) (s : State) : Host.Outcome State Fault Refusal :=
  s.effect (doParse .subi k e)

/-- ANDI (R84): Parse instruction ANDI ands an immediate. -/
def execParseAndi (k : Fin 8) (e : Fin 64) (s : State) : Host.Outcome State Fault Refusal :=
  s.effect (doParse .andi k e)

/-- ORI (R84): Parse instruction ORI ors an immediate. -/
def execParseOri (k : Fin 8) (e : Fin 64) (s : State) : Host.Outcome State Fault Refusal :=
  s.effect (doParse .ori k e)

/-- XORI (R84): Parse instruction XORI exclusive-ors an immediate. -/
def execParseXori (k : Fin 8) (e : Fin 64) (s : State) : Host.Outcome State Fault Refusal :=
  s.effect (doParse .xori k e)

/-- SHLI (R84): Parse instruction SHLI shifts left by an immediate amount. -/
def execParseShli (k : Fin 8) (e : Fin 64) (s : State) : Host.Outcome State Fault Refusal :=
  s.effect (doParse .shli k e)

/-- SHRI (R84): Parse instruction SHRI shifts right by an immediate amount. -/
def execParseShri (k : Fin 8) (e : Fin 64) (s : State) : Host.Outcome State Fault Refusal :=
  s.effect (doParse .shri k e)

/-- MOVI (R84): Parse instruction MOVI loads an immediate into a register. -/
def execParseMovi (k : Fin 8) (e : Fin 64) (s : State) : Host.Outcome State Fault Refusal :=
  s.effect (doParse .movi k e)

/-- CMP (R84): Parse instruction CMP sets the flags from the difference of two registers. -/
def execParseCmp (k : Fin 8) (e : Fin 64) (s : State) : Host.Outcome State Fault Refusal :=
  s.effect (doParse .cmp k e)

/-- CMPI (R84): Parse instruction CMPI sets the flags from a register minus an immediate. -/
def execParseCmpi (k : Fin 8) (e : Fin 64) (s : State) : Host.Outcome State Fault Refusal :=
  s.effect (doParse .cmpi k e)

/-- TSTI (R84): Parse instruction TSTI sets the flags from a register and an immediate. -/
def execParseTsti (k : Fin 8) (e : Fin 64) (s : State) : Host.Outcome State Fault Refusal :=
  s.effect (doParse .tsti k e)

/-- LDB (R94): Parse instruction LDB loads a window byte, stalling, ending OVER_END or ending WINDOW as the address requires. -/
def execParseLdb (k : Fin 8) (e : Fin 64) (s : State) : Host.Outcome State Fault Refusal :=
  s.effect (doParse .ldb k e)

/-- LDH (R94): Parse instruction LDH loads two window bytes big-endian, stalling or ending malformed as the address requires. -/
def execParseLdh (k : Fin 8) (e : Fin 64) (s : State) : Host.Outcome State Fault Refusal :=
  s.effect (doParse .ldh k e)

/-- EXT (R84): Parse instruction EXT extracts a bit field from a register. -/
def execParseExt (k : Fin 8) (e : Fin 64) (s : State) : Host.Outcome State Fault Refusal :=
  s.effect (doParse .ext k e)

/-- GETS (R88): Parse instruction GETS reads the port index, pipeline number or a parse constant. -/
def execParseGets (k : Fin 8) (e : Fin 64) (s : State) : Host.Outcome State Fault Refusal :=
  s.effect (doParse .gets k e)

/-- ST (R89): Parse instruction ST writes a register into a record word. -/
def execParseSt (k : Fin 8) (e : Fin 64) (s : State) : Host.Outcome State Fault Refusal :=
  s.effect (doParse .st k e)

/-- STI (R89): Parse instruction STI writes an immediate into a record word. -/
def execParseSti (k : Fin 8) (e : Fin 64) (s : State) : Host.Outcome State Fault Refusal :=
  s.effect (doParse .sti k e)

/-- B (R87): Parse instruction B branches when its condition holds. -/
def execParseB (k : Fin 8) (e : Fin 64) (s : State) : Host.Outcome State Fault Refusal :=
  s.effect (doParse .b k e)

/-- SETX (R84): Parse instruction SETX sets the user flag. -/
def execParseSetx (k : Fin 8) (e : Fin 64) (s : State) : Host.Outcome State Fault Refusal :=
  s.effect (doParse .setx k e)

/-- CLRX (R84): Parse instruction CLRX clears the user flag. -/
def execParseClrx (k : Fin 8) (e : Fin 64) (s : State) : Host.Outcome State Fault Refusal :=
  s.effect (doParse .clrx k e)

/-- DONE (R91): Parse instruction DONE ends the parse with a valid record and its exit code. -/
def execParseDone (k : Fin 8) (e : Fin 64) (s : State) : Host.Outcome State Fault Refusal :=
  s.effect (doParse .done k e)

/-- REJECT (R91): Parse instruction REJECT ends the parse as malformed with cause REJECT. -/
def execParseReject (k : Fin 8) (e : Fin 64) (s : State) : Host.Outcome State Fault Refusal :=
  s.effect (doParse .reject k e)

/-- ILLEGAL_INSTRUCTION (R83): A fetched illegal or uncorrectable instruction word ends the parse as malformed with cause ILLEGAL or IMEM. -/
def execIllegalInstruction (k : Fin 8) (e : Fin 64) (s : State) : Host.Outcome State Fault Refusal :=
  s.effect (doIllegalInstruction k e)

/-- PARSE_LOAD_RESUME (R80): A stalled load's byte becomes readable or the frame ends, so the load completes or the parse ends OVER_END. -/
def execParseLoadResume (k : Fin 8) (e : Fin 64) (bytes : List Byte) (s : State) : Host.Outcome State Fault Refusal :=
  s.effect (doParseLoadResume k e bytes)

/-- PARSE_BUDGET_EXHAUSTED (R91): The instruction count reaches BUDGET and the parse ends malformed with cause BUDGET. -/
def execParseBudgetExhausted (k : Fin 8) (e : Fin 64) (s : State) : Host.Outcome State Fault Refusal :=
  s.effect (doParseBudgetExhausted k e)

/-- PARSE_RECORD_HANDOFF (R98): After the 28-cycle record check a parse record leaves the parse stage in allocation order and its counters are taken. -/
def execParseRecordHandoff (a : Fin 8 × List Byte) (s : State) : Host.Outcome State Fault Refusal :=
  s.effect (doParseRecordHandoff a)

/-- PARSE_ENTRY_WRITE (R102): A write of PL_PARSE_ENTRY sets the program start for frames allocated from then on. -/
def execParseEntryWrite (p : Path) (k : Fin 8) (data : W32) (s : State) : Host.Outcome State Fault Refusal :=
  s.regWrite p (PL_PARSE_ENTRY k) data (doParseEntryWrite p k data)

/-- PARSE_ENABLE (R103): A write of PL_PARSE_CTRL.ENABLE starts parsing and locks BUDGET, or with 0 stops new parses. -/
def execParseEnable (p : Path) (k : Fin 8) (data : W32) (s : State) : Host.Outcome State Fault Refusal :=
  s.regWrite p (PL_PARSE_CTRL k) data (doParseEnable p k data)

end Sys2Proof.Machine
end

