-- ==== Sys2Proof/Machine/Pcie.lean ====
section
/-!
DEFINITION. The meanings of the commands of the family Pcie: each puts the effect of its row on the
device and leaves the queue alone.
-/

namespace Sys2Proof.Machine

/-- HIF_DL_ACTIVE (R308): A host link trains and reaches DL_Active. -/
def execHifDlActive (l : Fin 8) (speed width : Nat) (flit : Bool) (s : State) : Host.Outcome State Fault Refusal :=
  s.effect (doHifDlActive l speed width flit)

/-- HIF_DL_DOWN (R326): A host link that was active goes DL_Down and freezes. -/
def execHifDlDown (l : Fin 8) (s : State) : Host.Outcome State Fault Refusal :=
  s.effect (doHifDlDown l)

/-- LINK_PROTOCOL_ERROR (R321): A link protocol, overflow, malformed or uncorrectable flit error sends an error message and freezes the link. -/
def execLinkProtocolError (l : Fin 8) (k : LinkError) (s : State) : Host.Outcome State Fault Refusal :=
  s.effect (doLinkProtocolError l k)

/-- CONTROLLER_INTERNAL_ERROR (R321): An uncorrectable error in shared controller logic freezes every link of the controller. -/
def execControllerInternalError (n : Fin 2) (s : State) : Host.Outcome State Fault Refusal :=
  s.effect (doControllerInternalError n)

/-- CONFIGURATION_REQUEST (R327): A configuration request is served, including while the link is frozen. -/
def execConfigurationRequest (l : Fin 8) (f : Fin 2048) (bus : Fin 256) (r : CfgReq) (s : State) : Host.Outcome State Fault Refusal :=
  s.effect (doConfigurationRequest l f bus r)

/-- POSTED_WRITE_ACK (R328): The link partner acknowledges the flit carrying a posted write, so the write counts as done. -/
def execPostedWriteAck (l : Fin 8) (s : State) : Host.Outcome State Fault Refusal :=
  s.effect (doPostedWriteAck l)

/-- FLR (R322): A function level reset resets the function's channels or saggar, or is deferred while frozen. -/
def execHifFlr (l : Fin 8) (f : Fin 2048) (s : State) : Host.Outcome State Fault Refusal :=
  s.effect (doHifFlr l f)

/-- POWER_STATE_CHANGE (R323): A function enters or leaves D3hot or has Bus Master Enable changed, pausing or resuming its channels. -/
def execPowerStateChange (l : Fin 8) (f : Fin 2048) (d3hot bme : Bool) (s : State) : Host.Outcome State Fault Refusal :=
  s.effect (doPowerStateChange l f d3hot bme)

/-- PERST_ASSERT (R324): PERSTn_N is asserted, entering D3cold in order or taking every link of the controller down. -/
def execPerstAssert (n : Fin 2) (s : State) : Host.Outcome State Fault Refusal :=
  s.effect (doPerstAssert n)

/-- PERST_DEASSERT (R324): PERSTn_N is deasserted and the links of the controller train. -/
def execPerstDeassert (n : Fin 2) (s : State) : Host.Outcome State Fault Refusal :=
  s.effect (doPerstDeassert n)

/-- HOT_RESET (R310): A hot reset or link disable received on one host link resets that link alone. -/
def execHotReset (l : Fin 8) (s : State) : Host.Outcome State Fault Refusal :=
  s.effect (doHotReset l)

/-- ASPM_L1_ENTRY (R325): A link that has carried no TLP for 10 µs enters ASPM L1. -/
def execAspmL1Entry (l : Fin 8) (st : Fin 3) (s : State) : Host.Outcome State Fault Refusal :=
  s.effect (doAspmL1Entry l st)

/-- L0P_WIDTH_CHANGE (R325): A link reduces or restores its width through L0p according to offered traffic. -/
def execL0pWidthChange (l : Fin 8) (need : Nat) (s : State) : Host.Outcome State Fault Refusal :=
  s.effect (doL0pWidthChange l need)

/-- FREEZE_REL (R329): A write of HIF_FREEZE_m.FREEZE_REL releases a frozen link, or is refused or ignored. -/
def execFreezeRel (p : Path) (l : Fin 8) (data : W32) (s : State) : Host.Outcome State Fault Refusal :=
  s.regWrite p (HIF_FREEZE ((l : Nat) / 4) ((l : Nat) % 4)) data (doFreezeRel p l data)

/-- FIRMWARE_FREEZE_RELEASE (R329): Device firmware releases a frozen link after 100 ms in L0 when FW_REL permits. -/
def execFirmwareFreezeRelease (l : Fin 8) (s : State) : Host.Outcome State Fault Refusal :=
  s.effect (doFirmwareFreezeRelease l)

/-- HIF_ENABLE (R46): A write of HIF_CTRL.ENABLE ends controller set-up and locks its RWL fields. -/
def execHifEnable (p : Path) (n : Fin 2) (data : W32) (s : State) : Host.Outcome State Fault Refusal :=
  s.regWrite p (HIF_CTRL n) data (doHifEnable p n data)

/-- FREEZE_ABORT (R328): A DMA engine receives FREEZE_ABORT and pauses the channels of the frozen link. -/
def execFreezeAbort (e : Fin 16) (l : Fin 8) (s : State) : Host.Outcome State Fault Refusal :=
  s.effect (doFreezeAbort e l)

/-- INBOUND_MESSAGE (R324): A PCIe message arrives on a host link: PME_Turn_Off starts the handshake that brings the link to L2/L3 Ready, and a message type the device does not implement is handled as an unsupported request. -/
def execInboundMessage (l : Fin 8) (k : InMsg) (s : State) : Host.Outcome State Fault Refusal :=
  s.effect (doInboundMessage l k)

end Sys2Proof.Machine
end

