-- ==== Sys2Proof/Machine/Pipeline.lean ====
section
/-!
DEFINITION. The meanings of the commands of the family Pipeline: each puts the effect of its row on the
device and leaves the queue alone.
-/

namespace Sys2Proof.Machine

/-- CLASSIFICATION_COMPLETE (R109): 105 cycles after arrival the actions are decided and the frame goes to metering, the punt queue or a placement. -/
def execClassificationComplete (k : Fin 8) (s : State) : Host.Outcome State Fault Refusal :=
  s.effect (doClassificationComplete k)

/-- METER_ADMIT (R153): In the first cycle of metering and admission a frame is stream-filtered, metered and admitted, spilled or refused. -/
def execMeterAdmit (x : Admitted) (s : State) : Host.Outcome State Fault Refusal :=
  s.effect (doMeterAdmit x)

/-- ENQUEUE (R152): An admitted frame becomes visible to the scheduler at the end of the stage or when a store-and-forward frame ends. -/
def execEnqueue (i : Nat) (s : State) : Host.Outcome State Fault Refusal :=
  s.effect (doEnqueue i)

/-- INLINE_TRANSFORM (R285): An inline transform ends and the frame is forwarded or discarded. -/
def execInlineTransform (e : Fin 256) (s : State) : Host.Outcome State Fault Refusal :=
  s.effect (doInlineTransform e)

end Sys2Proof.Machine
end

