-- ==== Sys2Proof/Machine/PublicKey.lean ====
section
/-!
DEFINITION. The meanings of the commands of the family PublicKey: each puts the effect of its row on the
device and leaves the queue alone.
-/

namespace Sys2Proof.Machine

/-- PK_KEYGEN (R294): PKE job PK_KEYGEN starts on a unit and generates a key pair and blob. -/
def execPkKeygen (s : State) : Host.Outcome State Fault Refusal :=
  s.effect doPkKeygen

/-- PK_IMPORT (R291): PKE job PK_IMPORT validates a plaintext key and wraps it into a blob. -/
def execPkImport (s : State) : Host.Outcome State Fault Refusal :=
  s.effect doPkImport

/-- PK_SIGN (R299): PKE job PK_SIGN signs a digest or message in fixed time. -/
def execPkSign (host : List Byte) (s : State) : Host.Outcome State Fault Refusal :=
  s.effect (doPkSign host)

/-- PK_VERIFY (R301): PKE job PK_VERIFY validates public inputs and verifies a signature. -/
def execPkVerify (s : State) : Host.Outcome State Fault Refusal :=
  s.effect doPkVerify

/-- PK_AGREE (R303): PKE job PK_AGREE computes a shared secret. -/
def execPkAgree (host : List Byte) (s : State) : Host.Outcome State Fault Refusal :=
  s.effect (doPkAgree host)

/-- PK_RSA_PUB (R304): PKE job PK_RSA_PUB applies the RSA public primitive. -/
def execPkRsaPub (s : State) : Host.Outcome State Fault Refusal :=
  s.effect doPkRsaPub

/-- PK_RSA_PRIV (R300): PKE job PK_RSA_PRIV applies the RSA private primitive and checks it. -/
def execPkRsaPriv (host : List Byte) (s : State) : Host.Outcome State Fault Refusal :=
  s.effect (doPkRsaPriv host)

/-- PK_ENCAPS (R305): PKE job PK_ENCAPS encapsulates a shared secret. -/
def execPkEncaps (s : State) : Host.Outcome State Fault Refusal :=
  s.effect doPkEncaps

/-- PK_DECAPS (R300): PKE job PK_DECAPS decapsulates with implicit rejection. -/
def execPkDecaps (host : List Byte) (s : State) : Host.Outcome State Fault Refusal :=
  s.effect (doPkDecaps host)

/-- PKE_JOB_COMPLETE (R298): A PKE job ends after its fixed cycles and writes its outputs and job block. -/
def execPkeJobComplete (u : Fin 16) (key inn in2 : Unit) (fault : Bool) (fail : Unit) (s : State) : Host.Outcome State Fault Refusal :=
  s.effect (doPkeJobComplete u key inn in2 fault fail)

/-- PKE_DISPATCH_TIMEOUT (R297): A PKE job not started within 1.8 s returns TIMEOUT. -/
def execPkeDispatchTimeout (s : State) : Host.Outcome State Fault Refusal :=
  s.effect doPkeDispatchTimeout

/-- PKE_JOB_TIMEOUT (R297): A started PKE job not completed 2.0 s after hand-over returns TIMEOUT. -/
def execPkeJobTimeout (u : Fin 16) (s : State) : Host.Outcome State Fault Refusal :=
  s.effect (doPkeJobTimeout u)

/-- PKE_ENABLE (R295): A write of PKE_CTRL.ENABLE enables the public-key units. -/
def execPkeEnable (p : Path) (data : W32) (s : State) : Host.Outcome State Fault Refusal :=
  s.regWrite p PKE_CTRL data (doPkeEnable p data)

end Sys2Proof.Machine
end

