-- ==== Sys2Proof/Machine/Ras.lean ====
section
/-!
DEFINITION. The meanings of the commands of the family Ras: each puts the effect of its row on the
device and leaves the queue alone.
-/

namespace Sys2Proof.Machine

/-- ERROR_DETECTION (R452): A detector finds an error, classes it, applies its action and writes a RAS record. -/
def execErrorDetection (fam : Fin 32) (inst : Nat) (kind : ErrKind) (loc : Nat) (items : List Nat) (inj : Bool) (s : State) : Host.Outcome State Fault Refusal :=
  s.effect (doErrorDetection fam inst kind loc items inj)

/-- RAS_INJ_WRITE (R460): A write of RAS_INJ arms, disarms or is refused by the error injector. -/
def execRasInjWrite (p : Path) (data : W32) (s : State) : Host.Outcome State Fault Refusal :=
  s.regWrite p RAS_INJ data (doRasInjWrite p data)

/-- PE_ROTATION (R463): Every PERIOD_MS a pipeline takes its next parse engine out of rotation for self-test. -/
def execPeRotation (k : Fin 8) (s : State) : Host.Outcome State Fault Refusal :=
  s.effect (doPeRotation k)

/-- PE_SELF_TEST_DONE (R463): A parse engine self-test ends and the engine returns or is retired. -/
def execPeSelfTestDone (k : Fin 8) (pass : Bool) (s : State) : Host.Outcome State Fault Refusal :=
  s.effect (doPeSelfTestDone k pass)

/-- GLZ_SKIP (R464): A write of RAS_GLZ_SKIP takes glaze engines out of service or returns them. -/
def execGlzSkip (p : Path) (w : Fin 8) (data : W32) (s : State) : Host.Outcome State Fault Refusal :=
  s.regWrite p (RAS_GLZ_SKIP w) data (doGlzSkip p w data)

/-- PKE_SKIP (R464): A write of RAS_PKE_SKIP takes public-key units out of service or returns them. -/
def execPkeSkip (p : Path) (data : W32) (s : State) : Host.Outcome State Fault Refusal :=
  s.regWrite p RAS_PKE_SKIP data (doPkeSkip p data)

/-- ENGINE_SELF_TEST_DONE (R464): A glaze engine or public-key unit self-test ends and sets FAIL on failure. -/
def execEngineSelfTestDone (pke : Bool) (i : Fin 256) (pass : Bool) (s : State) : Host.Outcome State Fault Refusal :=
  s.effect (doEngineSelfTestDone pke i pass)

/-- LPM_ROT_START (R465): A write of RAS_LPM_ROT with START begins copying an LPM bank onto the spare, or is ignored while BUSY. -/
def execLpmRotStart (p : Path) (data : W32) (s : State) : Host.Outcome State Fault Refusal :=
  s.regWrite p RAS_LPM_ROT data (doLpmRotStart p data)

/-- LPM_BANK_SWITCH (R465): The copy ends and the logical bank maps to the new physical bank. -/
def execLpmBankSwitch (s : State) : Host.Outcome State Fault Refusal :=
  s.effect doLpmBankSwitch

/-- LPM_MARCH_DONE (R465): The march test of the old LPM bank ends and it becomes the spare or is retired. -/
def execLpmMarchDone (pass : Bool) (s : State) : Host.Outcome State Fault Refusal :=
  s.effect (doLpmMarchDone pass)

/-- LANE_TEST_RUN (R466): A write of RAS_LANE_TEST_n.RUN starts or stops PRBS31 lane testing in near-end loopback. -/
def execLaneTestRun (p : Path) (n : Fin 16) (data : W32) (errs : List Nat) (s : State) : Host.Outcome State Fault Refusal :=
  s.regWrite p (RAS_LANE_TEST n) data (doLaneTestRun p n data errs)

/-- LANE_LOCK_TIMEOUT (R466): A lane fails to lock its checker within 1 ms and its FAIL bit is set. -/
def execLaneLockTimeout (n : Fin 16) (lost : BitVec 4) (errs : List Nat) (s : State) : Host.Outcome State Fault Refusal :=
  s.effect (doLaneLockTimeout n lost errs)

/-- SPARE_ROW (R467): HBM operation SPARE_ROW spares a row, or automatic sparing triggers on its CE count. -/
def execSpareRow (p : Path) (data : W32) (s : State) : Host.Outcome State Fault Refusal :=
  s.regWrite p RAS_HBM_CMD data (doSpareRow p data)

/-- ROW_SPARE_COMPLETE (R467): A spared row's copy ends and the remap takes effect. -/
def execRowSpareComplete (s : State) : Host.Outcome State Fault Refusal :=
  s.effect doRowSpareComplete

/-- RETIRE_PC (R468): HBM operation RETIRE_PC writes back and retires a pseudo-channel. -/
def execRetirePc (p : Path) (data : W32) (s : State) : Host.Outcome State Fault Refusal :=
  s.regWrite p RAS_HBM_CMD data (doRetirePc p data)

end Sys2Proof.Machine
end

