-- ==== Sys2Proof/Machine/Registers.lean ====
section
/-!
DEFINITION. The meanings of the commands of the family Registers: each puts the effect of its row on the
device and leaves the queue alone.
-/

namespace Sys2Proof.Machine

/-- LOCK_VIOL_REPORT (R503): A lock violation report arrives in GLB through its crossing and updates the GLB_LOCK_VIOL registers in that NOC cycle. -/
def execLockViolReport (s : State) : Host.Outcome State Fault Refusal :=
  s.effect doLockViolReport

/-- COUNTER_LOW_READ (R47): A read of the low half of a 64-bit CNT counter returns the live low half and latches the high half. -/
def execCounterLowRead (p : Path) (w : Fin 16777216) (s : State) : Host.Outcome State Fault Refusal :=
  s.regRead p (doCounterLowRead p w)

/-- TIME_NOW_FRAC_READ (R198): A read of TIME_NOW_FRAC returns the live fraction and latches the NS, S_LO and S_HI registers. -/
def execTimeNowFracRead (p : Path) (s : State) : Host.Outcome State Fault Refusal :=
  s.regRead p (doTimeNowFracRead p)

/-- TIME_PPS_IN_FRAC_READ (R198): A read of TIME_PPS_IN_FRAC latches the other three PPS_IN registers. -/
def execTimePpsInFracRead (p : Path) (s : State) : Host.Outcome State Fault Refusal :=
  s.regRead p (doTimePpsInFracRead p)

end Sys2Proof.Machine
end

