-- ==== Sys2Proof/Machine/ResetsClocks.lean ====
section
/-!
DEFINITION. The meanings of the commands of the family ResetsClocks: each puts the effect of its row on the
device and leaves the queue alone.
-/

namespace Sys2Proof.Machine

/-- PLL_LOCK_LOSS (R421): A PLL loses lock and the device resets, freezes links or stops the time counter as the domain requires. -/
def execPllLockLoss (i : Fin 8) (s : State) : Host.Outcome State Fault Refusal :=
  s.effect (doPllLockLoss i)

/-- PLL_RELOCK (R421): A PLL that lost lock relocks. -/
def execPllRelock (i : Fin 8) (s : State) : Host.Outcome State Fault Refusal :=
  s.effect (doPllRelock i)

/-- OSC_FAIL (R421): The oscillator monitor trips and the island holds every other domain in reset. -/
def execOscFail (s : State) : Host.Outcome State Fault Refusal :=
  s.effectAon doOscFail

/-- STANDBY_POWER_ON (R489): VSTBY rises through 3.0 V and the standby power-on reset runs. -/
def execStandbyPowerOn (s : State) : Host.Outcome State Fault Refusal :=
  s.effectAon doStandbyPowerOn

/-- MAIN_POWER_GOOD (R489): MAIN_PG rises after soft start, ending the package cold reset. -/
def execMainPowerGood (sel : Fin 4) (s : State) : Host.Outcome State Fault Refusal :=
  s.effectAon (doMainPowerGood sel)

/-- MAIN_UNDERVOLTAGE (R489): VIN12 stays below 10.5 V for 10 µs and a package cold reset is held. -/
def execMainUndervoltage (s : State) : Host.Outcome State Fault Refusal :=
  s.effectAon doMainUndervoltage

/-- MAIN_OVERVOLTAGE (R489): VIN12 stays above 13.8 V for 10 µs and the regulators shut down. -/
def execMainOvervoltage (s : State) : Host.Outcome State Fault Refusal :=
  s.effectAon doMainOvervoltage

/-- VSTBY_LOSS (R489): VSTBY falls below 3.0 V and everything stops. -/
def execVstbyLoss (s : State) : Host.Outcome State Fault Refusal :=
  s.effectAon doVstbyLoss

/-- WARM (R429): A write of RST_CTRL.WARM with KEY 0xA5 triggers a package warm reset. -/
def execRstWarm (p : Path) (data : W32) (s : State) : Host.Outcome State Fault Refusal :=
  s.regWrite p RST_CTRL data (doRstWarm p data)

/-- I3C_STATUS (R446): I3C command STATUS returns boot, reset and fuse status. -/
def execI3cStatus (s : State) : Host.Outcome State Fault Refusal :=
  s.effectAon doI3cStatus

/-- WARM_RESET (R446): I3C command WARM_RESET triggers a package warm reset. -/
def execI3cWarmReset (key : Byte) (s : State) : Host.Outcome State Fault Refusal :=
  s.effectAon (doI3cWarmReset key)

/-- CONES (R498): I3C command CONES returns RAS_CONE_HOT and RAS_CONE_MARGIN. -/
def execI3cCones (s : State) : Host.Outcome State Fault Refusal :=
  s.effectAon doI3cCones

/-- CONE_TEMP_READING (R495): Every 1 ms each cone measures temperature and warnings or a thermal trip are judged. -/
def execConeTempReading (temps : List (BitVec 16)) (odd : List Bool) (s : State) : Host.Outcome State Fault Refusal :=
  s.effectAon (doConeTempReading temps odd)

/-- ANALOG_THERMAL_TRIP (R495): The analog detector on a die reaches 120 °C and takes a thermal trip. -/
def execAnalogThermalTrip (die : Fin 3) (s : State) : Host.Outcome State Fault Refusal :=
  s.effectAon (doAnalogThermalTrip die)

/-- THERMTRIP_RELEASE (R495): After a trip every valid cone reads below 95 °C, THERMTRIP_N is released and boot continues. -/
def execThermtripRelease (s : State) : Host.Outcome State Fault Refusal :=
  s.effectAon doThermtripRelease

/-- CONE_WEAR_MEASURE (R497): Once per second each cone measures its wear shift and wear warnings are judged. -/
def execConeWearMeasure (shifts : List (Option Nat)) (s : State) : Host.Outcome State Fault Refusal :=
  s.effectAon (doConeWearMeasure shifts)

end Sys2Proof.Machine
end

