-- ==== Sys2Proof/Machine/Saggars.lean ====
section
/-!
DEFINITION. The meanings of the commands of the family Saggars: each puts the effect of its row on the
device and leaves the queue alone.
-/

namespace Sys2Proof.Machine

/-- CREATE (R365): Saggar operation CREATE checks the allotment and initialises the saggar's resources. -/
def execSagCreate (p : Path) (sg : Fin 2048) (data : W32) (s : State) : Host.Outcome State Fault Refusal :=
  s.regWrite p (SAG_CTRL sg) data (doSagCreate p sg data)

/-- DESTROY (R374): Saggar operation DESTROY resets the saggar and undoes CREATE. -/
def execSagDestroy (p : Path) (sg : Fin 2048) (data : W32) (s : State) : Host.Outcome State Fault Refusal :=
  s.regWrite p (SAG_CTRL sg) data (doSagDestroy p sg data)

/-- SAGGAR_RESET (R374): Saggar operation RESET starts a saggar reset, bumping its owners. -/
def execSagReset (p : Path) (sg : Fin 2048) (data : W32) (s : State) : Host.Outcome State Fault Refusal :=
  s.regWrite p (SAG_CTRL sg) data (doSagReset p sg data)

/-- SAGGAR_RESET_SWEEP (R374): Once the bumps are done the reset sweeps queues, entries, contexts, meters and threads and the saggar returns to ACTIVE or FREE. -/
def execSagResetSweep (sg : Fin 2048) (s : State) : Host.Outcome State Fault Refusal :=
  s.effect (doSagResetSweep sg)

/-- FREEZE (R376): Saggar operation FREEZE pauses channels, withdraws jobs, halts threads and starts context write-back. -/
def execSagFreeze (p : Path) (sg : Fin 2048) (data : W32) (s : State) : Host.Outcome State Fault Refusal :=
  s.regWrite p (SAG_CTRL sg) data (doSagFreeze p sg data)

/-- FROZEN_REACHED (R376): Every channel is paused, every thread halted and every write-back done, so the saggar becomes FROZEN. -/
def execSagFrozenReached (sg : Fin 2048) (s : State) : Host.Outcome State Fault Refusal :=
  s.effect (doSagFrozenReached sg)

/-- THAW (R378): Saggar operation THAW resumes the channels, threads and controllers. -/
def execSagThaw (p : Path) (sg : Fin 2048) (data : W32) (s : State) : Host.Outcome State Fault Refusal :=
  s.regWrite p (SAG_CTRL sg) data (doSagThaw p sg data)

/-- SAVE (R379): Saggar operation SAVE waits for jobs, wraps contexts and writes the saggar image. -/
def execSagSave (p : Path) (sg : Fin 2048) (data : W32) (s : State) : Host.Outcome State Fault Refusal :=
  s.regWrite p (SAG_CTRL sg) data (doSagSave p sg data)

/-- RESTORE (R381): Saggar operation RESTORE checks an image and rebuilds the saggar from it. -/
def execSagRestore (p : Path) (sg : Fin 2048) (data : W32) (host : List Byte) (s : State) : Host.Outcome State Fault Refusal :=
  s.regWrite p (SAG_CTRL sg) data (doSagRestore p sg data host)

/-- ALLOT_CH (R367): Saggar operation ALLOT_CH allots a DMA channel to the saggar. -/
def execSagAllotCh (p : Path) (sg : Fin 2048) (data : W32) (s : State) : Host.Outcome State Fault Refusal :=
  s.regWrite p (SAG_CTRL sg) data (doSagAllotCh p sg data)

/-- FREE_CH (R367): Saggar operation FREE_CH resets and releases a channel of the saggar. -/
def execSagFreeCh (p : Path) (sg : Fin 2048) (data : W32) (s : State) : Host.Outcome State Fault Refusal :=
  s.regWrite p (SAG_CTRL sg) data (doSagFreeCh p sg data)

/-- DIRTY_START (R383): Saggar operation DIRTY_START clears the dirty log and starts marking. -/
def execSagDirtyStart (p : Path) (sg : Fin 2048) (data : W32) (s : State) : Host.Outcome State Fault Refusal :=
  s.regWrite p (SAG_CTRL sg) data (doSagDirtyStart p sg data)

/-- DIRTY_READ (R383): Saggar operation DIRTY_READ writes and clears the dirty log. -/
def execSagDirtyRead (p : Path) (sg : Fin 2048) (data : W32) (s : State) : Host.Outcome State Fault Refusal :=
  s.regWrite p (SAG_CTRL sg) data (doSagDirtyRead p sg data)

/-- DIRTY_STOP (R383): Saggar operation DIRTY_STOP stops dirty marking. -/
def execSagDirtyStop (p : Path) (sg : Fin 2048) (data : W32) (s : State) : Host.Outcome State Fault Refusal :=
  s.regWrite p (SAG_CTRL sg) data (doSagDirtyStop p sg data)

/-- SW_T2M_TAIL (R370): A tenant write of SW_T2M_TAIL announces mailbox messages, or is ignored. -/
def execSwT2mTail (sg : Fin 2048) (data : W32) (s : State) : Host.Outcome State Fault Refusal :=
  s.barWrite (s.dev.sagLink sg) (s.dev.sagFunc sg) 0 0x10 (doSwT2mTail sg data)

/-- MAILBOX_T2M_COPY (R370): The device copies an announced tenant slot into the manager ring when it has room and raises the PF0 vector. -/
def execMailboxT2mCopy (sg : Fin 2048) (s : State) : Host.Outcome State Fault Refusal :=
  s.effect (doMailboxT2mCopy sg)

/-- SAG_MBX_M2T_TAIL (R370): A manager write of SAG_MBX_M2T_TAIL announces messages for the tenant. -/
def execSagMbxM2tTail (p : Path) (sg : Fin 2048) (data : W32) (s : State) : Host.Outcome State Fault Refusal :=
  s.regWrite p (SAG_MBX_M2T_TAIL sg) data (doSagMbxM2tTail p sg data)

/-- MAILBOX_M2T_COPY (R370): The device copies a manager entry into a window slot when the tenant has room and raises its vector. -/
def execMailboxM2tCopy (sg : Fin 2048) (host : List Byte) (s : State) : Host.Outcome State Fault Refusal :=
  s.effect (doMailboxM2tCopy sg host)

end Sys2Proof.Machine
end

