-- ==== Sys2Proof/Machine/Scheduler.lean ====
section
/-!
DEFINITION. The meanings of the commands of the family Scheduler: each puts the effect of its row on the
device and leaves the queue alone.
-/

namespace Sys2Proof.Machine

/-- DEQUEUE_DECISION (R166): The traffic manager slice picks the next frame for the sub-port whose transmitter falls free soonest. -/
def execDequeueDecision (k : Fin 8) (s : State) : Host.Outcome State Fault Refusal :=
  s.effect (doDequeueDecision k)

/-- READ_NODE (R195): Indirect operation READ_NODE returns a scheduling node entry. -/
def execReadNode (p : Path) (data : W32) (s : State) : Host.Outcome State Fault Refusal :=
  s.regWrite p TM_IND_CMD data (doReadNode p data)

/-- WRITE_NODE (R173): Indirect operation WRITE_NODE writes a node entry, refused when it moves a node holding frames. -/
def execWriteNode (p : Path) (data : W32) (s : State) : Host.Outcome State Fault Refusal :=
  s.regWrite p TM_IND_CMD data (doWriteNode p data)

/-- READ_SF (R196): Indirect operation READ_SF returns a stream filter entry. -/
def execReadSf (p : Path) (data : W32) (s : State) : Host.Outcome State Fault Refusal :=
  s.regWrite p TM_IND_CMD data (doReadSf p data)

/-- WRITE_SF (R196): Indirect operation WRITE_SF writes a stream filter and clears BLOCKED. -/
def execWriteSf (p : Path) (data : W32) (s : State) : Host.Outcome State Fault Refusal :=
  s.regWrite p TM_IND_CMD data (doWriteSf p data)

/-- CLEAR_SF_CNT (R196): Indirect operation CLEAR_SF_CNT zeroes a stream filter's counters. -/
def execClearSfCnt (p : Path) (data : W32) (s : State) : Host.Outcome State Fault Refusal :=
  s.regWrite p TM_IND_CMD data (doClearSfCnt p data)

/-- TM_ENABLE (R46): A write of TM_CTRL.ENABLE enables scheduling and stream filtering and locks the RWL fields. -/
def execTmEnable (p : Path) (data : W32) (s : State) : Host.Outcome State Fault Refusal :=
  s.regWrite p TM_CTRL data (doTmEnable p data)

end Sys2Proof.Machine
end

