-- ==== Sys2Proof/Machine/SpillOps.lean ====
section
/-!
DEFINITION. The completion of a spill fetch (R157, R158).
-/

namespace Sys2Proof.Machine

/-- SPILL_FETCH_COMPLETE (R157). The use of an uncorrectable line is recorded (R453); where in the spill region a frame lies
is not stated, so LOCATION is a free value in it (notes/assumptions/31). -/
def doSpillFetchComplete (q : Fin 65536) (uncorr : Bool) (d : Dev) : Dev :=
  let d := d.startDue
  let was := d.queue q
  let d := d.spillFetchComplete q uncorr
  if uncorr && (d.queue q).spill != was.spill then
    let (x, d) := d.free
    d.consumed (d.get BUF_SPILL_BASE_GIB * 2 ^ 30 + x % Nat.max 1 (d.get BUF_SPILL_SIZE_GIB * 2 ^ 30))
  else d

end Sys2Proof.Machine
end

