-- ==== Sys2Proof/Machine/Spill.lean ====
section
/-!
DEFINITION. The meanings of the commands of the family Spill: each puts the effect of its row on the
device and leaves the queue alone.
-/

namespace Sys2Proof.Machine

/-- SPILL_FETCH_COMPLETE (R157): A spill fetch completes and the frame joins its queue, or is discarded on an HBM error. -/
def execSpillFetchComplete (q : Fin 65536) (uncorr : Bool) (s : State) : Host.Outcome State Fault Refusal :=
  s.effect (doSpillFetchComplete q uncorr)

end Sys2Proof.Machine
end

