-- ==== Sys2Proof/Machine/Storage.lean ====
section
/-!
DEFINITION. The meanings of the commands of the family Storage: each puts the effect of its row on the
device and leaves the queue alone.
-/

namespace Sys2Proof.Machine

/-- SQ_TAIL_DOORBELL (R387): A write of an NVMe SQ tail doorbell makes new commands available to the storage service. -/
def execSqTailDoorbell (sg : Fin 2048) (y : Fin 65) (data : W32) (s : State) : Host.Outcome State Fault Refusal :=
  s.barWrite (s.dev.sagLink sg) (s.dev.sagFunc sg) 0 (0x1000 + 8 * y) (doSqTailDoorbell sg y data)

/-- CQ_HEAD_DOORBELL (R387): A write of an NVMe CQ head doorbell frees completion queue entries. -/
def execCqHeadDoorbell (sg : Fin 2048) (y : Fin 65) (data : W32) (s : State) : Host.Outcome State Fault Refusal :=
  s.barWrite (s.dev.sagLink sg) (s.dev.sagFunc sg) 0 (0x1004 + 8 * y) (doCqHeadDoorbell sg y data)

/-- CC_ENABLE (R387): A write of CC.EN enables or disables the emulated controller, setting CSTS.RDY within 1 s. -/
def execCcEnable (sg : Fin 2048) (data : W32) (s : State) : Host.Outcome State Fault Refusal :=
  s.barWrite (s.dev.sagLink sg) (s.dev.sagFunc sg) 0 0x14 (doCcEnable sg data)

/-- CC_SHUTDOWN (R387): A write of CC.SHN starts a shutdown that flushes the write cache and seals journals. -/
def execCcShutdown (sg : Fin 2048) (data : W32) (s : State) : Host.Outcome State Fault Refusal :=
  s.barWrite (s.dev.sagLink sg) (s.dev.sagFunc sg) 0 0x14 (doCcShutdown sg data)

/-- CREATE_IO_SQ (R390): Admin command Create I/O Submission Queue. -/
def execNvmeCreateIoSq (sg : Fin 2048) (sqe : List Byte) (s : State) : Host.Outcome State Fault Refusal :=
  s.effect (doNvmeCreateIoSq sg sqe)

/-- DELETE_IO_SQ (R390): Admin command Delete I/O Submission Queue. -/
def execNvmeDeleteIoSq (sg : Fin 2048) (sqe : List Byte) (s : State) : Host.Outcome State Fault Refusal :=
  s.effect (doNvmeDeleteIoSq sg sqe)

/-- CREATE_IO_CQ (R390): Admin command Create I/O Completion Queue. -/
def execNvmeCreateIoCq (sg : Fin 2048) (sqe : List Byte) (s : State) : Host.Outcome State Fault Refusal :=
  s.effect (doNvmeCreateIoCq sg sqe)

/-- DELETE_IO_CQ (R390): Admin command Delete I/O Completion Queue. -/
def execNvmeDeleteIoCq (sg : Fin 2048) (sqe : List Byte) (s : State) : Host.Outcome State Fault Refusal :=
  s.effect (doNvmeDeleteIoCq sg sqe)

/-- GET_LOG_PAGE (R390): Admin command Get Log Page returns a supported log page, clearing the deferred error log on read. -/
def execNvmeGetLogPage (sg : Fin 2048) (sqe : List Byte) (prps : List Nat) (s : State) : Host.Outcome State Fault Refusal :=
  s.effect (doNvmeGetLogPage sg sqe prps)

/-- IDENTIFY (R390): Admin command Identify returns controller, namespace or descriptor data. -/
def execNvmeIdentify (sg : Fin 2048) (sqe : List Byte) (prps : List Nat) (s : State) : Host.Outcome State Fault Refusal :=
  s.effect (doNvmeIdentify sg sqe prps)

/-- ABORT (R398): Admin command Abort removes a named command if it has not started. -/
def execNvmeAbort (sg : Fin 2048) (sqe : List Byte) (fetched : List (List Byte)) (s : State) : Host.Outcome State Fault Refusal :=
  s.effect (doNvmeAbort sg sqe fetched)

/-- SET_FEATURES (R390): Admin command Set Features sets a supported feature, including entry to PS1. -/
def execNvmeSetFeatures (sg : Fin 2048) (sqe : List Byte) (s : State) : Host.Outcome State Fault Refusal :=
  s.effect (doNvmeSetFeatures sg sqe)

/-- GET_FEATURES (R390): Admin command Get Features returns a supported feature. -/
def execNvmeGetFeatures (sg : Fin 2048) (sqe : List Byte) (s : State) : Host.Outcome State Fault Refusal :=
  s.effect (doNvmeGetFeatures sg sqe)

/-- ASYNCHRONOUS_EVENT_REQUEST (R390): Admin command Asynchronous Event Request waits for an event. -/
def execNvmeAsyncEventRequest (sg : Fin 2048) (sqe : List Byte) (s : State) : Host.Outcome State Fault Refusal :=
  s.effect (doNvmeAsyncEventRequest sg sqe)

/-- PS1_ENTRY_COMPLETE (R397): Entry to PS1 completes once the cache is flushed and outstanding commands are done. -/
def execPs1EntryComplete (sg : Fin 2048) (s : State) : Host.Outcome State Fault Refusal :=
  s.effect (doPs1EntryComplete sg)

/-- FLUSH (R395): I/O command Flush waits for cached remote writes or seals a journal. -/
def execNvmeFlush (sg : Fin 2048) (q : Fin 65) (sqe : List Byte) (s : State) : Host.Outcome State Fault Refusal :=
  s.effect (doNvmeFlush sg q sqe)

/-- WRITE (R395): I/O command Write stores data in the backing or the write cache. -/
def execNvmeWrite (sg : Fin 2048) (q : Fin 65) (sqe data : List Byte) (ans : Option (Nat × List Byte)) (s : State) : Host.Outcome State Fault Refusal :=
  s.effect (doNvmeWrite sg q sqe data ans)

/-- READ (R389): I/O command Read returns data from a namespace. -/
def execNvmeRead (sg : Fin 2048) (q : Fin 65) (sqe : List Byte) (prps : List Nat) (ans : Option (Nat × List Byte)) (s : State) : Host.Outcome State Fault Refusal :=
  s.effect (doNvmeRead sg q sqe prps ans)

/-- WRITE_ZEROES (R390): I/O command Write Zeroes zeroes a range of blocks. -/
def execNvmeWriteZeroes (sg : Fin 2048) (q : Fin 65) (sqe : List Byte) (ans : Option (Nat × List Byte)) (s : State) : Host.Outcome State Fault Refusal :=
  s.effect (doNvmeWriteZeroes sg q sqe ans)

/-- DATASET_MANAGEMENT (R390): I/O command Dataset Management deallocates blocks. -/
def execNvmeDatasetManagement (sg : Fin 2048) (q : Fin 65) (sqe data : List Byte) (ans : Option (Nat × List Byte)) (s : State) : Host.Outcome State Fault Refusal :=
  s.effect (doNvmeDatasetManagement sg q sqe data ans)

/-- JOURNAL_APPEND (R402): I/O command Journal Append chains a sherd to a journal namespace. -/
def execNvmeJournalAppend (sg : Fin 2048) (q : Fin 65) (sqe data : List Byte) (s : State) : Host.Outcome State Fault Refusal :=
  s.effect (doNvmeJournalAppend sg q sqe data)

/-- INVALID_COMMAND_OPCODE (R390): A command with an unsupported opcode completes with Invalid Command Opcode. -/
def execNvmeInvalidOpcode (sg : Fin 2048) (q : Fin 65) (sqe : List Byte) (s : State) : Host.Outcome State Fault Refusal :=
  s.effect (doNvmeInvalidOpcode sg q sqe)

/-- BACKGROUND_WRITE_DONE (R395): A cached write is acknowledged by its remote target. -/
def execBackgroundWriteDone (sg : Fin 2048) (id : Nat) (s : State) : Host.Outcome State Fault Refusal :=
  s.effect (doBackgroundWriteDone sg id)

/-- DEFERRED_WRITE_ERROR (R396): A background write fails after completion and is logged, flagged and reported. -/
def execDeferredWriteError (sg : Fin 2048) (id status : Nat) (s : State) : Host.Outcome State Fault Refusal :=
  s.effect (doDeferredWriteError sg id status)

/-- TARGET_TIMEOUT (R393): A remote target does not answer within TIMEOUT_S; the command fails and the service reconnects. -/
def execTargetTimeout (sg : Fin 2048) (s : State) : Host.Outcome State Fault Refusal :=
  s.effect (doTargetTimeout sg)

/-- STORAGE_TIMEOUT (R399): A command unresolved 240 s after fetch is abandoned with Internal Error. -/
def execStorageTimeout (sg : Fin 2048) (s : State) : Host.Outcome State Fault Refusal :=
  s.effect (doStorageTimeout sg)

/-- SHERD_DURABLE (R402): A sherd becomes durable in its backing and its append completes. -/
def execSherdDurable (n : Fin 4096) (s : State) : Host.Outcome State Fault Refusal :=
  s.effect (doSherdDurable n)

/-- BATCH_TIMEOUT (R408): BATCH_MS passes since the first unsealed sherd and a seal begins. -/
def execBatchTimeout (n : Fin 4096) (s : State) : Host.Outcome State Fault Refusal :=
  s.effect (doBatchTimeout n)

/-- SEAL_CHAINED (R407): Both seal signatures complete and the SEAL sherd is chained, releasing waiting appends. -/
def execSealChained (n : Fin 4096) (sg : Fin 2048) (s : State) : Host.Outcome State Fault Refusal :=
  s.effect (doSealChained n sg)

/-- JOURNAL_WRITE_FAULT (R411): A backing write of a sherd fails and the journal enters FAULT. -/
def execJournalWriteFault (n : Fin 4096) (status : Nat) (s : State) : Host.Outcome State Fault Refusal :=
  s.effect (doJournalWriteFault n status)

/-- READ_NS (R413): Indirect operation READ_NS returns a namespace entry. -/
def execReadNs (p : Path) (data : W32) (s : State) : Host.Outcome State Fault Refusal :=
  s.regWrite p (keyBus STO_IND_CMD) data (doReadNs p data)

/-- WRITE_NS (R392): Indirect operation WRITE_NS writes a namespace entry, zero-filling it or writing GENESIS. -/
def execWriteNs (p : Path) (data : W32) (old : List Byte) (ok : Bool) (s : State) : Host.Outcome State Fault Refusal :=
  s.regWrite p (keyBus STO_IND_CMD) data (doWriteNs p data old ok)

/-- READ_TGT (R414): Indirect operation READ_TGT returns a target entry. -/
def execReadTgt (p : Path) (data : W32) (s : State) : Host.Outcome State Fault Refusal :=
  s.regWrite p (keyBus STO_IND_CMD) data (doReadTgt p data)

/-- WRITE_TGT (R414): Indirect operation WRITE_TGT writes a target entry. -/
def execWriteTgt (p : Path) (data : W32) (s : State) : Host.Outcome State Fault Refusal :=
  s.regWrite p (keyBus STO_IND_CMD) data (doWriteTgt p data)

/-- READ_CTL (R415): Indirect operation READ_CTL returns a controller entry. -/
def execReadCtl (p : Path) (data : W32) (s : State) : Host.Outcome State Fault Refusal :=
  s.regWrite p (keyBus STO_IND_CMD) data (doReadCtl p data)

/-- WRITE_CTL (R415): Indirect operation WRITE_CTL writes a controller entry, or resets it when clearing ENABLE. -/
def execWriteCtl (p : Path) (data : W32) (s : State) : Host.Outcome State Fault Refusal :=
  s.regWrite p (keyBus STO_IND_CMD) data (doWriteCtl p data)

/-- JOURNAL_SEAL (R408): Journal operation JOURNAL_SEAL seals a journal's unsealed sherds. -/
def execJournalSeal (p : Path) (data : W32) (s : State) : Host.Outcome State Fault Refusal :=
  s.regWrite p (keyBus STO_IND_CMD) data (doJournalSeal p data)

/-- JOURNAL_RESUME (R411): Journal operation JOURNAL_RESUME recovers a FAULT journal and writes a RESUME sherd. -/
def execJournalResume (p : Path) (data : W32) (s : State) : Host.Outcome State Fault Refusal :=
  s.regWrite p (keyBus STO_IND_CMD) data (doJournalResume p data)

/-- STORAGE_ENABLE (R46): A write of STO_CTRL.ENABLE enables the storage service. -/
def execStorageEnable (p : Path) (data : W32) (s : State) : Host.Outcome State Fault Refusal :=
  s.regWrite p (keyBus STO_CTRL) data (doStorageEnable p data)

end Sys2Proof.Machine
end

