-- ==== Sys2Proof/Machine/Tables.lean ====
section
/-!
DEFINITION. The meanings of the commands of the family Tables: each puts the effect of its row on the
device and leaves the queue alone.
-/

namespace Sys2Proof.Machine

/-- CLASSIFICATION (R105): A valid record arrives at classification and the rule, exact-match, LPM and learn lookups are made. -/
def execClassification (k : Fin 8) (s : State) : Host.Outcome State Fault Refusal :=
  s.effect (doClassification k)

/-- CLASSIFY_ENABLE (R46): A write of PL_CLS_CTRL.ENABLE starts classification and locks its RWL fields. -/
def execClassifyEnable (p : Path) (k : Fin 8) (data : W32) (s : State) : Host.Outcome State Fault Refusal :=
  s.regWrite p (PL_CLS_CTRL k) data (doClassifyEnable p k data)

/-- LEARN_COMMIT (R127): The learn arbiter decides a queued learn request against the current table and inserts, moves or refuses it. -/
def execLearnCommit (s : State) : Host.Outcome State Fault Refusal :=
  s.effect doLearnCommit

/-- EM_INSERT (R119): Table command EM_INSERT inserts or replaces a static exact-match entry. -/
def execEmInsert (g : Fin 4096) (s : State) : Host.Outcome State Fault Refusal :=
  s.effect (doEmInsert g)

/-- EM_DELETE (R120): Table command EM_DELETE deletes an entry by key and relocates an overflow entry into the freed way. -/
def execEmDelete (g : Fin 4096) (s : State) : Host.Outcome State Fault Refusal :=
  s.effect (doEmDelete g)

/-- EM_READ (R130): Table command EM_READ returns the entry for a key and its location. -/
def execEmRead (g : Fin 4096) (s : State) : Host.Outcome State Fault Refusal :=
  s.effect (doEmRead g)

/-- EM_READ_LOC (R133): Table command EM_READ_LOC returns the entry at a location. -/
def execEmReadLoc (g : Fin 4096) (s : State) : Host.Outcome State Fault Refusal :=
  s.effect (doEmReadLoc g)

/-- EM_CLEAR_HIT (R130): Table command EM_CLEAR_HIT clears the HIT bit of an entry. -/
def execEmClearHit (g : Fin 4096) (s : State) : Host.Outcome State Fault Refusal :=
  s.effect (doEmClearHit g)

/-- LPM_WRITE (R124): Table command LPM_WRITE writes a whole LPM entry, invalidating entries it covers. -/
def execLpmWrite (g : Fin 4096) (s : State) : Host.Outcome State Fault Refusal :=
  s.effect (doLpmWrite g)

/-- LPM_MOVE (R124): Table command LPM_MOVE copies an entry to a free destination and invalidates the source in one cycle. -/
def execLpmMove (g : Fin 4096) (s : State) : Host.Outcome State Fault Refusal :=
  s.effect (doLpmMove g)

/-- LPM_INVALIDATE (R124): Table command LPM_INVALIDATE clears an LPM entry. -/
def execLpmInvalidate (g : Fin 4096) (s : State) : Host.Outcome State Fault Refusal :=
  s.effect (doLpmInvalidate g)

/-- LPM_READ (R124): Table command LPM_READ returns an LPM entry. -/
def execLpmRead (g : Fin 4096) (s : State) : Host.Outcome State Fault Refusal :=
  s.effect (doLpmRead g)

/-- RULE_WRITE (R132): Table command RULE_WRITE writes a whole rule into one or all pipelines. -/
def execRuleWrite (g : Fin 4096) (s : State) : Host.Outcome State Fault Refusal :=
  s.effect (doRuleWrite g)

/-- RULE_READ (R130): Table command RULE_READ returns a rule. -/
def execRuleRead (g : Fin 4096) (s : State) : Host.Outcome State Fault Refusal :=
  s.effect (doRuleRead g)

/-- SCRUB_READ (R135): The scrubber reads its next entry through the maintenance port and invalidates it if its parity is bad. -/
def execScrubRead (s : State) : Host.Outcome State Fault Refusal :=
  s.effect doScrubRead

/-- TABLE_ENABLE (R46): A write of TBL_CTRL.ENABLE enables the tables and locks their RWL fields. -/
def execTableEnable (p : Path) (data : W32) (s : State) : Host.Outcome State Fault Refusal :=
  s.regWrite p TBL_CTRL data (doTableEnable p data)

end Sys2Proof.Machine
end

