-- ==== Sys2Proof/Machine/RvXplc.lean ====
section
/-!
DEFINITION. The thread instructions Xplt and the channel instructions Xplc (R210 to R216, R219, R227).
-/

namespace Sys2Proof.Machine
namespace Dev

/-- Whether an Xplt instruction breaks a zero field (R210): funct7 and rd, and rs2 but for TSTART. -/
def xpltZero (w : Nat) (rs2 : Bool) : Bool := rvF7 w == 0 && rvRd w == 0 && (rs2 || rvRs2 w == 0)

/-- Whether the endpoint field of an Xplc instruction is well formed (R214), and the endpoint. -/
def epOk (w : Nat) : Bool := decide (rvF7 w < 4)
def epOf (w : Nat) : Nat := rvF7 w % 4

/-- Thread number `n` of the core of thread `t`; none on a management core but 0 (R204). -/
def peer (t n : Nat) : Option Nat := if isMgmt t then (if n = 0 then some t else none) else some (t / 8 * 8 + n)

/-- TSTOP of a thread (R211): a blocked or waiting instruction is abandoned and the pc stays at it. -/
def stopThread (d : Dev) (u : Nat) : Dev :=
  (d.unstall u).modThread u fun x => { x with enabled := false, wait := .run }

/-- Whether the mode is M. -/
def isM (d : Dev) (t : Nat) : Bool := (d.thread t).mode == .m

/-- The status of a non-blocking instruction to chstat.LAST (R215). -/
def setLast (d : Dev) (t st : Nat) : Dev := d.modThread t fun x => { x with last := st }

/-- The register operands of an instruction. -/
def rs1v (d : Dev) (t w : Nat) : W64 := (d.thread t).rd (rvRs1 w)
def rs2v (d : Dev) (t w : Nat) : W64 := (d.thread t).rd (rvRs2 w)

end Dev

/-- TSTART (R211): enables a disabled thread of the core at an address, in M mode. -/
def doTstart (t : Fin 1026) (d : Dev) : Dev :=
  d.issueRow t .tstart fun w raw len d =>
    if !Dev.xpltZero w true || !d.isM t then d.illegal t raw
    else
      let pc := d.rs2v t w
      let u := Dev.peer t ((d.rs1v t w).toNat % 8)
      let d := d.retireIns t len
      match u with
      | none => d
      | some u =>
        if (d.thread u).enabled then d
        else d.modThread u fun x => { x with enabled := true, pc := pc, mode := .m, wait := .run }

/-- TSTOP (R211). -/
def doTstop (t : Fin 1026) (d : Dev) : Dev :=
  d.issueRow t .tstop fun w raw len d =>
    if !Dev.xpltZero w false || !d.isM t then d.illegal t raw
    else
      let u := Dev.peer t ((d.rs1v t w).toNat % 8)
      let d := d.retireIns t len
      match u with
      | none => d
      | some u => if (d.thread u).enabled then d.stopThread u else d

/-- TWAIT (R212): it completes at once where a selected source is non-empty, or an interrupt is pending and enabled. -/
def doTwait (t : Fin 1026) (d : Dev) : Dev :=
  d.issueRow t .twait fun w raw len d =>
    if !Dev.xpltZero w false then d.illegal t raw
    else
      let m := (d.rs1v t w).toNat % 32
      if Dev.twaitHit (d.thread t) m || Dev.pendEn (d.thread t) != 0 then d.retireIns t len
      else d.modThread t fun x => { x with wait := .twait m }

/-- TWAIT_WAKE (R212). -/
def doTwaitWake (t : Fin 1026) (d : Dev) : Dev :=
  match (d.thread t).wait with
  | .twait m => if d.runs t && Dev.twaitHit (d.thread t) m then d.wake t else d
  | _ => d

/-- TPAUSE (R212): the thread is not ready for min(x[rs1], 65,535) cycles after the issue. -/
def doTpause (t : Fin 1026) (d : Dev) : Dev :=
  d.issueRow t .tpause fun w raw len d =>
    if !Dev.xpltZero w false then d.illegal t raw
    else
      let n := Nat.min (d.rs1v t w).toNat 65535
      if n = 0 ∨ Dev.pendEn (d.thread t) ≠ 0 then d.retireIns t len
      else d.modThread t fun x => { x with wait := .pause (d.cycle + Dev.coreCy t (n + 1)) }

/-- TPAUSE_EXPIRY (R212). -/
def doTpauseExpiry (t : Fin 1026) (d : Dev) : Dev :=
  match (d.thread t).wait with
  | .pause u => if d.runs t && decide (u ≤ d.cycle) then d.wake t else d
  | _ => d

/-- CHSEND (R214 to R216): into the send FIFO, blocking while it is full; the exception where the endpoint is unbound or its
channel closed. -/
def doChsend (t : Fin 1026) (d : Dev) : Dev :=
  d.issueRow t .chsend fun w raw len d =>
    if !Dev.epOk w || rvRs1 w != 0 || rvRd w != 0 then d.illegal t raw
    else
      let e := Dev.epOf w
      let m := d.rs2v t w
      match d.txChan t e with
      | none => d.raise t ⟨24, e⟩
      | some c =>
        if c.2.closed then d.raise t ⟨24, e⟩
        else
          let q := d.txFifo t e
          if q.length < 8 then (d.setTx t e (q ++ [m])).retireIns t len
          else d.modThread t fun x => { x with wait := .send e m d.cycle }

/-- CHSENDNB (R215): OK 0, FULL 1, UNBOUND 3 in x[rd] and chstat.LAST. An entry that leaves in its cycle leaves before it (R219). -/
def doChsendnb (t : Fin 1026) (d : Dev) : Dev :=
  d.issueRow t .chsendnb fun w raw len d =>
    if !Dev.epOk w || rvRs1 w != 0 then d.illegal t raw
    else
      let e := Dev.epOf w
      let q := d.txFifo t e
      let isOpen := match d.txChan t e with | some c => !c.2.closed | none => false
      let st := if !isOpen then 3 else if q.length < 8 then 0 else 1
      let d := if st = 0 then d.setTx t e (q ++ [d.rs2v t w]) else if st = 1 then d.mark (.sendFull t e) else d
      (d.setLast t st).finX t len (rvRd w) (BitVec.ofNat 64 st) 1

/-- CHRECV (R214, R216, R217): takes a message and sends a credit back, blocking while the FIFO is empty. -/
def doChrecv (t : Fin 1026) (d : Dev) : Dev :=
  d.issueRow t .chrecv fun w raw len d =>
    if !Dev.epOk w || rvRs1 w != 0 || rvRs2 w != 0 then d.illegal t raw
    else
      let e := Dev.epOf w
      match d.rxChan t e with
      | none => d.raise t ⟨24, 4 + e⟩
      | some (c, x) =>
        match d.takeMsg c x with
        | some (m, d) => d.finX t len (rvRd w) m 1
        | none => d.modThread t fun y => { y with wait := .recv e (rvRd w) d.cycle }

/-- CHRECVNB (R215): OK 0, EMPTY 2, UNBOUND 3 in chstat.LAST; x[rd] changes only with a message. One that
arrives in its cycle comes before it (R219). -/
def doChrecvnb (t : Fin 1026) (d : Dev) : Dev :=
  d.issueRow t .chrecvnb fun w raw len d =>
    if !Dev.epOk w || rvRs1 w != 0 || rvRs2 w != 0 then d.illegal t raw
    else
      let e := Dev.epOf w
      match d.rxChan t e with
      | none => (d.setLast t 3).retireIns t len
      | some (c, x) =>
        match d.takeMsg c x with
        | some (m, d) => (d.setLast t 0).finX t len (rvRd w) m 1
        | none => ((d.setLast t 2).retireIns t len).mark (.recvEmpty t e)

/-- PKRECV (R214): takes a handle from the inbox, blocking while it is empty. -/
def doPkrecv (t : Fin 1026) (d : Dev) : Dev :=
  d.issueRow t .pkrecv fun w raw len d =>
    if rvF7 w != 0 || rvRs1 w != 0 || rvRs2 w != 0 then d.illegal t raw
    else
      match (d.thread t).inbox with
      | h :: q => ((d.modThread t fun x => { x with inbox := q }).finX t len (rvRd w) h 1).mark (.handed t (rvRd w))
      | [] => d.modThread t fun x => { x with wait := .pkrecv (rvRd w) d.cycle }

/-- PKRECVNB (R214): a handle, or 0 from an empty inbox. -/
def doPkrecvnb (t : Fin 1026) (d : Dev) : Dev :=
  d.issueRow t .pkrecvnb fun w raw len d =>
    if rvF7 w != 0 || rvRs1 w != 0 || rvRs2 w != 0 then d.illegal t raw
    else
      match (d.thread t).inbox with
      | h :: q => ((d.modThread t fun x => { x with inbox := q }).finX t len (rvRd w) h 1).mark (.handed t (rvRd w))
      | [] => d.finX t len (rvRd w) 0#64 1

/-- PKSEND (R227): a handle and its verdict into the return queue of 8 entries, blocking while it is full. -/
def doPksend (t : Fin 1026) (d : Dev) : Dev :=
  d.issueRow t .pksend fun w raw len d =>
    if rvF7 w != 0 || rvRd w != 0 then d.illegal t raw
    else
      let h := d.rs1v t w
      let v := d.rs2v t w
      let x := d.thread t
      if x.retq.length < 8 then (d.modThread t fun x => { x with retq := x.retq ++ [(h, v)] }).retireIns t len
      else d.modThread t fun x => { x with wait := .pksend h v d.cycle }

end Sys2Proof.Machine
end

