-- ==== Sys2Proof/Machine/ThreadChannels.lean ====
section
/-!
DEFINITION. The meanings of the commands of the family ThreadChannels: each puts the effect of its row on the
device and leaves the queue alone.
-/

namespace Sys2Proof.Machine

/-- TSTART (R211): TSTART enables a disabled thread of the core at a start address. -/
def execTstart (t : Fin 1026) (s : State) : Host.Outcome State Fault Refusal :=
  s.effect (doTstart t)

/-- TSTOP (R211): TSTOP disables a thread at an instruction boundary. -/
def execTstop (t : Fin 1026) (s : State) : Host.Outcome State Fault Refusal :=
  s.effect (doTstop t)

/-- TWAIT (R212): TWAIT makes the thread wait until a selected endpoint or its inbox is non-empty. -/
def execTwait (t : Fin 1026) (s : State) : Host.Outcome State Fault Refusal :=
  s.effect (doTwait t)

/-- TWAIT_WAKE (R212): A selected source of a waiting TWAIT becomes non-empty and the thread is ready again. -/
def execTwaitWake (t : Fin 1026) (s : State) : Host.Outcome State Fault Refusal :=
  s.effect (doTwaitWake t)

/-- TPAUSE (R212): TPAUSE makes the thread not ready for a number of cycles. -/
def execTpause (t : Fin 1026) (s : State) : Host.Outcome State Fault Refusal :=
  s.effect (doTpause t)

/-- TPAUSE_EXPIRY (R212): The TPAUSE cycle count expires and the thread is ready again. -/
def execTpauseExpiry (t : Fin 1026) (s : State) : Host.Outcome State Fault Refusal :=
  s.effect (doTpauseExpiry t)

/-- CHSEND (R215): CHSEND enters a message into a send FIFO, blocking while it is full or trapping when unbound. -/
def execChsend (t : Fin 1026) (s : State) : Host.Outcome State Fault Refusal :=
  s.effect (doChsend t)

/-- CHSENDNB (R215): CHSENDNB tries to send a message and reports its status. -/
def execChsendnb (t : Fin 1026) (s : State) : Host.Outcome State Fault Refusal :=
  s.effect (doChsendnb t)

/-- CHRECV (R216): CHRECV takes a message from a receive FIFO, blocking while it is empty. -/
def execChrecv (t : Fin 1026) (s : State) : Host.Outcome State Fault Refusal :=
  s.effect (doChrecv t)

/-- CHRECVNB (R215): CHRECVNB tries to take a message and reports its status in chstat.LAST. -/
def execChrecvnb (t : Fin 1026) (s : State) : Host.Outcome State Fault Refusal :=
  s.effect (doChrecvnb t)

/-- PKRECV (R214): PKRECV takes a handle from the packet inbox, blocking while it is empty. -/
def execPkrecv (t : Fin 1026) (s : State) : Host.Outcome State Fault Refusal :=
  s.effect (doPkrecv t)

/-- PKRECVNB (R214): PKRECVNB takes a handle from the packet inbox or returns 0. -/
def execPkrecvnb (t : Fin 1026) (s : State) : Host.Outcome State Fault Refusal :=
  s.effect (doPkrecvnb t)

/-- PKSEND (R227): PKSEND returns a frame with its verdict through the thread's return queue, blocking while it is full. -/
def execPksend (t : Fin 1026) (s : State) : Host.Outcome State Fault Refusal :=
  s.effect (doPksend t)

end Sys2Proof.Machine
end

