-- ==== Sys2Proof/Machine/Threads.lean ====
section
/-!
DEFINITION. The meanings of the commands of the family Threads: each puts the effect of its row on the
device and leaves the queue alone.
-/

namespace Sys2Proof.Machine

/-- RV_INSTRUCTION (R199): A thread issues a standard RISC-V instruction in its slot or a free slot. -/
def execRvInstruction (t : Fin 1026) (c : CacheAt) (x : Aux) (s : State) : Host.Outcome State Fault Refusal :=
  s.effect (doRvInstruction t c x)

/-- FP_INSTRUCTION (R252): A thread issues a floating-point instruction, with DAZ and FTZ applied under xfpctl. -/
def execFpInstruction (t : Fin 1026) (c : CacheAt) (x : Aux) (s : State) : Host.Outcome State Fault Refusal :=
  s.effect (doFpInstruction t c x)

/-- WFI (R201): WFI makes the thread wait until an enabled interrupt is pending, or traps under mstatus.TW. -/
def execWfi (t : Fin 1026) (s : State) : Host.Outcome State Fault Refusal :=
  s.effect (doWfi t)

/-- INTERRUPT_WAKE (R212): An enabled interrupt becomes pending and ends a WFI, TWAIT, TPAUSE or blocked instruction. -/
def execInterruptWake (t : Fin 1026) (s : State) : Host.Outcome State Fault Refusal :=
  s.effect (doInterruptWake t)

/-- LINE_FILL (R238): A cache miss returns its line, or a poisoned line raises a load access fault. -/
def execLineFill (t : Fin 1026) (fill : Fin 32 × Bool × Option Nat) (s : State) : Host.Outcome State Fault Refusal :=
  s.effect (doLineFill t fill)

end Sys2Proof.Machine
end

