-- ==== Sys2Proof/Machine/TimeGates.lean ====
section
/-!
DEFINITION. The meanings of the commands of the family TimeGates: each puts the effect of its row on the
device and leaves the queue alone.
-/

namespace Sys2Proof.Machine

/-- GATE_TRANSITION (R177): Network time reaches the end of a gate list interval and the next entry's gate states take effect. -/
def execGateTransition (g : Fin 272) (s : State) : Host.Outcome State Fault Refusal :=
  s.effect (doGateTransition g)

/-- CONFIG_CHANGE (R180): A write of GATE_CTRL.CONFIG_CHANGE latches the administrative values and computes the change time, or refuses them. -/
def execGateConfigChange (p : Path) (g : Fin 272) (data : W32) (s : State) : Host.Outcome State Fault Refusal :=
  s.regWrite p (Dev.gateCtrl g) data (doGateConfigChange p g data)

/-- CANCEL (R181): A write of GATE_CTRL.CANCEL drops a pending gate list change. -/
def execGateCancel (p : Path) (g : Fin 272) (data : W32) (s : State) : Host.Outcome State Fault Refusal :=
  s.regWrite p (Dev.gateCtrl g) data (doGateCancel p g data)

/-- GATE_ENABLE (R178): A write of GATE_CTRL.GATE_EN runs the operational list or returns the gates to IDLE_GATES. -/
def execGateEnable (p : Path) (g : Fin 272) (data : W32) (s : State) : Host.Outcome State Fault Refusal :=
  s.regWrite p (Dev.gateCtrl g) data (doGateEnable p g data)

/-- GATE_LIST_SWAP (R180): Network time reaches the change time and the administrative list becomes operational. -/
def execGateListSwap (g : Fin 272) (s : State) : Host.Outcome State Fault Refusal :=
  s.effect (doGateListSwap g)

/-- STEP (R187): TIME_CMD.STEP loads network time from the TIME_SET registers and recomputes gate list positions. -/
def execTimeStep (p : Path) (data : W32) (s : State) : Host.Outcome State Fault Refusal :=
  s.regWrite p TIME_CMD data (doTimeStep p data)

/-- OFFSET (R187): TIME_CMD.OFFSET adds a signed offset to network time. -/
def execTimeOffset (p : Path) (data : W32) (s : State) : Host.Outcome State Fault Refusal :=
  s.regWrite p TIME_CMD data (doTimeOffset p data)

/-- KICK (R192): TIME_SYNC.KICK puts the time unit in LOCKED or restarts its TIMEOUT_S count. -/
def execTimeKick (p : Path) (data : W32) (s : State) : Host.Outcome State Fault Refusal :=
  s.regWrite p TIME_SYNC data (doTimeKick p data)

/-- FORCE_HOLDOVER (R192): TIME_SYNC.FORCE_HOLDOVER moves a LOCKED time unit to HOLDOVER. -/
def execForceHoldover (p : Path) (data : W32) (s : State) : Host.Outcome State Fault Refusal :=
  s.regWrite p TIME_SYNC data (doForceHoldover p data)

/-- SYNC_TIMEOUT (R192): TIMEOUT_S seconds pass in LOCKED without KICK and the time unit enters HOLDOVER. -/
def execSyncTimeout (s : State) : Host.Outcome State Fault Refusal :=
  s.effect doSyncTimeout

/-- HOLDOVER_EXPIRY (R192): HOLDOVER_LIMIT seconds pass in HOLDOVER and the time unit enters EXPIRED, applying GATE_ON_LOSS. -/
def execHoldoverExpiry (s : State) : Host.Outcome State Fault Refusal :=
  s.effect doHoldoverExpiry

/-- GATE_ON_LOSS_WRITE (R193): A write of TIME_HOLD.GATE_ON_LOSS changes the loss behaviour of the gates from the next PIPE cycle. -/
def execGateOnLossWrite (p : Path) (data : W32) (s : State) : Host.Outcome State Fault Refusal :=
  s.regWrite p TIME_HOLD data (doGateOnLossWrite p data)

/-- GATE_LIST_RESUME (R193): A gate list held by a loss state resumes at its next cycle boundary. -/
def execGateListResume (g : Fin 272) (s : State) : Host.Outcome State Fault Refusal :=
  s.effect (doGateListResume g)

/-- PPS_OUT_PULSE (R190): Network time reaches a whole second plus PPS_OUT_OFS and PPS_OUT rises. -/
def execPpsOutPulse (s : State) : Host.Outcome State Fault Refusal :=
  s.effect doPpsOutPulse

/-- PPS_OUT_FALL (R190): WIDTH_US after a rise PPS_OUT falls. -/
def execPpsOutFall (s : State) : Host.Outcome State Fault Refusal :=
  s.effect doPpsOutFall

/-- PPS_IN_EDGE (R191): A chosen edge of PPS_IN latches network time and sets TIME_EVENT.PPS_IN. -/
def execPpsInEdge (edge : Bool × Nat) (s : State) : Host.Outcome State Fault Refusal :=
  s.effect (doPpsInEdge edge)

end Sys2Proof.Machine
end

