-- ==== Sys2Proof/Machine/Dispatch.lean ====
section
/-!
DEFINITION. The dispatch of the commands: one arm per constructor of Instr, each one direct call of its meaning.
-/

namespace Sys2Proof.Machine

/-- The effect of a command on everything but the queue. -/
def exec (i : Instr) (s : State) : Host.Outcome State Fault Refusal :=
  match i with
  | .registerWrite p w data => Sys2Proof.Machine.execRegisterWrite p w data s
  | .lockViolReport => Sys2Proof.Machine.execLockViolReport s
  | .counterLowRead p w => Sys2Proof.Machine.execCounterLowRead p w s
  | .timeNowFracRead p => Sys2Proof.Machine.execTimeNowFracRead p s
  | .timePpsInFracRead p => Sys2Proof.Machine.execTimePpsInFracRead p s
  | .bumpSpacingExpiry o => Sys2Proof.Machine.execBumpSpacingExpiry o s
  | .itemResolveLimitExpiry item => Sys2Proof.Machine.execItemResolveLimitExpiry item s
  | .linkUp n ix => Sys2Proof.Machine.execLinkUp n ix s
  | .linkDown n ix align lock lf rf => Sys2Proof.Machine.execLinkDown n ix align lock lf rf s
  | .holdExpiry n ix => Sys2Proof.Machine.execHoldExpiry n ix s
  | .flushComplete n ix => Sys2Proof.Machine.execFlushComplete n ix s
  | .portReset p n data => Sys2Proof.Machine.execPortReset p n data s
  | .portEnable p n data => Sys2Proof.Machine.execPortEnable p n data s
  | .loopbackChange p n data => Sys2Proof.Machine.execLoopbackChange p n data s
  | .rxClkSwitch n => Sys2Proof.Machine.execRxClkSwitch n s
  | .allocationCondition n ix bytes lag ended => Sys2Proof.Machine.execAllocationCondition n ix bytes lag ended s
  | .oversizeDetect n ix bytes => Sys2Proof.Machine.execOversizeDetect n ix bytes s
  | .cutThroughTxStart n ix bytes => Sys2Proof.Machine.execCutThroughTxStart n ix bytes s
  | .frameEnd n ix bytes lag code corr uncorr => Sys2Proof.Machine.execFrameEnd n ix bytes lag code corr uncorr s
  | .txFrameComplete n ix => Sys2Proof.Machine.execTxFrameComplete n ix s
  | .mgmtFrameRx bytes => Sys2Proof.Machine.execMgmtFrameRx bytes s
  | .engineAllocation k => Sys2Proof.Machine.execEngineAllocation k s
  | .parseNop k e => Sys2Proof.Machine.execParseNop k e s
  | .parseAdd k e => Sys2Proof.Machine.execParseAdd k e s
  | .parseSub k e => Sys2Proof.Machine.execParseSub k e s
  | .parseAnd k e => Sys2Proof.Machine.execParseAnd k e s
  | .parseOr k e => Sys2Proof.Machine.execParseOr k e s
  | .parseXor k e => Sys2Proof.Machine.execParseXor k e s
  | .parseShl k e => Sys2Proof.Machine.execParseShl k e s
  | .parseShr k e => Sys2Proof.Machine.execParseShr k e s
  | .parseAddi k e => Sys2Proof.Machine.execParseAddi k e s
  | .parseSubi k e => Sys2Proof.Machine.execParseSubi k e s
  | .parseAndi k e => Sys2Proof.Machine.execParseAndi k e s
  | .parseOri k e => Sys2Proof.Machine.execParseOri k e s
  | .parseXori k e => Sys2Proof.Machine.execParseXori k e s
  | .parseShli k e => Sys2Proof.Machine.execParseShli k e s
  | .parseShri k e => Sys2Proof.Machine.execParseShri k e s
  | .parseMovi k e => Sys2Proof.Machine.execParseMovi k e s
  | .parseCmp k e => Sys2Proof.Machine.execParseCmp k e s
  | .parseCmpi k e => Sys2Proof.Machine.execParseCmpi k e s
  | .parseTsti k e => Sys2Proof.Machine.execParseTsti k e s
  | .parseLdb k e => Sys2Proof.Machine.execParseLdb k e s
  | .parseLdh k e => Sys2Proof.Machine.execParseLdh k e s
  | .parseExt k e => Sys2Proof.Machine.execParseExt k e s
  | .parseGets k e => Sys2Proof.Machine.execParseGets k e s
  | .parseSt k e => Sys2Proof.Machine.execParseSt k e s
  | .parseSti k e => Sys2Proof.Machine.execParseSti k e s
  | .parseB k e => Sys2Proof.Machine.execParseB k e s
  | .parseSetx k e => Sys2Proof.Machine.execParseSetx k e s
  | .parseClrx k e => Sys2Proof.Machine.execParseClrx k e s
  | .parseDone k e => Sys2Proof.Machine.execParseDone k e s
  | .parseReject k e => Sys2Proof.Machine.execParseReject k e s
  | .illegalInstruction k e => Sys2Proof.Machine.execIllegalInstruction k e s
  | .parseLoadResume k e bytes => Sys2Proof.Machine.execParseLoadResume k e bytes s
  | .parseBudgetExhausted k e => Sys2Proof.Machine.execParseBudgetExhausted k e s
  | .parseRecordHandoff a => Sys2Proof.Machine.execParseRecordHandoff a s
  | .parseEntryWrite p k data => Sys2Proof.Machine.execParseEntryWrite p k data s
  | .parseEnable p k data => Sys2Proof.Machine.execParseEnable p k data s
  | .classification k => Sys2Proof.Machine.execClassification k s
  | .classificationComplete k => Sys2Proof.Machine.execClassificationComplete k s
  | .classifyEnable p k data => Sys2Proof.Machine.execClassifyEnable p k data s
  | .learnCommit => Sys2Proof.Machine.execLearnCommit s
  | .emInsert g => Sys2Proof.Machine.execEmInsert g s
  | .emDelete g => Sys2Proof.Machine.execEmDelete g s
  | .emRead g => Sys2Proof.Machine.execEmRead g s
  | .emReadLoc g => Sys2Proof.Machine.execEmReadLoc g s
  | .emClearHit g => Sys2Proof.Machine.execEmClearHit g s
  | .lpmWrite g => Sys2Proof.Machine.execLpmWrite g s
  | .lpmMove g => Sys2Proof.Machine.execLpmMove g s
  | .lpmInvalidate g => Sys2Proof.Machine.execLpmInvalidate g s
  | .lpmRead g => Sys2Proof.Machine.execLpmRead g s
  | .ruleWrite g => Sys2Proof.Machine.execRuleWrite g s
  | .ruleRead g => Sys2Proof.Machine.execRuleRead g s
  | .scrubRead => Sys2Proof.Machine.execScrubRead s
  | .tableEnable p data => Sys2Proof.Machine.execTableEnable p data s
  | .puntDeliver k => Sys2Proof.Machine.execPuntDeliver k s
  | .meterAdmit x => Sys2Proof.Machine.execMeterAdmit x s
  | .enqueue ix => Sys2Proof.Machine.execEnqueue ix s
  | .spillFetchStart q => Sys2Proof.Machine.execSpillFetchStart q s
  | .spillFetchComplete q uncorr => Sys2Proof.Machine.execSpillFetchComplete q uncorr s
  | .readQ p data => Sys2Proof.Machine.execReadQ p data s
  | .writeQ p data => Sys2Proof.Machine.execWriteQ p data s
  | .readM p data => Sys2Proof.Machine.execReadM p data s
  | .writeM p data => Sys2Proof.Machine.execWriteM p data s
  | .clearQCnt p data => Sys2Proof.Machine.execClearQCnt p data s
  | .clearMCnt p data => Sys2Proof.Machine.execClearMCnt p data s
  | .bufferEnable p data => Sys2Proof.Machine.execBufferEnable p data s
  | .dequeueDecision k => Sys2Proof.Machine.execDequeueDecision k s
  | .readNode p data => Sys2Proof.Machine.execReadNode p data s
  | .writeNode p data => Sys2Proof.Machine.execWriteNode p data s
  | .readSf p data => Sys2Proof.Machine.execReadSf p data s
  | .writeSf p data => Sys2Proof.Machine.execWriteSf p data s
  | .clearSfCnt p data => Sys2Proof.Machine.execClearSfCnt p data s
  | .tmEnable p data => Sys2Proof.Machine.execTmEnable p data s
  | .gateTransition g => Sys2Proof.Machine.execGateTransition g s
  | .gateConfigChange p g data => Sys2Proof.Machine.execGateConfigChange p g data s
  | .gateCancel p g data => Sys2Proof.Machine.execGateCancel p g data s
  | .gateEnable p g data => Sys2Proof.Machine.execGateEnable p g data s
  | .gateListSwap g => Sys2Proof.Machine.execGateListSwap g s
  | .timeStep p data => Sys2Proof.Machine.execTimeStep p data s
  | .timeOffset p data => Sys2Proof.Machine.execTimeOffset p data s
  | .timeKick p data => Sys2Proof.Machine.execTimeKick p data s
  | .forceHoldover p data => Sys2Proof.Machine.execForceHoldover p data s
  | .syncTimeout => Sys2Proof.Machine.execSyncTimeout s
  | .holdoverExpiry => Sys2Proof.Machine.execHoldoverExpiry s
  | .gateOnLossWrite p data => Sys2Proof.Machine.execGateOnLossWrite p data s
  | .gateListResume g => Sys2Proof.Machine.execGateListResume g s
  | .ppsOutPulse => Sys2Proof.Machine.execPpsOutPulse s
  | .ppsOutFall => Sys2Proof.Machine.execPpsOutFall s
  | .ppsInEdge edge => Sys2Proof.Machine.execPpsInEdge edge s
  | .rvInstruction t c x => Sys2Proof.Machine.execRvInstruction t c x s
  | .fpInstruction t c x => Sys2Proof.Machine.execFpInstruction t c x s
  | .wfi t => Sys2Proof.Machine.execWfi t s
  | .interruptWake t => Sys2Proof.Machine.execInterruptWake t s
  | .tstart t => Sys2Proof.Machine.execTstart t s
  | .tstop t => Sys2Proof.Machine.execTstop t s
  | .twait t => Sys2Proof.Machine.execTwait t s
  | .twaitWake t => Sys2Proof.Machine.execTwaitWake t s
  | .tpause t => Sys2Proof.Machine.execTpause t s
  | .tpauseExpiry t => Sys2Proof.Machine.execTpauseExpiry t s
  | .chsend t => Sys2Proof.Machine.execChsend t s
  | .chsendnb t => Sys2Proof.Machine.execChsendnb t s
  | .chrecv t => Sys2Proof.Machine.execChrecv t s
  | .chrecvnb t => Sys2Proof.Machine.execChrecvnb t s
  | .pkrecv t => Sys2Proof.Machine.execPkrecv t s
  | .pkrecvnb t => Sys2Proof.Machine.execPkrecvnb t s
  | .pksend t => Sys2Proof.Machine.execPksend t s
  | .channelMessageLeave c => Sys2Proof.Machine.execChannelMessageLeave c s
  | .channelMessageArrive c => Sys2Proof.Machine.execChannelMessageArrive c s
  | .creditArrive c => Sys2Proof.Machine.execCreditArrive c s
  | .chanBind g => Sys2Proof.Machine.execChanBind g s
  | .chanUnbind g => Sys2Proof.Machine.execChanUnbind g s
  | .chanUnbindComplete c => Sys2Proof.Machine.execChanUnbindComplete c s
  | .chanRead g => Sys2Proof.Machine.execChanRead g s
  | .placeSet g => Sys2Proof.Machine.execPlaceSet g s
  | .placeClear g => Sys2Proof.Machine.execPlaceClear g s
  | .placeRead g => Sys2Proof.Machine.execPlaceRead g s
  | .placeClearCnt g => Sys2Proof.Machine.execPlaceClearCnt g s
  | .coreStats g => Sys2Proof.Machine.execCoreStats g s
  | .coreStatsClear g => Sys2Proof.Machine.execCoreStatsClear g s
  | .placementDelivery q => Sys2Proof.Machine.execPlacementDelivery q s
  | .drainMarkerDelivery q => Sys2Proof.Machine.execDrainMarkerDelivery q s
  | .packetReturn t => Sys2Proof.Machine.execPacketReturn t s
  | .migrationHoldTimeout q => Sys2Proof.Machine.execMigrationHoldTimeout q s
  | .placedFrameAbandon t c => Sys2Proof.Machine.execPlacedFrameAbandon t c s
  | .lineFill t fill => Sys2Proof.Machine.execLineFill t fill s
  | .glzEncrypt => Sys2Proof.Machine.execGlzEncrypt s
  | .glzDecrypt => Sys2Proof.Machine.execGlzDecrypt s
  | .glzHash => Sys2Proof.Machine.execGlzHash s
  | .glzHmac => Sys2Proof.Machine.execGlzHmac s
  | .kcLoad g host => Sys2Proof.Machine.execKcLoad g host s
  | .kcGenerate g host => Sys2Proof.Machine.execKcGenerate g host s
  | .kcUnwrap g host => Sys2Proof.Machine.execKcUnwrap g host s
  | .kcExport g => Sys2Proof.Machine.execKcExport g s
  | .kcInvalidate g => Sys2Proof.Machine.execKcInvalidate g s
  | .kcReadAttr g => Sys2Proof.Machine.execKcReadAttr g s
  | .kcMissFill e => Sys2Proof.Machine.execKcMissFill e s
  | .glazeJobComplete e src aad tag fin => Sys2Proof.Machine.execGlazeJobComplete e src aad tag fin s
  | .glazeDispatchTimeout => Sys2Proof.Machine.execGlazeDispatchTimeout s
  | .glazeJobTimeout e => Sys2Proof.Machine.execGlazeJobTimeout e s
  | .inlineStart => Sys2Proof.Machine.execInlineStart s
  | .inlineTransform e => Sys2Proof.Machine.execInlineTransform e s
  | .readIxt p data => Sys2Proof.Machine.execReadIxt p data s
  | .writeIxt p data => Sys2Proof.Machine.execWriteIxt p data s
  | .clearIxtCnt p data => Sys2Proof.Machine.execClearIxtCnt p data s
  | .glzKcBaseWrite p data => Sys2Proof.Machine.execGlzKcBaseWrite p data s
  | .glazeEnable p data => Sys2Proof.Machine.execGlazeEnable p data s
  | .pkKeygen => Sys2Proof.Machine.execPkKeygen s
  | .pkImport => Sys2Proof.Machine.execPkImport s
  | .pkSign host => Sys2Proof.Machine.execPkSign host s
  | .pkVerify => Sys2Proof.Machine.execPkVerify s
  | .pkAgree host => Sys2Proof.Machine.execPkAgree host s
  | .pkRsaPub => Sys2Proof.Machine.execPkRsaPub s
  | .pkRsaPriv host => Sys2Proof.Machine.execPkRsaPriv host s
  | .pkEncaps => Sys2Proof.Machine.execPkEncaps s
  | .pkDecaps host => Sys2Proof.Machine.execPkDecaps host s
  | .pkeJobComplete u key inn in2 fault fail => Sys2Proof.Machine.execPkeJobComplete u key inn in2 fault fail s
  | .pkeDispatchTimeout => Sys2Proof.Machine.execPkeDispatchTimeout s
  | .pkeJobTimeout u => Sys2Proof.Machine.execPkeJobTimeout u s
  | .pkeEnable p data => Sys2Proof.Machine.execPkeEnable p data s
  | .hifDlActive l speed width flit => Sys2Proof.Machine.execHifDlActive l speed width flit s
  | .hifDlDown l => Sys2Proof.Machine.execHifDlDown l s
  | .linkProtocolError l k => Sys2Proof.Machine.execLinkProtocolError l k s
  | .controllerInternalError n => Sys2Proof.Machine.execControllerInternalError n s
  | .inboundMemoryWrite l addr dws poisoned x => Sys2Proof.Machine.execInboundMemoryWrite l addr dws poisoned x s
  | .inboundMemoryRead l addr r => Sys2Proof.Machine.execInboundMemoryRead l addr r s
  | .configurationRequest l f bus r => Sys2Proof.Machine.execConfigurationRequest l f bus r s
  | .readCompletion l tag st bytes => Sys2Proof.Machine.execReadCompletion l tag st bytes s
  | .completionTimeout l tag => Sys2Proof.Machine.execCompletionTimeout l tag s
  | .postedWriteAck l => Sys2Proof.Machine.execPostedWriteAck l s
  | .hifFlr l f => Sys2Proof.Machine.execHifFlr l f s
  | .powerStateChange l f d3hot bme => Sys2Proof.Machine.execPowerStateChange l f d3hot bme s
  | .perstAssert n => Sys2Proof.Machine.execPerstAssert n s
  | .perstDeassert n => Sys2Proof.Machine.execPerstDeassert n s
  | .hotReset l => Sys2Proof.Machine.execHotReset l s
  | .aspmL1Entry l st => Sys2Proof.Machine.execAspmL1Entry l st s
  | .l0pWidthChange l need => Sys2Proof.Machine.execL0pWidthChange l need s
  | .freezeRel p l data => Sys2Proof.Machine.execFreezeRel p l data s
  | .firmwareFreezeRelease l => Sys2Proof.Machine.execFirmwareFreezeRelease l s
  | .hifEnable p n data => Sys2Proof.Machine.execHifEnable p n data s
  | .dbTail g data => Sys2Proof.Machine.execDbTail g data s
  | .dbIrq g data => Sys2Proof.Machine.execDbIrq g data s
  | .descriptorReadReturn g uncorr => Sys2Proof.Machine.execDescriptorReadReturn g uncorr s
  | .txDescriptor g => Sys2Proof.Machine.execTxDescriptor g s
  | .rxDescriptor g => Sys2Proof.Machine.execRxDescriptor g s
  | .copyDescriptor g => Sys2Proof.Machine.execCopyDescriptor g s
  | .blockDescriptor g => Sys2Proof.Machine.execBlockDescriptor g s
  | .dmaReadReturn g uncorr => Sys2Proof.Machine.execDmaReadReturn g uncorr s
  | .txFrameAdmit g => Sys2Proof.Machine.execTxFrameAdmit g s
  | .rxFrameDelivery g => Sys2Proof.Machine.execRxFrameDelivery g s
  | .completionPost g => Sys2Proof.Machine.execCompletionPost g s
  | .irqHoldoffExpiry g => Sys2Proof.Machine.execIrqHoldoffExpiry g s
  | .dmaPause a data => Sys2Proof.Machine.execDmaPause a data s
  | .channelPaused g => Sys2Proof.Machine.execChannelPaused g s
  | .dmaReset a data => Sys2Proof.Machine.execDmaReset a data s
  | .channelResetComplete g => Sys2Proof.Machine.execChannelResetComplete g s
  | .dmaResume a data => Sys2Proof.Machine.execDmaResume a data s
  | .dmaStart a data => Sys2Proof.Machine.execDmaStart a data s
  | .engineDrainEnd n => Sys2Proof.Machine.execEngineDrainEnd n s
  | .dmaClearStop a data => Sys2Proof.Machine.execDmaClearStop a data s
  | .dmaEngineEnable a data => Sys2Proof.Machine.execDmaEngineEnable a data s
  | .freezeAbort e l => Sys2Proof.Machine.execFreezeAbort e l s
  | .atsInvalidation l f => Sys2Proof.Machine.execAtsInvalidation l f s
  | .sagCreate p sg data => Sys2Proof.Machine.execSagCreate p sg data s
  | .sagDestroy p sg data => Sys2Proof.Machine.execSagDestroy p sg data s
  | .sagReset p sg data => Sys2Proof.Machine.execSagReset p sg data s
  | .sagResetSweep sg => Sys2Proof.Machine.execSagResetSweep sg s
  | .sagFreeze p sg data => Sys2Proof.Machine.execSagFreeze p sg data s
  | .sagFrozenReached sg => Sys2Proof.Machine.execSagFrozenReached sg s
  | .sagThaw p sg data => Sys2Proof.Machine.execSagThaw p sg data s
  | .sagSave p sg data => Sys2Proof.Machine.execSagSave p sg data s
  | .sagRestore p sg data host => Sys2Proof.Machine.execSagRestore p sg data host s
  | .sagAllotCh p sg data => Sys2Proof.Machine.execSagAllotCh p sg data s
  | .sagFreeCh p sg data => Sys2Proof.Machine.execSagFreeCh p sg data s
  | .sagDirtyStart p sg data => Sys2Proof.Machine.execSagDirtyStart p sg data s
  | .sagDirtyRead p sg data => Sys2Proof.Machine.execSagDirtyRead p sg data s
  | .sagDirtyStop p sg data => Sys2Proof.Machine.execSagDirtyStop p sg data s
  | .swT2mTail sg data => Sys2Proof.Machine.execSwT2mTail sg data s
  | .mailboxT2mCopy sg => Sys2Proof.Machine.execMailboxT2mCopy sg s
  | .sagMbxM2tTail p sg data => Sys2Proof.Machine.execSagMbxM2tTail p sg data s
  | .mailboxM2tCopy sg host => Sys2Proof.Machine.execMailboxM2tCopy sg host s
  | .sqTailDoorbell sg y data => Sys2Proof.Machine.execSqTailDoorbell sg y data s
  | .cqHeadDoorbell sg y data => Sys2Proof.Machine.execCqHeadDoorbell sg y data s
  | .ccEnable sg data => Sys2Proof.Machine.execCcEnable sg data s
  | .ccShutdown sg data => Sys2Proof.Machine.execCcShutdown sg data s
  | .nvmeCreateIoSq sg sqe => Sys2Proof.Machine.execNvmeCreateIoSq sg sqe s
  | .nvmeDeleteIoSq sg sqe => Sys2Proof.Machine.execNvmeDeleteIoSq sg sqe s
  | .nvmeCreateIoCq sg sqe => Sys2Proof.Machine.execNvmeCreateIoCq sg sqe s
  | .nvmeDeleteIoCq sg sqe => Sys2Proof.Machine.execNvmeDeleteIoCq sg sqe s
  | .nvmeGetLogPage sg sqe prps => Sys2Proof.Machine.execNvmeGetLogPage sg sqe prps s
  | .nvmeIdentify sg sqe prps => Sys2Proof.Machine.execNvmeIdentify sg sqe prps s
  | .nvmeAbort sg sqe fetched => Sys2Proof.Machine.execNvmeAbort sg sqe fetched s
  | .nvmeSetFeatures sg sqe => Sys2Proof.Machine.execNvmeSetFeatures sg sqe s
  | .nvmeGetFeatures sg sqe => Sys2Proof.Machine.execNvmeGetFeatures sg sqe s
  | .nvmeAsyncEventRequest sg sqe => Sys2Proof.Machine.execNvmeAsyncEventRequest sg sqe s
  | .ps1EntryComplete sg => Sys2Proof.Machine.execPs1EntryComplete sg s
  | .nvmeFlush sg q sqe => Sys2Proof.Machine.execNvmeFlush sg q sqe s
  | .nvmeWrite sg q sqe data ans => Sys2Proof.Machine.execNvmeWrite sg q sqe data ans s
  | .nvmeRead sg q sqe prps ans => Sys2Proof.Machine.execNvmeRead sg q sqe prps ans s
  | .nvmeWriteZeroes sg q sqe ans => Sys2Proof.Machine.execNvmeWriteZeroes sg q sqe ans s
  | .nvmeDatasetManagement sg q sqe data ans => Sys2Proof.Machine.execNvmeDatasetManagement sg q sqe data ans s
  | .nvmeJournalAppend sg q sqe data => Sys2Proof.Machine.execNvmeJournalAppend sg q sqe data s
  | .nvmeInvalidOpcode sg q sqe => Sys2Proof.Machine.execNvmeInvalidOpcode sg q sqe s
  | .backgroundWriteDone sg id => Sys2Proof.Machine.execBackgroundWriteDone sg id s
  | .deferredWriteError sg id status => Sys2Proof.Machine.execDeferredWriteError sg id status s
  | .targetTimeout sg => Sys2Proof.Machine.execTargetTimeout sg s
  | .storageTimeout sg => Sys2Proof.Machine.execStorageTimeout sg s
  | .sherdDurable n => Sys2Proof.Machine.execSherdDurable n s
  | .batchTimeout n => Sys2Proof.Machine.execBatchTimeout n s
  | .sealChained n sg => Sys2Proof.Machine.execSealChained n sg s
  | .journalWriteFault n status => Sys2Proof.Machine.execJournalWriteFault n status s
  | .readNs p data => Sys2Proof.Machine.execReadNs p data s
  | .writeNs p data old ok => Sys2Proof.Machine.execWriteNs p data old ok s
  | .readTgt p data => Sys2Proof.Machine.execReadTgt p data s
  | .writeTgt p data => Sys2Proof.Machine.execWriteTgt p data s
  | .readCtl p data => Sys2Proof.Machine.execReadCtl p data s
  | .writeCtl p data => Sys2Proof.Machine.execWriteCtl p data s
  | .journalSeal p data => Sys2Proof.Machine.execJournalSeal p data s
  | .journalResume p data => Sys2Proof.Machine.execJournalResume p data s
  | .storageEnable p data => Sys2Proof.Machine.execStorageEnable p data s
  | .pllLockLoss ix => Sys2Proof.Machine.execPllLockLoss ix s
  | .pllRelock ix => Sys2Proof.Machine.execPllRelock ix s
  | .oscFail => Sys2Proof.Machine.execOscFail s
  | .crossingReconnect x => Sys2Proof.Machine.execCrossingReconnect x s
  | .standbyPowerOn => Sys2Proof.Machine.execStandbyPowerOn s
  | .mainPowerGood sel => Sys2Proof.Machine.execMainPowerGood sel s
  | .mainUndervoltage => Sys2Proof.Machine.execMainUndervoltage s
  | .mainOvervoltage => Sys2Proof.Machine.execMainOvervoltage s
  | .vstbyLoss => Sys2Proof.Machine.execVstbyLoss s
  | .rstWarm p data => Sys2Proof.Machine.execRstWarm p data s
  | .quadrantReset p data => Sys2Proof.Machine.execQuadrantReset p data s
  | .quadrantResetDone q => Sys2Proof.Machine.execQuadrantResetDone q s
  | .bisqueStart bad => Sys2Proof.Machine.execBisqueStart bad s
  | .imageHeaderCheck uncorr => Sys2Proof.Machine.execImageHeaderCheck uncorr s
  | .signaturesDecided => Sys2Proof.Machine.execSignaturesDecided s
  | .hbmTrainingComplete => Sys2Proof.Machine.execHbmTrainingComplete s
  | .segmentDigest uncorr => Sys2Proof.Machine.execSegmentDigest uncorr s
  | .imageVerified => Sys2Proof.Machine.execImageVerified s
  | .nextImageAttempt => Sys2Proof.Machine.execNextImageAttempt s
  | .bootQuadRel p data => Sys2Proof.Machine.execBootQuadRel p data s
  | .writeImage p data => Sys2Proof.Machine.execWriteImage p data s
  | .writeProfile p data => Sys2Proof.Machine.execWriteProfile p data s
  | .setTrial p data => Sys2Proof.Machine.execSetTrial p data s
  | .bootConfirm p data => Sys2Proof.Machine.execBootConfirm p data s
  | .readCert p data => Sys2Proof.Machine.execReadCert p data s
  | .raiseRollback p data => Sys2Proof.Machine.execRaiseRollback p data s
  | .revokeSlot p data => Sys2Proof.Machine.execRevokeSlot p data s
  | .readLog p data => Sys2Proof.Machine.execReadLog p data s
  | .flashOpComplete host uncorr => Sys2Proof.Machine.execFlashOpComplete host uncorr s
  | .i3cStatus => Sys2Proof.Machine.execI3cStatus s
  | .i3cWarmReset key => Sys2Proof.Machine.execI3cWarmReset key s
  | .i3cRecBegin len => Sys2Proof.Machine.execI3cRecBegin len s
  | .i3cRecData bytes => Sys2Proof.Machine.execI3cRecData bytes s
  | .i3cRecEnd => Sys2Proof.Machine.execI3cRecEnd s
  | .i3cCones => Sys2Proof.Machine.execI3cCones s
  | .errorDetection fam inst kind loc items inj => Sys2Proof.Machine.execErrorDetection fam inst kind loc items inj s
  | .rasInjWrite p data => Sys2Proof.Machine.execRasInjWrite p data s
  | .peRotation k => Sys2Proof.Machine.execPeRotation k s
  | .peSelfTestDone k pass => Sys2Proof.Machine.execPeSelfTestDone k pass s
  | .glzSkip p w data => Sys2Proof.Machine.execGlzSkip p w data s
  | .pkeSkip p data => Sys2Proof.Machine.execPkeSkip p data s
  | .engineSelfTestDone pke ix pass => Sys2Proof.Machine.execEngineSelfTestDone pke ix pass s
  | .lpmRotStart p data => Sys2Proof.Machine.execLpmRotStart p data s
  | .lpmBankSwitch => Sys2Proof.Machine.execLpmBankSwitch s
  | .lpmMarchDone pass => Sys2Proof.Machine.execLpmMarchDone pass s
  | .laneTestRun p n data errs => Sys2Proof.Machine.execLaneTestRun p n data errs s
  | .laneLockTimeout n lost errs => Sys2Proof.Machine.execLaneLockTimeout n lost errs s
  | .spareRow p data => Sys2Proof.Machine.execSpareRow p data s
  | .rowSpareComplete => Sys2Proof.Machine.execRowSpareComplete s
  | .retirePc p data => Sys2Proof.Machine.execRetirePc p data s
  | .kilnReplace p data => Sys2Proof.Machine.execKilnReplace p data s
  | .kilnReplaceComplete => Sys2Proof.Machine.execKilnReplaceComplete s
  | .kilnDeclareDead p data lost => Sys2Proof.Machine.execKilnDeclareDead p data lost s
  | .kilnResponseTimeout k lost => Sys2Proof.Machine.execKilnResponseTimeout k lost s
  | .fencedPortArrival p => Sys2Proof.Machine.execFencedPortArrival p s
  | .kilnTest p data => Sys2Proof.Machine.execKilnTest p data s
  | .kilnTestComplete fails => Sys2Proof.Machine.execKilnTestComplete fails s
  | .kilnRetire p data => Sys2Proof.Machine.execKilnRetire p data s
  | .coneTempReading temps odd => Sys2Proof.Machine.execConeTempReading temps odd s
  | .analogThermalTrip die => Sys2Proof.Machine.execAnalogThermalTrip die s
  | .thermtripRelease => Sys2Proof.Machine.execThermtripRelease s
  | .coneWearMeasure shifts => Sys2Proof.Machine.execConeWearMeasure shifts s
  | .inboundMessage l k => Sys2Proof.Machine.execInboundMessage l k s
  | .jtagMemoryAccess r => Sys2Proof.Machine.execJtagMemoryAccess r s

end Sys2Proof.Machine
end

