-- ==== Sys2Proof/Safety.lean ====
section
/-!
DEFINITION. What counts as a safe answer and a well-formed state, in the terms that claims use.
-/

namespace Sys2Proof.Machine

/-- An answer that goes on: neither a fault nor a refusal. -/
def goesOn : Host.Outcome State Fault Refusal → Prop
  | .next _ => True
  | _ => False

/-- The canonical form of the HBM: addresses strictly rising, and while the contents after power-on stand, no byte listed that
an unlisted one reads as. -/
def MemState.wf (m : MemState) : Bool :=
  if m.era = 0 then tabWf (fun _ => 0#8) m.hbm else m.hbm.Pairwise fun x y => x.1 < y.1

/-- The command waits at the front of the queue of `s`, and takes effect there: the answer is a next state that keeps the
queue, and `p` holds of the device after it. -/
def Does (c : Instr) (s : State) (p : Dev → Prop) : Prop :=
  ∃ t, exec c s = .next t ∧ t.pending = s.pending ∧ p t.dev

/-- An access on path `p` reaches register space (R28, R31), and `e` is the device as it finds it, with no crossing toward the TIME and
AON registers severed (R425). -/
def Reaches (d : Dev) (p : Path) (e : Dev) : Prop :=
  d.alive = true ∧ d.pathOpen p = true ∧ d.reach p = e ∧ e.severed .time = false ∧ e.severed .aon = false

/-- A write of the host on link `l` reaches a BAR of function `f` (R313, R320, R327), and `e` is the device as it finds it. -/
def ReachesBar (d : Dev) (l f : Nat) (e : Dev) : Prop := d.alive = true ∧ d.hostOpen l f = true ∧ d.tlpOn l = e

/-! ### The queue and the supplies -/

/-- The rows of the AON domain, which say themselves what power they need: the supplies, the board-management status commands, the
cones and the failure of the oscillator (R421, R446, R489, R495 to R498). -/
def aonRow : Instr → Bool
  | .standbyPowerOn | .mainPowerGood .. | .mainUndervoltage | .mainOvervoltage | .vstbyLoss | .i3cStatus | .i3cWarmReset .. | .i3cCones
  | .coneTempReading .. | .analogThermalTrip .. | .thermtripRelease | .coneWearMeasure .. | .oscFail => true
  | _ => false

/-- The rise of the main supply. -/
def powerRises : Instr → Bool
  | .mainPowerGood .. => true
  | _ => false

/-- The part without its main supply, and nothing waiting that brings it back: the HBM lists no byte and no flash operation runs. -/
def MainOff (s : State) : Prop :=
  s.dev.boot.powered = false ∧ s.dev.mem.hbm = [] ∧ s.dev.boot.flashOp = none ∧ ∀ c ∈ s.pending, powerRises c = false

/-! ### Frames -/

/-- The device at the admission of a frame of pipeline `k` to queue `q`: after the admissions of the pipelines below it, and with the
queue's entry and its meter's as they stood before the writes of the cycle (R149, R154). -/
def atAdmission (d : Dev) (k q : Nat) : Dev :=
  let d := (d.afterPipes k).before (.queueWrite q)
  if (d.queue q).meterEn then d.before (.meterWrite (d.queue q).meter) else d

/-! ### Blocks that wait for a unit -/

/-- The device with the table command block `j` taken: no other commits in this cycle (R126). -/
def tblTaken (d : Dev) (j : Job) : Dev :=
  d.setTbl fun t => { t with jobs := t.jobs.filter (· != j), nextAt := d.cycle + 1 }

/-- The manager's table command block `j` of opcode `op` is the next of channel `g`, nothing in it is out of order, the tables are
enabled and hold no bad entry. -/
def tblReady (d : Dev) (g op : Nat) (j : Job) : Prop :=
  d.tbl.nextAt ≤ d.cycle ∧ d.tbl.jobs.find? (·.chan == g) = some j ∧ j.owner = none ∧ fieldLE j.block 0 1 = op ∧
    tblBadEntry op j.block = false ∧ d.tblBadIndex op j.block = false ∧ d.tblOn = true ∧ d.tbl.bad = []

/-- The device with the core command block `j` taken (R221). -/
def coreTaken (d : Dev) (j : Job) : Dev := d.setCore fun s => { s with jobs := s.jobs.filter (· != j) }

/-- The manager's core command block `j` of opcode `op` is the next of channel `g`, no earlier command of the channel waits, no bit
of it but the FLAGS in `used` is set that R221 reserves, and its INDEX is below `limit`. -/
def coreReady (d : Dev) (g op used limit : Nat) (j : Job) : Prop :=
  d.core.jobs.find? (·.chan == g) = some j ∧ d.coreWaits g = false ∧ j.owner = none ∧ fieldLE j.block 0 1 = op ∧
    Dev.coreReserved j.block used = false ∧ fieldLE j.block 4 4 < limit

/-- The device with the glaze job `g` taken from the dispatcher, and the arbiter as it stands then (R261). -/
def glzTaken (d : Dev) (g : GlzJob) (arb : Arb) : Dev :=
  d.setGlz fun s => { s with jobs := s.jobs.filter (· != g), arb := arb }

/-- The block `g`, of opcode `op`, is what the dispatcher serves next, on engine `e`; `t` is the device with it taken, after a key
command of the cycle on its context (R271). -/
def glzChosen (d : Dev) (op e : Nat) (g : GlzJob) (t : Dev) : Prop :=
  (d.leftSetup GLZ_CTRL && !d.flag GLZ_CTRL_ENABLE) = false ∧ d.freeGlz false = some e ∧ g.copy = none ∧ jbOp g.job.block = op ∧
    ∃ arb d1, d.glzNext = (some (g, arb), d1) ∧ t = glzTaken (d1.before (.keyWrite (jbKc g.job.block))) g arb

/-- The key command block `x` of opcode `op` is the next of channel `g`; `t` is the device with it taken (R266). -/
def keyChosen (d : Dev) (g op : Nat) (x : GlzJob) (t : Dev) : Prop :=
  (d.glz.jobs.find? fun x => x.job.chan == g && x.copy.isNone && x.job.sto.isNone) = some x ∧ jbOp x.job.block = op ∧ d.leftSetup GLZ_CTRL = true ∧
    t = d.setGlz fun s => { s with jobs := s.jobs.filter (· != x) }

/-- The public-key job `j` of opcode `op` is what the dispatcher starts next, on unit `u`, with the blob header `hdr`: no job of the
opcode is refused, and every address it names is in its channel's rights; `t` is the device with it taken. -/
def pkChosen (d : Dev) (op u : Nat) (j : Job) (hdr : List Byte) (t : Dev) : Prop :=
  (d.pkWaiting.find? fun x => pkOp x.1.block == op && d.pkCheck x.1 x.2 != pkOk) = none ∧
    ((List.range 16).find? fun u => d.pkeInService u && (d.pkeUnit u).isNone) = some u ∧ pkOp j.block = op ∧
    ((Dev.pkRanges j.block).any fun r => !t.tAllowed j.chan r.1 r.2) = false ∧
    ∃ arb d1, d.pkNext = (some (j, hdr, arb), d1) ∧
      t = ((d1.before (.keyWrite (pkKwk j.block))).pkLeave j).setPke fun s => { s with arb := arb }

/-- The write of a saggar's SAG_CTRL leaves the device `e`, with the saggar in the state `st` and no operation running, and starts
the operation `op` (R364). -/
def sagReady (d : Dev) (p : Path) (n : Nat) (data : W32) (op st : Nat) (e : Dev) : Prop :=
  d.writeFields p (SAG_CTRL n) data = e ∧ fieldGet data 28 4 = op ∧ e.flag (SAG_STATUS_BUSY n) = false ∧ e.sgState n = st

/-! ### Threads -/

/-- Thread `t` has the slot, no interrupt comes first, and it fetches the instruction word `w` of the row `c`, whose fetched bits are
`raw` and whose length is `len`; the device is then `e` (R206). -/
def Issues (d : Dev) (t : Nat) (c : RvClass) (w raw len : Nat) (e : Dev) : Prop :=
  ∃ y, d.issue t = some y ∧ Dev.takeable (y.thread t) = none ∧ y.fetchIns t = (e, .ins w raw len) ∧ rvClass w = c

end Sys2Proof.Machine
end

