-- ==== Sys2Proof/WellFormed.lean ====
section
/-!
DEFINITION. When a command is well formed: the limits that the manual sets on what an operand can be, where the operand's
type does not say it already.
-/

namespace Sys2Proof

/-- A submission queue entry is 64 bytes (R389). -/
def sqeOk (bs : List Byte) : Bool := bs.length == 64

/-- The link rates are 1 to 6, and the widths those of PCIe; rate 6 is flit mode only (R308, R309). -/
def trainOk (speed width : Nat) (flit : Bool) : Bool :=
  decide (1 ≤ speed ∧ speed ≤ 6) && [1, 2, 4, 8, 16].contains width && (speed != 6 || flit)

/-- The limits on a command's operands. -/
def Instr.wf : Instr → Bool
  | .mgmtFrameRx bytes => decide (64 ≤ bytes.length ∧ bytes.length ≤ 1518)
  | .hifDlActive _ speed width flit => trainOk speed width flit
  | .inboundMemoryWrite _ addr dws _ _ => decide (addr < 2 ^ 64) && decide (1 ≤ dws.length ∧ dws.length ≤ 1024)
  | .inboundMemoryRead _ addr (.read n) => decide (addr < 2 ^ 64) && decide (1 ≤ n ∧ n ≤ 1024)
  | .inboundMemoryRead _ addr _ => decide (addr < 2 ^ 64)
  | .readCompletion _ tag .data bytes => decide (tag < 2 ^ 14) && decide (1 ≤ bytes.length)
  | .readCompletion _ tag _ bytes => decide (tag < 2 ^ 14) && bytes.isEmpty
  | .nvmeCreateIoSq _ e => sqeOk e
  | .nvmeDeleteIoSq _ e => sqeOk e
  | .nvmeCreateIoCq _ e => sqeOk e
  | .nvmeDeleteIoCq _ e => sqeOk e
  | .nvmeGetLogPage _ e _ => sqeOk e
  | .nvmeIdentify _ e _ => sqeOk e
  | .nvmeAbort _ e es => sqeOk e && es.all sqeOk
  | .nvmeSetFeatures _ e => sqeOk e
  | .nvmeGetFeatures _ e => sqeOk e
  | .nvmeAsyncEventRequest _ e => sqeOk e
  | .nvmeFlush _ _ e => sqeOk e
  | .nvmeWrite _ _ e _ _ => sqeOk e
  | .nvmeRead _ _ e _ _ => sqeOk e
  | .nvmeWriteZeroes _ _ e _ => sqeOk e
  | .nvmeDatasetManagement _ _ e _ _ => sqeOk e
  | .nvmeJournalAppend _ _ e _ => sqeOk e
  | .nvmeInvalidOpcode _ _ e => sqeOk e
  | .i3cRecData bytes => decide (1 ≤ bytes.length ∧ bytes.length ≤ 256)
  | .errorDetection _ inst _ _ _ _ => decide (inst < 1024)
  | .coneTempReading temps odd => temps.length == 60 && odd.length == 60
  | .coneWearMeasure shifts => shifts.length == 60
  | _ => true

end Sys2Proof
end

