-- ==== Sys2Proof/Certificates/Slice0/Obligations.lean ====
section
/-!
DEFINITION. The statements for the provers: what the rules of the manual say that the commands do. A statement `Does c s p` says
that the command `c` answers a next state that keeps the queue, and that `p` holds of the device after it.
-/

open Sys2Proof Sys2Proof.Machine

/-! ### Registers, owners -/

/-- A write of a register word completes on every path that the profile and its link leave open, with the set-up lock, the access
types and the follow-ups of R43 to R50; an unoccupied offset takes no effect (R9), a path that the profile closes changes nothing (R28),
a closed link loses the write (R31), one after the reset of its port in the same cycle is discarded and counted (R426), one behind a
severed crossing waits in front of it (R425), and a counter is cleared but for this cycle's increments (R47, R48). -/
def Obligations.RegisterWrites : Prop :=
  (∀ (s : State) (dv : Dev) (p : Path) (w : Fin 16777216) (data : W32), Reaches s.dev p dv → (4 * w.val < 0x100000 ∨ 0x200000 ≤ 4 * w.val) →
    exec (.registerWrite p w data) s = .next { s with dev := dv.plainWrite p (busKey (4 * w)) data }) ∧
  (∀ (s : State) (dv : Dev) (p : Path) (w : Fin 16777216) (data : W32), Reaches s.dev p dv → 0x100000 ≤ 4 * w.val → 4 * w.val < 0x200000 →
    let m : Mark := .portReset ((4 * w.val - 0x100000) / 0x10000)
    let y := dv.plainWrite p (4 * w) data
    let e := if dv.marked m then dv.inc CLK_CNT_XING_DROP else if y.marked m then y else y.mark (.portWrite (4 * w) (dv.rd (4 * w)))
    exec (.registerWrite p w data) s = .next { s with dev := e }) ∧
  (∀ (s : State) (p : Path) (w : Fin 16777216) (data : W32), s.dev.alive = true → s.dev.pathOpen p = true →
    (s.dev.reach p).behind (busKey (4 * w)) = true →
    let dv := s.dev.reach p
    let e := { dv with pkg := { dv.pkg with held := dv.pkg.held ++ [(p, busKey (4 * w), data)] } }
    exec (.registerWrite p w data) s = .next { s with dev := e }) ∧
  (∀ (s : State) (dv : Dev) (p : Path) (w : Fin 16777216) (data : W32), Reaches s.dev p dv → 4 * w.val < 0x100000 →
    counterAt (busKey (4 * w)) = none → regAt (busKey (4 * w)) = none →
    exec (.registerWrite p w data) s = .next { s with dev := dv }) ∧
  (∀ (s : State) (p : Path) (w : Fin 16777216) (data : W32), s.dev.alive = true → s.dev.pathOpen p = false → Dev.pathLink p = none →
    exec (.registerWrite p w data) s = .next s) ∧
  (∀ (s : State) (p : Path) (l : Nat) (w : Fin 16777216) (data : W32), s.dev.alive = true → s.dev.pathOpen p = false →
    Dev.pathLink p = some l → exec (.registerWrite p w data) s = .next { s with dev := s.dev.lostWrite l 0 0 (4 * w) }) ∧
  (∀ (d : Dev) (p : Path) (a : Nat) (data : W32) (wide : Bool), d.absentSub a = false → counterAt a = some (wide, true) →
    (d.writeFields p a data).count ⟨a, wide⟩ = tabGet (fun _ => 0) d.reg.justInc a)

/-- One field under its access type (R43 to R46, R48): RO and WO fields keep their value, an RW field takes the written value after
its own rule, a W1S field gains bits, a W1C field loses the bits written as 1 but for those set in this cycle, and an RWL field is
written while its unit is in set-up state and kept, with a violation where it would change, while it is locked. -/
def Obligations.FieldWrites : Prop :=
  ∀ (d : Dev) (a : Nat) (data : W32) (f : FieldDesc) (lk : Bool), f.own = false →
    let v := fieldGet data f.lo f.width
    let fld : Fld := ⟨a, f.lo, f.width⟩
    let r := Dev.fieldWrite lk a data d f
    (f.acc = .ro ∨ f.acc = .wo → r = (d, false)) ∧
    (f.acc = .rw → r.2 = false ∧ r.1.rd a = fieldPut (d.rd a) f.lo f.width (d.fieldStore a f v)) ∧
    (f.acc = .w1s → r = (d.put fld (d.get fld ||| v), false)) ∧
    (f.acc = .w1c →
      r = (d.put fld (d.get fld &&& ((2 ^ f.width - 1 - v) |||
        fieldGet (tabGet (fun _ => 0#32) d.reg.justSet a) f.lo f.width)), false)) ∧
    (f.acc = .rwl → lk = false → r = (d.put fld (d.fieldStore a f v), false)) ∧
    (f.acc = .rwl → lk = true → r = (d, d.fieldStore a f v != d.get fld)) ∧
    (∀ b, b ≠ a → r.1.rd b = d.rd b)

/-- The reads that have an effect (R47, R198, R419): a counter's low half loads its latch, TIME_NOW_FRAC and TIME_PPS_IN_FRAC latch the
other words, each as it stands once the cycle in which hardware changed it is over; and the oldest lock-violation report reaches GLB,
where of the reports of one cycle the last in the order of R29 stays (R50, R503).

An owner's bump that waits for its 16 µs is applied when they are over (R36), and a tagged item is abandoned at its limit
(R41): here a message of a thread channel, 1 ms after it left. -/
def Obligations.ReadEffectsAndOwners : Prop :=
  ((∀ (s : State) (dv e : Dev) (p : Path) (w : Fin 16777216), Reaches s.dev p dv → dv.sample (busKey (4 * w)) = e →
    e.absentSub (busKey (4 * w)) = false → counterAt (busKey (4 * w)) = some (true, true) →
    let c := tabGet (fun _ => 0) e.reg.cnt (busKey (4 * w))
    Does (.counterLowRead p w) s fun d =>
      d = ({ e with reg := { e.reg with latch := tabSet (fun _ => 0) e.reg.latch (busKey (4 * w)) (c / 2 ^ 32) } }).emit
        (.regRead p (4 * w) (c % 2 ^ 32))) ∧
  (∀ (s : State) (dv e : Dev) (p : Path), Reaches s.dev p dv → dv.sample TIME_NOW_FRAC = e →
    Does (.timeNowFracRead p) s fun d =>
      d = ({ e with time := { e.time with nowLatch := e.netNs } }).emit
        (.regRead p TIME_NOW_FRAC (e.time.net / 2 ^ 32 % 2 ^ 16))) ∧
  (∀ (s : State) (dv e : Dev) (p : Path), Reaches s.dev p dv → dv.sample TIME_PPS_IN_FRAC = e →
    Does (.timePpsInFracRead p) s fun d =>
      d = ({ e with time := { e.time with ppsLatch := e.time.ppsIn } }).emit
        (.regRead p TIME_PPS_IN_FRAC (e.time.ppsIn / 2 ^ 32 % 2 ^ 16))) ∧
  (∀ (s : State) (r : ViolReport) (rs : List ViolReport), s.dev.alive = true → s.dev.reg.viol = r :: rs →
    (∀ c q, s.dev.reg.violLast = some (c, q) → c = Dev.nocOf s.dev.cycle → q ≤ r.path.code) →
    Does .lockViolReport s fun d =>
      d.get GLB_LOCK_VIOL_ADDR_OFFSET = r.addr % 2 ^ 26 ∧ d.get GLB_LOCK_VIOL_SRC_PATH = r.path.code ∧
      d.flag GLB_LOCK_VIOL_SRC_VALID = true ∧ d.count GLB_LOCK_VIOL_CNT = satAdd 32 (s.dev.count GLB_LOCK_VIOL_CNT) 1 ∧
      d.reg.viol = rs) ∧
  (∀ (s : State) (r : ViolReport) (rs : List ViolReport) (q : Nat), s.dev.alive = true → s.dev.reg.viol = r :: rs →
    s.dev.reg.violLast = some (Dev.nocOf s.dev.cycle, q) → r.path.code < q →
    Does .lockViolReport s fun d =>
      d.get GLB_LOCK_VIOL_ADDR_OFFSET = s.dev.get GLB_LOCK_VIOL_ADDR_OFFSET ∧
      d.get GLB_LOCK_VIOL_SRC_PATH = s.dev.get GLB_LOCK_VIOL_SRC_PATH ∧
      d.flag GLB_LOCK_VIOL_SRC_VALID = true ∧ d.count GLB_LOCK_VIOL_CNT = satAdd 32 (s.dev.count GLB_LOCK_VIOL_CNT) 1 ∧
      d.reg.viol = rs)) ∧
  ((∀ (s : State) (i : Fin 2048) (c : Nat), s.dev.alive = true → s.dev.bumpPending (.saggar i) = true →
    s.dev.lastBump (.saggar i) = some c → c + 48000 ≤ s.dev.cycle →
    let b := s.dev.applyBump (.saggar i)
    Does (.bumpSpacingExpiry (.saggar i)) s fun d =>
      d = b.sagOpsGo ∧ b.firing (.saggar i) = (s.dev.firing (.saggar i) + 1) % 2 ^ 24 ∧ b.bumpPending (.saggar i) = false ∧
      b.lastBump (.saggar i) = some s.dev.cycle) ∧
  (∀ (s : State) (i : Fin 8192) (c : Channel) (m : Flight) (ms : List Flight), s.dev.alive = true → s.dev.channel i = some c →
    c.msgs = m :: ms → m.at_ + 3000000 ≤ s.dev.cycle →
    Does (.itemResolveLimitExpiry (.message i)) s fun d => d = s.dev.setChannel i (some { c with msgs := ms })))

/-! ### Ethernet ports -/

/-- A sub-port whose signals have been sound for 10 µs comes up (R58): LINK_UP is set, the faults clear, the event is noted, and a
hold in progress ends.

The other link events: the line signals show as faults, one that fails takes the link down, and where they turn good the 10 µs begin (R58, R504), a hold that runs out with
the link down, or in far-end loopback, empties the sub-port's queues (R69, R71), the end of the flush lets it schedule again, and with every sub-port down the recovered clock moves to
the reference (R55, R420). -/
def Obligations.LinkEvents : Prop :=
  (∀ (s : State) (n : Fin 16) (i : Fin 4) (e : Dev), s.dev.alive = true → s.dev.before (.holdExpired (4 * n.val + i.val)) = e →
    e.rxRuns n i = true → e.flag BOOT_STATUS_GATE_OPEN = true → e.severed (.rx n) = false → e.flag (RAS_LANE_TEST_RUN n) = false →
    e.flag (ETH_SP_STATUS_LINK_UP n i) = false → (e.sub (4 * n.val + i.val)).brokenAt + 30000 ≤ e.cycle →
    Does (.linkUp n i) s fun d =>
      d.flag (ETH_SP_STATUS_LINK_UP n i) = true ∧ d.flag (ETH_SP_STATUS_LOCAL_FAULT n i) = false ∧
      d.flag (ETH_SP_STATUS_REMOTE_FAULT n i) = false ∧ d.flag (ETH_SP_EVENT_LINK_UP n i) = true ∧
      (d.sub (4 * n.val + i.val)).everUp = true ∧
      (e.loopback n ≠ 2 → d.flag (ETH_SP_STATUS_HOLDING n i) = false ∧ (d.sub (4 * n.val + i.val)).holdEnds = none ∧
        (d.sub (4 * n.val + i.val)).pastHold = false) ∧
      (∀ a, a ≠ ETH_SP_STATUS n i → a ≠ ETH_SP_EVENT n i → d.rd a = e.rd a) ∧ d = { e with reg := d.reg, eth := d.eth }) ∧
  ((∀ (s : State) (n : Fin 16) (i : Fin 4) (align lock lf rf : Bool), s.dev.alive = true → s.dev.rxRuns n i = true →
    let here := !align || !lock || lf
    let far := rf && !(s.dev.loopback n == 1)
    Does (.linkDown n i align lock lf rf) s fun d =>
      let faults := s.dev.flag (ETH_SP_STATUS_LOCAL_FAULT n i) || s.dev.flag (ETH_SP_STATUS_REMOTE_FAULT n i)
      d = ((if here || far then s.dev.linkFalls n i
        else if faults then s.dev.modSub (4 * n.val + i.val) fun x => { x with brokenAt := s.dev.cycle }
        else s.dev).put (ETH_SP_STATUS_LOCAL_FAULT n i) (b2n here)).put
        (ETH_SP_STATUS_REMOTE_FAULT n i) (b2n far)) ∧
  (∀ (s : State) (n : Fin 16) (i : Fin 4) (align lock lf rf : Bool), s.dev.alive = true → s.dev.rxRuns n i = false →
    Does (.linkDown n i align lock lf rf) s fun d => d = s.dev) ∧
  (∀ (s : State) (n : Fin 16) (i : Fin 4) (e : Nat), s.dev.alive = true → (s.dev.sub (4 * n.val + i.val)).holdEnds = some e →
    e ≤ s.dev.cycle → (s.dev.flag (ETH_SP_STATUS_LINK_UP n i) = false ∨ s.dev.loopback n = 2) →
    Does (.holdExpiry n i) s fun d =>
      d = (((((s.dev.setEvent (ETH_SP_EVENT_HOLD_EXPIRED n i)).put (ETH_SP_STATUS_HOLDING n i) 0).put
        (ETH_SP_STATUS_FLUSHING n i) 1).modSub (4 * n.val + i.val) fun x =>
          { x with holdEnds := none, pastHold := true, flushEnds := some (s.dev.cycle + 1) }).flushSub
            (4 * n.val + i.val)).mark (.holdExpired (4 * n.val + i.val))) ∧
  (∀ (s : State) (n : Fin 16) (i : Fin 4) (e : Nat), s.dev.alive = true → (s.dev.sub (4 * n.val + i.val)).flushEnds = some e →
    e ≤ s.dev.cycle →
    Does (.flushComplete n i) s fun d =>
      d.flag (ETH_SP_STATUS_FLUSHING n i) = false ∧ (d.sub (4 * n.val + i.val)).flushEnds = none ∧
      (d.sub (4 * n.val + i.val)).pastHold = (s.dev.sub (4 * n.val + i.val)).pastHold ∧
      (∀ a, a ≠ ETH_SP_STATUS n i → d.rd a = s.dev.rd a) ∧ d = { s.dev with reg := d.reg, eth := d.eth }) ∧
  (∀ (s : State) (n : Fin 16), s.dev.alive = true → (∀ i < 4, s.dev.flag (ETH_SP_STATUS_LINK_UP n i) = false) →
    s.dev.get (CLK_RX_SRC_REF n) = 0 →
    Does (.rxClkSwitch n) s fun d =>
      d = (((s.dev.put (CLK_RX_SRC_REF n) 1).put (CLK_RX_SRC_LANE n) 0).sever (.rx n)).inc CLK_CNT_RX_CLK_SWITCH))

/-- The three fields of ETH_CTRL that act: a port reset undoes and counts the other register writes of its cycle to the port, runs its
steps and severs the port's receive crossing, where what was partly in is counted (R70, R425, R426), ENABLE
locks the port's set-up fields (R46), and a new LOOPBACK ends what is in reception (R71); after a reset of the port in the same cycle
each is discarded and counted. -/
def Obligations.PortControls : Prop :=
  (∀ (s : State) (dv : Dev) (p : Path) (n : Fin 16) (data : W32), Reaches s.dev p dv → dv.marked (.portReset n) = false →
    fieldGet data 31 1 = 1 →
    let e := dv.writeFields p (ETH_CTRL n) data
    let lost := e.marks.filterMap fun m => match m with
      | .portWrite a old => if (a - 0x100000) / 0x10000 = n.val then some (a, old) else none
      | _ => none
    let u := lost.foldl (fun d w => d.wr w.1 w.2) e
    Does (.portReset p n data) s fun d =>
      d = (((u.portReset n).sever (.rx n)).bump CLK_CNT_XING_DROP ((e.frames.filter fun kv => match kv.2 with
        | some f => !f.ended && match f.src with | .port q => q / 4 == n.val | _ => false
        | none => false).length + lost.length)).mark (.portReset n)) ∧
  (∀ (s : State) (dv : Dev) (p : Path) (n : Fin 16) (data : W32), Reaches s.dev p dv → dv.marked (.portReset n) = false →
    let noted := fun (y : Dev) =>
      if y.marked (.portReset n) then y else y.mark (.portWrite (ETH_CTRL n) (dv.rd (ETH_CTRL n)))
    let e := dv.writeFields p (ETH_CTRL n) data
    let t := (e.put (ETH_CTRL_ENABLE n) 1).lock (ETH_CTRL n)
    (fieldGet data 0 1 = 1 →
      Does (.portEnable p n data) s fun d =>
        d = noted ((if e.get (ETH_CTRL_ENABLE n) = 1 then t else (List.range 4).foldl (fun d i => d.modSub (4 * n.val + i) fun x =>
          { x with brokenAt := d.cycle, ran := false }) t).syncPort n)) ∧
    (fieldGet data 0 1 = 0 →
      Does (.portEnable p n data) s fun d => d = noted ((e.put (ETH_CTRL_ENABLE n) 0).syncPort n)) ∧
    (tabGet (fun _ => none) e.ras.lane n = none →
      Does (.loopbackChange p n data) s fun d => d = noted (e.setLoopback n (fieldGet data 4 2))) ∧
    (∀ x, tabGet (fun _ => none) e.ras.lane n = some x →
      Does (.loopbackChange p n data) s fun d =>
        d = noted ({ e with ras := { e.ras with lane := tabSet (fun _ => none) e.ras.lane n (some (fieldGet data 4 2, x.2)) } }))) ∧
  (∀ (s : State) (dv : Dev) (p : Path) (n : Fin 16) (data : W32) (row : Instr), Reaches s.dev p dv → dv.marked (.portReset n) = true →
    (row = .portReset p n data ∨ row = .portEnable p n data ∨ row = .loopbackChange p n data) →
    Does row s fun d => d = dv.inc CLK_CNT_XING_DROP)

/-- Frames at the ports: 68 bytes of a plain frame bring it into the crossing, 28 cycles from the parse queue (R75, R98); one byte
over MAX_FRAME, the end of a frame, the start of a cut-through transmission and the end of any transmission act on the frame concerned,
and firmware's event messages return their transmit timestamp (R60, R64, R65, R188, R189); and a sound management frame goes to firmware (R74). -/
def Obligations.PortFrames : Prop :=
  (∀ (s : State) (n : Fin 16) (i : Fin 4) (bytes bs : List Byte) (lag : Nat) (h e : Dev) (p j : Nat) (f : Frame), s.dev.alive = true →
    4 * n.val + i.val = p → s.dev.flag (ETH_SP_STATUS_LINK_UP n i) = true → (s.dev.sub p).rx = none →
    s.dev.hears p bytes false = some (bs, h) → 68 ≤ bs.length → h.receive p bs lag = (j, e) → e.frame? j = some f → f.stage = .rx →
    isMacControl f.bytes = false → e.loopback (p / 4) ≠ 2 → e.flag (TIME_PORT_CFG_PTP_EN p) = false →
    e.flag (PL_PARSE_CTRL_ENABLE (p / 8)) = true →
    Does (.allocationCondition n i bytes lag false) s fun d =>
      d = (e.setFrame j { f with stage := .parse }).setPst (p / 8)
        { (e.pst (p / 8)) with crossing := (e.pst (p / 8)).crossing ++ [(j, e.cycle + 28)] }) ∧
  (∀ (s : State) (n : Fin 16) (i : Fin 4) (bytes bs : List Byte) (h e : Dev) (p j : Nat) (f g : Frame), s.dev.alive = true →
    4 * n.val + i.val = p → (s.dev.startDue.sub p).rx = some j → s.dev.startDue.hears p bytes false = some (bs, h) →
    s.dev.startDue.frame? j = some f → f.oversize = false → s.dev.startDue.maxFrame p < f.len + bs.length →
    (h.setFrame j { f with bytes := f.bytes ++ bs }).meetAllocation p j = e → e.frame? j = some g →
    Does (.oversizeDetect n i bytes) s fun d => d = e.oversizeNow p j g) ∧
  (∀ (s : State) (n : Fin 16) (i : Fin 4) (bytes : List Byte) (j q st : Nat) (f g : Frame) (e : Dev), s.dev.alive = true →
    (s.dev.sub (4 * n.val + i.val)).tx = some j → s.dev.frame? j = some f → s.dev.arrive j bytes = e → e.frame? j = some g →
    g.stage = .chosen q st → g.cutThrough = some true → (256 ≤ g.len ∨ g.ended = true) → st ≤ s.dev.cycle →
    Does (.cutThroughTxStart n i bytes) s fun d => d = (e.setFrame j { g with ctStarted := true }).startDue) ∧
  (∀ (s : State) (n : Fin 16) (i : Fin 4) (bytes bs : List Byte) (lag corr uncorr : Nat) (code : Bool) (h e : Dev) (p j : Nat)
    (f : Frame), s.dev.alive = true → 4 * n.val + i.val = p → s.dev.flag (ETH_SP_STATUS_LINK_UP n i) = true →
    s.dev.rxRuns n i = true →
    ((s.dev.bump (ETH_CNT_FEC_CORR_CW n i) corr).bump (ETH_CNT_FEC_UNCORR_CW n i) uncorr).startDue.hears p bytes true = some (bs, h) →
    h.receive p bs lag = (j, e) → e.frame? j = some f →
    Does (.frameEnd n i bytes lag code corr uncorr) s fun d =>
      d = (if 64 ≤ f.len then e.meetAllocation p j else e).endFrame p j code false) ∧
  (∀ (s : State) (n : Fin 16) (i : Fin 4) (e : Dev) (p j q st : Nat) (f : Frame), s.dev.alive = true → s.dev.startDue = e →
    4 * n.val + i.val = p → (e.sub p).tx = some j → e.frame? j = some f → f.stage = .chosen q st →
    (f.ended = true ∨ f.oversize = true) → (e.sub p).started = true → st + wireCycles (e.acctLen f + 8) (e.rate p) ≤ e.cycle →
    let l := e.acctLen f
    let wire := withFcs f.stomp (f.bytes.take (l - 4))
    let c := (e.inc (ETH_CNT_TX_FRAMES n i)).bump (ETH_CNT_TX_BYTES n i) l
    let c := if f.stomp then c.inc (ETH_CNT_TX_STOMPED n i) else c
    let c := if e.loopback n = 1 then c.modSub p fun x => { x with loop := x.loop ++ [wire] } else c.emit (.frame p wire)
    let done := fun (c : Dev) => (c.modSub p fun x =>
      { x with tx := none, started := false, txFreeAt := st + wireCycles (l + 20) (c.rate p) }).freeFrame j
    (f.src ≠ .firmware → Does (.txFrameComplete n i) s fun d => d = done c) ∧
    (∀ o, f.src = .firmware → ptpOffset f.bytes = some o → bitsOf (f.bytes.getD o 0#8).toNat 0 4 < 4 →
      Does (.txFrameComplete n i) s fun d =>
        d = done ((c.inc TIME_CNT_PTP_TX).emit (.txStamp p
          (c.netAt (st + wireCycles 8 (c.rate p)) + c.get (TIME_PORT_DLY_TX_NS p) * 2 ^ 48))))) ∧
  (∀ (s : State) (bytes : List Byte), s.dev.alive = true → 64 ≤ bytes.length → bytes.length ≤ 1518 → judgeFcs bytes = .good →
    Does (.mgmtFrameRx bytes) s fun d => d = s.dev.emit (.toFirmware bytes 0))

/-! ### Parse engines -/

/-- The arithmetic and logic operations of the parse engines in full (R84 to R86): the result and the flags Z, C and S of each, X
kept, one more instruction counted, and PC on the next word.

The other operations of the parse engines (R84, R87 to R89, R91): loads of the frame's bytes, EXT, GETS, the record words, the
branch, X, and the ends of a parse. -/
def Obligations.ParseInstructions : Prop :=
  (∀ (s : State) (k : Fin 8) (e : Fin 64) (x : Engine) (i : PInstr), s.dev.alive = true → s.dev.nextInstr k e = some (x, i) →
    x.pc ≠ 0xFFF →
    let a := x.rd i.ra
    let b := x.rd i.rb
    let m : W16 := BitVec.ofNat 16 i.imm
    let nb := b.toNat % 16
    let fl := fun (r : W16) (c : Bool) => ({ x.fl with z := r == 0#16, c := c, s := r.msb } : PFlags)
    let done := fun (y : Engine) (d : Dev) =>
      d = s.dev.setEng k e (some { y with n := x.n + 1, nextAt := s.dev.cycle + 1, stalledFrom := none, pc := x.pc + 1 })
    let res := fun (r : W16) (c : Bool) => done { x.wr i.rd r with fl := fl r c }
    (i.op = .add → Does (.parseAdd k e) s (res (a + b) (decide (65536 ≤ a.toNat + b.toNat)))) ∧
    (i.op = .addi → Does (.parseAddi k e) s (res (a + m) (decide (65536 ≤ a.toNat + m.toNat)))) ∧
    (i.op = .sub → Does (.parseSub k e) s (res (a - b) (decide (a.toNat < b.toNat)))) ∧
    (i.op = .subi → Does (.parseSubi k e) s (res (a - m) (decide (a.toNat < m.toNat)))) ∧
    (i.op = .and → Does (.parseAnd k e) s (res (a &&& b) false)) ∧
    (i.op = .andi → Does (.parseAndi k e) s (res (a &&& m) false)) ∧
    (i.op = .or → Does (.parseOr k e) s (res (a ||| b) false)) ∧
    (i.op = .ori → Does (.parseOri k e) s (res (a ||| m) false)) ∧
    (i.op = .xor → Does (.parseXor k e) s (res (a ^^^ b) false)) ∧
    (i.op = .xori → Does (.parseXori k e) s (res (a ^^^ m) false)) ∧
    (i.op = .shl → Does (.parseShl k e) s (res (a <<< nb) (nb != 0 && bitOf a.toNat (16 - nb)))) ∧
    (i.op = .shli → Does (.parseShli k e) s (res (a <<< (m.toNat % 16)) (m.toNat % 16 != 0 && bitOf a.toNat (16 - m.toNat % 16)))) ∧
    (i.op = .shr → Does (.parseShr k e) s (res (a >>> nb) (nb != 0 && bitOf a.toNat (nb - 1)))) ∧
    (i.op = .shri → Does (.parseShri k e) s (res (a >>> (m.toNat % 16)) (m.toNat % 16 != 0 && bitOf a.toNat (m.toNat % 16 - 1)))) ∧
    (i.op = .movi → Does (.parseMovi k e) s (done (x.wr i.rd m))) ∧
    (i.op = .cmp → Does (.parseCmp k e) s (done { x with fl := fl (a - b) (decide (a.toNat < b.toNat)) })) ∧
    (i.op = .cmpi → Does (.parseCmpi k e) s (done { x with fl := fl (a - m) (decide (a.toNat < m.toNat)) })) ∧
    (i.op = .tsti → Does (.parseTsti k e) s (done { x with fl := fl (a &&& m) false })) ∧
    (i.op = .nop → Does (.parseNop k e) s (done x))) ∧
  (∀ (s : State) (k : Fin 8) (e : Fin 64) (x : Engine) (i : PInstr), s.dev.alive = true → s.dev.nextInstr k e = some (x, i) →
    x.pc ≠ 0xFFF → x.stalledFrom = none →
    let a := x.rd i.ra
    let fl := fun (r : W16) => ({ x.fl with z := r == 0#16, s := r.msb } : PFlags)
    let done := fun (y : Engine) (d : Dev) =>
      d = s.dev.setEng k e (some { y with n := x.n + 1, nextAt := s.dev.cycle + 1, stalledFrom := none, pc := x.pc + 1 })
    let load := fun (v : Nat) => done { x.wr i.rd (BitVec.ofNat 16 v) with fl := fl (BitVec.ofNat 16 v) }
    (i.op = .ldb → ∀ f, s.dev.frame? x.frame = some f → Dev.loadCase f (a.toNat + i.imm) = .ready →
      Does (.parseLdb k e) s (load (f.bytes.getD (a.toNat + i.imm) 0#8).toNat)) ∧
    (i.op = .ldh → ∀ f, s.dev.frame? x.frame = some f → Dev.loadCase f (a.toNat + i.imm + 1) = .ready →
      Does (.parseLdh k e) s (load ((f.bytes.getD (a.toNat + i.imm) 0#8).toNat * 256 +
        (f.bytes.getD (a.toNat + i.imm + 1) 0#8).toNat))) ∧
    (i.op = .ext → Does (.parseExt k e) s (load (a.toNat / 2 ^ (i.imm / 256 % 16) % 2 ^ (i.imm % 16 + 1)))) ∧
    (i.op = .gets → i.imm = 1 → Does (.parseGets k e) s (done (x.wr i.rd (BitVec.ofNat 16 k)))) ∧
    (i.op = .gets → i.imm = 0 → ∀ f p, s.dev.frame? x.frame = some f → f.src = .port p →
      Does (.parseGets k e) s (done (x.wr i.rd (BitVec.ofNat 16 p)))) ∧
    (i.op = .gets → i.imm = 2 →
      Does (.parseGets k e) s (done (x.wr i.rd (BitVec.ofNat 16 (s.dev.get (PL_PARSE_CONST_CONST0 k)))))) ∧
    (i.op = .gets → i.imm = 3 →
      Does (.parseGets k e) s (done (x.wr i.rd (BitVec.ofNat 16 (s.dev.get (PL_PARSE_CONST_CONST1 k)))))) ∧
    (i.op = .st → Does (.parseSt k e) s (done { x with words := vset x.words i.imm a })) ∧
    (i.op = .sti → Does (.parseSti k e) s (done { x with words := vset x.words i.rd (BitVec.ofNat 16 i.imm) })) ∧
    (i.op = .b → condHolds x.fl i.rd = true → Does (.parseB k e) s fun d =>
      d = s.dev.setEng k e (some { x with n := x.n + 1, nextAt := s.dev.cycle + 1, pc := i.imm })) ∧
    (i.op = .b → condHolds x.fl i.rd = false → Does (.parseB k e) s (done x)) ∧
    (i.op = .setx → Does (.parseSetx k e) s (done { x with fl := { x.fl with x := true } })) ∧
    (i.op = .clrx → Does (.parseClrx k e) s (done { x with fl := { x.fl with x := false } })) ∧
    (i.op = .done → Does (.parseDone k e) s fun d => d = s.dev.endParse k e { x with n := x.n + 1 } none i.imm) ∧
    (i.op = .reject → Does (.parseReject k e) s fun d => d = s.dev.endParse k e { x with n := x.n + 1 } (some .reject) i.imm))

/-- The rows about the parse engines that are no instruction: an illegal or unsound word, a spent budget and a load decided late (R80,
R83, R91, R98),
the allocation of an engine (R76), the hand-over of the record in frame order (R78, R98), and the two control registers (R100 to
R103). -/
def Obligations.ParseRows : Prop :=
  (∀ (s : State) (k : Fin 8) (e : Fin 64) (x : Engine), s.dev.alive = true → s.dev.eng k e = some x → x.stalledFrom = none →
    x.nextAt ≤ s.dev.cycle → x.n < s.dev.get (PL_PARSE_CTRL_BUDGET k) → s.dev.imemIsBad k x.pc = false →
    decodeParse (s.dev.fetchWord k x.pc) = none →
    Does (.illegalInstruction k e) s fun d => d = s.dev.endParse k e x (some .illegal) 0) ∧
  (∀ (s : State) (k : Fin 8) (e : Fin 64) (x : Engine), s.dev.alive = true → s.dev.eng k e = some x → x.stalledFrom = none →
    x.nextAt ≤ s.dev.cycle → x.n < s.dev.get (PL_PARSE_CTRL_BUDGET k) → s.dev.imemIsBad k x.pc = true →
    Does (.illegalInstruction k e) s fun d => d = s.dev.endParse k e x (some .imem) 0) ∧
  (∀ (s : State) (k : Fin 8) (e : Fin 64) (x : Engine), s.dev.alive = true → s.dev.eng k e = some x → x.stalledFrom = none →
    x.nextAt ≤ s.dev.cycle + 1 → s.dev.get (PL_PARSE_CTRL_BUDGET k) ≤ x.n →
    Does (.parseBudgetExhausted k e) s fun d => d = s.dev.endParse k e x (some .budget) 0) ∧
  (∀ (s : State) (k : Fin 8) (e : Fin 64) (x : Engine) (c : Nat) (w : W32) (i : PInstr) (bytes : List Byte),
    s.dev.alive = true → s.dev.eng k e = some x → x.stalledFrom = some (c, w) → decodeParse w = some i →
    Does (.parseLoadResume k e bytes) s fun d => d = (s.dev.arrive x.frame bytes).doLoad k e x i) ∧
  (∀ (s : State) (k : Fin 8) (q : List Nat) (i e : Nat), s.dev.alive = true → (s.dev.pst k).queue = i :: q →
    s.dev.freeEngine k = some e →
    Does (.engineAllocation k) s fun d => d = (s.dev.setPst k { s.dev.pst k with queue := q }).allocate k e i) ∧
  (∀ (s : State) (k : Fin 8) (bytes : List Byte) (rest : List Nat) (i : Nat) (r : DoneRec) (f : Frame) (e : Dev), s.dev.alive = true →
    (s.dev.pst k).order = i :: rest → s.dev.arrive i bytes = e → (e.pst k).done = [(i, r)] → e.frame? i = some f →
    (f.ended = true ∨ 256 < f.len) → f.stage ≠ .dead → r.readyAt ≤ e.cycle →
    Does (.parseRecordHandoff (k, bytes)) s fun d =>
      (r.cause = none → d.count (PL_CNT_PARSED k) = satAdd 64 (e.count (PL_CNT_PARSED k)) 1) ∧ (d.pst k).order = rest ∧
      (d.pst k).done = [] ∧
      d.frame? i = some { f with words := some r.words, malformed := r.cause.isSome, stage := .classify } ∧
      (d.cp k).inflight = (e.cp k).inflight ++
        [{ frame := i, words := r.words, at_ := e.cycle, malformed := r.cause.isSome, malf := r.malf, look := none }]) ∧
  (∀ (s : State) (dv : Dev) (p : Path) (k : Fin 8) (data : W32), Reaches s.dev p dv →
    Does (.parseEntryWrite p k data) s fun d => d.get (PL_PARSE_ENTRY_ENTRY k) = fieldGet data 0 12) ∧
  (∀ (s : State) (dv : Dev) (p : Path) (k : Fin 8) (data : W32), Reaches s.dev p dv → fieldGet data 0 1 = 1 →
    (dv.writeFields p (PL_PARSE_CTRL k) data).flag BOOT_STATUS_VERIFIED = true →
    Does (.parseEnable p k data) s fun d =>
      d = ((dv.writeFields p (PL_PARSE_CTRL k) data).put (PL_PARSE_CTRL_ENABLE k) 1).lock (PL_PARSE_CTRL k)) ∧
  (∀ (s : State) (dv : Dev) (p : Path) (k : Fin 8) (data : W32), Reaches s.dev p dv → fieldGet data 0 1 = 1 →
    (dv.writeFields p (PL_PARSE_CTRL k) data).flag BOOT_STATUS_VERIFIED = false →
    Does (.parseEnable p k data) s fun d => d = (dv.writeFields p (PL_PARSE_CTRL k) data).inc BOOT_GATE_VIOL)

/-- Encoding and decoding of parse instructions agree: every well-formed instruction is read back from its word with every operand
(R83, R84, R87, R89), and a word that decodes is the word of what it decodes to. -/
def Obligations.ParseEncodingRoundTrip : Prop :=
  (∀ i : PInstr, i.wf = true → decodeParse (encodeParse i) = some i) ∧
  (∀ (w : W32) (i : PInstr), decodeParse w = some i → i.wf = true ∧ encodeParse i = w)

/-! ### Classification and tables -/

/-- The exact-match commands (R118 to R120, R130): an insert of a new key writes the entry to a free way of its bucket, else to the
lowest free slot of the overflow store; of a present key it changes nothing, or rewrites the entry in place where REPLACE is set; a
delete clears VALID, and a freed way takes the bucket's lowest overflow entry; a read returns the entry, and a hit bit is cleared. Each
answers its location. -/
def Obligations.ExactMatchCommands : Prop :=
  (∀ (s : State) (g : Fin 4096) (j : Job) (t : Dev), s.dev.alive = true → tblReady s.dev g 0x01 j → tblTaken s.dev j = t →
    let key := sliceB j.block 16 16
    let ctl := fieldLE j.block 32 8
    let ent : EmEntry := { key := key, ctl := 2 ^ 63 + actionBits ctl + ownerOf ctl * 2 ^ 21, stamp := 0 }
    (∀ w, t.emFind key = none → t.atQuota (ownerOf ent.ctl) = false →
      ((List.range 4).find? fun w => !(t.emEnt (4 * t.bucketNo key + w)).valid) = some w →
      Does (.emInsert g) s fun d =>
        d = ((t.setLoc (false, 4 * t.bucketNo key + w) ent).mark .tableWrite).tblAnswer j
          { status := 0, loc := 4 * t.bucketNo key + w }) ∧
    (∀ i, t.emFind key = none → t.atQuota (ownerOf ent.ctl) = false →
      ((List.range 4).find? fun w => !(t.emEnt (4 * t.bucketNo key + w)).valid) = none →
      ((List.range 8192).find? fun i => !(t.ovfEnt i).valid) = some i →
      Does (.emInsert g) s fun d =>
        d = ((t.setLoc (true, i) ent).mark .tableWrite).tblAnswer j { status := 0, loc := 2 ^ 31 + i, rflags := 1 }) ∧
    (∀ loc, t.emFind key = some loc → bitOf (fieldLE j.block 1 1) 0 = false →
      Does (.emInsert g) s fun d => d = (t.mark .tableWrite).tblAnswer j { status := 1, loc := Dev.locCode loc }) ∧
    (∀ loc, t.emFind key = some loc → bitOf (fieldLE j.block 1 1) 0 = true → ownerOf (t.locEnt loc).ctl = ownerOf ent.ctl →
      Does (.emInsert g) s fun d => d = ((t.setLoc loc ent).mark .tableWrite).tblAnswer j { status := 0, loc := Dev.locCode loc })) ∧
  (∀ (s : State) (g : Fin 4096) (j : Job) (t : Dev), s.dev.alive = true → tblReady s.dev g 0x02 j → tblTaken s.dev j = t →
    let free := fun (e : EmEntry) => { e with ctl := withBit e.ctl 63 false }
    (∀ i, t.emFind (sliceB j.block 16 16) = some (true, i) →
      Does (.emDelete g) s fun d =>
        d = ((t.setLoc (true, i) (free (t.ovfEnt i))).mark .tableWrite).tblAnswer j { status := 0, loc := 2 ^ 31 + i }) ∧
    (∀ i u, t.emFind (sliceB j.block 16 16) = some (false, i) → t.setLoc (false, i) (free (t.emEnt i)) = u →
      (u.tbl.ovf.find? fun kv => kv.2.valid && u.bucketNo kv.2.key == i / 4) = none →
      Does (.emDelete g) s fun d => d = (u.mark .tableWrite).tblAnswer j { status := 0, loc := i }) ∧
    (∀ i u o e, t.emFind (sliceB j.block 16 16) = some (false, i) → t.setLoc (false, i) (free (t.emEnt i)) = u →
      (u.tbl.ovf.find? fun kv => kv.2.valid && u.bucketNo kv.2.key == i / 4) = some (o, e) →
      Does (.emDelete g) s fun d =>
        d = (((u.setLoc (false, i) e).setLoc (true, o) (free e)).mark .tableWrite).tblAnswer j
          { status := 0, loc := i, rflags := 2, reloc := 2 ^ 31 + o })) ∧
  (∀ (s : State) (g : Fin 4096) (j : Job) (loc : Bool × Nat), s.dev.alive = true → tblReady s.dev g 0x03 j →
    (tblTaken s.dev j).emFind (sliceB j.block 16 16) = some loc →
    Does (.emRead g) s fun d =>
      d = (tblTaken s.dev j).tblAnswer j { status := 0, loc := Dev.locCode loc, body := some (emBytes (s.dev.locEnt loc)) }) ∧
  (∀ (s : State) (g : Fin 4096) (j : Job) (loc : Bool × Nat), s.dev.alive = true → tblReady s.dev g 0x04 j →
    loc = (bitOf (fieldLE j.block 4 4) 31, bitsOf (fieldLE j.block 4 4) 0 20) →
    Does (.emReadLoc g) s fun d =>
      d = (tblTaken s.dev j).tblAnswer j { status := 0, loc := Dev.locCode loc, body := some (emBytes (s.dev.locEnt loc)) }) ∧
  (∀ (s : State) (g : Fin 4096) (j : Job) (loc : Bool × Nat), s.dev.alive = true → tblReady s.dev g 0x05 j →
    (tblTaken s.dev j).emFind (sliceB j.block 16 16) = some loc →
    Does (.emClearHit g) s fun d =>
      d = (((tblTaken s.dev j).setLoc loc { s.dev.locEnt loc with ctl := withBit (s.dev.locEnt loc).ctl 61 false }).mark
        .tableWrite).tblAnswer j { status := 0, loc := Dev.locCode loc })

/-- The LPM and rule commands (R111, R121 to R124, R130): an LPM write sets its slot, a move carries a valid entry to free slots, an
invalidate clears VALID and a read returns the entry, of the wide entry over the slot where there is one; a rule write sets the rule of one pipeline, or of all eight.

What refuses a table command, in the order of R131: tables off, an opcode that is none, and a rule or LPM command of a tenant;
nothing of the tables changes. -/
def Obligations.LpmAndRuleCommands : Prop :=
  ((∀ (s : State) (g : Fin 4096) (j : Job), s.dev.alive = true → tblReady s.dev g 0x10 j →
    Does (.lpmWrite g) s fun d =>
      d = (((tblTaken s.dev j).lpmWriteAt (fieldLE j.block 4 4) { pfx := sliceB j.block 16 16, ctl := fieldLE j.block 32 8 }).mark .tableWrite).tblAnswer j
        { status := 0, loc := fieldLE j.block 4 4 }) ∧
  (∀ (s : State) (g : Fin 4096) (j : Job), s.dev.alive = true → tblReady s.dev g 0x11 j →
    (s.dev.lpmEnt (fieldLE j.block 4 4)).valid = true →
    ((Dev.covers (s.dev.lpmEnt (fieldLE j.block 4 4)) (fieldLE j.block 8 4)).all (tblTaken s.dev j).slotFree) = true →
    Does (.lpmMove g) s fun d =>
      d = ((((tblTaken s.dev j).setLpm (fieldLE j.block 8 4) (s.dev.lpmEnt (fieldLE j.block 4 4))).invalLpm
        (fieldLE j.block 4 4)).mark .tableWrite).tblAnswer j { status := 0, loc := fieldLE j.block 8 4 }) ∧
  (∀ (s : State) (g : Fin 4096) (j : Job) (i : Nat), s.dev.alive = true → tblReady s.dev g 0x12 j →
    (s.dev.wideOver (fieldLE j.block 4 4)).getD (fieldLE j.block 4 4) = i →
    Does (.lpmInvalidate g) s fun d =>
      d = (((tblTaken s.dev j).setLpm i { s.dev.lpmEnt i with ctl := withBit (s.dev.lpmEnt i).ctl 63 false }).mark .tableWrite).tblAnswer
        j { status := 0, loc := i }) ∧
  (∀ (s : State) (g : Fin 4096) (j : Job) (i : Nat), s.dev.alive = true → tblReady s.dev g 0x13 j →
    (s.dev.wideOver (fieldLE j.block 4 4)).getD (fieldLE j.block 4 4) = i →
    Does (.lpmRead g) s fun d =>
      d = (tblTaken s.dev j).tblAnswer j { status := 0, loc := i, body := some (lpmBytes (s.dev.lpmEnt i)) }) ∧
  (∀ (s : State) (g : Fin 4096) (j : Job), s.dev.alive = true → tblReady s.dev g 0x20 j → bitOf (fieldLE j.block 1 1) 1 = false →
    Does (.ruleWrite g) s fun d =>
      d = (((tblTaken s.dev j).setRule (fieldLE j.block 2 2) (fieldLE j.block 4 4) (ruleOf (sliceB j.block 16 80))).mark .tableWrite).tblAnswer j
        { status := 0, loc := fieldLE j.block 4 4 }) ∧
  (∀ (s : State) (g : Fin 4096) (j : Job), s.dev.alive = true → tblReady s.dev g 0x20 j → bitOf (fieldLE j.block 1 1) 1 = true →
    Does (.ruleWrite g) s fun d =>
      d = (((List.range 8).foldl (fun d k => d.setRule k (fieldLE j.block 4 4) (ruleOf (sliceB j.block 16 80)))
        (tblTaken s.dev j)).mark .tableWrite).tblAnswer j { status := 0, loc := fieldLE j.block 4 4 }) ∧
  (∀ (s : State) (g : Fin 4096) (j : Job), s.dev.alive = true → tblReady s.dev g 0x21 j →
    Does (.ruleRead g) s fun d =>
      d = (tblTaken s.dev j).tblAnswer j { status := 0, loc := fieldLE j.block 4 4
                                           body := some (ruleBytes (s.dev.ruleEnt (fieldLE j.block 2 2) (fieldLE j.block 4 4))) })) ∧
  (∀ (d : Dev) (owner : Option Nat) (b : List Byte),
    (d.tblOn = false → d.tblCommand owner b = ({ status := 0x0A }, d)) ∧
    (d.tblOn = true → fieldLE b 0 1 ∉ tblOpcodes → d.tblCommand owner b = ({ status := 0x08 }, d)) ∧
    (d.tblOn = true → fieldLE b 0 1 ∈ tblOpcodes → 0x10 ≤ fieldLE b 0 1 → owner ≠ none →
      d.tblCommand owner b = ({ status := 0x07 }, d)))

/-- The rows of the pipeline (R105, R109, R126, R135): a record is looked up and leaves the stage after 105 cycles, a learn request is
decided when no command commits, the scrubber reads its next entry, and the two enables lock their units. -/
def Obligations.PipelineRows : Prop :=
  (∀ (s : State) (k : Fin 8) (r : InCls) (e : Dev), s.dev.alive = true → s.dev.before .tableWrite = e →
    ((e.cp k).inflight.find? fun r => !r.malformed && r.look.isNone) = some r → e.leftSetup (PL_CLS_CTRL k) = true →
    Does (.classification k) s fun d =>
      d = (e.lookups k r.words).2.setCp k { ((e.lookups k r.words).2.cp k) with
        inflight := ((e.lookups k r.words).2.cp k).inflight.map fun x =>
          if x = r then { x with look := some (e.lookups k r.words).1 } else x }) ∧
  (∀ (s : State) (e : Dev) (k : Fin 8) (r : InCls) (rest : List InCls) (q : Nat) (l : Look) (f : Frame), s.dev.alive = true →
    s.dev.afterPipes k = e → (e.cp k).inflight = r :: rest → r.at_ + 105 ≤ e.cycle → r.malformed = false → r.look = some l →
    l.queue = some q → e.frame? r.frame = some f → f.stage = .classify → e.flag (GLZ_SEL_EN k) = false →
    Does (.classificationComplete k) s fun d =>
      d = ((e.setCp k { e.cp k with inflight := rest }).inc (PL_CNT_CLS_QUEUED k)).toQueue r.frame f
        { queue := q, cls := l.cls, colour := l.colour, xform := none }) ∧
  (∀ (s : State) (r : LearnReq) (rest : List LearnReq), s.dev.alive = true → s.dev.tbl.nextAt ≤ s.dev.cycle → s.dev.tbl.jobs = [] →
    s.dev.tbl.learn = r :: rest → s.dev.get (SAG_STATUS_STATE (s.dev.get (TBL_LEARN_PORT_OWNER r.port))) ≠ 4 →
    Does .learnCommit s fun d => d = s.dev.learnCommit) ∧
  (∀ (s : State) (x count every : Nat), s.dev.alive = true → s.dev.scrubNext = x → s.dev.flag TBL_CTRL_SCRUB_EN = true → s.dev.tbl.bad = [] →
    s.dev.marks = [] → scrubPorts.getD x (0, 0) = (count, every) → s.dev.tbl.scrub.getD x 0 < count →
    s.dev.tbl.scrub.set x (s.dev.tbl.scrub.getD x 0 + 1) ≠ scrubPorts.map (·.1) →
    s.dev.tbl.scrubAt + every * s.dev.tbl.scrub.getD x 0 ≤ s.dev.cycle →
    Does .scrubRead s fun d =>
      d = s.dev.setTbl fun t => { t with scrub := s.dev.tbl.scrub.set x (s.dev.tbl.scrub.getD x 0 + 1) }) ∧
  (∀ (s : State) (dv : Dev) (p : Path) (k : Fin 8) (data : W32), Reaches s.dev p dv → fieldGet data 0 1 = 1 →
    Does (.classifyEnable p k data) s fun d =>
      d = ((dv.writeFields p (PL_CLS_CTRL k) data).put (PL_CLS_CTRL_ENABLE k) 1).lock (PL_CLS_CTRL k)) ∧
  (∀ (s : State) (dv : Dev) (p : Path) (data : W32), Reaches s.dev p dv → fieldGet data 0 1 = 1 →
    Does (.tableEnable p data) s fun d => d = ((dv.restartScrub.writeFields p TBL_CTRL data).put TBL_CTRL_ENABLE 1).lock TBL_CTRL) ∧
  (∀ (s : State) (e : Fin 256) (i : Nat) (x : Dev) (f : Frame) (p : Nat) (a : Actions), s.dev.alive = true →
    inlineEnd e s.dev = some (i, x) → x.frame? i = some f → f.src = .port p → f.act = some a →
    Does (.inlineTransform e) s fun d => d = x.toQueue i f a)

/-- A learn request decided (R126, R127): a key that is in no table is inserted as a learned entry of the request's port, queue and
owner, stamped with the microsecond counter, counted and reported; a learned entry of the same port only counts. -/
def Obligations.LearnDecision : Prop :=
  (∀ (d : Dev) (r : LearnReq) (rest : List LearnReq) (loc : Bool × Nat) (e : Dev), d.tbl.learn = r :: rest → d.tbl.bad = [] →
    let x := ((d.setTbl fun t => { t with learn := rest, nextAt := d.cycle + 1 }).mark .tableWrite).put TBL_STATUS_LEARN_QDEPTH rest.length
    let ent : EmEntry :=
      { key := r.key, stamp := d.usNow
        ctl := 2 ^ 63 + 2 ^ 62 + 2 ^ 53 + d.get (TBL_LEARN_PORT_QUEUE r.port) * 2 ^ 32 + d.get (TBL_LEARN_PORT_OWNER r.port) * 2 ^ 21 +
          r.port * 2 ^ 10 }
    x.emFind r.key = none → x.emInsertAt ent false = (.done loc, e) →
    d.learnCommit = (e.inc TBL_CNT_LEARN_NEW).learnEvent 1 r.port 0 (d.get (TBL_LEARN_PORT_OWNER r.port)) (Dev.locCode loc) r.key) ∧
  (∀ (d : Dev) (r : LearnReq) (rest : List LearnReq) (loc : Bool × Nat), d.tbl.learn = r :: rest → d.tbl.bad = [] →
    let x := ((d.setTbl fun t => { t with learn := rest, nextAt := d.cycle + 1 }).mark .tableWrite).put TBL_STATUS_LEARN_QDEPTH rest.length
    x.emFind r.key = some loc → (x.locEnt loc).learned = true → (x.locEnt loc).port = r.port →
    d.learnCommit = x.inc TBL_CNT_LEARN_DUP)

/-! ### Queues and the scheduler -/

/-- A frame between classification and the transmitter (R61, R144, R146, R149, R150, R152 to R154, R156, R157, R165 to R167): the meter
gives a frame its colour, but no meter sees a malformed frame that has not returned, and it is decided for admission; an admitted frame
joins its queue, a wrong class counted, or is discarded where it is too long for the port; a spilled frame is fetched back into cells
within the fetch budget and joins its queue; and the sub-port whose transmitter falls free soonest takes its next frame, one with no
eligible frame being skipped. -/
def Obligations.QueueRows : Prop :=
  (∀ (s : State) (i : Nat) (f : Frame) (a : Actions) (e : Dev), s.dev.alive = true → s.dev.frame? i = some f → f.stage = .meter →
    f.act = some a → atAdmission s.dev (Dev.pipeOf f) a.queue = e → e.frame? i = some f → f.ended = false →
    e.streamFilter i f = (.pass none, e) →
    (f.malformed = true →
      Does (.meterAdmit (.frame i)) s fun d =>
        d = (e.admitFrame i { f with recolour := none } a.queue (e.chargeLen f) a.colour).mark (.admission (Dev.pipeOf f))) ∧
    (∀ c m g, f.malformed = false → e.meterFrame i a.queue (e.chargeLen f) a.colour none = (c, m) → m.frame? i = some g →
      g.ended = false →
      Does (.meterAdmit (.frame i)) s fun d =>
        d = (m.admitFrame i { g with recolour := none } a.queue (e.chargeLen f) c).mark (.admission (Dev.pipeOf f)))) ∧
  (∀ (s : State) (i r p : Nat) (f : Frame) (a : Actions) (e : Dev), s.dev.alive = true → s.dev.startDue = e → e.frame? i = some f →
    f.stage = .admitted r → f.act = some a → r ≤ e.cycle → e.portOf a.queue = p →
    ((f.cutThrough = some true ∨ f.ended = true ∧ (f.len ≤ e.maxFrame p ∨ e.rxServed a.queue = true)) →
      let c := if e.classOf a.queue % 8 ≠ a.cls then e.inc TM_CNT_CLASS_MISMATCH else e
      Does (.enqueue i) s fun d =>
        d = ((c.modQueue a.queue fun x => { x with frames := x.frames ++ [i] }).setFrame i { f with stage := .queued }).wakeReceivers
          a.queue) ∧
    (f.cutThrough ≠ some true → f.ended = true → e.maxFrame p < f.len → e.rxServed a.queue = false →
      e.subExists (p / 4) (p % 4) = true → ((e.inc (ETH_CNT_TX_OVERSIZE_DROP (p / 4) (p % 4))).freeFrame i).frame? i = none →
      Does (.enqueue i) s fun d => d = (e.inc (ETH_CNT_TX_OVERSIZE_DROP (p / 4) (p % 4))).freeFrame i)) ∧
  (∀ (s : State) (q : Fin 65536) (i : Nat) (rest : List Nat) (f : Frame), s.dev.alive = true →
    (s.dev.queue q).spill = i :: rest → s.dev.frame? i = some f → (s.dev.queue q).spilling = true → f.stage = .spilled none →
    (s.dev.queue q).occ < Nat.min 1024 (s.dev.queue q).green → cellsOf f.charge ≤ s.dev.freeCells → f.charge * 3 ≤ s.dev.fetchBudget →
    let e : Dev := { s.dev with buf := { s.dev.buf with fetchBudget := s.dev.fetchBudget - f.charge * 3, fetchAt := s.dev.cycle } }
    Does (.spillFetchStart q) s fun d =>
      d = ((e.takeCells (cellsOf f.charge)).modQueue q fun x => { x with occ := x.occ + cellsOf f.charge }).setFrame i
        { f with cells := cellsOf f.charge, stage := .spilled (some s.dev.cycle) }) ∧
  (∀ (s : State) (q : Fin 65536) (i c : Nat) (rest : List Nat) (f : Frame) (a : Actions) (e : Dev), s.dev.alive = true →
    s.dev.startDue = e → (e.queue q).spill = i :: rest → e.frame? i = some f → f.stage = .spilled (some c) → f.act = some a →
    f.ended = true → (f.len ≤ e.maxFrame (e.portOf q) ∨ e.rxServed q = true) →
    Does (.spillFetchComplete q false) s fun d =>
      d = ((e.modQueue q fun x => { x with
        spill := rest, spillCells := x.spillCells - cellsOf f.charge, spilling := !rest.isEmpty }).inc BUF_CNT_FETCHED).joinQueue i f a) ∧
  (∀ (s : State) (k : Fin 8) (p : Nat) (rest : List Nat) (e t : Dev) (found : Bool), s.dev.alive = true →
    (s.dev.before .nodeWrite).startDue = e → e.portOrder k = p :: rest → e.dequeueFor p = (found, t) →
    Does (.dequeueDecision k) s fun d => d = if found then t else Dev.serveFirst rest t)

/-- The indirect commands of the buffer manager (R159 to R161) and BUF_CTRL.ENABLE (R46, R155): the read commands fill the data
registers and nothing else, the write commands set the entry's configuration from them and keep its live fields, and the clear
commands zero an entry's counters, before the counts of their cycle (R149).

The enables of the buffer manager and the traffic manager (R46, R155): written as 1 they lock their registers, and a spill region
that overlaps the key-context region is given up. -/
def Obligations.BufferIndirect : Prop :=
  (∀ (s : State) (dv : Dev) (p : Path) (data : W32) (e : Dev), Reaches s.dev p dv → dv.writeFields p BUF_IND_CMD data = e →
    let i := fieldGet data 0 16
    (fieldGet data 24 3 = 1 → Does (.readQ p data) s fun d => d = e.indFill 0x400080 (Dev.queueWords (e.queue i) (e.flushingQ i))) ∧
    (fieldGet data 24 3 = 2 →
      Does (.writeQ p data) s fun d =>
        d = (e.setQueue i { e.queue i with
          green := Nat.min 786432 (bitsOf (e.indRd 0x400080 0) 0 20), yellow := bitsOf (e.indRd 0x400080 1) 0 20
          red := bitsOf (e.indRd 0x400080 2) 0 20, spillEn := bitOf (e.indRd 0x400080 3) 17
          meterEn := bitOf (e.indRd 0x400080 3) 16, meter := bitsOf (e.indRd 0x400080 3) 0 16
          spillLimit := Nat.min 32768 (bitsOf (e.indRd 0x400080 4) 0 16) }).mark (.queueWrite i)) ∧
    (fieldGet data 24 3 = 3 →
      Does (.readM p data) s fun d => d = e.indFill 0x400080 (Dev.meterWords ((e.meter i).settle e.cycle))) ∧
    (fieldGet data 24 3 = 4 →
      Does (.writeM p data) s fun d =>
        d = (e.setMeter i { (e.meter i).settle e.cycle with
          cir := e.indRd 0x400080 0, pir := e.indRd 0x400080 1, aware := bitOf (e.indRd 0x400080 2) 25
          rfc4115 := bitOf (e.indRd 0x400080 2) 24, cbs := bitsOf (e.indRd 0x400080 2) 0 24
          adj := bitsOf (e.indRd 0x400080 3) 24 6, pbs := bitsOf (e.indRd 0x400080 3) 0 24
          tc := if fieldGet data 16 1 = 1 then bitsOf (e.indRd 0x400080 2) 0 24 * tokenUnit
            else Nat.min ((e.meter i).settle e.cycle).tc (bitsOf (e.indRd 0x400080 2) 0 24 * tokenUnit)
          tp := if fieldGet data 16 1 = 1 then bitsOf (e.indRd 0x400080 3) 0 24 * tokenUnit
            else Nat.min ((e.meter i).settle e.cycle).tp (bitsOf (e.indRd 0x400080 3) 0 24 * tokenUnit) }).mark
          (.meterWrite i)) ∧
    (fieldGet data 24 3 = 5 →
      Does (.clearQCnt p data) s fun d =>
        d = e.modQueue i fun x => { x with admitFrames := 0, admitBytes := 0, dropFrames := 0 }) ∧
    (fieldGet data 24 3 = 6 →
      Does (.clearMCnt p data) s fun d =>
        d = (e.before (.meterUse i)).setMeter i { (e.before (.meterUse i)).meter i with
          greenFrames := 0, yellowFrames := 0, redFrames := 0 })) ∧
  ((∀ (s : State) (dv : Dev) (p : Path) (data : W32), Reaches s.dev p dv → fieldGet data 0 1 = 0 →
    Does (.bufferEnable p data) s fun d => d = (dv.writeFields p BUF_CTRL data).put BUF_CTRL_ENABLE 0) ∧
  (∀ (s : State) (dv : Dev) (p : Path) (data : W32) (e : Dev), Reaches s.dev p dv → fieldGet data 0 1 = 1 →
    (dv.writeFields p BUF_CTRL data).put BUF_CTRL_ENABLE 1 = e → e.leftSetup BUF_CTRL = false →
    Does (.bufferEnable p data) s fun d =>
      d = (if e.get BUF_SPILL_BASE_GIB * 4 ≤ e.get GLZ_KC_BASE_UNIT ∧
              e.get GLZ_KC_BASE_UNIT < e.get BUF_SPILL_BASE_GIB * 4 + e.get BUF_SPILL_SIZE_GIB * 4
            then e.put BUF_SPILL_SIZE_GIB 0 else e).lock BUF_CTRL) ∧
  (∀ (s : State) (dv : Dev) (p : Path) (data : W32) (e : Dev), Reaches s.dev p dv → fieldGet data 0 1 = 1 →
    (dv.writeFields p BUF_CTRL data).put BUF_CTRL_ENABLE 1 = e → e.leftSetup BUF_CTRL = true →
    Does (.bufferEnable p data) s fun d => d = e) ∧
  (∀ (s : State) (dv : Dev) (p : Path) (data : W32), Reaches s.dev p dv → fieldGet data 0 1 = 1 →
    Does (.tmEnable p data) s fun d => d = ((dv.writeFields p TM_CTRL data).put TM_CTRL_ENABLE 1).lock TM_CTRL))

/-- The indirect commands of the traffic manager (R173, R195, R196): node and filter entries are read into the data registers, a filter
write clears BLOCKED, a node write keeps the node's live fields, and a group's owner where a saggar holds it (R366), and is refused as a whole, with TM_IND_STATUS.REFUSED, where it would
move a node that holds frames or names no parent; and a filter's counters are zeroed. -/
def Obligations.SchedulerIndirect : Prop :=
  ∀ (s : State) (dv : Dev) (p : Path) (data : W32) (e : Dev), Reaches s.dev p dv → dv.writeFields p TM_IND_CMD data = e →
    let i := fieldGet data 0 16
    let lvl := fieldGet data 20 2
    let y := Dev.nodeFrom (e.indRd 0x500080) e.cycle lvl (e.node lvl i) (fieldGet data 16 1 == 1)
    let owned := match e.groupSag i with | some sg => if lvl = 2 then { y with owner := sg } else y | none => y
    (fieldGet data 24 3 = 1 → i < Dev.levelCount lvl →
      Does (.readNode p data) s fun d => d = e.indFill 0x500080 (Dev.nodeWords ((e.node lvl i).settle e.cycle))) ∧
    (fieldGet data 24 3 = 2 → i < Dev.levelCount lvl → owned.parent ≠ (e.node lvl i).parent →
      (e.subtreeHolds lvl i = true ∨ Dev.levelCount (lvl - 1) ≤ owned.parent) →
      Does (.writeNode p data) s fun d => d = e.put TM_IND_STATUS_REFUSED 1) ∧
    (fieldGet data 24 3 = 2 → i < Dev.levelCount lvl →
      (owned.parent = (e.node lvl i).parent ∨ e.subtreeHolds lvl i = false ∧ owned.parent < Dev.levelCount (lvl - 1)) →
      Does (.writeNode p data) s fun d => d = ((e.setNode lvl i owned).put TM_IND_STATUS_REFUSED 0).mark .nodeWrite) ∧
    (fieldGet data 24 3 = 3 → i < 4096 →
      Does (.readSf p data) s fun d => d = e.indFill 0x500080 (Dev.filterWords (e.filter i))) ∧
    (fieldGet data 24 3 = 4 → i < 4096 →
      Does (.writeSf p data) s fun d =>
        d = (e.setFilter i { e.filter i with
          valid := bitOf (e.indRd 0x500080 0) 31, blockOversize := bitOf (e.indRd 0x500080 0) 30, blocked := false
          recolourAct := bitOf (e.indRd 0x500080 0) 28, recolour := bitsOf (e.indRd 0x500080 0) 26 2
          gate := bitsOf (e.indRd 0x500080 0) 16 8, maxSdu := bitsOf (e.indRd 0x500080 0) 0 14 }).put TM_IND_STATUS_REFUSED 0) ∧
    (fieldGet data 24 3 = 5 → i < 4096 →
      Does (.clearSfCnt p data) s fun d =>
        d = e.setFilter i { e.filter i with
          passed := 0, early := 0, late := 0, gateDrop := 0, gateRecolour := 0, sduDrop := 0 })

/-! ### Time and gates -/

/-- The rows of a gate (R177 to R181, R193): a change is latched with its change time, no earlier than 10 µs from now and on the grid
of its base, or refused with the pending one kept out; it becomes operational at its time; CANCEL drops it; clearing GATE_EN drops it
too, and setting it takes up the loss state in force; and a list that a loss state held runs again from its boundary. -/
def Obligations.GateRows : Prop :=
  (∀ (s : State) (g : Fin 272), s.dev.alive = true →
    Does (.gateTransition g) s fun d => d = s.dev.syncGate g) ∧
  (∀ (s : State) (dv : Dev) (p : Path) (g : Fin 272) (data : W32) (e : Dev), Reaches s.dev p dv →
    dv.writeFields p (Dev.gateCtrl g) data = e → fieldGet data 7 1 = 1 → e.changeBad g = true →
    Does (.gateConfigChange p g data) s fun d => d = (e.dropChange g).setEvent (Dev.gateFld g 0 16 1)) ∧
  (∀ (s : State) (dv : Dev) (p : Path) (g : Fin 272) (data : W32) (e : Dev) (len cycle ext base : Nat), Reaches s.dev p dv →
    dv.writeFields p (Dev.gateCtrl g) data = e → fieldGet data 7 1 = 1 → e.changeBad g = false →
    e.adminOf g = (len, cycle, ext, base) →
    Does (.gateConfigChange p g data) s fun d =>
      (d.gate g).pending = some ⟨len, cycle, ext, base, Dev.cctOf base cycle (ceilDiv e.time.net (2 ^ 48))⟩ ∧
      d = { e with reg := d.reg, tm := d.tm }) ∧
  (∀ (base cycle now : Nat), 0 < cycle →
    now + 10000 ≤ Dev.cctOf base cycle now ∧ base ≤ Dev.cctOf base cycle now ∧ (Dev.cctOf base cycle now - base) % cycle = 0 ∧
    (base < Dev.cctOf base cycle now → Dev.cctOf base cycle now < now + 10000 + cycle)) ∧
  (∀ (s : State) (dv : Dev) (p : Path) (g : Fin 272) (data : W32) (e : Dev), Reaches s.dev p dv →
    dv.writeFields p (Dev.gateCtrl g) data = e → fieldGet data 8 1 = 1 → (e.gate g).pending ≠ none →
    Does (.gateCancel p g data) s fun d => d = e.dropChange g) ∧
  (∀ (s : State) (dv : Dev) (p : Path) (g : Fin 272) (data : W32) (e : Dev), Reaches s.dev p dv →
    dv.writeFields p (Dev.gateCtrl g) data = e →
    let t := (e.leaveView g (e.cycle + 1)).put (Dev.gateFld g 0 0 1) (fieldGet data 0 1)
    (fieldGet data 0 1 = e.get (Dev.gateFld g 0 0 1) → Does (.gateEnable p g data) s fun d => d = e) ∧
    (fieldGet data 0 1 = 0 → e.get (Dev.gateFld g 0 0 1) = 1 →
      Does (.gateEnable p g data) s fun d => d = (t.setGate g { t.gate g with loss := none }).dropChange g) ∧
    (fieldGet data 0 1 = 1 → e.get (Dev.gateFld g 0 0 1) = 0 →
      Does (.gateEnable p g data) s fun d => d = t.setGate g { t.gate g with loss := t.lossKind.map fun k => (k, none) })) ∧
  (∀ (s : State) (g : Fin 272) (c : GateChange), s.dev.alive = true → (s.dev.gate g).pending = some c → c.cct ≤ s.dev.netNs →
    Does (.gateListSwap g) s fun d =>
      (d.gate g).oper = some (c.len, c.cycle, c.base) ∧ (d.gate g).pending = none ∧ d = { s.dev with reg := d.reg, tm := d.tm }) ∧
  (∀ (s : State) (g : Fin 272) (k : Loss) (r : Nat), s.dev.alive = true → (s.dev.gate g).loss = some (k, some r) → r ≤ s.dev.netNs →
    let e := s.dev.leaveView g s.dev.cycle
    Does (.gateListResume g) s fun d => d = (e.setGate g { e.gate g with loss := none }).syncGate g)

/-- Network time and its sync states (R187, R191 to R193): STEP and OFFSET move the counter, KICK enters LOCKED, and the two losses
follow in order, LOCKED to HOLDOVER and HOLDOVER to EXPIRED.

The pulses (R190, R191): PPS_OUT rises when the time passes a whole second plus its offset and falls WIDTH_US later, and the chosen
edge of PPS_IN, of a pulse of 100 ns or more, latches network time, with an overrun noted where the last one was not taken. -/
def Obligations.SyncAndPulses : Prop :=
  ((∀ (s : State) (dv : Dev) (p : Path) (data : W32), Reaches s.dev p dv → fieldGet data 0 1 = 1 →
    Does (.timeStep p data) s fun d => d = dv.jumpTo (stepTime dv)) ∧
  (∀ (s : State) (dv : Dev) (p : Path) (data : W32), Reaches s.dev p dv → fieldGet data 1 1 = 1 →
    Does (.timeOffset p data) s fun d => d = dv.jumpTo (offsetTime dv dv.time.net)) ∧
  (∀ (d : Dev) (n : Nat), (d.jumpTo n).time.net = n ∧ (d.jumpTo n).cycle = d.cycle) ∧
  (∀ (s : State) (dv : Dev) (p : Path) (data : W32) (e : Dev), Reaches s.dev p dv →
    (dv.before .syncExpired).writeFields p TIME_SYNC data = e → fieldGet data 31 1 = 1 → e.get TIME_SYNC_STATE = 1 →
    Does (.timeKick p data) s fun d => d = { e.put TIME_SYNC_STATE 1 with time := { e.time with since := e.cycle } }) ∧
  (∀ (s : State) (dv : Dev) (p : Path) (data : W32) (e : Dev), Reaches s.dev p dv →
    (dv.before .syncExpired).writeFields p TIME_SYNC data = e → fieldGet data 31 1 = 1 → e.get TIME_SYNC_STATE ≠ 1 →
    Does (.timeKick p data) s fun d =>
      d = (({ e.put TIME_SYNC_STATE 1 with time := { e.time with since := e.cycle } }).setEvent TIME_EVENT_LOCKED).applyLoss
        e.cycle) ∧
  (∀ (s : State) (dv : Dev) (p : Path) (data : W32) (e : Dev), Reaches s.dev p dv → dv.writeFields p TIME_SYNC data = e →
    fieldGet data 30 1 = 1 → e.get TIME_SYNC_STATE = 1 →
    Does (.forceHoldover p data) s fun d => d = e.enterHoldover) ∧
  (∀ (s : State), s.dev.alive = true → s.dev.get TIME_SYNC_STATE = 1 →
    s.dev.time.since + s.dev.get TIME_SYNC_TIMEOUT_S * 3000000000 ≤ s.dev.cycle →
    Does .syncTimeout s fun d => d = s.dev.enterHoldover.mark .syncExpired) ∧
  (∀ (s : State), s.dev.alive = true → s.dev.get TIME_SYNC_STATE = 2 →
    s.dev.time.since + s.dev.get TIME_HOLD_HOLDOVER_LIMIT * 3000000000 ≤ s.dev.cycle →
    Does .holdoverExpiry s fun d =>
      d = (((s.dev.put TIME_SYNC_STATE 3).setEvent TIME_EVENT_EXPIRED).applyLoss s.dev.cycle).mark .syncExpired) ∧
  (∀ (s : State) (dv : Dev) (p : Path) (data : W32), Reaches s.dev p dv →
    Does (.gateOnLossWrite p data) s fun d =>
      d = ((dv.writeFields p TIME_HOLD data).put TIME_HOLD_GATE_ON_LOSS (fieldGet data 30 2)).applyLoss
        ((dv.writeFields p TIME_HOLD data).cycle + 1))) ∧
  ((∀ (s : State), s.dev.alive = true → s.dev.flag TIME_PPS_OUT_EN = true →
    let x := (s.dev.netNs : Int) - signedOf 32 (s.dev.get TIME_PPS_OUT_OFS_NS) + 4000000000
    (x / 1000000000).toNat ≠ s.dev.time.ppsLast → x % 1000000000 < 3 →
    Does .ppsOutPulse s fun d =>
      d = { s.dev with time := { s.dev.time with
        ppsOut := s.dev.flag BOOT_STATUS_GATE_OPEN, ppsLast := (x / 1000000000).toNat
        ppsFall := s.dev.cycle + s.dev.get TIME_PPS_OUT_WIDTH_US * 3000 } }) ∧
  (∀ (s : State), s.dev.alive = true → s.dev.time.ppsOut = true → s.dev.time.ppsFall ≤ s.dev.cycle →
    Does .ppsOutFall s fun d => d = { s.dev with time := { s.dev.time with ppsOut := false } }) ∧
  (∀ (s : State) (fall : Bool) (ns : Nat), s.dev.alive = true → ns < 100 → Does (.ppsInEdge (fall, ns)) s fun d => d = s.dev) ∧
  (∀ (s : State) (fall : Bool) (ns : Nat), s.dev.alive = true → s.dev.flag TIME_PPS_IN_CFG_EN = true →
    s.dev.flag TIME_PPS_IN_CFG_FALLING = fall → 100 ≤ ns →
    Does (.ppsInEdge (fall, ns)) s fun d =>
      d.time = { s.dev.time with ppsIn := s.dev.time.net } ∧ d.flag TIME_EVENT_PPS_IN = true ∧
      (s.dev.flag TIME_EVENT_PPS_IN = true → d.flag TIME_EVENT_PPS_IN_OVERRUN = true) ∧
      (∀ a, a ≠ TIME_EVENT → d.rd a = s.dev.rd a) ∧ d = { s.dev with reg := d.reg, time := d.time }))

/-! ### Hardware channels and placement -/

/-- A message between two threads (R208, R217 to R219): it leaves with a credit, oldest first, in its core's slot of the kiln port where
it leaves its kiln, arrives in the receive FIFO behind what is there, in its core's slot where it enters a kiln, is discarded where the kiln it
left by has since fired, and its credit comes back, or is discarded in the same way. -/
def Obligations.ChannelTraffic : Prop :=
  (∀ (s : State) (c : Fin 8192) (x : Channel) (m : W64) (q : List W64) (e : Dev), s.dev.alive = true → s.dev.channel c = some x →
    s.dev.txFifo x.srcT x.srcEp = m :: q → s.dev.before (.sendFull x.srcT x.srcEp) = e → 0 < x.credits →
    e.leavesKiln x.srcT x.dstT = none →
    Does (.channelMessageLeave c) s fun d =>
      d = ((e.setTx x.srcT x.srcEp q).setChannel c (some { x with
        credits := x.credits - 1, msgs := x.msgs ++ [{ msg := m, kiln := none, at_ := e.cycle }], since := none })).serveSend c) ∧
  (∀ (s : State) (c : Fin 8192) (x : Channel) (m : W64) (q : List W64) (k : Nat × Nat) (e : Dev), s.dev.alive = true →
    s.dev.channel c = some x → s.dev.txFifo x.srcT x.srcEp = m :: q → s.dev.before (.sendFull x.srcT x.srcEp) = e → 0 < x.credits →
    e.leavesKiln x.srcT x.dstT = some k → e.kilnMute (Dev.kilnOf x.srcT) = false →
    e.portFor (Dev.coreOf x.srcT) (x.since.getD e.cycle) = true →
    let u := e.portSent (Dev.coreOf x.srcT)
    Does (.channelMessageLeave c) s fun d =>
      d = ((u.setTx x.srcT x.srcEp q).setChannel c (some { x with
        credits := x.credits - 1, msgs := x.msgs ++ [{ msg := m, kiln := some k, at_ := e.cycle }], since := none })).serveSend c) ∧
  (∀ (s : State) (c : Fin 8192) (x : Channel) (m : Flight) (ms : List Flight) (e : Dev), s.dev.alive = true →
    s.dev.channel c = some x → x.msgs = m :: ms → (Dev.isMgmt x.dstT = true ∨ s.dev.kilnHeld (Dev.kilnOf x.dstT) = false) →
    (m.kiln = none ∨ s.dev.quadCut x.dstT = false) → s.dev.before (.recvEmpty x.dstT x.dstEp) = e →
    (∀ k n, m.kiln = some (k, n) → e.firing (.kiln k) = n) →
    let core := Dev.coreOf x.dstT
    let enters := !Dev.isMgmt x.dstT && (Dev.isMgmt x.srcT || Dev.kilnOf x.srcT != Dev.kilnOf x.dstT)
    (enters = true → e.portSlot core = true ∧ (e.coreSt core).portIn ≤ e.cycle) →
    let u := if enters then e.setCoreSt core { e.coreSt core with portIn := e.cycle + 1 } else e
    Does (.channelMessageArrive c) s fun d =>
      d = ((u.setChannel c (some { x with msgs := ms })).setRx x.dstT x.dstEp (u.rxFifo x.dstT x.dstEp ++ [m.msg])).serveRecv c) ∧
  (∀ (s : State) (c : Fin 8192) (x : Channel) (m : Flight) (ms : List Flight) (k n : Nat) (e : Dev), s.dev.alive = true →
    s.dev.channel c = some x → x.msgs = m :: ms → (Dev.isMgmt x.dstT = true ∨ s.dev.kilnHeld (Dev.kilnOf x.dstT) = false) →
    m.kiln = some (k, n) → s.dev.quadCut x.dstT = false → s.dev.before (.recvEmpty x.dstT x.dstEp) = e → e.firing (.kiln k) ≠ n →
    Does (.channelMessageArrive c) s fun d => d = (e.setChannel c (some { x with msgs := ms })).lateDiscard (.kiln k)) ∧
  (∀ (s : State) (c : Fin 8192) (x : Channel) (m : Credit) (ms : List Credit), s.dev.alive = true → s.dev.channel c = some x →
    x.creds = m :: ms → (∀ k n, m.kiln = some (k, n) → s.dev.kilnCut k = false ∧ s.dev.firing (.kiln k) = n) →
    Does (.creditArrive c) s fun d => d = s.dev.setChannel c (some { x with creds := ms, credits := x.credits + 1 })) ∧
  (∀ (s : State) (c : Fin 8192) (x : Channel) (m : Credit) (ms : List Credit) (k n : Nat), s.dev.alive = true →
    s.dev.channel c = some x → x.creds = m :: ms → m.kiln = some (k, n) → s.dev.kilnCut k = false → s.dev.firing (.kiln k) ≠ n →
    Does (.creditArrive c) s fun d => d = (s.dev.setChannel c (some { x with creds := ms })).lateDiscard (.kiln k))

/-- The channel commands (R221 to R223): a bind of two released threads and two free endpoints makes a channel with 8 credits and
empty FIFOs, an unbind closes the send side and is answered once nothing is in flight, and a read returns the entry. -/
def Obligations.ChannelCommands : Prop :=
  (∀ (s : State) (g : Fin 4096) (j : Job) (e : Dev), s.dev.alive = true → coreReady s.dev g 0x40 0 8192 j → coreTaken s.dev j = e →
    bitsOf (fieldLE j.block 16 4) 27 3 = 0 → bitsOf (fieldLE j.block 16 4) 2 14 = 0 →
    bitsOf (fieldLE j.block 20 4) 27 5 = 0 → bitsOf (fieldLE j.block 20 4) 2 14 = 0 → bitsOf (fieldLE j.block 24 4) 11 21 = 0 →
    bitsOf (fieldLE j.block 28 4) 16 16 = 0 → bitsOf (fieldLE j.block 28 4) 4 4 = 0 →
    let src := bitsOf (fieldLE j.block 16 4) 16 11
    let dst := bitsOf (fieldLE j.block 20 4) 16 11
    let i := fieldLE j.block 4 4
    let sep := bitsOf (fieldLE j.block 16 4) 0 2
    let dep := bitsOf (fieldLE j.block 20 4) 0 2
    src ≤ 1025 → dst ≤ 1025 → e.released src = true → e.released dst = true → e.channel i = none → e.txChan src sep = none →
    e.rxChan dst dep = none →
    Does (.chanBind g) s fun d =>
      d = (((e.setChannel i (some {
        closed := false, srcT := src, srcEp := sep, dstT := dst, dstEp := dep
        owner := bitsOf (fieldLE j.block 24 4) 0 11, credits := 8, msgs := [], creds := [], unbind := [], since := none })).setTx
          src sep []).setRx dst dep []).coreAnswer j 0x00 []) ∧
  (∀ (s : State) (g : Fin 4096) (j : Job) (x : Channel), s.dev.alive = true → coreReady s.dev g 0x41 1 8192 j →
    (coreTaken s.dev j).channel (fieldLE j.block 4 4) = some x →
    (s.dev.thread x.srcT).wait = .run →
    Does (.chanUnbind g) s fun d =>
      d = (coreTaken s.dev j).setChannel (fieldLE j.block 4 4) (some { x with
        closed := true, unbind := x.unbind ++ [(bitOf (fieldLE j.block 1 1) 0, j)] })) ∧
  (∀ (s : State) (c : Fin 8192) (x : Channel) (j : Job) (force : Bool), s.dev.alive = true → s.dev.channel c = some x →
    x.msgs = [] → x.creds = [] → x.unbind = [(force, j)] → s.dev.txFifo x.srcT x.srcEp = [] → s.dev.rxFifo x.dstT x.dstEp = [] →
    Does (.chanUnbindComplete c) s fun d =>
      d = ((s.dev.setChannel c (some { x with unbind := [] })).unbindNow c { x with unbind := [] }).coreAnswer j 0x00 []) ∧
  (∀ (s : State) (g : Fin 4096) (j : Job) (e : Dev), s.dev.alive = true → coreReady s.dev g 0x42 0 8192 j → coreTaken s.dev j = e →
    Does (.chanRead g) s fun d => d = e.coreAnswer j 0x00 (e.channelBytes (e.channel (fieldLE j.block 4 4))))

/-- The placement commands and the core statistics (R221, R230, R232, R233): an invalid entry that PLACE_SET makes valid bumps, takes
its thread and owner and is answered, at once or when its held bump is done (R36), one that names another thread starts a move behind a marker, as PLACE_CLEAR of a valid entry does,
and the reads and clears act on the entry's counters. -/
def Obligations.PlacementCommands : Prop :=
  (∀ (s : State) (g : Fin 4096) (j : Job) (e : Dev), s.dev.alive = true → coreReady s.dev g 0x50 0 65536 j → coreTaken s.dev j = e →
    let i := fieldLE j.block 4 4
    let t := bitsOf (fieldLE j.block 16 4) 0 10
    let o := bitsOf (fieldLE j.block 20 4) 0 11
    bitsOf (fieldLE j.block 16 4) 10 20 = 0 → bitsOf (fieldLE j.block 20 4) 11 21 = 0 →
    bitsOf (fieldLE j.block 24 4) 24 8 = 0 → bitsOf (fieldLE j.block 28 4) 13 19 = 0 →
    bitOf (fieldLE j.block 16 4) 31 = true → e.released t = true → (e.place i).next = none →
    (∀ b, (e.place i).valid = false → (e.place i).held = [] →
      (e.setPlace i { e.place i with next := some (true, t, o), since := e.cycle, ended := true }).bumpOwner (.place i) = b →
      b.bumpPending (.place i) = false →
      Does (.placeSet g) s fun d =>
        d = (b.setPlace i { b.place i with
          valid := true, thread := t, owner := o, next := none, ended := false, held := [] }).coreAnswer j 0x00 []) ∧
    (∀ b, (e.place i).valid = false →
      (e.setPlace i { e.place i with next := some (true, t, o), since := e.cycle, ended := true }).bumpOwner (.place i) = b →
      b.bumpPending (.place i) = true →
      Does (.placeSet g) s fun d => d = b.modPlace i fun x => { x with waits := x.waits ++ [j] }) ∧
    ((e.place i).valid = true → (e.place i).thread ≠ t →
      Does (.placeSet g) s fun d => d = (e.startMove i true t o).coreAnswer j 0x00 [])) ∧
  (∀ (s : State) (g : Fin 4096) (j : Job) (e : Dev), s.dev.alive = true → coreReady s.dev g 0x51 0 65536 j → coreTaken s.dev j = e →
    (e.place (fieldLE j.block 4 4)).next = none →
    (e.place (fieldLE j.block 4 4)).valid = true →
    Does (.placeClear g) s fun d => d = (e.startMove (fieldLE j.block 4 4) false 0 0).coreAnswer j 0x00 []) ∧
  (∀ (s : State) (g : Fin 4096) (j : Job) (e : Dev), s.dev.alive = true → coreReady s.dev g 0x52 0 65536 j → coreTaken s.dev j = e →
    Does (.placeRead g) s fun d => d = e.coreAnswer j 0x00 (Dev.placeBytes (e.place (fieldLE j.block 4 4)))) ∧
  (∀ (s : State) (g : Fin 4096) (j : Job) (e : Dev), s.dev.alive = true → coreReady s.dev g 0x53 0 65536 j → coreTaken s.dev j = e →
    Does (.placeClearCnt g) s fun d =>
      d = (e.modPlace (fieldLE j.block 4 4) fun x => { x with placed := 0, returned := 0, late := 0, holdLimit := 0 }).coreAnswer j
        0x00 []) ∧
  (∀ (s : State) (g : Fin 4096) (j : Job) (e : Dev), s.dev.alive = true → coreReady s.dev g 0x60 0 (2 ^ 32) j → coreTaken s.dev j = e →
    Does (.coreStats g) s fun d =>
      d = e.coreAnswer j 0x00 ((List.range 7).flatMap fun i => leBytes 8 (tabGet (fun _ => 0) s.dev.core.stats i))) ∧
  (∀ (s : State) (g : Fin 4096) (j : Job) (e : Dev), s.dev.alive = true → coreReady s.dev g 0x61 0 (2 ^ 32) j → coreTaken s.dev j = e →
    Does (.coreStatsClear g) s fun d => d = ({ e with core := { e.core with stats := [] } }).coreAnswer j 0x00 [])

/-- Frames and markers between the pipelines and the threads (R225, R227, R228, R230): an ended placed frame and a punted one go to
the inbox, a marker follows the frames of before it, a returned handle that names no frame only counts, a hold ends after 1 ms and a
frame kept for a second is given up. -/
def Obligations.PlacementRows : Prop :=
  (∀ (s : State) (q : Fin 65536) (i t : Nat) (f : Frame), s.dev.alive = true → (s.dev.place q).toward = [(i, t)] →
    s.dev.frame? i = some f → f.stage = .placed → f.ended = true → (s.dev.place q).pending = false →
    Does (.placementDelivery q) s fun d =>
      d = ((s.dev.setPlace q { s.dev.place q with toward := [] }).deliverTo t i f (some q)).servePkrecv t) ∧
  (∀ (s : State) (q : Fin 65536) (m : Marker), s.dev.alive = true →
    (s.dev.core.markers.find? fun m => m.entry == q.val && !m.delivered) = some m → m.after = [] →
    ((s.dev.place q).next = none ∨ (s.dev.place q).since < s.dev.cycle) →
    (s.dev.thread m.thread).inbox.length < 64 →
    let e : Dev := { s.dev with core := { s.dev.core with
      markers := s.dev.core.markers.map fun x => if x = m then { x with delivered := true } else x } }
    e.released m.thread = true →
    Does (.drainMarkerDelivery q) s fun d =>
      d = (e.modThread m.thread fun x => { x with inbox := x.inbox ++ [Dev.mkHandle m.firing true false 0 q] }).servePkrecv m.thread) ∧
  (∀ (s : State) (t : Fin 1026) (h v : W64) (q : List (W64 × W64)), s.dev.alive = true → (s.dev.thread t).retq = (h, v) :: q →
    bitOf h.toNat 39 = false →
    Does (.packetReturn t) s fun d =>
      d = ((s.dev.modThread t fun x => { x with retq := q }).servePksend t).returnFrame t h.toNat v.toNat) ∧
  (∀ (d : Dev) (t h v : Nat), (d.core.given.find? fun g => g.thread == t && g.cell == bitsOf h 0 20) = none →
    d.returnFrame t h v = d.stat Dev.statBadHandle 1) ∧
  (∀ (s : State) (q : Fin 65536) (v : Bool) (t o : Nat), s.dev.alive = true → (s.dev.place q).next = some (v, t, o) →
    (s.dev.place q).ended = false → (s.dev.place q).since + 3000000 ≤ s.dev.cycle →
    Does (.migrationHoldTimeout q) s fun d => d = s.dev.endHold q true) ∧
  (∀ (s : State) (t : Fin 1024) (c : Fin 786432) (g : Given), s.dev.alive = true →
    (s.dev.core.given.find? fun g => g.thread == t.val && g.cell == c.val) = some g → g.at_ + 3000000000 ≤ s.dev.cycle →
    Does (.placedFrameAbandon t c) s fun d =>
      d = ((s.dev.setCore fun x => { x with given := x.given.filter (· != g) }).stat Dev.statAbandon 1).freeFrame g.frame) ∧
  (∀ (s : State) (k : Fin 8) (i : Nat) (f : Frame), s.dev.alive = true → (s.dev.cp k).punt = [i] → s.dev.frame? i = some f →
    f.stage = .punt → f.ended = true → (s.dev.thread (s.dev.get (PL_PUNT_TARGET_THREAD k))).inbox.length < 64 →
    Does (.puntDeliver k) s fun d =>
      d = (((s.dev.setCp k { s.dev.cp k with punt := [] }).setFrame i { f with stage := .placed }).deliverTo
        (s.dev.get (PL_PUNT_TARGET_THREAD k)) i f none).servePkrecv (s.dev.get (PL_PUNT_TARGET_THREAD k)))

/-! ### Threads -/

/-- Instructions of the standard extensions (R199, R205): an integer operation leaves its result in x[rd], which x0 discards, a taken
branch goes to its target, a load brings its value and a store leaves at its address, each with an entry of the miss buffer where its
line is in no L1 (R209), and ECALL from M mode takes its exception with the pc saved. -/
def Obligations.RvInstructions : Prop :=
  ∀ (s : State) (t : Fin 1026) (c : CacheAt) (x : Aux) (w raw len : Nat) (e : Dev), s.dev.alive = true →
    Issues s.dev t .std w raw len e → (∀ l2, c ≠ .noFetch l2) → e.lacksEntry t w c = false →
    (∀ v, rvOp w = 0x13 → aluImm (rvF3 w) (bitsOf w 20 12) ((e.thread t).rd (rvRs1 w)) = some v →
      Does (.rvInstruction t c x) s fun d => d = e.finX t len (rvRd w) v 1) ∧
    (∀ v, rvOp w = 0x33 → aluOp (rvF7 w) (rvF3 w) ((e.thread t).rd (rvRs1 w)) ((e.thread t).rd (rvRs2 w)) = some v →
      Does (.rvInstruction t c x) s fun d => d = e.finX t len (rvRd w) v (Dev.opLatency w)) ∧
    (rvOp w = 0x63 → branchTaken (rvF3 w) ((e.thread t).rd (rvRs1 w)) ((e.thread t).rd (rvRs2 w)) = some true →
      Does (.rvInstruction t c x) s fun d =>
        d = e.modThread t fun y => { y with
          pc := (e.thread t).pc + immB w, retired := y.retired + 1, fetchAt := e.cycle + Dev.coreCy t 3 }) ∧
    (rvOp w = 0x63 → branchTaken (rvF3 w) ((e.thread t).rd (rvRs1 w)) ((e.thread t).rd (rvRs2 w)) = some false →
      Does (.rvInstruction t c x) s fun d => d = e.retireIns t len) ∧
    (∀ va f v pa, rvOp w = 0x03 → rvF3 w ≠ 7 → va = ((e.thread t).rd (rvRs1 w) + immI w).toNat →
      e.vload t .load false va (2 ^ (rvF3 w % 4)) = (f, .val v pa) →
      Does (.rvInstruction t c x) s fun d =>
        d = Dev.outstanding e t c .load false va pa (rvRd w) (f.finX t len (rvRd w) (Dev.loadVal (rvF3 w) v) 4)) ∧
    (∀ va f v pa, rvOp w = 0x23 → rvF3 w ≤ 3 → va = ((e.thread t).rd (rvRs1 w) + immS w).toNat →
      e.vstoreAt t false va (2 ^ rvF3 w) = (f, .val v pa) →
      Does (.rvInstruction t c x) s fun d =>
        d = (Dev.outstanding e t c .store true va pa 0 (f.retireIns t len)).physStore t (Dev.orderCore (Dev.requester t)) pa
          (2 ^ rvF3 w) ((e.thread t).rd (rvRs2 w)).toNat x) ∧
    (w = 0x73 → (e.thread t).mode = .m →
      Does (.rvInstruction t c x) s fun d =>
        (d.thread t).csr 0x341 = (e.thread t).pc.toNat / 2 * 2 ∧ (d.thread t).csr 0x342 = 11 ∧ (d.thread t).mode = .m ∧
        (d.thread t).pc = BitVec.ofNat 64 ((e.thread t).csr 0x305 / 4 * 4))

/-- The floating-point rows and waits (R201, R208, R209, R212, R252, R254): an addition and its flags, an illegal instruction while
mstatus.FS is off or the rounding mode is reserved, a wait for an interrupt, its end, and the fill of an outstanding line (R208, R209,
R248): its entry of the miss buffer is free again, the line of a request through the kiln port coming in the core's slot; one with an
uncorrectable error is poisoned and recorded, and the load that waits for it faults; a line for a kiln that has bumped since is
discarded (R39, R475). -/
def Obligations.FpAndWaits : Prop :=
  (∀ (s : State) (t : Fin 1026) (c : CacheAt) (x : Aux) (w raw len : Nat) (e : Dev), s.dev.alive = true →
    Issues s.dev t .fp w raw len e → (∀ l2, c ≠ .noFetch l2) → e.lacksEntry t w c = false →
    (∀ rm, (e.thread t).fs ≠ 0 → rvOp w = 0x53 → rvF7 w = 0 → Dev.roundMode (e.thread t) w = some rm →
      Does (.fpInstruction t c x) s fun d =>
        d = e.finFlagsF t len (rvRd w) f32 (f32.addV (Dev.fctl (e.thread t) rm)
          (Dev.fval f32 (Dev.fctl (e.thread t) rm) ((e.thread t).frd (rvRs1 w)))
          (Dev.fval f32 (Dev.fctl (e.thread t) rm) ((e.thread t).frd (rvRs2 w)))) 4) ∧
    ((e.thread t).fs = 0 → Does (.fpInstruction t c x) s fun d => d = e.raise t ⟨2, raw⟩) ∧
    ((e.thread t).fs ≠ 0 → rvOp w = 0x53 → rvF7 w = 0 → Dev.roundMode (e.thread t) w = none →
      Does (.fpInstruction t c x) s fun d => d = e.raise t ⟨2, raw⟩)) ∧
  (∀ (s : State) (t : Fin 1026) (w raw len : Nat) (e : Dev), s.dev.alive = true → Issues s.dev t .wfi w raw len e →
    (e.thread t).mode = .m →
    Does (.wfi t) s fun d =>
      d = if Dev.pendEn (e.thread t) ≠ 0 then e.retireIns t len else e.modThread t fun y => { y with wait := .wfi }) ∧
  (∀ (s : State) (t : Fin 1026), s.dev.alive = true → s.dev.runs t = true → Dev.pendEn (s.dev.thread t) ≠ 0 →
    (s.dev.thread t).wait = .wfi →
    Does (.interruptWake t) s fun d =>
      d = s.dev.modThread t fun y => { y with pc := y.pc + 4, retired := y.retired + 1, wait := .run }) ∧
  (∀ (s : State) (t : Fin 1026) (i : Fin 32) (m : Miss) (uncorr : Bool) (v : Option Nat), s.dev.alive = true →
    (s.dev.thread t).missed[i.val]? = some m → m.entered = true →
    let c := Dev.coreOf t
    (m.port = true → m.sent = true ∧ s.dev.portSlot c = true ∧ (s.dev.coreSt c).portIn ≤ s.dev.cycle) →
    let e := if m.port then s.dev.setCoreSt c { s.dev.coreSt c with portIn := s.dev.cycle + 1 } else s.dev
    let e := e.modThread t fun y => { y with missed := y.missed.eraseIdx i.val }
    let e := match v with | some l => e.writeBack t l | none => e
    (uncorr = false ∨ hbmSize ≤ 64 * m.line → Does (.lineFill t (i, uncorr, v)) s fun d => d = e) ∧
    (uncorr = true → 64 * m.line < hbmSize → (m.fetch = true ∨ m.store = true) →
      Does (.lineFill t (i, uncorr, v)) s fun d => d = (e.poisonLines [m.line]).consumed (64 * m.line)) ∧
    (uncorr = true → 64 * m.line < hbmSize → m.fetch = false → m.store = false → s.dev.runs t = true →
      Does (.lineFill t (i, uncorr, v)) s fun d => d = ((e.poisonLines [m.line]).consumed (64 * m.line)).missFault t m)) ∧
  (∀ (s : State) (t : Fin 1026) (i : Fin 32) (uncorr : Bool) (v : Option Nat) (x : Nat × Nat × Nat), s.dev.alive = true →
    (s.dev.thread t).missed = [] → (s.dev.core.strays.filter fun x => x.1 == t.val)[i.val]? = some x →
    s.dev.firing (.kiln x.2.1) ≠ x.2.2 →
    Does (.lineFill t (i, uncorr, v)) s fun d =>
      d = (s.dev.setCore fun u => { u with strays := u.strays.erase x }).lateDiscard (.kiln x.2.1))

/-- The thread instructions (R210 to R212): TSTART enables a disabled thread of the core in M mode at the address given, TSTOP
disables one, TWAIT and TPAUSE go on at once or wait, and they wake when their condition comes. -/
def Obligations.ThreadInstructions : Prop :=
  (∀ (s : State) (t : Fin 1024) (w raw : Nat) (e : Dev) (u : Nat), s.dev.alive = true → Issues s.dev t .tstart w raw 4 e →
    rvF7 w = 0 → rvRd w = 0 → (e.thread t).mode = .m → t.val / 8 * 8 + ((e.thread t).rd (rvRs1 w)).toNat % 8 = u → u ≠ t.val →
    ((e.retireIns t 4).thread u).enabled = false →
    Does (.tstart (t.castLE (by decide))) s fun d =>
      d = (e.retireIns t 4).modThread u fun y => { y with
        enabled := true, pc := (e.thread t).rd (rvRs2 w), mode := .m, wait := .run }) ∧
  (∀ (s : State) (t : Fin 1024) (w raw : Nat) (e : Dev) (u : Nat), s.dev.alive = true → Issues s.dev t .tstop w raw 4 e →
    rvF7 w = 0 → rvRd w = 0 → rvRs2 w = 0 → (e.thread t).mode = .m →
    t.val / 8 * 8 + ((e.thread t).rd (rvRs1 w)).toNat % 8 = u → ((e.retireIns t 4).thread u).enabled = true →
    Does (.tstop (t.castLE (by decide))) s fun d =>
      (d.thread u).enabled = false ∧ (d.thread u).wait = .run ∧ (d.thread u).pc = ((e.retireIns t 4).thread u).pc ∧
      ∀ v, v ≠ u → d.thread v = (e.retireIns t 4).thread v) ∧
  (∀ (s : State) (t : Fin 1026) (w raw : Nat) (e : Dev), s.dev.alive = true → Issues s.dev t .twait w raw 4 e →
    rvF7 w = 0 → rvRd w = 0 → rvRs2 w = 0 → Dev.pendEn (e.thread t) = 0 →
    Does (.twait t) s fun d =>
      d = if Dev.twaitHit (e.thread t) (((e.thread t).rd (rvRs1 w)).toNat % 32) = true then e.retireIns t 4
          else e.modThread t fun y => { y with wait := .twait (((e.thread t).rd (rvRs1 w)).toNat % 32) }) ∧
  (∀ (s : State) (t : Fin 1026) (m : Nat), s.dev.alive = true → (s.dev.thread t).wait = .twait m → s.dev.runs t = true →
    Dev.twaitHit (s.dev.thread t) m = true →
    Does (.twaitWake t) s fun d => d = s.dev.retireIns t 4) ∧
  (∀ (s : State) (t : Fin 1026) (w raw : Nat) (e : Dev), s.dev.alive = true → Issues s.dev t .tpause w raw 4 e →
    rvF7 w = 0 → rvRd w = 0 → rvRs2 w = 0 → Dev.pendEn (e.thread t) = 0 → (e.thread t).rd (rvRs1 w) ≠ 0 →
    Does (.tpause t) s fun d =>
      d = e.modThread t fun y => { y with
        wait := .pause (e.cycle + Dev.coreCy t (Nat.min ((e.thread t).rd (rvRs1 w)).toNat 65535 + 1)) }) ∧
  (∀ (s : State) (t : Fin 1026) (u : Nat), s.dev.alive = true → (s.dev.thread t).wait = .pause u → s.dev.runs t = true →
    u ≤ s.dev.cycle →
    Does (.tpauseExpiry t) s fun d => d = s.dev.retireIns t 4)

/-- The channel and packet instructions where they complete (R214 to R217, R227): a message into a send FIFO with room, a message out of
a receive FIFO with its credit on the way back, a handle out of the inbox, or 0 from an empty one, and a handle with its verdict into
the return queue.

Where the channel and packet instructions block, and where they take CHANNEL_UNBOUND (R214 to R216): a full send FIFO, an empty
receive FIFO or inbox, a full return queue; an endpoint with no channel, or a closed one for a send. -/
def Obligations.ChannelInstructions : Prop :=
  ((∀ (s : State) (t : Fin 1026) (w raw : Nat) (e : Dev) (c : Nat) (x : Channel), s.dev.alive = true → Issues s.dev t .chsend w raw 4 e →
    rvF7 w < 4 → rvRs1 w = 0 → rvRd w = 0 → e.txChan t (rvF7 w) = some (c, x) → x.closed = false → (e.txFifo t (rvF7 w)).length < 8 →
    Does (.chsend t) s fun d =>
      d = (e.setTx t (rvF7 w) (e.txFifo t (rvF7 w) ++ [(e.thread t).rd (rvRs2 w)])).retireIns t 4) ∧
  (∀ (s : State) (t : Fin 1026) (w raw : Nat) (e : Dev) (c : Nat) (x : Channel), s.dev.alive = true → Issues s.dev t .chsendnb w raw 4 e →
    rvF7 w < 4 → rvRs1 w = 0 → e.txChan t (rvF7 w) = some (c, x) → x.closed = false → (e.txFifo t (rvF7 w)).length < 8 →
    Does (.chsendnb t) s fun d =>
      d = ((e.setTx t (rvF7 w) (e.txFifo t (rvF7 w) ++ [(e.thread t).rd (rvRs2 w)])).setLast t 0).finX t 4 (rvRd w) 0 1) ∧
  (∀ (s : State) (t : Fin 1026) (w raw : Nat) (e : Dev) (c : Nat) (x : Channel) (m : W64) (q : List W64), s.dev.alive = true →
    rvF7 w < 4 → rvRs1 w = 0 → rvRs2 w = 0 → e.rxChan t (rvF7 w) = some (c, x) → e.rxFifo x.dstT x.dstEp = m :: q →
    let f := (e.setRx x.dstT x.dstEp q).setChannel c (some { x with creds := x.creds ++ [⟨e.cycle, e.creditTag x⟩] })
    (Issues s.dev t .chrecv w raw 4 e → Does (.chrecv t) s fun d => d = f.finX t 4 (rvRd w) m 1) ∧
    (Issues s.dev t .chrecvnb w raw 4 e → Does (.chrecvnb t) s fun d => d = (f.setLast t 0).finX t 4 (rvRd w) m 1)) ∧
  (∀ (s : State) (t : Fin 1026) (w raw : Nat) (e : Dev) (h : W64) (q : List W64), s.dev.alive = true → rvF7 w = 0 → rvRs1 w = 0 →
    rvRs2 w = 0 → (e.thread t).inbox = h :: q →
    let f := (e.modThread t fun y => { y with inbox := q }).finX t 4 (rvRd w) h 1
    (Issues s.dev t .pkrecv w raw 4 e → Does (.pkrecv t) s fun d => d = f.mark (.handed t (rvRd w))) ∧
    (Issues s.dev t .pkrecvnb w raw 4 e → Does (.pkrecvnb t) s fun d => d = f.mark (.handed t (rvRd w)))) ∧
  (∀ (s : State) (t : Fin 1026) (w raw : Nat) (e : Dev), s.dev.alive = true → Issues s.dev t .pkrecvnb w raw 4 e → rvF7 w = 0 →
    rvRs1 w = 0 → rvRs2 w = 0 → (e.thread t).inbox = [] →
    Does (.pkrecvnb t) s fun d => d = e.finX t 4 (rvRd w) 0 1) ∧
  (∀ (s : State) (t : Fin 1026) (w raw : Nat) (e : Dev), s.dev.alive = true → Issues s.dev t .pksend w raw 4 e → rvF7 w = 0 →
    rvRd w = 0 → (e.thread t).retq.length < 8 →
    Does (.pksend t) s fun d =>
      d = (e.modThread t fun y => { y with
        retq := y.retq ++ [((e.thread t).rd (rvRs1 w), (e.thread t).rd (rvRs2 w))] }).retireIns t 4)) ∧
  ((∀ (s : State) (t : Fin 1026) (w raw : Nat) (e : Dev) (c : Nat) (x : Channel), s.dev.alive = true → Issues s.dev t .chsend w raw 4 e →
    rvF7 w < 4 → rvRs1 w = 0 → rvRd w = 0 → e.txChan t (rvF7 w) = some (c, x) →
    (x.closed = true → Does (.chsend t) s fun d => (d.thread t).csr 0x342 = 24 ∨ (d.thread t).csr 0x142 = 24) ∧
    (x.closed = false → 8 ≤ (e.txFifo t (rvF7 w)).length →
      Does (.chsend t) s fun d =>
        d = e.modThread t fun y => { y with wait := .send (rvF7 w) ((e.thread t).rd (rvRs2 w)) e.cycle })) ∧
  (∀ (s : State) (t : Fin 1026) (w raw : Nat) (e : Dev), s.dev.alive = true → Issues s.dev t .chrecv w raw 4 e →
    rvF7 w < 4 → rvRs1 w = 0 → rvRs2 w = 0 → e.rxChan t (rvF7 w) = none → (e.thread t).mode = .m →
    Does (.chrecv t) s fun d =>
      (d.thread t).csr 0x341 = (e.thread t).pc.toNat ∧ (d.thread t).csr 0x342 = 24 ∧ (d.thread t).csr 0x343 = 4 + rvF7 w) ∧
  (∀ (s : State) (t : Fin 1026) (w raw : Nat) (e : Dev) (c : Nat) (x : Channel), s.dev.alive = true → Issues s.dev t .chrecv w raw 4 e →
    rvF7 w < 4 → rvRs1 w = 0 → rvRs2 w = 0 → e.rxChan t (rvF7 w) = some (c, x) → e.rxFifo x.dstT x.dstEp = [] →
    Does (.chrecv t) s fun d => d = e.modThread t fun y => { y with wait := .recv (rvF7 w) (rvRd w) e.cycle }) ∧
  (∀ (s : State) (t : Fin 1026) (w raw : Nat) (e : Dev), s.dev.alive = true → Issues s.dev t .pkrecv w raw 4 e → rvF7 w = 0 →
    rvRs1 w = 0 → rvRs2 w = 0 → (e.thread t).inbox = [] →
    Does (.pkrecv t) s fun d => d = e.modThread t fun y => { y with wait := .pkrecv (rvRd w) e.cycle }) ∧
  (∀ (s : State) (t : Fin 1026) (w raw : Nat) (e : Dev), s.dev.alive = true → Issues s.dev t .pksend w raw 4 e → rvF7 w = 0 →
    rvRd w = 0 → (e.thread t).retq.length = 8 →
    Does (.pksend t) s fun d =>
      d = e.modThread t fun y => { y with wait := .pksend ((e.thread t).rd (rvRs1 w)) ((e.thread t).rd (rvRs2 w)) e.cycle }))

/-! ### Glaze engines -/

/-- Where a lookaside job starts (R261, R262, R268, R270, R278): it takes the lowest free engine of the pool with the context as it
stands, charges its cycles and its bytes, and for an encryption that the device numbers it uses the next invocation value; it can end
when its cycles are over, once its context is in the cache. -/
def Obligations.GlazeStarts : Prop :=
  ∀ (s : State) (op e : Nat) (row : Instr) (g : GlzJob) (t : Dev), s.dev.alive = true →
    (op = 1 ∧ row = .glzEncrypt ∨ op = 2 ∧ row = .glzDecrypt ∨ op = 3 ∧ row = .glzHash ∨ op = 4 ∧ row = .glzHmac) →
    glzChosen s.dev op e g t → g.job.sto = none → t.glzCheck g = 0 →
    let b := g.job.block
    let c := t.kctx (jbKc b)
    ((Dev.glzAddrs b (if op = 3 ∨ op = 4 then 0 else jbLen b) (if op = 3 then (digestLen (jbHash b)).getD 0 else jbTagLen b) false).any
      fun r => !t.tAllowed g.job.chan r.1 r.2) = false →
    (c.cached = true ∨ op = 3) →
    let feeds := [(0, jbSrc b, jbLen b), (1, jbAad b, jbAadLen b), (2, jbTag b, if op = 2 then jbTagLen b else 0)]
    ((op ≠ 1 ∨ isInvocation c.alg = false) →
      let v := (t.debitCost .glz (Dev.glzOwner g) (jobCycles c b)).openFeed g.job feeds none
      Does row s fun d =>
        d = v.setGlzEng e (some {
          work := .job g, ctx := c, ent := .reset, counter := none, near := false, bad := none, started := v.cycle
          due := some (v.cycle + jobCycles c b), cost := jobCycles c b, wrote := 0, unt := false })) ∧
    (∀ n near u, op = 1 → isInvocation c.alg = true →
      ((t.turnInvoke (jbKc b) e).mark (.invoked (jbKc b) e)).takeCounter (jbKc b) (2 ^ 64) false = (some (n, near), u) →
      let v := (u.debitCost .glz (Dev.glzOwner g) (jobCycles c b)).openFeed g.job feeds none
      Does row s fun d =>
        d = v.setGlzEng e (some {
          work := .job g, ctx := c, ent := .reset, counter := some n, near := near, bad := none, started := v.cycle
          due := some (v.cycle + jobCycles c b), cost := jobCycles c b, wrote := 0, unt := false }))

/-- The invocation counter (R270): each value below the limit is used once, in order, and none at or above it; the values within the
margin of the smaller of LIMIT and the limit of the use are answered as near. The key stays as it was, wrapped under the storage key
where the context is outside the cache (R265), and every other context stands. -/
def Obligations.InvocationCounter : Prop :=
  (∀ (d : Dev) (i lim : Nat), (d.kctx i).counter < Nat.min (d.kctx i).limit lim → (d.kctx i).counter + 1 < 2 ^ 64 →
    (d.kctx i).attr.length = 64 →
    ∃ near e, d.takeCounter i lim false = (some ((d.kctx i).counter, near), e) ∧ (e.kctx i).counter = (d.kctx i).counter + 1 ∧
      (near = true ↔ Nat.min (d.kctx i).limit lim - ((d.kctx i).counter + 1) ≤ (d.kctx i).warn) ∧
      ((d.kctx i).cached = true → (e.kctx i).key = (d.kctx i).key) ∧
      ((d.kctx i).cached = false → (d.kctx i).valid = true →
        (tabGet (fun _ => KeyCtx.reset) e.glz.kc i).key = keyWrap d.storageKey (d.kctx i).key) ∧
      ∀ j, j ≠ i → e.kctx j = d.kctx j) ∧
  (∀ (d : Dev) (i lim : Nat), Nat.min (d.kctx i).limit lim ≤ (d.kctx i).counter →
    d.takeCounter i lim false = (none, ((d.setKctx i (d.kctx i)).setEvent GLZ_EVENT_EXHAUSTED).put GLZ_EVENT_KC_INDEX i))

/-- The key commands (R265, R266): a load writes the context in plain form, a generation draws the key from the random source, an
unwrap opens a blob under a KWK key and answers AUTH_FAIL, changing nothing, for a blob that fails its check, an export wraps the
context and invalidates it, an invalidation clears VALID and the key, and a read answers the attributes and never the key. -/
def Obligations.KeyCommands : Prop :=
  ∀ (s : State) (g : Fin 4096) (x : GlzJob) (t : Dev) (host : List Byte), s.dev.alive = true → x.job.owner = none →
    let b := x.job.block
    let i := jbKc b
    (∀ r, keyChosen s.dev g 0x70 x t → t.tAllowed g (jbSrc b) 128 = true → t.ioReadT (jbSrc b) 128 = r →
      badAttr ((r.fetchT (jbSrc b) 128 host).take 64) = false →
      Does (.kcLoad g host) s fun d =>
        d = ((r.setKctx i ⟨(r.fetchT (jbSrc b) 128 host).take 64, (r.fetchT (jbSrc b) 128 host).drop 64, false, false⟩).mark
          (.keyWrite i)).glzAnswer x [] 0 0 0 []) ∧
    (∀ r, keyChosen s.dev g 0x71 x t → t.tAllowed g (jbSrc b) 64 = true → t.ioReadT (jbSrc b) 64 = r →
      badAttr (r.fetchT (jbSrc b) 64 host) = false →
      Does (.kcGenerate g host) s fun d =>
        d = ((({ r with fresh := r.fresh + 1 }).setKctx i ⟨r.fetchT (jbSrc b) 64 host,
          (List.range 64).map fun n => if n < keyLen (KeyCtx.alg ⟨r.fetchT (jbSrc b) 64 host, [], false, false⟩)
            then Config.randomByte r.fresh n else 0#8, false, false⟩).mark (.keyWrite i)).glzAnswer x [] 0 0 0 []) ∧
    (∀ r k, keyChosen s.dev g 0x72 x t → t.tAllowed g (jbSrc b) 136 = true → t.ioReadT (jbSrc b) 136 = r →
      r.kwkKey none (jbKwk b) = some k →
      Does (.kcUnwrap g host) s fun d =>
        match keyUnwrap k (r.fetchT (jbSrc b) 136 host) with
        | none => d = r.glzAnswer x [] gzAuthFail 0 0 []
        | some m =>
          if badAttr (m.take 64) then d = r.glzAnswer x [] gzBadEntry 0 0 []
          else d = ((r.setKctx i ⟨m.take 64, m.drop 64, false, false⟩).mark (.keyWrite i)).glzAnswer x [] 0 0 0 []) ∧
    (∀ r k, keyChosen s.dev g 0x73 x t → t.tAllowed g (jbDst b) 136 = true → t.ioReadT (jbDst b) 136 = r →
      r.kwkKey none (jbKwk b) = some k → r.kcUsable none i = true → (r.kctx i).useExport = true →
      Does (.kcExport g) s fun d =>
        d = ((r.setKctx i (Dev.invalidated (r.kctx i))).mark (.keyWrite i)).glzAnswer x
          [(jbDst b, keyWrap k ((r.kctx i).attr ++ (r.kctx i).key))] 0 0 0 []) ∧
    (keyChosen s.dev g 0x74 x t →
      Does (.kcInvalidate g) s fun d =>
        d = ((t.setKctx i (Dev.invalidated (t.kctx i))).mark (.keyWrite i)).glzAnswer x [] 0 0 0 []) ∧
    (∀ r, keyChosen s.dev g 0x75 x t → t.tAllowed g (jbDst b) 64 = true → t.ioReadT (jbDst b) 64 = r →
      Does (.kcReadAttr g) s fun d => d = r.glzAnswer x [(jbDst b, (r.kctx i).attr)] 0 0 0 []) ∧
    ((Dev.invalidated (t.kctx i)).key = List.replicate 64 0#8)

/-- Where glaze work goes on and ends (R262, R268, R272, R277): the miss fill lets a job run, or answers BAD_KEY where the fetch finds
the context lost; a job that is over answers its outputs and its status; and a job that no engine started in 18 ms, or none ended in
100 ms, is counted and answers TIMEOUT. -/
def Obligations.GlazeEnds : Prop :=
  (∀ (s : State) (e : Fin 256) (r : GlzRun) (g : GlzJob) (c : KeyCtx), s.dev.alive = true → s.dev.glzEng e = some r → r.due = none →
    r.work = .job g → s.dev.kctx (jbKc (Dev.glzBlock g)) = c → c.valid = true →
    (s.dev.glz.kc.filter fun kv => kv.2.cached).length < 16384 →
    let i := jbKc (Dev.glzBlock g)
    let a := s.dev.kcBase + 256 * i
    (s.dev.poisoned a 256 = false →
      Does (.kcMissFill e) s fun d =>
        d = (s.dev.setKctx i { c with cached := true }).setGlzEng e (some { r with due := some (s.dev.cycle + r.cost) })) ∧
    (s.dev.poisoned a 256 = true →
      Does (.kcMissFill e) s fun d => d = (((s.dev.consumed a).kcLost i).setGlzEng e none).glzAnswer g [] gzBadKey 0 0 [])) ∧
  (∀ (s : State) (e : Fin 256) (r : GlzRun) (g : GlzJob) (due : Nat) (outs : List (Nat × List Byte)) (st : Nat) (iv : List Byte),
    s.dev.alive = true → s.dev.glzEng e = some r → r.work = .job g → r.due = some due → due ≤ s.dev.cycle → g.copy = none →
    g.job.sto = none → s.dev.cycle < g.job.handed + 300000000 → s.dev.fedAll g.job = true →
    Dev.glzResult r g ((s.dev.fed g.job 0).take (jbLen g.job.block)) (s.dev.fed g.job 1) (s.dev.fed g.job 2) = (outs, st, iv) →
    (Dev.flagDec r g = false →
      Does (.glazeJobComplete e () () () .whole) s fun d =>
        d = (s.dev.setGlzEng e none).glzAnswer g outs st (2 * b2n r.near) (r.counter.getD 0) iv) ∧
    (Dev.flagDec r g = true →
      Does (.glazeJobComplete e () () () .whole) s fun d =>
        d = (s.dev.setGlzEng e none).glzAnswer g (outs.map fun o => (o.1 + r.wrote, o.2.drop r.wrote)) st
          (b2n (st == gzAuthFail) + 2 * b2n r.near) (r.counter.getD 0) iv)) ∧
  (∀ (s : State) (g : GlzJob), s.dev.alive = true → s.dev.glz.jobs = [g] → g.job.handed + 54000000 ≤ s.dev.cycle →
    Does .glazeDispatchTimeout s fun d =>
      d = (({ s.dev with glz := { s.dev.glz with jobs := [] } }).inc GLZ_CNT_JOB_TIMEOUT).glzAnswer g [] gzTimeout 0 0 []) ∧
  (∀ (s : State) (e : Fin 256) (r : GlzRun) (g : GlzJob), s.dev.alive = true → s.dev.glzEng e = some r → r.work = .job g →
    g.job.handed + 300000000 ≤ s.dev.cycle →
    Does (.glazeJobTimeout e) s fun d =>
      d = ((s.dev.setGlzEng e none).inc GLZ_CNT_JOB_TIMEOUT).glzAnswer g [] gzTimeout (b2n r.unt + 2 * b2n r.near) (r.counter.getD 0)
        (match r.counter with | some n => r.ctx.iv n | none => []))

/-- The inline path and the registers of GLZ (R46, R155, R270, R271, R280, R281, R285): the first frame of the inline queue takes the
lowest free inline engine; a transmitting one uses the next invocation value of its entry's context, and it is over after its cycles
once the context is in the cache; one whose entry is unusable, whose format is too short or whose context is exhausted has that
failure noted. The table's entries are read, written with HIGHEST and the replay window cleared, and counted anew, a base that would
overlap other HBM is ignored, and ENABLE locks the block. -/
def Obligations.GlazeInlineAndTable : Prop :=
  (∀ (s : State) (e i xi : Nat) (q : List Nat) (f : Frame) (a : Actions), s.dev.alive = true → s.dev.freeGlz true = some e →
    s.dev.inlineWaiting = i :: q → s.dev.frame? i = some f → f.act = some a → a.xform = some xi →
    let w := (s.dev.setGlz fun g => { g with inlineQ := q }).syncInline
    let b := (w.before (.ixtWrite xi)).before (.keyWrite (w.ixtEnt xi).kc)
    let t := if (b.ixtEnt xi).isRx then b else b.turnInvoke (b.ixtEnt xi).kc e
    let x := t.ixtEnt xi
    let c := t.kctx x.kc
    let run : GlzRun := {
      work := .frame i xi, ctx := c, ent := x, counter := none, near := false, bad := none
      started := t.cycle, due := some t.cycle, cost := 0, wrote := 0, unt := false }
    let short : Bool := !x.isRx && (decide (2 ≤ x.type) && decide (f.len - 4 < x.hdrOff + 32))
    let cost := Dev.inlineCycles x c f.len f.bytes
    let v := if c.cached then t else t.inc GLZ_CNT_KC_MISS
    let due := if c.cached then some (v.cycle + cost) else none
    let lim := if x.type = 0 ∧ x.xpn = false then 2 ^ 32 else 2 ^ 64
    (t.ixtOk x = false → Does .inlineStart s fun d => d = t.setGlzEng e (some { run with bad := some InlFail.entry.code })) ∧
    (t.ixtOk x = true → short = true → Does .inlineStart s fun d => d = t.setGlzEng e (some { run with bad := some InlFail.format.code })) ∧
    (t.ixtOk x = true → x.isRx = true → Does .inlineStart s fun d => d = v.setGlzEng e (some { run with due := due, cost := cost })) ∧
    (∀ n near u, t.ixtOk x = true → short = false → x.isRx = false →
      (v.mark (.invoked x.kc e)).takeCounter x.kc lim true = (some (n, near), u) →
      Does .inlineStart s fun d =>
        d = u.setGlzEng e (some { run with counter := some n, near := near, due := due, cost := cost })) ∧
    (∀ u, t.ixtOk x = true → short = false → x.isRx = false →
      (v.mark (.invoked x.kc e)).takeCounter x.kc lim true = (none, u) →
      Does .inlineStart s fun d => d = u.setGlzEng e (some { run with bad := some InlFail.exhausted.code }))) ∧
  (∀ (s : State) (dv : Dev) (p : Path) (data : W32) (e : Dev), Reaches s.dev p dv → dv.writeFields p GLZ_IND_CMD data = e →
    let i := fieldGet data 0 14
    let w := e.indRd (GLZ_IND_DATA 0)
    (fieldGet data 24 3 = 1 → Does (.readIxt p data) s fun d => d = e.indFill (GLZ_IND_DATA 0) (ixtWords (e.ixtEnt i))) ∧
    (fieldGet data 24 3 = 2 →
      Does (.writeIxt p data) s fun d =>
        d = (e.setIxt i { e.ixtEnt i with
          cfg := [w 0 - bitsOf (w 0) 20 4 * 2 ^ 20, bitsOf (w 1) 24 8 * 2 ^ 24 + bitsOf (w 1) 16 2 * 2 ^ 16 + bitsOf (w 1) 0 11,
                  w 2, w 3, w 4, 0]
          highest := 0, bitmap := 0 }).mark (.ixtWrite i)) ∧
    (fieldGet data 24 3 = 3 →
      Does (.clearIxtCnt p data) s fun d => d = e.setIxt i { e.ixtEnt i with ok := 0, drop := 0 })) ∧
  (∀ (s : State) (dv : Dev) (p : Path) (data : W32), Reaches s.dev p dv → dv.locked GLZ_CTRL = true →
    Does (.glzKcBaseWrite p data) s fun d => d = dv.writeFields p GLZ_KC_BASE data) ∧
  (∀ (s : State) (dv : Dev) (p : Path) (data : W32), Reaches s.dev p dv → dv.leftSetup BUF_CTRL = false → dv.liveSags = [] →
    Does (.glzKcBaseWrite p data) s fun d => d = dv.writeFields p GLZ_KC_BASE data) ∧
  (∀ (s : State) (dv : Dev) (p : Path) (data : W32) (sg : Nat), Reaches s.dev p dv → dv.locked GLZ_CTRL = false → sg ∈ dv.liveSags →
    dv.get (SAG_HBM_PAGES_PAGES sg) ≠ 0 →
    dv.get (SAG_HBM_BASE_BASE sg) * 2 ^ 21 < Nat.min 383 (fieldGet data 0 9) * 2 ^ 28 + 2 ^ 28 →
    Nat.min 383 (fieldGet data 0 9) * 2 ^ 28 < (dv.get (SAG_HBM_BASE_BASE sg) + dv.get (SAG_HBM_PAGES_PAGES sg)) * 2 ^ 21 →
    Does (.glzKcBaseWrite p data) s fun d => d = dv) ∧
  (∀ (s : State) (dv : Dev) (p : Path) (data : W32), Reaches s.dev p dv → fieldGet data 0 1 = 1 →
    Does (.glazeEnable p data) s fun d => d = ((dv.writeFields p GLZ_CTRL data).put GLZ_CTRL_ENABLE 1).lock GLZ_CTRL)

/-! ### Public-key units -/

/-- Where a public-key job starts and where it is refused (R294, R296, R297): the job that the arbiter serves next takes the lowest free
unit and charges its cycles; the oldest of an opcode that a check refuses is answered with that check's status and no unit.

Where a public-key job ends (R295, R297, R298, R307): a job whose cycles are over is answered with what it computes, a unit whose
check fails answers UNIT_ERROR and no output, and a job past its time answers TIMEOUT. -/
def Obligations.PublicKeyRows : Prop :=
  (∀ (s : State) (host h : List Byte) (op : Nat) (row : Instr), s.dev.alive = true →
    (op = 0x80 ∧ row = .pkKeygen ∧ h = [] ∨ op = 0x81 ∧ row = .pkImport ∧ h = [] ∨ op = 0x82 ∧ row = .pkSign host ∧ h = host ∨
      op = 0x83 ∧ row = .pkVerify ∧ h = [] ∨ op = 0x84 ∧ row = .pkAgree host ∧ h = host ∨ op = 0x85 ∧ row = .pkRsaPub ∧ h = [] ∨
      op = 0x86 ∧ row = .pkRsaPriv host ∧ h = host ∨ op = 0x87 ∧ row = .pkEncaps ∧ h = [] ∨
      op = 0x88 ∧ row = .pkDecaps host ∧ h = host) →
    let e := s.dev.pkHostHdr op h
    (∀ u j hdr t, pkChosen e op u j hdr t →
      let b := j.block
      let hss := pkOp b == 0x83 && pkAlg b == 11
      Does row s fun d =>
        d = ((t.debitCost .pke (Dev.issuerOf j) (pkCharge b hdr)).setPkeUnit u (some
          { job := j, kwk := if namesKwk b then t.kwkKey (Dev.issuerOf j) (pkKwk b) else none
            hdr := hdr, started := t.cycle, charged := pkCharge b hdr, fault := false })).openFeed j
          [(0, pkIn b, pkInBytes b), (1, pkKeyAddr b, pkKeyBytes b), (2, pkIn2 b, if hss then 4 else pkIn2Len b)]
          (if hss then some (pkIn2 b, 4) else none)) ∧
    (∀ j hdr, (e.pkWaiting.find? fun x => pkOp x.1.block == op && e.pkCheck x.1 x.2 != pkOk) = some (j, hdr) →
      Does row s fun d => d = (e.pkLeave j).pkRefuse j (e.pkCheck j hdr))) ∧
  ((∀ (s : State) (u : Fin 16) (fault : Bool) (r : PkeRun) (x : PkRes) (extra : Nat) (e : Dev), s.dev.alive = true →
    s.dev.pkeUnit u = some r → s.dev.cycle < r.job.handed + 6000000000 → s.dev.fedAll r.job = true →
    s.dev.pkOutcome r = (x, extra, e) → x.status ≠ pkAuthFail → r.started + extra + x.cycles ≤ s.dev.cycle →
    let who := Dev.issuerOf r.job
    let b := r.job.block
    let more : Int := (x.cycles : Int) - r.charged
    let f := ((e.setPkeUnit u none).debitCost .pke who more).setPke fun p => { p with arb := p.arb.served (kidOf who) more }
    (fault = false → r.fault = false → pkOp b ≠ 0x80 → pkOp b ≠ 0x81 →
      Does (.pkeJobComplete u () () () fault ()) s fun d => d = f.pkAnswer u r.job x [(pkOut b, x.out), (pkOut2 b, x.out2)]) ∧
    ((fault = true ∨ r.fault = true) →
      Does (.pkeJobComplete u () () () fault ()) s fun d =>
        d = f.pkAnswer u r.job { x with status := pkUnitError, failed := 0, out := [], out2 := [] } [(pkOut b, []), (pkOut2 b, [])]) ∧
    (∀ k sg, fault = false → r.fault = false → x.status = pkOk → (pkOp b = 0x80 ∨ pkOp b = 0x81) → who = some sg →
      f.kwkKey who (pkKwk b) = some k →
      Does (.pkeJobComplete u () () () fault ()) s fun d =>
        d = f.pkAnswer u r.job x [(pkOut b, x.out), (pkOut2 b, pkBlob k (pkAlg b) sg x.out2)])) ∧
  (∀ (s : State) (j : Job), s.dev.alive = true → s.dev.pke.jobs = [j] → j.handed + 5400000000 ≤ s.dev.cycle →
    Does .pkeDispatchTimeout s fun d => d = (s.dev.pkLeave j).pkRefuse j pkTimeout) ∧
  (∀ (s : State) (u : Fin 16) (r : PkeRun), s.dev.alive = true → s.dev.pkeUnit u = some r → r.job.handed + 6000000000 ≤ s.dev.cycle →
    Does (.pkeJobTimeout u) s fun d =>
      ∃ n : Nat, d = ((s.dev.free.2).setPkeUnit u none).pkAnswer u r.job ⟨pkTimeout, 0, n, [], []⟩ []) ∧
  (∀ (s : State) (dv : Dev) (p : Path) (data : W32), Reaches s.dev p dv → data.toNat % 2 = 1 →
    Does (.pkeEnable p data) s fun d => d = ((dv.writeFields p PKE_CTRL data).put PKE_CTRL_ENABLE 1).lock PKE_CTRL))

/-! ### The PCIe endpoint -/

/-- A host link comes and goes (R308, R309, R326): training within the controller's limits brings it up at its rate and width, a link
that goes down freezes, and an error of its protocol or of its controller records its AER bit and freezes it with the cause. -/
def Obligations.LinkTraining : Prop :=
  (∀ (s : State) (l : Fin 8) (speed width : Nat) (flit : Bool), s.dev.alive = true → s.dev.linkExists l = true →
    s.dev.hif.perst.contains (l.val / 4) = false → s.dev.severed (.hif l) = false → s.dev.linkUp l = false → 0 < speed →
    speed ≤ s.dev.get (HIF_CTRL_MAX_GEN (l.val / 4)) → width ∈ [1, 2, 4] → (speed = 6 → flit = true) →
    Does (.hifDlActive l speed width flit) s fun d =>
      let n := l.val / 4
      let m := l.val % 4
      d = (((((((s.dev.put (HIF_LINK_STATUS_LINK_UP n m) 1).put (HIF_LINK_STATUS_SPEED n m) speed).put
        (HIF_LINK_STATUS_WIDTH n m) width).put (HIF_LINK_STATUS_FLIT n m) (b2n flit)).put (HIF_LINK_STATUS_PM_STATE n m) 0).modLink l
          fun x => { x with wasActive := true, l0Since := s.dev.cycle, lastTlp := s.dev.cycle, active := width }).pumpLink l).ltrUpdate l) ∧
  (∀ (s : State) (l : Fin 8), s.dev.alive = true → s.dev.linkUp l = true →
    Does (.hifDlDown l) s fun d =>
      d = if (s.dev.link l).wasActive = true then (s.dev.linkOff l).freezeLink l 1 else s.dev.linkOff l) ∧
  (∀ (s : State) (l : Fin 8) (k : LinkError), s.dev.alive = true → s.dev.linkUp l = true →
    Does (.linkProtocolError l k) s fun d =>
      d = (s.dev.aerError l 0 (linkErrBit k) false).freezeLink l
        (match k with | .dllp => 2 | .fc => 3 | .rxOverflow => 4 | .malformed => 5 | .flitUncorr => 6)) ∧
  (∀ (s : State) (n : Fin 2) (l : Nat), s.dev.alive = true → s.dev.linksOf n = [l] →
    Does (.controllerInternalError n) s fun d =>
      d = (((s.dev.modFunc l 0 fun x => { x with aerUncorr := x.aerUncorr ||| 2 ^ 22 }).inc
        (HIF_CNT_UNCORR_ERR (l / 4) (l % 4))).freezeLink l 7).rasError (.of 0x16 (8 + n) .uc 0)) ∧
  (∀ (s : State) (l : Fin 8) (st : Fin 3), s.dev.alive = true → s.dev.linkUp l = true → (s.dev.link l).inL23 = false →
    bitOf (s.dev.link l).aspm st = true → (s.dev.link l).lastTlp + 30000 ≤ s.dev.cycle → (s.dev.link l).outq = [] →
    (st = 2 → (s.dev.link l).ltr.all (fun us => decide (s.dev.l12Threshold l ≤ 1000 * us)) = true) →
    Does (.aspmL1Entry l st) s fun d => d = s.dev.put (HIF_LINK_STATUS_PM_STATE (l.val / 4) (l.val % 4)) (2 + st)) ∧
  (∀ (s : State) (l : Fin 8) (need : Nat), s.dev.alive = true → s.dev.linkUp l = true →
    s.dev.flag (HIF_LINK_STATUS_FLIT (l.val / 4) (l.val % 4)) = true →
    s.dev.get (HIF_LINK_STATUS_PM_STATE (l.val / 4) (l.val % 4)) ≤ 1 →
    2 * need ≤ s.dev.get (HIF_LINK_STATUS_WIDTH (l.val / 4) (l.val % 4)) →
    Does (.l0pWidthChange l need) s fun d =>
      d = (s.dev.put (HIF_LINK_STATUS_PM_STATE (l.val / 4) (l.val % 4)) 1).modLink l fun x => { x with
        active := (([1, 2, 4, 8] : List Nat).find? fun k => decide (need ≤ k)).getD
          (s.dev.get (HIF_LINK_STATUS_WIDTH (l.val / 4) (l.val % 4))) })

/-- A freeze (R326, R328, R330): the outbound queue closes with nothing in it, every write not yet acknowledged is kept to be made again, the
cause and the event show, a link that is frozen already takes only the new time, and a freeze that comes after the release of its link
or after an engine stop on it in one HIF cycle is of the next (notes/assumptions/6).

Resets, power and release of a host link (R46, R322 to R324, R326, R329): each acts on its link or function as its rule says, and
changes nothing where its condition does not hold. -/
def Obligations.LinkFreezeAndResets : Prop :=
  (∀ (d : Dev) (l : Fin 8) (cause : Nat), d.linkExists l = true → cause < 16 → d.marks = [] →
    (d.frozen l = false →
      (d.freezeLink l cause).frozen l = true ∧ ((d.freezeLink l cause).link l).outq = [] ∧ ((d.freezeLink l cause).link l).unacked = [] ∧
      ((d.freezeLink l cause).link l).abandoned =
        (d.link l).abandoned ++ (d.link l).unacked ++ (d.link l).outq.filterMap (fun r => match r with | .write w => some w | .read .. => none) ∧
      (d.freezeLink l cause).get (HIF_FREEZE_CAUSE (l.val / 4) (l.val % 4)) = cause ∧
      (d.freezeLink l cause).flag (HIF_FREEZE_FREEZE_EVENT (l.val / 4) (l.val % 4)) = true) ∧
    (d.frozen l = true → (d.freezeLink l cause).reg = d.reg ∧ ((d.freezeLink l cause).link l).outq = (d.link l).outq) ∧
    (d.freezeLink l cause).mem = d.mem ∧ (d.freezeLink l cause).frames = d.frames ∧
    ∀ k, k ≠ l.val → (d.freezeLink l cause).link k = d.link k) ∧
  (∀ (d : Dev) (l : Fin 8) (cause : Nat), d.linkExists l = true →
    (d.marks = [.relAsked l (Dev.hifOf d.cycle)] ∨ d.marks = [.busStop l (Dev.hifOf d.cycle)]) →
    d.freezeLink l cause = d.nextHif.freezeLink l cause) ∧
  ((∀ (s : State) (l : Fin 8) (f : Fin 2048), s.dev.alive = true → s.dev.linkUp l = true → s.dev.funcLive l f = true →
    Does (.hifFlr l f) s fun d => d = s.dev.flr l f) ∧
  (∀ (s : State) (l : Fin 8) (f : Fin 2048) (d3 bme : Bool), s.dev.alive = true → s.dev.linkUp l = true → s.dev.funcLive l f = true →
    Does (.powerStateChange l f d3 bme) s fun d =>
      d = ((s.dev.modFunc l f fun x => { x with d3hot := d3, bme := bme }).pmSync l).msixFlush l f) ∧
  (∀ (s : State) (n : Fin 2) (l : Nat), s.dev.alive = true → s.dev.hif.perst.contains n.val = false → s.dev.linksOf n = [l] →
    (s.dev.link l).inL23 = false →
    Does (.perstAssert n) s fun d =>
      d = (((({ s.dev with hif := { s.dev.hif with perst := s.dev.hif.perst ++ [n.val] } } : Dev).linkDown l).linkCfgReset l
        false).severLink l)) ∧
  (∀ (s : State) (n : Fin 2), s.dev.alive = true → s.dev.hif.perst = [n.val] → s.dev.hif.d3cold = [] → s.dev.hif.wake = [] →
    Does (.perstDeassert n) s fun d => d = { s.dev with hif := { s.dev.hif with perst := [] } }) ∧
  (∀ (s : State) (l : Fin 8), s.dev.alive = true → s.dev.linkUp l = true →
    Does (.hotReset l) s fun d => d = ((s.dev.linkDown l).linkCfgReset l true).sever (.hif l)) ∧
  (∀ (s : State) (dv : Dev) (p : Path) (l : Fin 8) (data : W32) (e : Dev), Reaches s.dev p dv → Dev.pathLink p = none →
    dv.linkExists l = true → dv.writeFields p (HIF_FREEZE (l.val / 4) (l.val % 4)) data = e → fieldGet data 30 1 = 1 →
    e.frozen l = true → e.linkUp l = true → ((e.link l).frozeAt.map Dev.hifOf) ≠ some (Dev.hifOf e.cycle) →
    Does (.freezeRel p l data) s fun d => d = (e.mark (.relAsked l (Dev.hifOf e.cycle))).release l) ∧
  (∀ (s : State) (l : Fin 8), s.dev.alive = true → bitOf (s.dev.get (HIF_CTRL_FW_REL (l.val / 4))) (l.val % 4) = true →
    s.dev.frozen l = true → s.dev.linkUp l = true → s.dev.get (HIF_LINK_STATUS_PM_STATE (l.val / 4) (l.val % 4)) = 0 →
    (s.dev.link l).l0Since + 300000000 ≤ s.dev.cycle →
    Does (.firmwareFreezeRelease l) s fun d => d = s.dev.release l) ∧
  (∀ (s : State) (dv : Dev) (p : Path) (data : W32), Reaches s.dev p dv → fieldGet data 0 1 = 1 →
    Does (.hifEnable p 1 data) s fun d =>
      d = (((dv.writeFields p (HIF_CTRL 1) data).put (HIF_CTRL_ENABLE 1) 1).lock (HIF_CTRL 1)).lock 0x1FFFC))

/-- What a host link receives (R39, R40, R317, R319 to R321, R324, R327, R440, R249): a configuration request while the gate is shut is
answered CRS, a read of a live function's configuration is answered with it; a frozen link drops writes and answers reads CA; a write and a read that a BAR takes
reach it; a completion's bytes go to the read with its tag, a tag that is no read's is an error, and a read past its time fails; PME_Turn_Off is
acknowledged; the partner's acknowledgement ends its oldest write; and the JTAG port reads and
writes the HBM, but for the key contexts (R263). A completion whose read carries an older firing number is discarded (R39, R40). -/
def Obligations.LinkTraffic : Prop :=
  (∀ (s : State) (l : Fin 8) (addr : Nat) (dws : List (Option W32)) (x : Aux) (f b off : Nat) (use : BarUse), s.dev.alive = true →
    dws ≠ [] →
    (s.dev.carries l = true → s.dev.barHit l (addr / 4 * 4) = some (f, b, off, use) →
      Does (.inboundMemoryWrite l addr dws false x) s fun d => d = (s.dev.tlpOn l).inboundWrite l f b off use dws x) ∧
    (s.dev.carries l = false → s.dev.barHit l (addr / 4 * 4) = none →
      Does (.inboundMemoryWrite l addr dws false x) s fun d => d = s.dev.dropInbound l none)) ∧
  (∀ (s : State) (l : Fin 8) (addr n : Nat) (f b off : Nat), s.dev.alive = true → s.dev.linkUp l = true →
    (s.dev.link l).inL23 = false →
    ((s.dev.tlpOn l).frozen l = false → (s.dev.tlpOn l).barHit l (addr / 4 * 4) = some (f, b, off, .registers) → 0 < n → n ≤ 16 →
      Does (.inboundMemoryRead l addr (.read n)) s fun d =>
        d = (Dev.inboundRead l f .registers n off (s.dev.tlpOn l)).2.emit
          (.completion l 0 (Dev.inboundRead l f .registers n off (s.dev.tlpOn l)).1)) ∧
    ((s.dev.tlpOn l).frozen l = true →
      Does (.inboundMemoryRead l addr (.read n)) s fun d =>
        d = ((s.dev.tlpOn l).inc (HIF_CNT_ABORTED_READS (l.val / 4) (l.val % 4))).emit (.completion l 2 []))) ∧
  (∀ (s : State) (l : Fin 8) (f : Fin 2048) (bus : Fin 256) (r : CfgReq), s.dev.alive = true → s.dev.linkUp l = true →
    (s.dev.link l).inL23 = false → (s.dev.tlpOn l).gateOpen = false →
    Does (.configurationRequest l f bus r) s fun d => d = (s.dev.tlpOn l).emit (.completion l 3 [])) ∧
  (∀ (s : State) (l : Fin 8) (f : Fin 2048) (bus : Fin 256) (x : CfgField) (k : FuncKind), s.dev.alive = true →
    s.dev.linkUp l = true → (s.dev.link l).inL23 = false → (s.dev.tlpOn l).gateOpen = true →
    (s.dev.tlpOn l).flag (HIF_CTRL_ENABLE (l.val / 4)) = true → (s.dev.tlpOn l).funcAt l f = some k →
    (s.dev.tlpOn l).funcLive l f = true →
    Does (.configurationRequest l f bus (.read x)) s fun d =>
      d = ((s.dev.tlpOn l).cfgRead l f k x).2.emit (.completion l 0 (leBytes 4 ((s.dev.tlpOn l).cfgRead l f k x).1))) ∧
  (∀ (s : State) (l : Fin 8) (tag : Nat) (st : Cpl) (bytes : List Byte), s.dev.alive = true → ((s.dev.tlpOn l).link l).oldTags = [] →
    (s.dev.tlpOn l).readByTag l tag = none →
    Does (.readCompletion l tag st bytes) s fun d => d = (s.dev.tlpOn l).aerError l 0 16 true) ∧
  (∀ (s : State) (l : Fin 8) (tag : Nat) (bytes : List Byte) (r : Read), s.dev.alive = true →
    ((s.dev.tlpOn l).link l).oldTags = [] → (s.dev.tlpOn l).readByTag l tag = some r → bytes ≠ [] → r.got + bytes.length ≤ r.len →
    Dev.isAts r = false →
    ((s.dev.tlpOn l).readCurrent r = true →
      Does (.readCompletion l tag .data bytes) s fun d =>
        d = (s.dev.tlpOn l).modDeng (r.chan / 256) fun x => { x with reads := x.reads.map fun y =>
          if y.tag = tag then { y with pieces := y.pieces ++ [bytes], got := y.got + bytes.length } else y }) ∧
    ((s.dev.tlpOn l).readCurrent r = false →
      Does (.readCompletion l tag .data bytes) s fun d => d = (s.dev.tlpOn l).discardPart r bytes.length false)) ∧
  (∀ (s : State) (l : Fin 8) (tag : Nat) (bytes : List Byte) (st : Cpl) (r : Read), s.dev.alive = true → (st = .ur ∨ st = .ca ∨ st = .poisoned) →
    ((s.dev.tlpOn l).link l).oldTags = [] → (s.dev.tlpOn l).readByTag l tag = some r → (s.dev.tlpOn l).readCurrent r = false →
    Does (.readCompletion l tag st bytes) s fun d => d = (s.dev.tlpOn l).discardPart r 0 true) ∧
  (∀ (s : State) (l : Fin 8) (tag : Nat) (r : Read), s.dev.alive = true → s.dev.readByTag l tag = some r →
    (s.dev.link l).oldTags = [] → (∀ q ∈ (s.dev.link l).outq, ∃ w, q = .write w) → r.got ≠ r.len →
    r.issued + Dev.ctoUs (s.dev.ctlFunc l (s.dev.chFunc r.chan)).cto * 3000 ≤ s.dev.cycle →
    Does (.completionTimeout l tag) s fun d =>
      let e := s.dev.modLink (s.dev.chLink r.chan) fun x => { x with
        outq := x.outq.filter fun q => match q with | .read _ t _ _ _ _ => t != r.tag | .write _ => true }
      d = (if Dev.hostRead r then e else s.dev).readFailed r .timeout) ∧
  (∀ (s : State) (l : Fin 8) (w : PWrite) (rest : List PWrite), s.dev.alive = true → (s.dev.link l).unacked = w :: rest →
    w.frame = none →
    Does (.postedWriteAck l) s fun d => d = (s.dev.modLink l fun x => { x with unacked := rest }).invalWrite l) ∧
  (∀ (s : State) (l : Fin 8), s.dev.alive = true → s.dev.linkUp l = true → (s.dev.link l).inL23 = false →
    Does (.inboundMessage l .pmeTurnOff) s fun d =>
      d = (((s.dev.tlpOn l).emit (.message l 0 .pmeToAck)).modLink l fun x => { x with inL23 := true }).put
        (HIF_LINK_STATUS_PM_STATE (l.val / 4) (l.val % 4)) 5) ∧
  (∀ (s : State) (a n : Nat), s.dev.alive = true → 0 < n → a + n ≤ hbmSize → s.dev.retired a n = false → s.dev.inKc a n = false →
    (s.dev.ioRead a n).poisoned a n = false →
    Does (.jtagMemoryAccess (.read a n)) s fun d => d = (s.dev.ioRead a n).emit (.jtag ((s.dev.ioRead a n).hbmRead a n))) ∧
  (∀ (s : State) (a : Nat) (bs : List Byte), s.dev.alive = true → bs ≠ [] → a + bs.length ≤ hbmSize →
    s.dev.retired a bs.length = false → s.dev.inKc a bs.length = false →
    Does (.jtagMemoryAccess (.write a bs)) s fun d => d = s.dev.hbmWriteAs (5 * 64 + 34) a bs) ∧
  (∀ (s : State) (r : JtagReq) (a : Nat), s.dev.alive = true →
    (∃ n, r = .read a n ∧ s.dev.inKc a n = true) ∨ (∃ bs, r = .write a bs ∧ s.dev.inKc a bs.length = true) →
    Does (.jtagMemoryAccess r) s fun d => d = s.dev)

/-! ### DMA engines -/

/-- Doorbells, completions and reads of a channel (R338, R339, R346, R349, R350, R352, R353, R360): a tail doorbell behind the tail is stale
and one past the ring bad, an interrupt doorbell arms the channel, descriptors that return are taken, what a stale read brings is
discarded, data goes to its target while the engine's rate lets it move, and a decided completion is posted, before an arm of the same
cycle is evaluated. -/
def Obligations.ChannelData : Prop :=
  (∀ (s : State) (dv : Dev) (g : Fin 4096) (data : W32), ReachesBar s.dev (s.dev.chLink g) (s.dev.chFunc g) dv →
    let u := dv.mark (.doorbell g false)
    let z := dv.ringSize g
    let far := fun i : Nat => (i + z - dv.chDone g) % z
    (dv.dbIgnored g = true ∨ z ≤ data.toNat →
      Does (.dbTail g data) s fun d => d = dv.inc (DMA_CH_CNT_DB_BAD (g.val / 256) (g.val % 256))) ∧
    (dv.dbIgnored g = false → data.toNat < z → far data.toNat < far (dv.chTail g) →
      Does (.dbTail g data) s fun d =>
        d = (dv.mark (.doorbell g true)).inc (DMA_CH_CNT_DB_STALE (g.val / 256) (g.val % 256))) ∧
    (dv.dbIgnored g = false → data.toNat < z → far (dv.chTail g) ≤ far data.toNat →
      Does (.dbTail g data) s fun d =>
        d = ((u.put (DMA_CH_TAIL_TAIL (g.val / 256) (g.val % 256)) data.toNat).put
          (DMA_CH_STATUS_OWN_STALL (g.val / 256) (g.val % 256)) 0).pump (g.val / 256)) ∧
    (dv.dbIgnored g = true →
      Does (.dbIrq g data) s fun d => d = dv.inc (DMA_CH_CNT_DB_BAD (g.val / 256) (g.val % 256))) ∧
    (dv.dbIgnored g = false → fieldGet data 31 1 = 1 →
      Does (.dbIrq g data) s fun d =>
        let e := u.mark (.armed g (u.flag (DMA_CH_STATUS_IRQ_ARMED (g.val / 256) (g.val % 256)))
          (u.get (DMA_CH_IRQ_NEXT_NEXT (g.val / 256) (g.val % 256))))
        d = ((e.put (DMA_CH_IRQ_NEXT_NEXT (g.val / 256) (g.val % 256)) (fieldGet data 0 16)).put
          (DMA_CH_STATUS_IRQ_ARMED (g.val / 256) (g.val % 256)) 1).chMsix g)) ∧
  (∀ (s : State) (g : Fin 4096), s.dev.alive = true → Does (.irqHoldoffExpiry g) s fun d => d = s.dev.chMsix g) ∧
  (∀ (s : State) (g : Fin 4096) (r : Read) (i n : Nat) (e : Dev), s.dev.alive = true →
    (s.dev.readsOf g).find? Dev.isDescRead = some r → s.dev.readDue (g.val / 256) = true →
    (Dev.hostRead r = true → r.got = r.len → r.pieces.flatten.length = r.len → r.orphan = false →
      s.dev.flag (DMA_ENG_STATUS_STOPPED (g.val / 256)) = false → r.what = .desc i n →
      (s.dev.dropRead r).engRead (g.val / 256) r.len = e → e.chSt g = chRunning →
      Does (.descriptorReadReturn g false) s fun d => d = (e.takeOwned g i r.pieces.flatten n).pump (g.val / 256)) ∧
    (Dev.hostRead r = false → s.dev.readCurrent r = false →
      Does (.descriptorReadReturn g false) s fun d => d = s.dev.discardPart r r.len true)) ∧
  (∀ (s : State) (g : Fin 4096) (r : Read), s.dev.alive = true →
    ((s.dev.readsOf g).find? fun r => !Dev.isDescRead r && !Dev.isAts r && !(Dev.hostRead r && r.pieces.isEmpty && r.orphan)) = some r →
    s.dev.readDue (g.val / 256) = true → s.dev.writeDue (g.val / 256) = true →
    (Dev.hostRead r = false → s.dev.readCurrent r = false →
      Does (.dmaReadReturn g false) s fun d => d = s.dev.discardPart r r.len true) ∧
    (Dev.hostRead r = false → s.dev.readCurrent r = true → s.dev.flag (DMA_ENG_STATUS_STOPPED (g.val / 256)) = false →
      s.dev.poisoned (r.addr - 2 ^ 63) r.len = false →
      Does (.dmaReadReturn g false) s fun d =>
        d = ((s.dev.dropRead r).useData r (s.dev.hbmRead (r.addr - 2 ^ 63) r.len)).pump (g.val / 256)) ∧
    (∀ b, Dev.hostRead r = true → r.pieces = [b] → r.got = r.len → s.dev.flag (DMA_ENG_STATUS_STOPPED (g.val / 256)) = false →
      Does (.dmaReadReturn g false) s fun d => d = ((s.dev.dropRead r).useData r b).pump (g.val / 256)) ∧
    (∀ b rest, Dev.hostRead r = true → r.pieces = b :: rest → (r.got = r.len → rest ≠ []) →
      s.dev.flag (DMA_ENG_STATUS_STOPPED (g.val / 256)) = false →
      Does (.dmaReadReturn g false) s fun d =>
        d = ((s.dev.modDeng (g.val / 256) fun x => { x with reads := x.reads.map fun y =>
          if y.tag = r.tag then { y with pieces := y.pieces.drop 1, used := y.used + b.length } else y }).useData r b).pump
            (g.val / 256))) ∧
  (∀ (s : State) (g : Fin 4096), s.dev.alive = true → s.dev.flag (DMA_ENG_STATUS_STOPPED (g.val / 256)) = false →
    s.dev.chSt g = chRunning → (∀ was old, Mark.armed g was old ∉ s.dev.marks) →
    Does (.completionPost g) s fun d => d = (s.dev.postComp g).pump (g.val / 256)) ∧
  (∀ (s : State) (g : Fin 4096) (was : Bool) (old : Nat) (rest : List Mark), s.dev.alive = true →
    s.dev.flag (DMA_ENG_STATUS_STOPPED (g.val / 256)) = false → s.dev.chSt g = chRunning →
    s.dev.flag (DMA_CH_STATUS_IRQ_ARMED (g.val / 256) (g.val % 256)) = true → s.dev.marks = .armed g was old :: rest →
    Does (.completionPost g) s fun d =>
      let e := ((s.dev.put (DMA_CH_STATUS_IRQ_ARMED (g.val / 256) (g.val % 256)) (b2n was)).put
        (DMA_CH_IRQ_NEXT_NEXT (g.val / 256) (g.val % 256)) old).postComp g
      d = (((e.put (DMA_CH_STATUS_IRQ_ARMED (g.val / 256) (g.val % 256)) 1).put (DMA_CH_IRQ_NEXT_NEXT (g.val / 256) (g.val % 256))
        (s.dev.get (DMA_CH_IRQ_NEXT_NEXT (g.val / 256) (g.val % 256)))).chMsix g).pump (g.val / 256))

/-- The descriptor rows (R341 to R345): each takes the descriptor at HEAD of a running channel of its kind; one whose fields are bad
completes with BAD_DESC and moves no byte. -/
def Obligations.DescriptorRows : Prop :=
  (∀ (s : State) (g : Fin 4096) (i : Nat) (ds : List Byte) (rest : List (Nat × List Byte)), s.dev.alive = true →
    (s.dev.chan g).pre = (i, ds) :: rest →
    (s.dev.canStart g 1 = true → Dev.badRx ds = false → s.dev.tAllowed g (descWord ds 1) (Dev.txLen ds) = true →
      Does (.rxDescriptor g) s fun d =>
        d = (((s.dev.takeDesc g i ds).spent g 1).modChan g fun c => { c with bufs := c.bufs ++ [(i, ds)] }).pump (g.val / 256)) ∧
    (s.dev.canStart g 2 = true → (s.dev.chan g).active = none → Dev.badCopy ds = true →
      Does (.copyDescriptor g) s fun d => d = ((s.dev.failDesc g i ds 4).spent g 1).pump (g.val / 256)) ∧
    (s.dev.canStart g 2 = true → (s.dev.chan g).active = none → Dev.badCopy ds = false →
      s.dev.tAllowed g (descWord ds 1) (bitsOf (descWord ds 0) 32 24) = true →
      s.dev.tAllowed g (descWord ds 2) (bitsOf (descWord ds 0) 32 24) = true → bitOf (descWord ds 0) 62 = false →
      Does (.copyDescriptor g) s fun d =>
        d = (((s.dev.takeDesc g i ds).spent g 1).setActive g (some (.copy i ds
          (((s.dev.takeDesc g i ds).spent g 1).chOffset g) (((s.dev.takeDesc g i ds).spent g 1).chOffset g)))).pump (g.val / 256)) ∧
    (∀ bs, 3 ≤ s.dev.chKind g → s.dev.chKind g ≤ 6 → s.dev.canStart g (s.dev.chKind g) = true → Dev.badBlock ds = false →
      s.dev.tAllowed g (descWord ds 1) 128 = true → (s.dev.chan g).block = some (i, bs) →
      Does (.blockDescriptor g) s fun d =>
        d = ((((s.dev.takeDesc g i ds).spent g 1)).handOver (s.dev.jobOf g i (descWord ds 1) bs)).pump (g.val / 256)) ∧
    (s.dev.canStart g 0 = true → (s.dev.chan g).active = none → rest = [] → bitOf (descWord ds 0) 62 = true →
      Dev.badTx ds = true → Dev.upToEop [(i, ds)] = ([(i, ds)], true) →
      Does (.txDescriptor g) s fun d => d = s.dev.txRefuse g [(i, ds)] 4) ∧
    (∀ e k f, s.dev.canStart g 0 = true → (s.dev.chan g).active = none → rest = [] →
      Dev.upToEop [(i, ds)] = ([(i, ds)], true) → Dev.badTx ds = false → s.dev.txDenied g ds = false →
      s.dev.tAllowed g (descWord ds 1) (Dev.txLen ds) = true →
      s.dev.takeForeign (cellsOf (Nat.max 64 (Dev.txLen ds + 4) + 32)) = (true, e) →
      (e.mark (.admission 8)).addFrame { Frame.new (.dma g) [] 0 e.cycle with
        act := some { queue := bitsOf (descWord ds 2) 48 16, cls := bitsOf (descWord ds 0) 44 3
                      colour := .ofCode (bitsOf (descWord ds 0) 42 2)
                      xform := if bitOf (descWord ds 0) 61 then some (bitsOf (descWord ds 0) 47 14) else none }
        cells := cellsOf (Nat.max 64 (Dev.txLen ds + 4) + 32), cutThrough := some false } = (k, f) →
      Does (.txDescriptor g) s fun d =>
        d = (((f.takeDesc g i ds).setActive g (some (.tx [(i, ds)] k 0 0))).spent g 1).pump (g.val / 256))) ∧
  (∀ (s : State) (g : Fin 4096) (ds : List (Nat × List Byte)) (fr : Nat) (f : Frame) (a : Actions), s.dev.alive = true →
    s.dev.chSt g = chRunning → (s.dev.chan g).active = some (.txDone ds fr) → s.dev.frame? fr = some f → f.act = some a →
    f.stage = .rx → a.xform = none → f.len ≤ s.dev.maxFrame (s.dev.portOf a.queue) →
    let e := (s.dev.setFrame fr { f with stage := .meter }).meterAndAdmit fr
    Does (.txFrameAdmit g) s fun d =>
      d = ((e.setActive g none).txFinish g ds (if (e.frame? fr).isSome then 0 else 1) true).pump (g.val / 256)) ∧
  (∀ (s : State) (g : Fin 4096) (fr dn us of : Nat) (f : Frame) (u v e : Dev), s.dev.alive = true → s.dev.startDue = u →
    u.engRuns (g.val / 256) = true → u.chSt g = chRunning → u.chKind g = 1 → (u.chan g).bufs ≠ [] →
    ((u.chan g).active = some (.rx fr dn us of) ∧ v = u ∨
      (u.chan g).active = none ∧ dn = 0 ∧ us = 0 ∧ of = 0 ∧
        ∃ w, Dev.rxNext g (u.get (DMA_CH_QUEUE_QUEUE (g.val / 256) (g.val % 256))) 65536 u = (some fr, w) ∧
          v = w.setActive g (some (.rx fr 0 0 0))) →
    v.pump (g.val / 256) = e → (e.chan g).grant = true → e.writeDue (g.val / 256) = true →
    (e.chan g).active = some (.rx fr dn us of) →
    let x := e.modChan g fun c => { c with grant := false }
    x.frame? fr = some f →
    Does (.rxFrameDelivery g) s fun d => d = (x.rxWrite g fr f (x.rxBody g f) dn us of).pump (g.val / 256))

/-- The life of a channel and its engine (R328, R334, R354, R355, R357 to R360): a start in set-up locks and runs it, or is refused with
CFG_ERR, a pause drains before it holds, a reset bumps the channel's number and ends in set-up once that is done, a stopped channel
resumes when its engine no longer stops, a freeze pauses the channels of its link, and an ATS invalidation is answered when nothing
of its function is outstanding. -/
def Obligations.ChannelLife : Prop :=
  (∀ (s : State) (dv : Dev) (p : Path) (g : Fin 4096) (data : W32), Reaches s.dev p dv → fieldGet data 0 1 = 1 → dv.chSt g = chSetup →
    (dv.startRefused g = true →
      Does (.dmaStart (p, g) data) s fun d => d = dv.setEvent (DMA_CH_STATUS_CFG_ERR (g.val / 256) (g.val % 256))) ∧
    (dv.startRefused g = false → dv.pauseSrc g = 0 → dv.conditionSrc g = 0 →
      let e := (((dv.put (DMA_CH_STATUS_PAUSE_SRC (g.val / 256) (g.val % 256)) 0).lock
        (DMA_CH_CTRL (g.val / 256) (g.val % 256))).modChan g fun x => { x with started := true, known := true }).setChSt g chRunning
      e.chKind g ≠ 1 →
      Does (.dmaStart (p, g) data) s fun d => d = (e.ltrUpdate (dv.chLink g)).pump (g.val / 256))) ∧
  (∀ (s : State) (dv : Dev) (p : Path) (g : Fin 4096) (data : W32), Reaches s.dev p dv →
    Does (.dmaPause (p, g) data) s fun d =>
      d = (dv.swPut (DMA_CH_CTRL_PAUSE (g.val / 256) (g.val % 256)) (fieldGet data 1 1)).setPause g srcMgr
        (fieldGet data 1 1 == 1)) ∧
  (∀ (s : State) (g : Fin 4096), s.dev.alive = true → s.dev.chSt g = chPausing → s.dev.readsOf g = [] →
    s.dev.jobsGo g = false → ((s.dev.link (s.dev.chLink g)).xwait.any fun w => w.chan == some g.val) = false →
    Does (.channelPaused g) s fun d => d = ((s.dev.dropJobs (·.chan == g.val) false).setBack g).setChSt g chPaused) ∧
  (∀ (s : State) (dv : Dev) (p : Path) (g : Fin 4096) (data : W32), Reaches s.dev p dv → fieldGet data 31 1 = 1 →
    Does (.dmaReset (p, g) data) s fun d => d = dv.chanReset g) ∧
  (∀ (s : State) (g : Fin 4096), s.dev.alive = true → s.dev.chSt g = chResetting → s.dev.bumpPending (.chan g) = false →
    Does (.channelResetComplete g) s fun d => d = (s.dev.endChReset g).pump (g.val / 256)) ∧
  (∀ (s : State) (dv : Dev) (p : Path) (g : Fin 4096) (data : W32), Reaches s.dev p dv → fieldGet data 30 1 = 1 → dv.chSt g = chStopped →
    dv.flag (DMA_ENG_STATUS_STOPPED (g.val / 256)) = false → dv.pauseSrc g = 0 →
    Does (.dmaResume (p, g) data) s fun d =>
      d = ((((dv.setBack g).setChSt g chRunning).put
        (DMA_CH_STATUS_OWN_STALL (g.val / 256) (g.val % 256)) 0).answerHeld g).pump (g.val / 256)) ∧
  (∀ (s : State) (n : Fin 16), s.dev.alive = true → s.dev.flag (DMA_ENG_STATUS_STOPPED n) = true → (s.dev.deng n).reads = [] →
    Does (.engineDrainEnd n) s fun d => d = s.dev.put (DMA_ENG_STATUS_DRAINING n) 0) ∧
  (∀ (s : State) (dv : Dev) (p : Path) (n : Fin 16) (data : W32), Reaches s.dev p dv → fieldGet data 8 1 = 1 →
    (dv.flag (DMA_ENG_STATUS_DRAINING n) = false →
      Does (.dmaClearStop (p, n) data) s fun d => d = ((List.range 8).foldl (fun d l => d.flushX l) (dv.put (DMA_ENG_STATUS_STOPPED n) 0)).pump n) ∧
    (dv.flag (DMA_ENG_STATUS_DRAINING n) = true → Does (.dmaClearStop (p, n) data) s fun d => d = dv)) ∧
  (∀ (s : State) (dv : Dev) (p : Path) (n : Fin 16) (data : W32), Reaches s.dev p dv →
    Does (.dmaEngineEnable (p, n) data) s fun d => d = (dv.put (DMA_ENG_CTRL_ENABLE n) (fieldGet data 0 1)).pump n) ∧
  (∀ (s : State) (e : Fin 16) (l : Fin 8), s.dev.alive = true → s.dev.frozen l = true →
    Does (.freezeAbort e l) s fun d => d = s.dev.freezeAbort e l) ∧
  (∀ (s : State) (l : Fin 8) (f : Fin 2048), s.dev.alive = true → s.dev.allReads = [] → (s.dev.link l).unacked = [] →
    (s.dev.link l).outq = [] → (s.dev.func l f).atsEn = true →
    let e := s.dev.forgetAtc l f
    Does (.atsInvalidation l f) s fun d => d = (e.modLink l fun x => { x with invals := x.invals ++ [(f.val, [], 0)] }).invalEnd l)

/-! ### Saggars -/

/-- The saggar operations (R363 to R367, R374, R376, R378, R383): each runs in the states its rule gives and ends, at once or at a later
row, with its RESULT; the ranges and the function of CREATE are checked first, a channel is allotted while it is in set-up and free and
freed once its bump is done (R36), and DESTROY and RESET begin the same reset. -/
def Obligations.SaggarOperations : Prop :=
  ∀ (s : State) (dv : Dev) (p : Path) (n : Fin 2048) (data : W32) (e : Dev), Reaches s.dev p dv →
    (sagReady dv p n data 1 0 e → e.noResource n = false → e.badFunc n = false →
      Does (.sagCreate p n data) s fun d => d = (((e.createSag n).setSgState n 1).syncUsed n).sagEnd n Dev.sgOk) ∧
    (sagReady dv p n data 1 0 e → e.noResource n = true →
      Does (.sagCreate p n data) s fun d => d = e.sagEnd n Dev.sgNoResource) ∧
    (sagReady dv p n data 2 1 e →
      Does (.sagDestroy p n data) s fun d => d = (e.sagBegin n 2 (fieldGet data 0 12)).sagResetStart n true) ∧
    (sagReady dv p n data 3 1 e →
      Does (.sagReset p n data) s fun d => d = (e.sagBegin n 3 (fieldGet data 0 12)).sagResetStart n false) ∧
    (∀ t0 t js u v0 v, sagReady dv p n data 4 1 e → (e.sagBegin n 4 (fieldGet data 0 12)).setSgState n 2 = t0 →
      (t0.sagChans n).foldl (fun d g => d.setPause g srcSaggar true) t0 = t →
      t.withdrawJobs n = (js, u) → u.backJobs n js = v0 →
      (Dev.rangeOf ((v0.sagRanges n).getD 5 (0, 0))).foldl
        (fun d t => if (Dev.waitSince (d.thread t).wait).isSome then d.unstall t else d) v0 = v →
      let kc := tabMapAll (fun _ => .reset) v.glz.kc fun i c =>
        if Dev.inRangeOf (v.get (SAG_KC_BASE_BASE n), v.get (SAG_KC_COUNT_COUNT n)) i then { c with cached := false } else c
      Does (.sagFreeze p n data) s fun d => d = { v with glz := { v.glz with kc := kc } }) ∧
    (∀ t, sagReady dv p n data 5 3 e → (e.setSgState n 1).put (SAG_STATUS_SAVED n) 0 = t →
      Does (.sagThaw p n data) s fun d =>
        d = ((((t.sagChans n).foldl (fun d g => d.setPause g srcSaggar false) t).handHeld n).svcResume n).sagEnd n Dev.sgOk) ∧
    (sagReady dv p n data 8 1 e → e.chSt (fieldGet data 0 12) = chSetup → (e.chan (fieldGet data 0 12)).allot = none →
      e.get (SAG_CH_CH_USED n) < e.get (SAG_CH_CH_MAX n) →
      let g := fieldGet data 0 12
      let t := (((e.put (DMA_CH_OWNER_MANAGER (g / 256) (g % 256)) 0).put (DMA_CH_OWNER_OWNER (g / 256) (g % 256)) n))
      let u := ((t.put (DMA_CH_CFG_LINK (g / 256) (g % 256)) (t.sagLink n)))
      let v := (u.put (DMA_CH_CFG_FUNC (g / 256) (g % 256)) (t.sagFunc n)).modChan g fun x => { x with allot := some n.val }
      Does (.sagAllotCh p n data) s fun d =>
        d = (v.put (SAG_CH_CH_USED n) (v.get (SAG_CH_CH_USED n) + 1)).sagEnd n Dev.sgOk) ∧
    (sagReady dv p n data 9 1 e → (e.chan (fieldGet data 0 12)).allot = some n.val →
      Does (.sagFreeCh p n data) s fun d =>
        d = ((e.sagBegin n 9 (fieldGet data 0 12)).chanReset (fieldGet data 0 12)).sagOpGo n) ∧
    (∀ d g c, (Dev.sagOf d n).op = some (9, g, c) →
      (d.bumpPending (.chan g) = true → d.sagOpGo n = d) ∧
      (d.bumpPending (.chan g) = false →
        let t := (d.modChan g fun x => { x with allot := none }).modNvme n fun c => { c with chans := c.chans.filter (· != g) }
        let u := (t.put (DMA_CH_OWNER_MANAGER (g / 256) (g % 256)) 1).put (DMA_CH_OWNER_OWNER (g / 256) (g % 256)) 0
        d.sagOpGo n = (u.put (SAG_CH_CH_USED n) (u.get (SAG_CH_CH_USED n) - 1)).sagEnd n Dev.sgOk)) ∧
    (sagReady dv p n data 10 1 e →
      Does (.sagDirtyStart p n data) s fun d =>
        d = ((e.modSag n fun x => { x with dirty := [] }).put (SAG_STATUS_DIRTY_ON n) 1).sagEnd n Dev.sgOk) ∧
    (∀ t u, sagReady dv p n data 11 1 e → (e.modSag n fun x => { x with dirty := [] }) = t →
      t.eventWrite (e.get (SAG_IMG_CFG_CHANNEL n))
        (e.get (SAG_DIRTY_ADDR_LO_ADDR n) + e.get (SAG_DIRTY_ADDR_HI_ADDR n) * 2 ^ 32)
        ((List.range (64 * e.get (SAG_HBM_PAGES_PAGES n))).map fun i => tabGet (fun _ => 0#8) (e.sagOf n).dirty i) = some u →
      (t.get (SAG_IMG_CFG_CHANNEL n) = e.get (SAG_IMG_CFG_CHANNEL n)) →
      Does (.sagDirtyRead p n data) s fun d => d = u.sagEnd n Dev.sgOk) ∧
    (sagReady dv p n data 12 1 e →
      Does (.sagDirtyStop p n data) s fun d => d = (e.put (SAG_STATUS_DIRTY_ON n) 0).sagEnd n Dev.sgOk)

/-- SAVE and RESTORE, and the rows that end a reset and a freeze (R36, R374, R376, R379, R381, R382): SAVE waits while a job of the saggar
runs, and RESTORE rebuilds it from a good image into RESTORING, which ends once its bumps are done.

The mailboxes (R369, R370): a tail is taken in order and at most 16 ahead, else counted; a message goes to the manager's ring with
its place in it and the saggar's number, and back to the tenant's slot. -/
def Obligations.SaggarImagesAndMailboxes : Prop :=
  ((∀ (s : State) (dv : Dev) (p : Path) (n : Fin 2048) (data : W32) (e : Dev), Reaches s.dev p dv → sagReady dv p n data 6 3 e →
    (e.sagOf n).t2mTail = (e.sagOf n).t2mHead → (e.sagOf n).m2tTail = (e.sagOf n).m2tHead →
    e.get (SAG_MBX_STATUS_M2T_DONE n) = e.get (SAG_MBX_M2T_TAIL_TAIL n) →
    e.get (SAG_MBX_STATUS_T2M_POSTED n) = e.get (SAG_MBX_T2M_HEAD_HEAD n) → e.eventChan (e.get (SAG_IMG_CFG_CHANNEL n)) = true →
    Does (.sagSave p n data) s fun d =>
      d = if (e.sagBegin n 6 (fieldGet data 0 12)).jobsRun n = true then e.sagBegin n 6 (fieldGet data 0 12)
          else (e.sagBegin n 6 (fieldGet data 0 12)).saveNow n) ∧
  (∀ (s : State) (dv : Dev) (p : Path) (n : Fin 2048) (data : W32) (host : List Byte) (e r : Dev) (a g len : Nat) (img : List Byte),
    Reaches s.dev p dv → sagReady dv p n data 7 0 e → e.addr64 (SAG_IMG_ADDR_LO_ADDR n) (SAG_IMG_ADDR_HI_ADDR n) 4096 = a →
    Nat.min (2 ^ 24) (Nat.max 4096 (fieldLE (e.fetchT a 4096 host) 24 4)) = len →
    e.ioReadT a 4096 = r → e.get (SAG_IMG_CFG_CHANNEL n) = g → r.eventChan g = true → r.engRuns (g / 256) = true →
    r.tAllowed g a len = true → r.fetchT a len host = img →
    let t := (r.sagBegin n 7 (fieldGet data 0 12)).setSgState n 5
    Does (.sagRestore p n data host) s fun d =>
      match r.imgCheck n img with
      | some x => d = r.sagEnd n x
      | none => r.noResource n = false → (Dev.imgSection img 1).1 ≤ r.freeChans.length → r.badFunc n = false →
          d = ((((t.createSag n).syncUsed n).loadSections n img
            ((t.kwkKey none (t.get (SAG_IMG_KWK_INDEX n))).getD [])).restoreBumps n).sagOpGo n) ∧
  (∀ (d : Dev) (n g c : Nat), (d.sagOf n).op = some (7, g, c) →
    (d.sagBumped n = false → d.sagOpGo n = d) ∧ (d.sagBumped n = true → d.sagOpGo n = d.restored n)) ∧
  (∀ (s : State) (n : Fin 2048), s.dev.alive = true → s.dev.sgState n = 4 → s.dev.sagBumped n = true →
    Does (.sagResetSweep n) s fun d => d = s.dev.sagSweep n) ∧
  (∀ (s : State) (n : Fin 2048), s.dev.alive = true → s.dev.sgState n = 2 → s.dev.sagQuiet n = true →
    Does (.sagFrozenReached n) s fun d =>
      d = if (s.dev.sagOf n).flrWaits = true then ((s.dev.setSgState n 3).sagEnd n Dev.sgOk).sagResetStart n false
          else (s.dev.setSgState n 3).sagEnd n Dev.sgOk)) ∧
  ((∀ (s : State) (dv : Dev) (n : Fin 2048) (data : W32), ReachesBar s.dev (s.dev.sagLink n) (s.dev.sagFunc n) dv → dv.sgState n ≠ 0 →
    let x := dv.sagOf n
    let v := (fieldGet data 0 16 + 65536 - x.t2mHead) % 65536
    let t := (x.t2mTail + 65536 - x.t2mHead) % 65536
    (v ≤ 16 → t ≤ v → Does (.swT2mTail n data) s fun d => d = dv.modSag n fun x => { x with t2mTail := fieldGet data 0 16 }) ∧
    (16 < v ∨ v < t → Does (.swT2mTail n data) s fun d => d = dv.inc (SAG_CNT_MBX_BAD n))) ∧
  (∀ (s : State) (n : Fin 2048) (e : Dev), s.dev.alive = true → s.dev.mbxRuns n = true →
    (s.dev.sagOf n).t2mHead ≠ (s.dev.sagOf n).t2mTail →
    let k := s.dev.get (SAG_MBX_STATUS_T2M_POSTED n)
    (k + 65536 - s.dev.get (SAG_MBX_T2M_HEAD_HEAD n)) % 65536 < 16 →
    s.dev.eventWrite (s.dev.get (SAG_MBX_CFG_CHANNEL n))
      (s.dev.addr64 (SAG_MBX_ADDR_LO_ADDR n) (SAG_MBX_ADDR_HI_ADDR n) 2048 + 64 * (k % 16))
      (overlay (Dev.slotBytes (s.dev.sagOf n).t2m ((s.dev.sagOf n).t2mHead % 16)) 4
        (leBytes 4 (k + n.val * 2 ^ 16 + (if k / 16 % 2 = 0 then 2 ^ 31 else 0)))) = some e →
    let t := ((e.modSag n fun x => { x with t2mHead := (x.t2mHead + 1) % 65536 }).put (SAG_MBX_STATUS_T2M_POSTED n)
      ((k + 1) % 65536)).inc (SAG_CNT_MBX_T2M n)
    Does (.mailboxT2mCopy n) s fun d =>
      d = (t.msix (t.chLink (s.dev.get (SAG_MBX_CFG_CHANNEL n))) 0 (t.get (SAG_MBX_CFG_VECTOR n))).2) ∧
  (∀ (s : State) (dv : Dev) (p : Path) (n : Fin 2048) (data : W32), Reaches s.dev p dv →
    let t := (dv.writeFields p (SAG_MBX_M2T_TAIL n) data).put (SAG_MBX_M2T_TAIL_TAIL n) (fieldGet data 0 16)
    (t.sgState n = 0 ∨ t.get (SAG_MBX_M2T_TAIL_TAIL n) = dv.get (SAG_MBX_M2T_TAIL_TAIL n) →
      Does (.sagMbxM2tTail p n data) s fun d => d = t) ∧
    (t.sgState n ≠ 0 → t.get (SAG_MBX_M2T_TAIL_TAIL n) ≠ dv.get (SAG_MBX_M2T_TAIL_TAIL n) →
      Does (.sagMbxM2tTail p n data) s fun d => d = t.wakeSource (t.sagLink n) (t.sagFunc n))) ∧
  (∀ (s : State) (n : Fin 2048) (host : List Byte), s.dev.alive = true → s.dev.mbxRuns n = true →
    let k := s.dev.get (SAG_MBX_STATUS_M2T_DONE n)
    let g := s.dev.get (SAG_MBX_CFG_CHANNEL n)
    let a := s.dev.addr64 (SAG_MBX_ADDR_LO_ADDR n) (SAG_MBX_ADDR_HI_ADDR n) 2048 + 1024 + 64 * (k % 16)
    let x := s.dev.sagOf n
    k ≠ s.dev.get (SAG_MBX_M2T_TAIL_TAIL n) → (x.m2tTail + 65536 - x.m2tHead) % 65536 < 16 → s.dev.engRuns (g / 256) = true →
    s.dev.tAllowed g a 64 = true →
    let t := (((s.dev.modSag n fun y => { y with
      m2t := Dev.putSlot x.m2t (64 * (x.m2tTail % 16)) (s.dev.fetchT a 64 host)
      m2tTail := (x.m2tTail + 1) % 65536 }).ioReadT a 64).put (SAG_MBX_STATUS_M2T_DONE n) ((k + 1) % 65536)).inc (SAG_CNT_MBX_M2T n)
    (t.sagOf n).irqEn = false → (t.func (t.sagLink n) (t.sagFunc n)).d3hot = false →
    Does (.mailboxM2tCopy n host) s fun d => d = t))

/-! ### Storage -/

/-- The doorbells and controller registers of an emulated controller (R387, R388): a tail within the queue is taken and one beyond it is
an error event, a head frees entries, enabling with supported sizes makes it ready with its admin queues, disabling clears it, and a
shutdown of a clean cache completes at once. -/
def Obligations.ControllerRows : Prop :=
  (∀ (s : State) (dv : Dev) (n : Fin 2048) (y : Fin 65) (data : W32) (q : Sq), ReachesBar s.dev (s.dev.sagLink n) (s.dev.sagFunc n) dv → dv.ctlOn n = true →
    (dv.nvme n).rdy = true → tabGet (fun _ => none) (dv.nvme n).sqs y = some q →
    (fieldGet data 0 16 < q.size →
      Does (.sqTailDoorbell n y data) s fun d =>
        d = dv.modNvme n fun c => { c with sqs := tabSet (fun _ => none) c.sqs y (some { q with tail := fieldGet data 0 16 }) }) ∧
    (q.size ≤ fieldGet data 0 16 → Does (.sqTailDoorbell n y data) s fun d => d = dv.postEvent n 0 1 1)) ∧
  (∀ (s : State) (dv : Dev) (n : Fin 2048) (y : Fin 65) (data : W32) (q : Cq), ReachesBar s.dev (s.dev.sagLink n) (s.dev.sagFunc n) dv → dv.ctlOn n = true →
    (dv.nvme n).rdy = true → tabGet (fun _ => none) (dv.nvme n).cqs y = some q → fieldGet data 0 16 < q.size →
    Does (.cqHeadDoorbell n y data) s fun d =>
      d = Dev.postCqes n 4096 (dv.modNvme n fun c => { c with
        cqs := tabSet (fun _ => none) c.cqs y (some { q with head := fieldGet data 0 16 }) })) ∧
  (∀ (s : State) (dv : Dev) (n : Fin 2048) (data : W32), ReachesBar s.dev (s.dev.sagLink n) (s.dev.sagFunc n) dv → dv.ctlOn n = true → bitOf (dv.nvme n).cc 0 = false →
    data = 0x00460001 → dv.sto.ns = [] →
    let e := dv.modNvme n fun c => { c with cc := 1 + bitsOf c.cc 14 2 * 2 ^ 14 + 0x46 * 2 ^ 16 }
    Does (.ccEnable n data) s fun d =>
      d = e.modNvme n fun c => { c with
        rdy := true
        sqs := [(0, some ⟨c.asq / 4096 * 4096, bitsOf c.aqa 0 12 + 1, 0, 0, 0⟩)]
        cqs := [(0, some ⟨c.acq / 4096 * 4096, bitsOf c.aqa 16 12 + 1, true, 0, 0, 0, true⟩)] }) ∧
  (∀ (s : State) (dv : Dev) (n : Fin 2048) (data : W32), ReachesBar s.dev (s.dev.sagLink n) (s.dev.sagFunc n) dv → dv.ctlOn n = true → bitOf (dv.nvme n).cc 0 = true →
    data = 0 →
    Does (.ccEnable n data) s fun d =>
      d = (dv.modNvme n fun c => { c with cc := bitsOf c.cc 14 2 * 2 ^ 14 }).ctlClear n) ∧
  (∀ (s : State) (dv : Dev) (n : Fin 2048) (data : W32), ReachesBar s.dev (s.dev.sagLink n) (s.dev.sagFunc n) dv → dv.ctlOn n = true → fieldGet data 14 2 = 2 →
    (dv.nvme n).shst = 0 → Dev.dirty (dv.nvme n) = [] →
    Does (.ccShutdown n data) s fun d =>
      (d.nvme n).shst = 2 ∧ bitsOf (d.nvme n).cc 14 2 = 2 ∧ bitsOf (d.nvme n).cc 0 14 = bitsOf (dv.nvme n).cc 0 14 ∧
      d = { dv with sto := d.sto })

/-- The admin commands (R390, R397, R398): each takes the next entry of the admin queue and completes with the result its rule gives. -/
def Obligations.AdminCommands : Prop :=
  ∀ (s : State) (n : Fin 2048) (sqe : List Byte) (x : NvmeCmd) (e : Dev), s.dev.alive = true → sqeBad x.sqe = false →
    let c := e.nvme n
    let qid := bitsOf (cdw x.sqe 10) 0 16
    let size := bitsOf (cdw x.sqe 10) 16 16
    (s.dev.takeCmd n 0 0x01 sqe = some (x, e) → 1 ≤ qid → qid ≤ 64 → tabGet (fun _ => none) c.sqs qid = none →
      1 ≤ bitsOf (cdw x.sqe 11) 16 16 → bitsOf (cdw x.sqe 11) 16 16 ≤ 64 →
      tabGet (fun _ => none) c.cqs (bitsOf (cdw x.sqe 11) 16 16) ≠ none → 1 ≤ size → size ≤ 4095 → bitOf (cdw x.sqe 11) 0 = true →
      Does (.nvmeCreateIoSq n sqe) s fun d =>
        d = (e.modNvme n fun c => { c with
          sqs := tabSet (fun _ => none) c.sqs qid (some ⟨fieldLE x.sqe 24 8, size + 1, bitsOf (cdw x.sqe 11) 16 16, 0, 0⟩) }).done n x 0
          nvOk) ∧
    (s.dev.takeCmd n 0 0x05 sqe = some (x, e) → 1 ≤ qid → qid ≤ 64 → tabGet (fun _ => none) c.cqs qid = none → 1 ≤ size →
      size ≤ 4095 → bitOf (cdw x.sqe 11) 0 = true → bitsOf (cdw x.sqe 11) 16 16 < e.msixSize (e.sagLink n) (e.sagFunc n) →
      Does (.nvmeCreateIoCq n sqe) s fun d =>
        d = (e.modNvme n fun c => { c with
          cqs := tabSet (fun _ => none) c.cqs qid (some ⟨fieldLE x.sqe 24 8, size + 1, bitOf (cdw x.sqe 11) 1,
            bitsOf (cdw x.sqe 11) 16 16, 0, 0, true⟩) }).done n x 0 nvOk) ∧
    (s.dev.takeCmd n 0 0x00 sqe = some (x, e) → tabGet (fun _ => none) c.sqs qid = none →
      Does (.nvmeDeleteIoSq n sqe) s fun d => d = e.done n x 0 (nvSt 1 0x01)) ∧
    (s.dev.takeCmd n 0 0x00 sqe = some (x, e) → 1 ≤ qid → tabGet (fun _ => none) c.sqs qid ≠ none →
      (c.cmds.filter fun y => y.sq == qid) = [] → e.sto.ns = [] →
      Does (.nvmeDeleteIoSq n sqe) s fun d =>
        d = (e.modNvme n fun c => { c with sqs := tabSet (fun _ => none) c.sqs qid none }).done n x 0 nvOk) ∧
    (s.dev.takeCmd n 0 0x04 sqe = some (x, e) → 1 ≤ qid → tabGet (fun _ => none) c.cqs qid ≠ none →
      (c.sqs.all fun kv => (kv.2.map (·.cq)).getD 0 != qid) = true →
      Does (.nvmeDeleteIoCq n sqe) s fun d =>
        d = (e.modNvme n fun c => { c with cqs := tabSet (fun _ => none) c.cqs qid none }).done n x 0 nvOk) ∧
    (∀ prps lid, s.dev.takeCmd n 0 0x02 sqe = some (x, e) → bitsOf (cdw x.sqe 10) 0 8 = lid → lid ∈ logPages →
      let len := (bitsOf (cdw x.sqe 10) 16 16 + bitsOf (cdw x.sqe 11) 0 16 * 2 ^ 16 + 1) * 4
      let f := e.freeBytes len
      len ≤ 262144 →
      Does (.nvmeGetLogPage n sqe prps) s fun d =>
        d = Dev.giveData f.2 n x prps (f.2.logPage n lid (sqeNsid x.sqe) (cdw x.sqe 12 + cdw x.sqe 13 * 2 ^ 32) len f.1)
          (fun st d => if st = nvOk then
            Dev.pumpEvents n 8 ((d.modNvme n fun c => { c with
              changed := if lid = 0x04 then [] else c.changed
              log := if lid = 0xC0 then [] else c.log
              logLost := if lid = 0xC0 then false else c.logLost
              masked := if bitOf (cdw x.sqe 10) 15 then c.masked else c.masked.filter (fun m => m % 256 != lid) }).done n x 0 st)
            else d.done n x 0 st)) ∧
    (∀ prps, s.dev.takeCmd n 0 0x06 sqe = some (x, e) → bitsOf (cdw x.sqe 10) 0 8 = 2 →
      Does (.nvmeIdentify n sqe prps) s fun d =>
        d = Dev.giveData (e.freeBytes 4096).2 n x prps
          (sliceB (((List.range 17).filter fun i => decide (sqeNsid x.sqe < i) && ((e.freeBytes 4096).2.nsFind n i).isSome).flatMap
            (leBytes 4 ·)) 0 4096) (fun st d => d.done n x 0 st)) ∧
    (s.dev.takeCmd n 0 0x08 sqe = some (x, e) → tabGet (fun _ => none) c.sqs qid = none →
      (c.cmds.find? fun y => y.sq == qid && y.cid == size && !(y.sq == x.sq && y.cid == x.cid)) = none →
      (c.cmds.filter fun y => y.sq == 0 && y.wait == .queued && fieldLE y.sqe 0 1 == 0x08).length ≤ 4 →
      Does (.nvmeAbort n sqe []) s fun d => d = (e.inc STO_CNT_ABORT_MISSED).done n x 1 nvOk) ∧
    (s.dev.takeCmd n 0 0x09 sqe = some (x, e) → bitOf (cdw x.sqe 10) 31 = false →
      (bitsOf (cdw x.sqe 10) 0 8 = 0x0B →
        Does (.nvmeSetFeatures n sqe) s fun d => d = (e.modNvme n fun c => { c with aec := cdw x.sqe 11 }).done n x 0 nvOk) ∧
      (bitsOf (cdw x.sqe 10) 0 8 = 0x06 →
        Does (.nvmeSetFeatures n sqe) s fun d => d = (e.modNvme n fun c => { c with vwc := bitOf (cdw x.sqe 11) 0 }).done n x 0 nvOk)) ∧
    (s.dev.takeCmd n 0 0x0A sqe = some (x, e) →
      (bitsOf (cdw x.sqe 10) 0 8 = 0x0B → Does (.nvmeGetFeatures n sqe) s fun d => d = e.done n x c.aec nvOk) ∧
      (bitsOf (cdw x.sqe 10) 0 8 = 0x06 → Does (.nvmeGetFeatures n sqe) s fun d => d = e.done n x (b2n c.vwc) nvOk)) ∧
    (s.dev.takeCmd n 0 0x0C sqe = some (x, e) → (c.cmds.filter fun y => y.wait == .aer).length < 4 →
      Does (.nvmeAsyncEventRequest n sqe) s fun d => d = Dev.pumpEvents n 8 (e.waitFor n x .aer)) ∧
    (s.dev.takeCmd n 0 0x0C sqe = some (x, e) → 4 ≤ (c.cmds.filter fun y => y.wait == .aer).length →
      Does (.nvmeAsyncEventRequest n sqe) s fun d => d = e.done n x 0 (nvSt 1 0x05))

/-- The I/O commands (R389, R390, R394 to R396, R402): a write to an HBM namespace lands there before it completes, a read returns what
is stored, a zeroing stores zeros, a deallocation and a flush complete as their rules say, an append of 1 byte to 64 KiB goes to its
journal and one to a reader is refused; where the namespace is encrypted, the data go through one job for each block, whose outputs are
stored or returned, and a job that fails completes the command with Internal Error; and a command of no known opcode completes with
Invalid Command Opcode. -/
def Obligations.IoCommands : Prop :=
  ∀ (s : State) (n : Fin 2048) (q : Fin 65) (sqe data : List Byte) (x : NvmeCmd) (e : Dev) (k : Nat), s.dev.alive = true → q ≠ 0 →
    let ns := e.nsEnt k
    let slba := sqeSlba x.sqe
    let len := sqeNlb x.sqe * ns.lba
    let next := fun (op : Nat) => s.dev.awaiting n q op sqe = none ∧ s.dev.ciphering n q op sqe = none ∧
      s.dev.takeCmd n q op sqe = some (x, e)
    let ciphered := fun (op m : Nat) (dat : List Byte) (r : Bool) => s.dev.awaiting n q op sqe = none ∧
      s.dev.ciphering n q op sqe = some (x, m, dat) ∧ s.dev.ctlRuns n = true ∧
      e = s.dev.retireJobs (fun k w => k == n.val && match w with | .block y i _ => y == x.sq && i == x.cid | _ => false) ∧
      e.nsFind n (sqeNsid x.sqe) = some (k, r)
    (next 0x01 → e.ioCheck n x slba (sqeNlb x.sqe) true = .ok k → len ≤ 262144 → prpSegs x.sqe len [] ≠ none →
      let u := e.svcMoved n len true
      let v := u.nsEnt k
      let dat := sliceB data 0 len
      (v.inHbm = true → ns.xts = false →
        Does (.nvmeWrite n q sqe data none) s fun d =>
          d = ((u.hbmWrite (u.nsAddr v + slba * v.lba) dat).svcMoved n dat.length false).doneNs n k x nvOk) ∧
      (ns.xts = true → Does (.nvmeWrite n q sqe data none) s fun d => d = u.xtsAsk n ns x true (Dev.lbaBlocks ns slba dat) [])) ∧
    (∀ m dat r out, ciphered 0x01 m dat r → s.dev.xtsOutcome n x m = some (some out) → ns.inHbm = true →
      Does (.nvmeWrite n q sqe data none) s fun d =>
        d = ((e.hbmWrite (e.nsAddr ns + slba * ns.lba) out).svcMoved n out.length false).doneNs n k x nvOk) ∧
    (∀ m dat r, ciphered 0x01 m dat r → s.dev.xtsOutcome n x m = some none →
      Does (.nvmeWrite n q sqe data none) s fun d => d = e.doneNs n k x nvInternal) ∧
    (∀ prps u, next 0x02 → e.ioCheck n x slba (sqeNlb x.sqe) false = .ok k → len ≤ 262144 → ns.inHbm = true →
      e.ioRead (e.nsAddr ns + slba * ns.lba) len = u → u.poisoned (e.nsAddr ns + slba * ns.lba) len = false →
      let v := u.nsEnt k
      let stored := u.overCache v.owner k v.lba slba
        (sliceB (u.hbmRead (e.nsAddr ns + slba * ns.lba) len) 0 (sqeNlb x.sqe * v.lba))
      (v.xts = false →
        Does (.nvmeRead n q sqe prps none) s fun d => d = Dev.giveData u n x prps stored fun st d => d.doneNs n k x st) ∧
      (v.xts = true →
        Does (.nvmeRead n q sqe prps none) s fun d => d = u.xtsAsk n v x false (Dev.lbaBlocks v slba stored) [])) ∧
    (∀ prps m dat r out, ciphered 0x02 m dat r → s.dev.xtsOutcome n x m = some (some out) →
      Does (.nvmeRead n q sqe prps none) s fun d => d = Dev.giveData e n x prps out fun st d => d.doneNs n k x st) ∧
    (next 0x08 → e.ioCheck n x slba (sqeNlb x.sqe) true = .ok k →
      (ns.inHbm = true → ns.xts = false →
        Does (.nvmeWriteZeroes n q sqe none) s fun d =>
          d = ((e.hbmWrite (e.nsAddr ns + slba * ns.lba) (List.replicate len 0#8)).svcMoved n len false).doneNs n k x nvOk) ∧
      (ns.xts = true →
        Does (.nvmeWriteZeroes n q sqe none) s fun d =>
          d = e.xtsAsk n ns x true (Dev.lbaBlocks ns slba (List.replicate len 0#8)) [])) ∧
    (next 0x09 → e.ioCheck n x 0 0 true = .ok k →
      let u := e.svcMoved n (16 * (bitsOf (cdw x.sqe 10) 0 8 + 1)) true
      let v := u.nsEnt k
      let at_ := fieldLE data 8 8
      let nlb := fieldLE data 4 4
      (bitOf (cdw x.sqe 11) 2 = false → Does (.nvmeDatasetManagement n q sqe data none) s fun d => d = u.doneNs n k x nvOk) ∧
      (bitOf (cdw x.sqe 11) 2 = true → bitsOf (cdw x.sqe 10) 0 8 = 0 → ns.size < at_ + nlb →
        Does (.nvmeDatasetManagement n q sqe data none) s fun d => d = u.doneNs n k x nvRange) ∧
      (bitOf (cdw x.sqe 11) 2 = true → bitsOf (cdw x.sqe 10) 0 8 = 0 → v.inHbm = true → ns.xts = false → at_ + nlb ≤ ns.size →
        Does (.nvmeDatasetManagement n q sqe data none) s fun d =>
          d = (u.hbmWrite (u.nsAddr v + at_ * v.lba) (sliceB (List.replicate (nlb * ns.lba) 0#8) 0 (nlb * v.lba))).doneNs n k x nvOk)) ∧
    (s.dev.takeCmd n q 0x00 sqe = some (x, e) → e.nsFind n (sqeNsid x.sqe) = some (k, false) → sqeBad x.sqe = false → ns.isJnl = false →
      (e.nvme n).cache = [] →
      Does (.nvmeFlush n q sqe) s fun d => d = e.doneNs n k x nvOk) ∧
    (s.dev.takeCmd n q 0x81 sqe = some (x, e) → e.nsFind n (sqeNsid x.sqe) = some (k, true) →
      Does (.nvmeJournalAppend n q sqe data) s fun d => d = e.doneNs n k x nvProtected) ∧
    (s.dev.takeCmd n q 0x81 sqe = some (x, e) → e.nsFind n (sqeNsid x.sqe) = some (k, false) → sqeBad x.sqe = false → ns.isJnl = true →
      1 ≤ bitsOf (cdw x.sqe 10) 0 17 → bitsOf (cdw x.sqe 10) 0 17 ≤ 65536 → prpSegs x.sqe (bitsOf (cdw x.sqe 10) 0 17) [] ≠ none →
      Does (.nvmeJournalAppend n q sqe data) s fun d =>
        d = ((e.svcMoved n (bitsOf (cdw x.sqe 10) 0 17) true).waitFor n x (.chain k)).takeAppend k
          ⟨n, q, x.cid, bitOf (cdw x.sqe 12) 30, bitsOf (cdw x.sqe 11) 0 16, fieldLE x.sqe 56 8,
            sliceB data 0 (bitsOf (cdw x.sqe 10) 0 17)⟩) ∧
    ((s.dev.nvme n).cmds = [] → fieldLE sqe 0 1 ∉ ioOps → s.dev.takeCmd n q (fieldLE sqe 0 1) sqe = some (x, e) →
      Does (.nvmeInvalidOpcode n q sqe) s fun d => d = e.done n x 0 nvBadOp)

/-- What happens to commands, cached writes and journals by themselves (R393, R395 to R397, R399, R400, R402, R407, R408, R411): PS1 is entered
when nothing is left to do, a cached write is acknowledged or fails, a target that does not answer in its time and a command unresolved
after 240 s complete with their errors, and a journal seals after its batch time, once both signatures are there, or faults; what a reset
has abandoned and returns late is compared and counted (R400). -/
def Obligations.StorageEvents : Prop :=
  (∀ (s : State) (n : Fin 2048) (x : NvmeCmd), s.dev.alive = true → (s.dev.nvme n).cmds = [x] → x.wait = .ps1 false →
    Dev.dirty (s.dev.nvme n) = [] → s.dev.ctlRuns n = true →
    Does (.ps1EntryComplete n) s fun d =>
      d = ((List.range (s.dev.nvme n).svcThreads).foldl (fun d i => d.modThread (d.get (SAG_THREADS_BASE n) + i) fun t =>
        { t with wait := .twait 0 }) (s.dev.modNvme n fun c => { c with ps := 1 })).done n x 0 nvOk) ∧
  (∀ (s : State) (n : Fin 2048) (id : Nat), s.dev.alive = true → ((Dev.dirty (s.dev.nvme n)).any fun w => w.id == id) = true →
    Does (.backgroundWriteDone n id) s fun d =>
      d = (s.dev.modNvme n fun c => { c with cache := c.cache.filter (fun w => w.id != id || w.failed) }).cacheSettled n id false) ∧
  (∀ (s : State) (n : Fin 2048) (id st : Nat), s.dev.alive = true → ((Dev.dirty (s.dev.nvme n)).find? fun w => w.id == id) = none →
    Does (.deferredWriteError n id st) s fun d => d = s.dev.lateReturn n (.cached id)) ∧
  (∀ (s : State) (n : Fin 2048) (id st : Nat) (w : CacheW), s.dev.alive = true →
    ((Dev.dirty (s.dev.nvme n)).find? fun w => w.id == id) = some w →
    let t := s.dev.modNvme n fun c => { c with
      cache := (c.cache.map fun w => if w.id = id then { w with failed := true } else w).filter fun w => !(w.failed && w.nlb == 0) }
    let l := (t.modNvme n fun c => { c with
      log := if c.log.length < 64 then c.log ++ [⟨(t.nsEnt w.ns).nsid, w.wslba, w.wnlb, st, t.time.net / 2 ^ 32⟩] else c.log
      logLost := if c.log.length < 64 then c.logLost else true }).inc STO_CNT_DEFERRED_ERRORS
    let u := ((l.setNs w.ns { l.nsEnt w.ns with flag := true }).setEvent STO_EVENT_DEFERRED)
    Does (.deferredWriteError n id st) s fun d => d = u.free.2.cacheSettled n id true ∨
      d = (u.free.2.postEvent n 7 1 0xC0).cacheSettled n id true) ∧
  (∀ (s : State) (n : Fin 2048) (x : NvmeCmd) (t since k : Nat) (r : Bool), s.dev.alive = true → (s.dev.nvme n).cmds = [x] →
    x.wait = .target t since → since + Nat.min 230 (fieldLE (s.dev.tgtEnt t) 56 2) * 3000000000 ≤ s.dev.cycle → x.sq ≠ 0 →
    s.dev.svcRuns n = true →
    let e := s.dev.modNvme n fun c => { c with conns := c.conns.filter (· != t) }
    let u := if e.tgtUsable n t then e.tgtOpen n t else e
    u.nsFind n (sqeNsid x.sqe) = some (k, r) →
    Does (.targetTimeout n) s fun d => d = u.doneNs n k x nvTransport) ∧
  (∀ (s : State) (n : Fin 2048) (x : NvmeCmd) (e : Dev), s.dev.alive = true →
    (s.dev.modNvme n fun c => { c with late := c.late.filter fun y => decide (s.dev.cycle < y.at_ + 240 * 3000000000) }) = e →
    (e.nvme n).cmds = [x] → x.wait = .queued → x.at_ + 240 * 3000000000 ≤ s.dev.cycle →
    Does (.storageTimeout n) s fun d => d = ((e.done n x 0 nvInternal).inc STO_CNT_TIMEOUT_ABANDON).setEvent STO_EVENT_TIMEOUT) ∧
  (∀ (s : State) (n : Fin 4096), s.dev.alive = true →
    ((s.dev.nsEnt n).jnl.chained ≠ [] → Does (.sherdDurable n) s fun d => d = s.dev.sherdDurable n) ∧
    ((s.dev.nsEnt n).jnl.chained = [] →
      Does (.sherdDurable n) s fun d => d = s.dev.lateReturn (s.dev.nsEnt n).owner (.sherd n))) ∧
  (∀ (s : State) (n : Fin 4096) (t : Nat), s.dev.alive = true → (s.dev.nsEnt n).jnl.head.firstAt = some t →
    t + Nat.max 1 (s.dev.nsEnt n).batchMs * 3000000 ≤ s.dev.cycle + (s.dev.nsEnt n).jnl.head.ran →
    Does (.batchTimeout n) s fun d => d = s.dev.startSeal n) ∧
  (∀ (s : State) (n : Fin 4096) (o : Fin 2048) (y : Sealing), s.dev.alive = true → (s.dev.nsEnt n).jnl.sealing = some y →
    (s.dev.nsEnt n).owner = o.val → s.dev.svcRuns o = true →
    (∀ a dsa, s.dev.stoAns o (.sign n dsa) = some a → a.status ≠ pkOk →
      Does (.sealChained n o) s fun d => d = s.dev.journalFault n 0) ∧
    (∀ ec ds, s.dev.stoAns o (.sign n false) = some ec → s.dev.stoAns o (.sign n true) = some ds → ec.status = pkOk →
      ds.status = pkOk →
      let e := s.dev.retireJobs fun _ w => w == .sign n false || w == .sign n true
      let c := (e.modJnl n fun j => { j with sealing := none, resume := none, waiting := [] }).chainAs n 2 0 0 (y.body ++ ec.out ++ ds.out)
        none (y.time, y.flags)
      let f := match (s.dev.nsEnt n).jnl.resume with | some app => c.chainResume n app | none => c
      Does (.sealChained n o) s fun d => d = (s.dev.nsEnt n).jnl.waiting.foldl (fun d a => d.takeAppend n a) f)) ∧
  (∀ (s : State) (n : Fin 4096) (st : Nat), s.dev.alive = true → (s.dev.nsEnt n).jnl.chained ≠ [] →
    Does (.journalWriteFault n st) s fun d => d = s.dev.journalFault n st)

/-- The indirect commands of STO (R46, R386, R392, R411, R413 to R415): reads fill the data registers, writes check their reserved fields
and set the entry, a change of an enabled controller's entry is refused, clearing ENABLE resets it, a seal of a journal with nothing
unsealed ends at once, another one starts, and a resume takes a journal in FAULT back to its durable end; and ENABLE locks the block. -/
def Obligations.StorageIndirect : Prop :=
  (∀ (s : State) (dv : Dev) (p : Path) (data : W32) (e : Dev), Reaches s.dev p dv → dv.writeFields p STO_IND_CMD data = e →
    e.flag STO_IND_STATUS_BUSY = false →
    let i := fieldGet data 0 12
    let op := fieldGet data 24 3
    (op = 1 → Does (.readNs p data) s fun d => d = (e.indFill (STO_IND_DATA 0) (Dev.nsWords (e.nsEnt i))).stoEnd 0x00) ∧
    (∀ old ok, op = 2 → Dev.nsBad { e.nsEnt i with cfg := Dev.fixBatch (e.bytesFrom 10) } = true →
      Does (.writeNs p data old ok) s fun d => d = e.stoEnd 0x0B) ∧
    (∀ old ok, op = 2 → Dev.nsBad { e.nsEnt i with cfg := Dev.fixBatch (e.bytesFrom 10) } = false → (e.nsEnt i).valid = false →
      NsEnt.valid { e.nsEnt i with cfg := Dev.fixBatch (e.bytesFrom 10) } = false →
      Does (.writeNs p data old ok) s fun d =>
        d = ((e.cacheGone i).setNs i { e.nsEnt i with cfg := Dev.fixBatch (e.bytesFrom 10), jnl := .reset, flag := false }).stoEnd 0x00) ∧
    (op = 3 → i < 1024 →
      Does (.readTgt p data) s fun d => d = (e.indFill (STO_IND_DATA 0) (Dev.wordsOf (e.tgtEnt i) 16)).stoEnd 0x00) ∧
    (op = 4 → i < 1024 → bitsOf (fieldLE (e.bytesFrom 16) 40 4) 11 18 = 0 → bitsOf (fieldLE (e.bytesFrom 16) 40 4) 29 2 ≠ 3 →
      bitsOf (fieldLE (e.bytesFrom 16) 44 4) 20 12 = 0 →
      Does (.writeTgt p data) s fun d =>
        d = (e.setSto fun s => { s with
          tgt := tabSet (fun _ => tgtReset) s.tgt i
            (overlay (e.bytesFrom 16) 56 (leBytes 2 (Nat.min 230 (fieldLE (e.bytesFrom 16) 56 2)))) }).stoEnd 0x00) ∧
    (op = 5 → i < 2048 →
      Does (.readCtl p data) s fun d => d = (e.indFill (STO_IND_DATA 0) (Dev.wordsOf (e.nvme i).cfg 4)).stoEnd 0x00) ∧
    (op = 6 → i < 2048 → 1 ≤ bitsOf (fieldLE (e.bytesFrom 4) 0 4) 0 4 → bitsOf (fieldLE (e.bytesFrom 4) 0 4) 0 4 ≤ 8 →
      bitsOf (fieldLE (e.bytesFrom 4) 0 4) 4 27 = 0 → fieldLE (e.bytesFrom 4) 14 2 = 0 →
      ((e.nvme i).enabled = true → bitOf (fieldLE (e.bytesFrom 4) 0 4) 31 = true → e.bytesFrom 4 ≠ (e.nvme i).cfg →
        Does (.writeCtl p data) s fun d => d = e.stoEnd 0x10) ∧
      ((e.nvme i).enabled = true → bitOf (fieldLE (e.bytesFrom 4) 0 4) 31 = false →
        Does (.writeCtl p data) s fun d => d = (((e.ctlReset i).dropChans i).modNvme i fun c => { c with cfg := e.bytesFrom 4 }).stoEnd 0x00) ∧
      ((e.nvme i).enabled = false → bitOf (fieldLE (e.bytesFrom 4) 0 4) 31 = false →
        Does (.writeCtl p data) s fun d => d = (e.modNvme i fun c => { c with cfg := e.bytesFrom 4 }).stoEnd 0x00) ∧
      ((e.nvme i).enabled = false → bitOf (fieldLE (e.bytesFrom 4) 0 4) 31 = true → e.isNvme (e.sagLink i) (e.sagFunc i) = true →
        Does (.writeCtl p data) s fun d =>
          d = ((e.modNvme i fun c => { c with cfg := e.bytesFrom 4 }).takeChans i).stoEnd 0x00)) ∧
    (op = 7 → fieldGet data 20 2 = 0 → (e.nsEnt i).valid = true → (e.nsEnt i).isJnl = true → (e.nsEnt i).jnl.state ≠ 2 →
      ((e.nsEnt i).jnl.head.unsealed = 0 → Does (.journalSeal p data) s fun d => d = e.stoEnd 0x00) ∧
      ((e.nsEnt i).jnl.head.unsealed ≠ 0 →
        Does (.journalSeal p data) s fun d =>
          d = ((e.setSto fun s => { s with op := some (i, (e.nsEnt i).jnl.head.seq) }).put STO_IND_STATUS_BUSY 1).startSeal i)) ∧
    (op = 7 → fieldGet data 20 2 = 1 → (e.nsEnt i).valid = true → (e.nsEnt i).isJnl = true → (e.nsEnt i).jnl.state = 2 →
      (e.nsEnt i).inHbm = true →
      let j := (e.nsEnt i).jnl
      let t := (e.hbmZero (e.nsAddr (e.nsEnt i) + j.durable.off) (j.high - j.durable.off)).modJnl i fun j =>
        { j with state := 0, high := (e.nsEnt i).jnl.durable.off }
      Does (.journalResume p data) s fun d =>
        d = ((t.setSto fun s => { s with op := some (i, j.durable.seq) }).put STO_IND_STATUS_BUSY 1).chainResume i 2)) ∧
  (∀ (s : State) (dv : Dev) (p : Path) (data : W32), Reaches s.dev p dv → fieldGet data 0 1 = 1 →
    Does (.storageEnable p data) s fun d => d = ((dv.writeFields p STO_CTRL data).put STO_CTRL_ENABLE 1).lock STO_CTRL)

/-! ### Resets, clocks and power -/

/-- Power and package resets (R421, R427 to R429, R431, R446, R489): standby power-on and main power-good begin anew with the cause of the
reset, the loss of main power takes the part down, a warm reset needs its key and clears the HBM, an oscillator failure holds every
domain but AON, and the I3C port answers while standby is good. -/
def Obligations.PowerAndResets : Prop :=
  (∀ (s : State), s.dev.pkg.standby = false → Does .standbyPowerOn s fun d =>
    d = s.dev.porReset true ∧ d.pkg.standby = true ∧ d.boot.powered = false ∧ d.boot.fuses = s.dev.cutFlash.boot.fuses) ∧
  (∀ (s : State) (sel : Fin 4), s.dev.pkg.standby = true → s.dev.boot.powered = false →
    Does (.mainPowerGood sel) s fun d =>
      d.boot.powered = true ∧ d.boot.profileSel = sel ∧ d.pkg.porPending = false ∧ d.alive = true ∧ d.mem.hbm = [] ∧
      d.boot.fuses = s.dev.cutFlash.boot.fuses ∧ d.get RST_CAUSE_CAUSE = (if s.dev.pkg.porPending = true then causePor else causeMain)) ∧
  (∀ (s : State), s.dev.pkg.standby = true → s.dev.boot.powered = true →
    Does .mainUndervoltage s (fun d => d = s.dev.mainLost ∧ d.boot.powered = false ∧ d.get RST_CAUSE_CAUSE = causeMain) ∧
    Does .mainOvervoltage s (fun d => d = s.dev.mainLost ∧ d.boot.powered = false) ∧
    Does .vstbyLoss s fun d => d.pkg.standby = false ∧ d.boot.powered = false ∧ d.boot.fuses = s.dev.cutFlash.boot.fuses) ∧
  (∀ (s : State) (dv : Dev) (p : Path) (data : W32), Reaches s.dev p dv →
    (fieldGet data 31 1 = 1 → fieldGet data 0 8 = 0xA5 → Does (.rstWarm p data) s fun d => d = dv.warmReset causeWarm) ∧
    (fieldGet data 0 8 ≠ 0xA5 → Does (.rstWarm p data) s fun d => d = dv)) ∧
  (∀ (s : State) (key : Byte), s.dev.pkg.standby = true →
    Does (.i3cWarmReset key) s fun d => d = if key = 0xA5#8 then s.dev.warmReset causeI3c else s.dev) ∧
  (∀ (d : Dev) (c : Nat), d.pkg.lastWarm ≠ some (d.cycle * 5 / 96) → c ≠ causeFatal → c < 16 →
    (d.warmReset c).mem.hbm = [] ∧ (d.warmReset c).frames = [] ∧ (d.warmReset c).time = d.time ∧ (d.warmReset c).cycle = d.cycle ∧
    (d.warmReset c).get RST_WARM_COUNT_COUNT = satAdd 16 (d.get RST_WARM_COUNT_COUNT) 1 ∧
    (d.warmReset c).get RST_CAUSE_CAUSE = c) ∧
  (∀ (s : State), s.dev.pkg.standby = true → s.dev.pkg.oscBad = false →
    Does .oscFail s fun d => d.alive = false ∧ d.pkg.oscBad = true ∧ d.flag CLK_PLL_EVENT_OSC_FAIL = true ∧ d.core.threads = [] ∧
      d.dma.chans = [] ∧ d.mem.hbm = []) ∧
  (∀ (s : State), s.dev.pkg.standby = true →
    Does .i3cStatus s (fun d => d = s.dev.emit (.i3c (leBytes 4 (s.dev.rd BOOT_STATUS).toNat ++ leBytes 4 (s.dev.rd RST_CAUSE).toNat ++
      leBytes 4 (s.dev.rd RST_WARM_COUNT).toNat ++ leBytes 4 (s.dev.rd BOOT_FUSE_STATUS).toNat))) ∧
    Does .i3cCones s fun d =>
      d = s.dev.emit (.i3c (leBytes 4 (s.dev.rd RAS_CONE_HOT).toNat ++ leBytes 4 (s.dev.rd RAS_CONE_MARGIN).toNat)))

/-- Clocks, crossings, quadrants and cones (R420, R421, R425, R430, R439, R495, R497, R498): a PLL's lock and its loss show, one of the
first five is fatal, that of HIF freezes the links and that of TIME takes the time unit out of its state; a crossing reconnects once its
reset half is out of reset, and the writes held in front of it land; quadrants stop, are held and are released once the image is
verified; temperatures and wear are taken up per cone, and a trip ends when the part is cool. -/
def Obligations.ClockAndConeRows : Prop :=
  (∀ (s : State) (i : Fin 8), s.dev.alive = true →
    Does (.pllRelock i) s fun d => d = if i = 0 then s.dev else s.dev.put ⟨CLK_PLL_STATUS, i, 1⟩ 1) ∧
  (∀ (s : State) (i : Fin 8), s.dev.alive = true →
    let e := ((s.dev.put ⟨CLK_PLL_STATUS, i, 1⟩ 0).setEvent ⟨CLK_PLL_EVENT, i, 1⟩).inc CLK_CNT_PLL_LOSS
    let f := e.rasError (.of 0x19 i .uc 0)
    ((i = 0 ∨ s.dev.flag ⟨CLK_PLL_STATUS, i, 1⟩ = false) → Does (.pllLockLoss i) s fun d => d = s.dev) ∧
    (i ≠ 0 → s.dev.flag ⟨CLK_PLL_STATUS, i, 1⟩ = true →
      (i.val < 6 → Does (.pllLockLoss i) s fun d => d = e.fatal (.of 0x19 i .fatal 0)) ∧
      (i = 6 → Does (.pllLockLoss i) s fun d =>
        d = (f.linksOf 0 ++ f.linksOf 1).foldl (fun d l => (d.inc (HIF_CNT_UNCORR_ERR (l / 4) (l % 4))).freezeLink l 7) f) ∧
      (i = 7 → Does (.pllLockLoss i) s fun d => d = (f.put TIME_SYNC_STATE 0).applyLoss (f.put TIME_SYNC_STATE 0).cycle))) ∧
  (∀ (s : State) (x : Crossing), s.dev.alive = true →
    let free := match x with
      | .core q => !bitOf (s.dev.get RST_QUAD_STATUS_RESETTING) q
      | .kiln k => !s.dev.kilnHeld k
      | .hif l => !s.dev.hif.perst.contains (l.val / 4)
      | _ => true
    let e := { s.dev with pkg := { s.dev.pkg with severed := s.dev.pkg.severed.filter (· != x) } }
    let u := { e with pkg := { e.pkg with held := e.pkg.held.filter fun w => e.behind w.2.1 } }
    (free = true → s.dev.severed x = true →
      Does (.crossingReconnect x) s fun d =>
        d = (e.pkg.held.filter fun w => !e.behind w.2.1).foldl (fun d w => d.busWrite w.1 w.2.1 w.2.2 ⟨[], [], false, [], []⟩) u) ∧
    ((free = false ∨ s.dev.severed x = false) → Does (.crossingReconnect x) s fun d => d = s.dev)) ∧
  (∀ (s : State) (dv : Dev) (p : Path) (data : W32) (e : Dev), Reaches s.dev p dv → dv.writeFields p RST_QUAD_CTRL data = e →
    Does (.quadrantReset p data) s fun d =>
      d = [0, 1, 2, 3].foldl (fun (d : Dev) (q : Fin 4) => if bitOf data.toNat q then d.quadAsk q else d) e) ∧
  (∀ (s : State) (q : Fin 4), s.dev.alive = true →
    let bumps := (List.range 8).any fun i => s.dev.bumpPending (.kiln (8 * q.val + i))
    let mine := fun t => !Dev.isMgmt t && Dev.quadOf t == q.val
    let e := (s.dev.dropEnds mine).clearThreads mine
    let u := { e with pkg := { e.pkg with quads := e.pkg.quads.filter fun x => x.1 != q.val } }
    ((s.dev.pkg.quads.contains (q.val, true) = false ∨ bumps = true) → Does (.quadrantResetDone q) s fun d => d = s.dev) ∧
    (s.dev.pkg.quads.contains (q.val, true) = true → bumps = false →
      Does (.quadrantResetDone q) s fun d =>
        d = ((u.put ⟨RST_QUAD_STATUS, q, 1⟩ 1).put ⟨RST_QUAD_STATUS, 16 + q, 1⟩ 0).setEvent ⟨RST_QUAD_STATUS, 8 + q, 1⟩)) ∧
  (∀ (s : State) (dv : Dev) (p : Path) (data : W32) (e : Dev), Reaches s.dev p dv → dv.writeFields p BOOT_QUAD_REL data = e →
    (fieldGet data 0 4 = 0 → Does (.bootQuadRel p data) s fun d => d = e) ∧
    (fieldGet data 0 4 ≠ 0 → e.flag BOOT_STATUS_VERIFIED = false → Does (.bootQuadRel p data) s fun d => d = e.inc BOOT_GATE_VIOL) ∧
    (fieldGet data 0 4 ≠ 0 → e.flag BOOT_STATUS_VERIFIED = true →
      let start := fun (d : Dev) (q : Nat) => (List.range 8).foldl (fun x i =>
        if x.flag (RAS_KILN_MAP_VALID (8 * q + i)) && !x.kilnHeld (8 * q + i) then x.startKiln (8 * q + i) else x)
          (d.put ⟨RST_QUAD_STATUS, q, 1⟩ 0)
      Does (.bootQuadRel p data) s fun d =>
        d = (List.range 4).foldl (fun d q => if bitOf data.toNat q && bitOf (d.get RST_QUAD_STATUS_HELD) q &&
          !bitOf (d.get RST_QUAD_STATUS_RESETTING) q then start d q else d) e)) ∧
  (∀ (s : State) (temps : List (BitVec 16)) (odd : List Bool), s.dev.boot.powered = true → s.dev.pkg.standby = true →
    let r := s.dev.conesRead temps odd
    let e := r.conesSum.conesWarn
    (∀ c : Fin 60, r.get (RAS_CONE_TEMP_TEMP c) = (temps.getD c 0#16).toNat ∧
      ((s.dev.cone c).bad = false → odd.getD c false = false → r.flag (RAS_CONE_TEMP_VALID c) = true)) ∧
    ((e.coneReads.find? fun x => decide (3 ≤ (e.cone x.1).hot)) = none → Does (.coneTempReading temps odd) s fun d => d = e) ∧
    (∀ x, (e.coneReads.find? fun x => decide (3 ≤ (e.cone x.1).hot)) = some x →
      Does (.coneTempReading temps odd) s fun d => d = e.thermalTrip (Dev.coneDie x.1) x.1)) ∧
  (∀ (s : State) (die : Fin 3), s.dev.alive = true →
    Does (.analogThermalTrip die) s fun d => d = s.dev.free.2.thermalTrip die (s.dev.free.1 % 2 ^ 64)) ∧
  (∀ (s : State), s.dev.alive = true → s.dev.pkg.trip = true → s.dev.boot.started = true →
    (s.dev.coneReads.all fun x => decide (x.2 < 760)) = true →
    Does .thermtripRelease s fun d => d = ({ s.dev with pkg := { s.dev.pkg with trip := false } }).emit (.pin .thermtripN true)) ∧
  (∀ (s : State) (shifts : List (Option Nat)), s.dev.boot.powered = true → s.dev.pkg.standby = true →
    let e := s.dev.wearRead shifts
    (∀ c : Fin 60, ∀ x, shifts.getD c none = some x → e.get (RAS_CONE_WEAR_SHIFT c) = Nat.min 8191 x ∧
      e.get (RAS_CONE_WEAR_MARGIN c) = 1000 * (4000 - x) / 4000 ∧
      ((s.dev.cone c).bad = false → e.flag (RAS_CONE_WEAR_VALID c) = true)) ∧
    Does (.coneWearMeasure shifts) s fun d =>
      d = (e.wearJudge s.dev 3200 RAS_CONE_EVENT_WEAR_WARN).wearJudge s.dev 4000 RAS_CONE_EVENT_WEAR_LIMIT)

/-! ### Boot -/

/-- The boot sequence (R20, R434, R437 to R440, R445): BISQUE starts 2 ms after the reset, takes the trial, the preferred and the other slot in
order, checks header, signatures and digests, and after them what the flash could not correct, writes segments through the island's port, which admits the image's targets and nothing
else, opens the gate only behind the last digest, and enters RECOVERY when every slot has failed. -/
def Obligations.BootRows : Prop :=
  (∀ (s : State) (bad : List Nat), s.dev.alive = true → s.dev.boot.started = false → s.dev.boot.since + 6000000 ≤ s.dev.cycle →
    Does (.bisqueStart bad) s (fun d => ∃ t, d.boot.attempt = some t ∧ t.phase = .header) ∧
    ((s.dev.chooseProfile bad).2.preload = [] → Does (.bisqueStart bad) s fun d =>
      d.boot.started = true ∧ d.boot.profile = (s.dev.chooseProfile bad).2 ∧
      ∃ t, d.boot.attempt = some t ∧ t.phase = .header ∧ t.slot :: t.rest =
        ((if s.dev.bootRecord.2.trial = 0 then [] else [s.dev.bootRecord.2.trial - 1]) ++
          [s.dev.bootRecord.2.preferred, 1 - s.dev.bootRecord.2.preferred]).eraseDups)) ∧
  (∀ (s : State) (t : Attempt), s.dev.alive = true → s.dev.boot.attempt = some t → s.dev.bisqueRuns = true →
    (∀ uncorr, t.phase = .header →
      let u := s.dev.put BOOT_STATUS_STAGE 2
      let rd := u.imageSrc t.slot
      let e := if uncorr = true ∧ t.slot < 2 then u.flashBad (slotBase t.slot) else u
      (imageHdr rd = none →
        Does (.imageHeaderCheck uncorr) s fun d => d = e.attemptFails t (Dev.rawHdr rd) btImageBad) ∧
      (∀ h, imageHdr rd = some h →
        (keySlotBad e.boot.fuses rd h = true → Does (.imageHeaderCheck uncorr) s fun d => d = e.attemptFails t h btKeySlot) ∧
        (keySlotBad e.boot.fuses rd h = false → h.svn < e.boot.fuses.rollback →
          Does (.imageHeaderCheck uncorr) s fun d => d = e.attemptFails t h btRollback) ∧
        (keySlotBad e.boot.fuses rd h = false → e.boot.fuses.rollback ≤ h.svn →
          Does (.imageHeaderCheck uncorr) s fun d => d = e.setPhase { t with hdr := h, flash := uncorr } .sigs))) ∧
    (t.phase = .sigs →
      Does .signaturesDecided s fun d =>
        d = if sigsOk (s.dev.imageSrc t.slot) = false then s.dev.attemptFails t t.hdr btSigFail
            else if t.flash = true then s.dev.attemptFails t t.hdr btFlashErr
            else s.dev.setPhase t (if s.dev.boot.hbmTrained = true then .seg 0 else .hbm)) ∧
    (∀ uncorr k g e, t.phase = .seg k → t.hdr.segs[k]? = some g → s.dev.boot.hbmTrained = true → g.toHbm = true →
      (s.dev.islandWrite g.load (s.dev.imageSrc t.slot g.offset g.length)).setBoot (fun b => { b with
        wrote := b.wrote ++ [(g.load, g.length)] }) = e →
      let f := if uncorr = true ∧ t.slot < 2 then e.flashBad (slotBase t.slot + g.offset) else e
      Does (.segmentDigest uncorr) s fun d =>
        d = if sha384 (s.dev.imageSrc t.slot g.offset g.length) ≠ g.digest then f.attemptFails t t.hdr btDigest
            else if uncorr = true then f.attemptFails t t.hdr btFlashErr
            else (f.segmentGood g).setPhase t (if k + 1 < t.hdr.segs.length then .seg (k + 1) else .last)) ∧
    (t.phase = .last →
      Does .imageVerified s fun d => d.flag BOOT_STATUS_GATE_OPEN = true ∧ d.boot.attempt = none) ∧
    (t.phase ≠ .last → Does .imageVerified s fun d => d = s.dev) ∧
    (t.phase = .failed → t.rest = [] →
      Does .nextImageAttempt s fun d =>
        d = ((s.dev.put BOOT_STATUS_FAILED 1).put BOOT_STATUS_STAGE 6).setBoot fun b => { b with attempt := none }) ∧
    (∀ k ks, t.phase = .failed → t.rest = k :: ks →
      Does .nextImageAttempt s fun d => d = s.dev.setBoot fun b => { b with attempt := some ⟨k, ks, .header, .none, true, false⟩ })) ∧
  (∀ (d : Dev) (a : Nat) (bs : List Byte),
    ((∃ r ∈ d.islandPort, r.1 ≤ a ∧ a + bs.length ≤ r.1 + r.2) →
      d.islandWrite a bs = if d.inKc a bs.length then d else d.hbmWrite a bs) ∧
    ((∀ r ∈ d.islandPort, r.1 ≤ a → r.1 + r.2 < a + bs.length) → d.islandWrite a bs = d)) ∧
  (∀ (s : State), s.dev.alive = true → s.dev.flag ⟨CLK_PLL_STATUS, 5, 1⟩ = true → s.dev.boot.attempt = none →
    Does .hbmTrainingComplete s fun d => d = s.dev.setBoot fun b => { b with hbmTrained := true })

/-- The flash operations and the recovery port (R446, R448, R449): an operation begins while no other runs and the gate is open, and its end
does its work; RECOVERY takes an image over I3C and attempts it as image 2. -/
def Obligations.FlashAndRecovery : Prop :=
  (∀ (s : State) (dv : Dev) (p : Path) (data : W32) (op : Nat) (row : Instr) (e : Dev), Reaches s.dev p dv →
    (op = 1 ∧ row = .writeImage p data ∨ op = 2 ∧ row = .writeProfile p data ∨ op = 3 ∧ row = .setTrial p data ∨
      op = 4 ∧ row = .bootConfirm p data ∨ op = 5 ∧ row = .readCert p data ∨ op = 6 ∧ row = .raiseRollback p data ∨
      op = 7 ∧ row = .revokeSlot p data ∨ op = 8 ∧ row = .readLog p data) →
    dv.writeFields p BOOT_FLASH_CMD data = e → fieldGet data 28 4 = op →
    (dv.flag BOOT_FLASH_STATUS_BUSY = true → Does row s fun d => d = dv.inc BOOT_GATE_VIOL) ∧
    (dv.flag BOOT_FLASH_STATUS_BUSY = false → e.flag BOOT_STATUS_GATE_OPEN = false → Does row s fun d => d = e.flashEnd btGated) ∧
    (dv.flag BOOT_FLASH_STATUS_BUSY = false → e.flag BOOT_STATUS_GATE_OPEN = true →
      e.flashRefusal op (fieldGet data 0 2) (e.get BOOT_FLASH_LEN_LEN) = none →
      (op = 1 ∨ op = 2 ∨ op = 5 ∨ op = 8 →
        e.flashPath (fieldGet data 16 12) e.flashAddr (Dev.flashBytes op (e.get BOOT_FLASH_LEN_LEN)) = true) →
      let t := (e.setBoot fun b => { b with
        flashOp := some (op, fieldGet data 16 12, fieldGet data 0 2, e.flashAddr, e.get BOOT_FLASH_LEN_LEN) }).put BOOT_FLASH_STATUS_BUSY 1
      Does row s fun d => d = if op = 1 then t.flashErase (slotBase (fieldGet data 0 2)) slotSize else t)) ∧
  (∀ (s : State) (host : List Byte) (g slot a len : Nat), s.dev.alive = true →
    (s.dev.boot.flashOp = some (3, g, slot, a, len) →
      Does (.flashOpComplete host false) s fun d => d = (s.dev.writeRecord s.dev.bootRecord.2.preferred (slot + 1)).flashEnd btOk) ∧
    (s.dev.boot.flashOp = some (4, g, slot, a, len) →
      Does (.flashOpComplete host false) s fun d =>
        d = (s.dev.writeRecord (s.dev.get BOOT_STATUS_IMAGE) s.dev.bootRecord.2.trial).flashEnd btOk) ∧
    (s.dev.boot.flashOp = some (6, g, slot, a, len) →
      Does (.flashOpComplete host false) s fun d =>
        d = (s.dev.setBoot fun b => { b with
          fuses := { b.fuses with rollback := Nat.max b.fuses.rollback (Nat.min len 128) } }).syncFuses.flashEnd btOk)) ∧
  (∀ (s : State) (n : W32), s.dev.alive = true → s.dev.inRecovery = true →
    Does (.i3cRecBegin n) s fun d => d = s.dev.setBoot fun b => { b with recovery := [], recLen := some n.toNat }) ∧
  (∀ (s : State) (bytes : List Byte) (n : Nat), s.dev.alive = true → s.dev.inRecovery = true → s.dev.boot.recLen = some n →
    bytes.length ≤ 256 →
    Does (.i3cRecData bytes) s fun d => d = s.dev.setBoot fun b => { b with recovery := b.recovery ++ bytes }) ∧
  (∀ (s : State) (n : Nat), s.dev.alive = true → s.dev.inRecovery = true → s.dev.boot.recLen = some n →
    Does .i3cRecEnd s fun d => d = s.dev.setBoot fun b => { b with attempt := some ⟨2, [], .header, .none, true, false⟩, recLen := none })

/-! ### RAS -/

/-- The RAS rows (R452, R460, R463 to R466): a detected error is recorded with what it hits, the injector is armed, disarmed or refused,
engines leave for their self-tests and come back, an LPM bank's rotation starts, switches the banks and ends, and a lane test starts in
near-end loopback and times out. -/
def Obligations.RasRows : Prop :=
  (∀ (s : State) (fam : Fin 32) (inst : Nat) (kind : ErrKind) (loc : Nat) (items : List Nat), s.dev.alive = true →
    inst < familySize fam → fam.val ∉ [0x05, 0x11, 0x19, 0x1B, 0x1C] →
    Does (.errorDetection fam inst kind loc items false) s fun d => d = s.dev.detected fam inst loc kind items) ∧
  (∀ (s : State) (dv : Dev) (p : Path) (data : W32) (e : Dev), Reaches s.dev p dv →
    ((((dv.writeFields p RAS_INJ data).put RAS_INJ_MODE (fieldGet data 30 1)).put RAS_INJ_FATAL_OK (fieldGet data 29 1)).put RAS_INJ_TYPE
      (fieldGet data 24 4)).put RAS_INJ_DETECTOR (fieldGet data 0 16) = e →
    (fieldGet data 31 1 = 0 → Does (.rasInjWrite p data) s fun d => d = (e.swPut RAS_INJ_ARM 0).put RAS_INJ_REFUSED 0) ∧
    (fieldGet data 31 1 = 1 → fieldGet data 24 4 ∉ familyTypes (fieldGet data 10 6) →
      Does (.rasInjWrite p data) s fun d => d = (e.swPut RAS_INJ_ARM 0).put RAS_INJ_REFUSED 1) ∧
    (fieldGet data 31 1 = 1 → fieldGet data 24 4 ∈ familyTypes (fieldGet data 10 6) → fatalFamily (fieldGet data 10 6) = false →
      e.flag RAS_INJ_ARM = true → Does (.rasInjWrite p data) s fun d => d = (e.swPut RAS_INJ_ARM 1).put RAS_INJ_REFUSED 0)) ∧
  (∀ (s : State) (k : Fin 8), s.dev.alive = true → s.dev.flag RAS_PE_ROT_EN = true →
    tabGet (fun _ => 0) s.dev.ras.peLast k + s.dev.get RAS_PE_ROT_PERIOD_MS * 3000000 ≤ s.dev.cycle → s.dev.peTest k = none →
    s.dev.flag (RAS_PE_STATUS_RETIRED k) = false →
    let e := tabGet (fun _ => 0) s.dev.ras.peNext k
    let t := s.dev.setRas fun r => { r with
      peLast := tabSet (fun _ => 0) r.peLast k s.dev.cycle, peNext := tabSet (fun _ => 0) r.peNext k ((e + 1) % 64) }
    t.eng k e = none →
    Does (.peRotation k) s fun d => d = t.peBegin k e) ∧
  (∀ (s : State) (k : Fin 8) (e c : Nat) (f : Dev), s.dev.alive = true → s.dev.peTest k = some (e, some c) → c + 4096 ≤ s.dev.cycle →
    s.dev.injTest 0x11 (k.val * 64 + e) = (false, f) →
    Does (.peSelfTestDone k true) s fun d => d = (f.setPeTest k none).put (RAS_PE_STATUS_TESTING k) 0x3F) ∧
  (∀ (s : State) (dv : Dev) (p : Path) (data : W32) (e : Dev), Reaches s.dev p dv →
    (dv.writeFields p (RAS_GLZ_SKIP 0) data).put (RAS_GLZ_SKIP_SKIP 0) data.toNat = e →
    Does (.glzSkip p 0 data) s fun d => d = (List.range 32).foldl (fun d i =>
      if bitOf data.toNat i then (if (d.glzEng i).isNone then d.glzLeave i else d)
      else if (tabGet (fun _ => none) d.ras.glzTest i).isSome || d.ras.glzBad.contains i then d
      else d.put ⟨RAS_GLZ_OUT 0, i, 1⟩ 0) e) ∧
  (∀ (s : State) (dv : Dev) (p : Path) (data : W32) (e : Dev), Reaches s.dev p dv →
    (dv.writeFields p RAS_PKE_SKIP data).put RAS_PKE_SKIP_SKIP (fieldGet data 0 16) = e →
    Does (.pkeSkip p data) s fun d => d = (List.range 16).foldl (fun d i =>
      if bitOf data.toNat i then (if (d.pkeUnit i).isNone then d.pkeLeave i else d)
      else if (tabGet (fun _ => none) d.ras.pkeTest i).isSome || d.ras.pkeBad.contains i then d
      else d.put ⟨PKE_STATUS, PKE_STATUS_IN_SERVICE.lo + i, 1⟩ 1) e) ∧
  (∀ (s : State) (i : Fin 256) (c : Nat) (f : Dev), s.dev.alive = true → tabGet (fun _ => none) s.dev.ras.glzTest i = some c →
    c + 60000 ≤ s.dev.cycle → s.dev.injTest 0x12 i = (false, f) → f.get (RAS_GLZ_SKIP_SKIP (i.val / 32)) = 0 →
    Does (.engineSelfTestDone false i true) s fun d =>
      d = (f.setRas fun r => { r with glzTest := tabSet (fun _ => none) r.glzTest i none }).put
        ⟨RAS_GLZ_OUT (i.val / 32), i.val % 32, 1⟩ 0) ∧
  (∀ (s : State) (dv : Dev) (p : Path) (data : W32) (e : Dev), Reaches s.dev p dv → dv.writeFields p RAS_LPM_ROT data = e →
    fieldGet data 31 1 = 1 →
    (e.flag RAS_LPM_ROT_BUSY = true → Does (.lpmRotStart p data) s fun d => d = e.inc RAS_CNT_LPM_ROT_IGNORED) ∧
    (e.flag RAS_LPM_ROT_BUSY = false → e.ras.lpmDead = none →
      Does (.lpmRotStart p data) s fun d =>
        d = (e.put RAS_LPM_ROT_BUSY 1).setRas fun x => { x with
          lpmRot := some ⟨fieldGet data 0 4, e.lpmPhys (fieldGet data 0 4), e.get RAS_LPM_ROT_SPARE, e.cycle, false⟩ })) ∧
  (∀ (s : State) (r : LpmRot), s.dev.alive = true → s.dev.ras.lpmRot = some r → r.switched = false → r.since + 16384 ≤ s.dev.cycle →
    let e := s.dev.purge fun x => match x with | .lpm i => i / 16384 == r.bank | _ => false
    Does .lpmBankSwitch s fun d =>
      d = (e.setRas fun x => { x with
        lpmMap := tabSet (fun _ => none) x.lpmMap r.bank (if r.new = r.bank then none else some r.new)
        lpmRot := some { r with switched := true, since := e.cycle } }).inc RAS_CNT_LPM_ROTATIONS) ∧
  (∀ (s : State) (r : LpmRot), s.dev.alive = true → s.dev.ras.lpmRot = some r → r.switched = true → r.since + 6000000 ≤ s.dev.cycle →
    Does (.lpmMarchDone true) s fun d =>
      d = ((s.dev.setRas fun x => { x with lpmRot := none }).put RAS_LPM_ROT_BUSY 0).put RAS_LPM_ROT_SPARE r.old) ∧
  (∀ (s : State) (dv : Dev) (p : Path) (n : Fin 16) (data : W32) (e : Dev), Reaches s.dev p dv →
    dv.writeFields p (RAS_LANE_TEST n) data = e → fieldGet data 31 1 = 1 → e.flag (RAS_LANE_TEST_RUN n) = false →
    let t := ((e.put (RAS_LANE_TEST_RUN n) 1).setRas fun r => { r with
      lane := tabSet (fun _ => none) r.lane n (some ((e.put (RAS_LANE_TEST_RUN n) 1).get (ETH_CTRL_LOOPBACK n), e.cycle)) }).put
        (RAS_LANE_TEST_LOCK n) 0
    Does (.laneTestRun p n data []) s fun d => d = ((t.subsOf n).foldl (fun d i => d.linkFalls n i) t).setLoopback n 1) ∧
  (∀ (s : State) (n : Fin 16) (v c : Nat), s.dev.alive = true → tabGet (fun _ => none) s.dev.ras.lane n = some (v, c) →
    c + 3000000 ≤ s.dev.cycle →
    Does (.laneLockTimeout n 0 []) s fun d =>
      d = (List.range 4).foldl (fun d i => d.put ⟨RAS_LANE_TEST n, 4 + i, 1⟩ 1) (s.dev.laneErrors n []))

/-- The spare rows and the kilns (R467, R468, R471 to R478): a row's copy ends in its remap, a pseudo-channel retires, a command of the
spare unit is ignored while one runs, a kiln moves to its quadrant's spare or is declared dead, traffic of a fenced kiln is discarded
and counted, and a kiln that fails its test is retired. -/
def Obligations.SparesAndKilns : Prop :=
  (∀ (s : State) (dv : Dev) (p : Path) (data : W32) (e f : Dev), Reaches s.dev p dv → dv.writeFields p RAS_HBM_CMD data = e →
    e.flag RAS_HBM_STATUS_BUSY = false →
    (∀ ok, fieldGet data 28 4 = 1 → e.spareRow (fieldGet data 16 7) (e.get RAS_HBM_ROW_BANK) (e.get RAS_HBM_ROW_ROW) true = (ok, f) →
      Does (.spareRow p data) s fun d => d = if ok = true then f.put RAS_HBM_STATUS_BUSY 1 else f.hbmEnd 0x52) ∧
    (fieldGet data 28 4 = 2 → Does (.retirePc p data) s fun d => d = (e.retirePc (fieldGet data 16 7)).hbmEnd 0)) ∧
  (∀ (s : State) (k : Nat) (rest : List (Nat × Bool)), s.dev.alive = true → s.dev.ras.sparing = (k, true) :: rest →
    Does .rowSpareComplete s fun d =>
      d = ((s.dev.setRas fun r => { r with sparing := rest, spared := r.spared ++ [k] }).inc RAS_CNT_HBM_ROWS_SPARED).hbmEnd 0) ∧
  (∀ (s : State) (dv : Dev) (p : Path) (data : W32) (e : Dev), Reaches s.dev p dv → dv.writeFields p RAS_SPARE_CMD data = e →
    let k := fieldGet data 0 6
    (∀ op row, (op = 1 ∧ row = Instr.kilnReplace p data ∨ op = 2 ∧ row = Instr.kilnDeclareDead p data [] ∨
        op = 3 ∧ row = Instr.kilnTest p data ∨ op = 4 ∧ row = Instr.kilnRetire p data) → fieldGet data 28 4 = op →
      e.flag RAS_SPARE_STATUS_BUSY = true → Does row s fun d => d = e.inc RAS_CNT_SPARE_CMD_IGNORED) ∧
    (∀ x, fieldGet data 28 4 = 1 → e.flag RAS_SPARE_STATUS_BUSY = false → k < 32 → e.flag (RAS_KILN_MAP_VALID k) = true →
      e.kilnHeld k = false → e.spareOf (k / 8) = some x →
      Does (.kilnReplace p data) s fun d =>
        d = (e.stopThreads fun t => !Dev.isMgmt t && Dev.kilnOf t == k).spareBegin (.replace k x false)) ∧
    (fieldGet data 28 4 = 2 → e.flag RAS_SPARE_STATUS_BUSY = false → k < 32 → e.flag (RAS_KILN_MAP_VALID k) = true →
      e.ras.takeovers = [] →
      Does (.kilnDeclareDead p data []) s fun d => d = (e.spareBegin (.dead k)).declareDead k 0x04 [] false) ∧
    (fieldGet data 28 4 = 3 → e.flag RAS_SPARE_STATUS_BUSY = false → k < 36 →
      (e.role k = roleFenced ∨ e.role k = roleSpare → Does (.kilnTest p data) s fun d => d = (e.setRole k roleTesting).spareBegin (.test k)) ∧
      (e.role k ≠ roleFenced → e.role k ≠ roleSpare → Does (.kilnTest p data) s fun d => d = e.spareEnd spBadState)) ∧
    (fieldGet data 28 4 = 4 → e.flag RAS_SPARE_STATUS_BUSY = false → k < 36 → e.role k = roleFenced ∨ e.role k = roleSpare →
      Does (.kilnRetire p data) s fun d => d = (e.retireKiln k).spareEnd spOk)) ∧
  (∀ (s : State) (k x : Nat) (e : Dev), s.dev.alive = true → s.dev.ras.op = some (.replace k x false) → s.dev.core.chans = [] →
    (s.dev.setRas fun r => { r with op := some (.replace k x true) }).bumpOwner (.kiln k) = e →
    Does .kilnReplaceComplete s fun d => d = if e.bumpPending (.kiln k) = true then e else e.finishReplace k x) ∧
  (∀ (s : State) (k : Fin 32) (lost : List Nat), s.dev.alive = true →
    Does (.kilnResponseTimeout k lost) s fun d => d = s.dev.declareDead k 0x05 lost false) ∧
  (∀ (s : State) (p : Fin 36), s.dev.alive = true → s.dev.role p = roleFenced →
    Does (.fencedPortArrival p) s fun d =>
      d = (s.dev.lateDiscard (.kiln (s.dev.get (KLN_STATE_LOGICAL p)))).inc (KLN_FENCE_DISCARD p)) ∧
  (∀ (s : State) (p n : Nat), s.dev.alive = true → s.dev.ras.op = some (.test p) → 0 < n →
    Does (.kilnTestComplete n) s fun d =>
      d = ((((s.dev.put (KLN_TEST_RESULT_PASS p) 0).put (KLN_TEST_RESULT_FAILS p) (Nat.min n (2 ^ 24 - 1))).setEvent
        (KLN_TEST_RESULT_VALID p)).retireKiln p).spareEnd spTestFail)


/-! ### Rules that a statement states whole -/

/-- R94, all of it: what a load whose highest byte address is A does, at once and after its stalls (R80). `hi` is that address, of the
byte of LDB or the second of LDH. -/
def Obligations.ParseLoadDecided : Prop :=
  (∀ (s : State) (k : Fin 8) (e : Fin 64) (x : Engine) (i : PInstr) (row : Instr) (hi : Nat) (f : Frame), s.dev.alive = true →
    s.dev.nextInstr k e = some (x, i) → s.dev.frame? x.frame = some f → x.pc ≠ 0xFFF →
    (i.op = .ldb ∧ row = .parseLdb k e ∧ hi = (x.rd i.ra).toNat + i.imm ∨
      i.op = .ldh ∧ row = .parseLdh k e ∧ hi = (x.rd i.ra).toNat + i.imm + 1) →
    (256 ≤ hi → Does row s fun d => d = s.dev.endParse k e x (some .window) 0) ∧
    (hi ≤ 255 → f.ended = true → f.len ≤ hi + 4 → Does row s fun d => d = s.dev.endParse k e x (some .overEnd) 0) ∧
    (hi ≤ 255 → hi + 4 < f.len →
      Does row s fun d => ∃ y, d.eng k e = some y ∧ y.pc = x.pc + 1 ∧ y.n = x.n + 1 ∧ y.stalledFrom = none ∧ y.words = x.words ∧
        (i.rd ≠ 0 → i.rd < 16 → (y.rd i.rd).toNat =
          if i.op = .ldh then (f.bytes.getD (hi - 1) 0#8).toNat * 256 + (f.bytes.getD hi 0#8).toNat
          else (f.bytes.getD hi 0#8).toNat) ∧
        (∀ r, r < 16 → r ≠ i.rd → y.rd r = x.rd r)) ∧
    (hi ≤ 255 → f.ended = false → f.len ≤ hi + 4 →
      Does row s fun d => ∃ y w, d = s.dev.setEng k e (some y) ∧ y = { x with stalledFrom := some (s.dev.cycle, w) })) ∧
  (∀ (s : State) (k : Fin 8) (e : Fin 64) (x : Engine) (i : PInstr) (c : Nat) (w : W32) (hi : Nat) (t : Dev) (g : Frame) (bytes : List Byte),
    s.dev.alive = true → s.dev.eng k e = some x → x.stalledFrom = some (c, w) → decodeParse w = some i → x.pc ≠ 0xFFF →
    (i.op = .ldb ∧ hi = (x.rd i.ra).toNat + i.imm ∨ i.op = .ldh ∧ hi = (x.rd i.ra).toNat + i.imm + 1) → hi ≤ 255 →
    s.dev.arrive x.frame bytes = t → t.frame? x.frame = some g →
    let x' := { x with stalls := x.stalls + (t.cycle - c), stalledFrom := none }
    (g.ended = true → g.len ≤ hi + 4 →
      Does (.parseLoadResume k e bytes) s fun d => d = t.endParse k e x' (some .overEnd) 0) ∧
    (hi + 4 < g.len → Does (.parseLoadResume k e bytes) s fun d =>
      ∃ y, d.eng k e = some y ∧ y.pc = x.pc + 1 ∧ y.n = x.n + 1 ∧ y.stalls = x'.stalls ∧ y.stalledFrom = none ∧ y.words = x.words ∧
        (i.rd ≠ 0 → i.rd < 16 → (y.rd i.rd).toNat =
          if i.op = .ldh then (g.bytes.getD (hi - 1) 0#8).toNat * 256 + (g.bytes.getD hi 0#8).toNat
          else (g.bytes.getD hi 0#8).toNat) ∧
        (∀ r, r < 16 → r ≠ i.rd → y.rd r = x.rd r)) ∧
    (g.ended = false → g.len ≤ hi + 4 → Does (.parseLoadResume k e bytes) s fun d =>
      ∃ v, d = t.setEng k e (some { x' with stalledFrom := some (t.cycle, v) }))) ∧
  (∀ (d : Dev) (j p : Nat) (f : Frame) (bytes : List Byte), d.frame? j = some f → f.src = .port p →
    (f.ended = true → d.arrive j bytes = d) ∧
    (f.ended = false → (d.sub p).rx = some j → d.loopback (p / 4) ≠ 1 → d.loopback (p / 4) ≠ 2 →
      d.arrive j bytes = d.setFrame j { f with bytes := f.bytes ++ bytes }))

/-- R89, all of it: no word of ST or STI with record word index 0 or 1 decodes, and an engine ends its parse on it; the last of several
writes of one record word stands, and no other word changes. -/
def Obligations.RecordWordStores : Prop :=
  (∀ (w : W32) (i : PInstr), decodeParse w = some i → (i.op = .st → 2 ≤ i.imm) ∧ (i.op = .sti → 2 ≤ i.rd)) ∧
  (∀ (s : State) (k : Fin 8) (e : Fin 64) (x : Engine) (i : PInstr), s.dev.alive = true → s.dev.eng k e = some x →
    x.stalledFrom = none → x.nextAt ≤ s.dev.cycle → x.n < s.dev.get (PL_PARSE_CTRL_BUDGET k) → s.dev.imemIsBad k x.pc = false →
    s.dev.fetchWord k x.pc = encodeParse i →
    (i.op = .st ∧ i.rd < 16 ∧ i.ra < 16 ∧ i.imm < 2 ∨ i.op = .sti ∧ i.rd < 2 ∧ i.imm < 65536) →
    Does (.illegalInstruction k e) s fun d => d = s.dev.endParse k e x (some .illegal) 0) ∧
  (∀ (ws : Vector W16 32) (a b : W16) (i j : Nat), i < 32 → j < 32 →
    vset (vset ws i a) i b = vset ws i b ∧ (vset ws i a).getD i 0#16 = a ∧
    (j ≠ i → (vset ws i a).getD j 0#16 = ws.getD j 0#16))

/-- R106 and R113, all of both: the bytes of a key that record words give, and the range comparators, their reset bounds and the one
write that changes both bounds. -/
def Obligations.RecordSelectors : Prop :=
  (∀ (ws : Vector W16 32) (w i : Nat), w + 7 < 32 → i < 8 →
    (recordKey ws w).length = 16 ∧ (recordKey ws w).getD (2 * i) 0#8 = (ws.getD (w + i) 0#16).extractLsb' 8 8 ∧
    (recordKey ws w).getD (2 * i + 1) 0#8 = (ws.getD (w + i) 0#16).extractLsb' 0 8) ∧
  (∀ (d : Dev) (k : Fin 8) (c : Fin 64) (ws : Vector W16 32),
    (d.inRange k c ws = true ↔ d.get (PL_RC_BOUNDS_LOW k c) ≤ (ws.getD (d.get (PL_RC_CFG_WORD k c)) 0#16).toNat ∧
      (ws.getD (d.get (PL_RC_CFG_WORD k c)) 0#16).toNat ≤ d.get (PL_RC_BOUNDS_HIGH k c)) ∧
    (d.get (PL_RC_BOUNDS_HIGH k c) < d.get (PL_RC_BOUNDS_LOW k c) → d.inRange k c ws = false)) ∧
  (∀ (k : Fin 8) (c : Fin 64), State.reset.dev.get (PL_RC_BOUNDS_HIGH k c) < State.reset.dev.get (PL_RC_BOUNDS_LOW k c)) ∧
  (∀ (s : State) (dv : Dev) (p : Path) (w : Fin 16777216) (k : Fin 8) (c : Fin 64) (data : W32), Reaches s.dev p dv →
    4 * w.val = PL_RC_BOUNDS k c →
    Does (.registerWrite p w data) s fun d =>
      d.get (PL_RC_BOUNDS_LOW k c) = fieldGet data 0 16 ∧ d.get (PL_RC_BOUNDS_HIGH k c) = fieldGet data 16 16)

/-! ### The whole machine -/

/-- A step takes the command at the front of the queue and is what that command does with the queue's rest; on an empty queue one cycle
passes (the model's choice, notes/assumptions/1). -/
def Obligations.StepRunsTheFrontCommand : Prop :=
  (∀ (c : Instr) (rest : List Instr) (s : State), step { s with pending := c :: rest } = exec c { s with pending := rest }) ∧
  (∀ (s : State), s.pending = [] → step s = s.effect Dev.clockTick)

/-- Every command answers a next state and keeps the queue, and every step keeps a queue of well-formed commands, which the queue at
reset is; a part without its supplies, or with its oscillator failed, is left as it is by every command but those of the AON domain
(R421, R489). -/
def Obligations.QueueAndSupplies : Prop :=
  (∀ (c : Instr) (s : State), ∃ t, exec c s = .next t ∧ t.pending = s.pending) ∧
  (∀ (s : State), s.pending.all Instr.wf = true → ∃ t, step s = .next t ∧ t.pending = s.pending.tail ∧ t.pending.all Instr.wf = true) ∧
  State.reset.pending.all Instr.wf = true ∧
  (∀ (c : Instr) (s : State), s.dev.alive = false → aonRow c = false → exec c s = .next s)

/-- While the main supply is off and its return does not wait (R427, R443, R489), every step leaves it off, with the fuses and the flash
as they are, and nothing in the HBM. -/
def Obligations.MainOffStands : Prop :=
  ∀ (s t : State), MainOff s → step s = .next t →
    MainOff t ∧ t.dev.boot.fuses = s.dev.boot.fuses ∧ t.dev.boot.flash = s.dev.boot.flash ∧ t.dev.boot.profileSel = s.dev.boot.profileSel

/-- The loss of the main supply brings a part, from whatever it does, into that state (R427, R489), and its return out of it, with the
contents of the HBM unknown (R429); in it the part is not alive. -/
def Obligations.MainOffEntered : Prop :=
  (∀ (s : State) (row : Instr), s.dev.pkg.standby = true → s.dev.boot.powered = true →
    (row = .mainUndervoltage ∨ row = .mainOvervoltage ∨ row = .vstbyLoss) → (∀ c ∈ s.pending, powerRises c = false) →
    ∃ t, exec row s = .next t ∧ MainOff t) ∧
  (∀ (s : State) (sel : Fin 4), MainOff s → s.dev.pkg.standby = true →
    Does (.mainPowerGood sel) s fun d =>
      d.alive = true ∧ d.boot.profileSel = sel ∧ d.boot.fuses = s.dev.boot.fuses ∧ d.boot.flash = s.dev.boot.flash ∧ d.mem.hbm = [] ∧
      d.mem.era = s.dev.mem.era + 1 ∧ d.frames = [] ∧
      d.get RST_CAUSE_CAUSE = if s.dev.pkg.porPending = true then causePor else causeMain) ∧
  (∀ (s : State), MainOff s → s.dev.alive = false)

/-- The HBM: a write stores its bytes at its addresses and leaves every other byte, the memory keeps its canonical form, which it has at
reset, a line's poison goes where the write covers it whole (R248), and a thread's reservation of a line that the write touches
(R247). -/
def Obligations.HbmWrites : Prop :=
  (∀ (d : Dev) (a b : Nat) (bs : List Byte),
    (d.hbmWrite a bs).hbmByte b = if a ≤ b ∧ b < a + bs.length then bs.getD (b - a) 0#8 else d.hbmByte b) ∧
  (∀ (d : Dev) (a : Nat) (bs : List Byte), d.mem.wf = true → (d.hbmWrite a bs).mem.wf = true) ∧ State.reset.dev.mem.wf = true ∧
  (∀ (d : Dev) (a l : Nat) (bs : List Byte), l ∈ (d.hbmWrite a bs).mem.poison ↔
    l ∈ d.mem.poison ∧ ¬(a ≤ 64 * l ∧ 64 * l + 64 ≤ a + bs.length)) ∧
  (∀ (d : Dev) (a l : Nat) (bs : List Byte) (t : Fin 1026), bs ≠ [] → (d.thread t).resv = some l → a / 64 ≤ l →
    l ≤ (a + bs.length - 1) / 64 → tabWf (fun _ => Thread.reset) d.core.threads = true → ((d.hbmWrite a bs).thread t).resv = none)

/-- The part right after package cold reset: every register reads the reset value that the register tables give it, every counter is
zero, no unit has left set-up, nothing is in the tables, no frame and no descriptor is inside, no channel is bound, no key context is
valid, and the main supply is there; that the HBM reads zero until it is written is the model's choice (notes/assumptions/3). -/
def Obligations.AfterReset : Prop :=
  let d := State.reset.dev
  State.reset.pending = [] ∧ d.alive = true ∧ (∀ a, d.rd a = regReset a) ∧ (∀ c : Ctr, d.count c = 0) ∧
  (∀ a, d.leftSetup a = false) ∧ d.frames = [] ∧ (∀ b, d.hbmByte b = 0#8) ∧
  (∀ i, (d.emEnt i).valid = false ∧ (d.ovfEnt i).valid = false) ∧ (∀ k i, (d.ruleEnt k i).valid = false) ∧
  (∀ i, (d.lpmEnt i).valid = false) ∧ (∀ i, (d.kctx i).valid = false) ∧ (∀ i, d.channel i = none) ∧
  (∀ q, (d.queue q).frames = [] ∧ (d.queue q).occ = 0) ∧ (∀ g, (d.chan g).pre = [] ∧ (d.chan g).active = none) ∧
  (∀ q, (d.place q).valid = false) ∧ (∀ k e, d.eng k e = none)
end

