-- ==== Sys2Proof/Laws/Tab.lean ====
section
/-!
SUPPORT. What the sparse tables do: a read after a write to the same key gives the value written, a write leaves
every other key alone, and every operation keeps the canonical form.
-/

namespace Sys2Proof.Machine

variable {α : Type}

theorem tabGet_insert_self (d : Nat → α) (t : Tab α) (k : Nat) (v : α) :
    tabGet d (tabInsert t k v) k = v := by
  induction t with
  | nil => simp [tabInsert, tabGet]
  | cons kv t ih =>
    simp only [tabInsert]
    split
    · simp [tabGet]
    · split
      · simp [tabGet]
      · simp_all [tabGet]

theorem tabGet_insert_ne (d : Nat → α) (t : Tab α) {k k' : Nat} (v : α) (h : k' ≠ k) :
    tabGet d (tabInsert t k v) k' = tabGet d t k' := by
  induction t with
  | nil => simp [tabInsert, tabGet, Ne.symm h]
  | cons kv t ih =>
    simp only [tabInsert]
    split
    · simp [tabGet, Ne.symm h]
    · split
      · rename_i h1 h2; simp [tabGet, Ne.symm h, h2]
      · simp [tabGet, ih]

theorem tabGet_erase_ne (d : Nat → α) (t : Tab α) {k k' : Nat} (h : k' ≠ k) :
    tabGet d (tabErase t k) k' = tabGet d t k' := by
  induction t with
  | nil => rfl
  | cons kv t ih =>
    simp only [tabErase]
    split
    · rename_i h1; simp [tabGet, h1, Ne.symm h, ih]
    · simp [tabGet, ih]

theorem tabGet_erase_self (d : Nat → α) (t : Tab α) (k : Nat) : tabGet d (tabErase t k) k = d k := by
  induction t with
  | nil => rfl
  | cons kv t ih =>
    simp only [tabErase]
    split
    · exact ih
    · rename_i h1; simp [tabGet, h1, ih]

@[simp] theorem tabGet_set_self [DecidableEq α] (d : Nat → α) (t : Tab α) (k : Nat) (v : α) :
    tabGet d (tabSet d t k v) k = v := by
  simp only [tabSet]
  split
  · rename_i h1; rw [tabGet_erase_self d t k, h1]
  · exact tabGet_insert_self d t k v

/-- One equation for a read after a write. -/
theorem tabGet_set [DecidableEq α] (d : Nat → α) (t : Tab α) (k k' : Nat) (v : α) :
    tabGet d (tabSet d t k v) k' = if k' = k then v else tabGet d t k' := by
  split
  · rename_i h; rw [h, tabGet_set_self]
  · rename_i h
    simp only [tabSet]
    split
    · exact tabGet_erase_ne d t h
    · exact tabGet_insert_ne d t v h

theorem tabGet_set_ne [DecidableEq α] (d : Nat → α) (t : Tab α) {k k' : Nat} (v : α) (h : k' ≠ k) :
    tabGet d (tabSet d t k v) k' = tabGet d t k' := by
  simp only [tabSet]
  split
  · exact tabGet_erase_ne d t h
  · exact tabGet_insert_ne d t v h

theorem mem_tabErase {t : Tab α} {k : Nat} {kv : Nat × α} (h : kv ∈ tabErase t k) : kv ∈ t := by
  induction t with
  | nil => simp [tabErase] at h
  | cons x t ih =>
    simp only [tabErase] at h
    split at h
    · simp [ih h]
    · simp only [List.mem_cons] at h ⊢
      exact h.imp id ih

theorem mem_tabInsert {t : Tab α} {k : Nat} {v : α} {kv : Nat × α} (h : kv ∈ tabInsert t k v) :
    kv = (k, v) ∨ kv ∈ t := by
  induction t with
  | nil => simp [tabInsert] at h; simp [h]
  | cons x t ih =>
    simp only [tabInsert] at h
    split at h
    · simpa using h
    · split at h
      · simp only [List.mem_cons] at h ⊢
        rcases h with h | h <;> simp [h]
      · simp only [List.mem_cons] at h ⊢
        rcases h with h | h
        · simp [h]
        · rcases ih h with h | h <;> simp [h]

theorem tabWf_erase [DecidableEq α] (d : Nat → α) (t : Tab α) (k : Nat) (h : tabWf d t = true) :
    tabWf d (tabErase t k) = true := by
  induction t with
  | nil => rfl
  | cons x t ih =>
    simp only [tabWf, Bool.and_eq_true, List.all_eq_true, decide_eq_true_eq] at h
    simp only [tabErase]
    split
    · exact ih h.2
    · simp only [tabWf, Bool.and_eq_true, List.all_eq_true, decide_eq_true_eq]
      exact ⟨⟨h.1.1, fun kv hkv => h.1.2 kv (mem_tabErase hkv)⟩, ih h.2⟩

theorem tabWf_insert [DecidableEq α] (d : Nat → α) (t : Tab α) (k : Nat) (v : α) (hv : v ≠ d k)
    (h : tabWf d t = true) : tabWf d (tabInsert t k v) = true := by
  induction t with
  | nil => simp [tabInsert, tabWf, hv]
  | cons x t ih =>
    have h' := h
    simp only [tabWf, Bool.and_eq_true, List.all_eq_true, decide_eq_true_eq] at h
    simp only [tabInsert]
    split
    · rename_i h1
      simp only [tabWf, Bool.and_eq_true, List.all_eq_true, decide_eq_true_eq]
      refine ⟨⟨hv, ?_⟩, h⟩
      intro kv hkv
      simp only [List.mem_cons] at hkv
      rcases hkv with rfl | hkv
      · exact h1
      · have := h.1.2 kv hkv; omega
    · split
      · rename_i h1 h2
        subst h2
        simp only [tabWf, Bool.and_eq_true, List.all_eq_true, decide_eq_true_eq]
        exact ⟨⟨hv, h.1.2⟩, h.2⟩
      · rename_i h1 h2
        simp only [tabWf, Bool.and_eq_true, List.all_eq_true, decide_eq_true_eq]
        refine ⟨⟨h.1.1, ?_⟩, ih h.2⟩
        intro kv hkv
        rcases mem_tabInsert hkv with rfl | hkv
        · simp; omega
        · exact h.1.2 kv hkv

/-- Every write keeps the canonical form. -/
theorem tabWf_set [DecidableEq α] (d : Nat → α) (t : Tab α) (k : Nat) (v : α) (h : tabWf d t = true) :
    tabWf d (tabSet d t k v) = true := by
  simp only [tabSet]
  split
  · exact tabWf_erase d t k h
  · rename_i hv; exact tabWf_insert d t k v hv h

theorem tabWf_mod [DecidableEq α] (d : Nat → α) (t : Tab α) (k : Nat) (f : α → α) (h : tabWf d t = true) :
    tabWf d (tabMod d t k f) = true := tabWf_set d t k _ h

theorem tabWf_mapAll [DecidableEq α] (d : Nat → α) (t : Tab α) (f : Nat → α → α) :
    tabWf d (tabMapAll d t f) = true := by
  unfold tabMapAll
  have : ∀ (l : Tab α) (acc : Tab α), tabWf d acc = true →
      tabWf d (l.foldl (fun acc kv => tabSet d acc kv.1 (f kv.1 kv.2)) acc) = true := by
    intro l
    induction l with
    | nil => intro acc h; exact h
    | cons x l ih => intro acc h; exact ih _ (tabWf_set d acc _ _ h)
  exact this t [] rfl

end Sys2Proof.Machine
end

