-- ==== Sys2Proof/Laws/Memory.lean ====
section
/-!
SUPPORT. The HBM's bytes: every operation on them keeps the canonical form, a byte laid down is read back, and the others stay.
-/

namespace Sys2Proof.Machine
open Dev

/-- The memory at reset has the canonical form. -/
theorem reset_mem_wf : MemState.reset.wf = true := rfl

theorem layBytes_wf (m : List (Nat × Byte)) (a : Nat) (bs : List Byte) (h : tabWf (fun _ => 0#8) m = true) :
    tabWf (fun _ => 0#8) (layBytes m a bs) = true := by
  induction bs generalizing m a with
  | nil => exact h
  | cons b bs ih => exact ih _ _ (tabWf_set _ _ _ _ h)

/-- Inserting keeps the addresses rising. -/
theorem rising_insert (m : List (Nat × Byte)) (a : Nat) (b : Byte) (h : m.Pairwise fun x y => x.1 < y.1) :
    (tabInsert m a b).Pairwise fun x y => x.1 < y.1 := by
  induction m with
  | nil => simp [tabInsert]
  | cons x t ih =>
    obtain ⟨h1, h2⟩ := List.pairwise_cons.mp h
    unfold tabInsert
    split
    · exact List.pairwise_cons.mpr ⟨fun y hy => by
        rcases List.mem_cons.mp hy with rfl | hy
        · assumption
        · exact Nat.lt_trans (by assumption) (h1 y hy), h⟩
    · split
      · rename_i e
        exact List.pairwise_cons.mpr ⟨fun y hy => e ▸ h1 y hy, h2⟩
      · refine List.pairwise_cons.mpr ⟨fun y hy => ?_, ih h2⟩
        rcases mem_tabInsert hy with rfl | hy
        · simp only; omega
        · exact h1 y hy

theorem listBytes_rising (m : List (Nat × Byte)) (a : Nat) (bs : List Byte) (h : m.Pairwise fun x y => x.1 < y.1) :
    (listBytes m a bs).Pairwise fun x y => x.1 < y.1 := by
  induction bs generalizing m a with
  | nil => exact h
  | cons b bs ih => exact ih _ _ (rising_insert _ _ _ h)

/-- Bytes laid into a memory keep its canonical form, whatever becomes of the poison. -/
theorem hbmLay_wf (m : MemState) (a : Nat) (bs : List Byte) (p : List Nat) (h : m.wf = true) :
    ({ m with hbm := hbmLay m a bs, poison := p } : MemState).wf = true := by
  unfold MemState.wf hbmLay at *
  by_cases e : m.era = 0
  · simp only [e, if_true] at h ⊢
    exact layBytes_wf _ _ _ h
  · simp only [e, if_false, decide_eq_true_eq] at h ⊢
    exact listBytes_rising _ _ _ h

theorem layBytes_get (m : List (Nat × Byte)) (a b : Nat) (bs : List Byte) :
    tabGet (fun _ => 0#8) (layBytes m a bs) b =
      if a ≤ b ∧ b < a + bs.length then bs.getD (b - a) 0#8 else tabGet (fun _ => 0#8) m b := by
  induction bs generalizing m a with
  | nil => simp [layBytes]
  | cons c bs ih =>
    rw [layBytes, ih, tabGet_set]
    rcases Nat.lt_trichotomy b a with h | h | h
    · rw [if_neg (by omega), if_neg (by omega), if_neg (by simp; omega)]
    · subst h; simp
    · obtain ⟨k, rfl⟩ : ∃ k, b = a + (k + 1) := ⟨b - a - 1, by omega⟩
      have : a + (k + 1) - (a + 1) = k := by omega
      simp only [this, show a + (k + 1) - a = k + 1 by omega, List.length_cons, List.getD_cons_succ]
      by_cases hk : k < bs.length
      · rw [if_pos (by omega), if_pos (by omega)]
      · rw [if_neg (by omega), if_neg (by omega), if_neg (by omega)]

end Sys2Proof.Machine
end

