-- ==== Sys2Proof/Laws/State.lean ====
section
/-!
SUPPORT. What each named update leaves alone: one lemma per update and field of the device, and for the register
reads.
-/

namespace Sys2Proof.Machine.Dev

section
variable (d : Dev) (a : Nat) (v : W32)
@[simp] theorem wr_cycle : (d.wr a v).cycle = d.cycle := rfl
@[simp] theorem wr_fresh : (d.wr a v).fresh = d.fresh := rfl
@[simp] theorem wr_out : (d.wr a v).out = d.out := rfl
@[simp] theorem wr_eth : (d.wr a v).eth = d.eth := rfl
@[simp] theorem wr_frames : (d.wr a v).frames = d.frames := rfl
@[simp] theorem wr_nextFrame : (d.wr a v).nextFrame = d.nextFrame := rfl
@[simp] theorem wr_parse : (d.wr a v).parse = d.parse := rfl
@[simp] theorem wr_buf : (d.wr a v).buf = d.buf := rfl
@[simp] theorem wr_tm : (d.wr a v).tm = d.tm := rfl
@[simp] theorem wr_time : (d.wr a v).time = d.time := rfl
@[simp] theorem wr_own : (d.wr a v).own = d.own := rfl
@[simp] theorem wr_mem : (d.wr a v).mem = d.mem := rfl
@[simp] theorem wr_cls : (d.wr a v).cls = d.cls := rfl
@[simp] theorem wr_tbl : (d.wr a v).tbl = d.tbl := rfl
@[simp] theorem wr_hif : (d.wr a v).hif = d.hif := rfl
@[simp] theorem wr_dma : (d.wr a v).dma = d.dma := rfl
@[simp] theorem wr_sag : (d.wr a v).sag = d.sag := rfl
@[simp] theorem wr_core : (d.wr a v).core = d.core := rfl
@[simp] theorem wr_boot : (d.wr a v).boot = d.boot := rfl
@[simp] theorem wr_glz : (d.wr a v).glz = d.glz := rfl
@[simp] theorem wr_pke : (d.wr a v).pke = d.pke := rfl
@[simp] theorem wr_ras : (d.wr a v).ras = d.ras := rfl
@[simp] theorem wr_sto : (d.wr a v).sto = d.sto := rfl
@[simp] theorem wr_pkg : (d.wr a v).pkg = d.pkg := rfl
end
section
variable (d : Dev) (f : Fld) (v : Nat)
@[simp] theorem put_cycle : (d.put f v).cycle = d.cycle := rfl
@[simp] theorem put_fresh : (d.put f v).fresh = d.fresh := rfl
@[simp] theorem put_out : (d.put f v).out = d.out := rfl
@[simp] theorem put_eth : (d.put f v).eth = d.eth := rfl
@[simp] theorem put_frames : (d.put f v).frames = d.frames := rfl
@[simp] theorem put_nextFrame : (d.put f v).nextFrame = d.nextFrame := rfl
@[simp] theorem put_parse : (d.put f v).parse = d.parse := rfl
@[simp] theorem put_buf : (d.put f v).buf = d.buf := rfl
@[simp] theorem put_tm : (d.put f v).tm = d.tm := rfl
@[simp] theorem put_time : (d.put f v).time = d.time := rfl
@[simp] theorem put_own : (d.put f v).own = d.own := rfl
@[simp] theorem put_mem : (d.put f v).mem = d.mem := rfl
@[simp] theorem put_cls : (d.put f v).cls = d.cls := rfl
@[simp] theorem put_tbl : (d.put f v).tbl = d.tbl := rfl
@[simp] theorem put_hif : (d.put f v).hif = d.hif := rfl
@[simp] theorem put_dma : (d.put f v).dma = d.dma := rfl
@[simp] theorem put_sag : (d.put f v).sag = d.sag := rfl
@[simp] theorem put_core : (d.put f v).core = d.core := rfl
@[simp] theorem put_boot : (d.put f v).boot = d.boot := rfl
@[simp] theorem put_glz : (d.put f v).glz = d.glz := rfl
@[simp] theorem put_pke : (d.put f v).pke = d.pke := rfl
@[simp] theorem put_ras : (d.put f v).ras = d.ras := rfl
@[simp] theorem put_sto : (d.put f v).sto = d.sto := rfl
@[simp] theorem put_pkg : (d.put f v).pkg = d.pkg := rfl
end
section
variable (d : Dev) (c : Ctr) (n : Nat)
@[simp] theorem bump_cycle : (d.bump c n).cycle = d.cycle := rfl
@[simp] theorem bump_fresh : (d.bump c n).fresh = d.fresh := rfl
@[simp] theorem bump_out : (d.bump c n).out = d.out := rfl
@[simp] theorem bump_eth : (d.bump c n).eth = d.eth := rfl
@[simp] theorem bump_frames : (d.bump c n).frames = d.frames := rfl
@[simp] theorem bump_nextFrame : (d.bump c n).nextFrame = d.nextFrame := rfl
@[simp] theorem bump_parse : (d.bump c n).parse = d.parse := rfl
@[simp] theorem bump_buf : (d.bump c n).buf = d.buf := rfl
@[simp] theorem bump_tm : (d.bump c n).tm = d.tm := rfl
@[simp] theorem bump_time : (d.bump c n).time = d.time := rfl
@[simp] theorem bump_own : (d.bump c n).own = d.own := rfl
@[simp] theorem bump_mem : (d.bump c n).mem = d.mem := rfl
@[simp] theorem bump_cls : (d.bump c n).cls = d.cls := rfl
@[simp] theorem bump_tbl : (d.bump c n).tbl = d.tbl := rfl
@[simp] theorem bump_hif : (d.bump c n).hif = d.hif := rfl
@[simp] theorem bump_dma : (d.bump c n).dma = d.dma := rfl
@[simp] theorem bump_sag : (d.bump c n).sag = d.sag := rfl
@[simp] theorem bump_core : (d.bump c n).core = d.core := rfl
@[simp] theorem bump_boot : (d.bump c n).boot = d.boot := rfl
@[simp] theorem bump_glz : (d.bump c n).glz = d.glz := rfl
@[simp] theorem bump_pke : (d.bump c n).pke = d.pke := rfl
@[simp] theorem bump_ras : (d.bump c n).ras = d.ras := rfl
@[simp] theorem bump_sto : (d.bump c n).sto = d.sto := rfl
@[simp] theorem bump_pkg : (d.bump c n).pkg = d.pkg := rfl
end
section
variable (d : Dev) (c : Ctr)
@[simp] theorem inc_cycle : (d.inc c).cycle = d.cycle := rfl
@[simp] theorem inc_fresh : (d.inc c).fresh = d.fresh := rfl
@[simp] theorem inc_out : (d.inc c).out = d.out := rfl
@[simp] theorem inc_eth : (d.inc c).eth = d.eth := rfl
@[simp] theorem inc_frames : (d.inc c).frames = d.frames := rfl
@[simp] theorem inc_nextFrame : (d.inc c).nextFrame = d.nextFrame := rfl
@[simp] theorem inc_parse : (d.inc c).parse = d.parse := rfl
@[simp] theorem inc_buf : (d.inc c).buf = d.buf := rfl
@[simp] theorem inc_tm : (d.inc c).tm = d.tm := rfl
@[simp] theorem inc_time : (d.inc c).time = d.time := rfl
@[simp] theorem inc_own : (d.inc c).own = d.own := rfl
@[simp] theorem inc_mem : (d.inc c).mem = d.mem := rfl
@[simp] theorem inc_cls : (d.inc c).cls = d.cls := rfl
@[simp] theorem inc_tbl : (d.inc c).tbl = d.tbl := rfl
@[simp] theorem inc_hif : (d.inc c).hif = d.hif := rfl
@[simp] theorem inc_dma : (d.inc c).dma = d.dma := rfl
@[simp] theorem inc_sag : (d.inc c).sag = d.sag := rfl
@[simp] theorem inc_core : (d.inc c).core = d.core := rfl
@[simp] theorem inc_boot : (d.inc c).boot = d.boot := rfl
@[simp] theorem inc_glz : (d.inc c).glz = d.glz := rfl
@[simp] theorem inc_pke : (d.inc c).pke = d.pke := rfl
@[simp] theorem inc_ras : (d.inc c).ras = d.ras := rfl
@[simp] theorem inc_sto : (d.inc c).sto = d.sto := rfl
@[simp] theorem inc_pkg : (d.inc c).pkg = d.pkg := rfl
end
section
variable (d : Dev) (f : Fld)
@[simp] theorem setEvent_cycle : (d.setEvent f).cycle = d.cycle := rfl
@[simp] theorem setEvent_fresh : (d.setEvent f).fresh = d.fresh := rfl
@[simp] theorem setEvent_out : (d.setEvent f).out = d.out := rfl
@[simp] theorem setEvent_eth : (d.setEvent f).eth = d.eth := rfl
@[simp] theorem setEvent_frames : (d.setEvent f).frames = d.frames := rfl
@[simp] theorem setEvent_nextFrame : (d.setEvent f).nextFrame = d.nextFrame := rfl
@[simp] theorem setEvent_parse : (d.setEvent f).parse = d.parse := rfl
@[simp] theorem setEvent_buf : (d.setEvent f).buf = d.buf := rfl
@[simp] theorem setEvent_tm : (d.setEvent f).tm = d.tm := rfl
@[simp] theorem setEvent_time : (d.setEvent f).time = d.time := rfl
@[simp] theorem setEvent_own : (d.setEvent f).own = d.own := rfl
@[simp] theorem setEvent_mem : (d.setEvent f).mem = d.mem := rfl
@[simp] theorem setEvent_cls : (d.setEvent f).cls = d.cls := rfl
@[simp] theorem setEvent_tbl : (d.setEvent f).tbl = d.tbl := rfl
@[simp] theorem setEvent_hif : (d.setEvent f).hif = d.hif := rfl
@[simp] theorem setEvent_dma : (d.setEvent f).dma = d.dma := rfl
@[simp] theorem setEvent_sag : (d.setEvent f).sag = d.sag := rfl
@[simp] theorem setEvent_core : (d.setEvent f).core = d.core := rfl
@[simp] theorem setEvent_boot : (d.setEvent f).boot = d.boot := rfl
@[simp] theorem setEvent_glz : (d.setEvent f).glz = d.glz := rfl
@[simp] theorem setEvent_pke : (d.setEvent f).pke = d.pke := rfl
@[simp] theorem setEvent_ras : (d.setEvent f).ras = d.ras := rfl
@[simp] theorem setEvent_sto : (d.setEvent f).sto = d.sto := rfl
@[simp] theorem setEvent_pkg : (d.setEvent f).pkg = d.pkg := rfl
end
section
variable (d : Dev) (a : Nat)
@[simp] theorem clearCount_cycle : (d.clearCount a).cycle = d.cycle := rfl
@[simp] theorem clearCount_fresh : (d.clearCount a).fresh = d.fresh := rfl
@[simp] theorem clearCount_out : (d.clearCount a).out = d.out := rfl
@[simp] theorem clearCount_eth : (d.clearCount a).eth = d.eth := rfl
@[simp] theorem clearCount_frames : (d.clearCount a).frames = d.frames := rfl
@[simp] theorem clearCount_nextFrame : (d.clearCount a).nextFrame = d.nextFrame := rfl
@[simp] theorem clearCount_parse : (d.clearCount a).parse = d.parse := rfl
@[simp] theorem clearCount_buf : (d.clearCount a).buf = d.buf := rfl
@[simp] theorem clearCount_tm : (d.clearCount a).tm = d.tm := rfl
@[simp] theorem clearCount_time : (d.clearCount a).time = d.time := rfl
@[simp] theorem clearCount_own : (d.clearCount a).own = d.own := rfl
@[simp] theorem clearCount_mem : (d.clearCount a).mem = d.mem := rfl
@[simp] theorem clearCount_cls : (d.clearCount a).cls = d.cls := rfl
@[simp] theorem clearCount_tbl : (d.clearCount a).tbl = d.tbl := rfl
@[simp] theorem clearCount_hif : (d.clearCount a).hif = d.hif := rfl
@[simp] theorem clearCount_dma : (d.clearCount a).dma = d.dma := rfl
@[simp] theorem clearCount_sag : (d.clearCount a).sag = d.sag := rfl
@[simp] theorem clearCount_core : (d.clearCount a).core = d.core := rfl
@[simp] theorem clearCount_boot : (d.clearCount a).boot = d.boot := rfl
@[simp] theorem clearCount_glz : (d.clearCount a).glz = d.glz := rfl
@[simp] theorem clearCount_pke : (d.clearCount a).pke = d.pke := rfl
@[simp] theorem clearCount_ras : (d.clearCount a).ras = d.ras := rfl
@[simp] theorem clearCount_sto : (d.clearCount a).sto = d.sto := rfl
@[simp] theorem clearCount_pkg : (d.clearCount a).pkg = d.pkg := rfl
end
section
variable (d : Dev) (a : Nat)
@[simp] theorem unlock_cycle : (d.unlock a).cycle = d.cycle := rfl
@[simp] theorem unlock_fresh : (d.unlock a).fresh = d.fresh := rfl
@[simp] theorem unlock_out : (d.unlock a).out = d.out := rfl
@[simp] theorem unlock_eth : (d.unlock a).eth = d.eth := rfl
@[simp] theorem unlock_frames : (d.unlock a).frames = d.frames := rfl
@[simp] theorem unlock_nextFrame : (d.unlock a).nextFrame = d.nextFrame := rfl
@[simp] theorem unlock_parse : (d.unlock a).parse = d.parse := rfl
@[simp] theorem unlock_buf : (d.unlock a).buf = d.buf := rfl
@[simp] theorem unlock_tm : (d.unlock a).tm = d.tm := rfl
@[simp] theorem unlock_time : (d.unlock a).time = d.time := rfl
@[simp] theorem unlock_own : (d.unlock a).own = d.own := rfl
@[simp] theorem unlock_mem : (d.unlock a).mem = d.mem := rfl
@[simp] theorem unlock_cls : (d.unlock a).cls = d.cls := rfl
@[simp] theorem unlock_tbl : (d.unlock a).tbl = d.tbl := rfl
@[simp] theorem unlock_hif : (d.unlock a).hif = d.hif := rfl
@[simp] theorem unlock_dma : (d.unlock a).dma = d.dma := rfl
@[simp] theorem unlock_sag : (d.unlock a).sag = d.sag := rfl
@[simp] theorem unlock_core : (d.unlock a).core = d.core := rfl
@[simp] theorem unlock_boot : (d.unlock a).boot = d.boot := rfl
@[simp] theorem unlock_glz : (d.unlock a).glz = d.glz := rfl
@[simp] theorem unlock_pke : (d.unlock a).pke = d.pke := rfl
@[simp] theorem unlock_ras : (d.unlock a).ras = d.ras := rfl
@[simp] theorem unlock_sto : (d.unlock a).sto = d.sto := rfl
@[simp] theorem unlock_pkg : (d.unlock a).pkg = d.pkg := rfl
end
section
variable (d : Dev) (p : Path) (a : Nat)
@[simp] theorem reportViol_cycle : (d.reportViol p a).cycle = d.cycle := rfl
@[simp] theorem reportViol_fresh : (d.reportViol p a).fresh = d.fresh := rfl
@[simp] theorem reportViol_out : (d.reportViol p a).out = d.out := rfl
@[simp] theorem reportViol_eth : (d.reportViol p a).eth = d.eth := rfl
@[simp] theorem reportViol_frames : (d.reportViol p a).frames = d.frames := rfl
@[simp] theorem reportViol_nextFrame : (d.reportViol p a).nextFrame = d.nextFrame := rfl
@[simp] theorem reportViol_parse : (d.reportViol p a).parse = d.parse := rfl
@[simp] theorem reportViol_buf : (d.reportViol p a).buf = d.buf := rfl
@[simp] theorem reportViol_tm : (d.reportViol p a).tm = d.tm := rfl
@[simp] theorem reportViol_time : (d.reportViol p a).time = d.time := rfl
@[simp] theorem reportViol_own : (d.reportViol p a).own = d.own := rfl
@[simp] theorem reportViol_mem : (d.reportViol p a).mem = d.mem := rfl
@[simp] theorem reportViol_cls : (d.reportViol p a).cls = d.cls := rfl
@[simp] theorem reportViol_tbl : (d.reportViol p a).tbl = d.tbl := rfl
@[simp] theorem reportViol_hif : (d.reportViol p a).hif = d.hif := rfl
@[simp] theorem reportViol_dma : (d.reportViol p a).dma = d.dma := rfl
@[simp] theorem reportViol_sag : (d.reportViol p a).sag = d.sag := rfl
@[simp] theorem reportViol_core : (d.reportViol p a).core = d.core := rfl
@[simp] theorem reportViol_boot : (d.reportViol p a).boot = d.boot := rfl
@[simp] theorem reportViol_glz : (d.reportViol p a).glz = d.glz := rfl
@[simp] theorem reportViol_pke : (d.reportViol p a).pke = d.pke := rfl
@[simp] theorem reportViol_ras : (d.reportViol p a).ras = d.ras := rfl
@[simp] theorem reportViol_sto : (d.reportViol p a).sto = d.sto := rfl
@[simp] theorem reportViol_pkg : (d.reportViol p a).pkg = d.pkg := rfl
end
section
variable (d : Dev) (o : Out)
@[simp] theorem emit_cycle : (d.emit o).cycle = d.cycle := rfl
@[simp] theorem emit_fresh : (d.emit o).fresh = d.fresh := rfl
@[simp] theorem emit_reg : (d.emit o).reg = d.reg := rfl
@[simp] theorem emit_eth : (d.emit o).eth = d.eth := rfl
@[simp] theorem emit_frames : (d.emit o).frames = d.frames := rfl
@[simp] theorem emit_nextFrame : (d.emit o).nextFrame = d.nextFrame := rfl
@[simp] theorem emit_parse : (d.emit o).parse = d.parse := rfl
@[simp] theorem emit_buf : (d.emit o).buf = d.buf := rfl
@[simp] theorem emit_tm : (d.emit o).tm = d.tm := rfl
@[simp] theorem emit_time : (d.emit o).time = d.time := rfl
@[simp] theorem emit_own : (d.emit o).own = d.own := rfl
@[simp] theorem emit_mem : (d.emit o).mem = d.mem := rfl
@[simp] theorem emit_cls : (d.emit o).cls = d.cls := rfl
@[simp] theorem emit_tbl : (d.emit o).tbl = d.tbl := rfl
@[simp] theorem emit_hif : (d.emit o).hif = d.hif := rfl
@[simp] theorem emit_dma : (d.emit o).dma = d.dma := rfl
@[simp] theorem emit_sag : (d.emit o).sag = d.sag := rfl
@[simp] theorem emit_core : (d.emit o).core = d.core := rfl
@[simp] theorem emit_boot : (d.emit o).boot = d.boot := rfl
@[simp] theorem emit_glz : (d.emit o).glz = d.glz := rfl
@[simp] theorem emit_pke : (d.emit o).pke = d.pke := rfl
@[simp] theorem emit_ras : (d.emit o).ras = d.ras := rfl
@[simp] theorem emit_sto : (d.emit o).sto = d.sto := rfl
@[simp] theorem emit_pkg : (d.emit o).pkg = d.pkg := rfl
@[simp] theorem emit_rd (b : Nat) : (d.emit o).rd b = d.rd b := rfl
@[simp] theorem emit_get (b : Fld) : (d.emit o).get b = d.get b := rfl
@[simp] theorem emit_flag (b : Fld) : (d.emit o).flag b = d.flag b := rfl
@[simp] theorem emit_count (b : Ctr) : (d.emit o).count b = d.count b := rfl
end
section
variable (d : Dev) (i : Nat) (f : Frame)
@[simp] theorem setFrame_cycle : (d.setFrame i f).cycle = d.cycle := rfl
@[simp] theorem setFrame_fresh : (d.setFrame i f).fresh = d.fresh := rfl
@[simp] theorem setFrame_out : (d.setFrame i f).out = d.out := rfl
@[simp] theorem setFrame_reg : (d.setFrame i f).reg = d.reg := rfl
@[simp] theorem setFrame_eth : (d.setFrame i f).eth = d.eth := rfl
@[simp] theorem setFrame_nextFrame : (d.setFrame i f).nextFrame = d.nextFrame := rfl
@[simp] theorem setFrame_parse : (d.setFrame i f).parse = d.parse := rfl
@[simp] theorem setFrame_buf : (d.setFrame i f).buf = d.buf := rfl
@[simp] theorem setFrame_tm : (d.setFrame i f).tm = d.tm := rfl
@[simp] theorem setFrame_time : (d.setFrame i f).time = d.time := rfl
@[simp] theorem setFrame_own : (d.setFrame i f).own = d.own := rfl
@[simp] theorem setFrame_mem : (d.setFrame i f).mem = d.mem := rfl
@[simp] theorem setFrame_cls : (d.setFrame i f).cls = d.cls := rfl
@[simp] theorem setFrame_tbl : (d.setFrame i f).tbl = d.tbl := rfl
@[simp] theorem setFrame_hif : (d.setFrame i f).hif = d.hif := rfl
@[simp] theorem setFrame_dma : (d.setFrame i f).dma = d.dma := rfl
@[simp] theorem setFrame_sag : (d.setFrame i f).sag = d.sag := rfl
@[simp] theorem setFrame_core : (d.setFrame i f).core = d.core := rfl
@[simp] theorem setFrame_boot : (d.setFrame i f).boot = d.boot := rfl
@[simp] theorem setFrame_glz : (d.setFrame i f).glz = d.glz := rfl
@[simp] theorem setFrame_pke : (d.setFrame i f).pke = d.pke := rfl
@[simp] theorem setFrame_ras : (d.setFrame i f).ras = d.ras := rfl
@[simp] theorem setFrame_sto : (d.setFrame i f).sto = d.sto := rfl
@[simp] theorem setFrame_pkg : (d.setFrame i f).pkg = d.pkg := rfl
@[simp] theorem setFrame_rd (b : Nat) : (d.setFrame i f).rd b = d.rd b := rfl
@[simp] theorem setFrame_get (b : Fld) : (d.setFrame i f).get b = d.get b := rfl
@[simp] theorem setFrame_flag (b : Fld) : (d.setFrame i f).flag b = d.flag b := rfl
@[simp] theorem setFrame_count (b : Ctr) : (d.setFrame i f).count b = d.count b := rfl
end
section
variable (d : Dev) (i : Nat)
@[simp] theorem dropFrame_cycle : (d.dropFrame i).cycle = d.cycle := rfl
@[simp] theorem dropFrame_fresh : (d.dropFrame i).fresh = d.fresh := rfl
@[simp] theorem dropFrame_out : (d.dropFrame i).out = d.out := rfl
@[simp] theorem dropFrame_reg : (d.dropFrame i).reg = d.reg := rfl
@[simp] theorem dropFrame_eth : (d.dropFrame i).eth = d.eth := rfl
@[simp] theorem dropFrame_nextFrame : (d.dropFrame i).nextFrame = d.nextFrame := rfl
@[simp] theorem dropFrame_parse : (d.dropFrame i).parse = d.parse := rfl
@[simp] theorem dropFrame_buf : (d.dropFrame i).buf = d.buf := rfl
@[simp] theorem dropFrame_tm : (d.dropFrame i).tm = d.tm := rfl
@[simp] theorem dropFrame_time : (d.dropFrame i).time = d.time := rfl
@[simp] theorem dropFrame_own : (d.dropFrame i).own = d.own := rfl
@[simp] theorem dropFrame_mem : (d.dropFrame i).mem = d.mem := rfl
@[simp] theorem dropFrame_cls : (d.dropFrame i).cls = d.cls := rfl
@[simp] theorem dropFrame_tbl : (d.dropFrame i).tbl = d.tbl := rfl
@[simp] theorem dropFrame_hif : (d.dropFrame i).hif = d.hif := rfl
@[simp] theorem dropFrame_dma : (d.dropFrame i).dma = d.dma := rfl
@[simp] theorem dropFrame_sag : (d.dropFrame i).sag = d.sag := rfl
@[simp] theorem dropFrame_core : (d.dropFrame i).core = d.core := rfl
@[simp] theorem dropFrame_boot : (d.dropFrame i).boot = d.boot := rfl
@[simp] theorem dropFrame_glz : (d.dropFrame i).glz = d.glz := rfl
@[simp] theorem dropFrame_pke : (d.dropFrame i).pke = d.pke := rfl
@[simp] theorem dropFrame_ras : (d.dropFrame i).ras = d.ras := rfl
@[simp] theorem dropFrame_sto : (d.dropFrame i).sto = d.sto := rfl
@[simp] theorem dropFrame_pkg : (d.dropFrame i).pkg = d.pkg := rfl
@[simp] theorem dropFrame_rd (b : Nat) : (d.dropFrame i).rd b = d.rd b := rfl
@[simp] theorem dropFrame_get (b : Fld) : (d.dropFrame i).get b = d.get b := rfl
@[simp] theorem dropFrame_flag (b : Fld) : (d.dropFrame i).flag b = d.flag b := rfl
@[simp] theorem dropFrame_count (b : Ctr) : (d.dropFrame i).count b = d.count b := rfl
end
section
variable (d : Dev) (p : Nat) (x : SubPort)
@[simp] theorem setSub_cycle : (d.setSub p x).cycle = d.cycle := rfl
@[simp] theorem setSub_fresh : (d.setSub p x).fresh = d.fresh := rfl
@[simp] theorem setSub_out : (d.setSub p x).out = d.out := rfl
@[simp] theorem setSub_reg : (d.setSub p x).reg = d.reg := rfl
@[simp] theorem setSub_frames : (d.setSub p x).frames = d.frames := rfl
@[simp] theorem setSub_nextFrame : (d.setSub p x).nextFrame = d.nextFrame := rfl
@[simp] theorem setSub_parse : (d.setSub p x).parse = d.parse := rfl
@[simp] theorem setSub_buf : (d.setSub p x).buf = d.buf := rfl
@[simp] theorem setSub_tm : (d.setSub p x).tm = d.tm := rfl
@[simp] theorem setSub_time : (d.setSub p x).time = d.time := rfl
@[simp] theorem setSub_own : (d.setSub p x).own = d.own := rfl
@[simp] theorem setSub_mem : (d.setSub p x).mem = d.mem := rfl
@[simp] theorem setSub_cls : (d.setSub p x).cls = d.cls := rfl
@[simp] theorem setSub_tbl : (d.setSub p x).tbl = d.tbl := rfl
@[simp] theorem setSub_hif : (d.setSub p x).hif = d.hif := rfl
@[simp] theorem setSub_dma : (d.setSub p x).dma = d.dma := rfl
@[simp] theorem setSub_sag : (d.setSub p x).sag = d.sag := rfl
@[simp] theorem setSub_core : (d.setSub p x).core = d.core := rfl
@[simp] theorem setSub_boot : (d.setSub p x).boot = d.boot := rfl
@[simp] theorem setSub_glz : (d.setSub p x).glz = d.glz := rfl
@[simp] theorem setSub_pke : (d.setSub p x).pke = d.pke := rfl
@[simp] theorem setSub_ras : (d.setSub p x).ras = d.ras := rfl
@[simp] theorem setSub_sto : (d.setSub p x).sto = d.sto := rfl
@[simp] theorem setSub_pkg : (d.setSub p x).pkg = d.pkg := rfl
@[simp] theorem setSub_rd (b : Nat) : (d.setSub p x).rd b = d.rd b := rfl
@[simp] theorem setSub_get (b : Fld) : (d.setSub p x).get b = d.get b := rfl
@[simp] theorem setSub_flag (b : Fld) : (d.setSub p x).flag b = d.flag b := rfl
@[simp] theorem setSub_count (b : Ctr) : (d.setSub p x).count b = d.count b := rfl
end
section
variable (d : Dev) (p : Nat) (g : SubPort → SubPort)
@[simp] theorem modSub_cycle : (d.modSub p g).cycle = d.cycle := rfl
@[simp] theorem modSub_fresh : (d.modSub p g).fresh = d.fresh := rfl
@[simp] theorem modSub_out : (d.modSub p g).out = d.out := rfl
@[simp] theorem modSub_reg : (d.modSub p g).reg = d.reg := rfl
@[simp] theorem modSub_frames : (d.modSub p g).frames = d.frames := rfl
@[simp] theorem modSub_nextFrame : (d.modSub p g).nextFrame = d.nextFrame := rfl
@[simp] theorem modSub_parse : (d.modSub p g).parse = d.parse := rfl
@[simp] theorem modSub_buf : (d.modSub p g).buf = d.buf := rfl
@[simp] theorem modSub_tm : (d.modSub p g).tm = d.tm := rfl
@[simp] theorem modSub_time : (d.modSub p g).time = d.time := rfl
@[simp] theorem modSub_own : (d.modSub p g).own = d.own := rfl
@[simp] theorem modSub_mem : (d.modSub p g).mem = d.mem := rfl
@[simp] theorem modSub_cls : (d.modSub p g).cls = d.cls := rfl
@[simp] theorem modSub_tbl : (d.modSub p g).tbl = d.tbl := rfl
@[simp] theorem modSub_hif : (d.modSub p g).hif = d.hif := rfl
@[simp] theorem modSub_dma : (d.modSub p g).dma = d.dma := rfl
@[simp] theorem modSub_sag : (d.modSub p g).sag = d.sag := rfl
@[simp] theorem modSub_core : (d.modSub p g).core = d.core := rfl
@[simp] theorem modSub_boot : (d.modSub p g).boot = d.boot := rfl
@[simp] theorem modSub_glz : (d.modSub p g).glz = d.glz := rfl
@[simp] theorem modSub_pke : (d.modSub p g).pke = d.pke := rfl
@[simp] theorem modSub_ras : (d.modSub p g).ras = d.ras := rfl
@[simp] theorem modSub_sto : (d.modSub p g).sto = d.sto := rfl
@[simp] theorem modSub_pkg : (d.modSub p g).pkg = d.pkg := rfl
@[simp] theorem modSub_rd (b : Nat) : (d.modSub p g).rd b = d.rd b := rfl
@[simp] theorem modSub_get (b : Fld) : (d.modSub p g).get b = d.get b := rfl
@[simp] theorem modSub_flag (b : Fld) : (d.modSub p g).flag b = d.flag b := rfl
@[simp] theorem modSub_count (b : Ctr) : (d.modSub p g).count b = d.count b := rfl
end
section
variable (d : Dev) (k : Nat) (x : ParseState)
@[simp] theorem setPst_cycle : (d.setPst k x).cycle = d.cycle := rfl
@[simp] theorem setPst_fresh : (d.setPst k x).fresh = d.fresh := rfl
@[simp] theorem setPst_out : (d.setPst k x).out = d.out := rfl
@[simp] theorem setPst_reg : (d.setPst k x).reg = d.reg := rfl
@[simp] theorem setPst_eth : (d.setPst k x).eth = d.eth := rfl
@[simp] theorem setPst_frames : (d.setPst k x).frames = d.frames := rfl
@[simp] theorem setPst_nextFrame : (d.setPst k x).nextFrame = d.nextFrame := rfl
@[simp] theorem setPst_buf : (d.setPst k x).buf = d.buf := rfl
@[simp] theorem setPst_tm : (d.setPst k x).tm = d.tm := rfl
@[simp] theorem setPst_time : (d.setPst k x).time = d.time := rfl
@[simp] theorem setPst_own : (d.setPst k x).own = d.own := rfl
@[simp] theorem setPst_mem : (d.setPst k x).mem = d.mem := rfl
@[simp] theorem setPst_cls : (d.setPst k x).cls = d.cls := rfl
@[simp] theorem setPst_tbl : (d.setPst k x).tbl = d.tbl := rfl
@[simp] theorem setPst_hif : (d.setPst k x).hif = d.hif := rfl
@[simp] theorem setPst_dma : (d.setPst k x).dma = d.dma := rfl
@[simp] theorem setPst_sag : (d.setPst k x).sag = d.sag := rfl
@[simp] theorem setPst_core : (d.setPst k x).core = d.core := rfl
@[simp] theorem setPst_boot : (d.setPst k x).boot = d.boot := rfl
@[simp] theorem setPst_glz : (d.setPst k x).glz = d.glz := rfl
@[simp] theorem setPst_pke : (d.setPst k x).pke = d.pke := rfl
@[simp] theorem setPst_ras : (d.setPst k x).ras = d.ras := rfl
@[simp] theorem setPst_sto : (d.setPst k x).sto = d.sto := rfl
@[simp] theorem setPst_pkg : (d.setPst k x).pkg = d.pkg := rfl
@[simp] theorem setPst_rd (b : Nat) : (d.setPst k x).rd b = d.rd b := rfl
@[simp] theorem setPst_get (b : Fld) : (d.setPst k x).get b = d.get b := rfl
@[simp] theorem setPst_flag (b : Fld) : (d.setPst k x).flag b = d.flag b := rfl
@[simp] theorem setPst_count (b : Ctr) : (d.setPst k x).count b = d.count b := rfl
end
section
variable (d : Dev) (k : Nat) (x : ClsPipe)
@[simp] theorem setCp_cycle : (d.setCp k x).cycle = d.cycle := rfl
@[simp] theorem setCp_fresh : (d.setCp k x).fresh = d.fresh := rfl
@[simp] theorem setCp_out : (d.setCp k x).out = d.out := rfl
@[simp] theorem setCp_reg : (d.setCp k x).reg = d.reg := rfl
@[simp] theorem setCp_eth : (d.setCp k x).eth = d.eth := rfl
@[simp] theorem setCp_frames : (d.setCp k x).frames = d.frames := rfl
@[simp] theorem setCp_nextFrame : (d.setCp k x).nextFrame = d.nextFrame := rfl
@[simp] theorem setCp_parse : (d.setCp k x).parse = d.parse := rfl
@[simp] theorem setCp_buf : (d.setCp k x).buf = d.buf := rfl
@[simp] theorem setCp_tm : (d.setCp k x).tm = d.tm := rfl
@[simp] theorem setCp_time : (d.setCp k x).time = d.time := rfl
@[simp] theorem setCp_own : (d.setCp k x).own = d.own := rfl
@[simp] theorem setCp_mem : (d.setCp k x).mem = d.mem := rfl
@[simp] theorem setCp_tbl : (d.setCp k x).tbl = d.tbl := rfl
@[simp] theorem setCp_hif : (d.setCp k x).hif = d.hif := rfl
@[simp] theorem setCp_dma : (d.setCp k x).dma = d.dma := rfl
@[simp] theorem setCp_sag : (d.setCp k x).sag = d.sag := rfl
@[simp] theorem setCp_core : (d.setCp k x).core = d.core := rfl
@[simp] theorem setCp_boot : (d.setCp k x).boot = d.boot := rfl
@[simp] theorem setCp_glz : (d.setCp k x).glz = d.glz := rfl
@[simp] theorem setCp_pke : (d.setCp k x).pke = d.pke := rfl
@[simp] theorem setCp_ras : (d.setCp k x).ras = d.ras := rfl
@[simp] theorem setCp_sto : (d.setCp k x).sto = d.sto := rfl
@[simp] theorem setCp_pkg : (d.setCp k x).pkg = d.pkg := rfl
@[simp] theorem setCp_rd (b : Nat) : (d.setCp k x).rd b = d.rd b := rfl
@[simp] theorem setCp_get (b : Fld) : (d.setCp k x).get b = d.get b := rfl
@[simp] theorem setCp_flag (b : Fld) : (d.setCp k x).flag b = d.flag b := rfl
@[simp] theorem setCp_count (b : Ctr) : (d.setCp k x).count b = d.count b := rfl
end
section
variable (d : Dev) (q : Nat) (x : QEntry)
@[simp] theorem setQueue_cycle : (d.setQueue q x).cycle = d.cycle := rfl
@[simp] theorem setQueue_fresh : (d.setQueue q x).fresh = d.fresh := rfl
@[simp] theorem setQueue_out : (d.setQueue q x).out = d.out := rfl
@[simp] theorem setQueue_reg : (d.setQueue q x).reg = d.reg := rfl
@[simp] theorem setQueue_eth : (d.setQueue q x).eth = d.eth := rfl
@[simp] theorem setQueue_frames : (d.setQueue q x).frames = d.frames := rfl
@[simp] theorem setQueue_nextFrame : (d.setQueue q x).nextFrame = d.nextFrame := rfl
@[simp] theorem setQueue_parse : (d.setQueue q x).parse = d.parse := rfl
@[simp] theorem setQueue_tm : (d.setQueue q x).tm = d.tm := rfl
@[simp] theorem setQueue_time : (d.setQueue q x).time = d.time := rfl
@[simp] theorem setQueue_own : (d.setQueue q x).own = d.own := rfl
@[simp] theorem setQueue_mem : (d.setQueue q x).mem = d.mem := rfl
@[simp] theorem setQueue_cls : (d.setQueue q x).cls = d.cls := rfl
@[simp] theorem setQueue_tbl : (d.setQueue q x).tbl = d.tbl := rfl
@[simp] theorem setQueue_hif : (d.setQueue q x).hif = d.hif := rfl
@[simp] theorem setQueue_dma : (d.setQueue q x).dma = d.dma := rfl
@[simp] theorem setQueue_sag : (d.setQueue q x).sag = d.sag := rfl
@[simp] theorem setQueue_core : (d.setQueue q x).core = d.core := rfl
@[simp] theorem setQueue_boot : (d.setQueue q x).boot = d.boot := rfl
@[simp] theorem setQueue_glz : (d.setQueue q x).glz = d.glz := rfl
@[simp] theorem setQueue_pke : (d.setQueue q x).pke = d.pke := rfl
@[simp] theorem setQueue_ras : (d.setQueue q x).ras = d.ras := rfl
@[simp] theorem setQueue_sto : (d.setQueue q x).sto = d.sto := rfl
@[simp] theorem setQueue_pkg : (d.setQueue q x).pkg = d.pkg := rfl
@[simp] theorem setQueue_rd (b : Nat) : (d.setQueue q x).rd b = d.rd b := rfl
@[simp] theorem setQueue_get (b : Fld) : (d.setQueue q x).get b = d.get b := rfl
@[simp] theorem setQueue_flag (b : Fld) : (d.setQueue q x).flag b = d.flag b := rfl
@[simp] theorem setQueue_count (b : Ctr) : (d.setQueue q x).count b = d.count b := rfl
end
section
variable (d : Dev) (q : Nat) (g : QEntry → QEntry)
@[simp] theorem modQueue_cycle : (d.modQueue q g).cycle = d.cycle := rfl
@[simp] theorem modQueue_fresh : (d.modQueue q g).fresh = d.fresh := rfl
@[simp] theorem modQueue_out : (d.modQueue q g).out = d.out := rfl
@[simp] theorem modQueue_reg : (d.modQueue q g).reg = d.reg := rfl
@[simp] theorem modQueue_eth : (d.modQueue q g).eth = d.eth := rfl
@[simp] theorem modQueue_frames : (d.modQueue q g).frames = d.frames := rfl
@[simp] theorem modQueue_nextFrame : (d.modQueue q g).nextFrame = d.nextFrame := rfl
@[simp] theorem modQueue_parse : (d.modQueue q g).parse = d.parse := rfl
@[simp] theorem modQueue_tm : (d.modQueue q g).tm = d.tm := rfl
@[simp] theorem modQueue_time : (d.modQueue q g).time = d.time := rfl
@[simp] theorem modQueue_own : (d.modQueue q g).own = d.own := rfl
@[simp] theorem modQueue_mem : (d.modQueue q g).mem = d.mem := rfl
@[simp] theorem modQueue_cls : (d.modQueue q g).cls = d.cls := rfl
@[simp] theorem modQueue_tbl : (d.modQueue q g).tbl = d.tbl := rfl
@[simp] theorem modQueue_hif : (d.modQueue q g).hif = d.hif := rfl
@[simp] theorem modQueue_dma : (d.modQueue q g).dma = d.dma := rfl
@[simp] theorem modQueue_sag : (d.modQueue q g).sag = d.sag := rfl
@[simp] theorem modQueue_core : (d.modQueue q g).core = d.core := rfl
@[simp] theorem modQueue_boot : (d.modQueue q g).boot = d.boot := rfl
@[simp] theorem modQueue_glz : (d.modQueue q g).glz = d.glz := rfl
@[simp] theorem modQueue_pke : (d.modQueue q g).pke = d.pke := rfl
@[simp] theorem modQueue_ras : (d.modQueue q g).ras = d.ras := rfl
@[simp] theorem modQueue_sto : (d.modQueue q g).sto = d.sto := rfl
@[simp] theorem modQueue_pkg : (d.modQueue q g).pkg = d.pkg := rfl
@[simp] theorem modQueue_rd (b : Nat) : (d.modQueue q g).rd b = d.rd b := rfl
@[simp] theorem modQueue_get (b : Fld) : (d.modQueue q g).get b = d.get b := rfl
@[simp] theorem modQueue_flag (b : Fld) : (d.modQueue q g).flag b = d.flag b := rfl
@[simp] theorem modQueue_count (b : Ctr) : (d.modQueue q g).count b = d.count b := rfl
end
section
variable (d : Dev) (m : Nat) (x : Meter)
@[simp] theorem setMeter_cycle : (d.setMeter m x).cycle = d.cycle := rfl
@[simp] theorem setMeter_fresh : (d.setMeter m x).fresh = d.fresh := rfl
@[simp] theorem setMeter_out : (d.setMeter m x).out = d.out := rfl
@[simp] theorem setMeter_reg : (d.setMeter m x).reg = d.reg := rfl
@[simp] theorem setMeter_eth : (d.setMeter m x).eth = d.eth := rfl
@[simp] theorem setMeter_frames : (d.setMeter m x).frames = d.frames := rfl
@[simp] theorem setMeter_nextFrame : (d.setMeter m x).nextFrame = d.nextFrame := rfl
@[simp] theorem setMeter_parse : (d.setMeter m x).parse = d.parse := rfl
@[simp] theorem setMeter_tm : (d.setMeter m x).tm = d.tm := rfl
@[simp] theorem setMeter_time : (d.setMeter m x).time = d.time := rfl
@[simp] theorem setMeter_own : (d.setMeter m x).own = d.own := rfl
@[simp] theorem setMeter_mem : (d.setMeter m x).mem = d.mem := rfl
@[simp] theorem setMeter_cls : (d.setMeter m x).cls = d.cls := rfl
@[simp] theorem setMeter_tbl : (d.setMeter m x).tbl = d.tbl := rfl
@[simp] theorem setMeter_hif : (d.setMeter m x).hif = d.hif := rfl
@[simp] theorem setMeter_dma : (d.setMeter m x).dma = d.dma := rfl
@[simp] theorem setMeter_sag : (d.setMeter m x).sag = d.sag := rfl
@[simp] theorem setMeter_core : (d.setMeter m x).core = d.core := rfl
@[simp] theorem setMeter_boot : (d.setMeter m x).boot = d.boot := rfl
@[simp] theorem setMeter_glz : (d.setMeter m x).glz = d.glz := rfl
@[simp] theorem setMeter_pke : (d.setMeter m x).pke = d.pke := rfl
@[simp] theorem setMeter_ras : (d.setMeter m x).ras = d.ras := rfl
@[simp] theorem setMeter_sto : (d.setMeter m x).sto = d.sto := rfl
@[simp] theorem setMeter_pkg : (d.setMeter m x).pkg = d.pkg := rfl
@[simp] theorem setMeter_rd (b : Nat) : (d.setMeter m x).rd b = d.rd b := rfl
@[simp] theorem setMeter_get (b : Fld) : (d.setMeter m x).get b = d.get b := rfl
@[simp] theorem setMeter_flag (b : Fld) : (d.setMeter m x).flag b = d.flag b := rfl
@[simp] theorem setMeter_count (b : Ctr) : (d.setMeter m x).count b = d.count b := rfl
end
section
variable (d : Dev) (i : Nat) (x : StreamFilter)
@[simp] theorem setFilter_cycle : (d.setFilter i x).cycle = d.cycle := rfl
@[simp] theorem setFilter_fresh : (d.setFilter i x).fresh = d.fresh := rfl
@[simp] theorem setFilter_out : (d.setFilter i x).out = d.out := rfl
@[simp] theorem setFilter_reg : (d.setFilter i x).reg = d.reg := rfl
@[simp] theorem setFilter_eth : (d.setFilter i x).eth = d.eth := rfl
@[simp] theorem setFilter_frames : (d.setFilter i x).frames = d.frames := rfl
@[simp] theorem setFilter_nextFrame : (d.setFilter i x).nextFrame = d.nextFrame := rfl
@[simp] theorem setFilter_parse : (d.setFilter i x).parse = d.parse := rfl
@[simp] theorem setFilter_buf : (d.setFilter i x).buf = d.buf := rfl
@[simp] theorem setFilter_time : (d.setFilter i x).time = d.time := rfl
@[simp] theorem setFilter_own : (d.setFilter i x).own = d.own := rfl
@[simp] theorem setFilter_mem : (d.setFilter i x).mem = d.mem := rfl
@[simp] theorem setFilter_cls : (d.setFilter i x).cls = d.cls := rfl
@[simp] theorem setFilter_tbl : (d.setFilter i x).tbl = d.tbl := rfl
@[simp] theorem setFilter_hif : (d.setFilter i x).hif = d.hif := rfl
@[simp] theorem setFilter_dma : (d.setFilter i x).dma = d.dma := rfl
@[simp] theorem setFilter_sag : (d.setFilter i x).sag = d.sag := rfl
@[simp] theorem setFilter_core : (d.setFilter i x).core = d.core := rfl
@[simp] theorem setFilter_boot : (d.setFilter i x).boot = d.boot := rfl
@[simp] theorem setFilter_glz : (d.setFilter i x).glz = d.glz := rfl
@[simp] theorem setFilter_pke : (d.setFilter i x).pke = d.pke := rfl
@[simp] theorem setFilter_ras : (d.setFilter i x).ras = d.ras := rfl
@[simp] theorem setFilter_sto : (d.setFilter i x).sto = d.sto := rfl
@[simp] theorem setFilter_pkg : (d.setFilter i x).pkg = d.pkg := rfl
@[simp] theorem setFilter_rd (b : Nat) : (d.setFilter i x).rd b = d.rd b := rfl
@[simp] theorem setFilter_get (b : Fld) : (d.setFilter i x).get b = d.get b := rfl
@[simp] theorem setFilter_flag (b : Fld) : (d.setFilter i x).flag b = d.flag b := rfl
@[simp] theorem setFilter_count (b : Ctr) : (d.setFilter i x).count b = d.count b := rfl
end
section
variable (d : Dev) (g : Nat) (x : Gate)
@[simp] theorem setGate_cycle : (d.setGate g x).cycle = d.cycle := rfl
@[simp] theorem setGate_fresh : (d.setGate g x).fresh = d.fresh := rfl
@[simp] theorem setGate_out : (d.setGate g x).out = d.out := rfl
@[simp] theorem setGate_reg : (d.setGate g x).reg = d.reg := rfl
@[simp] theorem setGate_eth : (d.setGate g x).eth = d.eth := rfl
@[simp] theorem setGate_frames : (d.setGate g x).frames = d.frames := rfl
@[simp] theorem setGate_nextFrame : (d.setGate g x).nextFrame = d.nextFrame := rfl
@[simp] theorem setGate_parse : (d.setGate g x).parse = d.parse := rfl
@[simp] theorem setGate_buf : (d.setGate g x).buf = d.buf := rfl
@[simp] theorem setGate_time : (d.setGate g x).time = d.time := rfl
@[simp] theorem setGate_own : (d.setGate g x).own = d.own := rfl
@[simp] theorem setGate_mem : (d.setGate g x).mem = d.mem := rfl
@[simp] theorem setGate_cls : (d.setGate g x).cls = d.cls := rfl
@[simp] theorem setGate_tbl : (d.setGate g x).tbl = d.tbl := rfl
@[simp] theorem setGate_hif : (d.setGate g x).hif = d.hif := rfl
@[simp] theorem setGate_dma : (d.setGate g x).dma = d.dma := rfl
@[simp] theorem setGate_sag : (d.setGate g x).sag = d.sag := rfl
@[simp] theorem setGate_core : (d.setGate g x).core = d.core := rfl
@[simp] theorem setGate_boot : (d.setGate g x).boot = d.boot := rfl
@[simp] theorem setGate_glz : (d.setGate g x).glz = d.glz := rfl
@[simp] theorem setGate_pke : (d.setGate g x).pke = d.pke := rfl
@[simp] theorem setGate_ras : (d.setGate g x).ras = d.ras := rfl
@[simp] theorem setGate_sto : (d.setGate g x).sto = d.sto := rfl
@[simp] theorem setGate_pkg : (d.setGate g x).pkg = d.pkg := rfl
@[simp] theorem setGate_rd (b : Nat) : (d.setGate g x).rd b = d.rd b := rfl
@[simp] theorem setGate_get (b : Fld) : (d.setGate g x).get b = d.get b := rfl
@[simp] theorem setGate_flag (b : Fld) : (d.setGate g x).flag b = d.flag b := rfl
@[simp] theorem setGate_count (b : Ctr) : (d.setGate g x).count b = d.count b := rfl
end
section
variable (d : Dev) (i : Nat) (x : Sag)
@[simp] theorem setSag_cycle : (d.setSag i x).cycle = d.cycle := rfl
@[simp] theorem setSag_fresh : (d.setSag i x).fresh = d.fresh := rfl
@[simp] theorem setSag_out : (d.setSag i x).out = d.out := rfl
@[simp] theorem setSag_reg : (d.setSag i x).reg = d.reg := rfl
@[simp] theorem setSag_eth : (d.setSag i x).eth = d.eth := rfl
@[simp] theorem setSag_frames : (d.setSag i x).frames = d.frames := rfl
@[simp] theorem setSag_nextFrame : (d.setSag i x).nextFrame = d.nextFrame := rfl
@[simp] theorem setSag_parse : (d.setSag i x).parse = d.parse := rfl
@[simp] theorem setSag_buf : (d.setSag i x).buf = d.buf := rfl
@[simp] theorem setSag_tm : (d.setSag i x).tm = d.tm := rfl
@[simp] theorem setSag_time : (d.setSag i x).time = d.time := rfl
@[simp] theorem setSag_own : (d.setSag i x).own = d.own := rfl
@[simp] theorem setSag_mem : (d.setSag i x).mem = d.mem := rfl
@[simp] theorem setSag_cls : (d.setSag i x).cls = d.cls := rfl
@[simp] theorem setSag_tbl : (d.setSag i x).tbl = d.tbl := rfl
@[simp] theorem setSag_hif : (d.setSag i x).hif = d.hif := rfl
@[simp] theorem setSag_dma : (d.setSag i x).dma = d.dma := rfl
@[simp] theorem setSag_core : (d.setSag i x).core = d.core := rfl
@[simp] theorem setSag_boot : (d.setSag i x).boot = d.boot := rfl
@[simp] theorem setSag_glz : (d.setSag i x).glz = d.glz := rfl
@[simp] theorem setSag_pke : (d.setSag i x).pke = d.pke := rfl
@[simp] theorem setSag_ras : (d.setSag i x).ras = d.ras := rfl
@[simp] theorem setSag_sto : (d.setSag i x).sto = d.sto := rfl
@[simp] theorem setSag_pkg : (d.setSag i x).pkg = d.pkg := rfl
@[simp] theorem setSag_rd (b : Nat) : (d.setSag i x).rd b = d.rd b := rfl
@[simp] theorem setSag_get (b : Fld) : (d.setSag i x).get b = d.get b := rfl
@[simp] theorem setSag_flag (b : Fld) : (d.setSag i x).flag b = d.flag b := rfl
@[simp] theorem setSag_count (b : Ctr) : (d.setSag i x).count b = d.count b := rfl
end
section
variable (d : Dev) (i : Nat) (g : Sag → Sag)
@[simp] theorem modSag_cycle : (d.modSag i g).cycle = d.cycle := rfl
@[simp] theorem modSag_fresh : (d.modSag i g).fresh = d.fresh := rfl
@[simp] theorem modSag_out : (d.modSag i g).out = d.out := rfl
@[simp] theorem modSag_reg : (d.modSag i g).reg = d.reg := rfl
@[simp] theorem modSag_eth : (d.modSag i g).eth = d.eth := rfl
@[simp] theorem modSag_frames : (d.modSag i g).frames = d.frames := rfl
@[simp] theorem modSag_nextFrame : (d.modSag i g).nextFrame = d.nextFrame := rfl
@[simp] theorem modSag_parse : (d.modSag i g).parse = d.parse := rfl
@[simp] theorem modSag_buf : (d.modSag i g).buf = d.buf := rfl
@[simp] theorem modSag_tm : (d.modSag i g).tm = d.tm := rfl
@[simp] theorem modSag_time : (d.modSag i g).time = d.time := rfl
@[simp] theorem modSag_own : (d.modSag i g).own = d.own := rfl
@[simp] theorem modSag_mem : (d.modSag i g).mem = d.mem := rfl
@[simp] theorem modSag_cls : (d.modSag i g).cls = d.cls := rfl
@[simp] theorem modSag_tbl : (d.modSag i g).tbl = d.tbl := rfl
@[simp] theorem modSag_hif : (d.modSag i g).hif = d.hif := rfl
@[simp] theorem modSag_dma : (d.modSag i g).dma = d.dma := rfl
@[simp] theorem modSag_core : (d.modSag i g).core = d.core := rfl
@[simp] theorem modSag_boot : (d.modSag i g).boot = d.boot := rfl
@[simp] theorem modSag_glz : (d.modSag i g).glz = d.glz := rfl
@[simp] theorem modSag_pke : (d.modSag i g).pke = d.pke := rfl
@[simp] theorem modSag_ras : (d.modSag i g).ras = d.ras := rfl
@[simp] theorem modSag_sto : (d.modSag i g).sto = d.sto := rfl
@[simp] theorem modSag_pkg : (d.modSag i g).pkg = d.pkg := rfl
@[simp] theorem modSag_rd (b : Nat) : (d.modSag i g).rd b = d.rd b := rfl
@[simp] theorem modSag_get (b : Fld) : (d.modSag i g).get b = d.get b := rfl
@[simp] theorem modSag_flag (b : Fld) : (d.modSag i g).flag b = d.flag b := rfl
@[simp] theorem modSag_count (b : Ctr) : (d.modSag i g).count b = d.count b := rfl
end
section
variable (d : Dev) (q : Nat) (x : Place)
@[simp] theorem setPlace_cycle : (d.setPlace q x).cycle = d.cycle := rfl
@[simp] theorem setPlace_fresh : (d.setPlace q x).fresh = d.fresh := rfl
@[simp] theorem setPlace_out : (d.setPlace q x).out = d.out := rfl
@[simp] theorem setPlace_reg : (d.setPlace q x).reg = d.reg := rfl
@[simp] theorem setPlace_eth : (d.setPlace q x).eth = d.eth := rfl
@[simp] theorem setPlace_frames : (d.setPlace q x).frames = d.frames := rfl
@[simp] theorem setPlace_nextFrame : (d.setPlace q x).nextFrame = d.nextFrame := rfl
@[simp] theorem setPlace_parse : (d.setPlace q x).parse = d.parse := rfl
@[simp] theorem setPlace_buf : (d.setPlace q x).buf = d.buf := rfl
@[simp] theorem setPlace_tm : (d.setPlace q x).tm = d.tm := rfl
@[simp] theorem setPlace_time : (d.setPlace q x).time = d.time := rfl
@[simp] theorem setPlace_own : (d.setPlace q x).own = d.own := rfl
@[simp] theorem setPlace_mem : (d.setPlace q x).mem = d.mem := rfl
@[simp] theorem setPlace_cls : (d.setPlace q x).cls = d.cls := rfl
@[simp] theorem setPlace_tbl : (d.setPlace q x).tbl = d.tbl := rfl
@[simp] theorem setPlace_hif : (d.setPlace q x).hif = d.hif := rfl
@[simp] theorem setPlace_dma : (d.setPlace q x).dma = d.dma := rfl
@[simp] theorem setPlace_sag : (d.setPlace q x).sag = d.sag := rfl
@[simp] theorem setPlace_boot : (d.setPlace q x).boot = d.boot := rfl
@[simp] theorem setPlace_glz : (d.setPlace q x).glz = d.glz := rfl
@[simp] theorem setPlace_pke : (d.setPlace q x).pke = d.pke := rfl
@[simp] theorem setPlace_ras : (d.setPlace q x).ras = d.ras := rfl
@[simp] theorem setPlace_sto : (d.setPlace q x).sto = d.sto := rfl
@[simp] theorem setPlace_pkg : (d.setPlace q x).pkg = d.pkg := rfl
@[simp] theorem setPlace_rd (b : Nat) : (d.setPlace q x).rd b = d.rd b := rfl
@[simp] theorem setPlace_get (b : Fld) : (d.setPlace q x).get b = d.get b := rfl
@[simp] theorem setPlace_flag (b : Fld) : (d.setPlace q x).flag b = d.flag b := rfl
@[simp] theorem setPlace_count (b : Ctr) : (d.setPlace q x).count b = d.count b := rfl
end
section
variable (d : Dev) (q : Nat) (g : Place → Place)
@[simp] theorem modPlace_cycle : (d.modPlace q g).cycle = d.cycle := rfl
@[simp] theorem modPlace_fresh : (d.modPlace q g).fresh = d.fresh := rfl
@[simp] theorem modPlace_out : (d.modPlace q g).out = d.out := rfl
@[simp] theorem modPlace_reg : (d.modPlace q g).reg = d.reg := rfl
@[simp] theorem modPlace_eth : (d.modPlace q g).eth = d.eth := rfl
@[simp] theorem modPlace_frames : (d.modPlace q g).frames = d.frames := rfl
@[simp] theorem modPlace_nextFrame : (d.modPlace q g).nextFrame = d.nextFrame := rfl
@[simp] theorem modPlace_parse : (d.modPlace q g).parse = d.parse := rfl
@[simp] theorem modPlace_buf : (d.modPlace q g).buf = d.buf := rfl
@[simp] theorem modPlace_tm : (d.modPlace q g).tm = d.tm := rfl
@[simp] theorem modPlace_time : (d.modPlace q g).time = d.time := rfl
@[simp] theorem modPlace_own : (d.modPlace q g).own = d.own := rfl
@[simp] theorem modPlace_mem : (d.modPlace q g).mem = d.mem := rfl
@[simp] theorem modPlace_cls : (d.modPlace q g).cls = d.cls := rfl
@[simp] theorem modPlace_tbl : (d.modPlace q g).tbl = d.tbl := rfl
@[simp] theorem modPlace_hif : (d.modPlace q g).hif = d.hif := rfl
@[simp] theorem modPlace_dma : (d.modPlace q g).dma = d.dma := rfl
@[simp] theorem modPlace_sag : (d.modPlace q g).sag = d.sag := rfl
@[simp] theorem modPlace_boot : (d.modPlace q g).boot = d.boot := rfl
@[simp] theorem modPlace_glz : (d.modPlace q g).glz = d.glz := rfl
@[simp] theorem modPlace_pke : (d.modPlace q g).pke = d.pke := rfl
@[simp] theorem modPlace_ras : (d.modPlace q g).ras = d.ras := rfl
@[simp] theorem modPlace_sto : (d.modPlace q g).sto = d.sto := rfl
@[simp] theorem modPlace_pkg : (d.modPlace q g).pkg = d.pkg := rfl
@[simp] theorem modPlace_rd (b : Nat) : (d.modPlace q g).rd b = d.rd b := rfl
@[simp] theorem modPlace_get (b : Fld) : (d.modPlace q g).get b = d.get b := rfl
@[simp] theorem modPlace_flag (b : Fld) : (d.modPlace q g).flag b = d.flag b := rfl
@[simp] theorem modPlace_count (b : Ctr) : (d.modPlace q g).count b = d.count b := rfl
end
section
variable (d : Dev) (t : Nat) (x : Thread)
@[simp] theorem setThread_cycle : (d.setThread t x).cycle = d.cycle := rfl
@[simp] theorem setThread_fresh : (d.setThread t x).fresh = d.fresh := rfl
@[simp] theorem setThread_out : (d.setThread t x).out = d.out := rfl
@[simp] theorem setThread_reg : (d.setThread t x).reg = d.reg := rfl
@[simp] theorem setThread_eth : (d.setThread t x).eth = d.eth := rfl
@[simp] theorem setThread_frames : (d.setThread t x).frames = d.frames := rfl
@[simp] theorem setThread_nextFrame : (d.setThread t x).nextFrame = d.nextFrame := rfl
@[simp] theorem setThread_parse : (d.setThread t x).parse = d.parse := rfl
@[simp] theorem setThread_buf : (d.setThread t x).buf = d.buf := rfl
@[simp] theorem setThread_tm : (d.setThread t x).tm = d.tm := rfl
@[simp] theorem setThread_time : (d.setThread t x).time = d.time := rfl
@[simp] theorem setThread_own : (d.setThread t x).own = d.own := rfl
@[simp] theorem setThread_mem : (d.setThread t x).mem = d.mem := rfl
@[simp] theorem setThread_cls : (d.setThread t x).cls = d.cls := rfl
@[simp] theorem setThread_tbl : (d.setThread t x).tbl = d.tbl := rfl
@[simp] theorem setThread_hif : (d.setThread t x).hif = d.hif := rfl
@[simp] theorem setThread_dma : (d.setThread t x).dma = d.dma := rfl
@[simp] theorem setThread_sag : (d.setThread t x).sag = d.sag := rfl
@[simp] theorem setThread_boot : (d.setThread t x).boot = d.boot := rfl
@[simp] theorem setThread_glz : (d.setThread t x).glz = d.glz := rfl
@[simp] theorem setThread_pke : (d.setThread t x).pke = d.pke := rfl
@[simp] theorem setThread_ras : (d.setThread t x).ras = d.ras := rfl
@[simp] theorem setThread_sto : (d.setThread t x).sto = d.sto := rfl
@[simp] theorem setThread_pkg : (d.setThread t x).pkg = d.pkg := rfl
@[simp] theorem setThread_rd (b : Nat) : (d.setThread t x).rd b = d.rd b := rfl
@[simp] theorem setThread_get (b : Fld) : (d.setThread t x).get b = d.get b := rfl
@[simp] theorem setThread_flag (b : Fld) : (d.setThread t x).flag b = d.flag b := rfl
@[simp] theorem setThread_count (b : Ctr) : (d.setThread t x).count b = d.count b := rfl
end
section
variable (d : Dev) (t : Nat) (g : Thread → Thread)
@[simp] theorem modThread_cycle : (d.modThread t g).cycle = d.cycle := rfl
@[simp] theorem modThread_fresh : (d.modThread t g).fresh = d.fresh := rfl
@[simp] theorem modThread_out : (d.modThread t g).out = d.out := rfl
@[simp] theorem modThread_reg : (d.modThread t g).reg = d.reg := rfl
@[simp] theorem modThread_eth : (d.modThread t g).eth = d.eth := rfl
@[simp] theorem modThread_frames : (d.modThread t g).frames = d.frames := rfl
@[simp] theorem modThread_nextFrame : (d.modThread t g).nextFrame = d.nextFrame := rfl
@[simp] theorem modThread_parse : (d.modThread t g).parse = d.parse := rfl
@[simp] theorem modThread_buf : (d.modThread t g).buf = d.buf := rfl
@[simp] theorem modThread_tm : (d.modThread t g).tm = d.tm := rfl
@[simp] theorem modThread_time : (d.modThread t g).time = d.time := rfl
@[simp] theorem modThread_own : (d.modThread t g).own = d.own := rfl
@[simp] theorem modThread_mem : (d.modThread t g).mem = d.mem := rfl
@[simp] theorem modThread_cls : (d.modThread t g).cls = d.cls := rfl
@[simp] theorem modThread_tbl : (d.modThread t g).tbl = d.tbl := rfl
@[simp] theorem modThread_hif : (d.modThread t g).hif = d.hif := rfl
@[simp] theorem modThread_dma : (d.modThread t g).dma = d.dma := rfl
@[simp] theorem modThread_sag : (d.modThread t g).sag = d.sag := rfl
@[simp] theorem modThread_boot : (d.modThread t g).boot = d.boot := rfl
@[simp] theorem modThread_glz : (d.modThread t g).glz = d.glz := rfl
@[simp] theorem modThread_pke : (d.modThread t g).pke = d.pke := rfl
@[simp] theorem modThread_ras : (d.modThread t g).ras = d.ras := rfl
@[simp] theorem modThread_sto : (d.modThread t g).sto = d.sto := rfl
@[simp] theorem modThread_pkg : (d.modThread t g).pkg = d.pkg := rfl
@[simp] theorem modThread_rd (b : Nat) : (d.modThread t g).rd b = d.rd b := rfl
@[simp] theorem modThread_get (b : Fld) : (d.modThread t g).get b = d.get b := rfl
@[simp] theorem modThread_flag (b : Fld) : (d.modThread t g).flag b = d.flag b := rfl
@[simp] theorem modThread_count (b : Ctr) : (d.modThread t g).count b = d.count b := rfl
end
section
variable (d : Dev) (c : Nat) (x : CoreSt)
@[simp] theorem setCoreSt_cycle : (d.setCoreSt c x).cycle = d.cycle := rfl
@[simp] theorem setCoreSt_fresh : (d.setCoreSt c x).fresh = d.fresh := rfl
@[simp] theorem setCoreSt_out : (d.setCoreSt c x).out = d.out := rfl
@[simp] theorem setCoreSt_reg : (d.setCoreSt c x).reg = d.reg := rfl
@[simp] theorem setCoreSt_eth : (d.setCoreSt c x).eth = d.eth := rfl
@[simp] theorem setCoreSt_frames : (d.setCoreSt c x).frames = d.frames := rfl
@[simp] theorem setCoreSt_nextFrame : (d.setCoreSt c x).nextFrame = d.nextFrame := rfl
@[simp] theorem setCoreSt_parse : (d.setCoreSt c x).parse = d.parse := rfl
@[simp] theorem setCoreSt_buf : (d.setCoreSt c x).buf = d.buf := rfl
@[simp] theorem setCoreSt_tm : (d.setCoreSt c x).tm = d.tm := rfl
@[simp] theorem setCoreSt_time : (d.setCoreSt c x).time = d.time := rfl
@[simp] theorem setCoreSt_own : (d.setCoreSt c x).own = d.own := rfl
@[simp] theorem setCoreSt_mem : (d.setCoreSt c x).mem = d.mem := rfl
@[simp] theorem setCoreSt_cls : (d.setCoreSt c x).cls = d.cls := rfl
@[simp] theorem setCoreSt_tbl : (d.setCoreSt c x).tbl = d.tbl := rfl
@[simp] theorem setCoreSt_hif : (d.setCoreSt c x).hif = d.hif := rfl
@[simp] theorem setCoreSt_dma : (d.setCoreSt c x).dma = d.dma := rfl
@[simp] theorem setCoreSt_sag : (d.setCoreSt c x).sag = d.sag := rfl
@[simp] theorem setCoreSt_boot : (d.setCoreSt c x).boot = d.boot := rfl
@[simp] theorem setCoreSt_glz : (d.setCoreSt c x).glz = d.glz := rfl
@[simp] theorem setCoreSt_pke : (d.setCoreSt c x).pke = d.pke := rfl
@[simp] theorem setCoreSt_ras : (d.setCoreSt c x).ras = d.ras := rfl
@[simp] theorem setCoreSt_sto : (d.setCoreSt c x).sto = d.sto := rfl
@[simp] theorem setCoreSt_pkg : (d.setCoreSt c x).pkg = d.pkg := rfl
@[simp] theorem setCoreSt_rd (b : Nat) : (d.setCoreSt c x).rd b = d.rd b := rfl
@[simp] theorem setCoreSt_get (b : Fld) : (d.setCoreSt c x).get b = d.get b := rfl
@[simp] theorem setCoreSt_flag (b : Fld) : (d.setCoreSt c x).flag b = d.flag b := rfl
@[simp] theorem setCoreSt_count (b : Ctr) : (d.setCoreSt c x).count b = d.count b := rfl
end
section
variable (d : Dev) (f : CoreState → CoreState)
@[simp] theorem setCore_cycle : (d.setCore f).cycle = d.cycle := rfl
@[simp] theorem setCore_fresh : (d.setCore f).fresh = d.fresh := rfl
@[simp] theorem setCore_out : (d.setCore f).out = d.out := rfl
@[simp] theorem setCore_reg : (d.setCore f).reg = d.reg := rfl
@[simp] theorem setCore_eth : (d.setCore f).eth = d.eth := rfl
@[simp] theorem setCore_frames : (d.setCore f).frames = d.frames := rfl
@[simp] theorem setCore_nextFrame : (d.setCore f).nextFrame = d.nextFrame := rfl
@[simp] theorem setCore_parse : (d.setCore f).parse = d.parse := rfl
@[simp] theorem setCore_buf : (d.setCore f).buf = d.buf := rfl
@[simp] theorem setCore_tm : (d.setCore f).tm = d.tm := rfl
@[simp] theorem setCore_time : (d.setCore f).time = d.time := rfl
@[simp] theorem setCore_own : (d.setCore f).own = d.own := rfl
@[simp] theorem setCore_mem : (d.setCore f).mem = d.mem := rfl
@[simp] theorem setCore_cls : (d.setCore f).cls = d.cls := rfl
@[simp] theorem setCore_tbl : (d.setCore f).tbl = d.tbl := rfl
@[simp] theorem setCore_hif : (d.setCore f).hif = d.hif := rfl
@[simp] theorem setCore_dma : (d.setCore f).dma = d.dma := rfl
@[simp] theorem setCore_sag : (d.setCore f).sag = d.sag := rfl
@[simp] theorem setCore_boot : (d.setCore f).boot = d.boot := rfl
@[simp] theorem setCore_glz : (d.setCore f).glz = d.glz := rfl
@[simp] theorem setCore_pke : (d.setCore f).pke = d.pke := rfl
@[simp] theorem setCore_ras : (d.setCore f).ras = d.ras := rfl
@[simp] theorem setCore_sto : (d.setCore f).sto = d.sto := rfl
@[simp] theorem setCore_pkg : (d.setCore f).pkg = d.pkg := rfl
@[simp] theorem setCore_rd (b : Nat) : (d.setCore f).rd b = d.rd b := rfl
@[simp] theorem setCore_get (b : Fld) : (d.setCore f).get b = d.get b := rfl
@[simp] theorem setCore_flag (b : Fld) : (d.setCore f).flag b = d.flag b := rfl
@[simp] theorem setCore_count (b : Ctr) : (d.setCore f).count b = d.count b := rfl
end
section
variable (d : Dev) (c : Nat) (x : Option Channel)
@[simp] theorem setChannel_cycle : (d.setChannel c x).cycle = d.cycle := rfl
@[simp] theorem setChannel_fresh : (d.setChannel c x).fresh = d.fresh := rfl
@[simp] theorem setChannel_out : (d.setChannel c x).out = d.out := rfl
@[simp] theorem setChannel_reg : (d.setChannel c x).reg = d.reg := rfl
@[simp] theorem setChannel_eth : (d.setChannel c x).eth = d.eth := rfl
@[simp] theorem setChannel_frames : (d.setChannel c x).frames = d.frames := rfl
@[simp] theorem setChannel_nextFrame : (d.setChannel c x).nextFrame = d.nextFrame := rfl
@[simp] theorem setChannel_parse : (d.setChannel c x).parse = d.parse := rfl
@[simp] theorem setChannel_buf : (d.setChannel c x).buf = d.buf := rfl
@[simp] theorem setChannel_tm : (d.setChannel c x).tm = d.tm := rfl
@[simp] theorem setChannel_time : (d.setChannel c x).time = d.time := rfl
@[simp] theorem setChannel_own : (d.setChannel c x).own = d.own := rfl
@[simp] theorem setChannel_mem : (d.setChannel c x).mem = d.mem := rfl
@[simp] theorem setChannel_cls : (d.setChannel c x).cls = d.cls := rfl
@[simp] theorem setChannel_tbl : (d.setChannel c x).tbl = d.tbl := rfl
@[simp] theorem setChannel_hif : (d.setChannel c x).hif = d.hif := rfl
@[simp] theorem setChannel_dma : (d.setChannel c x).dma = d.dma := rfl
@[simp] theorem setChannel_sag : (d.setChannel c x).sag = d.sag := rfl
@[simp] theorem setChannel_boot : (d.setChannel c x).boot = d.boot := rfl
@[simp] theorem setChannel_glz : (d.setChannel c x).glz = d.glz := rfl
@[simp] theorem setChannel_pke : (d.setChannel c x).pke = d.pke := rfl
@[simp] theorem setChannel_ras : (d.setChannel c x).ras = d.ras := rfl
@[simp] theorem setChannel_sto : (d.setChannel c x).sto = d.sto := rfl
@[simp] theorem setChannel_pkg : (d.setChannel c x).pkg = d.pkg := rfl
@[simp] theorem setChannel_rd (b : Nat) : (d.setChannel c x).rd b = d.rd b := rfl
@[simp] theorem setChannel_get (b : Fld) : (d.setChannel c x).get b = d.get b := rfl
@[simp] theorem setChannel_flag (b : Fld) : (d.setChannel c x).flag b = d.flag b := rfl
@[simp] theorem setChannel_count (b : Ctr) : (d.setChannel c x).count b = d.count b := rfl
end
section
variable (d : Dev) (t e : Nat) (q : List W64)
@[simp] theorem setTx_cycle : (d.setTx t e q).cycle = d.cycle := rfl
@[simp] theorem setTx_fresh : (d.setTx t e q).fresh = d.fresh := rfl
@[simp] theorem setTx_out : (d.setTx t e q).out = d.out := rfl
@[simp] theorem setTx_reg : (d.setTx t e q).reg = d.reg := rfl
@[simp] theorem setTx_eth : (d.setTx t e q).eth = d.eth := rfl
@[simp] theorem setTx_frames : (d.setTx t e q).frames = d.frames := rfl
@[simp] theorem setTx_nextFrame : (d.setTx t e q).nextFrame = d.nextFrame := rfl
@[simp] theorem setTx_parse : (d.setTx t e q).parse = d.parse := rfl
@[simp] theorem setTx_buf : (d.setTx t e q).buf = d.buf := rfl
@[simp] theorem setTx_tm : (d.setTx t e q).tm = d.tm := rfl
@[simp] theorem setTx_time : (d.setTx t e q).time = d.time := rfl
@[simp] theorem setTx_own : (d.setTx t e q).own = d.own := rfl
@[simp] theorem setTx_mem : (d.setTx t e q).mem = d.mem := rfl
@[simp] theorem setTx_cls : (d.setTx t e q).cls = d.cls := rfl
@[simp] theorem setTx_tbl : (d.setTx t e q).tbl = d.tbl := rfl
@[simp] theorem setTx_hif : (d.setTx t e q).hif = d.hif := rfl
@[simp] theorem setTx_dma : (d.setTx t e q).dma = d.dma := rfl
@[simp] theorem setTx_sag : (d.setTx t e q).sag = d.sag := rfl
@[simp] theorem setTx_boot : (d.setTx t e q).boot = d.boot := rfl
@[simp] theorem setTx_glz : (d.setTx t e q).glz = d.glz := rfl
@[simp] theorem setTx_pke : (d.setTx t e q).pke = d.pke := rfl
@[simp] theorem setTx_ras : (d.setTx t e q).ras = d.ras := rfl
@[simp] theorem setTx_sto : (d.setTx t e q).sto = d.sto := rfl
@[simp] theorem setTx_pkg : (d.setTx t e q).pkg = d.pkg := rfl
@[simp] theorem setTx_rd (b : Nat) : (d.setTx t e q).rd b = d.rd b := rfl
@[simp] theorem setTx_get (b : Fld) : (d.setTx t e q).get b = d.get b := rfl
@[simp] theorem setTx_flag (b : Fld) : (d.setTx t e q).flag b = d.flag b := rfl
@[simp] theorem setTx_count (b : Ctr) : (d.setTx t e q).count b = d.count b := rfl
end
section
variable (d : Dev) (t e : Nat) (q : List W64)
@[simp] theorem setRx_cycle : (d.setRx t e q).cycle = d.cycle := rfl
@[simp] theorem setRx_fresh : (d.setRx t e q).fresh = d.fresh := rfl
@[simp] theorem setRx_out : (d.setRx t e q).out = d.out := rfl
@[simp] theorem setRx_reg : (d.setRx t e q).reg = d.reg := rfl
@[simp] theorem setRx_eth : (d.setRx t e q).eth = d.eth := rfl
@[simp] theorem setRx_frames : (d.setRx t e q).frames = d.frames := rfl
@[simp] theorem setRx_nextFrame : (d.setRx t e q).nextFrame = d.nextFrame := rfl
@[simp] theorem setRx_parse : (d.setRx t e q).parse = d.parse := rfl
@[simp] theorem setRx_buf : (d.setRx t e q).buf = d.buf := rfl
@[simp] theorem setRx_tm : (d.setRx t e q).tm = d.tm := rfl
@[simp] theorem setRx_time : (d.setRx t e q).time = d.time := rfl
@[simp] theorem setRx_own : (d.setRx t e q).own = d.own := rfl
@[simp] theorem setRx_mem : (d.setRx t e q).mem = d.mem := rfl
@[simp] theorem setRx_cls : (d.setRx t e q).cls = d.cls := rfl
@[simp] theorem setRx_tbl : (d.setRx t e q).tbl = d.tbl := rfl
@[simp] theorem setRx_hif : (d.setRx t e q).hif = d.hif := rfl
@[simp] theorem setRx_dma : (d.setRx t e q).dma = d.dma := rfl
@[simp] theorem setRx_sag : (d.setRx t e q).sag = d.sag := rfl
@[simp] theorem setRx_boot : (d.setRx t e q).boot = d.boot := rfl
@[simp] theorem setRx_glz : (d.setRx t e q).glz = d.glz := rfl
@[simp] theorem setRx_pke : (d.setRx t e q).pke = d.pke := rfl
@[simp] theorem setRx_ras : (d.setRx t e q).ras = d.ras := rfl
@[simp] theorem setRx_sto : (d.setRx t e q).sto = d.sto := rfl
@[simp] theorem setRx_pkg : (d.setRx t e q).pkg = d.pkg := rfl
@[simp] theorem setRx_rd (b : Nat) : (d.setRx t e q).rd b = d.rd b := rfl
@[simp] theorem setRx_get (b : Fld) : (d.setRx t e q).get b = d.get b := rfl
@[simp] theorem setRx_flag (b : Fld) : (d.setRx t e q).flag b = d.flag b := rfl
@[simp] theorem setRx_count (b : Ctr) : (d.setRx t e q).count b = d.count b := rfl
end
section
variable (d : Dev) (g : Nat) (x : Chan)
@[simp] theorem setChan_cycle : (d.setChan g x).cycle = d.cycle := rfl
@[simp] theorem setChan_fresh : (d.setChan g x).fresh = d.fresh := rfl
@[simp] theorem setChan_out : (d.setChan g x).out = d.out := rfl
@[simp] theorem setChan_reg : (d.setChan g x).reg = d.reg := rfl
@[simp] theorem setChan_eth : (d.setChan g x).eth = d.eth := rfl
@[simp] theorem setChan_frames : (d.setChan g x).frames = d.frames := rfl
@[simp] theorem setChan_nextFrame : (d.setChan g x).nextFrame = d.nextFrame := rfl
@[simp] theorem setChan_parse : (d.setChan g x).parse = d.parse := rfl
@[simp] theorem setChan_buf : (d.setChan g x).buf = d.buf := rfl
@[simp] theorem setChan_tm : (d.setChan g x).tm = d.tm := rfl
@[simp] theorem setChan_time : (d.setChan g x).time = d.time := rfl
@[simp] theorem setChan_own : (d.setChan g x).own = d.own := rfl
@[simp] theorem setChan_mem : (d.setChan g x).mem = d.mem := rfl
@[simp] theorem setChan_cls : (d.setChan g x).cls = d.cls := rfl
@[simp] theorem setChan_tbl : (d.setChan g x).tbl = d.tbl := rfl
@[simp] theorem setChan_hif : (d.setChan g x).hif = d.hif := rfl
@[simp] theorem setChan_sag : (d.setChan g x).sag = d.sag := rfl
@[simp] theorem setChan_core : (d.setChan g x).core = d.core := rfl
@[simp] theorem setChan_boot : (d.setChan g x).boot = d.boot := rfl
@[simp] theorem setChan_glz : (d.setChan g x).glz = d.glz := rfl
@[simp] theorem setChan_pke : (d.setChan g x).pke = d.pke := rfl
@[simp] theorem setChan_ras : (d.setChan g x).ras = d.ras := rfl
@[simp] theorem setChan_sto : (d.setChan g x).sto = d.sto := rfl
@[simp] theorem setChan_pkg : (d.setChan g x).pkg = d.pkg := rfl
@[simp] theorem setChan_rd (b : Nat) : (d.setChan g x).rd b = d.rd b := rfl
@[simp] theorem setChan_get (b : Fld) : (d.setChan g x).get b = d.get b := rfl
@[simp] theorem setChan_flag (b : Fld) : (d.setChan g x).flag b = d.flag b := rfl
@[simp] theorem setChan_count (b : Ctr) : (d.setChan g x).count b = d.count b := rfl
end
section
variable (d : Dev) (g : Nat) (f : Chan → Chan)
@[simp] theorem modChan_cycle : (d.modChan g f).cycle = d.cycle := rfl
@[simp] theorem modChan_fresh : (d.modChan g f).fresh = d.fresh := rfl
@[simp] theorem modChan_out : (d.modChan g f).out = d.out := rfl
@[simp] theorem modChan_reg : (d.modChan g f).reg = d.reg := rfl
@[simp] theorem modChan_eth : (d.modChan g f).eth = d.eth := rfl
@[simp] theorem modChan_frames : (d.modChan g f).frames = d.frames := rfl
@[simp] theorem modChan_nextFrame : (d.modChan g f).nextFrame = d.nextFrame := rfl
@[simp] theorem modChan_parse : (d.modChan g f).parse = d.parse := rfl
@[simp] theorem modChan_buf : (d.modChan g f).buf = d.buf := rfl
@[simp] theorem modChan_tm : (d.modChan g f).tm = d.tm := rfl
@[simp] theorem modChan_time : (d.modChan g f).time = d.time := rfl
@[simp] theorem modChan_own : (d.modChan g f).own = d.own := rfl
@[simp] theorem modChan_mem : (d.modChan g f).mem = d.mem := rfl
@[simp] theorem modChan_cls : (d.modChan g f).cls = d.cls := rfl
@[simp] theorem modChan_tbl : (d.modChan g f).tbl = d.tbl := rfl
@[simp] theorem modChan_hif : (d.modChan g f).hif = d.hif := rfl
@[simp] theorem modChan_sag : (d.modChan g f).sag = d.sag := rfl
@[simp] theorem modChan_core : (d.modChan g f).core = d.core := rfl
@[simp] theorem modChan_boot : (d.modChan g f).boot = d.boot := rfl
@[simp] theorem modChan_glz : (d.modChan g f).glz = d.glz := rfl
@[simp] theorem modChan_pke : (d.modChan g f).pke = d.pke := rfl
@[simp] theorem modChan_ras : (d.modChan g f).ras = d.ras := rfl
@[simp] theorem modChan_sto : (d.modChan g f).sto = d.sto := rfl
@[simp] theorem modChan_pkg : (d.modChan g f).pkg = d.pkg := rfl
@[simp] theorem modChan_rd (b : Nat) : (d.modChan g f).rd b = d.rd b := rfl
@[simp] theorem modChan_get (b : Fld) : (d.modChan g f).get b = d.get b := rfl
@[simp] theorem modChan_flag (b : Fld) : (d.modChan g f).flag b = d.flag b := rfl
@[simp] theorem modChan_count (b : Ctr) : (d.modChan g f).count b = d.count b := rfl
end
section
variable (d : Dev) (n : Nat) (x : DmaEng)
@[simp] theorem setDeng_cycle : (d.setDeng n x).cycle = d.cycle := rfl
@[simp] theorem setDeng_fresh : (d.setDeng n x).fresh = d.fresh := rfl
@[simp] theorem setDeng_out : (d.setDeng n x).out = d.out := rfl
@[simp] theorem setDeng_reg : (d.setDeng n x).reg = d.reg := rfl
@[simp] theorem setDeng_eth : (d.setDeng n x).eth = d.eth := rfl
@[simp] theorem setDeng_frames : (d.setDeng n x).frames = d.frames := rfl
@[simp] theorem setDeng_nextFrame : (d.setDeng n x).nextFrame = d.nextFrame := rfl
@[simp] theorem setDeng_parse : (d.setDeng n x).parse = d.parse := rfl
@[simp] theorem setDeng_buf : (d.setDeng n x).buf = d.buf := rfl
@[simp] theorem setDeng_tm : (d.setDeng n x).tm = d.tm := rfl
@[simp] theorem setDeng_time : (d.setDeng n x).time = d.time := rfl
@[simp] theorem setDeng_own : (d.setDeng n x).own = d.own := rfl
@[simp] theorem setDeng_mem : (d.setDeng n x).mem = d.mem := rfl
@[simp] theorem setDeng_cls : (d.setDeng n x).cls = d.cls := rfl
@[simp] theorem setDeng_tbl : (d.setDeng n x).tbl = d.tbl := rfl
@[simp] theorem setDeng_hif : (d.setDeng n x).hif = d.hif := rfl
@[simp] theorem setDeng_sag : (d.setDeng n x).sag = d.sag := rfl
@[simp] theorem setDeng_core : (d.setDeng n x).core = d.core := rfl
@[simp] theorem setDeng_boot : (d.setDeng n x).boot = d.boot := rfl
@[simp] theorem setDeng_glz : (d.setDeng n x).glz = d.glz := rfl
@[simp] theorem setDeng_pke : (d.setDeng n x).pke = d.pke := rfl
@[simp] theorem setDeng_ras : (d.setDeng n x).ras = d.ras := rfl
@[simp] theorem setDeng_sto : (d.setDeng n x).sto = d.sto := rfl
@[simp] theorem setDeng_pkg : (d.setDeng n x).pkg = d.pkg := rfl
@[simp] theorem setDeng_rd (b : Nat) : (d.setDeng n x).rd b = d.rd b := rfl
@[simp] theorem setDeng_get (b : Fld) : (d.setDeng n x).get b = d.get b := rfl
@[simp] theorem setDeng_flag (b : Fld) : (d.setDeng n x).flag b = d.flag b := rfl
@[simp] theorem setDeng_count (b : Ctr) : (d.setDeng n x).count b = d.count b := rfl
end
section
variable (d : Dev) (n : Nat) (f : DmaEng → DmaEng)
@[simp] theorem modDeng_cycle : (d.modDeng n f).cycle = d.cycle := rfl
@[simp] theorem modDeng_fresh : (d.modDeng n f).fresh = d.fresh := rfl
@[simp] theorem modDeng_out : (d.modDeng n f).out = d.out := rfl
@[simp] theorem modDeng_reg : (d.modDeng n f).reg = d.reg := rfl
@[simp] theorem modDeng_eth : (d.modDeng n f).eth = d.eth := rfl
@[simp] theorem modDeng_frames : (d.modDeng n f).frames = d.frames := rfl
@[simp] theorem modDeng_nextFrame : (d.modDeng n f).nextFrame = d.nextFrame := rfl
@[simp] theorem modDeng_parse : (d.modDeng n f).parse = d.parse := rfl
@[simp] theorem modDeng_buf : (d.modDeng n f).buf = d.buf := rfl
@[simp] theorem modDeng_tm : (d.modDeng n f).tm = d.tm := rfl
@[simp] theorem modDeng_time : (d.modDeng n f).time = d.time := rfl
@[simp] theorem modDeng_own : (d.modDeng n f).own = d.own := rfl
@[simp] theorem modDeng_mem : (d.modDeng n f).mem = d.mem := rfl
@[simp] theorem modDeng_cls : (d.modDeng n f).cls = d.cls := rfl
@[simp] theorem modDeng_tbl : (d.modDeng n f).tbl = d.tbl := rfl
@[simp] theorem modDeng_hif : (d.modDeng n f).hif = d.hif := rfl
@[simp] theorem modDeng_sag : (d.modDeng n f).sag = d.sag := rfl
@[simp] theorem modDeng_core : (d.modDeng n f).core = d.core := rfl
@[simp] theorem modDeng_boot : (d.modDeng n f).boot = d.boot := rfl
@[simp] theorem modDeng_glz : (d.modDeng n f).glz = d.glz := rfl
@[simp] theorem modDeng_pke : (d.modDeng n f).pke = d.pke := rfl
@[simp] theorem modDeng_ras : (d.modDeng n f).ras = d.ras := rfl
@[simp] theorem modDeng_sto : (d.modDeng n f).sto = d.sto := rfl
@[simp] theorem modDeng_pkg : (d.modDeng n f).pkg = d.pkg := rfl
@[simp] theorem modDeng_rd (b : Nat) : (d.modDeng n f).rd b = d.rd b := rfl
@[simp] theorem modDeng_get (b : Fld) : (d.modDeng n f).get b = d.get b := rfl
@[simp] theorem modDeng_flag (b : Fld) : (d.modDeng n f).flag b = d.flag b := rfl
@[simp] theorem modDeng_count (b : Ctr) : (d.modDeng n f).count b = d.count b := rfl
end
section
variable (d : Dev) (f : TblState → TblState)
@[simp] theorem setTbl_cycle : (d.setTbl f).cycle = d.cycle := rfl
@[simp] theorem setTbl_fresh : (d.setTbl f).fresh = d.fresh := rfl
@[simp] theorem setTbl_out : (d.setTbl f).out = d.out := rfl
@[simp] theorem setTbl_reg : (d.setTbl f).reg = d.reg := rfl
@[simp] theorem setTbl_eth : (d.setTbl f).eth = d.eth := rfl
@[simp] theorem setTbl_frames : (d.setTbl f).frames = d.frames := rfl
@[simp] theorem setTbl_nextFrame : (d.setTbl f).nextFrame = d.nextFrame := rfl
@[simp] theorem setTbl_parse : (d.setTbl f).parse = d.parse := rfl
@[simp] theorem setTbl_buf : (d.setTbl f).buf = d.buf := rfl
@[simp] theorem setTbl_tm : (d.setTbl f).tm = d.tm := rfl
@[simp] theorem setTbl_time : (d.setTbl f).time = d.time := rfl
@[simp] theorem setTbl_own : (d.setTbl f).own = d.own := rfl
@[simp] theorem setTbl_mem : (d.setTbl f).mem = d.mem := rfl
@[simp] theorem setTbl_cls : (d.setTbl f).cls = d.cls := rfl
@[simp] theorem setTbl_hif : (d.setTbl f).hif = d.hif := rfl
@[simp] theorem setTbl_dma : (d.setTbl f).dma = d.dma := rfl
@[simp] theorem setTbl_sag : (d.setTbl f).sag = d.sag := rfl
@[simp] theorem setTbl_core : (d.setTbl f).core = d.core := rfl
@[simp] theorem setTbl_boot : (d.setTbl f).boot = d.boot := rfl
@[simp] theorem setTbl_glz : (d.setTbl f).glz = d.glz := rfl
@[simp] theorem setTbl_pke : (d.setTbl f).pke = d.pke := rfl
@[simp] theorem setTbl_ras : (d.setTbl f).ras = d.ras := rfl
@[simp] theorem setTbl_sto : (d.setTbl f).sto = d.sto := rfl
@[simp] theorem setTbl_pkg : (d.setTbl f).pkg = d.pkg := rfl
@[simp] theorem setTbl_rd (b : Nat) : (d.setTbl f).rd b = d.rd b := rfl
@[simp] theorem setTbl_get (b : Fld) : (d.setTbl f).get b = d.get b := rfl
@[simp] theorem setTbl_flag (b : Fld) : (d.setTbl f).flag b = d.flag b := rfl
@[simp] theorem setTbl_count (b : Ctr) : (d.setTbl f).count b = d.count b := rfl
end
section
variable (d : Dev) (f : GlzState → GlzState)
@[simp] theorem setGlz_cycle : (d.setGlz f).cycle = d.cycle := rfl
@[simp] theorem setGlz_fresh : (d.setGlz f).fresh = d.fresh := rfl
@[simp] theorem setGlz_out : (d.setGlz f).out = d.out := rfl
@[simp] theorem setGlz_reg : (d.setGlz f).reg = d.reg := rfl
@[simp] theorem setGlz_eth : (d.setGlz f).eth = d.eth := rfl
@[simp] theorem setGlz_frames : (d.setGlz f).frames = d.frames := rfl
@[simp] theorem setGlz_nextFrame : (d.setGlz f).nextFrame = d.nextFrame := rfl
@[simp] theorem setGlz_parse : (d.setGlz f).parse = d.parse := rfl
@[simp] theorem setGlz_buf : (d.setGlz f).buf = d.buf := rfl
@[simp] theorem setGlz_tm : (d.setGlz f).tm = d.tm := rfl
@[simp] theorem setGlz_time : (d.setGlz f).time = d.time := rfl
@[simp] theorem setGlz_own : (d.setGlz f).own = d.own := rfl
@[simp] theorem setGlz_mem : (d.setGlz f).mem = d.mem := rfl
@[simp] theorem setGlz_cls : (d.setGlz f).cls = d.cls := rfl
@[simp] theorem setGlz_tbl : (d.setGlz f).tbl = d.tbl := rfl
@[simp] theorem setGlz_hif : (d.setGlz f).hif = d.hif := rfl
@[simp] theorem setGlz_dma : (d.setGlz f).dma = d.dma := rfl
@[simp] theorem setGlz_sag : (d.setGlz f).sag = d.sag := rfl
@[simp] theorem setGlz_core : (d.setGlz f).core = d.core := rfl
@[simp] theorem setGlz_boot : (d.setGlz f).boot = d.boot := rfl
@[simp] theorem setGlz_pke : (d.setGlz f).pke = d.pke := rfl
@[simp] theorem setGlz_ras : (d.setGlz f).ras = d.ras := rfl
@[simp] theorem setGlz_sto : (d.setGlz f).sto = d.sto := rfl
@[simp] theorem setGlz_pkg : (d.setGlz f).pkg = d.pkg := rfl
@[simp] theorem setGlz_rd (b : Nat) : (d.setGlz f).rd b = d.rd b := rfl
@[simp] theorem setGlz_get (b : Fld) : (d.setGlz f).get b = d.get b := rfl
@[simp] theorem setGlz_flag (b : Fld) : (d.setGlz f).flag b = d.flag b := rfl
@[simp] theorem setGlz_count (b : Ctr) : (d.setGlz f).count b = d.count b := rfl
end
section
variable (d : Dev) (i : Nat) (c : KeyCtx)
@[simp] theorem setKctx_cycle : (d.setKctx i c).cycle = d.cycle := rfl
@[simp] theorem setKctx_fresh : (d.setKctx i c).fresh = d.fresh := rfl
@[simp] theorem setKctx_out : (d.setKctx i c).out = d.out := rfl
@[simp] theorem setKctx_reg : (d.setKctx i c).reg = d.reg := rfl
@[simp] theorem setKctx_eth : (d.setKctx i c).eth = d.eth := rfl
@[simp] theorem setKctx_frames : (d.setKctx i c).frames = d.frames := rfl
@[simp] theorem setKctx_nextFrame : (d.setKctx i c).nextFrame = d.nextFrame := rfl
@[simp] theorem setKctx_parse : (d.setKctx i c).parse = d.parse := rfl
@[simp] theorem setKctx_buf : (d.setKctx i c).buf = d.buf := rfl
@[simp] theorem setKctx_tm : (d.setKctx i c).tm = d.tm := rfl
@[simp] theorem setKctx_time : (d.setKctx i c).time = d.time := rfl
@[simp] theorem setKctx_own : (d.setKctx i c).own = d.own := rfl
@[simp] theorem setKctx_mem : (d.setKctx i c).mem = d.mem := rfl
@[simp] theorem setKctx_cls : (d.setKctx i c).cls = d.cls := rfl
@[simp] theorem setKctx_tbl : (d.setKctx i c).tbl = d.tbl := rfl
@[simp] theorem setKctx_hif : (d.setKctx i c).hif = d.hif := rfl
@[simp] theorem setKctx_dma : (d.setKctx i c).dma = d.dma := rfl
@[simp] theorem setKctx_sag : (d.setKctx i c).sag = d.sag := rfl
@[simp] theorem setKctx_core : (d.setKctx i c).core = d.core := rfl
@[simp] theorem setKctx_boot : (d.setKctx i c).boot = d.boot := rfl
@[simp] theorem setKctx_pke : (d.setKctx i c).pke = d.pke := rfl
@[simp] theorem setKctx_ras : (d.setKctx i c).ras = d.ras := rfl
@[simp] theorem setKctx_sto : (d.setKctx i c).sto = d.sto := rfl
@[simp] theorem setKctx_pkg : (d.setKctx i c).pkg = d.pkg := rfl
@[simp] theorem setKctx_rd (b : Nat) : (d.setKctx i c).rd b = d.rd b := rfl
@[simp] theorem setKctx_get (b : Fld) : (d.setKctx i c).get b = d.get b := rfl
@[simp] theorem setKctx_flag (b : Fld) : (d.setKctx i c).flag b = d.flag b := rfl
@[simp] theorem setKctx_count (b : Ctr) : (d.setKctx i c).count b = d.count b := rfl
end
section
variable (d : Dev) (f : PkeState → PkeState)
@[simp] theorem setPke_cycle : (d.setPke f).cycle = d.cycle := rfl
@[simp] theorem setPke_fresh : (d.setPke f).fresh = d.fresh := rfl
@[simp] theorem setPke_out : (d.setPke f).out = d.out := rfl
@[simp] theorem setPke_reg : (d.setPke f).reg = d.reg := rfl
@[simp] theorem setPke_eth : (d.setPke f).eth = d.eth := rfl
@[simp] theorem setPke_frames : (d.setPke f).frames = d.frames := rfl
@[simp] theorem setPke_nextFrame : (d.setPke f).nextFrame = d.nextFrame := rfl
@[simp] theorem setPke_parse : (d.setPke f).parse = d.parse := rfl
@[simp] theorem setPke_buf : (d.setPke f).buf = d.buf := rfl
@[simp] theorem setPke_tm : (d.setPke f).tm = d.tm := rfl
@[simp] theorem setPke_time : (d.setPke f).time = d.time := rfl
@[simp] theorem setPke_own : (d.setPke f).own = d.own := rfl
@[simp] theorem setPke_mem : (d.setPke f).mem = d.mem := rfl
@[simp] theorem setPke_cls : (d.setPke f).cls = d.cls := rfl
@[simp] theorem setPke_tbl : (d.setPke f).tbl = d.tbl := rfl
@[simp] theorem setPke_hif : (d.setPke f).hif = d.hif := rfl
@[simp] theorem setPke_dma : (d.setPke f).dma = d.dma := rfl
@[simp] theorem setPke_sag : (d.setPke f).sag = d.sag := rfl
@[simp] theorem setPke_core : (d.setPke f).core = d.core := rfl
@[simp] theorem setPke_boot : (d.setPke f).boot = d.boot := rfl
@[simp] theorem setPke_glz : (d.setPke f).glz = d.glz := rfl
@[simp] theorem setPke_ras : (d.setPke f).ras = d.ras := rfl
@[simp] theorem setPke_sto : (d.setPke f).sto = d.sto := rfl
@[simp] theorem setPke_pkg : (d.setPke f).pkg = d.pkg := rfl
@[simp] theorem setPke_rd (b : Nat) : (d.setPke f).rd b = d.rd b := rfl
@[simp] theorem setPke_get (b : Fld) : (d.setPke f).get b = d.get b := rfl
@[simp] theorem setPke_flag (b : Fld) : (d.setPke f).flag b = d.flag b := rfl
@[simp] theorem setPke_count (b : Ctr) : (d.setPke f).count b = d.count b := rfl
end
section
variable (d : Dev) (l : Nat) (x : Link)
@[simp] theorem setLink_cycle : (d.setLink l x).cycle = d.cycle := rfl
@[simp] theorem setLink_fresh : (d.setLink l x).fresh = d.fresh := rfl
@[simp] theorem setLink_out : (d.setLink l x).out = d.out := rfl
@[simp] theorem setLink_reg : (d.setLink l x).reg = d.reg := rfl
@[simp] theorem setLink_eth : (d.setLink l x).eth = d.eth := rfl
@[simp] theorem setLink_frames : (d.setLink l x).frames = d.frames := rfl
@[simp] theorem setLink_nextFrame : (d.setLink l x).nextFrame = d.nextFrame := rfl
@[simp] theorem setLink_parse : (d.setLink l x).parse = d.parse := rfl
@[simp] theorem setLink_buf : (d.setLink l x).buf = d.buf := rfl
@[simp] theorem setLink_tm : (d.setLink l x).tm = d.tm := rfl
@[simp] theorem setLink_time : (d.setLink l x).time = d.time := rfl
@[simp] theorem setLink_own : (d.setLink l x).own = d.own := rfl
@[simp] theorem setLink_mem : (d.setLink l x).mem = d.mem := rfl
@[simp] theorem setLink_cls : (d.setLink l x).cls = d.cls := rfl
@[simp] theorem setLink_tbl : (d.setLink l x).tbl = d.tbl := rfl
@[simp] theorem setLink_dma : (d.setLink l x).dma = d.dma := rfl
@[simp] theorem setLink_sag : (d.setLink l x).sag = d.sag := rfl
@[simp] theorem setLink_core : (d.setLink l x).core = d.core := rfl
@[simp] theorem setLink_boot : (d.setLink l x).boot = d.boot := rfl
@[simp] theorem setLink_glz : (d.setLink l x).glz = d.glz := rfl
@[simp] theorem setLink_pke : (d.setLink l x).pke = d.pke := rfl
@[simp] theorem setLink_ras : (d.setLink l x).ras = d.ras := rfl
@[simp] theorem setLink_sto : (d.setLink l x).sto = d.sto := rfl
@[simp] theorem setLink_pkg : (d.setLink l x).pkg = d.pkg := rfl
@[simp] theorem setLink_rd (b : Nat) : (d.setLink l x).rd b = d.rd b := rfl
@[simp] theorem setLink_get (b : Fld) : (d.setLink l x).get b = d.get b := rfl
@[simp] theorem setLink_flag (b : Fld) : (d.setLink l x).flag b = d.flag b := rfl
@[simp] theorem setLink_count (b : Ctr) : (d.setLink l x).count b = d.count b := rfl
end
section
variable (d : Dev) (l : Nat) (g : Link → Link)
@[simp] theorem modLink_cycle : (d.modLink l g).cycle = d.cycle := rfl
@[simp] theorem modLink_fresh : (d.modLink l g).fresh = d.fresh := rfl
@[simp] theorem modLink_out : (d.modLink l g).out = d.out := rfl
@[simp] theorem modLink_reg : (d.modLink l g).reg = d.reg := rfl
@[simp] theorem modLink_eth : (d.modLink l g).eth = d.eth := rfl
@[simp] theorem modLink_frames : (d.modLink l g).frames = d.frames := rfl
@[simp] theorem modLink_nextFrame : (d.modLink l g).nextFrame = d.nextFrame := rfl
@[simp] theorem modLink_parse : (d.modLink l g).parse = d.parse := rfl
@[simp] theorem modLink_buf : (d.modLink l g).buf = d.buf := rfl
@[simp] theorem modLink_tm : (d.modLink l g).tm = d.tm := rfl
@[simp] theorem modLink_time : (d.modLink l g).time = d.time := rfl
@[simp] theorem modLink_own : (d.modLink l g).own = d.own := rfl
@[simp] theorem modLink_mem : (d.modLink l g).mem = d.mem := rfl
@[simp] theorem modLink_cls : (d.modLink l g).cls = d.cls := rfl
@[simp] theorem modLink_tbl : (d.modLink l g).tbl = d.tbl := rfl
@[simp] theorem modLink_dma : (d.modLink l g).dma = d.dma := rfl
@[simp] theorem modLink_sag : (d.modLink l g).sag = d.sag := rfl
@[simp] theorem modLink_core : (d.modLink l g).core = d.core := rfl
@[simp] theorem modLink_boot : (d.modLink l g).boot = d.boot := rfl
@[simp] theorem modLink_glz : (d.modLink l g).glz = d.glz := rfl
@[simp] theorem modLink_pke : (d.modLink l g).pke = d.pke := rfl
@[simp] theorem modLink_ras : (d.modLink l g).ras = d.ras := rfl
@[simp] theorem modLink_sto : (d.modLink l g).sto = d.sto := rfl
@[simp] theorem modLink_pkg : (d.modLink l g).pkg = d.pkg := rfl
@[simp] theorem modLink_rd (b : Nat) : (d.modLink l g).rd b = d.rd b := rfl
@[simp] theorem modLink_get (b : Fld) : (d.modLink l g).get b = d.get b := rfl
@[simp] theorem modLink_flag (b : Fld) : (d.modLink l g).flag b = d.flag b := rfl
@[simp] theorem modLink_count (b : Ctr) : (d.modLink l g).count b = d.count b := rfl
end
section
variable (d : Dev) (l f : Nat) (x : Func)
@[simp] theorem setFunc_cycle : (d.setFunc l f x).cycle = d.cycle := rfl
@[simp] theorem setFunc_fresh : (d.setFunc l f x).fresh = d.fresh := rfl
@[simp] theorem setFunc_out : (d.setFunc l f x).out = d.out := rfl
@[simp] theorem setFunc_reg : (d.setFunc l f x).reg = d.reg := rfl
@[simp] theorem setFunc_eth : (d.setFunc l f x).eth = d.eth := rfl
@[simp] theorem setFunc_frames : (d.setFunc l f x).frames = d.frames := rfl
@[simp] theorem setFunc_nextFrame : (d.setFunc l f x).nextFrame = d.nextFrame := rfl
@[simp] theorem setFunc_parse : (d.setFunc l f x).parse = d.parse := rfl
@[simp] theorem setFunc_buf : (d.setFunc l f x).buf = d.buf := rfl
@[simp] theorem setFunc_tm : (d.setFunc l f x).tm = d.tm := rfl
@[simp] theorem setFunc_time : (d.setFunc l f x).time = d.time := rfl
@[simp] theorem setFunc_own : (d.setFunc l f x).own = d.own := rfl
@[simp] theorem setFunc_mem : (d.setFunc l f x).mem = d.mem := rfl
@[simp] theorem setFunc_cls : (d.setFunc l f x).cls = d.cls := rfl
@[simp] theorem setFunc_tbl : (d.setFunc l f x).tbl = d.tbl := rfl
@[simp] theorem setFunc_dma : (d.setFunc l f x).dma = d.dma := rfl
@[simp] theorem setFunc_sag : (d.setFunc l f x).sag = d.sag := rfl
@[simp] theorem setFunc_core : (d.setFunc l f x).core = d.core := rfl
@[simp] theorem setFunc_boot : (d.setFunc l f x).boot = d.boot := rfl
@[simp] theorem setFunc_glz : (d.setFunc l f x).glz = d.glz := rfl
@[simp] theorem setFunc_pke : (d.setFunc l f x).pke = d.pke := rfl
@[simp] theorem setFunc_ras : (d.setFunc l f x).ras = d.ras := rfl
@[simp] theorem setFunc_sto : (d.setFunc l f x).sto = d.sto := rfl
@[simp] theorem setFunc_pkg : (d.setFunc l f x).pkg = d.pkg := rfl
@[simp] theorem setFunc_rd (b : Nat) : (d.setFunc l f x).rd b = d.rd b := rfl
@[simp] theorem setFunc_get (b : Fld) : (d.setFunc l f x).get b = d.get b := rfl
@[simp] theorem setFunc_flag (b : Fld) : (d.setFunc l f x).flag b = d.flag b := rfl
@[simp] theorem setFunc_count (b : Ctr) : (d.setFunc l f x).count b = d.count b := rfl
end
section
variable (d : Dev) (l f : Nat) (g : Func → Func)
@[simp] theorem modFunc_cycle : (d.modFunc l f g).cycle = d.cycle := rfl
@[simp] theorem modFunc_fresh : (d.modFunc l f g).fresh = d.fresh := rfl
@[simp] theorem modFunc_out : (d.modFunc l f g).out = d.out := rfl
@[simp] theorem modFunc_reg : (d.modFunc l f g).reg = d.reg := rfl
@[simp] theorem modFunc_eth : (d.modFunc l f g).eth = d.eth := rfl
@[simp] theorem modFunc_frames : (d.modFunc l f g).frames = d.frames := rfl
@[simp] theorem modFunc_nextFrame : (d.modFunc l f g).nextFrame = d.nextFrame := rfl
@[simp] theorem modFunc_parse : (d.modFunc l f g).parse = d.parse := rfl
@[simp] theorem modFunc_buf : (d.modFunc l f g).buf = d.buf := rfl
@[simp] theorem modFunc_tm : (d.modFunc l f g).tm = d.tm := rfl
@[simp] theorem modFunc_time : (d.modFunc l f g).time = d.time := rfl
@[simp] theorem modFunc_own : (d.modFunc l f g).own = d.own := rfl
@[simp] theorem modFunc_mem : (d.modFunc l f g).mem = d.mem := rfl
@[simp] theorem modFunc_cls : (d.modFunc l f g).cls = d.cls := rfl
@[simp] theorem modFunc_tbl : (d.modFunc l f g).tbl = d.tbl := rfl
@[simp] theorem modFunc_dma : (d.modFunc l f g).dma = d.dma := rfl
@[simp] theorem modFunc_sag : (d.modFunc l f g).sag = d.sag := rfl
@[simp] theorem modFunc_core : (d.modFunc l f g).core = d.core := rfl
@[simp] theorem modFunc_boot : (d.modFunc l f g).boot = d.boot := rfl
@[simp] theorem modFunc_glz : (d.modFunc l f g).glz = d.glz := rfl
@[simp] theorem modFunc_pke : (d.modFunc l f g).pke = d.pke := rfl
@[simp] theorem modFunc_ras : (d.modFunc l f g).ras = d.ras := rfl
@[simp] theorem modFunc_sto : (d.modFunc l f g).sto = d.sto := rfl
@[simp] theorem modFunc_pkg : (d.modFunc l f g).pkg = d.pkg := rfl
@[simp] theorem modFunc_rd (b : Nat) : (d.modFunc l f g).rd b = d.rd b := rfl
@[simp] theorem modFunc_get (b : Fld) : (d.modFunc l f g).get b = d.get b := rfl
@[simp] theorem modFunc_flag (b : Fld) : (d.modFunc l f g).flag b = d.flag b := rfl
@[simp] theorem modFunc_count (b : Ctr) : (d.modFunc l f g).count b = d.count b := rfl
end
section
variable (d : Dev) (f : RasState → RasState)
@[simp] theorem setRas_cycle : (d.setRas f).cycle = d.cycle := rfl
@[simp] theorem setRas_fresh : (d.setRas f).fresh = d.fresh := rfl
@[simp] theorem setRas_out : (d.setRas f).out = d.out := rfl
@[simp] theorem setRas_reg : (d.setRas f).reg = d.reg := rfl
@[simp] theorem setRas_eth : (d.setRas f).eth = d.eth := rfl
@[simp] theorem setRas_frames : (d.setRas f).frames = d.frames := rfl
@[simp] theorem setRas_nextFrame : (d.setRas f).nextFrame = d.nextFrame := rfl
@[simp] theorem setRas_parse : (d.setRas f).parse = d.parse := rfl
@[simp] theorem setRas_buf : (d.setRas f).buf = d.buf := rfl
@[simp] theorem setRas_tm : (d.setRas f).tm = d.tm := rfl
@[simp] theorem setRas_time : (d.setRas f).time = d.time := rfl
@[simp] theorem setRas_own : (d.setRas f).own = d.own := rfl
@[simp] theorem setRas_mem : (d.setRas f).mem = d.mem := rfl
@[simp] theorem setRas_cls : (d.setRas f).cls = d.cls := rfl
@[simp] theorem setRas_tbl : (d.setRas f).tbl = d.tbl := rfl
@[simp] theorem setRas_hif : (d.setRas f).hif = d.hif := rfl
@[simp] theorem setRas_dma : (d.setRas f).dma = d.dma := rfl
@[simp] theorem setRas_sag : (d.setRas f).sag = d.sag := rfl
@[simp] theorem setRas_core : (d.setRas f).core = d.core := rfl
@[simp] theorem setRas_boot : (d.setRas f).boot = d.boot := rfl
@[simp] theorem setRas_glz : (d.setRas f).glz = d.glz := rfl
@[simp] theorem setRas_pke : (d.setRas f).pke = d.pke := rfl
@[simp] theorem setRas_sto : (d.setRas f).sto = d.sto := rfl
@[simp] theorem setRas_pkg : (d.setRas f).pkg = d.pkg := rfl
@[simp] theorem setRas_rd (b : Nat) : (d.setRas f).rd b = d.rd b := rfl
@[simp] theorem setRas_get (b : Fld) : (d.setRas f).get b = d.get b := rfl
@[simp] theorem setRas_flag (b : Fld) : (d.setRas f).flag b = d.flag b := rfl
@[simp] theorem setRas_count (b : Ctr) : (d.setRas f).count b = d.count b := rfl
end
section
variable (d : Dev) (f : BootState → BootState)
@[simp] theorem setBoot_cycle : (d.setBoot f).cycle = d.cycle := rfl
@[simp] theorem setBoot_fresh : (d.setBoot f).fresh = d.fresh := rfl
@[simp] theorem setBoot_out : (d.setBoot f).out = d.out := rfl
@[simp] theorem setBoot_reg : (d.setBoot f).reg = d.reg := rfl
@[simp] theorem setBoot_eth : (d.setBoot f).eth = d.eth := rfl
@[simp] theorem setBoot_frames : (d.setBoot f).frames = d.frames := rfl
@[simp] theorem setBoot_nextFrame : (d.setBoot f).nextFrame = d.nextFrame := rfl
@[simp] theorem setBoot_parse : (d.setBoot f).parse = d.parse := rfl
@[simp] theorem setBoot_buf : (d.setBoot f).buf = d.buf := rfl
@[simp] theorem setBoot_tm : (d.setBoot f).tm = d.tm := rfl
@[simp] theorem setBoot_time : (d.setBoot f).time = d.time := rfl
@[simp] theorem setBoot_own : (d.setBoot f).own = d.own := rfl
@[simp] theorem setBoot_mem : (d.setBoot f).mem = d.mem := rfl
@[simp] theorem setBoot_cls : (d.setBoot f).cls = d.cls := rfl
@[simp] theorem setBoot_tbl : (d.setBoot f).tbl = d.tbl := rfl
@[simp] theorem setBoot_hif : (d.setBoot f).hif = d.hif := rfl
@[simp] theorem setBoot_dma : (d.setBoot f).dma = d.dma := rfl
@[simp] theorem setBoot_sag : (d.setBoot f).sag = d.sag := rfl
@[simp] theorem setBoot_core : (d.setBoot f).core = d.core := rfl
@[simp] theorem setBoot_glz : (d.setBoot f).glz = d.glz := rfl
@[simp] theorem setBoot_pke : (d.setBoot f).pke = d.pke := rfl
@[simp] theorem setBoot_ras : (d.setBoot f).ras = d.ras := rfl
@[simp] theorem setBoot_sto : (d.setBoot f).sto = d.sto := rfl
@[simp] theorem setBoot_pkg : (d.setBoot f).pkg = d.pkg := rfl
@[simp] theorem setBoot_rd (b : Nat) : (d.setBoot f).rd b = d.rd b := rfl
@[simp] theorem setBoot_get (b : Fld) : (d.setBoot f).get b = d.get b := rfl
@[simp] theorem setBoot_flag (b : Fld) : (d.setBoot f).flag b = d.flag b := rfl
@[simp] theorem setBoot_count (b : Ctr) : (d.setBoot f).count b = d.count b := rfl
end
section
variable (d : Dev) (f : PkgState → PkgState)
@[simp] theorem setPkg_cycle : (d.setPkg f).cycle = d.cycle := rfl
@[simp] theorem setPkg_fresh : (d.setPkg f).fresh = d.fresh := rfl
@[simp] theorem setPkg_out : (d.setPkg f).out = d.out := rfl
@[simp] theorem setPkg_reg : (d.setPkg f).reg = d.reg := rfl
@[simp] theorem setPkg_eth : (d.setPkg f).eth = d.eth := rfl
@[simp] theorem setPkg_frames : (d.setPkg f).frames = d.frames := rfl
@[simp] theorem setPkg_nextFrame : (d.setPkg f).nextFrame = d.nextFrame := rfl
@[simp] theorem setPkg_parse : (d.setPkg f).parse = d.parse := rfl
@[simp] theorem setPkg_buf : (d.setPkg f).buf = d.buf := rfl
@[simp] theorem setPkg_tm : (d.setPkg f).tm = d.tm := rfl
@[simp] theorem setPkg_time : (d.setPkg f).time = d.time := rfl
@[simp] theorem setPkg_own : (d.setPkg f).own = d.own := rfl
@[simp] theorem setPkg_mem : (d.setPkg f).mem = d.mem := rfl
@[simp] theorem setPkg_cls : (d.setPkg f).cls = d.cls := rfl
@[simp] theorem setPkg_tbl : (d.setPkg f).tbl = d.tbl := rfl
@[simp] theorem setPkg_hif : (d.setPkg f).hif = d.hif := rfl
@[simp] theorem setPkg_dma : (d.setPkg f).dma = d.dma := rfl
@[simp] theorem setPkg_sag : (d.setPkg f).sag = d.sag := rfl
@[simp] theorem setPkg_core : (d.setPkg f).core = d.core := rfl
@[simp] theorem setPkg_boot : (d.setPkg f).boot = d.boot := rfl
@[simp] theorem setPkg_glz : (d.setPkg f).glz = d.glz := rfl
@[simp] theorem setPkg_pke : (d.setPkg f).pke = d.pke := rfl
@[simp] theorem setPkg_ras : (d.setPkg f).ras = d.ras := rfl
@[simp] theorem setPkg_sto : (d.setPkg f).sto = d.sto := rfl
@[simp] theorem setPkg_rd (b : Nat) : (d.setPkg f).rd b = d.rd b := rfl
@[simp] theorem setPkg_get (b : Fld) : (d.setPkg f).get b = d.get b := rfl
@[simp] theorem setPkg_flag (b : Fld) : (d.setPkg f).flag b = d.flag b := rfl
@[simp] theorem setPkg_count (b : Ctr) : (d.setPkg f).count b = d.count b := rfl
end
section
variable (d : Dev) (f : StoState → StoState)
@[simp] theorem setSto_cycle : (d.setSto f).cycle = d.cycle := rfl
@[simp] theorem setSto_fresh : (d.setSto f).fresh = d.fresh := rfl
@[simp] theorem setSto_out : (d.setSto f).out = d.out := rfl
@[simp] theorem setSto_reg : (d.setSto f).reg = d.reg := rfl
@[simp] theorem setSto_eth : (d.setSto f).eth = d.eth := rfl
@[simp] theorem setSto_frames : (d.setSto f).frames = d.frames := rfl
@[simp] theorem setSto_nextFrame : (d.setSto f).nextFrame = d.nextFrame := rfl
@[simp] theorem setSto_parse : (d.setSto f).parse = d.parse := rfl
@[simp] theorem setSto_buf : (d.setSto f).buf = d.buf := rfl
@[simp] theorem setSto_tm : (d.setSto f).tm = d.tm := rfl
@[simp] theorem setSto_time : (d.setSto f).time = d.time := rfl
@[simp] theorem setSto_own : (d.setSto f).own = d.own := rfl
@[simp] theorem setSto_mem : (d.setSto f).mem = d.mem := rfl
@[simp] theorem setSto_cls : (d.setSto f).cls = d.cls := rfl
@[simp] theorem setSto_tbl : (d.setSto f).tbl = d.tbl := rfl
@[simp] theorem setSto_hif : (d.setSto f).hif = d.hif := rfl
@[simp] theorem setSto_dma : (d.setSto f).dma = d.dma := rfl
@[simp] theorem setSto_sag : (d.setSto f).sag = d.sag := rfl
@[simp] theorem setSto_core : (d.setSto f).core = d.core := rfl
@[simp] theorem setSto_boot : (d.setSto f).boot = d.boot := rfl
@[simp] theorem setSto_glz : (d.setSto f).glz = d.glz := rfl
@[simp] theorem setSto_pke : (d.setSto f).pke = d.pke := rfl
@[simp] theorem setSto_ras : (d.setSto f).ras = d.ras := rfl
@[simp] theorem setSto_pkg : (d.setSto f).pkg = d.pkg := rfl
@[simp] theorem setSto_rd (b : Nat) : (d.setSto f).rd b = d.rd b := rfl
@[simp] theorem setSto_get (b : Fld) : (d.setSto f).get b = d.get b := rfl
@[simp] theorem setSto_flag (b : Fld) : (d.setSto f).flag b = d.flag b := rfl
@[simp] theorem setSto_count (b : Ctr) : (d.setSto f).count b = d.count b := rfl
end
section
variable (d : Dev) (n : Nat) (e : NsEnt)
@[simp] theorem setNs_cycle : (d.setNs n e).cycle = d.cycle := rfl
@[simp] theorem setNs_fresh : (d.setNs n e).fresh = d.fresh := rfl
@[simp] theorem setNs_out : (d.setNs n e).out = d.out := rfl
@[simp] theorem setNs_reg : (d.setNs n e).reg = d.reg := rfl
@[simp] theorem setNs_eth : (d.setNs n e).eth = d.eth := rfl
@[simp] theorem setNs_frames : (d.setNs n e).frames = d.frames := rfl
@[simp] theorem setNs_nextFrame : (d.setNs n e).nextFrame = d.nextFrame := rfl
@[simp] theorem setNs_parse : (d.setNs n e).parse = d.parse := rfl
@[simp] theorem setNs_buf : (d.setNs n e).buf = d.buf := rfl
@[simp] theorem setNs_tm : (d.setNs n e).tm = d.tm := rfl
@[simp] theorem setNs_time : (d.setNs n e).time = d.time := rfl
@[simp] theorem setNs_own : (d.setNs n e).own = d.own := rfl
@[simp] theorem setNs_mem : (d.setNs n e).mem = d.mem := rfl
@[simp] theorem setNs_cls : (d.setNs n e).cls = d.cls := rfl
@[simp] theorem setNs_tbl : (d.setNs n e).tbl = d.tbl := rfl
@[simp] theorem setNs_hif : (d.setNs n e).hif = d.hif := rfl
@[simp] theorem setNs_dma : (d.setNs n e).dma = d.dma := rfl
@[simp] theorem setNs_sag : (d.setNs n e).sag = d.sag := rfl
@[simp] theorem setNs_core : (d.setNs n e).core = d.core := rfl
@[simp] theorem setNs_boot : (d.setNs n e).boot = d.boot := rfl
@[simp] theorem setNs_glz : (d.setNs n e).glz = d.glz := rfl
@[simp] theorem setNs_pke : (d.setNs n e).pke = d.pke := rfl
@[simp] theorem setNs_ras : (d.setNs n e).ras = d.ras := rfl
@[simp] theorem setNs_pkg : (d.setNs n e).pkg = d.pkg := rfl
@[simp] theorem setNs_rd (b : Nat) : (d.setNs n e).rd b = d.rd b := rfl
@[simp] theorem setNs_get (b : Fld) : (d.setNs n e).get b = d.get b := rfl
@[simp] theorem setNs_flag (b : Fld) : (d.setNs n e).flag b = d.flag b := rfl
@[simp] theorem setNs_count (b : Ctr) : (d.setNs n e).count b = d.count b := rfl
end
section
variable (d : Dev) (i : Nat) (c : Nvme)
@[simp] theorem setNvme_cycle : (d.setNvme i c).cycle = d.cycle := rfl
@[simp] theorem setNvme_fresh : (d.setNvme i c).fresh = d.fresh := rfl
@[simp] theorem setNvme_out : (d.setNvme i c).out = d.out := rfl
@[simp] theorem setNvme_reg : (d.setNvme i c).reg = d.reg := rfl
@[simp] theorem setNvme_eth : (d.setNvme i c).eth = d.eth := rfl
@[simp] theorem setNvme_frames : (d.setNvme i c).frames = d.frames := rfl
@[simp] theorem setNvme_nextFrame : (d.setNvme i c).nextFrame = d.nextFrame := rfl
@[simp] theorem setNvme_parse : (d.setNvme i c).parse = d.parse := rfl
@[simp] theorem setNvme_buf : (d.setNvme i c).buf = d.buf := rfl
@[simp] theorem setNvme_tm : (d.setNvme i c).tm = d.tm := rfl
@[simp] theorem setNvme_time : (d.setNvme i c).time = d.time := rfl
@[simp] theorem setNvme_own : (d.setNvme i c).own = d.own := rfl
@[simp] theorem setNvme_mem : (d.setNvme i c).mem = d.mem := rfl
@[simp] theorem setNvme_cls : (d.setNvme i c).cls = d.cls := rfl
@[simp] theorem setNvme_tbl : (d.setNvme i c).tbl = d.tbl := rfl
@[simp] theorem setNvme_hif : (d.setNvme i c).hif = d.hif := rfl
@[simp] theorem setNvme_dma : (d.setNvme i c).dma = d.dma := rfl
@[simp] theorem setNvme_sag : (d.setNvme i c).sag = d.sag := rfl
@[simp] theorem setNvme_core : (d.setNvme i c).core = d.core := rfl
@[simp] theorem setNvme_boot : (d.setNvme i c).boot = d.boot := rfl
@[simp] theorem setNvme_glz : (d.setNvme i c).glz = d.glz := rfl
@[simp] theorem setNvme_pke : (d.setNvme i c).pke = d.pke := rfl
@[simp] theorem setNvme_ras : (d.setNvme i c).ras = d.ras := rfl
@[simp] theorem setNvme_pkg : (d.setNvme i c).pkg = d.pkg := rfl
@[simp] theorem setNvme_rd (b : Nat) : (d.setNvme i c).rd b = d.rd b := rfl
@[simp] theorem setNvme_get (b : Fld) : (d.setNvme i c).get b = d.get b := rfl
@[simp] theorem setNvme_flag (b : Fld) : (d.setNvme i c).flag b = d.flag b := rfl
@[simp] theorem setNvme_count (b : Ctr) : (d.setNvme i c).count b = d.count b := rfl
end
section
variable (d : Dev) (i : Nat) (f : Nvme → Nvme)
@[simp] theorem modNvme_cycle : (d.modNvme i f).cycle = d.cycle := rfl
@[simp] theorem modNvme_fresh : (d.modNvme i f).fresh = d.fresh := rfl
@[simp] theorem modNvme_out : (d.modNvme i f).out = d.out := rfl
@[simp] theorem modNvme_reg : (d.modNvme i f).reg = d.reg := rfl
@[simp] theorem modNvme_eth : (d.modNvme i f).eth = d.eth := rfl
@[simp] theorem modNvme_frames : (d.modNvme i f).frames = d.frames := rfl
@[simp] theorem modNvme_nextFrame : (d.modNvme i f).nextFrame = d.nextFrame := rfl
@[simp] theorem modNvme_parse : (d.modNvme i f).parse = d.parse := rfl
@[simp] theorem modNvme_buf : (d.modNvme i f).buf = d.buf := rfl
@[simp] theorem modNvme_tm : (d.modNvme i f).tm = d.tm := rfl
@[simp] theorem modNvme_time : (d.modNvme i f).time = d.time := rfl
@[simp] theorem modNvme_own : (d.modNvme i f).own = d.own := rfl
@[simp] theorem modNvme_mem : (d.modNvme i f).mem = d.mem := rfl
@[simp] theorem modNvme_cls : (d.modNvme i f).cls = d.cls := rfl
@[simp] theorem modNvme_tbl : (d.modNvme i f).tbl = d.tbl := rfl
@[simp] theorem modNvme_hif : (d.modNvme i f).hif = d.hif := rfl
@[simp] theorem modNvme_dma : (d.modNvme i f).dma = d.dma := rfl
@[simp] theorem modNvme_sag : (d.modNvme i f).sag = d.sag := rfl
@[simp] theorem modNvme_core : (d.modNvme i f).core = d.core := rfl
@[simp] theorem modNvme_boot : (d.modNvme i f).boot = d.boot := rfl
@[simp] theorem modNvme_glz : (d.modNvme i f).glz = d.glz := rfl
@[simp] theorem modNvme_pke : (d.modNvme i f).pke = d.pke := rfl
@[simp] theorem modNvme_ras : (d.modNvme i f).ras = d.ras := rfl
@[simp] theorem modNvme_pkg : (d.modNvme i f).pkg = d.pkg := rfl
@[simp] theorem modNvme_rd (b : Nat) : (d.modNvme i f).rd b = d.rd b := rfl
@[simp] theorem modNvme_get (b : Fld) : (d.modNvme i f).get b = d.get b := rfl
@[simp] theorem modNvme_flag (b : Fld) : (d.modNvme i f).flag b = d.flag b := rfl
@[simp] theorem modNvme_count (b : Ctr) : (d.modNvme i f).count b = d.count b := rfl
end

end Sys2Proof.Machine.Dev
end

