-- ==== Sys2Proof/Laws/Regs.lean ====
section
/-!
SUPPORT. What the register operations do: a field reads back what was put, and every other field and counter keeps its value;
and the supply condition under which a command takes effect.
-/

namespace Sys2Proof.Machine

/-! ### Fields of a word -/

theorem fieldMask_toNat (lo w : Nat) (h : lo + w ≤ 32) : (fieldMask lo w).toNat = (2 ^ w - 1) * 2 ^ lo := by
  unfold fieldMask
  rw [BitVec.toNat_ofNat]
  apply Nat.mod_eq_of_lt
  have h1 : 2 ^ (lo + w) ≤ 2 ^ 32 := Nat.pow_le_pow_right (by omega) h
  have h2 : 0 < 2 ^ w := Nat.two_pow_pos w
  have h3 : 0 < 2 ^ lo := Nat.two_pow_pos lo
  rw [Nat.pow_add] at h1
  have : (2 ^ w - 1) * 2 ^ lo < 2 ^ lo * 2 ^ w := by
    rw [Nat.mul_comm]
    exact Nat.mul_lt_mul_of_pos_left (by omega) h3
  omega

theorem testBit_fieldMask (lo w i : Nat) (h : lo + w ≤ 32) :
    (fieldMask lo w).toNat.testBit i = (decide (lo ≤ i) && decide (i < lo + w)) := by
  rw [fieldMask_toNat lo w h, Nat.testBit_mul_two_pow, Nat.testBit_two_pow_sub_one]
  by_cases h1 : lo ≤ i
  · simp only [h1, decide_true, Bool.true_and]
    congr 1
    apply propext
    omega
  · simp [h1]

theorem testBit_fieldGet (w : W32) (lo n i : Nat) :
    (fieldGet w lo n).testBit i = (decide (i < n) && w.toNat.testBit (lo + i)) := by
  unfold fieldGet
  rw [Nat.testBit_mod_two_pow, Nat.testBit_div_two_pow, Nat.add_comm i lo]

theorem getLsbD_fieldMask (lo n i : Nat) (h : lo + n ≤ 32) :
    (fieldMask lo n).getLsbD i = (decide (lo ≤ i) && decide (i < lo + n)) := testBit_fieldMask lo n i h

theorem getLsbD_fieldPut (w : W32) (lo n v i : Nat) (h : lo + n ≤ 32) :
    (fieldPut w lo n v).getLsbD i =
      if lo ≤ i ∧ i < lo + n then v.testBit (i - lo) else w.getLsbD i := by
  unfold fieldPut
  simp only [BitVec.getLsbD_or, BitVec.getLsbD_and, BitVec.getLsbD_not, getLsbD_fieldMask lo n i h, BitVec.getLsbD_ofNat,
    Nat.testBit_mul_two_pow, Nat.testBit_mod_two_pow]
  by_cases h1 : lo ≤ i <;> by_cases h2 : i < lo + n
  · have h3 : i < 32 := by omega
    have h4 : i - lo < n := by omega
    simp [h1, h2, h3, h4]
  · simp only [h1, h2, and_false, if_false, decide_true, decide_false, Bool.and_false, Bool.not_false, Bool.and_true,
      Bool.or_false]
    by_cases h3 : i < 32
    · simp [h3]
    · simp [h3, BitVec.getLsbD_of_ge _ _ (Nat.le_of_not_lt h3)]
  · simp only [h1, false_and, if_false, decide_false, Bool.false_and, Bool.not_false, Bool.and_true, Bool.and_false,
      Bool.or_false]
    have h3 : i < 32 := by omega
    simp [h3]
  · have : False := by omega
    exact this.elim

/-- The field that was put reads the value in its width. -/
theorem fieldGet_put_same (w : W32) (lo n v : Nat) (h : lo + n ≤ 32) : fieldGet (fieldPut w lo n v) lo n = v % 2 ^ n := by
  apply Nat.eq_of_testBit_eq
  intro i
  rw [testBit_fieldGet, Nat.testBit_mod_two_pow]
  by_cases h1 : i < n
  · have := getLsbD_fieldPut w lo n v (lo + i) h
    simp only [BitVec.getLsbD] at this
    simp only [h1, decide_true, Bool.true_and, this]
    rw [if_pos (by omega), Nat.add_sub_cancel_left]
  · simp [h1]

/-- A field of other bits keeps its value. -/
theorem fieldGet_put_other (w : W32) (lo n v lo' n' : Nat) (h : lo + n ≤ 32) (h' : lo + n ≤ lo' ∨ lo' + n' ≤ lo) :
    fieldGet (fieldPut w lo n v) lo' n' = fieldGet w lo' n' := by
  apply Nat.eq_of_testBit_eq
  intro i
  rw [testBit_fieldGet, testBit_fieldGet]
  by_cases h1 : i < n'
  · have := getLsbD_fieldPut w lo n v (lo' + i) h
    simp only [BitVec.getLsbD] at this
    simp only [h1, decide_true, Bool.true_and, this]
    rw [if_neg (by omega)]
  · simp [h1]

namespace Dev

/-! ### Registers -/

@[simp] theorem rd_wr_same (d : Dev) (a : Nat) (v : W32) : (d.wr a v).rd a = v := by
  simp [rd, wr]

theorem rd_wr (d : Dev) (a b : Nat) (v : W32) : (d.wr a v).rd b = if b = a then v else d.rd b := by
  simp [rd, wr, tabGet_set]

theorem rd_put (d : Dev) (f : Fld) (v b : Nat) :
    (d.put f v).rd b = if b = f.addr then fieldPut (d.rd f.addr) f.lo f.width v else d.rd b := by
  simp [put, rd_wr]

theorem rd_put_ne (d : Dev) (f : Fld) (v : Nat) {b : Nat} (h : b ≠ f.addr) : (d.put f v).rd b = d.rd b := by
  simp [rd_put, h]

theorem get_put_same (d : Dev) (f : Fld) (v : Nat) (h : f.lo + f.width ≤ 32) : (d.put f v).get f = v % 2 ^ f.width := by
  simp [get, rd_put, fieldGet_put_same _ _ _ _ h]

theorem get_put_addr (d : Dev) (f g : Fld) (v : Nat) (h : g.addr ≠ f.addr) : (d.put f v).get g = d.get g := by
  simp [get, rd_put, h]

theorem get_put_bits (d : Dev) (f g : Fld) (v : Nat) (h : f.lo + f.width ≤ 32)
    (h' : f.lo + f.width ≤ g.lo ∨ g.lo + g.width ≤ f.lo) : (d.put f v).get g = d.get g := by
  by_cases ha : g.addr = f.addr
  · simp [get, rd_put, ha, fieldGet_put_other _ _ _ _ _ _ h h']
  · exact get_put_addr d f g v ha

theorem flag_put_same (d : Dev) (f : Fld) (v : Nat) (h : f.lo + f.width ≤ 32) : (d.put f v).flag f = (v % 2 ^ f.width != 0) := by
  simp [flag, get_put_same d f v h]

@[simp] theorem count_put (d : Dev) (f : Fld) (v : Nat) (c : Ctr) : (d.put f v).count c = d.count c := rfl
@[simp] theorem rd_bump (d : Dev) (c : Ctr) (n b : Nat) : (d.bump c n).rd b = d.rd b := rfl
@[simp] theorem get_bump (d : Dev) (c : Ctr) (n : Nat) (f : Fld) : (d.bump c n).get f = d.get f := rfl
@[simp] theorem rd_inc (d : Dev) (c : Ctr) (b : Nat) : (d.inc c).rd b = d.rd b := rfl
@[simp] theorem get_inc (d : Dev) (c : Ctr) (f : Fld) : (d.inc c).get f = d.get f := rfl
@[simp] theorem flag_inc (d : Dev) (c : Ctr) (f : Fld) : (d.inc c).flag f = d.flag f := rfl
@[simp] theorem flag_bump (d : Dev) (c : Ctr) (n : Nat) (f : Fld) : (d.bump c n).flag f = d.flag f := rfl
@[simp] theorem rd_setEvent (d : Dev) (f : Fld) (b : Nat) : (d.setEvent f).rd b = (d.put f 1).rd b := rfl
@[simp] theorem get_setEvent (d : Dev) (f g : Fld) : (d.setEvent f).get g = (d.put f 1).get g := rfl
@[simp] theorem flag_setEvent (d : Dev) (f g : Fld) : (d.setEvent f).flag g = (d.put f 1).flag g := rfl
@[simp] theorem count_setEvent (d : Dev) (f : Fld) (c : Ctr) : (d.setEvent f).count c = d.count c := rfl

theorem count_bump_same (d : Dev) (c : Ctr) (n : Nat) : (d.bump c n).count c = satAdd c.width (d.count c) n := by
  simp [count, bump, tabMod]

theorem count_bump_ne (d : Dev) (c e : Ctr) (n : Nat) (h : e.addr ≠ c.addr) : (d.bump c n).count e = d.count e := by
  simp [count, bump, tabMod, tabGet_set_ne _ _ _ h]

theorem count_inc_same (d : Dev) (c : Ctr) : (d.inc c).count c = satAdd c.width (d.count c) 1 := count_bump_same d c 1

theorem count_inc_ne (d : Dev) (c e : Ctr) (h : e.addr ≠ c.addr) : (d.inc c).count e = d.count e := count_bump_ne d c e 1 h

end Dev

/-! ### The answer of a command -/

/-- With power, a command answers its effect; without, the state stays. -/
theorem effect_alive {s : State} (h : s.dev.alive = true) (f : Dev → Dev) : s.effect f = .next { s with dev := f s.dev } := by
  simp [State.effect, h]

theorem effect_dead {s : State} (h : s.dev.alive = false) (f : Dev → Dev) : s.effect f = .next s := by
  simp [State.effect, h]

/-- Everything that `State.effect` can do. -/
theorem effect_cases {s : State} {f : Dev → Dev} {t : State} (h : s.effect f = .next t) :
    t.pending = s.pending ∧ (t = s ∨ (s.dev.alive = true ∧ t.dev = f s.dev)) := by
  unfold State.effect at h
  cases h
  split <;> simp_all

end Sys2Proof.Machine
end

