-- ==== Sys2Proof/Laws/Step.lean ====
section
/-!
SUPPORT. How a command's answer is shown: by its effect on the device, while the part has power; and what a step is.
-/

namespace Sys2Proof.Machine

/-- A command whose answer is an effect `f` under power does what `f` does. -/
theorem does_intro {c : Instr} {s : State} {f : Dev → Dev} {p : Dev → Prop} (h : s.dev.alive = true)
    (he : exec c s = s.effect f) (hp : p (f s.dev)) : Does c s p :=
  ⟨{ s with dev := f s.dev }, by rw [he, effect_alive h], rfl, hp⟩

/-- The same for a command of the AON domain. -/
theorem does_intro_aon {c : Instr} {s : State} {f : Dev → Dev} {p : Dev → Prop}
    (he : exec c s = s.effectAon f) (hp : p (f s.dev)) : Does c s p :=
  ⟨{ s with dev := f s.dev }, by rw [he, State.effectAon], rfl, hp⟩

/-- A write that no crossing holds, outside the windows of the ports, has its effect. -/
theorem lands_plain {d : Dev} {q : Path} {a : Nat} {data : W32} {f : Dev → Dev} (ht : d.severed .time = false) (ha : d.severed .aon = false)
    (h : a < 0x100000 ∨ 0x200000 ≤ a) : d.lands q a data f = f d := by
  have hb : d.behind a = false := by simp [Dev.behind, ht, ha]
  have hp : ¬ (0x100000 ≤ a ∧ a < 0x200000) := by omega
  simp [Dev.lands, hb, hp]

/-- A write to the window of a port that no reset of this cycle reaches has its effect, and is noted. -/
theorem lands_port {d : Dev} {q : Path} {a : Nat} {data : W32} {f : Dev → Dev} (ht : d.severed .time = false) (ha : d.severed .aon = false)
    (h : 0x100000 ≤ a ∧ a < 0x200000) (hm : d.marked (.portReset ((a - 0x100000) / 0x10000)) = false) :
    d.lands q a data f = (let y := f d; if y.marked (.portReset ((a - 0x100000) / 0x10000)) then y else y.mark (.portWrite a (d.rd a))) := by
  have hb : d.behind a = false := by simp [Dev.behind, ht, ha]
  simp [Dev.lands, hb, h, hm]

/-- The same for a command that writes a register, on a path that reaches it. -/
theorem does_write {c : Instr} {s : State} {q : Path} {a : Nat} {data : W32} {f : Dev → Dev} {e : Dev} {p : Dev → Prop}
    (h : Reaches s.dev q e) (he : exec c s = s.regWrite q a data f) (hp : p (e.lands q (busKey a) data f)) : Does c s p := by
  obtain ⟨h1, h2, rfl, -⟩ := h
  exact does_intro h1 he (by simpa [Dev.regWriteBy, h2] using hp)

/-- The register that a bus address names lies outside the windows of the ports where the address does. -/
theorem busKey_outside {a : Nat} (h : a < 0x100000 ∨ 0x200000 ≤ a) : busKey a < 0x100000 ∨ 0x200000 ≤ busKey a := by
  unfold busKey
  simp only
  split
  · have : stoKey = 0x4000000 := rfl
    omega
  · exact h

/-- The same for a register outside the windows of the ports. -/
theorem does_plain {c : Instr} {s : State} {q : Path} {a : Nat} {data : W32} {f : Dev → Dev} {e : Dev} {p : Dev → Prop}
    (h : Reaches s.dev q e) (ha : a < 0x100000 ∨ 0x200000 ≤ a) (he : exec c s = s.regWrite q a data f) (hp : p (f e)) :
    Does c s p :=
  does_write h he (by rw [lands_plain h.2.2.2.1 h.2.2.2.2 (busKey_outside ha)]; exact hp)

/-- The same for a command that reads a register. -/
theorem does_read {c : Instr} {s : State} {q : Path} {f : Dev → Dev} {e : Dev} {p : Dev → Prop} (h : Reaches s.dev q e)
    (he : exec c s = s.regRead q f) (hp : p (f e)) : Does c s p := by
  obtain ⟨h1, h2, rfl, -⟩ := h
  exact does_intro h1 he (by simpa [Dev.regReadBy, h2] using hp)

/-- The same for a command that writes at an offset of a BAR. -/
theorem does_bar {c : Instr} {s : State} {l f b o : Nat} {g : Dev → Dev} {e : Dev} {p : Dev → Prop} (h : ReachesBar s.dev l f e)
    (he : exec c s = s.barWrite l f b o g) (hp : p (g e)) : Does c s p := by
  obtain ⟨h1, h2, rfl⟩ := h
  exact does_intro h1 he (by simpa [Dev.barWriteBy, h2] using hp)

/-- Everything that the effect of an AON command can do. -/
theorem effectAon_cases {s t : State} {f : Dev → Dev} (h : s.effectAon f = .next t) :
    t.pending = s.pending ∧ t.dev = f s.dev := by
  unfold State.effectAon at h
  cases h
  simp

end Sys2Proof.Machine
end

