-- ==== Sys2Proof/Laws/Units.lean ====
section
/-!
SUPPORT. One lemma for each unit that takes commands in turn: what its shared operation does with the command it is ready for.
-/

namespace Sys2Proof.Machine
open Dev

/-! ### The tables -/

/-- A ready table command is taken, and its answer is what the table operation gives. -/
theorem doTable_ready {d : Dev} {g op : Nat} {j : Job} (h : tblReady d g op j) :
    doTable op g d =
      (if [0x03, 0x04, 0x13, 0x21].contains op then ((tblTaken d j).tblCommand none j.block).2
        else ((tblTaken d j).tblCommand none j.block).2.mark .tableWrite).tblAnswer j ((tblTaken d j).tblCommand none j.block).1 := by
  obtain ⟨h1, h2, h3, h4, h5, h6, h7, h8⟩ := h
  simp only [doTable, if_neg (Nat.not_lt.mpr h1), h2, h4, h3, ne_eq, not_true_eq_false, if_false]
  rfl

theorem tblTaken_bad {d : Dev} {g op : Nat} {j : Job} (h : tblReady d g op j) : (tblTaken d j).tbl.bad = [] := h.2.2.2.2.2.2.2

theorem tblTaken_on {d : Dev} {g op : Nat} {j : Job} (h : tblReady d g op j) : (tblTaken d j).tblOn = true := h.2.2.2.2.2.2.1

theorem tblTaken_badIndex {d : Dev} {g op : Nat} {j : Job} (h : tblReady d g op j) :
    (tblTaken d j).tblBadIndex op j.block = false := h.2.2.2.2.2.1

/-- With no bad entry there is nothing to purge. -/
theorem purge_none {d : Dev} (h : d.tbl.bad = []) (p : EntryRef → Bool) : d.purge p = d := by simp [purge, h]

theorem isBad_none {d : Dev} (h : d.tbl.bad = []) (r : EntryRef) : d.isBad r = false := by simp [isBad, h]

/-! ### The cores -/

/-- A ready core command is taken and executed. -/
theorem doCoreCmd_ready {d : Dev} {g op used limit : Nat} {j : Job} {f : Job → Nat → Dev → Dev} (h : coreReady d g op used limit j) :
    doCoreCmd op used limit g f d = f j (fieldLE j.block 4 4) (coreTaken d j) := by
  obtain ⟨h1, h2, h3, h4, h5, h6⟩ := h
  simp [doCoreCmd, h1, h2, h3, h4, h5, Nat.not_le.mpr h6, coreTaken]

/-- An issue row executes the instruction that the thread issues. -/
theorem issueRow_issues {d e : Dev} {t w raw len : Nat} {c : RvClass} {f : Nat → Nat → Nat → Dev → Dev} (h : Issues d t c w raw len e) :
    d.issueRow t c f = f w raw len e := by
  obtain ⟨y, h1, h2, h3, h4⟩ := h
  simp [issueRow, h1, h2, h3, h4]

/-! ### The arbiters -/

@[simp] theorem debit_cycle (d : Dev) (k : ArbKind) (o : Option Nat) (c : Int) : (d.debitCost k o c).cycle = d.cycle := by
  unfold debitCost
  cases o with
  | none => rfl
  | some s => simp only; split <;> rfl

/-! ### The parse engines -/

@[simp] theorem frame?_setPst (d : Dev) (k i : Nat) (p : ParseState) : (d.setPst k p).frame? i = d.frame? i := rfl

/-- An engine that is set is what the pipeline holds. -/
theorem eng_setEng_some (d : Dev) (k e : Nat) (y : Engine) : (d.setEng k e (some y)).eng k e = some y := by
  simp [setEng, eng, setPst, pst]

/-- A write to a register of an engine leaves the others. -/
theorem rd_wr_ne (x : Engine) (v : W16) {a r : Nat} (h : r ≠ a) : (x.wr a v).rd r = x.rd r := by
  unfold Engine.wr Engine.rd
  by_cases h0 : a = 0 <;> simp [h0, vset, Vector.getD, Ne.symm h]

end Sys2Proof.Machine
end

