-- ==== Sys2Proof/Tests/Slice0.lean ====
section
/-!
SUPPORT. The model's own tests: what the command syntax refuses, single operations against the manual's worked examples, and
for each statement with premises a concrete state and operands that meet them, clause by clause.
-/

set_option Elab.async false

namespace Sys2Proof.Tests
open Sys2Proof Sys2Proof.Machine

/-! ### Small states -/

/-- The state at reset with its device changed. -/
def st (f : Dev → Dev) : State := { State.reset with dev := f Dev.reset }

/-- A device with fields set. -/
def puts (l : List (Fld × Nat)) (d : Dev) : Dev := l.foldl (fun d x => d.put x.1 x.2) d

/-- A frame of `n` zero bytes at port 0, ended, at a stage. -/
def fr (n : Nat) (g : Stage) : Frame := { Frame.new (.port 0) (List.replicate n 0#8) 0 0 with stage := g, ended := true }

/-- A state whose parse engine 0 of pipeline 0 is about to execute a word on a received frame. -/
def parseSt (i : PInstr) : State :=
  st fun d => { ((puts [(⟨PL_IMEM 0 0, 0, 32⟩, (encodeParse i).toNat)] d).setFrame 0 (fr 100 .parse)).setEng 0 0
    (some (Engine.start 0 0 0)) with cycle := 100 }

/-- A job block of a manager's channel 0, with an opcode and some little-endian fields. -/
def blockOf (op : Byte) (l : List (Nat × Nat × Nat)) : List Byte :=
  l.foldl (fun b x => overlay b x.1 (leBytes x.2.1 x.2.2)) (overlay (List.replicate 128 0#8) 0 [op])

def tJob (op : Byte) (l : List (Nat × Nat × Nat)) : Job := ⟨0, 0, 0, blockOf op l, 0, none, none, 0, none⟩

/-- A state in which the tables are on and one table command waits. -/
def tblSt (f : TblState → TblState) (j : Job) : State :=
  st fun d => { (puts [(TBL_CTRL_ENABLE, 1)] d).lock TBL_CTRL with tbl := { f d.tbl with jobs := [j] } }

/-- A state in which one core command waits. -/
def coreSt (f : Dev → Dev) (j : Job) : State := st fun d => { f d with core := { (f d).core with jobs := [j] } }

/-- Kiln 0 of quadrant 0 with its threads released and started. -/
def kiln0 (d : Dev) : Dev := (puts [(RST_QUAD_STATUS_HELD, 0), (RST_QUAD_STATUS_RESETTING, 0), (RAS_KILN_MAP_VALID 0, 1)] d).startKiln 0

/-- A state whose thread 0 stands at an instruction word in the HBM, with its own changes. -/
def rvSt (w : Nat) (f : Thread → Thread) : State :=
  st fun d => ((kiln0 d).hbmWrite 0x80001000 (leBytes 4 w)).modThread 0 fun t => f { t with pc := 0x80001000#64 }

/-- The same, with changes of the device. -/
def rvDev (w : Nat) (f : Dev → Dev) : State := st fun _ => f (rvSt w id).dev

/-- The device once thread `t` has fetched what it issues. -/
def fetched (d : Dev) (t : Nat) : Dev := ((d.issue t).map fun y => (y.fetchIns t).1).getD d

def issuesB (d : Dev) (t : Nat) (c : RvClass) (w raw len : Nat) : Bool :=
  match d.issue t with
  | some y => Dev.takeable (y.thread t) == none && (match (y.fetchIns t).2 with
      | .ins a b l => a == w && b == raw && l == len
      | .exc _ => false) && rvClass w == c
  | none => false

theorem issues_of {d : Dev} {t w raw len : Nat} {c : RvClass} (h : issuesB d t c w raw len = true) :
    Issues d t c w raw len (fetched d t) := by
  unfold issuesB at h
  split at h
  · rename_i y hy
    refine ⟨y, hy, ?_⟩
    simp only [Bool.and_eq_true, beq_iff_eq] at h
    obtain ⟨⟨h1, h2⟩, h3⟩ := h
    refine ⟨h1, ?_, h3⟩
    split at h2
    · rename_i a b l e
      simp only [Bool.and_eq_true, beq_iff_eq] at h2
      obtain ⟨⟨rfl, rfl⟩, rfl⟩ := h2
      simp [fetched, hy, ← e]
    · cases h2
  · cases h

theorem pair_of {α β : Type} {p : α × β} {b : β} (h : p.2 = b) : p = (p.1, b) := by rw [← h]

/-- What the dispatcher of GLZ leaves once it has taken what it serves next. -/
def glzT (d : Dev) : Dev := match d.glzNext with
  | (some (g, arb), d1) => glzTaken (d1.before (.keyWrite (jbKc g.job.block))) g arb
  | _ => d

theorem glz_of {d : Dev} {op e : Nat} {g : GlzJob}
    (h : ((d.leftSetup GLZ_CTRL && !d.flag GLZ_CTRL_ENABLE) == false && d.freeGlz false == some e && g.copy == none &&
      jbOp g.job.block == op && d.glzNext.1.map (·.1) == some g) = true) : glzChosen d op e g (glzT d) := by
  simp only [Bool.and_eq_true, beq_iff_eq] at h
  obtain ⟨⟨⟨⟨h1, h2⟩, h3⟩, h4⟩, h5⟩ := h
  refine ⟨h1, h2, h3, h4, ?_⟩
  unfold glzT
  split
  · rename_i g' arb d1 e
    rw [e] at h5
    obtain rfl : g' = g := by simpa using h5
    exact ⟨arb, d1, e, rfl⟩
  · rename_i x hx
    obtain ⟨⟨g', arb⟩, hg⟩ : ∃ y, d.glzNext.1 = some y := by cases hq : d.glzNext.1 <;> simp_all
    exact absurd (show d.glzNext = (some (g', arb), d.glzNext.2) by rw [← hg]) (fun w => hx _ _ _ w)

/-- What the dispatcher of PKE leaves once it has taken what it starts next. -/
def pkT (d : Dev) : Dev := match d.pkNext with
  | (some (j, _, arb), d1) => ((d1.before (.keyWrite (pkKwk j.block))).pkLeave j).setPke fun s => { s with arb := arb }
  | _ => d

theorem pk_of {d : Dev} {op u : Nat} {j : Job} {hdr : List Byte}
    (h : ((d.pkWaiting.find? fun x => pkOp x.1.block == op && d.pkCheck x.1 x.2 != pkOk) == none &&
      ((List.range 16).find? fun u => d.pkeInService u && (d.pkeUnit u).isNone) == some u && pkOp j.block == op &&
      ((Dev.pkRanges j.block).any fun r => !(pkT d).tAllowed j.chan r.1 r.2) == false &&
      d.pkNext.1.map (fun y => (y.1, y.2.1)) == some (j, hdr)) = true) : pkChosen d op u j hdr (pkT d) := by
  simp only [Bool.and_eq_true, beq_iff_eq] at h
  obtain ⟨⟨⟨⟨h1, h2⟩, h3⟩, h4⟩, h5⟩ := h
  refine ⟨h1, h2, h3, h4, ?_⟩
  unfold pkT
  split
  · rename_i g' hd arb d1 e
    rw [e] at h5
    obtain ⟨rfl, rfl⟩ : g' = j ∧ hd = hdr := by simpa using h5
    exact ⟨arb, d1, e, rfl⟩
  · rename_i x hx
    obtain ⟨⟨g', hd, arb⟩, hg⟩ : ∃ y, d.pkNext.1 = some y := by cases hq : d.pkNext.1 <;> simp_all
    exact absurd (show d.pkNext = (some (g', hd, arb), d.pkNext.2) by rw [← hg]) (fun w => hx _ _ _ _ w)

/-- The attributes of a key context: word 0, and the limit. -/
def attrOf (w0 lim : Nat) : List Byte := overlay (overlay (List.replicate 64 0#8) 0 (leBytes 4 w0)) 16 (leBytes 8 lim)

def keyCtx (w0 lim : Nat) : KeyCtx := ⟨attrOf w0 lim, List.replicate 64 0#8, false, true⟩

/-- A state in which GLZ is on with some key contexts and waiting jobs. -/
def glzSt (kc : List (Nat × KeyCtx)) (js : List GlzJob) : State :=
  st fun d => { (puts [(GLZ_CTRL_ENABLE, 1)] d).lock GLZ_CTRL with glz := { d.glz with kc := kc, jobs := js } }

theorem pair_of' {α β : Type} {p : α × β} {a : α} (h : p.1 = a) : p = (a, p.2) := by rw [← h]

theorem eta3 {α β γ : Type} (p : α × β × γ) : p = (p.1, p.2.1, p.2.2) := rfl

/-- Link 0 of controller 0 up. -/
def lnk (d : Dev) : Dev :=
  let d := puts [(HIF_CTRL_ENABLE 0, 1), (HIF_LINK_STATUS_LINK_UP 0 0, 1), (HIF_LINK_STATUS_PM_STATE 0 0, 0)] d
  { d with hif := { d.hif with perst := [1] } }

/-- The same with the gate open, and BAR 0 of function 0 decoded at an address. -/
def lnkBar (d : Dev) : Dev := ((lnk d).put BOOT_STATUS_GATE_OPEN 1).modFunc 0 0 fun x => { x with mse := true, bar0 := 0x10000000 }

/-- An outstanding read of channel 0. -/
def readOf (addr len : Nat) (w : ReadFor) (got : Nat) : Read := ⟨5, 0, 0, none, addr, len, w, 0, [], got, 0, false⟩

/-- Channel 0 running on its engine with outstanding reads. -/
def chanOn (rs : List Read) (d : Dev) : Dev :=
  (puts [(DMA_ENG_CTRL_ENABLE 0, 1), (DMA_CH_STATUS_STATE 0 0, 1)] d).setDeng 0 { DmaEng.reset with reads := rs }

/-- A descriptor from its four words. -/
def descOf (a b c e : Nat) : List Byte := leBytes 8 a ++ leBytes 8 b ++ leBytes 8 c ++ leBytes 8 e

/-- The manager's channel 0 of a kind, running, with one descriptor read. -/
def chanK (k : Nat) (ds : List Byte) (d : Dev) : Dev :=
  (chanOn [] (puts [(DMA_CH_OWNER_MANAGER 0 0, 1), (DMA_CH_CFG_KIND 0 0, k)] d)).setChan 0 { Chan.reset with pre := [(0, ds)] }

theorem slice_nil (o n : Nat) : sliceB [] o n = List.replicate n 0#8 := by
  simp [sliceB, List.map_const']

theorem zeros_word : fieldLE (sliceB [] 0 4096) 24 4 = 0 := by
  have h : ∀ i, (List.replicate 4096 0#8).getD i 0#8 = 0#8 := fun i => by
    rw [List.getD_eq_getElem?_getD, List.getElem?_replicate]; split <;> rfl
  rw [slice_nil]
  simp only [fieldLE, sliceB, h, List.map_const', List.length_range]
  decide

theorem eventWrite_of {d : Dev} {g a : Nat} {bs : List Byte}
    (h : (d.eventChan g && d.engRuns (g / 256) && d.tAllowed g a bs.length) = true) : d.eventWrite g a bs = some (d.tWrite g a bs none none) :=
  if_pos h

/-- A submission queue entry of an opcode with other fields. -/
def sqeOf (op : Byte) (l : List (Nat × Nat × Nat)) : List Byte :=
  l.foldl (fun b x => overlay b x.1 (leBytes x.2.1 x.2.2)) (overlay (List.replicate 64 0#8) 0 [op])

/-- Saggar 0 with an emulated controller that is enabled and ready. -/
def nvDev (f : Nvme → Nvme) (d : Dev) : Dev :=
  ((puts [(STO_CTRL_ENABLE, 1), (SAG_STATUS_STATE 0, 1), (SAG_FUNC_FUNC 0, 2)] d).modFunc 0 2 fun x => { x with bme := true }).modNvme 0
    fun c => f { c with cfg := [1, 0, 0, 0x80] ++ List.replicate 12 0, rdy := true }

/-- The same with one entry that waits in submission queue `q`, and completion queue 1. -/
def sqDev (q : Nat) (d : Dev) : Dev :=
  nvDev (fun c => { c with sqs := [(q, some ⟨0, 8, 1, 0, 1⟩)], cqs := [(1, some ⟨0, 8, false, 0, 0, 0, false⟩)] }) d

/-- Namespace entry 0 with its words 0 and 1, and eight blocks. -/
def nsDev (w0 w1 : Nat) (f : Journal → Journal) (d : Dev) : Dev :=
  d.setNs 0 ⟨leBytes 4 w0 ++ leBytes 4 w1 ++ leBytes 8 8 ++ List.replicate 24 0, f .reset, false⟩

def cmdTaken (d : Dev) (q op : Nat) (sqe : List Byte) : Dev := ((d.takeCmd 0 q op sqe).map (·.2)).getD d

theorem take_of {d : Dev} {q op : Nat} {sqe : List Byte} {x : NvmeCmd} (h : (d.takeCmd 0 q op sqe).map (·.1) = some x) :
    d.takeCmd 0 q op sqe = some (x, cmdTaken d q op sqe) := by
  unfold cmdTaken
  cases e : d.takeCmd 0 q op sqe with
  | none => simp [e] at h
  | some y => simp only [e, Option.map_some, Option.some.injEq] at h; subst h; rfl

/-- Without loopback the lanes receive what the wire brings. -/
theorem hears_of {d : Dev} {p : Nat} {b : List Byte} {l : Bool} (h : d.loopback (p / 4) = 0) : d.hears p b l = some (b, d) := by
  simp [Dev.hears, h]

/-- A PTP event message in an Ethernet frame of type 0x88F7. -/
def ptpFrame : List Byte := overlay (List.replicate 68 0#8) 12 [0x88, 0xF7]

/-- The same with link 0 up and the controller's BARs open. -/
def nvBar (f : Nvme → Nvme) (d : Dev) : Dev := (nvDev f (lnkBar d)).modFunc 0 2 fun x => { x with mse := true }

/-- The same with answers to the service's jobs. -/
def ansDev (d : Dev) (as : List StoAns) : Dev := { d with sto := { d.sto with answers := as } }

/-- The header of an image of 28,672 bytes: management firmware, one segment for all quadrants, one parse program for all pipelines. -/
def imgBytes (svn : Nat) : List Byte :=
  let seg := fun (t g o load : Nat) => leBytes 2 (t + 256 * g) ++ leBytes 2 0 ++ leBytes 4 o ++ leBytes 4 64 ++ leBytes 8 load ++ List.replicate 48 0#8
  leBytes 8 0x54534F4C474D4448 ++ leBytes 2 1 ++ leBytes 2 16384 ++ leBytes 4 28672 ++ leBytes 4 0 ++ leBytes 1 svn ++ leBytes 1 0 ++ leBytes 2 3 ++
    List.replicate 40 0#8 ++ seg 1 0 16384 0x1000 ++ seg 2 15 20480 0x2000 ++ seg 3 255 24576 0

/-- The boot sequence at the header of a recovery image, with the fuse digest of keys of zeros. -/
def imgSt (svn roll : Nat) (dig : List (List Byte)) : State :=
  st fun d => d.setBoot fun b => { b with
    started := true, attempt := some ⟨2, [], .header, .none, false, false⟩, hbmTrained := true, recovery := imgBytes svn
    fuses := { b.fuses with digests := dig, rollback := roll } }

/-- What that image's reader gives: zeros behind its header. -/
def imgSrc (svn : Nat) : ByteSrc := fun o n => if 268 ≤ o then List.replicate n 0#8 else sliceB (imgBytes svn) o n

theorem le_length (n v : Nat) : (leBytes n v).length = n := by induction n generalizing v <;> simp_all [leBytes]

theorem img_src (svn roll : Nat) (dig : List (List Byte)) (f : Fld) (v : Nat) : ((imgSt svn roll dig).dev.put f v).imageSrc 2 = imgSrc svn := by
  have hl : (imgBytes svn).length = 268 := by simp only [imgBytes, List.length_append, le_length, List.length_replicate]
  funext o n
  show sliceB (imgBytes svn) o n = _
  unfold imgSrc
  split
  · rw [sliceB, List.eq_replicate_iff]
    refine ⟨by simp, fun b hb => ?_⟩
    obtain ⟨i, -, rfl⟩ := List.mem_map.1 hb
    exact List.getD_eq_default _ _ (by omega)
  · rfl

/-- SHA-384 of the key fields of that image, from an independent implementation. -/
theorem zero_keys : sha384 (List.replicate 2688 0#8) =
    beBytes 48 0xd7496df6c4087096c5c4150555d0024a658400f44cb7b844aa06483009bd82e5144d0ceea689adb22174477f1b8f1bbc := by decide +kernel

theorem src_keys (svn : Nat) : imgSrc svn 4096 2688 = List.replicate 2688 0#8 := by unfold imgSrc; rw [if_pos (by decide)]

theorem keys_ok {svn : Nat} {f : Fuses} {h : ImageHdr} {k : List Byte} (e : sha384 (List.replicate 2688 0#8) = k)
    (h1 : f.digests.getD h.keySlot [] = k) (h2 : f.revoked.getD h.keySlot false = false) (h3 : k.all (· == 0#8) = false) :
    keySlotBad f (imgSrc svn) h = false := by
  unfold keySlotBad
  rw [src_keys, e, h1, h2]
  show (k.all _ || false || k != k) = false
  rw [h3]
  simp

theorem img_hdr {svn roll : Nat} {dig : List (List Byte)} {f : Fld} {v : Nat} {h : ImageHdr} (e : imageHdr (imgSrc svn) = some h) :
    imageHdr (((imgSt svn roll dig).dev.put f v).imageSrc 2) = some h := by
  rw [img_src]
  exact e

theorem img_keys {svn roll v : Nat} {dig : List (List Byte)} {f : Fld} {fu : Fuses} {h : ImageHdr} {b : Bool}
    (e : keySlotBad fu (imgSrc svn) h = b) : keySlotBad fu (((imgSt svn roll dig).dev.put f v).imageSrc 2) h = b := by
  rw [img_src]
  exact e

/-! ### What the syntax refuses: one ill-formed command for each check -/

theorem test_wf_refuses : ∀ c ∈ ([.mgmtFrameRx (List.replicate 63 0), .mgmtFrameRx (List.replicate 1519 0), .hifDlActive 0 7 4 true,
    .hifDlActive 0 6 4 false, .hifDlActive 0 1 3 false, .inboundMemoryWrite 0 0 [] false ⟨[], [], false, [], []⟩,
    .inboundMemoryWrite 0 (2 ^ 64) [none] false ⟨[], [], false, [], []⟩, .inboundMemoryRead 0 0 (.read 0),
    .inboundMemoryRead 0 (2 ^ 64) (.read 1), .readCompletion 0 (2 ^ 14) .data [0], .readCompletion 0 0 .data [],
    .readCompletion 0 0 .ur [0], .i3cRecData [], .i3cRecData (List.replicate 257 0), .errorDetection 1 1024 .corrected 0 [] false,
    .coneTempReading [] [], .coneWearMeasure []] : List Instr), c.wf = false := by decide +kernel

theorem test_wf_refuses_short_entries : ∀ c ∈ ([.nvmeCreateIoSq 0 [], .nvmeDeleteIoSq 0 [], .nvmeCreateIoCq 0 [], .nvmeDeleteIoCq 0 [],
    .nvmeGetLogPage 0 [] [], .nvmeIdentify 0 [] [], .nvmeAbort 0 [] [], .nvmeAbort 0 (List.replicate 64 0) [[]], .nvmeSetFeatures 0 [],
    .nvmeGetFeatures 0 [], .nvmeAsyncEventRequest 0 [], .nvmeFlush 0 1 [], .nvmeWrite 0 1 [] [] none, .nvmeRead 0 1 [] [] none,
    .nvmeWriteZeroes 0 1 [] none, .nvmeDatasetManagement 0 1 [] [] none, .nvmeJournalAppend 0 1 [] [],
    .nvmeInvalidOpcode 0 1 []] : List Instr), c.wf = false := by decide +kernel

theorem test_wf_admits : ∀ c ∈ ([.mgmtFrameRx (List.replicate 64 0), .hifDlActive 0 6 4 true, .inboundMemoryRead 0 0 (.read 1024),
    .nvmeFlush 0 1 (List.replicate 64 0)] : List Instr), c.wf = true := by decide +kernel

/-! ### Single operations against the manual -/

/-- Words of the manual's worked parse (chapter Parse Engines). -/
theorem test_parse_words : [encodeParse ⟨.ldh, 2, 0, 0, 12⟩, encodeParse ⟨.movi, 1, 0, 0, 14⟩, encodeParse ⟨.cmpi, 0, 2, 0, 0x8100⟩,
    encodeParse ⟨.b, 2, 0, 0, 8⟩, encodeParse ⟨.st, 0, 3, 0, 2⟩, encodeParse ⟨.shri, 4, 4, 0, 4⟩, encodeParse ⟨.or, 5, 5, 4, 0⟩,
    encodeParse ⟨.done, 0, 0, 0, 1⟩, encodeParse ⟨.reject, 0, 0, 0, 16⟩] =
    [0x5480000C, 0x3C40000E, 0x44088100, 0x80800008, 0x700C0002, 0x39100004, 0x11550000, 0xC0000001, 0xC4000010] := by decide +kernel

/-- A comparison of equal values sets Z, clears C and S, and goes on at the next word. -/
theorem test_parse_cmpi : (match exec (.parseCmpi 0 0) (parseSt ⟨.cmpi, 0, 0, 0, 0⟩) with
    | .next t => (t.dev.eng 0 0).map fun x => (x.fl.z, x.fl.c, x.fl.s, x.pc)
    | _ => none) = some (true, false, false, 1) := by decide +kernel

/-- The manual's encodings of the thread instructions: CHSEND 1, x12; PKRECV x10; PKSEND x10, x11. -/
theorem test_thread_words : rvClass 0x02C0002B = .chsend ∧ [rvF7 0x02C0002B, rvRs2 0x02C0002B] = [1, 12] ∧
    rvClass 0x0000452B = .pkrecv ∧ rvRd 0x0000452B = 10 ∧ rvClass 0x00B5602B = .pksend ∧
    [rvRs1 0x00B5602B, rvRs2 0x00B5602B] = [10, 11] := by decide +kernel

/-- The built-in profile: PF1 at offset 1, its VFs at 4–515, PF2 at offset 2, its VFs at 516–1,027. -/
theorem test_vf_offsets : [1, 2, 4, 515, 516, 1027, 1028].map (Dev.reset.funcAt 0) =
    [some (.pf 1), some (.pf 2), some (.vf 1 0), some (.vf 1 511), some (.vf 2 0), some (.vf 2 511), none] := by decide +kernel

/-- The worked meter: four frames of 1,500 bytes at 0, 100, 200 and 400 ns. -/
def meter123 : Meter := { Meter.reset with cir := 1000000, pir := 2000000, cbs := 3000, pbs := 6000, tc := 3000 * tokenUnit, tp := 6000 * tokenUnit }

def meterAt (m : Meter) (now : Nat) : Meter := (m.settle now).debit 1500 ((m.settle now).judge 1500 .green)

theorem test_meter : let m := [0, 300, 600, 900, 1200].foldl meterAt meter123
    (m.tc / tokenUnit, m.tp / tokenUnit, m.greenFrames, m.yellowFrames, m.redFrames) = (50, 100, 2, 2, 1) ∧
    ((m.settle 37200).judge 1500 .green).1 = .green := by decide +kernel

/-- The worked AES-256-GCM context: FIXED 0x0A0B0C0D with COUNTER 0xFFFFFFFFFFFFFFFD. -/
theorem test_gcm_iv : (KeyCtx.iv ⟨overlay (attrOf 0x83E0000C 0) 4 (leBytes 4 0x0A0B0C0D), [], false, true⟩ 0xFFFFFFFFFFFFFFFD) =
    [0x0A, 0x0B, 0x0C, 0x0D, 0xFF, 0xFF, 0xFF, 0xFF, 0xFF, 0xFF, 0xFF, 0xFD] := by decide +kernel

/-- A write of one to the port's enable bit is stored, and the queue's front command is gone. -/
theorem test_step_takes_the_front : (match step { State.reset with pending := [.portEnable .fw 0 0x80000000, .portReset .fw 0 1] } with
    | .next t => t.pending.length
    | _ => 9) = 1 := by decide +kernel

/-- FIPS 202's example: the SHA3-256 digest of the empty message begins a7 ff c6 f8. -/
theorem test_sha3_empty : (sha3 256 []).take 4 = [0xa7#8, 0xff#8, 0xc6#8, 0xf8#8] := by decide +kernel

/-! ### The premises of the statements -/

/-- The premises of RegisterWrites. -/
theorem test_witness_RegisterWrites :
    (∃ (s : State) (dv : Dev) (p : Path) (w : Fin 16777216), Reaches s.dev p dv ∧ ((4 * w.val < 0x100000 ∨ 0x200000 ≤ 4 *
      w.val))) ∧
    (∃ (s : State) (dv : Dev) (p : Path) (w : Fin 16777216), Reaches s.dev p dv ∧ 0x100000 ≤ 4 * w.val ∧ 4 * w.val < 0x200000) ∧
    (∃ (s : State) (p : Path) (w : Fin 16777216), s.dev.alive = true ∧ s.dev.pathOpen p = true ∧ (s.dev.reach p).behind (busKey
      (4 * w)) = true) ∧
    (∃ (s : State) (dv : Dev) (p : Path) (w : Fin 16777216), Reaches s.dev p dv ∧ 4 * w.val < 0x100000 ∧ counterAt (busKey (4 *
      w)) = none ∧ regAt (busKey (4 * w)) = none) ∧
    (∃ (s : State) (p : Path), s.dev.alive = true ∧ s.dev.pathOpen p = false ∧ Dev.pathLink p = none) ∧
    (∃ (s : State) (p : Path) (l : Nat), s.dev.alive = true ∧ s.dev.pathOpen p = false ∧ Dev.pathLink p = some l) ∧
    (∃ (d : Dev) (a : Nat) (wide : Bool), d.absentSub a = false ∧ counterAt a = some (wide, true)) :=
  ⟨⟨State.reset, _, .fw, 0, ⟨by decide +kernel, by decide +kernel, rfl, by decide +kernel, by decide +kernel⟩,
     by decide +kernel⟩,
   ⟨State.reset, _, .fw, 0x40000, ⟨by decide +kernel, by decide +kernel, rfl, by decide +kernel, by decide +kernel⟩,
     by decide +kernel⟩,
   ⟨st fun d => { d with pkg := { d.pkg with severed := [.time] } }, .fw, 0x14000, by decide +kernel⟩,
   ⟨State.reset, _, .fw, 0x3FFFF, ⟨by decide +kernel, by decide +kernel, rfl, by decide +kernel, by decide +kernel⟩,
     by decide +kernel⟩,
   ⟨st fun d => d.setBoot fun b => { b with profile := { b.profile with oobEn := false } }, .oob, by decide +kernel⟩,
   ⟨State.reset, .hif1, 4, by decide +kernel⟩,
   ⟨Dev.reset, GLB_LOCK_VIOL_CNT.addr, GLB_LOCK_VIOL_CNT.wide, by decide +kernel⟩⟩

/-- The premises of FieldWrites. -/
theorem test_witness_FieldWrites :
    (∃ (f : FieldDesc), f.own = false ∧ (f.acc = .ro ∨ f.acc = .wo)) ∧
    (∃ (f : FieldDesc), f.own = false ∧ f.acc = .rw) ∧
    (∃ (f : FieldDesc), f.own = false ∧ f.acc = .w1s) ∧
    (∃ (f : FieldDesc), f.own = false ∧ f.acc = .w1c) ∧
    (∃ (f : FieldDesc) (lk : Bool), f.own = false ∧ f.acc = .rwl ∧ lk = false) ∧
    (∃ (f : FieldDesc) (lk : Bool), f.own = false ∧ f.acc = .rwl ∧ lk = true) ∧
    (∃ (a : Nat) (f : FieldDesc), f.own = false ∧ ∃ b, b ≠ a) :=
  ⟨⟨⟨0, 8, .ro, 0, false, .none⟩, by decide +kernel⟩,
   ⟨⟨0, 8, .rw, 0, false, .none⟩, by decide +kernel⟩,
   ⟨⟨0, 8, .w1s, 0, false, .none⟩, by decide +kernel⟩,
   ⟨⟨0, 8, .w1c, 0, false, .none⟩, by decide +kernel⟩,
   ⟨⟨0, 8, .rwl, 0, false, .none⟩, false, by decide +kernel⟩,
   ⟨⟨0, 8, .rwl, 0, false, .none⟩, true, by decide +kernel⟩,
   ⟨0, ⟨0, 8, .rw, 0, false, .none⟩, by decide +kernel, 4, by decide +kernel⟩⟩

/-- The premises of ReadEffectsAndOwners. -/
theorem test_witness_ReadEffectsAndOwners :
    (∃ (s : State) (dv : Dev) (e : Dev) (p : Path) (w : Fin 16777216), Reaches s.dev p dv ∧ dv.sample (busKey (4 * w)) = e ∧
      e.absentSub (busKey (4 * w)) = false ∧ counterAt (busKey (4 * w)) = some (true, true)) ∧
    (∃ (s : State) (dv : Dev) (e : Dev) (p : Path), Reaches s.dev p dv ∧ dv.sample TIME_NOW_FRAC = e) ∧
    (∃ (s : State) (dv : Dev) (e : Dev) (p : Path), Reaches s.dev p dv ∧ dv.sample TIME_PPS_IN_FRAC = e) ∧
    (∃ (s : State) (r : ViolReport) (rs : List ViolReport), s.dev.alive = true ∧ s.dev.reg.viol = r :: rs ∧ ((∀ c q,
      s.dev.reg.violLast = some (c, q) → c = Dev.nocOf s.dev.cycle → q ≤ r.path.code))) ∧
    (∃ (s : State) (r : ViolReport) (rs : List ViolReport) (q : Nat), s.dev.alive = true ∧ s.dev.reg.viol = r :: rs ∧
      s.dev.reg.violLast = some (Dev.nocOf s.dev.cycle, q) ∧ r.path.code < q) ∧
    (∃ (s : State) (i : Fin 2048) (c : Nat), s.dev.alive = true ∧ s.dev.bumpPending (.saggar i) = true ∧ s.dev.lastBump (.saggar
      i) = some c ∧ c + 48000 ≤ s.dev.cycle) ∧
    (∃ (s : State) (i : Fin 8192) (c : Channel) (m : Flight) (ms : List Flight), s.dev.alive = true ∧ s.dev.channel i = some c ∧
      c.msgs = m :: ms ∧ m.at_ + 3000000 ≤ s.dev.cycle) :=
  ⟨⟨State.reset, _, _, .fw, ⟨(PL_CNT_PARSED 0).addr / 4, by decide⟩, ⟨by decide +kernel, by decide +kernel, rfl,
     by decide +kernel, by decide +kernel⟩, rfl, by decide +kernel⟩,
   ⟨State.reset, _, _, .fw, ⟨by decide +kernel, by decide +kernel, rfl, by decide +kernel, by decide +kernel⟩, rfl⟩,
   ⟨State.reset, _, _, .fw, ⟨by decide +kernel, by decide +kernel, rfl, by decide +kernel, by decide +kernel⟩, rfl⟩,
   ⟨st fun d => { d with reg := { d.reg with viol := [⟨.hif0, 16⟩] } }, ⟨.hif0, 16⟩, [], by decide +kernel, by decide +kernel,
     by intro _ _ h; cases h⟩,
   ⟨st fun d => { d with reg := { d.reg with viol := [⟨.hif0, 16⟩], violLast := some (0, 2) } }, ⟨.hif0, 16⟩, [], 2,
     by decide +kernel⟩,
   ⟨st fun d => { d with cycle := 50000, own := { d.own with last := [((Owner.saggar 0).key, some 0)] } }.put
     (SAG_FIRING_BUMP_PENDING 0) 1, 0, _, by decide +kernel, by decide +kernel, rfl, by decide +kernel⟩,
   ⟨st fun d => { d with cycle := 3000000 }.setChannel 0 (some ⟨false, 0, 0, 1, 0, 0, 7, [⟨5, none, 0⟩], [], [], none⟩), 0, _,
     _, _, by decide +kernel, rfl, rfl, by decide +kernel⟩⟩

/-- The premises of LinkEvents. -/
theorem test_witness_LinkEvents :
    (∃ (s : State) (n : Fin 16) (i : Fin 4) (e : Dev), s.dev.alive = true ∧ s.dev.before (.holdExpired (4 * n.val + i.val)) = e
      ∧ e.rxRuns n i = true ∧ e.flag BOOT_STATUS_GATE_OPEN = true ∧ e.severed (.rx n) = false ∧ e.flag (RAS_LANE_TEST_RUN n) =
      false ∧ e.flag (ETH_SP_STATUS_LINK_UP n i) = false ∧ (e.sub (4 * n.val + i.val)).brokenAt + 30000 ≤ e.cycle) ∧
    (∃ (s : State) (n : Fin 16) (i : Fin 4), s.dev.alive = true ∧ s.dev.rxRuns n i = true) ∧
    (∃ (s : State) (n : Fin 16) (i : Fin 4), s.dev.alive = true ∧ s.dev.rxRuns n i = false) ∧
    (∃ (s : State) (n : Fin 16) (i : Fin 4) (e : Nat), s.dev.alive = true ∧ (s.dev.sub (4 * n.val + i.val)).holdEnds = some e ∧
      e ≤ s.dev.cycle ∧ ((s.dev.flag (ETH_SP_STATUS_LINK_UP n i) = false ∨ s.dev.loopback n = 2))) ∧
    (∃ (s : State) (n : Fin 16) (i : Fin 4) (e : Nat), s.dev.alive = true ∧ (s.dev.sub (4 * n.val + i.val)).flushEnds = some e ∧
      e ≤ s.dev.cycle) ∧
    (∃ (s : State) (n : Fin 16), s.dev.alive = true ∧ ((∀ i < 4, s.dev.flag (ETH_SP_STATUS_LINK_UP n i) = false)) ∧ s.dev.get
      (CLK_RX_SRC_REF n) = 0) :=
  ⟨⟨st fun d => { puts [(ETH_CTRL_ENABLE 0, 1), (CLK_RX_EN_EN, 1), (BOOT_STATUS_GATE_OPEN, 1)] d with cycle := 30000 }, 0, 0, _,
     by decide +kernel, rfl, by decide +kernel⟩,
   ⟨st (puts [(ETH_CTRL_ENABLE 0, 1), (CLK_RX_EN_EN, 1), (BOOT_STATUS_GATE_OPEN, 1)]), 0, 0, by decide +kernel⟩,
   ⟨State.reset, 0, 0, by decide +kernel⟩,
   ⟨st fun d => d.modSub 0 fun x => { x with holdEnds := some 0 }, 0, 0, 0, by decide +kernel⟩,
   ⟨st fun d => d.modSub 0 fun x => { x with flushEnds := some 0 }, 0, 0, 0, by decide +kernel⟩,
   ⟨st (puts [(CLK_RX_SRC_REF 0, 0)]), 0, by decide +kernel⟩⟩

/-- The premises of PortControls. -/
theorem test_witness_PortControls :
    (∃ (s : State) (dv : Dev) (p : Path) (n : Fin 16) (data : W32), Reaches s.dev p dv ∧ dv.marked (.portReset n) = false ∧
      fieldGet data 31 1 = 1) ∧
    (∃ (s : State) (dv : Dev) (p : Path) (n : Fin 16) (data : W32), Reaches s.dev p dv ∧ dv.marked (.portReset n) = false ∧
      fieldGet data 0 1 = 1) ∧
    (∃ (s : State) (dv : Dev) (p : Path) (n : Fin 16) (data : W32), Reaches s.dev p dv ∧ dv.marked (.portReset n) = false ∧
      fieldGet data 0 1 = 0) ∧
    (∃ (s : State) (dv : Dev) (p : Path) (n : Fin 16) (data : W32), Reaches s.dev p dv ∧ dv.marked (.portReset n) = false ∧
    let e := dv.writeFields p (ETH_CTRL n) data
    tabGet (fun _ => none) e.ras.lane n = none) ∧
    (∃ (s : State) (dv : Dev) (p : Path) (n : Fin 16) (data : W32), Reaches s.dev p dv ∧ dv.marked (.portReset n) = false ∧
    let e := dv.writeFields p (ETH_CTRL n) data
    ∃ x, tabGet (fun _ => none) e.ras.lane n = some x) ∧
    (∃ (s : State) (dv : Dev) (p : Path) (n : Fin 16) (data : W32) (row : Instr), Reaches s.dev p dv ∧ dv.marked (.portReset n)
      = true ∧ ((row = .portReset p n data ∨ row = .portEnable p n data ∨ row = .loopbackChange p n data))) :=
  ⟨⟨State.reset, _, .fw, 0, 0x80000000, ⟨by decide +kernel, by decide +kernel, rfl, by decide +kernel, by decide +kernel⟩,
     by decide +kernel⟩,
   ⟨State.reset, _, .fw, 0, 1, ⟨by decide +kernel, by decide +kernel, rfl, by decide +kernel, by decide +kernel⟩,
     by decide +kernel⟩,
   ⟨State.reset, _, .fw, 0, 0, ⟨by decide +kernel, by decide +kernel, rfl, by decide +kernel, by decide +kernel⟩,
     by decide +kernel⟩,
   ⟨State.reset, _, .fw, 0, 0, ⟨by decide +kernel, by decide +kernel, rfl, by decide +kernel, by decide +kernel⟩,
     by decide +kernel, by decide +kernel⟩,
   ⟨st fun d => { d with ras := { d.ras with lane := [(0, some (0, 0))] } }, _, .fw, 0, 0, ⟨by decide +kernel,
     by decide +kernel, rfl, by decide +kernel, by decide +kernel⟩, by decide +kernel, _, rfl⟩,
   ⟨st fun d => d.mark (.portReset 0), _, .fw, 0, 0, .portReset .fw 0 0, ⟨by decide +kernel, by decide +kernel, rfl,
     by decide +kernel, by decide +kernel⟩, by decide +kernel⟩⟩

/-- The premises of PortFrames. -/
theorem test_witness_PortFrames :
    (∃ (s : State) (n : Fin 16) (i : Fin 4) (bytes : List Byte) (bs : List Byte) (lag : Nat) (h : Dev) (e : Dev) (p : Nat) (j :
      Nat) (f : Frame), s.dev.alive = true ∧ 4 * n.val + i.val = p ∧ s.dev.flag (ETH_SP_STATUS_LINK_UP n i) = true ∧ (s.dev.sub
      p).rx = none ∧ s.dev.hears p bytes false = some (bs, h) ∧ 68 ≤ bs.length ∧ h.receive p bs lag = (j, e) ∧ e.frame? j = some
      f ∧ f.stage = .rx ∧ isMacControl f.bytes = false ∧ e.loopback (p / 4) ≠ 2 ∧ e.flag (TIME_PORT_CFG_PTP_EN p) = false ∧
      e.flag (PL_PARSE_CTRL_ENABLE (p / 8)) = true) ∧
    (∃ (s : State) (n : Fin 16) (i : Fin 4) (bytes : List Byte) (bs : List Byte) (h : Dev) (e : Dev) (p : Nat) (j : Nat) (f :
      Frame) (g : Frame), s.dev.alive = true ∧ 4 * n.val + i.val = p ∧ (s.dev.startDue.sub p).rx = some j ∧ s.dev.startDue.hears
      p bytes false = some (bs, h) ∧ s.dev.startDue.frame? j = some f ∧ f.oversize = false ∧ s.dev.startDue.maxFrame p < f.len +
      bs.length ∧ (h.setFrame j { f with bytes := f.bytes ++ bs }).meetAllocation p j = e ∧ e.frame? j = some g) ∧
    (∃ (s : State) (n : Fin 16) (i : Fin 4) (bytes : List Byte) (j : Nat) (q : Nat) (st : Nat) (f : Frame) (g : Frame) (e :
      Dev), s.dev.alive = true ∧ (s.dev.sub (4 * n.val + i.val)).tx = some j ∧ s.dev.frame? j = some f ∧ s.dev.arrive j bytes =
      e ∧ e.frame? j = some g ∧ g.stage = .chosen q st ∧ g.cutThrough = some true ∧ ((256 ≤ g.len ∨ g.ended = true)) ∧ st ≤
      s.dev.cycle) ∧
    (∃ (s : State) (n : Fin 16) (i : Fin 4) (bytes : List Byte) (bs : List Byte) (lag : Nat) (corr : Nat) (uncorr : Nat) (h :
      Dev) (e : Dev) (p : Nat) (j : Nat) (f : Frame), s.dev.alive = true ∧ 4 * n.val + i.val = p ∧ s.dev.flag
      (ETH_SP_STATUS_LINK_UP n i) = true ∧ s.dev.rxRuns n i = true ∧ ((s.dev.bump (ETH_CNT_FEC_CORR_CW n i) corr).bump
      (ETH_CNT_FEC_UNCORR_CW n i) uncorr).startDue.hears p bytes true = some (bs, h) ∧ h.receive p bs lag = (j, e) ∧ e.frame? j
      = some f) ∧
    (∃ (s : State) (n : Fin 16) (i : Fin 4) (e : Dev) (p : Nat) (j : Nat) (q : Nat) (st : Nat) (f : Frame), s.dev.alive = true ∧
      s.dev.startDue = e ∧ 4 * n.val + i.val = p ∧ (e.sub p).tx = some j ∧ e.frame? j = some f ∧ f.stage = .chosen q st ∧
      ((f.ended = true ∨ f.oversize = true)) ∧ (e.sub p).started = true ∧ st + wireCycles (e.acctLen f + 8) (e.rate p) ≤ e.cycle
      ∧ f.src ≠ .firmware) ∧
    (∃ (s : State) (n : Fin 16) (i : Fin 4) (e : Dev) (p : Nat) (j : Nat) (q : Nat) (st : Nat) (f : Frame), s.dev.alive = true ∧
      s.dev.startDue = e ∧ 4 * n.val + i.val = p ∧ (e.sub p).tx = some j ∧ e.frame? j = some f ∧ f.stage = .chosen q st ∧
      ((f.ended = true ∨ f.oversize = true)) ∧ (e.sub p).started = true ∧ st + wireCycles (e.acctLen f + 8) (e.rate p) ≤ e.cycle
      ∧ ∃ o, f.src = .firmware ∧ ptpOffset f.bytes = some o ∧ bitsOf (f.bytes.getD o 0#8).toNat 0 4 < 4) ∧
    (∃ (s : State) (bytes : List Byte), s.dev.alive = true ∧ 64 ≤ bytes.length ∧ bytes.length ≤ 1518 ∧ judgeFcs bytes = .good) :=
  ⟨⟨st fun d => (puts [(ETH_CTRL_ENABLE 0, 1), (CLK_RX_EN_EN, 1), (ETH_SP_STATUS_LINK_UP 0 0, 1), (PL_PARSE_CTRL_ENABLE 0, 1)]
     d), 0, 0, List.replicate 68 0, _, 0, _, _, _, 0, _, by decide +kernel, rfl, by decide +kernel, by decide +kernel, hears_of
     (by decide +kernel), by decide +kernel, pair_of' (by decide +kernel), (Option.some_get (by decide +kernel)).symm,
     by decide +kernel⟩,
   ⟨st fun d => (d.setFrame 0 { fr 100 .rx with ended := false }).modSub 0 fun x => { x with rx := some 0 }, 0, 0,
     List.replicate 20000 0, _, _, _, _, 0, _, _, by decide +kernel, rfl, by decide +kernel, hears_of (by decide +kernel),
     (Option.some_get (by decide +kernel)).symm, by decide +kernel, by decide +kernel, rfl, (Option.some_get
     (by decide +kernel)).symm⟩,
   ⟨st fun d => (d.setFrame 0 { fr 100 (.chosen 0 0) with cutThrough := some true }).modSub 0 fun x => { x with tx := some 0 },
     0, 0, [], 0, 0, 0, _, _, _, by decide +kernel, by decide +kernel, (Option.some_get (by decide +kernel)).symm, rfl,
     (Option.some_get (by decide +kernel)).symm, by decide +kernel⟩,
   ⟨st fun d => (puts [(ETH_CTRL_ENABLE 0, 1), (CLK_RX_EN_EN, 1), (ETH_SP_STATUS_LINK_UP 0 0, 1), (PL_PARSE_CTRL_ENABLE 0, 1)]
     d), 0, 0, List.replicate 68 0, _, 0, 0, 0, _, _, _, 0, _, by decide +kernel, rfl, by decide +kernel, by decide +kernel,
     hears_of (by decide +kernel), pair_of' (by decide +kernel), (Option.some_get (by decide +kernel)).symm⟩,
   ⟨st fun d => ({ d with cycle := 1000 }.setFrame 0 (fr 100 (.chosen 0 0))).modSub 0 fun x =>
     { x with tx := some 0, started := true }, 0, 0, _, _, 0, 0, 0, _, by decide +kernel, rfl, rfl, by decide +kernel,
     (Option.some_get (by decide +kernel)).symm, by decide +kernel⟩,
   ⟨st fun d => ({ d with cycle := 1000 }.setFrame 0 { fr 100 (.chosen 0 0) with src := .firmware, bytes := ptpFrame }).modSub 0
     fun x => { x with tx := some 0, started := true }, 0, 0, _, _, 0, 0, 0, _, by decide +kernel, rfl, rfl, by decide +kernel,
     (Option.some_get (by decide +kernel)).symm, by decide +kernel, by decide +kernel, by decide +kernel, by decide +kernel, 14,
     by decide +kernel⟩,
   ⟨State.reset, withFcs false (List.replicate 60 0), by decide +kernel⟩⟩

/-- The premises of ParseInstructions. -/
theorem test_witness_ParseInstructions :
    (∃ (s : State) (k : Fin 8) (e : Fin 64) (x : Engine) (i : PInstr), s.dev.alive = true ∧ s.dev.nextInstr k e = some (x, i) ∧
      x.pc ≠ 0xFFF ∧ i.op = .add) ∧
    (∃ (s : State) (k : Fin 8) (e : Fin 64) (x : Engine) (i : PInstr), s.dev.alive = true ∧ s.dev.nextInstr k e = some (x, i) ∧
      x.pc ≠ 0xFFF ∧ i.op = .addi) ∧
    (∃ (s : State) (k : Fin 8) (e : Fin 64) (x : Engine) (i : PInstr), s.dev.alive = true ∧ s.dev.nextInstr k e = some (x, i) ∧
      x.pc ≠ 0xFFF ∧ i.op = .sub) ∧
    (∃ (s : State) (k : Fin 8) (e : Fin 64) (x : Engine) (i : PInstr), s.dev.alive = true ∧ s.dev.nextInstr k e = some (x, i) ∧
      x.pc ≠ 0xFFF ∧ i.op = .subi) ∧
    (∃ (s : State) (k : Fin 8) (e : Fin 64) (x : Engine) (i : PInstr), s.dev.alive = true ∧ s.dev.nextInstr k e = some (x, i) ∧
      x.pc ≠ 0xFFF ∧ i.op = .and) ∧
    (∃ (s : State) (k : Fin 8) (e : Fin 64) (x : Engine) (i : PInstr), s.dev.alive = true ∧ s.dev.nextInstr k e = some (x, i) ∧
      x.pc ≠ 0xFFF ∧ i.op = .andi) ∧
    (∃ (s : State) (k : Fin 8) (e : Fin 64) (x : Engine) (i : PInstr), s.dev.alive = true ∧ s.dev.nextInstr k e = some (x, i) ∧
      x.pc ≠ 0xFFF ∧ i.op = .or) ∧
    (∃ (s : State) (k : Fin 8) (e : Fin 64) (x : Engine) (i : PInstr), s.dev.alive = true ∧ s.dev.nextInstr k e = some (x, i) ∧
      x.pc ≠ 0xFFF ∧ i.op = .ori) ∧
    (∃ (s : State) (k : Fin 8) (e : Fin 64) (x : Engine) (i : PInstr), s.dev.alive = true ∧ s.dev.nextInstr k e = some (x, i) ∧
      x.pc ≠ 0xFFF ∧ i.op = .xor) ∧
    (∃ (s : State) (k : Fin 8) (e : Fin 64) (x : Engine) (i : PInstr), s.dev.alive = true ∧ s.dev.nextInstr k e = some (x, i) ∧
      x.pc ≠ 0xFFF ∧ i.op = .xori) ∧
    (∃ (s : State) (k : Fin 8) (e : Fin 64) (x : Engine) (i : PInstr), s.dev.alive = true ∧ s.dev.nextInstr k e = some (x, i) ∧
      x.pc ≠ 0xFFF ∧ i.op = .shl) ∧
    (∃ (s : State) (k : Fin 8) (e : Fin 64) (x : Engine) (i : PInstr), s.dev.alive = true ∧ s.dev.nextInstr k e = some (x, i) ∧
      x.pc ≠ 0xFFF ∧ i.op = .shli) ∧
    (∃ (s : State) (k : Fin 8) (e : Fin 64) (x : Engine) (i : PInstr), s.dev.alive = true ∧ s.dev.nextInstr k e = some (x, i) ∧
      x.pc ≠ 0xFFF ∧ i.op = .shr) ∧
    (∃ (s : State) (k : Fin 8) (e : Fin 64) (x : Engine) (i : PInstr), s.dev.alive = true ∧ s.dev.nextInstr k e = some (x, i) ∧
      x.pc ≠ 0xFFF ∧ i.op = .shri) ∧
    (∃ (s : State) (k : Fin 8) (e : Fin 64) (x : Engine) (i : PInstr), s.dev.alive = true ∧ s.dev.nextInstr k e = some (x, i) ∧
      x.pc ≠ 0xFFF ∧ i.op = .movi) ∧
    (∃ (s : State) (k : Fin 8) (e : Fin 64) (x : Engine) (i : PInstr), s.dev.alive = true ∧ s.dev.nextInstr k e = some (x, i) ∧
      x.pc ≠ 0xFFF ∧ i.op = .cmp) ∧
    (∃ (s : State) (k : Fin 8) (e : Fin 64) (x : Engine) (i : PInstr), s.dev.alive = true ∧ s.dev.nextInstr k e = some (x, i) ∧
      x.pc ≠ 0xFFF ∧ i.op = .cmpi) ∧
    (∃ (s : State) (k : Fin 8) (e : Fin 64) (x : Engine) (i : PInstr), s.dev.alive = true ∧ s.dev.nextInstr k e = some (x, i) ∧
      x.pc ≠ 0xFFF ∧ i.op = .tsti) ∧
    (∃ (s : State) (k : Fin 8) (e : Fin 64) (x : Engine) (i : PInstr), s.dev.alive = true ∧ s.dev.nextInstr k e = some (x, i) ∧
      x.pc ≠ 0xFFF ∧ i.op = .nop) ∧
    (∃ (s : State) (k : Fin 8) (e : Fin 64) (x : Engine) (i : PInstr), s.dev.alive = true ∧ s.dev.nextInstr k e = some (x, i) ∧
      x.pc ≠ 0xFFF ∧ x.stalledFrom = none ∧
    let a := x.rd i.ra
    i.op = .ldb ∧ ∃ f, s.dev.frame? x.frame = some f ∧ Dev.loadCase f (a.toNat + i.imm) = .ready) ∧
    (∃ (s : State) (k : Fin 8) (e : Fin 64) (x : Engine) (i : PInstr), s.dev.alive = true ∧ s.dev.nextInstr k e = some (x, i) ∧
      x.pc ≠ 0xFFF ∧ x.stalledFrom = none ∧
    let a := x.rd i.ra
    i.op = .ldh ∧ ∃ f, s.dev.frame? x.frame = some f ∧ Dev.loadCase f (a.toNat + i.imm + 1) = .ready) ∧
    (∃ (s : State) (k : Fin 8) (e : Fin 64) (x : Engine) (i : PInstr), s.dev.alive = true ∧ s.dev.nextInstr k e = some (x, i) ∧
      x.pc ≠ 0xFFF ∧ x.stalledFrom = none ∧ i.op = .ext) ∧
    (∃ (s : State) (k : Fin 8) (e : Fin 64) (x : Engine) (i : PInstr), s.dev.alive = true ∧ s.dev.nextInstr k e = some (x, i) ∧
      x.pc ≠ 0xFFF ∧ x.stalledFrom = none ∧ i.op = .gets ∧ i.imm = 1) ∧
    (∃ (s : State) (k : Fin 8) (e : Fin 64) (x : Engine) (i : PInstr), s.dev.alive = true ∧ s.dev.nextInstr k e = some (x, i) ∧
      x.pc ≠ 0xFFF ∧ x.stalledFrom = none ∧ i.op = .gets ∧ i.imm = 0 ∧ ∃ f p, s.dev.frame? x.frame = some f ∧ f.src = .port p) ∧
    (∃ (s : State) (k : Fin 8) (e : Fin 64) (x : Engine) (i : PInstr), s.dev.alive = true ∧ s.dev.nextInstr k e = some (x, i) ∧
      x.pc ≠ 0xFFF ∧ x.stalledFrom = none ∧ i.op = .gets ∧ i.imm = 2) ∧
    (∃ (s : State) (k : Fin 8) (e : Fin 64) (x : Engine) (i : PInstr), s.dev.alive = true ∧ s.dev.nextInstr k e = some (x, i) ∧
      x.pc ≠ 0xFFF ∧ x.stalledFrom = none ∧ i.op = .gets ∧ i.imm = 3) ∧
    (∃ (s : State) (k : Fin 8) (e : Fin 64) (x : Engine) (i : PInstr), s.dev.alive = true ∧ s.dev.nextInstr k e = some (x, i) ∧
      x.pc ≠ 0xFFF ∧ x.stalledFrom = none ∧ i.op = .st) ∧
    (∃ (s : State) (k : Fin 8) (e : Fin 64) (x : Engine) (i : PInstr), s.dev.alive = true ∧ s.dev.nextInstr k e = some (x, i) ∧
      x.pc ≠ 0xFFF ∧ x.stalledFrom = none ∧ i.op = .sti) ∧
    (∃ (s : State) (k : Fin 8) (e : Fin 64) (x : Engine) (i : PInstr), s.dev.alive = true ∧ s.dev.nextInstr k e = some (x, i) ∧
      x.pc ≠ 0xFFF ∧ x.stalledFrom = none ∧ i.op = .b ∧ condHolds x.fl i.rd = true) ∧
    (∃ (s : State) (k : Fin 8) (e : Fin 64) (x : Engine) (i : PInstr), s.dev.alive = true ∧ s.dev.nextInstr k e = some (x, i) ∧
      x.pc ≠ 0xFFF ∧ x.stalledFrom = none ∧ i.op = .b ∧ condHolds x.fl i.rd = false) ∧
    (∃ (s : State) (k : Fin 8) (e : Fin 64) (x : Engine) (i : PInstr), s.dev.alive = true ∧ s.dev.nextInstr k e = some (x, i) ∧
      x.pc ≠ 0xFFF ∧ x.stalledFrom = none ∧ i.op = .setx) ∧
    (∃ (s : State) (k : Fin 8) (e : Fin 64) (x : Engine) (i : PInstr), s.dev.alive = true ∧ s.dev.nextInstr k e = some (x, i) ∧
      x.pc ≠ 0xFFF ∧ x.stalledFrom = none ∧ i.op = .clrx) ∧
    (∃ (s : State) (k : Fin 8) (e : Fin 64) (x : Engine) (i : PInstr), s.dev.alive = true ∧ s.dev.nextInstr k e = some (x, i) ∧
      x.pc ≠ 0xFFF ∧ x.stalledFrom = none ∧ i.op = .done) ∧
    (∃ (s : State) (k : Fin 8) (e : Fin 64) (x : Engine) (i : PInstr), s.dev.alive = true ∧ s.dev.nextInstr k e = some (x, i) ∧
      x.pc ≠ 0xFFF ∧ x.stalledFrom = none ∧ i.op = .reject) :=
  ⟨⟨parseSt ⟨.add, 1, 2, 3, 0⟩, 0, 0, Engine.start 0 0 0, ⟨.add, 1, 2, 3, 0⟩, by decide +kernel⟩,
   ⟨parseSt ⟨.addi, 1, 2, 0, 5⟩, 0, 0, Engine.start 0 0 0, ⟨.addi, 1, 2, 0, 5⟩, by decide +kernel⟩,
   ⟨parseSt ⟨.sub, 1, 2, 3, 0⟩, 0, 0, Engine.start 0 0 0, ⟨.sub, 1, 2, 3, 0⟩, by decide +kernel⟩,
   ⟨parseSt ⟨.subi, 1, 2, 0, 5⟩, 0, 0, Engine.start 0 0 0, ⟨.subi, 1, 2, 0, 5⟩, by decide +kernel⟩,
   ⟨parseSt ⟨.and, 1, 2, 3, 0⟩, 0, 0, Engine.start 0 0 0, ⟨.and, 1, 2, 3, 0⟩, by decide +kernel⟩,
   ⟨parseSt ⟨.andi, 1, 2, 0, 5⟩, 0, 0, Engine.start 0 0 0, ⟨.andi, 1, 2, 0, 5⟩, by decide +kernel⟩,
   ⟨parseSt ⟨.or, 1, 2, 3, 0⟩, 0, 0, Engine.start 0 0 0, ⟨.or, 1, 2, 3, 0⟩, by decide +kernel⟩,
   ⟨parseSt ⟨.ori, 1, 2, 0, 5⟩, 0, 0, Engine.start 0 0 0, ⟨.ori, 1, 2, 0, 5⟩, by decide +kernel⟩,
   ⟨parseSt ⟨.xor, 1, 2, 3, 0⟩, 0, 0, Engine.start 0 0 0, ⟨.xor, 1, 2, 3, 0⟩, by decide +kernel⟩,
   ⟨parseSt ⟨.xori, 1, 2, 0, 5⟩, 0, 0, Engine.start 0 0 0, ⟨.xori, 1, 2, 0, 5⟩, by decide +kernel⟩,
   ⟨parseSt ⟨.shl, 1, 2, 3, 0⟩, 0, 0, Engine.start 0 0 0, ⟨.shl, 1, 2, 3, 0⟩, by decide +kernel⟩,
   ⟨parseSt ⟨.shli, 1, 2, 0, 5⟩, 0, 0, Engine.start 0 0 0, ⟨.shli, 1, 2, 0, 5⟩, by decide +kernel⟩,
   ⟨parseSt ⟨.shr, 1, 2, 3, 0⟩, 0, 0, Engine.start 0 0 0, ⟨.shr, 1, 2, 3, 0⟩, by decide +kernel⟩,
   ⟨parseSt ⟨.shri, 1, 2, 0, 5⟩, 0, 0, Engine.start 0 0 0, ⟨.shri, 1, 2, 0, 5⟩, by decide +kernel⟩,
   ⟨parseSt ⟨.movi, 1, 0, 0, 5⟩, 0, 0, Engine.start 0 0 0, ⟨.movi, 1, 0, 0, 5⟩, by decide +kernel⟩,
   ⟨parseSt ⟨.cmp, 0, 2, 3, 0⟩, 0, 0, Engine.start 0 0 0, ⟨.cmp, 0, 2, 3, 0⟩, by decide +kernel⟩,
   ⟨parseSt ⟨.cmpi, 0, 2, 0, 5⟩, 0, 0, Engine.start 0 0 0, ⟨.cmpi, 0, 2, 0, 5⟩, by decide +kernel⟩,
   ⟨parseSt ⟨.tsti, 0, 2, 0, 5⟩, 0, 0, Engine.start 0 0 0, ⟨.tsti, 0, 2, 0, 5⟩, by decide +kernel⟩,
   ⟨parseSt ⟨.nop, 0, 0, 0, 0⟩, 0, 0, Engine.start 0 0 0, ⟨.nop, 0, 0, 0, 0⟩, by decide +kernel⟩,
   ⟨parseSt ⟨.ldb, 1, 0, 0, 0⟩, 0, 0, Engine.start 0 0 0, ⟨.ldb, 1, 0, 0, 0⟩, by decide +kernel, by decide +kernel,
     by decide +kernel, by decide +kernel, by decide +kernel, fr 100 .parse, by decide +kernel⟩,
   ⟨parseSt ⟨.ldh, 1, 0, 0, 0⟩, 0, 0, Engine.start 0 0 0, ⟨.ldh, 1, 0, 0, 0⟩, by decide +kernel, by decide +kernel,
     by decide +kernel, by decide +kernel, by decide +kernel, fr 100 .parse, by decide +kernel⟩,
   ⟨parseSt ⟨.ext, 1, 2, 0, 3⟩, 0, 0, Engine.start 0 0 0, ⟨.ext, 1, 2, 0, 3⟩, by decide +kernel⟩,
   ⟨parseSt ⟨.gets, 1, 0, 0, 1⟩, 0, 0, Engine.start 0 0 0, ⟨.gets, 1, 0, 0, 1⟩, by decide +kernel⟩,
   ⟨parseSt ⟨.gets, 1, 0, 0, 0⟩, 0, 0, Engine.start 0 0 0, ⟨.gets, 1, 0, 0, 0⟩, by decide +kernel, by decide +kernel,
     by decide +kernel, by decide +kernel, by decide +kernel, by decide +kernel, fr 100 .parse, 0, by decide +kernel⟩,
   ⟨parseSt ⟨.gets, 1, 0, 0, 2⟩, 0, 0, Engine.start 0 0 0, ⟨.gets, 1, 0, 0, 2⟩, by decide +kernel⟩,
   ⟨parseSt ⟨.gets, 1, 0, 0, 3⟩, 0, 0, Engine.start 0 0 0, ⟨.gets, 1, 0, 0, 3⟩, by decide +kernel⟩,
   ⟨parseSt ⟨.st, 0, 1, 0, 2⟩, 0, 0, Engine.start 0 0 0, ⟨.st, 0, 1, 0, 2⟩, by decide +kernel⟩,
   ⟨parseSt ⟨.sti, 2, 0, 0, 5⟩, 0, 0, Engine.start 0 0 0, ⟨.sti, 2, 0, 0, 5⟩, by decide +kernel⟩,
   ⟨parseSt ⟨.b, 0, 0, 0, 5⟩, 0, 0, Engine.start 0 0 0, ⟨.b, 0, 0, 0, 5⟩, by decide +kernel⟩,
   ⟨parseSt ⟨.b, 1, 0, 0, 5⟩, 0, 0, Engine.start 0 0 0, ⟨.b, 1, 0, 0, 5⟩, by decide +kernel⟩,
   ⟨parseSt ⟨.setx, 0, 0, 0, 0⟩, 0, 0, Engine.start 0 0 0, ⟨.setx, 0, 0, 0, 0⟩, by decide +kernel⟩,
   ⟨parseSt ⟨.clrx, 0, 0, 0, 0⟩, 0, 0, Engine.start 0 0 0, ⟨.clrx, 0, 0, 0, 0⟩, by decide +kernel⟩,
   ⟨parseSt ⟨.done, 0, 0, 0, 1⟩, 0, 0, Engine.start 0 0 0, ⟨.done, 0, 0, 0, 1⟩, by decide +kernel⟩,
   ⟨parseSt ⟨.reject, 0, 0, 0, 1⟩, 0, 0, Engine.start 0 0 0, ⟨.reject, 0, 0, 0, 1⟩, by decide +kernel⟩⟩

/-- The premises of ParseRows. -/
theorem test_witness_ParseRows :
    (∃ (s : State) (k : Fin 8) (e : Fin 64) (x : Engine), s.dev.alive = true ∧ s.dev.eng k e = some x ∧ x.stalledFrom = none ∧
      x.nextAt ≤ s.dev.cycle ∧ x.n < s.dev.get (PL_PARSE_CTRL_BUDGET k) ∧ s.dev.imemIsBad k x.pc = false ∧ decodeParse
      (s.dev.fetchWord k x.pc) = none) ∧
    (∃ (s : State) (k : Fin 8) (e : Fin 64) (x : Engine), s.dev.alive = true ∧ s.dev.eng k e = some x ∧ x.stalledFrom = none ∧
      x.nextAt ≤ s.dev.cycle ∧ x.n < s.dev.get (PL_PARSE_CTRL_BUDGET k) ∧ s.dev.imemIsBad k x.pc = true) ∧
    (∃ (s : State) (k : Fin 8) (e : Fin 64) (x : Engine), s.dev.alive = true ∧ s.dev.eng k e = some x ∧ x.stalledFrom = none ∧
      x.nextAt ≤ s.dev.cycle + 1 ∧ s.dev.get (PL_PARSE_CTRL_BUDGET k) ≤ x.n) ∧
    (∃ (s : State) (k : Fin 8) (e : Fin 64) (x : Engine) (c : Nat) (w : W32) (i : PInstr), s.dev.alive = true ∧ s.dev.eng k e =
      some x ∧ x.stalledFrom = some (c, w) ∧ decodeParse w = some i) ∧
    (∃ (s : State) (k : Fin 8) (q : List Nat) (i : Nat) (e : Nat), s.dev.alive = true ∧ (s.dev.pst k).queue = i :: q ∧
      s.dev.freeEngine k = some e) ∧
    (∃ (s : State) (k : Fin 8) (bytes : List Byte) (rest : List Nat) (i : Nat) (r : DoneRec) (f : Frame) (e : Dev), s.dev.alive
      = true ∧ (s.dev.pst k).order = i :: rest ∧ s.dev.arrive i bytes = e ∧ (e.pst k).done = [(i, r)] ∧ e.frame? i = some f ∧
      ((f.ended = true ∨ 256 < f.len)) ∧ f.stage ≠ .dead ∧ r.readyAt ≤ e.cycle) ∧
    (∃ (s : State) (dv : Dev) (p : Path) (k : Fin 8) (data : W32), Reaches s.dev p dv ∧ fieldGet data 0 1 = 1 ∧ (dv.writeFields
      p (PL_PARSE_CTRL k) data).flag BOOT_STATUS_VERIFIED = true) ∧
    (∃ (s : State) (dv : Dev) (p : Path) (k : Fin 8) (data : W32), Reaches s.dev p dv ∧ fieldGet data 0 1 = 1 ∧ (dv.writeFields
      p (PL_PARSE_CTRL k) data).flag BOOT_STATUS_VERIFIED = false) :=
  ⟨⟨st fun d => { puts [(⟨PL_IMEM 0 0, 0, 32⟩, 0xFC000000)] d with cycle := 100 }.setEng 0 0 (some (Engine.start 0 0 0)), 0, 0,
     _, by decide +kernel, rfl, by decide +kernel⟩,
   ⟨st fun d => ({ d with cycle := 100 }.setEng 0 0 (some (Engine.start 0 0 0))).setPst 0
     { ParseState.reset with imemBad := [0], engines := [(0, some (Engine.start 0 0 0))] }, 0, 0, _, by decide +kernel, rfl,
     by decide +kernel⟩,
   ⟨st fun d => { d with cycle := 100 }.setEng 0 0 (some { Engine.start 0 0 0 with n := 600 }), 0, 0, _, by decide +kernel, rfl,
     by decide +kernel⟩,
   ⟨st fun d => (d.setFrame 0 { fr 100 .parse with ended := false }).setEng 0 0 (some
     { Engine.start 0 0 0 with stalledFrom := some (0, 0) }), 0, 0, _, _, _, _, by decide +kernel, rfl, rfl, rfl⟩,
   ⟨st fun d => { d with parse := [(0, { ParseState.reset with queue := [3] })] }, 0, _, _, _, by decide +kernel, rfl, rfl⟩,
   ⟨st fun d =>
     { d.setFrame 3 (fr 100 .parse) with cycle := 28, parse := [(0, { ParseState.reset with order := [3], done := [(3, ⟨Vector.replicate 32 0, none, 0, 1, 0, 28⟩)] })] },
     0, [], [], 3, ⟨Vector.replicate 32 0, none, 0, 1, 0, 28⟩, fr 100 .parse, _, by decide +kernel, by decide +kernel, rfl,
     by decide +kernel⟩,
   ⟨st (puts [(BOOT_STATUS_VERIFIED, 1)]), _, .fw, 0, 1, ⟨by decide +kernel, by decide +kernel, rfl, by decide +kernel,
     by decide +kernel⟩, by decide +kernel⟩,
   ⟨State.reset, _, .fw, 0, 1, ⟨by decide +kernel, by decide +kernel, rfl, by decide +kernel, by decide +kernel⟩,
     by decide +kernel⟩⟩

/-- The premises of ParseEncodingRoundTrip. -/
theorem test_witness_ParseEncodingRoundTrip :
    (∃ i : PInstr, i.wf = true) ∧
    (∃ (w : W32) (i : PInstr), decodeParse w = some i) :=
  ⟨⟨⟨.add, 1, 2, 3, 0⟩, by decide +kernel⟩,
   ⟨0x04400000, _, rfl⟩⟩

/-- The premises of ExactMatchCommands. -/
theorem test_witness_ExactMatchCommands :
    (∃ (s : State) (g : Fin 4096) (j : Job) (t : Dev), s.dev.alive = true ∧ tblReady s.dev g 0x01 j ∧ tblTaken s.dev j = t ∧
    let key := sliceB j.block 16 16
    let ctl := fieldLE j.block 32 8
    let ent : EmEntry := { key := key, ctl := 2 ^ 63 + actionBits ctl + ownerOf ctl * 2 ^ 21, stamp := 0 }
    ∃ w, t.emFind key = none ∧ t.atQuota (ownerOf ent.ctl) = false ∧ ((List.range 4).find? fun w => !(t.emEnt (4 * t.bucketNo
      key + w)).valid) = some w) ∧
    (∃ (s : State) (g : Fin 4096) (j : Job) (t : Dev), s.dev.alive = true ∧ tblReady s.dev g 0x01 j ∧ tblTaken s.dev j = t ∧
    let key := sliceB j.block 16 16
    let ctl := fieldLE j.block 32 8
    let ent : EmEntry := { key := key, ctl := 2 ^ 63 + actionBits ctl + ownerOf ctl * 2 ^ 21, stamp := 0 }
    ∃ i, t.emFind key = none ∧ t.atQuota (ownerOf ent.ctl) = false ∧ ((List.range 4).find? fun w => !(t.emEnt (4 * t.bucketNo
      key + w)).valid) = none ∧ ((List.range 8192).find? fun i => !(t.ovfEnt i).valid) = some i) ∧
    (∃ (s : State) (g : Fin 4096) (j : Job) (t : Dev), s.dev.alive = true ∧ tblReady s.dev g 0x01 j ∧ tblTaken s.dev j = t ∧
    let key := sliceB j.block 16 16
    ∃ loc, t.emFind key = some loc ∧ bitOf (fieldLE j.block 1 1) 0 = false) ∧
    (∃ (s : State) (g : Fin 4096) (j : Job) (t : Dev), s.dev.alive = true ∧ tblReady s.dev g 0x01 j ∧ tblTaken s.dev j = t ∧
    let key := sliceB j.block 16 16
    let ctl := fieldLE j.block 32 8
    let ent : EmEntry := { key := key, ctl := 2 ^ 63 + actionBits ctl + ownerOf ctl * 2 ^ 21, stamp := 0 }
    ∃ loc, t.emFind key = some loc ∧ bitOf (fieldLE j.block 1 1) 0 = true ∧ ownerOf (t.locEnt loc).ctl = ownerOf ent.ctl) ∧
    (∃ (s : State) (g : Fin 4096) (j : Job) (t : Dev), s.dev.alive = true ∧ tblReady s.dev g 0x02 j ∧ tblTaken s.dev j = t ∧ ∃
      i, t.emFind (sliceB j.block 16 16) = some (true, i)) ∧
    (∃ (s : State) (g : Fin 4096) (j : Job) (t : Dev), s.dev.alive = true ∧ tblReady s.dev g 0x02 j ∧ tblTaken s.dev j = t ∧
    let free := fun (e : EmEntry) => { e with ctl := withBit e.ctl 63 false }
    ∃ i u, t.emFind (sliceB j.block 16 16) = some (false, i) ∧ t.setLoc (false, i) (free (t.emEnt i)) = u ∧ (u.tbl.ovf.find? fun
      kv => kv.2.valid && u.bucketNo kv.2.key == i / 4) = none) ∧
    (∃ (s : State) (g : Fin 4096) (j : Job) (t : Dev), s.dev.alive = true ∧ tblReady s.dev g 0x02 j ∧ tblTaken s.dev j = t ∧
    let free := fun (e : EmEntry) => { e with ctl := withBit e.ctl 63 false }
    ∃ i u o e, t.emFind (sliceB j.block 16 16) = some (false, i) ∧ t.setLoc (false, i) (free (t.emEnt i)) = u ∧ (u.tbl.ovf.find?
      fun kv => kv.2.valid && u.bucketNo kv.2.key == i / 4) = some (o, e)) ∧
    (∃ (s : State) (g : Fin 4096) (j : Job) (loc : Bool × Nat), s.dev.alive = true ∧ tblReady s.dev g 0x03 j ∧ (tblTaken s.dev
      j).emFind (sliceB j.block 16 16) = some loc) ∧
    (∃ (s : State) (g : Fin 4096) (j : Job) (loc : Bool × Nat), s.dev.alive = true ∧ tblReady s.dev g 0x04 j ∧ loc = (bitOf
      (fieldLE j.block 4 4) 31, bitsOf (fieldLE j.block 4 4) 0 20)) ∧
    (∃ (s : State) (g : Fin 4096) (j : Job) (loc : Bool × Nat), s.dev.alive = true ∧ tblReady s.dev g 0x05 j ∧ (tblTaken s.dev
      j).emFind (sliceB j.block 16 16) = some loc) :=
  ⟨⟨tblSt id (tJob 1 []), 0, (tJob 1 []), _, by decide +kernel, by unfold tblReady; decide +kernel, rfl, 0, by decide +kernel⟩,
   ⟨tblSt (fun t =>
     { t with em := (List.range 4).map fun w => (4 * Dev.reset.bucketNo (List.replicate 16 0) + w, ⟨List.replicate 16 1, 2 ^ 63, 0⟩) })
     (tJob 1 []), 0, (tJob 1 []), _, by decide +kernel, by unfold tblReady; decide +kernel, rfl, 0, by decide +kernel⟩,
   ⟨tblSt (fun t => { t with em := [(4 * Dev.reset.bucketNo (List.replicate 16 0), ⟨List.replicate 16 0, 2 ^ 63, 0⟩)] }) (tJob 1
     []), 0, (tJob 1 []), _, by decide +kernel, by unfold tblReady; decide +kernel, rfl, (false, 4 * Dev.reset.bucketNo
     (List.replicate 16 0)), by decide +kernel⟩,
   ⟨tblSt (fun t => { t with em := [(4 * Dev.reset.bucketNo (List.replicate 16 0), ⟨List.replicate 16 0, 2 ^ 63, 0⟩)] }) (tJob 1
     [(1, 1, 1)]), 0, (tJob 1 [(1, 1, 1)]), _, by decide +kernel, by unfold tblReady; decide +kernel, rfl, (false, 4 *
     Dev.reset.bucketNo (List.replicate 16 0)), by decide +kernel⟩,
   ⟨tblSt (fun t => { t with ovf := [(5, ⟨List.replicate 16 0, 2 ^ 63, 0⟩)] }) (tJob 2 []), 0, (tJob 2 []), _,
     by decide +kernel, by unfold tblReady; decide +kernel, rfl, 5, by decide +kernel⟩,
   ⟨tblSt (fun t => { t with em := [(4 * Dev.reset.bucketNo (List.replicate 16 0), ⟨List.replicate 16 0, 2 ^ 63, 0⟩)] }) (tJob 2
     []), 0, (tJob 2 []), _, by decide +kernel, by unfold tblReady; decide +kernel, rfl, 4 * Dev.reset.bucketNo (List.replicate
     16 0), _, by decide +kernel, rfl, by decide +kernel⟩,
   ⟨tblSt (fun t =>
     { t with em := [(4 * Dev.reset.bucketNo (List.replicate 16 0), ⟨List.replicate 16 0, 2 ^ 63, 0⟩)], ovf := [(5, ⟨beBytes 16 424752, 2 ^ 63, 0⟩)] })
     (tJob 2 []), 0, (tJob 2 []), _, by decide +kernel, by unfold tblReady; decide +kernel, rfl, 4 * Dev.reset.bucketNo
     (List.replicate 16 0), _, 5, ⟨beBytes 16 424752, 2 ^ 63, 0⟩, by decide +kernel, rfl, by decide +kernel⟩,
   ⟨tblSt (fun t => { t with em := [(4 * Dev.reset.bucketNo (List.replicate 16 0), ⟨List.replicate 16 0, 2 ^ 63, 0⟩)] }) (tJob 3
     []), 0, (tJob 3 []), (false, 4 * Dev.reset.bucketNo (List.replicate 16 0)), by decide +kernel,
     by unfold tblReady; decide +kernel, by decide +kernel⟩,
   ⟨tblSt id (tJob 4 []), 0, (tJob 4 []), (false, 0), by decide +kernel, by unfold tblReady; decide +kernel, by decide +kernel⟩,
   ⟨tblSt (fun t => { t with em := [(4 * Dev.reset.bucketNo (List.replicate 16 0), ⟨List.replicate 16 0, 2 ^ 63, 0⟩)] }) (tJob 5
     []), 0, (tJob 5 []), (false, 4 * Dev.reset.bucketNo (List.replicate 16 0)), by decide +kernel,
     by unfold tblReady; decide +kernel, by decide +kernel⟩⟩

/-- The premises of LpmAndRuleCommands. -/
theorem test_witness_LpmAndRuleCommands :
    (∃ (s : State) (g : Fin 4096) (j : Job), s.dev.alive = true ∧ tblReady s.dev g 0x10 j) ∧
    (∃ (s : State) (g : Fin 4096) (j : Job), s.dev.alive = true ∧ tblReady s.dev g 0x11 j ∧ (s.dev.lpmEnt (fieldLE j.block 4
      4)).valid = true ∧ ((Dev.covers (s.dev.lpmEnt (fieldLE j.block 4 4)) (fieldLE j.block 8 4)).all (tblTaken s.dev
      j).slotFree) = true) ∧
    (∃ (s : State) (g : Fin 4096) (j : Job) (i : Nat), s.dev.alive = true ∧ tblReady s.dev g 0x12 j ∧ (s.dev.wideOver (fieldLE
      j.block 4 4)).getD (fieldLE j.block 4 4) = i) ∧
    (∃ (s : State) (g : Fin 4096) (j : Job) (i : Nat), s.dev.alive = true ∧ tblReady s.dev g 0x13 j ∧ (s.dev.wideOver (fieldLE
      j.block 4 4)).getD (fieldLE j.block 4 4) = i) ∧
    (∃ (s : State) (g : Fin 4096) (j : Job), s.dev.alive = true ∧ tblReady s.dev g 0x20 j ∧ bitOf (fieldLE j.block 1 1) 1 =
      false) ∧
    (∃ (s : State) (g : Fin 4096) (j : Job), s.dev.alive = true ∧ tblReady s.dev g 0x20 j ∧ bitOf (fieldLE j.block 1 1) 1 =
      true) ∧
    (∃ (s : State) (g : Fin 4096) (j : Job), s.dev.alive = true ∧ tblReady s.dev g 0x21 j) ∧
    (∃ (d : Dev), d.tblOn = false) ∧
    (∃ (d : Dev) (b : List Byte), d.tblOn = true ∧ fieldLE b 0 1 ∉ tblOpcodes) ∧
    (∃ (d : Dev) (owner : Option Nat) (b : List Byte), d.tblOn = true ∧ fieldLE b 0 1 ∈ tblOpcodes ∧ 0x10 ≤ fieldLE b 0 1 ∧
      owner ≠ none) :=
  ⟨⟨tblSt id (tJob 0x10 []), 0, (tJob 0x10 []), by decide +kernel, by unfold tblReady; decide +kernel⟩,
   ⟨tblSt (fun t => { t with lpm := [(0, ⟨List.replicate 16 0, 2 ^ 63⟩)] }) (tJob 0x11 [(8, 4, 1)]), 0, (tJob 0x11 [(8, 4, 1)]),
     by decide +kernel, by unfold tblReady; decide +kernel, by decide +kernel⟩,
   ⟨tblSt id (tJob 0x12 []), 0, (tJob 0x12 []), 0, by decide +kernel, by unfold tblReady; decide +kernel, by decide +kernel⟩,
   ⟨tblSt id (tJob 0x13 []), 0, (tJob 0x13 []), 0, by decide +kernel, by unfold tblReady; decide +kernel, by decide +kernel⟩,
   ⟨tblSt id (tJob 0x20 []), 0, (tJob 0x20 []), by decide +kernel, by unfold tblReady; decide +kernel, by decide +kernel⟩,
   ⟨tblSt id (tJob 0x20 [(1, 1, 2)]), 0, (tJob 0x20 [(1, 1, 2)]), by decide +kernel, by unfold tblReady; decide +kernel,
     by decide +kernel⟩,
   ⟨tblSt id (tJob 0x21 []), 0, (tJob 0x21 []), by decide +kernel, by unfold tblReady; decide +kernel⟩,
   ⟨Dev.reset, by decide +kernel⟩,
   ⟨(puts [(TBL_CTRL_ENABLE, 1)] Dev.reset).lock TBL_CTRL, [0xFF], by decide +kernel⟩,
   ⟨(puts [(TBL_CTRL_ENABLE, 1)] Dev.reset).lock TBL_CTRL, some 1, [0x10], by decide +kernel⟩⟩

/-- The premises of PipelineRows. -/
theorem test_witness_PipelineRows :
    (∃ (s : State) (k : Fin 8) (r : InCls) (e : Dev), s.dev.alive = true ∧ s.dev.before .tableWrite = e ∧ ((e.cp
      k).inflight.find? fun r => !r.malformed && r.look.isNone) = some r ∧ e.leftSetup (PL_CLS_CTRL k) = true) ∧
    (∃ (s : State) (e : Dev) (k : Fin 8) (r : InCls) (rest : List InCls) (q : Nat) (l : Look) (f : Frame), s.dev.alive = true ∧
      s.dev.afterPipes k = e ∧ (e.cp k).inflight = r :: rest ∧ r.at_ + 105 ≤ e.cycle ∧ r.malformed = false ∧ r.look = some l ∧
      l.queue = some q ∧ e.frame? r.frame = some f ∧ f.stage = .classify ∧ e.flag (GLZ_SEL_EN k) = false) ∧
    (∃ (s : State) (r : LearnReq) (rest : List LearnReq), s.dev.alive = true ∧ s.dev.tbl.nextAt ≤ s.dev.cycle ∧ s.dev.tbl.jobs =
      [] ∧ s.dev.tbl.learn = r :: rest ∧ s.dev.get (SAG_STATUS_STATE (s.dev.get (TBL_LEARN_PORT_OWNER r.port))) ≠ 4) ∧
    (∃ (s : State) (x : Nat) (count : Nat) (every : Nat), s.dev.alive = true ∧ s.dev.scrubNext = x ∧ s.dev.flag
      TBL_CTRL_SCRUB_EN = true ∧ s.dev.tbl.bad = [] ∧ s.dev.marks = [] ∧ scrubPorts.getD x (0, 0) = (count, every) ∧
      s.dev.tbl.scrub.getD x 0 < count ∧ s.dev.tbl.scrub.set x (s.dev.tbl.scrub.getD x 0 + 1) ≠ scrubPorts.map (·.1) ∧
      s.dev.tbl.scrubAt + every * s.dev.tbl.scrub.getD x 0 ≤ s.dev.cycle) ∧
    (∃ (s : State) (dv : Dev) (p : Path) (data : W32), Reaches s.dev p dv ∧ fieldGet data 0 1 = 1) ∧
    (∃ (s : State) (e : Fin 256) (i : Nat) (x : Dev) (f : Frame) (p : Nat) (a : Actions), s.dev.alive = true ∧ inlineEnd e s.dev
      = some (i, x) ∧ x.frame? i = some f ∧ f.src = .port p ∧ f.act = some a) :=
  ⟨⟨st fun d =>
     { d.lock (PL_CLS_CTRL 0) with cls := [(0, { ClsPipe.reset with inflight := [⟨0, Vector.replicate 32 0, 0, false, 0, none⟩] })] },
     0, ⟨0, Vector.replicate 32 0, 0, false, 0, none⟩, _, by decide +kernel, rfl, by decide +kernel⟩,
   ⟨st fun d =>
     { d.setFrame 0 (fr 100 .classify) with cycle := 105, cls := [(0, { ClsPipe.reset with inflight := [⟨0, Vector.replicate 32 0, 0, false, 0, some ⟨0, .green, some 3⟩⟩] })] },
     _, 0, ⟨0, Vector.replicate 32 0, 0, false, 0, some ⟨0, .green, some 3⟩⟩, [], 3, ⟨0, .green, some 3⟩, fr 100 .classify,
     by decide +kernel, rfl, by decide +kernel⟩,
   ⟨st fun d => d.setTbl fun t => { t with learn := [⟨List.replicate 16 1, 2, 0, 0⟩] }, ⟨List.replicate 16 1, 2, 0, 0⟩, [],
     by decide +kernel⟩,
   ⟨st (puts [(TBL_CTRL_SCRUB_EN, 1)]), 0, 4096, 7324, by decide +kernel⟩,
   ⟨State.reset, _, .fw, 1, ⟨by decide +kernel, by decide +kernel, rfl, by decide +kernel, by decide +kernel⟩,
     by decide +kernel⟩,
   ⟨st fun d => ({ d with cycle := 10 }.setFrame 0 { fr 100 .inline with act := some ⟨0, 0, .green, some 0⟩ }).setGlzEng 0 (some
     ⟨.frame 0 0, .reset, .reset, none, false, none, 0, some 0, 0, 0, false⟩), 0, _, _, _, 0, ⟨0, 0, .green, some 0⟩,
     by decide +kernel, rfl, (Option.some_get (by decide +kernel)).symm, by decide +kernel⟩⟩

/-- The premises of LearnDecision. -/
theorem test_witness_LearnDecision :
    (∃ (d : Dev) (r : LearnReq) (rest : List LearnReq) (loc : Bool × Nat) (e : Dev), d.tbl.learn = r :: rest ∧ d.tbl.bad = [] ∧
    let x := ((d.setTbl fun t => { t with learn := rest, nextAt := d.cycle + 1 }).mark .tableWrite).put TBL_STATUS_LEARN_QDEPTH
      rest.length
    let ent : EmEntry :=
      { key := r.key, stamp := d.usNow, ctl := 2 ^ 63 + 2 ^ 62 + 2 ^ 53 + d.get (TBL_LEARN_PORT_QUEUE r.port) * 2 ^ 32 + d.get (TBL_LEARN_PORT_OWNER r.port) * 2 ^ 21 + r.port * 2 ^ 10 }
    x.emFind r.key = none ∧ x.emInsertAt ent false = (.done loc, e)) ∧
    (∃ (d : Dev) (r : LearnReq) (rest : List LearnReq) (loc : Bool × Nat), d.tbl.learn = r :: rest ∧ d.tbl.bad = [] ∧
    let x := ((d.setTbl fun t => { t with learn := rest, nextAt := d.cycle + 1 }).mark .tableWrite).put TBL_STATUS_LEARN_QDEPTH
      rest.length
    x.emFind r.key = some loc ∧ (x.locEnt loc).learned = true ∧ (x.locEnt loc).port = r.port) :=
  ⟨⟨{ Dev.reset with tbl := { Dev.reset.tbl with learn := [⟨List.replicate 16 1, 2, 0, 0⟩] } }, ⟨List.replicate 16 1, 2, 0, 0⟩,
     [], _, _, by decide +kernel, by decide +kernel, by decide +kernel, rfl⟩,
   ⟨{ Dev.reset with tbl := { Dev.reset.tbl with learn := [⟨List.replicate 16 1, 2, 0, 0⟩], ovf := [(5, ⟨List.replicate 16 1, 2 ^ 63 + 2 ^ 62 + 2 * 2 ^ 10, 0⟩)] } },
     ⟨List.replicate 16 1, 2, 0, 0⟩, [], (true, 5), by decide +kernel, by decide +kernel, by decide +kernel⟩⟩

/-- The premises of QueueRows. -/
theorem test_witness_QueueRows :
    (∃ (s : State) (i : Nat) (f : Frame) (a : Actions) (e : Dev), s.dev.alive = true ∧ s.dev.frame? i = some f ∧ f.stage =
      .meter ∧ f.act = some a ∧ atAdmission s.dev (Dev.pipeOf f) a.queue = e ∧ e.frame? i = some f ∧ f.ended = false ∧
      e.streamFilter i f = (.pass none, e) ∧ f.malformed = true) ∧
    (∃ (s : State) (i : Nat) (f : Frame) (a : Actions) (e : Dev), s.dev.alive = true ∧ s.dev.frame? i = some f ∧ f.stage =
      .meter ∧ f.act = some a ∧ atAdmission s.dev (Dev.pipeOf f) a.queue = e ∧ e.frame? i = some f ∧ f.ended = false ∧
      e.streamFilter i f = (.pass none, e) ∧ ∃ c m g, f.malformed = false ∧ e.meterFrame i a.queue (e.chargeLen f) a.colour none
      = (c, m) ∧ m.frame? i = some g ∧ g.ended = false) ∧
    (∃ (s : State) (i : Nat) (r : Nat) (p : Nat) (f : Frame) (a : Actions) (e : Dev), s.dev.alive = true ∧ s.dev.startDue = e ∧
      e.frame? i = some f ∧ f.stage = .admitted r ∧ f.act = some a ∧ r ≤ e.cycle ∧ e.portOf a.queue = p ∧ ((f.cutThrough = some
      true ∨ f.ended = true ∧ (f.len ≤ e.maxFrame p ∨ e.rxServed a.queue = true)))) ∧
    (∃ (s : State) (i : Nat) (r : Nat) (p : Nat) (f : Frame) (a : Actions) (e : Dev), s.dev.alive = true ∧ s.dev.startDue = e ∧
      e.frame? i = some f ∧ f.stage = .admitted r ∧ f.act = some a ∧ r ≤ e.cycle ∧ e.portOf a.queue = p ∧ f.cutThrough ≠ some
      true ∧ f.ended = true ∧ e.maxFrame p < f.len ∧ e.rxServed a.queue = false ∧ e.subExists (p / 4) (p % 4) = true ∧ ((e.inc
      (ETH_CNT_TX_OVERSIZE_DROP (p / 4) (p % 4))).freeFrame i).frame? i = none) ∧
    (∃ (s : State) (q : Fin 65536) (i : Nat) (rest : List Nat) (f : Frame), s.dev.alive = true ∧ (s.dev.queue q).spill = i ::
      rest ∧ s.dev.frame? i = some f ∧ (s.dev.queue q).spilling = true ∧ f.stage = .spilled none ∧ (s.dev.queue q).occ < Nat.min
      1024 (s.dev.queue q).green ∧ cellsOf f.charge ≤ s.dev.freeCells ∧ f.charge * 3 ≤ s.dev.fetchBudget) ∧
    (∃ (s : State) (q : Fin 65536) (i : Nat) (c : Nat) (rest : List Nat) (f : Frame) (a : Actions) (e : Dev), s.dev.alive = true
      ∧ s.dev.startDue = e ∧ (e.queue q).spill = i :: rest ∧ e.frame? i = some f ∧ f.stage = .spilled (some c) ∧ f.act = some a
      ∧ f.ended = true ∧ ((f.len ≤ e.maxFrame (e.portOf q) ∨ e.rxServed q = true))) ∧
    (∃ (s : State) (k : Fin 8) (p : Nat) (rest : List Nat) (e : Dev) (t : Dev) (found : Bool), s.dev.alive = true ∧
      (s.dev.before .nodeWrite).startDue = e ∧ e.portOrder k = p :: rest ∧ e.dequeueFor p = (found, t)) :=
  ⟨⟨st fun d => (d.setFrame 0 ({ fr 100 .meter with act := some ⟨0, 0, .green, none⟩, malformed := true, ended := false })), 0,
     { fr 100 .meter with act := some ⟨0, 0, .green, none⟩, malformed := true, ended := false }, ⟨0, 0, .green, none⟩, _,
     by decide +kernel, by decide +kernel, by decide +kernel, by decide +kernel, rfl, by decide +kernel, by decide +kernel, rfl,
     by decide +kernel⟩,
   ⟨st fun d => (d.setFrame 0 ({ fr 100 .meter with act := some ⟨0, 0, .green, none⟩, ended := false })), 0,
     { fr 100 .meter with act := some ⟨0, 0, .green, none⟩, ended := false }, ⟨0, 0, .green, none⟩, _, by decide +kernel,
     by decide +kernel, by decide +kernel, by decide +kernel, rfl, by decide +kernel, by decide +kernel, rfl, _, _, _,
     by decide +kernel, Prod.mk.eta.symm, (Option.some_get (by decide +kernel)).symm, by decide +kernel⟩,
   ⟨st fun d => (d.setFrame 0 ({ fr 100 (.admitted 0) with act := some ⟨0, 0, .green, none⟩ })), 0, 0, _,
     { fr 100 (.admitted 0) with act := some ⟨0, 0, .green, none⟩ }, ⟨0, 0, .green, none⟩, _, by decide +kernel, rfl,
     by decide +kernel, by decide +kernel, by decide +kernel, by decide +kernel, rfl, by decide +kernel⟩,
   ⟨st fun d => (puts [(ETH_MAX_FRAME_MAX_FRAME 0, 1518)] d).setFrame 0
     ({ fr 1519 (.admitted 0) with act := some ⟨0, 0, .green, none⟩ }), 0, 0, _,
     { fr 1519 (.admitted 0) with act := some ⟨0, 0, .green, none⟩ }, ⟨0, 0, .green, none⟩, _, by decide +kernel, rfl,
     by decide +kernel, by decide +kernel, by decide +kernel, by decide +kernel, rfl, by decide +kernel⟩,
   ⟨st fun d => (d.setFrame 0 ({ fr 100 (.spilled none) with charge := 100 })).modQueue 0 fun x =>
     { x with spill := [0], spilling := true, green := 100 }, 0, 0, [], { fr 100 (.spilled none) with charge := 100 },
     by decide +kernel⟩,
   ⟨st fun d => (d.setFrame 0 ({ fr 100 (.spilled (some 0)) with charge := 100, act := some ⟨0, 0, .green, none⟩ })).modQueue 0
     fun x => { x with spill := [0], spilling := true, green := 100 }, 0, 0, 0, [],
     { fr 100 (.spilled (some 0)) with charge := 100, act := some ⟨0, 0, .green, none⟩ }, ⟨0, 0, .green, none⟩, _,
     by decide +kernel, rfl, by decide +kernel⟩,
   ⟨st fun d => (puts [(TM_CTRL_ENABLE, 1), (ETH_SP_STATUS_LINK_UP 0 0, 1)] d).modQueue 0 fun x => { x with frames := [0] }, 0,
     0, _, _, _, _, by decide +kernel, rfl, rfl, Prod.mk.eta.symm⟩⟩

/-- The premises of BufferIndirect. -/
theorem test_witness_BufferIndirect :
    (∃ (s : State) (dv : Dev) (p : Path) (data : W32) (e : Dev), Reaches s.dev p dv ∧ dv.writeFields p BUF_IND_CMD data = e ∧
      fieldGet data 24 3 = 1) ∧
    (∃ (s : State) (dv : Dev) (p : Path) (data : W32) (e : Dev), Reaches s.dev p dv ∧ dv.writeFields p BUF_IND_CMD data = e ∧
      fieldGet data 24 3 = 2) ∧
    (∃ (s : State) (dv : Dev) (p : Path) (data : W32) (e : Dev), Reaches s.dev p dv ∧ dv.writeFields p BUF_IND_CMD data = e ∧
      fieldGet data 24 3 = 3) ∧
    (∃ (s : State) (dv : Dev) (p : Path) (data : W32) (e : Dev), Reaches s.dev p dv ∧ dv.writeFields p BUF_IND_CMD data = e ∧
      fieldGet data 24 3 = 4) ∧
    (∃ (s : State) (dv : Dev) (p : Path) (data : W32) (e : Dev), Reaches s.dev p dv ∧ dv.writeFields p BUF_IND_CMD data = e ∧
      fieldGet data 24 3 = 5) ∧
    (∃ (s : State) (dv : Dev) (p : Path) (data : W32) (e : Dev), Reaches s.dev p dv ∧ dv.writeFields p BUF_IND_CMD data = e ∧
      fieldGet data 24 3 = 6) ∧
    (∃ (s : State) (dv : Dev) (p : Path) (data : W32), Reaches s.dev p dv ∧ fieldGet data 0 1 = 0) ∧
    (∃ (s : State) (dv : Dev) (p : Path) (data : W32) (e : Dev), Reaches s.dev p dv ∧ fieldGet data 0 1 = 1 ∧ (dv.writeFields p
      BUF_CTRL data).put BUF_CTRL_ENABLE 1 = e ∧ e.leftSetup BUF_CTRL = false) ∧
    (∃ (s : State) (dv : Dev) (p : Path) (data : W32) (e : Dev), Reaches s.dev p dv ∧ fieldGet data 0 1 = 1 ∧ (dv.writeFields p
      BUF_CTRL data).put BUF_CTRL_ENABLE 1 = e ∧ e.leftSetup BUF_CTRL = true) :=
  ⟨⟨State.reset, _, .fw, 16777216, _, ⟨by decide +kernel, by decide +kernel, rfl, by decide +kernel, by decide +kernel⟩, rfl,
     by decide +kernel⟩,
   ⟨State.reset, _, .fw, 33554432, _, ⟨by decide +kernel, by decide +kernel, rfl, by decide +kernel, by decide +kernel⟩, rfl,
     by decide +kernel⟩,
   ⟨State.reset, _, .fw, 50331648, _, ⟨by decide +kernel, by decide +kernel, rfl, by decide +kernel, by decide +kernel⟩, rfl,
     by decide +kernel⟩,
   ⟨State.reset, _, .fw, 67174400, _, ⟨by decide +kernel, by decide +kernel, rfl, by decide +kernel, by decide +kernel⟩, rfl,
     by decide +kernel⟩,
   ⟨State.reset, _, .fw, 83886080, _, ⟨by decide +kernel, by decide +kernel, rfl, by decide +kernel, by decide +kernel⟩, rfl,
     by decide +kernel⟩,
   ⟨State.reset, _, .fw, 100663296, _, ⟨by decide +kernel, by decide +kernel, rfl, by decide +kernel, by decide +kernel⟩, rfl,
     by decide +kernel⟩,
   ⟨State.reset, _, .fw, 0, ⟨by decide +kernel, by decide +kernel, rfl, by decide +kernel, by decide +kernel⟩,
     by decide +kernel⟩,
   ⟨State.reset, _, .fw, 1, _, ⟨by decide +kernel, by decide +kernel, rfl, by decide +kernel, by decide +kernel⟩,
     by decide +kernel, rfl, by decide +kernel⟩,
   ⟨st fun d => d.lock BUF_CTRL, _, .fw, 1, _, ⟨by decide +kernel, by decide +kernel, rfl, by decide +kernel,
     by decide +kernel⟩, by decide +kernel, rfl, by decide +kernel⟩⟩

/-- The premises of SchedulerIndirect. -/
theorem test_witness_SchedulerIndirect :
    (∃ (s : State) (dv : Dev) (p : Path) (data : W32) (e : Dev), Reaches s.dev p dv ∧ dv.writeFields p TM_IND_CMD data = e ∧
    let i := fieldGet data 0 16
    let lvl := fieldGet data 20 2
    fieldGet data 24 3 = 1 ∧ i < Dev.levelCount lvl) ∧
    (∃ (s : State) (dv : Dev) (p : Path) (data : W32) (e : Dev), Reaches s.dev p dv ∧ dv.writeFields p TM_IND_CMD data = e ∧
    let i := fieldGet data 0 16
    let lvl := fieldGet data 20 2
    let y := Dev.nodeFrom (e.indRd 0x500080) e.cycle lvl (e.node lvl i) (fieldGet data 16 1 == 1)
    let owned := match e.groupSag i with | some sg => if lvl = 2 then { y with owner := sg } else y | none => y
    fieldGet data 24 3 = 2 ∧ i < Dev.levelCount lvl ∧ owned.parent ≠ (e.node lvl i).parent ∧ ((e.subtreeHolds lvl i = true ∨
      Dev.levelCount (lvl - 1) ≤ owned.parent))) ∧
    (∃ (s : State) (dv : Dev) (p : Path) (data : W32) (e : Dev), Reaches s.dev p dv ∧ dv.writeFields p TM_IND_CMD data = e ∧
    let i := fieldGet data 0 16
    let lvl := fieldGet data 20 2
    let y := Dev.nodeFrom (e.indRd 0x500080) e.cycle lvl (e.node lvl i) (fieldGet data 16 1 == 1)
    let owned := match e.groupSag i with | some sg => if lvl = 2 then { y with owner := sg } else y | none => y
    fieldGet data 24 3 = 2 ∧ i < Dev.levelCount lvl ∧ ((owned.parent = (e.node lvl i).parent ∨ e.subtreeHolds lvl i = false ∧
      owned.parent < Dev.levelCount (lvl - 1)))) ∧
    (∃ (s : State) (dv : Dev) (p : Path) (data : W32) (e : Dev), Reaches s.dev p dv ∧ dv.writeFields p TM_IND_CMD data = e ∧
    let i := fieldGet data 0 16
    fieldGet data 24 3 = 3 ∧ i < 4096) ∧
    (∃ (s : State) (dv : Dev) (p : Path) (data : W32) (e : Dev), Reaches s.dev p dv ∧ dv.writeFields p TM_IND_CMD data = e ∧
    let i := fieldGet data 0 16
    fieldGet data 24 3 = 4 ∧ i < 4096) ∧
    (∃ (s : State) (dv : Dev) (p : Path) (data : W32) (e : Dev), Reaches s.dev p dv ∧ dv.writeFields p TM_IND_CMD data = e ∧
    let i := fieldGet data 0 16
    fieldGet data 24 3 = 5 ∧ i < 4096) :=
  ⟨⟨State.reset, _, .fw, 16777216, _, ⟨by decide +kernel, by decide +kernel, rfl, by decide +kernel, by decide +kernel⟩, rfl,
     by decide +kernel⟩,
   ⟨st fun d => (puts [(⟨0x50008C, 0, 32⟩, 0x80000005)] d).modQueue 0 fun x => { x with frames := [0] }, _, .fw, 0x2300000, _,
     ⟨by decide +kernel, by decide +kernel, rfl, by decide +kernel, by decide +kernel⟩, rfl, by decide +kernel⟩,
   ⟨State.reset, _, .fw, 33554432, _, ⟨by decide +kernel, by decide +kernel, rfl, by decide +kernel, by decide +kernel⟩, rfl,
     by decide +kernel⟩,
   ⟨State.reset, _, .fw, 50331648, _, ⟨by decide +kernel, by decide +kernel, rfl, by decide +kernel, by decide +kernel⟩, rfl,
     by decide +kernel⟩,
   ⟨State.reset, _, .fw, 67108864, _, ⟨by decide +kernel, by decide +kernel, rfl, by decide +kernel, by decide +kernel⟩, rfl,
     by decide +kernel⟩,
   ⟨State.reset, _, .fw, 83886080, _, ⟨by decide +kernel, by decide +kernel, rfl, by decide +kernel, by decide +kernel⟩, rfl,
     by decide +kernel⟩⟩

/-- The premises of GateRows. -/
theorem test_witness_GateRows :
    (∃ (s : State) (dv : Dev) (p : Path) (g : Fin 272) (data : W32) (e : Dev), Reaches s.dev p dv ∧ dv.writeFields p
      (Dev.gateCtrl g) data = e ∧ fieldGet data 7 1 = 1 ∧ e.changeBad g = true) ∧
    (∃ (s : State) (dv : Dev) (p : Path) (g : Fin 272) (data : W32) (e : Dev) (len : Nat) (cycle : Nat) (ext : Nat) (base :
      Nat), Reaches s.dev p dv ∧ dv.writeFields p (Dev.gateCtrl g) data = e ∧ fieldGet data 7 1 = 1 ∧ e.changeBad g = false ∧
      e.adminOf g = (len, cycle, ext, base)) ∧
    (∃ (base : Nat) (cycle : Nat) (now : Nat), 0 < cycle ∧ base < Dev.cctOf base cycle now) ∧
    (∃ (s : State) (dv : Dev) (p : Path) (g : Fin 272) (data : W32) (e : Dev), Reaches s.dev p dv ∧ dv.writeFields p
      (Dev.gateCtrl g) data = e ∧ fieldGet data 8 1 = 1 ∧ (e.gate g).pending ≠ none) ∧
    (∃ (s : State) (dv : Dev) (p : Path) (g : Fin 272) (data : W32) (e : Dev), Reaches s.dev p dv ∧ dv.writeFields p
      (Dev.gateCtrl g) data = e ∧ fieldGet data 0 1 = e.get (Dev.gateFld g 0 0 1)) ∧
    (∃ (s : State) (dv : Dev) (p : Path) (g : Fin 272) (data : W32) (e : Dev), Reaches s.dev p dv ∧ dv.writeFields p
      (Dev.gateCtrl g) data = e ∧ fieldGet data 0 1 = 0 ∧ e.get (Dev.gateFld g 0 0 1) = 1) ∧
    (∃ (s : State) (dv : Dev) (p : Path) (g : Fin 272) (data : W32) (e : Dev), Reaches s.dev p dv ∧ dv.writeFields p
      (Dev.gateCtrl g) data = e ∧ fieldGet data 0 1 = 1 ∧ e.get (Dev.gateFld g 0 0 1) = 0) ∧
    (∃ (s : State) (g : Fin 272) (c : GateChange), s.dev.alive = true ∧ (s.dev.gate g).pending = some c ∧ c.cct ≤ s.dev.netNs) ∧
    (∃ (s : State) (g : Fin 272) (k : Loss) (r : Nat), s.dev.alive = true ∧ (s.dev.gate g).loss = some (k, some r) ∧ r ≤
      s.dev.netNs) :=
  ⟨⟨State.reset, _, .fw, 0, 128, _, ⟨by decide +kernel, by decide +kernel, rfl, by decide +kernel, by decide +kernel⟩, rfl,
     by decide +kernel⟩,
   ⟨st (puts [(⟨Dev.gateCtrl 0 + 4, 0, 11⟩, 1), (⟨Dev.gateCtrl 0 + 8, 0, 32⟩, 2000), (⟨0x602000, 0, 32⟩, 5)]), _, .fw, 0, 128,
     _, _, _, _, _, ⟨by decide +kernel, by decide +kernel, rfl, by decide +kernel, by decide +kernel⟩, rfl, by decide +kernel,
     by decide +kernel, rfl⟩,
   ⟨0, 1, 0, by decide +kernel⟩,
   ⟨st fun d => d.setGate 0 { Gate.reset with pending := some ⟨1, 2, 3, 4, 5⟩ }, _, .fw, 0, 256, _, ⟨by decide +kernel,
     by decide +kernel, rfl, by decide +kernel, by decide +kernel⟩, rfl, by decide +kernel⟩,
   ⟨State.reset, _, .fw, 0, 0, _, ⟨by decide +kernel, by decide +kernel, rfl, by decide +kernel, by decide +kernel⟩, rfl,
     by decide +kernel⟩,
   ⟨st (puts [(Dev.gateFld 0 0 0 1, 1)]), _, .fw, 0, 0, _, ⟨by decide +kernel, by decide +kernel, rfl, by decide +kernel,
     by decide +kernel⟩, rfl, by decide +kernel⟩,
   ⟨State.reset, _, .fw, 0, 1, _, ⟨by decide +kernel, by decide +kernel, rfl, by decide +kernel, by decide +kernel⟩, rfl,
     by decide +kernel⟩,
   ⟨st fun d => d.setGate 0 { Gate.reset with pending := some ⟨1, 2, 3, 4, 0⟩ }, 0, ⟨1, 2, 3, 4, 0⟩, by decide +kernel⟩,
   ⟨st fun d => d.setGate 0 { Gate.reset with loss := some (.holdOpen, some 0) }, 0, .holdOpen, 0, by decide +kernel⟩⟩

/-- The premises of SyncAndPulses. -/
theorem test_witness_SyncAndPulses :
    (∃ (s : State) (dv : Dev) (p : Path) (data : W32), Reaches s.dev p dv ∧ fieldGet data 0 1 = 1) ∧
    (∃ (s : State) (dv : Dev) (p : Path) (data : W32), Reaches s.dev p dv ∧ fieldGet data 1 1 = 1) ∧
    (∃ (s : State) (dv : Dev) (p : Path) (data : W32) (e : Dev), Reaches s.dev p dv ∧ (dv.before .syncExpired).writeFields p
      TIME_SYNC data = e ∧ fieldGet data 31 1 = 1 ∧ e.get TIME_SYNC_STATE = 1) ∧
    (∃ (s : State) (dv : Dev) (p : Path) (data : W32) (e : Dev), Reaches s.dev p dv ∧ (dv.before .syncExpired).writeFields p
      TIME_SYNC data = e ∧ fieldGet data 31 1 = 1 ∧ e.get TIME_SYNC_STATE ≠ 1) ∧
    (∃ (s : State) (dv : Dev) (p : Path) (data : W32) (e : Dev), Reaches s.dev p dv ∧ dv.writeFields p TIME_SYNC data = e ∧
      fieldGet data 30 1 = 1 ∧ e.get TIME_SYNC_STATE = 1) ∧
    (∃ (s : State), s.dev.alive = true ∧ s.dev.get TIME_SYNC_STATE = 1 ∧ s.dev.time.since + s.dev.get TIME_SYNC_TIMEOUT_S *
      3000000000 ≤ s.dev.cycle) ∧
    (∃ (s : State), s.dev.alive = true ∧ s.dev.get TIME_SYNC_STATE = 2 ∧ s.dev.time.since + s.dev.get TIME_HOLD_HOLDOVER_LIMIT *
      3000000000 ≤ s.dev.cycle) ∧
    (∃ (s : State), s.dev.alive = true ∧ s.dev.flag TIME_PPS_OUT_EN = true ∧
    let x := (s.dev.netNs : Int) - signedOf 32 (s.dev.get TIME_PPS_OUT_OFS_NS) + 4000000000
    (x / 1000000000).toNat ≠ s.dev.time.ppsLast ∧ x % 1000000000 < 3) ∧
    (∃ (s : State), s.dev.alive = true ∧ s.dev.time.ppsOut = true ∧ s.dev.time.ppsFall ≤ s.dev.cycle) ∧
    (∃ (s : State) (ns : Nat), s.dev.alive = true ∧ ns < 100) ∧
    (∃ (s : State) (fall : Bool) (ns : Nat), s.dev.alive = true ∧ s.dev.flag TIME_PPS_IN_CFG_EN = true ∧ s.dev.flag
      TIME_PPS_IN_CFG_FALLING = fall ∧ 100 ≤ ns) :=
  ⟨⟨State.reset, _, .fw, 1, ⟨by decide +kernel, by decide +kernel, rfl, by decide +kernel, by decide +kernel⟩,
     by decide +kernel⟩,
   ⟨State.reset, _, .fw, 2, ⟨by decide +kernel, by decide +kernel, rfl, by decide +kernel, by decide +kernel⟩,
     by decide +kernel⟩,
   ⟨st (puts [(TIME_SYNC_STATE, 1)]), _, .fw, 0x80000000, _, ⟨by decide +kernel, by decide +kernel, rfl, by decide +kernel,
     by decide +kernel⟩, rfl, by decide +kernel⟩,
   ⟨State.reset, _, .fw, 0x80000000, _, ⟨by decide +kernel, by decide +kernel, rfl, by decide +kernel, by decide +kernel⟩, rfl,
     by decide +kernel⟩,
   ⟨st (puts [(TIME_SYNC_STATE, 1)]), _, .fw, 0x40000000, _, ⟨by decide +kernel, by decide +kernel, rfl, by decide +kernel,
     by decide +kernel⟩, rfl, by decide +kernel⟩,
   ⟨st fun d => { puts [(TIME_SYNC_STATE, 1)] d with cycle := 2 ^ 60 }, by decide +kernel⟩,
   ⟨st fun d => { puts [(TIME_SYNC_STATE, 2)] d with cycle := 2 ^ 60 }, by decide +kernel⟩,
   ⟨st (puts [(TIME_PPS_OUT_EN, 1)]), by decide +kernel, by decide +kernel, by decide +kernel⟩,
   ⟨st fun d => { d with time := { d.time with ppsOut := true } }, by decide +kernel⟩,
   ⟨State.reset, 99, by decide +kernel⟩,
   ⟨st (puts [(TIME_PPS_IN_CFG_EN, 1)]), false, 100, by decide +kernel⟩⟩

/-- The premises of ChannelTraffic. -/
theorem test_witness_ChannelTraffic :
    (∃ (s : State) (c : Fin 8192) (x : Channel) (m : W64) (q : List W64) (e : Dev), s.dev.alive = true ∧ s.dev.channel c = some
      x ∧ s.dev.txFifo x.srcT x.srcEp = m :: q ∧ s.dev.before (.sendFull x.srcT x.srcEp) = e ∧ 0 < x.credits ∧ e.leavesKiln
      x.srcT x.dstT = none) ∧
    (∃ (s : State) (c : Fin 8192) (x : Channel) (m : W64) (q : List W64) (k : Nat × Nat) (e : Dev), s.dev.alive = true ∧
      s.dev.channel c = some x ∧ s.dev.txFifo x.srcT x.srcEp = m :: q ∧ s.dev.before (.sendFull x.srcT x.srcEp) = e ∧ 0 <
      x.credits ∧ e.leavesKiln x.srcT x.dstT = some k ∧ e.kilnMute (Dev.kilnOf x.srcT) = false ∧ e.portFor (Dev.coreOf x.srcT)
      (x.since.getD e.cycle) = true) ∧
    (∃ (s : State) (c : Fin 8192) (x : Channel) (m : Flight) (ms : List Flight) (e : Dev), s.dev.alive = true ∧ s.dev.channel c
      = some x ∧ x.msgs = m :: ms ∧ ((Dev.isMgmt x.dstT = true ∨ s.dev.kilnHeld (Dev.kilnOf x.dstT) = false)) ∧ ((m.kiln = none
      ∨ s.dev.quadCut x.dstT = false)) ∧ s.dev.before (.recvEmpty x.dstT x.dstEp) = e ∧ ((∀ k n, m.kiln = some (k, n) → e.firing
      (.kiln k) = n)) ∧
    let core := Dev.coreOf x.dstT
    let enters := !Dev.isMgmt x.dstT && (Dev.isMgmt x.srcT || Dev.kilnOf x.srcT != Dev.kilnOf x.dstT)
    ((enters = true → e.portSlot core = true ∧ (e.coreSt core).portIn ≤ e.cycle))) ∧
    (∃ (s : State) (c : Fin 8192) (x : Channel) (m : Flight) (ms : List Flight) (k : Nat) (n : Nat) (e : Dev), s.dev.alive =
      true ∧ s.dev.channel c = some x ∧ x.msgs = m :: ms ∧ ((Dev.isMgmt x.dstT = true ∨ s.dev.kilnHeld (Dev.kilnOf x.dstT) =
      false)) ∧ m.kiln = some (k, n) ∧ s.dev.quadCut x.dstT = false ∧ s.dev.before (.recvEmpty x.dstT x.dstEp) = e ∧ e.firing
      (.kiln k) ≠ n) ∧
    (∃ (s : State) (c : Fin 8192) (x : Channel) (m : Credit) (ms : List Credit), s.dev.alive = true ∧ s.dev.channel c = some x ∧
      x.creds = m :: ms ∧ ((∀ k n, m.kiln = some (k, n) → s.dev.kilnCut k = false ∧ s.dev.firing (.kiln k) = n))) ∧
    (∃ (s : State) (c : Fin 8192) (x : Channel) (m : Credit) (ms : List Credit) (k : Nat) (n : Nat), s.dev.alive = true ∧
      s.dev.channel c = some x ∧ x.creds = m :: ms ∧ m.kiln = some (k, n) ∧ s.dev.kilnCut k = false ∧ s.dev.firing (.kiln k) ≠
      n) :=
  ⟨⟨st fun d => ((d).setChannel 0 (some ⟨false, 0, 0, 1, 0, 7, 8, [], [], [], none⟩)).setTx 0 0 [5], 0, ⟨false, 0, 0, 1, 0, 7,
     8, [], [], [], none⟩, 5, [], _, by decide +kernel, by decide +kernel, by decide +kernel, rfl, by decide +kernel⟩,
   ⟨st fun d => ((d).setChannel 0 (some ⟨false, 0, 0, 64, 0, 7, 8, [], [], [], none⟩)).setTx 0 0 [5], 0, ⟨false, 0, 0, 64, 0, 7,
     8, [], [], [], none⟩, 5, [], (0, 0), _, by decide +kernel, by decide +kernel, by decide +kernel, rfl, by decide +kernel⟩,
   ⟨st fun d => (kiln0 d).setChannel 0 (some ⟨false, 0, 0, 8, 0, 7, 8, [⟨5, some (0, 0), 0⟩], [], [], none⟩), 0, ⟨false, 0, 0,
     8, 0, 7, 8, [⟨5, some (0, 0), 0⟩], [], [], none⟩, ⟨5, some (0, 0), 0⟩, [], _, by decide +kernel, by decide +kernel,
     by decide +kernel, by decide +kernel, by decide +kernel, rfl, by rintro _ _ ⟨⟩; decide +kernel, by decide +kernel⟩,
   ⟨st fun d => (d.setChannel 0 (some ⟨false, 0, 0, 8, 0, 7, 8, [⟨5, some (1, 3), 0⟩], [], [], none⟩)), 0, ⟨false, 0, 0, 8, 0,
     7, 8, [⟨5, some (1, 3), 0⟩], [], [], none⟩, ⟨5, some (1, 3), 0⟩, [], 1, 3, _, by decide +kernel, by decide +kernel,
     by decide +kernel, by decide +kernel, by decide +kernel, by decide +kernel, rfl, by decide +kernel⟩,
   ⟨st fun d => (d).setChannel 0 (some ⟨false, 0, 0, 8, 0, 7, 8, [], [⟨0, some (0, 0)⟩], [], none⟩), 0, ⟨false, 0, 0, 8, 0, 7,
     8, [], [⟨0, some (0, 0)⟩], [], none⟩, ⟨0, some (0, 0)⟩, [], by decide +kernel, by decide +kernel, by decide +kernel,
     by rintro _ _ ⟨⟩; decide +kernel⟩,
   ⟨st fun d => (d).setChannel 0 (some ⟨false, 0, 0, 8, 0, 7, 8, [], [⟨0, some (1, 3)⟩], [], none⟩), 0, ⟨false, 0, 0, 8, 0, 7,
     8, [], [⟨0, some (1, 3)⟩], [], none⟩, ⟨0, some (1, 3)⟩, [], 1, 3, by decide +kernel⟩⟩

/-- The premises of ChannelCommands. -/
theorem test_witness_ChannelCommands :
    (∃ (s : State) (g : Fin 4096) (j : Job) (e : Dev), s.dev.alive = true ∧ coreReady s.dev g 0x40 0 8192 j ∧ coreTaken s.dev j
      = e ∧ bitsOf (fieldLE j.block 16 4) 27 3 = 0 ∧ bitsOf (fieldLE j.block 16 4) 2 14 = 0 ∧ bitsOf (fieldLE j.block 20 4) 27 5
      = 0 ∧ bitsOf (fieldLE j.block 20 4) 2 14 = 0 ∧ bitsOf (fieldLE j.block 24 4) 11 21 = 0 ∧ bitsOf (fieldLE j.block 28 4) 16
      16 = 0 ∧ bitsOf (fieldLE j.block 28 4) 4 4 = 0 ∧
    let src := bitsOf (fieldLE j.block 16 4) 16 11
    let dst := bitsOf (fieldLE j.block 20 4) 16 11
    let i := fieldLE j.block 4 4
    let sep := bitsOf (fieldLE j.block 16 4) 0 2
    let dep := bitsOf (fieldLE j.block 20 4) 0 2
    src ≤ 1025 ∧ dst ≤ 1025 ∧ e.released src = true ∧ e.released dst = true ∧ e.channel i = none ∧ e.txChan src sep = none ∧
      e.rxChan dst dep = none) ∧
    (∃ (s : State) (g : Fin 4096) (j : Job) (x : Channel), s.dev.alive = true ∧ coreReady s.dev g 0x41 1 8192 j ∧ (coreTaken
      s.dev j).channel (fieldLE j.block 4 4) = some x ∧ (s.dev.thread x.srcT).wait = .run) ∧
    (∃ (s : State) (c : Fin 8192) (x : Channel) (j : Job) (force : Bool), s.dev.alive = true ∧ s.dev.channel c = some x ∧ x.msgs
      = [] ∧ x.creds = [] ∧ x.unbind = [(force, j)] ∧ s.dev.txFifo x.srcT x.srcEp = [] ∧ s.dev.rxFifo x.dstT x.dstEp = []) ∧
    (∃ (s : State) (g : Fin 4096) (j : Job) (e : Dev), s.dev.alive = true ∧ coreReady s.dev g 0x42 0 8192 j ∧ coreTaken s.dev j
      = e) :=
  ⟨⟨coreSt kiln0 (tJob 0x40 [(20, 4, 0x80000)]), 0, (tJob 0x40 [(20, 4, 0x80000)]), _, by decide +kernel,
     by unfold coreReady; decide +kernel, rfl, by decide +kernel, by decide +kernel, by decide +kernel, by decide +kernel,
     by decide +kernel, by decide +kernel, by decide +kernel, by decide +kernel⟩,
   ⟨coreSt (fun d => d.setChannel 0 (some ⟨false, 0, 0, 8, 0, 7, 8, [], [], [], none⟩)) (tJob 0x41 []), 0, (tJob 0x41 []),
     ⟨false, 0, 0, 8, 0, 7, 8, [], [], [], none⟩, by decide +kernel, by unfold coreReady; decide +kernel, by decide +kernel⟩,
   ⟨st fun d => (d.setChannel 0 (some ⟨false, 0, 0, 8, 0, 7, 8, [], [], [(false, tJob 0x41 [])], none⟩)), 0, ⟨false, 0, 0, 8, 0,
     7, 8, [], [], [(false, tJob 0x41 [])], none⟩, tJob 0x41 [], false, by decide +kernel⟩,
   ⟨coreSt id (tJob 0x42 []), 0, (tJob 0x42 []), _, by decide +kernel, by unfold coreReady; decide +kernel, rfl⟩⟩

/-- The premises of PlacementCommands. -/
theorem test_witness_PlacementCommands :
    (∃ (s : State) (g : Fin 4096) (j : Job) (e : Dev), s.dev.alive = true ∧ coreReady s.dev g 0x50 0 65536 j ∧ coreTaken s.dev j
      = e ∧
    let i := fieldLE j.block 4 4
    let t := bitsOf (fieldLE j.block 16 4) 0 10
    let o := bitsOf (fieldLE j.block 20 4) 0 11
    bitsOf (fieldLE j.block 16 4) 10 20 = 0 ∧ bitsOf (fieldLE j.block 20 4) 11 21 = 0 ∧ bitsOf (fieldLE j.block 24 4) 24 8 = 0 ∧
      bitsOf (fieldLE j.block 28 4) 13 19 = 0 ∧ bitOf (fieldLE j.block 16 4) 31 = true ∧ e.released t = true ∧ (e.place i).next
      = none ∧ ∃ b, (e.place i).valid = false ∧ (e.place i).held = [] ∧ (e.setPlace i
      { e.place i with next := some (true, t, o), since := e.cycle, ended := true }).bumpOwner (.place i) = b ∧ b.bumpPending
      (.place i) = false) ∧
    (∃ (s : State) (g : Fin 4096) (j : Job) (e : Dev), s.dev.alive = true ∧ coreReady s.dev g 0x50 0 65536 j ∧ coreTaken s.dev j
      = e ∧
    let i := fieldLE j.block 4 4
    let t := bitsOf (fieldLE j.block 16 4) 0 10
    let o := bitsOf (fieldLE j.block 20 4) 0 11
    bitsOf (fieldLE j.block 16 4) 10 20 = 0 ∧ bitsOf (fieldLE j.block 20 4) 11 21 = 0 ∧ bitsOf (fieldLE j.block 24 4) 24 8 = 0 ∧
      bitsOf (fieldLE j.block 28 4) 13 19 = 0 ∧ bitOf (fieldLE j.block 16 4) 31 = true ∧ e.released t = true ∧ (e.place i).next
      = none ∧ ∃ b, (e.place i).valid = false ∧ (e.setPlace i
      { e.place i with next := some (true, t, o), since := e.cycle, ended := true }).bumpOwner (.place i) = b ∧ b.bumpPending
      (.place i) = true) ∧
    (∃ (s : State) (g : Fin 4096) (j : Job) (e : Dev), s.dev.alive = true ∧ coreReady s.dev g 0x50 0 65536 j ∧ coreTaken s.dev j
      = e ∧
    let i := fieldLE j.block 4 4
    let t := bitsOf (fieldLE j.block 16 4) 0 10
    bitsOf (fieldLE j.block 16 4) 10 20 = 0 ∧ bitsOf (fieldLE j.block 20 4) 11 21 = 0 ∧ bitsOf (fieldLE j.block 24 4) 24 8 = 0 ∧
      bitsOf (fieldLE j.block 28 4) 13 19 = 0 ∧ bitOf (fieldLE j.block 16 4) 31 = true ∧ e.released t = true ∧ (e.place i).next
      = none ∧ (e.place i).valid = true ∧ (e.place i).thread ≠ t) ∧
    (∃ (s : State) (g : Fin 4096) (j : Job) (e : Dev), s.dev.alive = true ∧ coreReady s.dev g 0x51 0 65536 j ∧ coreTaken s.dev j
      = e ∧ (e.place (fieldLE j.block 4 4)).next = none ∧ (e.place (fieldLE j.block 4 4)).valid = true) ∧
    (∃ (s : State) (g : Fin 4096) (j : Job) (e : Dev), s.dev.alive = true ∧ coreReady s.dev g 0x52 0 65536 j ∧ coreTaken s.dev j
      = e) ∧
    (∃ (s : State) (g : Fin 4096) (j : Job) (e : Dev), s.dev.alive = true ∧ coreReady s.dev g 0x53 0 65536 j ∧ coreTaken s.dev j
      = e) ∧
    (∃ (s : State) (g : Fin 4096) (j : Job) (e : Dev), s.dev.alive = true ∧ coreReady s.dev g 0x60 0 (2 ^ 32) j ∧ coreTaken
      s.dev j = e) ∧
    (∃ (s : State) (g : Fin 4096) (j : Job) (e : Dev), s.dev.alive = true ∧ coreReady s.dev g 0x61 0 (2 ^ 32) j ∧ coreTaken
      s.dev j = e) :=
  ⟨⟨coreSt kiln0 (tJob 0x50 [(16, 4, 0x80000000)]), 0, (tJob 0x50 [(16, 4, 0x80000000)]), _, by decide +kernel,
     by unfold coreReady; decide +kernel, rfl, by decide +kernel, by decide +kernel, by decide +kernel, by decide +kernel,
     by decide +kernel, by decide +kernel, by decide +kernel, _, by decide +kernel, by decide +kernel, rfl, by decide +kernel⟩,
   ⟨coreSt (fun d => { kiln0 d with own := { (kiln0 d).own with last := [((Owner.place 0).key, some 0)] }, cycle := 1 }) (tJob
     0x50 [(16, 4, 0x80000000)]), 0, (tJob 0x50 [(16, 4, 0x80000000)]), _, by decide +kernel,
     by unfold coreReady; decide +kernel, rfl, by decide +kernel, by decide +kernel, by decide +kernel, by decide +kernel,
     by decide +kernel, by decide +kernel, by decide +kernel, _, by decide +kernel, rfl, by decide +kernel⟩,
   ⟨coreSt (fun d => (kiln0 d).setPlace 0 { Place.reset with valid := true, thread := 5 }) (tJob 0x50 [(16, 4, 0x80000000)]), 0,
     (tJob 0x50 [(16, 4, 0x80000000)]), _, by decide +kernel, by unfold coreReady; decide +kernel, rfl, by decide +kernel⟩,
   ⟨coreSt (fun d => d.setPlace 0 { Place.reset with valid := true }) (tJob 0x51 []), 0, (tJob 0x51 []), _, by decide +kernel,
     by unfold coreReady; decide +kernel, rfl, by decide +kernel⟩,
   ⟨coreSt id (tJob 0x52 []), 0, (tJob 0x52 []), _, by decide +kernel, by unfold coreReady; decide +kernel, rfl⟩,
   ⟨coreSt id (tJob 0x53 []), 0, (tJob 0x53 []), _, by decide +kernel, by unfold coreReady; decide +kernel, rfl⟩,
   ⟨coreSt id (tJob 0x60 []), 0, (tJob 0x60 []), _, by decide +kernel, by unfold coreReady; decide +kernel, rfl⟩,
   ⟨coreSt id (tJob 0x61 []), 0, (tJob 0x61 []), _, by decide +kernel, by unfold coreReady; decide +kernel, rfl⟩⟩

/-- The premises of PlacementRows. -/
theorem test_witness_PlacementRows :
    (∃ (s : State) (q : Fin 65536) (i : Nat) (t : Nat) (f : Frame), s.dev.alive = true ∧ (s.dev.place q).toward = [(i, t)] ∧
      s.dev.frame? i = some f ∧ f.stage = .placed ∧ f.ended = true ∧ (s.dev.place q).pending = false) ∧
    (∃ (s : State) (q : Fin 65536) (m : Marker), s.dev.alive = true ∧ (s.dev.core.markers.find? fun m => m.entry == q.val &&
      !m.delivered) = some m ∧ m.after = [] ∧ (((s.dev.place q).next = none ∨ (s.dev.place q).since < s.dev.cycle)) ∧
      (s.dev.thread m.thread).inbox.length < 64 ∧
    let e : Dev :=
      { s.dev with core := { s.dev.core with markers := s.dev.core.markers.map fun x => if x = m then { x with delivered := true } else x } }
    e.released m.thread = true) ∧
    (∃ (s : State) (t : Fin 1026) (h : W64) (v : W64) (q : List (W64 × W64)), s.dev.alive = true ∧ (s.dev.thread t).retq = (h,
      v) :: q ∧ bitOf h.toNat 39 = false) ∧
    (∃ (d : Dev) (t : Nat) (h : Nat), (d.core.given.find? fun g => g.thread == t && g.cell == bitsOf h 0 20) = none) ∧
    (∃ (s : State) (q : Fin 65536) (v : Bool) (t : Nat) (o : Nat), s.dev.alive = true ∧ (s.dev.place q).next = some (v, t, o) ∧
      (s.dev.place q).ended = false ∧ (s.dev.place q).since + 3000000 ≤ s.dev.cycle) ∧
    (∃ (s : State) (t : Fin 1024) (c : Fin 786432) (g : Given), s.dev.alive = true ∧ (s.dev.core.given.find? fun g => g.thread
      == t.val && g.cell == c.val) = some g ∧ g.at_ + 3000000000 ≤ s.dev.cycle) ∧
    (∃ (s : State) (k : Fin 8) (i : Nat) (f : Frame), s.dev.alive = true ∧ (s.dev.cp k).punt = [i] ∧ s.dev.frame? i = some f ∧
      f.stage = .punt ∧ f.ended = true ∧ (s.dev.thread (s.dev.get (PL_PUNT_TARGET_THREAD k))).inbox.length < 64) :=
  ⟨⟨st fun d => (d.setFrame 3 (fr 100 .placed)).setPlace 0 { Place.reset with toward := [(3, 1)] }, 0, 3, 1, fr 100 .placed,
     by decide +kernel⟩,
   ⟨st fun d => { kiln0 d with core := { (kiln0 d).core with markers := [⟨0, 0, 0, [], false, 0⟩] } }, 0, ⟨0, 0, 0, [], false,
     0⟩, by decide +kernel, by decide +kernel, by decide +kernel, by decide +kernel, by decide +kernel, by decide +kernel⟩,
   ⟨st fun d => d.modThread 0 fun x => { x with retq := [(1, 2)] }, 0, 1, 2, [], by decide +kernel, by decide +kernel,
     by decide +kernel⟩,
   ⟨Dev.reset, 0, 0, by decide +kernel⟩,
   ⟨st fun d => { d.setPlace 0 { Place.reset with next := some (true, 1, 2) } with cycle := 3000000 }, 0, true, 1, 2,
     by decide +kernel⟩,
   ⟨st fun d => { d with cycle := 3000000000, core := { d.core with given := [⟨1, 0, 0, 1, [], none, 0⟩] } }, 1, 0, ⟨1, 0, 0, 1,
     [], none, 0⟩, by decide +kernel⟩,
   ⟨st fun d => { d.setFrame 3 (fr 100 .punt) with cls := [(0, { ClsPipe.reset with punt := [3] })] }, 0, 3, fr 100 .punt,
     by decide +kernel⟩⟩

/-- The premises of RvInstructions. -/
theorem test_witness_RvInstructions :
    (∃ (s : State) (t : Fin 1026) (c : CacheAt) (w : Nat) (raw : Nat) (len : Nat) (e : Dev), s.dev.alive = true ∧ Issues s.dev t
      .std w raw len e ∧ ((∀ l2, c ≠ .noFetch l2)) ∧ e.lacksEntry t w c = false ∧ ∃ v, rvOp w = 0x13 ∧ aluImm (rvF3 w) (bitsOf w
      20 12) ((e.thread t).rd (rvRs1 w)) = some v) ∧
    (∃ (s : State) (t : Fin 1026) (c : CacheAt) (w : Nat) (raw : Nat) (len : Nat) (e : Dev), s.dev.alive = true ∧ Issues s.dev t
      .std w raw len e ∧ ((∀ l2, c ≠ .noFetch l2)) ∧ e.lacksEntry t w c = false ∧ ∃ v, rvOp w = 0x33 ∧ aluOp (rvF7 w) (rvF3 w)
      ((e.thread t).rd (rvRs1 w)) ((e.thread t).rd (rvRs2 w)) = some v) ∧
    (∃ (s : State) (t : Fin 1026) (c : CacheAt) (w : Nat) (raw : Nat) (len : Nat) (e : Dev), s.dev.alive = true ∧ Issues s.dev t
      .std w raw len e ∧ ((∀ l2, c ≠ .noFetch l2)) ∧ e.lacksEntry t w c = false ∧ rvOp w = 0x63 ∧ branchTaken (rvF3 w)
      ((e.thread t).rd (rvRs1 w)) ((e.thread t).rd (rvRs2 w)) = some true) ∧
    (∃ (s : State) (t : Fin 1026) (c : CacheAt) (w : Nat) (raw : Nat) (len : Nat) (e : Dev), s.dev.alive = true ∧ Issues s.dev t
      .std w raw len e ∧ ((∀ l2, c ≠ .noFetch l2)) ∧ e.lacksEntry t w c = false ∧ rvOp w = 0x63 ∧ branchTaken (rvF3 w)
      ((e.thread t).rd (rvRs1 w)) ((e.thread t).rd (rvRs2 w)) = some false) ∧
    (∃ (s : State) (t : Fin 1026) (c : CacheAt) (w : Nat) (raw : Nat) (len : Nat) (e : Dev), s.dev.alive = true ∧ Issues s.dev t
      .std w raw len e ∧ ((∀ l2, c ≠ .noFetch l2)) ∧ e.lacksEntry t w c = false ∧ ∃ va f v pa, rvOp w = 0x03 ∧ rvF3 w ≠ 7 ∧ va =
      ((e.thread t).rd (rvRs1 w) + immI w).toNat ∧ e.vload t .load false va (2 ^ (rvF3 w % 4)) = (f, .val v pa)) ∧
    (∃ (s : State) (t : Fin 1026) (c : CacheAt) (w : Nat) (raw : Nat) (len : Nat) (e : Dev), s.dev.alive = true ∧ Issues s.dev t
      .std w raw len e ∧ ((∀ l2, c ≠ .noFetch l2)) ∧ e.lacksEntry t w c = false ∧ ∃ va f v pa, rvOp w = 0x23 ∧ rvF3 w ≤ 3 ∧ va =
      ((e.thread t).rd (rvRs1 w) + immS w).toNat ∧ e.vstoreAt t false va (2 ^ rvF3 w) = (f, .val v pa)) ∧
    (∃ (s : State) (t : Fin 1026) (c : CacheAt) (w : Nat) (raw : Nat) (len : Nat) (e : Dev), s.dev.alive = true ∧ Issues s.dev t
      .std w raw len e ∧ ((∀ l2, c ≠ .noFetch l2)) ∧ e.lacksEntry t w c = false ∧ w = 0x73 ∧ (e.thread t).mode = .m) :=
  ⟨⟨rvSt 0x00500093 id, 0, .l1, 0x00500093, 0x00500093, 4, fetched (rvSt 0x00500093 id).dev 0, by decide +kernel, issues_of
     (by decide +kernel), by rintro _ ⟨⟩, by decide +kernel, 5, by decide +kernel, by decide +kernel⟩,
   ⟨rvSt 0x00108133 id, 0, .l1, 0x00108133, 0x00108133, 4, fetched (rvSt 0x00108133 id).dev 0, by decide +kernel, issues_of
     (by decide +kernel), by rintro _ ⟨⟩, by decide +kernel, 0, by decide +kernel, by decide +kernel⟩,
   ⟨rvSt 0x00000463 id, 0, .l1, 0x00000463, 0x00000463, 4, fetched (rvSt 0x00000463 id).dev 0, by decide +kernel, issues_of
     (by decide +kernel), by rintro _ ⟨⟩, by decide +kernel⟩,
   ⟨rvSt 0x00001463 id, 0, .l1, 0x00001463, 0x00001463, 4, fetched (rvSt 0x00001463 id).dev 0, by decide +kernel, issues_of
     (by decide +kernel), by rintro _ ⟨⟩, by decide +kernel⟩,
   ⟨rvSt 0x0001b203 (fun t => { t with x := t.x.set 3 0x80002000#64 }), 0, .l1, 0x0001b203, 0x0001b203, 4, fetched (rvSt
     0x0001b203 (fun t => { t with x := t.x.set 3 0x80002000#64 })).dev 0, by decide +kernel, issues_of (by decide +kernel),
     by rintro _ ⟨⟩, by decide +kernel, _, _, 0, 0x80002000, by decide +kernel, by decide +kernel, rfl, pair_of
     (by decide +kernel)⟩,
   ⟨rvSt 0x0021b023 (fun t => { t with x := t.x.set 3 0x80002000#64 }), 0, .l1, 0x0021b023, 0x0021b023, 4, fetched (rvSt
     0x0021b023 (fun t => { t with x := t.x.set 3 0x80002000#64 })).dev 0, by decide +kernel, issues_of (by decide +kernel),
     by rintro _ ⟨⟩, by decide +kernel, _, _, 0, 0x80002000, by decide +kernel, by decide +kernel, rfl, pair_of
     (by decide +kernel)⟩,
   ⟨rvSt 0x73 id, 0, .l1, 0x73, 0x73, 4, fetched (rvSt 0x73 id).dev 0, by decide +kernel, issues_of (by decide +kernel),
     by rintro _ ⟨⟩, by decide +kernel, rfl, by decide +kernel⟩⟩

/-- The premises of FpAndWaits. -/
theorem test_witness_FpAndWaits :
    (∃ (s : State) (t : Fin 1026) (c : CacheAt) (w : Nat) (raw : Nat) (len : Nat) (e : Dev), s.dev.alive = true ∧ Issues s.dev t
      .fp w raw len e ∧ ((∀ l2, c ≠ .noFetch l2)) ∧ e.lacksEntry t w c = false ∧ ∃ rm, (e.thread t).fs ≠ 0 ∧ rvOp w = 0x53 ∧
      rvF7 w = 0 ∧ Dev.roundMode (e.thread t) w = some rm) ∧
    (∃ (s : State) (t : Fin 1026) (c : CacheAt) (w : Nat) (raw : Nat) (len : Nat) (e : Dev), s.dev.alive = true ∧ Issues s.dev t
      .fp w raw len e ∧ ((∀ l2, c ≠ .noFetch l2)) ∧ e.lacksEntry t w c = false ∧ (e.thread t).fs = 0) ∧
    (∃ (s : State) (t : Fin 1026) (c : CacheAt) (w : Nat) (raw : Nat) (len : Nat) (e : Dev), s.dev.alive = true ∧ Issues s.dev t
      .fp w raw len e ∧ ((∀ l2, c ≠ .noFetch l2)) ∧ e.lacksEntry t w c = false ∧ (e.thread t).fs ≠ 0 ∧ rvOp w = 0x53 ∧ rvF7 w =
      0 ∧ Dev.roundMode (e.thread t) w = none) ∧
    (∃ (s : State) (t : Fin 1026) (w : Nat) (raw : Nat) (len : Nat) (e : Dev), s.dev.alive = true ∧ Issues s.dev t .wfi w raw
      len e ∧ (e.thread t).mode = .m) ∧
    (∃ (s : State) (t : Fin 1026), s.dev.alive = true ∧ s.dev.runs t = true ∧ Dev.pendEn (s.dev.thread t) ≠ 0 ∧ (s.dev.thread
      t).wait = .wfi) ∧
    (∃ (s : State) (t : Fin 1026) (i : Fin 32) (m : Miss) (uncorr : Bool), s.dev.alive = true ∧ (s.dev.thread t).missed[i.val]?
      = some m ∧ m.entered = true ∧
    let c := Dev.coreOf t
    ((m.port = true → m.sent = true ∧ s.dev.portSlot c = true ∧ (s.dev.coreSt c).portIn ≤ s.dev.cycle)) ∧ (uncorr = false ∨
      hbmSize ≤ 64 * m.line)) ∧
    (∃ (s : State) (t : Fin 1026) (i : Fin 32) (m : Miss) (uncorr : Bool), s.dev.alive = true ∧ (s.dev.thread t).missed[i.val]?
      = some m ∧ m.entered = true ∧
    let c := Dev.coreOf t
    ((m.port = true → m.sent = true ∧ s.dev.portSlot c = true ∧ (s.dev.coreSt c).portIn ≤ s.dev.cycle)) ∧ uncorr = true ∧ 64 *
      m.line < hbmSize ∧ ((m.fetch = true ∨ m.store = true))) ∧
    (∃ (s : State) (t : Fin 1026) (i : Fin 32) (m : Miss) (uncorr : Bool), s.dev.alive = true ∧ (s.dev.thread t).missed[i.val]?
      = some m ∧ m.entered = true ∧
    let c := Dev.coreOf t
    ((m.port = true → m.sent = true ∧ s.dev.portSlot c = true ∧ (s.dev.coreSt c).portIn ≤ s.dev.cycle)) ∧ uncorr = true ∧ 64 *
      m.line < hbmSize ∧ m.fetch = false ∧ m.store = false ∧ s.dev.runs t = true) ∧
    (∃ (s : State) (t : Fin 1026) (i : Fin 32) (x : Nat × Nat × Nat), s.dev.alive = true ∧ (s.dev.thread t).missed = [] ∧
      (s.dev.core.strays.filter fun x => x.1 == t.val)[i.val]? = some x ∧ s.dev.firing (.kiln x.2.1) ≠ x.2.2) :=
  ⟨⟨rvSt 0x003100d3 (fun t => { t with csrs := [(0x300, 0x6000)] }), 0, .l1, 0x003100d3, 0x003100d3, 4, fetched (rvSt 0x003100d3
     (fun t => { t with csrs := [(0x300, 0x6000)] })).dev 0, by decide +kernel, issues_of (by decide +kernel), by rintro _ ⟨⟩,
     by decide +kernel, 0, by decide +kernel, by decide +kernel, by decide +kernel, by decide +kernel⟩,
   ⟨rvSt 0x003100d3 id, 0, .l1, 0x003100d3, 0x003100d3, 4, fetched (rvSt 0x003100d3 id).dev 0, by decide +kernel, issues_of
     (by decide +kernel), by rintro _ ⟨⟩, by decide +kernel⟩,
   ⟨rvSt 0x003150d3 (fun t => { t with csrs := [(0x300, 0x6000)] }), 0, .l1, 0x003150d3, 0x003150d3, 4, fetched (rvSt 0x003150d3
     (fun t => { t with csrs := [(0x300, 0x6000)] })).dev 0, by decide +kernel, issues_of (by decide +kernel), by rintro _ ⟨⟩,
     by decide +kernel⟩,
   ⟨rvSt 0x10500073 id, 0, 0x10500073, 0x10500073, 4, fetched (rvSt 0x10500073 id).dev 0, by decide +kernel, issues_of
     (by decide +kernel), by decide +kernel⟩,
   ⟨rvSt 0x10500073 fun t => { t with wait := .wfi, csrs := [(0x304, 2), (0x344, 2)] }, 0, by decide +kernel⟩,
   ⟨st fun d => (kiln0 d).modThread 0 fun t =>
     { t with missed := [{ line := 5, dest := 4, old := 0, pc := 0, va := 320, fault := 5, fetch := false, store := false, entered := true, port := true, since := 0, sent := true, tag := none }] },
     0, 0,
     { line := 5, dest := 4, old := 0, pc := 0, va := 320, fault := 5, fetch := false, store := false, entered := true, port := true, since := 0, sent := true, tag := none },
     false, by decide +kernel, by decide +kernel, by decide +kernel, by decide +kernel⟩,
   ⟨st fun d => (kiln0 d).modThread 0 fun t =>
     { t with missed := [{ line := 5, dest := 4, old := 0, pc := 0, va := 320, fault := 5, fetch := false, store := true, entered := true, port := false, since := 0, sent := true, tag := none }] },
     0, 0,
     { line := 5, dest := 4, old := 0, pc := 0, va := 320, fault := 5, fetch := false, store := true, entered := true, port := false, since := 0, sent := true, tag := none },
     true, by decide +kernel, by decide +kernel, by decide +kernel, by decide +kernel⟩,
   ⟨st fun d => (kiln0 d).modThread 0 fun t =>
     { t with missed := [{ line := 5, dest := 4, old := 0, pc := 0, va := 320, fault := 5, fetch := false, store := false, entered := true, port := false, since := 0, sent := true, tag := none }] },
     0, 0,
     { line := 5, dest := 4, old := 0, pc := 0, va := 320, fault := 5, fetch := false, store := false, entered := true, port := false, since := 0, sent := true, tag := none },
     true, by decide +kernel, by decide +kernel, by decide +kernel, by decide +kernel⟩,
   ⟨st fun d => { d with core := { d.core with strays := [(0, 1, 3)] } }, 0, 0, (0, 1, 3), by decide +kernel⟩⟩

/-- The premises of ThreadInstructions. -/
theorem test_witness_ThreadInstructions :
    (∃ (s : State) (t : Fin 1024) (w : Nat) (raw : Nat) (e : Dev) (u : Nat), s.dev.alive = true ∧ Issues s.dev t .tstart w raw 4
      e ∧ rvF7 w = 0 ∧ rvRd w = 0 ∧ (e.thread t).mode = .m ∧ t.val / 8 * 8 + ((e.thread t).rd (rvRs1 w)).toNat % 8 = u ∧ u ≠
      t.val ∧ ((e.retireIns t 4).thread u).enabled = false) ∧
    (∃ (s : State) (t : Fin 1024) (w : Nat) (raw : Nat) (e : Dev) (u : Nat), s.dev.alive = true ∧ Issues s.dev t .tstop w raw 4
      e ∧ rvF7 w = 0 ∧ rvRd w = 0 ∧ rvRs2 w = 0 ∧ (e.thread t).mode = .m ∧ t.val / 8 * 8 + ((e.thread t).rd (rvRs1 w)).toNat % 8
      = u ∧ ((e.retireIns t 4).thread u).enabled = true) ∧
    (∃ (s : State) (t : Fin 1026) (w : Nat) (raw : Nat) (e : Dev), s.dev.alive = true ∧ Issues s.dev t .twait w raw 4 e ∧ rvF7 w
      = 0 ∧ rvRd w = 0 ∧ rvRs2 w = 0 ∧ Dev.pendEn (e.thread t) = 0) ∧
    (∃ (s : State) (t : Fin 1026) (m : Nat), s.dev.alive = true ∧ (s.dev.thread t).wait = .twait m ∧ s.dev.runs t = true ∧
      Dev.twaitHit (s.dev.thread t) m = true) ∧
    (∃ (s : State) (t : Fin 1026) (w : Nat) (raw : Nat) (e : Dev), s.dev.alive = true ∧ Issues s.dev t .tpause w raw 4 e ∧ rvF7
      w = 0 ∧ rvRd w = 0 ∧ rvRs2 w = 0 ∧ Dev.pendEn (e.thread t) = 0 ∧ (e.thread t).rd (rvRs1 w) ≠ 0) ∧
    (∃ (s : State) (t : Fin 1026) (u : Nat), s.dev.alive = true ∧ (s.dev.thread t).wait = .pause u ∧ s.dev.runs t = true ∧ u ≤
      s.dev.cycle) :=
  ⟨⟨rvSt 0x0020800B (fun t => { t with x := t.x.set 1 3#64 }), 0, 0x0020800B, 0x0020800B, fetched (rvSt 0x0020800B (fun t =>
     { t with x := t.x.set 1 3#64 })).dev 0, 3, by decide +kernel, issues_of (by decide +kernel), by decide +kernel,
     by decide +kernel, by decide +kernel, by decide +kernel, by decide +kernel⟩,
   ⟨rvSt 0x0000900B id, 0, 0x0000900B, 0x0000900B, fetched (rvSt 0x0000900B id).dev 0, 0, by decide +kernel, issues_of
     (by decide +kernel), by decide +kernel, by decide +kernel, by decide +kernel, by decide +kernel, by decide +kernel,
     by decide +kernel⟩,
   ⟨rvSt 0x0000A00B id, 0, 0x0000A00B, 0x0000A00B, fetched (rvSt 0x0000A00B id).dev 0, by decide +kernel, issues_of
     (by decide +kernel), by decide +kernel⟩,
   ⟨rvSt 0 fun t => { t with wait := .twait 16, inbox := [1] }, 0, 16, by decide +kernel⟩,
   ⟨rvSt 0x0000B00B (fun t => { t with x := t.x.set 1 5#64 }), 0, 0x0000B00B, 0x0000B00B, fetched (rvSt 0x0000B00B (fun t =>
     { t with x := t.x.set 1 5#64 })).dev 0, by decide +kernel, issues_of (by decide +kernel), by decide +kernel⟩,
   ⟨rvSt 0 fun t => { t with wait := .pause 0 }, 0, 0, by decide +kernel⟩⟩

/-- The premises of ChannelInstructions. -/
theorem test_witness_ChannelInstructions :
    (∃ (s : State) (t : Fin 1026) (w : Nat) (raw : Nat) (e : Dev) (c : Nat) (x : Channel), s.dev.alive = true ∧ Issues s.dev t
      .chsend w raw 4 e ∧ rvF7 w < 4 ∧ rvRs1 w = 0 ∧ rvRd w = 0 ∧ e.txChan t (rvF7 w) = some (c, x) ∧ x.closed = false ∧
      (e.txFifo t (rvF7 w)).length < 8) ∧
    (∃ (s : State) (t : Fin 1026) (w : Nat) (raw : Nat) (e : Dev) (c : Nat) (x : Channel), s.dev.alive = true ∧ Issues s.dev t
      .chsendnb w raw 4 e ∧ rvF7 w < 4 ∧ rvRs1 w = 0 ∧ e.txChan t (rvF7 w) = some (c, x) ∧ x.closed = false ∧ (e.txFifo t (rvF7
      w)).length < 8) ∧
    (∃ (s : State) (t : Fin 1026) (w : Nat) (raw : Nat) (e : Dev) (c : Nat) (x : Channel) (m : W64) (q : List W64), s.dev.alive
      = true ∧ rvF7 w < 4 ∧ rvRs1 w = 0 ∧ rvRs2 w = 0 ∧ e.rxChan t (rvF7 w) = some (c, x) ∧ e.rxFifo x.dstT x.dstEp = m :: q ∧
      Issues s.dev t .chrecv w raw 4 e) ∧
    (∃ (s : State) (t : Fin 1026) (w : Nat) (raw : Nat) (e : Dev) (c : Nat) (x : Channel) (m : W64) (q : List W64), s.dev.alive
      = true ∧ rvF7 w < 4 ∧ rvRs1 w = 0 ∧ rvRs2 w = 0 ∧ e.rxChan t (rvF7 w) = some (c, x) ∧ e.rxFifo x.dstT x.dstEp = m :: q ∧
      Issues s.dev t .chrecvnb w raw 4 e) ∧
    (∃ (s : State) (t : Fin 1026) (w : Nat) (raw : Nat) (e : Dev) (h : W64) (q : List W64), s.dev.alive = true ∧ rvF7 w = 0 ∧
      rvRs1 w = 0 ∧ rvRs2 w = 0 ∧ (e.thread t).inbox = h :: q ∧ Issues s.dev t .pkrecv w raw 4 e) ∧
    (∃ (s : State) (t : Fin 1026) (w : Nat) (raw : Nat) (e : Dev) (h : W64) (q : List W64), s.dev.alive = true ∧ rvF7 w = 0 ∧
      rvRs1 w = 0 ∧ rvRs2 w = 0 ∧ (e.thread t).inbox = h :: q ∧ Issues s.dev t .pkrecvnb w raw 4 e) ∧
    (∃ (s : State) (t : Fin 1026) (w : Nat) (raw : Nat) (e : Dev), s.dev.alive = true ∧ Issues s.dev t .pkrecvnb w raw 4 e ∧
      rvF7 w = 0 ∧ rvRs1 w = 0 ∧ rvRs2 w = 0 ∧ (e.thread t).inbox = []) ∧
    (∃ (s : State) (t : Fin 1026) (w : Nat) (raw : Nat) (e : Dev), s.dev.alive = true ∧ Issues s.dev t .pksend w raw 4 e ∧ rvF7
      w = 0 ∧ rvRd w = 0 ∧ (e.thread t).retq.length < 8) ∧
    (∃ (s : State) (t : Fin 1026) (w : Nat) (raw : Nat) (e : Dev) (c : Nat) (x : Channel), s.dev.alive = true ∧ Issues s.dev t
      .chsend w raw 4 e ∧ rvF7 w < 4 ∧ rvRs1 w = 0 ∧ rvRd w = 0 ∧ e.txChan t (rvF7 w) = some (c, x) ∧ x.closed = true) ∧
    (∃ (s : State) (t : Fin 1026) (w : Nat) (raw : Nat) (e : Dev) (c : Nat) (x : Channel), s.dev.alive = true ∧ Issues s.dev t
      .chsend w raw 4 e ∧ rvF7 w < 4 ∧ rvRs1 w = 0 ∧ rvRd w = 0 ∧ e.txChan t (rvF7 w) = some (c, x) ∧ x.closed = false ∧ 8 ≤
      (e.txFifo t (rvF7 w)).length) ∧
    (∃ (s : State) (t : Fin 1026) (w : Nat) (raw : Nat) (e : Dev), s.dev.alive = true ∧ Issues s.dev t .chrecv w raw 4 e ∧ rvF7
      w < 4 ∧ rvRs1 w = 0 ∧ rvRs2 w = 0 ∧ e.rxChan t (rvF7 w) = none ∧ (e.thread t).mode = .m) ∧
    (∃ (s : State) (t : Fin 1026) (w : Nat) (raw : Nat) (e : Dev) (c : Nat) (x : Channel), s.dev.alive = true ∧ Issues s.dev t
      .chrecv w raw 4 e ∧ rvF7 w < 4 ∧ rvRs1 w = 0 ∧ rvRs2 w = 0 ∧ e.rxChan t (rvF7 w) = some (c, x) ∧ e.rxFifo x.dstT x.dstEp =
      []) ∧
    (∃ (s : State) (t : Fin 1026) (w : Nat) (raw : Nat) (e : Dev), s.dev.alive = true ∧ Issues s.dev t .pkrecv w raw 4 e ∧ rvF7
      w = 0 ∧ rvRs1 w = 0 ∧ rvRs2 w = 0 ∧ (e.thread t).inbox = []) ∧
    (∃ (s : State) (t : Fin 1026) (w : Nat) (raw : Nat) (e : Dev), s.dev.alive = true ∧ Issues s.dev t .pksend w raw 4 e ∧ rvF7
      w = 0 ∧ rvRd w = 0 ∧ (e.thread t).retq.length = 8) :=
  ⟨⟨rvDev 0x0020002B fun d => d.setChannel 0 (some ⟨false, 0, 0, 8, 0, 7, 8, [], [], [], none⟩), 0, 0x0020002B, 0x0020002B,
     fetched (rvDev 0x0020002B fun d => d.setChannel 0 (some ⟨false, 0, 0, 8, 0, 7, 8, [], [], [], none⟩)).dev 0, 0, ⟨false, 0,
     0, 8, 0, 7, 8, [], [], [], none⟩, by decide +kernel, issues_of (by decide +kernel), by decide +kernel⟩,
   ⟨rvDev 0x002010AB fun d => d.setChannel 0 (some ⟨false, 0, 0, 8, 0, 7, 8, [], [], [], none⟩), 0, 0x002010AB, 0x002010AB,
     fetched (rvDev 0x002010AB fun d => d.setChannel 0 (some ⟨false, 0, 0, 8, 0, 7, 8, [], [], [], none⟩)).dev 0, 0, ⟨false, 0,
     0, 8, 0, 7, 8, [], [], [], none⟩, by decide +kernel, issues_of (by decide +kernel), by decide +kernel⟩,
   ⟨rvDev 0x000020AB fun d => (d.setChannel 0 (some ⟨false, 8, 0, 0, 0, 7, 8, [], [], [], none⟩)).setRx 0 0 [5], 0, 0x000020AB,
     0x000020AB, fetched (rvDev 0x000020AB fun d => (d.setChannel 0 (some ⟨false, 8, 0, 0, 0, 7, 8, [], [], [], none⟩)).setRx 0
     0 [5]).dev 0, 0, ⟨false, 8, 0, 0, 0, 7, 8, [], [], [], none⟩, 5, [], by decide +kernel, by decide +kernel,
     by decide +kernel, by decide +kernel, by decide +kernel, by decide +kernel, issues_of (by decide +kernel)⟩,
   ⟨rvDev 0x000030AB fun d => (d.setChannel 0 (some ⟨false, 8, 0, 0, 0, 7, 8, [], [], [], none⟩)).setRx 0 0 [5], 0, 0x000030AB,
     0x000030AB, fetched (rvDev 0x000030AB fun d => (d.setChannel 0 (some ⟨false, 8, 0, 0, 0, 7, 8, [], [], [], none⟩)).setRx 0
     0 [5]).dev 0, 0, ⟨false, 8, 0, 0, 0, 7, 8, [], [], [], none⟩, 5, [], by decide +kernel, by decide +kernel,
     by decide +kernel, by decide +kernel, by decide +kernel, by decide +kernel, issues_of (by decide +kernel)⟩,
   ⟨rvSt 0x000040AB (fun t => { t with inbox := [7] }), 0, 0x000040AB, 0x000040AB, fetched (rvSt 0x000040AB (fun t =>
     { t with inbox := [7] })).dev 0, 7, [], by decide +kernel, by decide +kernel, by decide +kernel, by decide +kernel,
     by decide +kernel, issues_of (by decide +kernel)⟩,
   ⟨rvSt 0x000050AB (fun t => { t with inbox := [7] }), 0, 0x000050AB, 0x000050AB, fetched (rvSt 0x000050AB (fun t =>
     { t with inbox := [7] })).dev 0, 7, [], by decide +kernel, by decide +kernel, by decide +kernel, by decide +kernel,
     by decide +kernel, issues_of (by decide +kernel)⟩,
   ⟨rvSt 0x000050AB id, 0, 0x000050AB, 0x000050AB, fetched (rvSt 0x000050AB id).dev 0, by decide +kernel, issues_of
     (by decide +kernel), by decide +kernel⟩,
   ⟨rvSt 0x0020E02B id, 0, 0x0020E02B, 0x0020E02B, fetched (rvSt 0x0020E02B id).dev 0, by decide +kernel, issues_of
     (by decide +kernel), by decide +kernel⟩,
   ⟨rvDev 0x0020002B fun d => d.setChannel 0 (some ⟨true, 0, 0, 8, 0, 7, 8, [], [], [], none⟩), 0, 0x0020002B, 0x0020002B,
     fetched (rvDev 0x0020002B fun d => d.setChannel 0 (some ⟨true, 0, 0, 8, 0, 7, 8, [], [], [], none⟩)).dev 0, 0, ⟨true, 0, 0,
     8, 0, 7, 8, [], [], [], none⟩, by decide +kernel, issues_of (by decide +kernel), by decide +kernel⟩,
   ⟨rvDev 0x0020002B fun d => (d.setChannel 0 (some ⟨false, 0, 0, 8, 0, 7, 8, [], [], [], none⟩)).setTx 0 0 (List.replicate 8
     0), 0, 0x0020002B, 0x0020002B, fetched (rvDev 0x0020002B fun d => (d.setChannel 0 (some ⟨false, 0, 0, 8, 0, 7, 8, [], [],
     [], none⟩)).setTx 0 0 (List.replicate 8 0)).dev 0, 0, ⟨false, 0, 0, 8, 0, 7, 8, [], [], [], none⟩, by decide +kernel,
     issues_of (by decide +kernel), by decide +kernel⟩,
   ⟨rvSt 0x000020AB id, 0, 0x000020AB, 0x000020AB, fetched (rvSt 0x000020AB id).dev 0, by decide +kernel, issues_of
     (by decide +kernel), by decide +kernel⟩,
   ⟨rvDev 0x000020AB fun d => d.setChannel 0 (some ⟨false, 8, 0, 0, 0, 7, 8, [], [], [], none⟩), 0, 0x000020AB, 0x000020AB,
     fetched (rvDev 0x000020AB fun d => d.setChannel 0 (some ⟨false, 8, 0, 0, 0, 7, 8, [], [], [], none⟩)).dev 0, 0, ⟨false, 8,
     0, 0, 0, 7, 8, [], [], [], none⟩, by decide +kernel, issues_of (by decide +kernel), by decide +kernel⟩,
   ⟨rvSt 0x000040AB id, 0, 0x000040AB, 0x000040AB, fetched (rvSt 0x000040AB id).dev 0, by decide +kernel, issues_of
     (by decide +kernel), by decide +kernel⟩,
   ⟨rvSt 0x0020E02B (fun t => { t with retq := List.replicate 8 (0, 0) }), 0, 0x0020E02B, 0x0020E02B, fetched (rvSt 0x0020E02B
     (fun t => { t with retq := List.replicate 8 (0, 0) })).dev 0, by decide +kernel, issues_of (by decide +kernel),
     by decide +kernel⟩⟩

/-- The premises of GlazeStarts. -/
theorem test_witness_GlazeStarts :
    (∃ (s : State) (op : Nat) (e : Nat) (row : Instr) (g : GlzJob) (t : Dev), s.dev.alive = true ∧ ((op = 1 ∧ row = .glzEncrypt
      ∨ op = 2 ∧ row = .glzDecrypt ∨ op = 3 ∧ row = .glzHash ∨ op = 4 ∧ row = .glzHmac)) ∧ glzChosen s.dev op e g t ∧ g.job.sto
      = none ∧ t.glzCheck g = 0 ∧
    let b := g.job.block
    let c := t.kctx (jbKc b)
    (((Dev.glzAddrs b (if op = 3 ∨ op = 4 then 0 else jbLen b) (if op = 3 then (digestLen (jbHash b)).getD 0 else jbTagLen b)
      false).any fun r => !t.tAllowed g.job.chan r.1 r.2) = false) ∧ ((c.cached = true ∨ op = 3)) ∧ ((op ≠ 1 ∨ isInvocation
      c.alg = false))) ∧
    (∃ (s : State) (op : Nat) (e : Nat) (row : Instr) (g : GlzJob) (t : Dev), s.dev.alive = true ∧ ((op = 1 ∧ row = .glzEncrypt
      ∨ op = 2 ∧ row = .glzDecrypt ∨ op = 3 ∧ row = .glzHash ∨ op = 4 ∧ row = .glzHmac)) ∧ glzChosen s.dev op e g t ∧ g.job.sto
      = none ∧ t.glzCheck g = 0 ∧
    let b := g.job.block
    let c := t.kctx (jbKc b)
    (((Dev.glzAddrs b (if op = 3 ∨ op = 4 then 0 else jbLen b) (if op = 3 then (digestLen (jbHash b)).getD 0 else jbTagLen b)
      false).any fun r => !t.tAllowed g.job.chan r.1 r.2) = false) ∧ ((c.cached = true ∨ op = 3)) ∧ ∃ n near u, op = 1 ∧
      isInvocation c.alg = true ∧ ((t.turnInvoke (jbKc b) e).mark (.invoked (jbKc b) e)).takeCounter (jbKc b) (2 ^ 64) false =
      (some (n, near), u)) :=
  ⟨⟨glzSt [] [⟨tJob 3 [(1, 1, 1), (56, 8, 0x1000)], none⟩], 3, 64, .glzHash, ⟨tJob 3 [(1, 1, 1), (56, 8, 0x1000)], none⟩, glzT
     (glzSt [] [⟨tJob 3 [(1, 1, 1), (56, 8, 0x1000)], none⟩]).dev, by decide +kernel, by decide +kernel, glz_of
     (by decide +kernel), by decide +kernel, by decide +kernel, by decide +kernel⟩,
   ⟨glzSt [(0, keyCtx 0x81800000 10)] [⟨tJob 1 [(2, 1, 16), (56, 8, 0x1000)], none⟩], 1, 64, .glzEncrypt, ⟨tJob 1 [(2, 1, 16),
     (56, 8, 0x1000)], none⟩, glzT (glzSt [(0, keyCtx 0x81800000 10)] [⟨tJob 1 [(2, 1, 16), (56, 8, 0x1000)], none⟩]).dev,
     by decide +kernel, by decide +kernel, glz_of (by decide +kernel), by decide +kernel, by decide +kernel, by decide +kernel,
     by decide +kernel, 0, false, _, by decide +kernel, by decide +kernel, pair_of' (by decide +kernel)⟩⟩

/-- The premises of InvocationCounter. -/
theorem test_witness_InvocationCounter :
    (∃ (d : Dev) (i : Nat) (lim : Nat), (d.kctx i).counter < Nat.min (d.kctx i).limit lim ∧ (d.kctx i).counter + 1 < 2 ^ 64 ∧
      (d.kctx i).attr.length = 64) ∧
    (∃ (d : Dev) (i : Nat) (lim : Nat), Nat.min (d.kctx i).limit lim ≤ (d.kctx i).counter) :=
  ⟨⟨{ Dev.reset with glz := { Dev.reset.glz with kc := [(0, keyCtx 0 10)] } }, 0, 5, by decide +kernel⟩,
   ⟨{ Dev.reset with glz := { Dev.reset.glz with kc := [(0, keyCtx 0 10)] } }, 0, 0, by decide +kernel⟩⟩

/-- The premises of KeyCommands. -/
theorem test_witness_KeyCommands :
    (∃ (s : State) (g : Fin 4096) (x : GlzJob) (t : Dev) (host : List Byte), s.dev.alive = true ∧ x.job.owner = none ∧
    let b := x.job.block
    ∃ r, keyChosen s.dev g 0x70 x t ∧ t.tAllowed g (jbSrc b) 128 = true ∧ t.ioReadT (jbSrc b) 128 = r ∧ badAttr ((r.fetchT
      (jbSrc b) 128 host).take 64) = false) ∧
    (∃ (s : State) (g : Fin 4096) (x : GlzJob) (t : Dev) (host : List Byte), s.dev.alive = true ∧ x.job.owner = none ∧
    let b := x.job.block
    ∃ r, keyChosen s.dev g 0x71 x t ∧ t.tAllowed g (jbSrc b) 64 = true ∧ t.ioReadT (jbSrc b) 64 = r ∧ badAttr (r.fetchT (jbSrc
      b) 64 host) = false) ∧
    (∃ (s : State) (g : Fin 4096) (x : GlzJob) (t : Dev), s.dev.alive = true ∧ x.job.owner = none ∧
    let b := x.job.block
    ∃ r k, keyChosen s.dev g 0x72 x t ∧ t.tAllowed g (jbSrc b) 136 = true ∧ t.ioReadT (jbSrc b) 136 = r ∧ r.kwkKey none (jbKwk
      b) = some k) ∧
    (∃ (s : State) (g : Fin 4096) (x : GlzJob) (t : Dev), s.dev.alive = true ∧ x.job.owner = none ∧
    let b := x.job.block
    let i := jbKc b
    ∃ r k, keyChosen s.dev g 0x73 x t ∧ t.tAllowed g (jbDst b) 136 = true ∧ t.ioReadT (jbDst b) 136 = r ∧ r.kwkKey none (jbKwk
      b) = some k ∧ r.kcUsable none i = true ∧ (r.kctx i).useExport = true) ∧
    (∃ (s : State) (g : Fin 4096) (x : GlzJob) (t : Dev), s.dev.alive = true ∧ x.job.owner = none ∧ keyChosen s.dev g 0x74 x t) ∧
    (∃ (s : State) (g : Fin 4096) (x : GlzJob) (t : Dev), s.dev.alive = true ∧ x.job.owner = none ∧
    let b := x.job.block
    ∃ r, keyChosen s.dev g 0x75 x t ∧ t.tAllowed g (jbDst b) 64 = true ∧ t.ioReadT (jbDst b) 64 = r) :=
  ⟨⟨glzSt [] [⟨tJob 0x70 [(32, 8, 0)], none⟩], 0, ⟨tJob 0x70 [(32, 8, 0)], none⟩, (glzSt [] [⟨tJob 0x70 [(32, 8, 0)],
     none⟩]).dev.setGlz fun s => { s with jobs := [] }, attrOf 0x81000000 0 ++ List.replicate 64 0#8, by decide +kernel,
     by decide +kernel, _, by unfold keyChosen; decide +kernel, by decide +kernel, rfl, by decide +kernel⟩,
   ⟨glzSt [] [⟨tJob 0x71 [(32, 8, 0)], none⟩], 0, ⟨tJob 0x71 [(32, 8, 0)], none⟩, (glzSt [] [⟨tJob 0x71 [(32, 8, 0)],
     none⟩]).dev.setGlz fun s => { s with jobs := [] }, attrOf 0x81000000 0 ++ List.replicate 64 0#8, by decide +kernel,
     by decide +kernel, _, by unfold keyChosen; decide +kernel, by decide +kernel, rfl, by decide +kernel⟩,
   ⟨glzSt [(1, keyCtx 0x92000000 0), (0, keyCtx 0x81100000 0)] [⟨tJob 0x72 [(32, 8, 0), (8, 4, 1)], none⟩], 0, ⟨tJob 0x72 [(32,
     8, 0), (8, 4, 1)], none⟩, (glzSt [(1, keyCtx 0x92000000 0), (0, keyCtx 0x81100000 0)] [⟨tJob 0x72 [(32, 8, 0), (8, 4, 1)],
     none⟩]).dev.setGlz fun s => { s with jobs := [] }, by decide +kernel, by decide +kernel, _, List.replicate 32 0#8,
     by unfold keyChosen; decide +kernel, by decide +kernel, rfl, by decide +kernel⟩,
   ⟨glzSt [(1, keyCtx 0x92000000 0), (0, keyCtx 0x81100000 0)] [⟨tJob 0x73 [(40, 8, 0), (8, 4, 1)], none⟩], 0, ⟨tJob 0x73 [(40,
     8, 0), (8, 4, 1)], none⟩, (glzSt [(1, keyCtx 0x92000000 0), (0, keyCtx 0x81100000 0)] [⟨tJob 0x73 [(40, 8, 0), (8, 4, 1)],
     none⟩]).dev.setGlz fun s => { s with jobs := [] }, by decide +kernel, by decide +kernel, _, List.replicate 32 0#8,
     by unfold keyChosen; decide +kernel, by decide +kernel, rfl, by decide +kernel⟩,
   ⟨glzSt [] [⟨tJob 0x74 [], none⟩], 0, ⟨tJob 0x74 [], none⟩, (glzSt [] [⟨tJob 0x74 [], none⟩]).dev.setGlz fun s =>
     { s with jobs := [] }, by decide +kernel, by decide +kernel, by unfold keyChosen; decide +kernel⟩,
   ⟨glzSt [] [⟨tJob 0x75 [(40, 8, 0)], none⟩], 0, ⟨tJob 0x75 [(40, 8, 0)], none⟩, (glzSt [] [⟨tJob 0x75 [(40, 8, 0)],
     none⟩]).dev.setGlz fun s => { s with jobs := [] }, by decide +kernel, by decide +kernel, _,
     by unfold keyChosen; decide +kernel, by decide +kernel, rfl⟩⟩

/-- The premises of GlazeEnds. -/
theorem test_witness_GlazeEnds :
    (∃ (s : State) (e : Fin 256) (r : GlzRun) (g : GlzJob) (c : KeyCtx), s.dev.alive = true ∧ s.dev.glzEng e = some r ∧ r.due =
      none ∧ r.work = .job g ∧ s.dev.kctx (jbKc (Dev.glzBlock g)) = c ∧ c.valid = true ∧ (s.dev.glz.kc.filter fun kv =>
      kv.2.cached).length < 16384 ∧
    let i := jbKc (Dev.glzBlock g)
    let a := s.dev.kcBase + 256 * i
    s.dev.poisoned a 256 = false) ∧
    (∃ (s : State) (e : Fin 256) (r : GlzRun) (g : GlzJob) (c : KeyCtx), s.dev.alive = true ∧ s.dev.glzEng e = some r ∧ r.due =
      none ∧ r.work = .job g ∧ s.dev.kctx (jbKc (Dev.glzBlock g)) = c ∧ c.valid = true ∧ (s.dev.glz.kc.filter fun kv =>
      kv.2.cached).length < 16384 ∧
    let i := jbKc (Dev.glzBlock g)
    let a := s.dev.kcBase + 256 * i
    s.dev.poisoned a 256 = true) ∧
    (∃ (s : State) (e : Fin 256) (r : GlzRun) (g : GlzJob) (due : Nat) (outs : List (Nat × List Byte)) (st : Nat) (iv : List
      Byte), s.dev.alive = true ∧ s.dev.glzEng e = some r ∧ r.work = .job g ∧ r.due = some due ∧ due ≤ s.dev.cycle ∧ g.copy =
      none ∧ g.job.sto = none ∧ s.dev.cycle < g.job.handed + 300000000 ∧ s.dev.fedAll g.job = true ∧ Dev.glzResult r g
      ((s.dev.fed g.job 0).take (jbLen g.job.block)) (s.dev.fed g.job 1) (s.dev.fed g.job 2) = (outs, st, iv) ∧ Dev.flagDec r g
      = false) ∧
    (∃ (s : State) (e : Fin 256) (r : GlzRun) (g : GlzJob) (due : Nat) (outs : List (Nat × List Byte)) (st : Nat) (iv : List
      Byte), s.dev.alive = true ∧ s.dev.glzEng e = some r ∧ r.work = .job g ∧ r.due = some due ∧ due ≤ s.dev.cycle ∧ g.copy =
      none ∧ g.job.sto = none ∧ s.dev.cycle < g.job.handed + 300000000 ∧ s.dev.fedAll g.job = true ∧ Dev.glzResult r g
      ((s.dev.fed g.job 0).take (jbLen g.job.block)) (s.dev.fed g.job 1) (s.dev.fed g.job 2) = (outs, st, iv) ∧ Dev.flagDec r g
      = true) ∧
    (∃ (s : State) (g : GlzJob), s.dev.alive = true ∧ s.dev.glz.jobs = [g] ∧ g.job.handed + 54000000 ≤ s.dev.cycle) ∧
    (∃ (s : State) (e : Fin 256) (r : GlzRun) (g : GlzJob), s.dev.alive = true ∧ s.dev.glzEng e = some r ∧ r.work = .job g ∧
      g.job.handed + 300000000 ≤ s.dev.cycle) :=
  ⟨⟨st fun d => ({ d with glz := { d.glz with kc := [(0, keyCtx 0x81800000 10)] } }.setGlzEng 0 (some ⟨.job ⟨tJob 1 [(2, 1, 16),
     (56, 8, 0x1000)], none⟩, keyCtx 0x81800000 10, .reset, none, false, none, 0, none, 5, 0, false⟩)), 0, ⟨.job ⟨tJob 1 [(2, 1,
     16), (56, 8, 0x1000)], none⟩, keyCtx 0x81800000 10, .reset, none, false, none, 0, none, 5, 0, false⟩, ⟨tJob 1 [(2, 1, 16),
     (56, 8, 0x1000)], none⟩, keyCtx 0x81800000 10, by decide +kernel, by decide +kernel, by decide +kernel, by decide +kernel,
     by decide +kernel, by decide +kernel, by decide +kernel, by decide +kernel⟩,
   ⟨st fun d =>
     ({ d with glz := { d.glz with kc := [(0, keyCtx 0x81800000 10)] }, mem := { d.mem with poison := [0] } }.setGlzEng 0 (some
     ⟨.job ⟨tJob 1 [(2, 1, 16), (56, 8, 0x1000)], none⟩, keyCtx 0x81800000 10, .reset, none, false, none, 0, none, 5, 0,
     false⟩)), 0, ⟨.job ⟨tJob 1 [(2, 1, 16), (56, 8, 0x1000)], none⟩, keyCtx 0x81800000 10, .reset, none, false, none, 0, none,
     5, 0, false⟩, ⟨tJob 1 [(2, 1, 16), (56, 8, 0x1000)], none⟩, keyCtx 0x81800000 10, by decide +kernel, by decide +kernel,
     by decide +kernel, by decide +kernel, by decide +kernel, by decide +kernel, by decide +kernel, by decide +kernel⟩,
   ⟨st fun d => (d.modChan 0 fun c => { c with feeds := [⟨0, [], [], none⟩] }).setGlzEng 0 (some ⟨.job ⟨tJob 3 [(1, 1, 1), (56,
     8, 0x1000)], none⟩, keyCtx 0 10, .reset, none, false, none, 0, some 0, 5, 0, false⟩), 0, ⟨.job ⟨tJob 3 [(1, 1, 1), (56, 8,
     0x1000)], none⟩, keyCtx 0 10, .reset, none, false, none, 0, some 0, 5, 0, false⟩, ⟨tJob 3 [(1, 1, 1), (56, 8, 0x1000)],
     none⟩, 0, _, _, _, by decide +kernel, by decide +kernel, by decide +kernel, by decide +kernel, by decide +kernel,
     by decide +kernel, by decide +kernel, by decide +kernel, by decide +kernel, eta3 _, by decide +kernel⟩,
   ⟨st fun d => (d.modChan 0 fun c => { c with feeds := [⟨0, [], [], none⟩] }).setGlzEng 0 (some ⟨.job ⟨tJob 2 [(2, 1, 16), (56,
     8, 0x1000)], none⟩, keyCtx 0xA1400000 10, .reset, none, false, none, 0, some 0, 5, 0, false⟩), 0, ⟨.job ⟨tJob 2 [(2, 1,
     16), (56, 8, 0x1000)], none⟩, keyCtx 0xA1400000 10, .reset, none, false, none, 0, some 0, 5, 0, false⟩, ⟨tJob 2 [(2, 1,
     16), (56, 8, 0x1000)], none⟩, 0, _, _, _, by decide +kernel, by decide +kernel, by decide +kernel, by decide +kernel,
     by decide +kernel, by decide +kernel, by decide +kernel, by decide +kernel, by decide +kernel, eta3 _, by decide +kernel⟩,
   ⟨st fun d => { d with cycle := 54000000, glz := { d.glz with jobs := [⟨tJob 1 [(2, 1, 16), (56, 8, 0x1000)], none⟩] } },
     ⟨tJob 1 [(2, 1, 16), (56, 8, 0x1000)], none⟩, by decide +kernel⟩,
   ⟨st fun d =>
     { d.setGlzEng 0 (some ⟨.job ⟨tJob 3 [(1, 1, 1), (56, 8, 0x1000)], none⟩, keyCtx 0 10, .reset, none, false, none, 0, none, 5, 0, false⟩) with cycle := 300000000 },
     0, ⟨.job ⟨tJob 3 [(1, 1, 1), (56, 8, 0x1000)], none⟩, keyCtx 0 10, .reset, none, false, none, 0, none, 5, 0, false⟩, ⟨tJob
     3 [(1, 1, 1), (56, 8, 0x1000)], none⟩, by decide +kernel⟩⟩

/-- The premises of GlazeInlineAndTable. -/
theorem test_witness_GlazeInlineAndTable :
    (∃ (s : State) (e : Nat) (i : Nat) (xi : Nat) (q : List Nat) (f : Frame) (a : Actions), s.dev.alive = true ∧ s.dev.freeGlz
      true = some e ∧ s.dev.inlineWaiting = i :: q ∧ s.dev.frame? i = some f ∧ f.act = some a ∧ a.xform = some xi ∧
    let w := (s.dev.setGlz fun g => { g with inlineQ := q }).syncInline
    let b := (w.before (.ixtWrite xi)).before (.keyWrite (w.ixtEnt xi).kc)
    let t := if (b.ixtEnt xi).isRx then b else b.turnInvoke (b.ixtEnt xi).kc e
    let x := t.ixtEnt xi
    t.ixtOk x = false) ∧
    (∃ (s : State) (e : Nat) (i : Nat) (xi : Nat) (q : List Nat) (f : Frame) (a : Actions), s.dev.alive = true ∧ s.dev.freeGlz
      true = some e ∧ s.dev.inlineWaiting = i :: q ∧ s.dev.frame? i = some f ∧ f.act = some a ∧ a.xform = some xi ∧
    let w := (s.dev.setGlz fun g => { g with inlineQ := q }).syncInline
    let b := (w.before (.ixtWrite xi)).before (.keyWrite (w.ixtEnt xi).kc)
    let t := if (b.ixtEnt xi).isRx then b else b.turnInvoke (b.ixtEnt xi).kc e
    let x := t.ixtEnt xi
    let short : Bool := !x.isRx && (decide (2 ≤ x.type) && decide (f.len - 4 < x.hdrOff + 32))
    t.ixtOk x = true ∧ short = true) ∧
    (∃ (s : State) (e : Nat) (i : Nat) (xi : Nat) (q : List Nat) (f : Frame) (a : Actions), s.dev.alive = true ∧ s.dev.freeGlz
      true = some e ∧ s.dev.inlineWaiting = i :: q ∧ s.dev.frame? i = some f ∧ f.act = some a ∧ a.xform = some xi ∧
    let w := (s.dev.setGlz fun g => { g with inlineQ := q }).syncInline
    let b := (w.before (.ixtWrite xi)).before (.keyWrite (w.ixtEnt xi).kc)
    let t := if (b.ixtEnt xi).isRx then b else b.turnInvoke (b.ixtEnt xi).kc e
    let x := t.ixtEnt xi
    t.ixtOk x = true ∧ x.isRx = true) ∧
    (∃ (s : State) (e : Nat) (i : Nat) (xi : Nat) (q : List Nat) (f : Frame) (a : Actions), s.dev.alive = true ∧ s.dev.freeGlz
      true = some e ∧ s.dev.inlineWaiting = i :: q ∧ s.dev.frame? i = some f ∧ f.act = some a ∧ a.xform = some xi ∧
    let w := (s.dev.setGlz fun g => { g with inlineQ := q }).syncInline
    let b := (w.before (.ixtWrite xi)).before (.keyWrite (w.ixtEnt xi).kc)
    let t := if (b.ixtEnt xi).isRx then b else b.turnInvoke (b.ixtEnt xi).kc e
    let x := t.ixtEnt xi
    let c := t.kctx x.kc
    let short : Bool := !x.isRx && (decide (2 ≤ x.type) && decide (f.len - 4 < x.hdrOff + 32))
    let v := if c.cached then t else t.inc GLZ_CNT_KC_MISS
    let lim := if x.type = 0 ∧ x.xpn = false then 2 ^ 32 else 2 ^ 64
    ∃ n near u, t.ixtOk x = true ∧ short = false ∧ x.isRx = false ∧ (v.mark (.invoked x.kc e)).takeCounter x.kc lim true = (some
      (n, near), u)) ∧
    (∃ (s : State) (e : Nat) (i : Nat) (xi : Nat) (q : List Nat) (f : Frame) (a : Actions), s.dev.alive = true ∧ s.dev.freeGlz
      true = some e ∧ s.dev.inlineWaiting = i :: q ∧ s.dev.frame? i = some f ∧ f.act = some a ∧ a.xform = some xi ∧
    let w := (s.dev.setGlz fun g => { g with inlineQ := q }).syncInline
    let b := (w.before (.ixtWrite xi)).before (.keyWrite (w.ixtEnt xi).kc)
    let t := if (b.ixtEnt xi).isRx then b else b.turnInvoke (b.ixtEnt xi).kc e
    let x := t.ixtEnt xi
    let c := t.kctx x.kc
    let short : Bool := !x.isRx && (decide (2 ≤ x.type) && decide (f.len - 4 < x.hdrOff + 32))
    let v := if c.cached then t else t.inc GLZ_CNT_KC_MISS
    let lim := if x.type = 0 ∧ x.xpn = false then 2 ^ 32 else 2 ^ 64
    ∃ u, t.ixtOk x = true ∧ short = false ∧ x.isRx = false ∧ (v.mark (.invoked x.kc e)).takeCounter x.kc lim true = (none, u)) ∧
    (∃ (s : State) (dv : Dev) (p : Path) (data : W32) (e : Dev), Reaches s.dev p dv ∧ dv.writeFields p GLZ_IND_CMD data = e ∧
      fieldGet data 24 3 = 1) ∧
    (∃ (s : State) (dv : Dev) (p : Path) (data : W32) (e : Dev), Reaches s.dev p dv ∧ dv.writeFields p GLZ_IND_CMD data = e ∧
      fieldGet data 24 3 = 2) ∧
    (∃ (s : State) (dv : Dev) (p : Path) (data : W32) (e : Dev), Reaches s.dev p dv ∧ dv.writeFields p GLZ_IND_CMD data = e ∧
      fieldGet data 24 3 = 3) ∧
    (∃ (s : State) (dv : Dev) (p : Path), Reaches s.dev p dv ∧ dv.locked GLZ_CTRL = true) ∧
    (∃ (s : State) (dv : Dev) (p : Path), Reaches s.dev p dv ∧ dv.leftSetup BUF_CTRL = false ∧ dv.liveSags = []) ∧
    (∃ (s : State) (dv : Dev) (p : Path) (data : W32) (sg : Nat), Reaches s.dev p dv ∧ dv.locked GLZ_CTRL = false ∧ sg ∈
      dv.liveSags ∧ dv.get (SAG_HBM_PAGES_PAGES sg) ≠ 0 ∧ dv.get (SAG_HBM_BASE_BASE sg) * 2 ^ 21 < Nat.min 383 (fieldGet data 0
      9) * 2 ^ 28 + 2 ^ 28 ∧ Nat.min 383 (fieldGet data 0 9) * 2 ^ 28 < (dv.get (SAG_HBM_BASE_BASE sg) + dv.get
      (SAG_HBM_PAGES_PAGES sg)) * 2 ^ 21) ∧
    (∃ (s : State) (dv : Dev) (p : Path) (data : W32), Reaches s.dev p dv ∧ fieldGet data 0 1 = 1) :=
  ⟨⟨st fun d =>
     { ((puts [(GLZ_CTRL_ENABLE, 1)] d).lock GLZ_CTRL).setFrame 3 ({ fr 100 .inline with act := some ⟨0, 0, .green, some 0⟩ }) with glz := { d.glz with inlineQ := [3], kc := [(0, keyCtx 0x81E00000 10)], ixt := [(0, ⟨[0, 0, 0, 0, 0, 0], 0, 0, 0, 0⟩)] } },
     0, 3, 0, [], { fr 100 .inline with act := some ⟨0, 0, .green, some 0⟩ }, ⟨0, 0, .green, some 0⟩, by decide +kernel,
     by decide +kernel, by decide +kernel, by decide +kernel, by decide +kernel, by decide +kernel, by decide +kernel⟩,
   ⟨st fun d =>
     { ((puts [(GLZ_CTRL_ENABLE, 1)] d).lock GLZ_CTRL).setFrame 3 ({ fr 30 .inline with act := some ⟨0, 0, .green, some 0⟩ }) with glz := { d.glz with inlineQ := [3], kc := [(0, keyCtx 0x81E00000 10)], ixt := [(0, ⟨[0xA0000000, 0, 0, 0, 0, 0], 0, 0, 0, 0⟩)] } },
     0, 3, 0, [], { fr 30 .inline with act := some ⟨0, 0, .green, some 0⟩ }, ⟨0, 0, .green, some 0⟩, by decide +kernel,
     by decide +kernel, by decide +kernel, by decide +kernel, by decide +kernel, by decide +kernel, by decide +kernel⟩,
   ⟨st fun d =>
     { ((puts [(GLZ_CTRL_ENABLE, 1)] d).lock GLZ_CTRL).setFrame 3 ({ fr 100 .inline with act := some ⟨0, 0, .green, some 0⟩ }) with glz := { d.glz with inlineQ := [3], kc := [(0, keyCtx 0x81E00000 10)], ixt := [(0, ⟨[0x90000000, 0, 0, 0, 0, 0], 0, 0, 0, 0⟩)] } },
     0, 3, 0, [], { fr 100 .inline with act := some ⟨0, 0, .green, some 0⟩ }, ⟨0, 0, .green, some 0⟩, by decide +kernel,
     by decide +kernel, by decide +kernel, by decide +kernel, by decide +kernel, by decide +kernel, by decide +kernel⟩,
   ⟨st fun d =>
     { ((puts [(GLZ_CTRL_ENABLE, 1)] d).lock GLZ_CTRL).setFrame 3 ({ fr 100 .inline with act := some ⟨0, 0, .green, some 0⟩ }) with glz := { d.glz with inlineQ := [3], kc := [(0, keyCtx 0x81E00000 10)], ixt := [(0, ⟨[0x80000000, 0, 0, 0, 0, 0], 0, 0, 0, 0⟩)] } },
     0, 3, 0, [], { fr 100 .inline with act := some ⟨0, 0, .green, some 0⟩ }, ⟨0, 0, .green, some 0⟩, by decide +kernel,
     by decide +kernel, by decide +kernel, by decide +kernel, by decide +kernel, by decide +kernel, 1, false, _,
     by decide +kernel, by decide +kernel, by decide +kernel, pair_of' (by decide +kernel)⟩,
   ⟨st fun d =>
     { ((puts [(GLZ_CTRL_ENABLE, 1)] d).lock GLZ_CTRL).setFrame 3 ({ fr 100 .inline with act := some ⟨0, 0, .green, some 0⟩ }) with glz := { d.glz with inlineQ := [3], kc := [(0, keyCtx 0x81E00000 0)], ixt := [(0, ⟨[0x80000000, 0, 0, 0, 0, 0], 0, 0, 0, 0⟩)] } },
     0, 3, 0, [], { fr 100 .inline with act := some ⟨0, 0, .green, some 0⟩ }, ⟨0, 0, .green, some 0⟩, by decide +kernel,
     by decide +kernel, by decide +kernel, by decide +kernel, by decide +kernel, by decide +kernel, _, by decide +kernel,
     by decide +kernel, by decide +kernel, pair_of' (by decide +kernel)⟩,
   ⟨State.reset, _, .fw, 0x1000000, _, ⟨by decide +kernel, by decide +kernel, rfl, by decide +kernel, by decide +kernel⟩, rfl,
     by decide +kernel⟩,
   ⟨State.reset, _, .fw, 0x2000000, _, ⟨by decide +kernel, by decide +kernel, rfl, by decide +kernel, by decide +kernel⟩, rfl,
     by decide +kernel⟩,
   ⟨State.reset, _, .fw, 0x3000000, _, ⟨by decide +kernel, by decide +kernel, rfl, by decide +kernel, by decide +kernel⟩, rfl,
     by decide +kernel⟩,
   ⟨st fun d => { (d.lock GLZ_CTRL).put GLZ_CTRL_ENABLE 1 with cycle := 100 }, _, .fw, ⟨by decide +kernel, by decide +kernel,
     rfl, by decide +kernel, by decide +kernel⟩, by decide +kernel⟩,
   ⟨State.reset, _, .fw, ⟨by decide +kernel, by decide +kernel, rfl, by decide +kernel, by decide +kernel⟩, by decide +kernel⟩,
   ⟨st (puts [(SAG_STATUS_STATE 0, 1), (SAG_HBM_PAGES_PAGES 0, 1)]), _, .fw, 0, 0, ⟨by decide +kernel, by decide +kernel, rfl,
     by decide +kernel, by decide +kernel⟩, by decide +kernel⟩,
   ⟨State.reset, _, .fw, 1, ⟨by decide +kernel, by decide +kernel, rfl, by decide +kernel, by decide +kernel⟩,
     by decide +kernel⟩⟩

/-- The premises of PublicKeyRows. -/
theorem test_witness_PublicKeyRows :
    (∃ (s : State) (host : List Byte) (h : List Byte) (op : Nat) (row : Instr), s.dev.alive = true ∧ ((op = 0x80 ∧ row =
      .pkKeygen ∧ h = [] ∨ op = 0x81 ∧ row = .pkImport ∧ h = [] ∨ op = 0x82 ∧ row = .pkSign host ∧ h = host ∨ op = 0x83 ∧ row =
      .pkVerify ∧ h = [] ∨ op = 0x84 ∧ row = .pkAgree host ∧ h = host ∨ op = 0x85 ∧ row = .pkRsaPub ∧ h = [] ∨ op = 0x86 ∧ row =
      .pkRsaPriv host ∧ h = host ∨ op = 0x87 ∧ row = .pkEncaps ∧ h = [] ∨ op = 0x88 ∧ row = .pkDecaps host ∧ h = host)) ∧
    let e := s.dev.pkHostHdr op h
    ∃ u j hdr t, pkChosen e op u j hdr t) ∧
    (∃ (s : State) (host : List Byte) (h : List Byte) (op : Nat) (row : Instr), s.dev.alive = true ∧ ((op = 0x80 ∧ row =
      .pkKeygen ∧ h = [] ∨ op = 0x81 ∧ row = .pkImport ∧ h = [] ∨ op = 0x82 ∧ row = .pkSign host ∧ h = host ∨ op = 0x83 ∧ row =
      .pkVerify ∧ h = [] ∨ op = 0x84 ∧ row = .pkAgree host ∧ h = host ∨ op = 0x85 ∧ row = .pkRsaPub ∧ h = [] ∨ op = 0x86 ∧ row =
      .pkRsaPriv host ∧ h = host ∨ op = 0x87 ∧ row = .pkEncaps ∧ h = [] ∨ op = 0x88 ∧ row = .pkDecaps host ∧ h = host)) ∧
    let e := s.dev.pkHostHdr op h
    ∃ j hdr, (e.pkWaiting.find? fun x => pkOp x.1.block == op && e.pkCheck x.1 x.2 != pkOk) = some (j, hdr)) ∧
    (∃ (s : State) (u : Fin 16) (fault : Bool) (r : PkeRun) (x : PkRes) (extra : Nat) (e : Dev), s.dev.alive = true ∧
      s.dev.pkeUnit u = some r ∧ s.dev.cycle < r.job.handed + 6000000000 ∧ s.dev.fedAll r.job = true ∧ s.dev.pkOutcome r = (x,
      extra, e) ∧ x.status ≠ pkAuthFail ∧ r.started + extra + x.cycles ≤ s.dev.cycle ∧
    let b := r.job.block
    fault = false ∧ r.fault = false ∧ pkOp b ≠ 0x80 ∧ pkOp b ≠ 0x81) ∧
    (∃ (s : State) (u : Fin 16) (fault : Bool) (r : PkeRun) (x : PkRes) (extra : Nat) (e : Dev), s.dev.alive = true ∧
      s.dev.pkeUnit u = some r ∧ s.dev.cycle < r.job.handed + 6000000000 ∧ s.dev.fedAll r.job = true ∧ s.dev.pkOutcome r = (x,
      extra, e) ∧ x.status ≠ pkAuthFail ∧ r.started + extra + x.cycles ≤ s.dev.cycle ∧ ((fault = true ∨ r.fault = true))) ∧
    (∃ (s : State) (u : Fin 16) (fault : Bool) (r : PkeRun) (x : PkRes) (extra : Nat) (e : Dev), s.dev.alive = true ∧
      s.dev.pkeUnit u = some r ∧ s.dev.cycle < r.job.handed + 6000000000 ∧ s.dev.fedAll r.job = true ∧ s.dev.pkOutcome r = (x,
      extra, e) ∧ x.status ≠ pkAuthFail ∧ r.started + extra + x.cycles ≤ s.dev.cycle ∧
    let who := Dev.issuerOf r.job
    let b := r.job.block
    let more : Int := (x.cycles : Int) - r.charged
    let f := ((e.setPkeUnit u none).debitCost .pke who more).setPke fun p => { p with arb := p.arb.served (kidOf who) more }
    ∃ k sg, fault = false ∧ r.fault = false ∧ x.status = pkOk ∧ ((pkOp b = 0x80 ∨ pkOp b = 0x81)) ∧ who = some sg ∧ f.kwkKey who
      (pkKwk b) = some k) ∧
    (∃ (s : State) (j : Job), s.dev.alive = true ∧ s.dev.pke.jobs = [j] ∧ j.handed + 5400000000 ≤ s.dev.cycle) ∧
    (∃ (s : State) (u : Fin 16) (r : PkeRun), s.dev.alive = true ∧ s.dev.pkeUnit u = some r ∧ r.job.handed + 6000000000 ≤
      s.dev.cycle) ∧
    (∃ (s : State) (dv : Dev) (p : Path) (data : W32), Reaches s.dev p dv ∧ data.toNat % 2 = 1) :=
  ⟨⟨st fun d =>
     { d with pke := { d.pke with jobs := [tJob 0x85 [(1, 1, 6), (8, 4, 256), (12, 4, 256), (16, 8, 0x1000), (24, 8, 0x2000), (40, 8, 0x3000), (60, 4, 264)]] } },
     [], [], 0x85, .pkRsaPub, by decide +kernel, by decide +kernel, 0, tJob 0x85 [(1, 1, 6), (8, 4, 256), (12, 4, 256), (16, 8,
     0x1000), (24, 8, 0x2000), (40, 8, 0x3000), (60, 4, 264)], List.replicate 8 0#8, pkT ((st fun d =>
     { d with pke := { d.pke with jobs := [tJob 0x85 [(1, 1, 6), (8, 4, 256), (12, 4, 256), (16, 8, 0x1000), (24, 8, 0x2000), (40, 8, 0x3000), (60, 4, 264)]] } }).dev.pkHostHdr
     0x85 []), pk_of (by decide +kernel)⟩,
   ⟨st fun d => { d with pke := { d.pke with jobs := [tJob 0x85 []] } }, [], [], 0x85, .pkRsaPub, by decide +kernel,
     by decide +kernel, tJob 0x85 [], List.replicate 8 0#8, by decide +kernel⟩,
   ⟨st fun d =>
     { (((d).modChan 0 fun c => { c with feeds := [⟨0, [], [(0, beBytes 256 2), (1, beBytes 8 3 ++ beBytes 256 (2 ^ 2048 - 1))], none⟩] }).setPkeUnit 0 (some ⟨tJob 0x85 [(1, 1, 6), (8, 4, 256), (12, 4, 256), (60, 4, 264)], none, [], 0, 0, false⟩)) with cycle := 10000000 },
     0, false, ⟨tJob 0x85 [(1, 1, 6), (8, 4, 256), (12, 4, 256), (60, 4, 264)], none, [], 0, 0, false⟩, _, _, _,
     by decide +kernel, by decide +kernel, by decide +kernel, by decide +kernel, eta3 (Dev.pkOutcome _ _), by decide +kernel,
     by decide +kernel, by decide +kernel⟩,
   ⟨st fun d =>
     { (((d).modChan 0 fun c => { c with feeds := [⟨0, [], [(0, beBytes 256 2), (1, beBytes 8 3 ++ beBytes 256 (2 ^ 2048 - 1))], none⟩] }).setPkeUnit 0 (some ⟨tJob 0x85 [(1, 1, 6), (8, 4, 256), (12, 4, 256), (60, 4, 264)], none, [], 0, 0, false⟩)) with cycle := 10000000 },
     0, true, ⟨tJob 0x85 [(1, 1, 6), (8, 4, 256), (12, 4, 256), (60, 4, 264)], none, [], 0, 0, false⟩, _, _, _,
     by decide +kernel, by decide +kernel, by decide +kernel, by decide +kernel, eta3 (Dev.pkOutcome _ _), by decide +kernel⟩,
   ⟨st fun d =>
     { ((({ (puts [(SAG_STATUS_STATE 0, 1), (SAG_KC_COUNT_COUNT 0, 1)] d) with glz := { d.glz with kc := [(0, keyCtx 0x92000000 0)] } }).modChan 0 fun c => { c with feeds := [⟨0, [], [(0, beBytes 32 1)], none⟩] }).setPkeUnit 0 (some ⟨{ tJob 0x81 [(1, 1, 1), (8, 4, 32)] with owner := some 0 }, some [], [], 0, 0, false⟩)) with cycle := 10000000 },
     0, false, ⟨{ tJob 0x81 [(1, 1, 1), (8, 4, 32)] with owner := some 0 }, some [], [], 0, 0, false⟩, _, _, _,
     by decide +kernel, by decide +kernel, by decide +kernel, by decide +kernel, eta3 (Dev.pkOutcome _ _), by decide +kernel,
     by decide +kernel, _, 0, by decide +kernel, by decide +kernel, by decide +kernel, by decide +kernel, by decide +kernel,
     (Option.some_get (by decide +kernel)).symm⟩,
   ⟨st fun d => { d with cycle := 5400000000, pke := { d.pke with jobs := [tJob 0x85 []] } }, tJob 0x85 [], by decide +kernel⟩,
   ⟨st fun d => { d.setPkeUnit 0 (some ⟨(tJob 0x85 []), none, [], 0, 0, false⟩) with cycle := 6000000000 }, 0, ⟨(tJob 0x85 []),
     none, [], 0, 0, false⟩, by decide +kernel⟩,
   ⟨State.reset, _, .fw, 1, ⟨by decide +kernel, by decide +kernel, rfl, by decide +kernel, by decide +kernel⟩,
     by decide +kernel⟩⟩

/-- The premises of LinkTraining. -/
theorem test_witness_LinkTraining :
    (∃ (s : State) (l : Fin 8) (speed : Nat) (width : Nat) (flit : Bool), s.dev.alive = true ∧ s.dev.linkExists l = true ∧
      s.dev.hif.perst.contains (l.val / 4) = false ∧ (s.dev.severed (.hif l) = false) ∧ s.dev.linkUp l = false ∧ 0 < speed ∧
      speed ≤ s.dev.get (HIF_CTRL_MAX_GEN (l.val / 4)) ∧ width ∈ [1, 2, 4] ∧ ((speed = 6 → flit = true))) ∧
    (∃ (s : State) (n : Fin 2) (l : Nat), s.dev.alive = true ∧ s.dev.linksOf n = [l]) ∧
    (∃ (s : State) (l : Fin 8) (st : Fin 3), s.dev.alive = true ∧ s.dev.linkUp l = true ∧ (s.dev.link l).inL23 = false ∧ bitOf
      (s.dev.link l).aspm st = true ∧ (s.dev.link l).lastTlp + 30000 ≤ s.dev.cycle ∧ (s.dev.link l).outq = [] ∧ ((st = 2 →
      (s.dev.link l).ltr.all (fun us => decide (s.dev.l12Threshold l ≤ 1000 * us)) = true))) ∧
    (∃ (s : State) (l : Fin 8) (need : Nat), s.dev.alive = true ∧ s.dev.linkUp l = true ∧ s.dev.flag (HIF_LINK_STATUS_FLIT
      (l.val / 4) (l.val % 4)) = true ∧ s.dev.get (HIF_LINK_STATUS_PM_STATE (l.val / 4) (l.val % 4)) ≤ 1 ∧ 2 * need ≤ s.dev.get
      (HIF_LINK_STATUS_WIDTH (l.val / 4) (l.val % 4))) :=
  ⟨⟨st fun d => { d with hif := { d.hif with perst := [1] } }, 0, 1, 1, false, by decide +kernel⟩,
   ⟨State.reset, 1, 4, by decide +kernel⟩,
   ⟨st fun d => ({ lnk d with cycle := 30000 }).modLink 0 fun x => { x with aspm := 7 }, 0, 0, by decide +kernel⟩,
   ⟨st fun d => puts [(HIF_LINK_STATUS_FLIT 0 0, 1), (HIF_LINK_STATUS_WIDTH 0 0, 4)] (lnk d), 0, 2, by decide +kernel⟩⟩

/-- The premises of LinkFreezeAndResets. -/
theorem test_witness_LinkFreezeAndResets :
    ((∃ (d : Dev) (l : Fin 8) (cause : Nat), d.linkExists l = true ∧ cause < 16 ∧ d.marks = [] ∧ d.frozen l = false) ∧ (∃ (d :
      Dev) (l : Fin 8) (cause : Nat), d.linkExists l = true ∧ cause < 16 ∧ d.marks = [] ∧ d.frozen l = true ∧ (1 : Nat) ≠
      l.val)) ∧
    (∃ (d : Dev) (l : Fin 8), d.linkExists l = true ∧ ((d.marks = [.relAsked l (Dev.hifOf d.cycle)] ∨ d.marks = [.busStop l
      (Dev.hifOf d.cycle)]))) ∧
    (∃ (s : State) (l : Fin 8) (f : Fin 2048), s.dev.alive = true ∧ s.dev.linkUp l = true ∧ s.dev.funcLive l f = true) ∧
    (∃ (s : State) (n : Fin 2) (l : Nat), s.dev.alive = true ∧ s.dev.hif.perst.contains n.val = false ∧ s.dev.linksOf n = [l] ∧
      (s.dev.link l).inL23 = false) ∧
    (∃ (s : State) (n : Fin 2), s.dev.alive = true ∧ s.dev.hif.perst = [n.val] ∧ s.dev.hif.d3cold = [] ∧ s.dev.hif.wake = []) ∧
    (∃ (s : State) (dv : Dev) (p : Path) (l : Fin 8) (data : W32) (e : Dev), Reaches s.dev p dv ∧ Dev.pathLink p = none ∧
      dv.linkExists l = true ∧ dv.writeFields p (HIF_FREEZE (l.val / 4) (l.val % 4)) data = e ∧ fieldGet data 30 1 = 1 ∧
      e.frozen l = true ∧ e.linkUp l = true ∧ ((e.link l).frozeAt.map Dev.hifOf) ≠ some (Dev.hifOf e.cycle)) ∧
    (∃ (s : State) (l : Fin 8), s.dev.alive = true ∧ bitOf (s.dev.get (HIF_CTRL_FW_REL (l.val / 4))) (l.val % 4) = true ∧
      s.dev.frozen l = true ∧ s.dev.linkUp l = true ∧ s.dev.get (HIF_LINK_STATUS_PM_STATE (l.val / 4) (l.val % 4)) = 0 ∧
      (s.dev.link l).l0Since + 300000000 ≤ s.dev.cycle) ∧
    (∃ (s : State) (dv : Dev) (p : Path) (data : W32), Reaches s.dev p dv ∧ fieldGet data 0 1 = 1) :=
  ⟨⟨⟨Dev.reset, 0, 15, by decide +kernel, by decide +kernel, rfl, by decide +kernel⟩, ⟨puts [(HIF_FREEZE_FROZEN 0 0, 1)] (lnk
     Dev.reset), 0, 0, by decide +kernel, by decide +kernel, rfl, by decide +kernel⟩⟩,
   ⟨Dev.reset.mark (.busStop 0 0), 0, by decide +kernel⟩,
   ⟨st lnk, 0, 0, by decide +kernel⟩,
   ⟨st lnk, 0, 0, by decide +kernel⟩,
   ⟨st lnk, 1, by decide +kernel⟩,
   ⟨st fun d => puts [(HIF_FREEZE_FROZEN 0 0, 1)] (lnk d), _, .fw, 0, 0x40000000, _, ⟨by decide +kernel, by decide +kernel, rfl,
     by decide +kernel, by decide +kernel⟩, by decide +kernel, by decide +kernel, rfl, by decide +kernel⟩,
   ⟨st fun d => { (puts [(HIF_FREEZE_FROZEN 0 0, 1)] (lnk d)).put (HIF_CTRL_FW_REL 0) 15 with cycle := 300000000 }, 0,
     by decide +kernel⟩,
   ⟨State.reset, _, .fw, 1, ⟨by decide +kernel, by decide +kernel, rfl, by decide +kernel, by decide +kernel⟩,
     by decide +kernel⟩⟩

/-- The premises of LinkTraffic. -/
theorem test_witness_LinkTraffic :
    (∃ (s : State) (l : Fin 8) (addr : Nat) (dws : List (Option W32)) (f : Nat) (b : Nat) (off : Nat) (use : BarUse),
      s.dev.alive = true ∧ dws ≠ [] ∧ s.dev.carries l = true ∧ s.dev.barHit l (addr / 4 * 4) = some (f, b, off, use)) ∧
    (∃ (s : State) (l : Fin 8) (addr : Nat) (dws : List (Option W32)), s.dev.alive = true ∧ dws ≠ [] ∧ s.dev.carries l = false ∧
      s.dev.barHit l (addr / 4 * 4) = none) ∧
    (∃ (s : State) (l : Fin 8) (addr : Nat) (n : Nat) (f : Nat) (b : Nat) (off : Nat), s.dev.alive = true ∧ s.dev.linkUp l =
      true ∧ (s.dev.link l).inL23 = false ∧ (s.dev.tlpOn l).frozen l = false ∧ (s.dev.tlpOn l).barHit l (addr / 4 * 4) = some
      (f, b, off, .registers) ∧ 0 < n ∧ n ≤ 16) ∧
    (∃ (s : State) (l : Fin 8), s.dev.alive = true ∧ s.dev.linkUp l = true ∧ (s.dev.link l).inL23 = false ∧ (s.dev.tlpOn
      l).frozen l = true) ∧
    (∃ (s : State) (l : Fin 8), s.dev.alive = true ∧ s.dev.linkUp l = true ∧ (s.dev.link l).inL23 = false ∧ (s.dev.tlpOn
      l).gateOpen = false) ∧
    (∃ (s : State) (l : Fin 8) (f : Fin 2048) (k : FuncKind), s.dev.alive = true ∧ s.dev.linkUp l = true ∧ (s.dev.link l).inL23
      = false ∧ (s.dev.tlpOn l).gateOpen = true ∧ (s.dev.tlpOn l).flag (HIF_CTRL_ENABLE (l.val / 4)) = true ∧ (s.dev.tlpOn
      l).funcAt l f = some k ∧ (s.dev.tlpOn l).funcLive l f = true) ∧
    (∃ (s : State) (l : Fin 8) (tag : Nat), s.dev.alive = true ∧ ((s.dev.tlpOn l).link l).oldTags = [] ∧ (s.dev.tlpOn
      l).readByTag l tag = none) ∧
    (∃ (s : State) (l : Fin 8) (tag : Nat) (bytes : List Byte) (r : Read), s.dev.alive = true ∧ ((s.dev.tlpOn l).link l).oldTags
      = [] ∧ (s.dev.tlpOn l).readByTag l tag = some r ∧ bytes ≠ [] ∧ r.got + bytes.length ≤ r.len ∧ Dev.isAts r = false ∧
      (s.dev.tlpOn l).readCurrent r = true) ∧
    (∃ (s : State) (l : Fin 8) (tag : Nat) (bytes : List Byte) (r : Read), s.dev.alive = true ∧ ((s.dev.tlpOn l).link l).oldTags
      = [] ∧ (s.dev.tlpOn l).readByTag l tag = some r ∧ bytes ≠ [] ∧ r.got + bytes.length ≤ r.len ∧ Dev.isAts r = false ∧
      (s.dev.tlpOn l).readCurrent r = false) ∧
    (∃ (s : State) (l : Fin 8) (tag : Nat) (st : Cpl) (r : Read), s.dev.alive = true ∧ ((st = .ur ∨ st = .ca ∨ st = .poisoned))
      ∧ ((s.dev.tlpOn l).link l).oldTags = [] ∧ (s.dev.tlpOn l).readByTag l tag = some r ∧ (s.dev.tlpOn l).readCurrent r =
      false) ∧
    (∃ (s : State) (l : Fin 8) (tag : Nat) (r : Read), s.dev.alive = true ∧ s.dev.readByTag l tag = some r ∧ (s.dev.link
      l).oldTags = [] ∧ ((∀ q ∈ (s.dev.link l).outq, ∃ w, q = .write w)) ∧ r.got ≠ r.len ∧ r.issued + Dev.ctoUs (s.dev.ctlFunc l
      (s.dev.chFunc r.chan)).cto * 3000 ≤ s.dev.cycle) ∧
    (∃ (s : State) (l : Fin 8) (w : PWrite) (rest : List PWrite), s.dev.alive = true ∧ (s.dev.link l).unacked = w :: rest ∧
      w.frame = none) ∧
    (∃ (s : State) (a : Nat) (n : Nat), s.dev.alive = true ∧ 0 < n ∧ a + n ≤ hbmSize ∧ s.dev.retired a n = false ∧ s.dev.inKc a
      n = false ∧ (s.dev.ioRead a n).poisoned a n = false) ∧
    (∃ (s : State) (a : Nat) (bs : List Byte), s.dev.alive = true ∧ bs ≠ [] ∧ a + bs.length ≤ hbmSize ∧ s.dev.retired a
      bs.length = false ∧ s.dev.inKc a bs.length = false) ∧
    (∃ (s : State) (r : JtagReq) (a : Nat), s.dev.alive = true ∧ ((∃ n, r = .read a n ∧ s.dev.inKc a n = true) ∨ (∃ bs, r =
      .write a bs ∧ s.dev.inKc a bs.length = true))) :=
  ⟨⟨st lnkBar, 0, 0x10000000, [some 0], 0, 0, 0, .registers, by decide +kernel⟩,
   ⟨st fun d => puts [(HIF_FREEZE_FROZEN 0 0, 1)] (lnk d), 0, 0, [some 0], by decide +kernel⟩,
   ⟨st lnkBar, 0, 0x10000000, 1, 0, 0, 0, by decide +kernel⟩,
   ⟨st fun d => puts [(HIF_FREEZE_FROZEN 0 0, 1)] (lnk d), 0, by decide +kernel⟩,
   ⟨st lnk, 0, by decide +kernel⟩,
   ⟨st lnkBar, 0, 0, .pf 0, by decide +kernel⟩,
   ⟨State.reset, 0, 0, by decide +kernel⟩,
   ⟨st fun d => chanOn [readOf 0x1000 16 (.block 0 0) 0] (lnk d), 0, 5, List.replicate 16 0, readOf 0x1000 16 (.block 0 0) 0,
     by decide +kernel⟩,
   ⟨st fun d => chanOn [{ readOf 0x1000 16 (.block 0 0) 0 with firing := 1 }] (lnk d), 0, 5, [0],
     { readOf 0x1000 16 (.block 0 0) 0 with firing := 1 }, by decide +kernel⟩,
   ⟨st fun d => chanOn [{ readOf 0x1000 16 (.block 0 0) 0 with firing := 1 }] (lnk d), 0, 5, .ca,
     { readOf 0x1000 16 (.block 0 0) 0 with firing := 1 }, by decide +kernel⟩,
   ⟨st fun d => { chanOn [readOf 0x1000 16 (.block 0 0) 0] (lnk d) with cycle := 2 ^ 50 }, 0, 5, readOf 0x1000 16 (.block 0 0)
     0, by decide +kernel, by decide +kernel, by decide +kernel, (by intro q hq; cases hq), by decide +kernel⟩,
   ⟨st fun d => (lnk d).modLink 0 fun x => { x with unacked := [⟨0, 0, [0], none, none, none, none, none, 0, false, false⟩] },
     0, ⟨0, 0, [0], none, none, none, none, none, 0, false, false⟩, [], by decide +kernel⟩,
   ⟨State.reset, 0x80001000, 1, by decide +kernel⟩,
   ⟨State.reset, 0x80001000, [0], by decide +kernel⟩,
   ⟨State.reset, .read 0 1, 0, by decide +kernel, .inl ⟨1, by decide +kernel⟩⟩⟩

/-- The premises of ChannelData. -/
theorem test_witness_ChannelData :
    (∃ (s : State) (dv : Dev) (g : Fin 4096) (data : W32), ReachesBar s.dev (s.dev.chLink g) (s.dev.chFunc g) dv ∧
    let z := dv.ringSize g
    (dv.dbIgnored g = true ∨ z ≤ data.toNat)) ∧
    (∃ (s : State) (dv : Dev) (g : Fin 4096) (data : W32), ReachesBar s.dev (s.dev.chLink g) (s.dev.chFunc g) dv ∧
    let z := dv.ringSize g
    let far := fun i : Nat => (i + z - dv.chDone g) % z
    dv.dbIgnored g = false ∧ data.toNat < z ∧ far data.toNat < far (dv.chTail g)) ∧
    (∃ (s : State) (dv : Dev) (g : Fin 4096) (data : W32), ReachesBar s.dev (s.dev.chLink g) (s.dev.chFunc g) dv ∧
    let z := dv.ringSize g
    let far := fun i : Nat => (i + z - dv.chDone g) % z
    dv.dbIgnored g = false ∧ data.toNat < z ∧ far (dv.chTail g) ≤ far data.toNat) ∧
    (∃ (s : State) (dv : Dev) (g : Fin 4096), ReachesBar s.dev (s.dev.chLink g) (s.dev.chFunc g) dv ∧ dv.dbIgnored g = true) ∧
    (∃ (s : State) (dv : Dev) (g : Fin 4096) (data : W32), ReachesBar s.dev (s.dev.chLink g) (s.dev.chFunc g) dv ∧ dv.dbIgnored
      g = false ∧ fieldGet data 31 1 = 1) ∧
    (∃ (s : State) (g : Fin 4096) (r : Read) (i : Nat) (n : Nat) (e : Dev), s.dev.alive = true ∧ (s.dev.readsOf g).find?
      Dev.isDescRead = some r ∧ s.dev.readDue (g.val / 256) = true ∧ Dev.hostRead r = true ∧ r.got = r.len ∧
      r.pieces.flatten.length = r.len ∧ r.orphan = false ∧ s.dev.flag (DMA_ENG_STATUS_STOPPED (g.val / 256)) = false ∧ r.what =
      .desc i n ∧ (s.dev.dropRead r).engRead (g.val / 256) r.len = e ∧ e.chSt g = chRunning) ∧
    (∃ (s : State) (g : Fin 4096) (r : Read), s.dev.alive = true ∧ (s.dev.readsOf g).find? Dev.isDescRead = some r ∧
      s.dev.readDue (g.val / 256) = true ∧ Dev.hostRead r = false ∧ s.dev.readCurrent r = false) ∧
    (∃ (s : State) (g : Fin 4096) (r : Read), s.dev.alive = true ∧ ((s.dev.readsOf g).find? fun r => !Dev.isDescRead r &&
      !Dev.isAts r && !(Dev.hostRead r && r.pieces.isEmpty && r.orphan)) = some r ∧ s.dev.readDue (g.val / 256) = true ∧
      s.dev.writeDue (g.val / 256) = true ∧ Dev.hostRead r = false ∧ s.dev.readCurrent r = false) ∧
    (∃ (s : State) (g : Fin 4096) (r : Read), s.dev.alive = true ∧ ((s.dev.readsOf g).find? fun r => !Dev.isDescRead r &&
      !Dev.isAts r && !(Dev.hostRead r && r.pieces.isEmpty && r.orphan)) = some r ∧ s.dev.readDue (g.val / 256) = true ∧
      s.dev.writeDue (g.val / 256) = true ∧ Dev.hostRead r = false ∧ s.dev.readCurrent r = true ∧ s.dev.flag
      (DMA_ENG_STATUS_STOPPED (g.val / 256)) = false ∧ s.dev.poisoned (r.addr - 2 ^ 63) r.len = false) ∧
    (∃ (s : State) (g : Fin 4096) (r : Read), s.dev.alive = true ∧ ((s.dev.readsOf g).find? fun r => !Dev.isDescRead r &&
      !Dev.isAts r && !(Dev.hostRead r && r.pieces.isEmpty && r.orphan)) = some r ∧ s.dev.readDue (g.val / 256) = true ∧
      s.dev.writeDue (g.val / 256) = true ∧ ∃ b, Dev.hostRead r = true ∧ r.pieces = [b] ∧ r.got = r.len ∧ s.dev.flag
      (DMA_ENG_STATUS_STOPPED (g.val / 256)) = false) ∧
    (∃ (s : State) (g : Fin 4096) (r : Read), s.dev.alive = true ∧ ((s.dev.readsOf g).find? fun r => !Dev.isDescRead r &&
      !Dev.isAts r && !(Dev.hostRead r && r.pieces.isEmpty && r.orphan)) = some r ∧ s.dev.readDue (g.val / 256) = true ∧
      s.dev.writeDue (g.val / 256) = true ∧ ∃ b rest, Dev.hostRead r = true ∧ r.pieces = b :: rest ∧ ((r.got = r.len → rest ≠
      [])) ∧ s.dev.flag (DMA_ENG_STATUS_STOPPED (g.val / 256)) = false) ∧
    (∃ (s : State) (g : Fin 4096), s.dev.alive = true ∧ s.dev.flag (DMA_ENG_STATUS_STOPPED (g.val / 256)) = false ∧ s.dev.chSt g
      = chRunning ∧ ((∀ was old, Mark.armed g was old ∉ s.dev.marks))) ∧
    (∃ (s : State) (g : Fin 4096) (was : Bool) (old : Nat) (rest : List Mark), s.dev.alive = true ∧ s.dev.flag
      (DMA_ENG_STATUS_STOPPED (g.val / 256)) = false ∧ s.dev.chSt g = chRunning ∧ s.dev.flag (DMA_CH_STATUS_IRQ_ARMED (g.val /
      256) (g.val % 256)) = true ∧ s.dev.marks = .armed g was old :: rest) :=
  ⟨⟨st fun d => lnkBar (d), _, 0, 1, ⟨by decide +kernel, by decide +kernel, rfl⟩, by decide +kernel⟩,
   ⟨st fun d => lnkBar ((chanOn [] d).put (DMA_CH_TAIL_TAIL 0 0) 3), _, 0, 1, ⟨by decide +kernel, by decide +kernel, rfl⟩,
     by decide +kernel⟩,
   ⟨st fun d => lnkBar (chanOn [] d), _, 0, 1, ⟨by decide +kernel, by decide +kernel, rfl⟩, by decide +kernel⟩,
   ⟨st fun d => lnkBar (d), _, 0, ⟨by decide +kernel, by decide +kernel, rfl⟩, by decide +kernel⟩,
   ⟨st fun d => lnkBar (chanOn [] d), _, 0, 0x80000000, ⟨by decide +kernel, by decide +kernel, rfl⟩, by decide +kernel⟩,
   ⟨st fun d => chanOn [{ readOf 0x1000 32 (.desc 0 1) 32 with pieces := [List.replicate 32 0] }] d, 0,
     { readOf 0x1000 32 (.desc 0 1) 32 with pieces := [List.replicate 32 0] }, 0, 1, _, by decide +kernel, by decide +kernel,
     by decide +kernel, by decide +kernel, by decide +kernel, by decide +kernel, by decide +kernel, by decide +kernel,
     by decide +kernel, rfl, by decide +kernel⟩,
   ⟨st fun d => chanOn [{ readOf (2 ^ 63 + 0x80001000) 32 (.desc 0 1) 0 with firing := 9 }] d, 0,
     { readOf (2 ^ 63 + 0x80001000) 32 (.desc 0 1) 0 with firing := 9 }, by decide +kernel⟩,
   ⟨st fun d => chanOn [{ readOf (2 ^ 63 + 0x80001000) 16 (.block 0 0) 0 with firing := 9 }] d, 0,
     { readOf (2 ^ 63 + 0x80001000) 16 (.block 0 0) 0 with firing := 9 }, by decide +kernel⟩,
   ⟨st fun d => chanOn [readOf (2 ^ 63 + 0x80001000) 16 (.block 0 0) 0] d, 0, readOf (2 ^ 63 + 0x80001000) 16 (.block 0 0) 0,
     by decide +kernel⟩,
   ⟨st fun d => chanOn [{ readOf 0x1000 16 (.block 0 0) 16 with pieces := [List.replicate 16 0] }] d, 0,
     { readOf 0x1000 16 (.block 0 0) 16 with pieces := [List.replicate 16 0] }, by decide +kernel, by decide +kernel,
     by decide +kernel, by decide +kernel, List.replicate 16 0, by decide +kernel⟩,
   ⟨st fun d => chanOn [{ readOf 0x1000 16 (.block 0 0) 8 with pieces := [List.replicate 8 0] }] d, 0,
     { readOf 0x1000 16 (.block 0 0) 8 with pieces := [List.replicate 8 0] }, by decide +kernel, by decide +kernel,
     by decide +kernel, by decide +kernel, List.replicate 8 0, [], by decide +kernel, by decide +kernel,
     (by intro h; exact absurd h (by decide)), by decide +kernel⟩,
   ⟨st (chanOn []), 0, by decide +kernel, by decide +kernel, by decide +kernel, by intro _ _ h; cases h⟩,
   ⟨st fun d => { puts [(DMA_CH_STATUS_IRQ_ARMED 0 0, 1)] (chanOn [] d) with marks := [.armed 0 true 0] }, 0, true, 0, [],
     by decide +kernel⟩⟩

/-- The premises of DescriptorRows. -/
theorem test_witness_DescriptorRows :
    (∃ (s : State) (g : Fin 4096) (i : Nat) (ds : List Byte) (rest : List (Nat × List Byte)), s.dev.alive = true ∧ (s.dev.chan
      g).pre = (i, ds) :: rest ∧ s.dev.canStart g 1 = true ∧ Dev.badRx ds = false ∧ s.dev.tAllowed g (descWord ds 1) (Dev.txLen
      ds) = true) ∧
    (∃ (s : State) (g : Fin 4096) (i : Nat) (ds : List Byte) (rest : List (Nat × List Byte)), s.dev.alive = true ∧ (s.dev.chan
      g).pre = (i, ds) :: rest ∧ s.dev.canStart g 2 = true ∧ (s.dev.chan g).active = none ∧ Dev.badCopy ds = true) ∧
    (∃ (s : State) (g : Fin 4096) (i : Nat) (ds : List Byte) (rest : List (Nat × List Byte)), s.dev.alive = true ∧ (s.dev.chan
      g).pre = (i, ds) :: rest ∧ s.dev.canStart g 2 = true ∧ (s.dev.chan g).active = none ∧ Dev.badCopy ds = false ∧
      s.dev.tAllowed g (descWord ds 1) (bitsOf (descWord ds 0) 32 24) = true ∧ s.dev.tAllowed g (descWord ds 2) (bitsOf
      (descWord ds 0) 32 24) = true ∧ bitOf (descWord ds 0) 62 = false) ∧
    (∃ (s : State) (g : Fin 4096) (i : Nat) (ds : List Byte) (rest : List (Nat × List Byte)), s.dev.alive = true ∧ (s.dev.chan
      g).pre = (i, ds) :: rest ∧ ∃ bs, 3 ≤ s.dev.chKind g ∧ s.dev.chKind g ≤ 6 ∧ s.dev.canStart g (s.dev.chKind g) = true ∧
      Dev.badBlock ds = false ∧ s.dev.tAllowed g (descWord ds 1) 128 = true ∧ (s.dev.chan g).block = some (i, bs)) ∧
    (∃ (s : State) (g : Fin 4096) (i : Nat) (ds : List Byte) (rest : List (Nat × List Byte)), s.dev.alive = true ∧ (s.dev.chan
      g).pre = (i, ds) :: rest ∧ s.dev.canStart g 0 = true ∧ (s.dev.chan g).active = none ∧ rest = [] ∧ bitOf (descWord ds 0) 62
      = true ∧ Dev.badTx ds = true ∧ Dev.upToEop [(i, ds)] = ([(i, ds)], true)) ∧
    (∃ (s : State) (g : Fin 4096) (i : Nat) (ds : List Byte) (rest : List (Nat × List Byte)), s.dev.alive = true ∧ (s.dev.chan
      g).pre = (i, ds) :: rest ∧ ∃ e k f, s.dev.canStart g 0 = true ∧ (s.dev.chan g).active = none ∧ rest = [] ∧ Dev.upToEop
      [(i, ds)] = ([(i, ds)], true) ∧ Dev.badTx ds = false ∧ s.dev.txDenied g ds = false ∧ s.dev.tAllowed g (descWord ds 1)
      (Dev.txLen ds) = true ∧ s.dev.takeForeign (cellsOf (Nat.max 64 (Dev.txLen ds + 4) + 32)) = (true, e) ∧ ((e.mark
      (.admission 8)).addFrame
      { Frame.new (.dma g) [] 0 e.cycle with act := some { queue := bitsOf (descWord ds 2) 48 16, cls := bitsOf (descWord ds 0) 44 3, colour := .ofCode (bitsOf (descWord ds 0) 42 2), xform := if bitOf (descWord ds 0) 61 then some (bitsOf (descWord ds 0) 47 14) else none }, cells := cellsOf (Nat.max 64 (Dev.txLen ds + 4) + 32), cutThrough := some false }
      = (k, f))) ∧
    (∃ (s : State) (g : Fin 4096) (ds : List (Nat × List Byte)) (fr : Nat) (f : Frame) (a : Actions), s.dev.alive = true ∧
      s.dev.chSt g = chRunning ∧ (s.dev.chan g).active = some (.txDone ds fr) ∧ s.dev.frame? fr = some f ∧ f.act = some a ∧
      f.stage = .rx ∧ a.xform = none ∧ f.len ≤ s.dev.maxFrame (s.dev.portOf a.queue)) ∧
    (∃ (s : State) (g : Fin 4096) (fr : Nat) (dn : Nat) (us : Nat) (of : Nat) (f : Frame) (u : Dev) (v : Dev) (e : Dev),
      s.dev.alive = true ∧ s.dev.startDue = u ∧ u.engRuns (g.val / 256) = true ∧ u.chSt g = chRunning ∧ u.chKind g = 1 ∧ (u.chan
      g).bufs ≠ [] ∧ (((u.chan g).active = some (.rx fr dn us of) ∧ v = u ∨ (u.chan g).active = none ∧ dn = 0 ∧ us = 0 ∧ of = 0
      ∧ ∃ w, Dev.rxNext g (u.get (DMA_CH_QUEUE_QUEUE (g.val / 256) (g.val % 256))) 65536 u = (some fr, w) ∧ v = w.setActive g
      (some (.rx fr 0 0 0)))) ∧ v.pump (g.val / 256) = e ∧ (e.chan g).grant = true ∧ e.writeDue (g.val / 256) = true ∧ (e.chan
      g).active = some (.rx fr dn us of) ∧
    let x := e.modChan g fun c => { c with grant := false }
    x.frame? fr = some f) :=
  ⟨⟨st fun d => (chanK 1 (descOf 0 0x1000 64 0) d), 0, 0, descOf 0 0x1000 64 0, [], by decide +kernel⟩,
   ⟨st fun d => (chanK 2 (descOf 0 0 0 0) d), 0, 0, descOf 0 0 0 0, [], by decide +kernel⟩,
   ⟨st fun d => (chanK 2 (descOf (64 * 2 ^ 32) 0x1000 0x8000 0) d), 0, 0, descOf (64 * 2 ^ 32) 0x1000 0x8000 0, [],
     by decide +kernel⟩,
   ⟨st fun d => (chanK 3 (descOf 0 0x1000 0 0) d).modChan 0 fun x => { x with block := some (0, []) }, 0, 0, descOf 0 0x1000 0
     0, [], by decide +kernel, by decide +kernel, [], by decide +kernel⟩,
   ⟨st fun d => (chanK 0 (descOf (2 ^ 62) 0 0 0) d), 0, 0, descOf (2 ^ 62) 0 0 0, [], by decide +kernel⟩,
   ⟨st fun d => (chanK 0 (descOf (2 ^ 62) 0x1000 64 0) d).put BUF_CTRL_ENABLE 1, 0, 0, descOf (2 ^ 62) 0x1000 64 0, [],
     by decide +kernel, by decide +kernel, _, _, _, by decide +kernel, by decide +kernel, by decide +kernel, by decide +kernel,
     by decide +kernel, by decide +kernel, by decide +kernel, pair_of' (by decide +kernel), Prod.mk.eta.symm⟩,
   ⟨st fun d => ((chanOn [] d).setChan 0 { Chan.reset with active := some (.txDone [] 3) }).setFrame 3
     { fr 100 .rx with act := some ⟨0, 0, .green, none⟩ }, 0, [], 3, { fr 100 .rx with act := some ⟨0, 0, .green, none⟩ }, ⟨0,
     0, .green, none⟩, by decide +kernel⟩,
   ⟨st fun d => ((chanK 1 [] d).setChan 0
     { Chan.reset with active := some (.rx 3 0 0 0), bufs := [(0, [1])], grant := true }).setFrame 3 (fr 100 .rx), 0, 3, 0, 0,
     0, fr 100 .rx, (st fun d => ((chanK 1 [] d).setChan 0
     { Chan.reset with active := some (.rx 3 0 0 0), bufs := [(0, [1])], grant := true }).setFrame 3 (fr 100 .rx)).dev.startDue,
     (st fun d => ((chanK 1 [] d).setChan 0
     { Chan.reset with active := some (.rx 3 0 0 0), bufs := [(0, [1])], grant := true }).setFrame 3 (fr 100 .rx)).dev.startDue,
     ((st fun d => ((chanK 1 [] d).setChan 0
     { Chan.reset with active := some (.rx 3 0 0 0), bufs := [(0, [1])], grant := true }).setFrame 3 (fr 100
     .rx)).dev.startDue).pump 0, by decide +kernel, rfl, by decide +kernel, by decide +kernel, by decide +kernel,
     by decide +kernel, .inl ⟨by decide +kernel, rfl⟩, rfl, by decide +kernel, by decide +kernel, by decide +kernel,
     by decide +kernel⟩⟩

/-- The premises of ChannelLife. -/
theorem test_witness_ChannelLife :
    (∃ (s : State) (dv : Dev) (p : Path) (g : Fin 4096) (data : W32), Reaches s.dev p dv ∧ fieldGet data 0 1 = 1 ∧ dv.chSt g =
      chSetup ∧ dv.startRefused g = true) ∧
    (∃ (s : State) (dv : Dev) (p : Path) (g : Fin 4096) (data : W32), Reaches s.dev p dv ∧ fieldGet data 0 1 = 1 ∧ dv.chSt g =
      chSetup ∧ dv.startRefused g = false ∧ dv.pauseSrc g = 0 ∧ dv.conditionSrc g = 0 ∧
    let e := (((dv.put (DMA_CH_STATUS_PAUSE_SRC (g.val / 256) (g.val % 256)) 0).lock (DMA_CH_CTRL (g.val / 256) (g.val %
      256))).modChan g fun x => { x with started := true, known := true }).setChSt g chRunning
    e.chKind g ≠ 1) ∧
    (∃ (s : State) (g : Fin 4096), s.dev.alive = true ∧ s.dev.chSt g = chPausing ∧ s.dev.readsOf g = [] ∧ s.dev.jobsGo g = false
      ∧ ((s.dev.link (s.dev.chLink g)).xwait.any fun w => w.chan == some g.val) = false) ∧
    (∃ (s : State) (dv : Dev) (p : Path) (data : W32), Reaches s.dev p dv ∧ fieldGet data 31 1 = 1) ∧
    (∃ (s : State) (g : Fin 4096), s.dev.alive = true ∧ s.dev.chSt g = chResetting ∧ s.dev.bumpPending (.chan g) = false) ∧
    (∃ (s : State) (dv : Dev) (p : Path) (g : Fin 4096) (data : W32), Reaches s.dev p dv ∧ fieldGet data 30 1 = 1 ∧ dv.chSt g =
      chStopped ∧ dv.flag (DMA_ENG_STATUS_STOPPED (g.val / 256)) = false ∧ dv.pauseSrc g = 0) ∧
    (∃ (s : State) (n : Fin 16), s.dev.alive = true ∧ s.dev.flag (DMA_ENG_STATUS_STOPPED n) = true ∧ (s.dev.deng n).reads = []) ∧
    (∃ (s : State) (dv : Dev) (p : Path) (n : Fin 16) (data : W32), Reaches s.dev p dv ∧ fieldGet data 8 1 = 1 ∧ dv.flag
      (DMA_ENG_STATUS_DRAINING n) = false) ∧
    (∃ (s : State) (dv : Dev) (p : Path) (n : Fin 16) (data : W32), Reaches s.dev p dv ∧ fieldGet data 8 1 = 1 ∧ dv.flag
      (DMA_ENG_STATUS_DRAINING n) = true) ∧
    (∃ (s : State) (l : Fin 8), s.dev.alive = true ∧ s.dev.frozen l = true) ∧
    (∃ (s : State) (l : Fin 8) (f : Fin 2048), s.dev.alive = true ∧ s.dev.allReads = [] ∧ (s.dev.link l).unacked = [] ∧
      (s.dev.link l).outq = [] ∧ (s.dev.func l f).atsEn = true) :=
  ⟨⟨State.reset, _, .fw, 0, 1, ⟨by decide +kernel, by decide +kernel, rfl, by decide +kernel, by decide +kernel⟩,
     by decide +kernel⟩,
   ⟨st (puts [(DMA_CH_OWNER_MANAGER 0 0, 1), (DMA_CH_CFG_FUNC 0 0, 2047), (DMA_CH_CFG_KIND 0 0, 2)]), _, .fw, 0, 1,
     ⟨by decide +kernel, by decide +kernel, rfl, by decide +kernel, by decide +kernel⟩, by decide +kernel, by decide +kernel,
     by decide +kernel, by decide +kernel, by decide +kernel, by decide +kernel⟩,
   ⟨st (puts [(DMA_CH_STATUS_STATE 0 0, 2)]), 0, by decide +kernel⟩,
   ⟨State.reset, _, .fw, 0x80000000, ⟨by decide +kernel, by decide +kernel, rfl, by decide +kernel, by decide +kernel⟩,
     by decide +kernel⟩,
   ⟨st (puts [(DMA_CH_STATUS_STATE 0 0, 5)]), 0, by decide +kernel⟩,
   ⟨st (puts [(DMA_CH_STATUS_STATE 0 0, 4)]), _, .fw, 0, 0x40000000, ⟨by decide +kernel, by decide +kernel, rfl,
     by decide +kernel, by decide +kernel⟩, by decide +kernel⟩,
   ⟨st (puts [(DMA_ENG_STATUS_STOPPED 0, 1)]), 0, by decide +kernel⟩,
   ⟨State.reset, _, .fw, 0, 256, ⟨by decide +kernel, by decide +kernel, rfl, by decide +kernel, by decide +kernel⟩,
     by decide +kernel⟩,
   ⟨st (puts [(DMA_ENG_STATUS_DRAINING 0, 1)]), _, .fw, 0, 256, ⟨by decide +kernel, by decide +kernel, rfl, by decide +kernel,
     by decide +kernel⟩, by decide +kernel⟩,
   ⟨st fun d => puts [(HIF_FREEZE_FROZEN 0 0, 1)] (lnk d), 0, by decide +kernel⟩,
   ⟨st fun d => d.modFunc 0 0 fun x => { x with atsEn := true }, 0, 0, by decide +kernel⟩⟩

/-- The premises of SaggarOperations. -/
theorem test_witness_SaggarOperations :
    (∃ (s : State) (dv : Dev) (p : Path) (n : Fin 2048) (data : W32) (e : Dev), Reaches s.dev p dv ∧ sagReady dv p n data 1 0 e
      ∧ e.noResource n = false ∧ e.badFunc n = false) ∧
    (∃ (s : State) (dv : Dev) (p : Path) (n : Fin 2048) (data : W32) (e : Dev), Reaches s.dev p dv ∧ sagReady dv p n data 1 0 e
      ∧ e.noResource n = true) ∧
    (∃ (s : State) (dv : Dev) (p : Path) (n : Fin 2048) (data : W32) (e : Dev), Reaches s.dev p dv ∧ sagReady dv p n data 2 1 e) ∧
    (∃ (s : State) (dv : Dev) (p : Path) (n : Fin 2048) (data : W32) (e : Dev), Reaches s.dev p dv ∧ sagReady dv p n data 3 1 e) ∧
    (∃ (s : State) (dv : Dev) (p : Path) (n : Fin 2048) (data : W32) (e : Dev), Reaches s.dev p dv ∧ ∃ t0 t js u v0 v, sagReady
      dv p n data 4 1 e ∧ (e.sagBegin n 4 (fieldGet data 0 12)).setSgState n 2 = t0 ∧ (t0.sagChans n).foldl (fun d g =>
      d.setPause g srcSaggar true) t0 = t ∧ t.withdrawJobs n = (js, u) ∧ u.backJobs n js = v0 ∧ ((Dev.rangeOf ((v0.sagRanges
      n).getD 5 (0, 0))).foldl (fun d t => if (Dev.waitSince (d.thread t).wait).isSome then d.unstall t else d) v0 = v)) ∧
    (∃ (s : State) (dv : Dev) (p : Path) (n : Fin 2048) (data : W32) (e : Dev), Reaches s.dev p dv ∧ ∃ t, sagReady dv p n data 5
      3 e ∧ (e.setSgState n 1).put (SAG_STATUS_SAVED n) 0 = t) ∧
    (∃ (s : State) (dv : Dev) (p : Path) (n : Fin 2048) (data : W32) (e : Dev), Reaches s.dev p dv ∧ sagReady dv p n data 8 1 e
      ∧ e.chSt (fieldGet data 0 12) = chSetup ∧ (e.chan (fieldGet data 0 12)).allot = none ∧ e.get (SAG_CH_CH_USED n) < e.get
      (SAG_CH_CH_MAX n)) ∧
    (∃ (s : State) (dv : Dev) (p : Path) (n : Fin 2048) (data : W32) (e : Dev), Reaches s.dev p dv ∧ sagReady dv p n data 9 1 e
      ∧ (e.chan (fieldGet data 0 12)).allot = some n.val) ∧
    (∃ (s : State) (dv : Dev) (p : Path) (n : Fin 2048), Reaches s.dev p dv ∧ ∃ d g c, (Dev.sagOf d n).op = some (9, g, c) ∧
      d.bumpPending (.chan g) = true) ∧
    (∃ (s : State) (dv : Dev) (p : Path) (n : Fin 2048), Reaches s.dev p dv ∧ ∃ d g c, (Dev.sagOf d n).op = some (9, g, c) ∧
      d.bumpPending (.chan g) = false) ∧
    (∃ (s : State) (dv : Dev) (p : Path) (n : Fin 2048) (data : W32) (e : Dev), Reaches s.dev p dv ∧ sagReady dv p n data 10 1
      e) ∧
    (∃ (s : State) (dv : Dev) (p : Path) (n : Fin 2048) (data : W32) (e : Dev), Reaches s.dev p dv ∧ ∃ t u, sagReady dv p n data
      11 1 e ∧ (e.modSag n fun x => { x with dirty := [] }) = t ∧ t.eventWrite (e.get (SAG_IMG_CFG_CHANNEL n)) (e.get
      (SAG_DIRTY_ADDR_LO_ADDR n) + e.get (SAG_DIRTY_ADDR_HI_ADDR n) * 2 ^ 32) ((List.range (64 * e.get (SAG_HBM_PAGES_PAGES
      n))).map fun i => tabGet (fun _ => 0#8) (e.sagOf n).dirty i) = some u ∧ (t.get (SAG_IMG_CFG_CHANNEL n) = e.get
      (SAG_IMG_CFG_CHANNEL n))) ∧
    (∃ (s : State) (dv : Dev) (p : Path) (n : Fin 2048) (data : W32) (e : Dev), Reaches s.dev p dv ∧ sagReady dv p n data 12 1
      e) :=
  ⟨⟨st fun d => (d.put (SAG_FUNC_FUNC 0) 1).put (SAG_STATUS_STATE 0) 0, (st fun d => (d.put (SAG_FUNC_FUNC 0) 1).put
     (SAG_STATUS_STATE 0) 0).dev.reach .fw, .fw, 0, 0x10000000, ((st fun d => (d.put (SAG_FUNC_FUNC 0) 1).put (SAG_STATUS_STATE
     0) 0).dev.reach .fw).writeFields .fw (SAG_CTRL (0 : Fin 2048)) 0x10000000, ⟨by decide +kernel, by decide +kernel, rfl,
     by decide +kernel, by decide +kernel⟩, by unfold sagReady; decide +kernel, by decide +kernel⟩,
   ⟨st fun d => (d.put (SAG_CH_CH_MAX 0) 1025).put (SAG_STATUS_STATE 0) 0, (st fun d => (d.put (SAG_CH_CH_MAX 0) 1025).put
     (SAG_STATUS_STATE 0) 0).dev.reach .fw, .fw, 0, 0x10000000, ((st fun d => (d.put (SAG_CH_CH_MAX 0) 1025).put
     (SAG_STATUS_STATE 0) 0).dev.reach .fw).writeFields .fw (SAG_CTRL (0 : Fin 2048)) 0x10000000, ⟨by decide +kernel,
     by decide +kernel, rfl, by decide +kernel, by decide +kernel⟩, by unfold sagReady; decide +kernel, by decide +kernel⟩,
   ⟨st fun d => (d).put (SAG_STATUS_STATE 0) 1, (st fun d => (d).put (SAG_STATUS_STATE 0) 1).dev.reach .fw, .fw, 0, 0x20000000,
     ((st fun d => (d).put (SAG_STATUS_STATE 0) 1).dev.reach .fw).writeFields .fw (SAG_CTRL (0 : Fin 2048)) 0x20000000,
     ⟨by decide +kernel, by decide +kernel, rfl, by decide +kernel, by decide +kernel⟩, by unfold sagReady; decide +kernel⟩,
   ⟨st fun d => (d).put (SAG_STATUS_STATE 0) 1, (st fun d => (d).put (SAG_STATUS_STATE 0) 1).dev.reach .fw, .fw, 0, 0x30000000,
     ((st fun d => (d).put (SAG_STATUS_STATE 0) 1).dev.reach .fw).writeFields .fw (SAG_CTRL (0 : Fin 2048)) 0x30000000,
     ⟨by decide +kernel, by decide +kernel, rfl, by decide +kernel, by decide +kernel⟩, by unfold sagReady; decide +kernel⟩,
   ⟨st fun d => (d).put (SAG_STATUS_STATE 0) 1, (st fun d => (d).put (SAG_STATUS_STATE 0) 1).dev.reach .fw, .fw, 0, 0x40000000,
     ((st fun d => (d).put (SAG_STATUS_STATE 0) 1).dev.reach .fw).writeFields .fw (SAG_CTRL (0 : Fin 2048)) 0x40000000,
     ⟨by decide +kernel, by decide +kernel, rfl, by decide +kernel, by decide +kernel⟩, _, _, [], _, _, _,
     by unfold sagReady; decide +kernel, rfl, rfl, pair_of' (by decide +kernel), rfl, rfl⟩,
   ⟨st fun d => (d).put (SAG_STATUS_STATE 0) 3, (st fun d => (d).put (SAG_STATUS_STATE 0) 3).dev.reach .fw, .fw, 0, 0x50000000,
     ((st fun d => (d).put (SAG_STATUS_STATE 0) 3).dev.reach .fw).writeFields .fw (SAG_CTRL (0 : Fin 2048)) 0x50000000,
     ⟨by decide +kernel, by decide +kernel, rfl, by decide +kernel, by decide +kernel⟩, _, by unfold sagReady; decide +kernel,
     rfl⟩,
   ⟨st fun d => (d.put (SAG_CH_CH_MAX 0) 1).put (SAG_STATUS_STATE 0) 1, (st fun d => (d.put (SAG_CH_CH_MAX 0) 1).put
     (SAG_STATUS_STATE 0) 1).dev.reach .fw, .fw, 0, 0x80000000, ((st fun d => (d.put (SAG_CH_CH_MAX 0) 1).put (SAG_STATUS_STATE
     0) 1).dev.reach .fw).writeFields .fw (SAG_CTRL (0 : Fin 2048)) 0x80000000, ⟨by decide +kernel, by decide +kernel, rfl,
     by decide +kernel, by decide +kernel⟩, by unfold sagReady; decide +kernel, by decide +kernel⟩,
   ⟨st fun d => (d.modChan 0 fun x => { x with allot := some 0 }).put (SAG_STATUS_STATE 0) 1, (st fun d => (d.modChan 0 fun x =>
     { x with allot := some 0 }).put (SAG_STATUS_STATE 0) 1).dev.reach .fw, .fw, 0, 0x90000000, ((st fun d => (d.modChan 0 fun x
     => { x with allot := some 0 }).put (SAG_STATUS_STATE 0) 1).dev.reach .fw).writeFields .fw (SAG_CTRL (0 : Fin 2048))
     0x90000000, ⟨by decide +kernel, by decide +kernel, rfl, by decide +kernel, by decide +kernel⟩,
     by unfold sagReady; decide +kernel, by decide +kernel⟩,
   ⟨State.reset, _, .fw, 0, ⟨by decide +kernel, by decide +kernel, rfl, by decide +kernel, by decide +kernel⟩, (Dev.reset.modSag
     0 fun x => { x with op := some (9, 5, 0) }).put (DMA_CH_FIRING_BUMP_PENDING 0 5) 1, 5, 0, by decide +kernel⟩,
   ⟨State.reset, _, .fw, 0, ⟨by decide +kernel, by decide +kernel, rfl, by decide +kernel, by decide +kernel⟩, Dev.reset.modSag
     0 fun x => { x with op := some (9, 5, 0) }, 5, 0, by decide +kernel⟩,
   ⟨st fun d => (d).put (SAG_STATUS_STATE 0) 1, (st fun d => (d).put (SAG_STATUS_STATE 0) 1).dev.reach .fw, .fw, 0, 0xA0000000,
     ((st fun d => (d).put (SAG_STATUS_STATE 0) 1).dev.reach .fw).writeFields .fw (SAG_CTRL (0 : Fin 2048)) 0xA0000000,
     ⟨by decide +kernel, by decide +kernel, rfl, by decide +kernel, by decide +kernel⟩, by unfold sagReady; decide +kernel⟩,
   ⟨st fun d => (puts [(DMA_ENG_CTRL_ENABLE 0, 1), (DMA_CH_STATUS_STATE 0 0, 1), (DMA_CH_OWNER_MANAGER 0 0, 1), (DMA_CH_CFG_KIND
     0 0, 7)] d).put (SAG_STATUS_STATE 0) 1, (st fun d => (puts [(DMA_ENG_CTRL_ENABLE 0, 1), (DMA_CH_STATUS_STATE 0 0, 1),
     (DMA_CH_OWNER_MANAGER 0 0, 1), (DMA_CH_CFG_KIND 0 0, 7)] d).put (SAG_STATUS_STATE 0) 1).dev.reach .fw, .fw, 0, 0xB0000000,
     ((st fun d => (puts [(DMA_ENG_CTRL_ENABLE 0, 1), (DMA_CH_STATUS_STATE 0 0, 1), (DMA_CH_OWNER_MANAGER 0 0, 1),
     (DMA_CH_CFG_KIND 0 0, 7)] d).put (SAG_STATUS_STATE 0) 1).dev.reach .fw).writeFields .fw (SAG_CTRL (0 : Fin 2048))
     0xB0000000, ⟨by decide +kernel, by decide +kernel, rfl, by decide +kernel, by decide +kernel⟩, _, _,
     by unfold sagReady; decide +kernel, rfl, (Option.some_get (by decide +kernel)).symm, by decide +kernel⟩,
   ⟨st fun d => (d).put (SAG_STATUS_STATE 0) 1, (st fun d => (d).put (SAG_STATUS_STATE 0) 1).dev.reach .fw, .fw, 0, 0xC0000000,
     ((st fun d => (d).put (SAG_STATUS_STATE 0) 1).dev.reach .fw).writeFields .fw (SAG_CTRL (0 : Fin 2048)) 0xC0000000,
     ⟨by decide +kernel, by decide +kernel, rfl, by decide +kernel, by decide +kernel⟩, by unfold sagReady; decide +kernel⟩⟩

/-- The premises of SaggarImagesAndMailboxes. -/
theorem test_witness_SaggarImagesAndMailboxes :
    (∃ (s : State) (dv : Dev) (p : Path) (n : Fin 2048) (data : W32) (e : Dev), Reaches s.dev p dv ∧ sagReady dv p n data 6 3 e
      ∧ (e.sagOf n).t2mTail = (e.sagOf n).t2mHead ∧ (e.sagOf n).m2tTail = (e.sagOf n).m2tHead ∧ e.get (SAG_MBX_STATUS_M2T_DONE
      n) = e.get (SAG_MBX_M2T_TAIL_TAIL n) ∧ e.get (SAG_MBX_STATUS_T2M_POSTED n) = e.get (SAG_MBX_T2M_HEAD_HEAD n) ∧ e.eventChan
      (e.get (SAG_IMG_CFG_CHANNEL n)) = true) ∧
    (∃ (s : State) (dv : Dev) (p : Path) (n : Fin 2048) (data : W32) (host : List Byte) (e : Dev) (r : Dev) (a : Nat) (g : Nat)
      (len : Nat) (img : List Byte), Reaches s.dev p dv ∧ sagReady dv p n data 7 0 e ∧ e.addr64 (SAG_IMG_ADDR_LO_ADDR n)
      (SAG_IMG_ADDR_HI_ADDR n) 4096 = a ∧ Nat.min (2 ^ 24) (Nat.max 4096 (fieldLE (e.fetchT a 4096 host) 24 4)) = len ∧
      e.ioReadT a 4096 = r ∧ e.get (SAG_IMG_CFG_CHANNEL n) = g ∧ r.eventChan g = true ∧ r.engRuns (g / 256) = true ∧ r.tAllowed
      g a len = true ∧ r.fetchT a len host = img) ∧
    (∃ (d : Dev) (n : Nat) (g : Nat) (c : Nat), (d.sagOf n).op = some (7, g, c) ∧ d.sagBumped n = false) ∧
    (∃ (d : Dev) (n : Nat) (g : Nat) (c : Nat), (d.sagOf n).op = some (7, g, c) ∧ d.sagBumped n = true) ∧
    (∃ (s : State) (n : Fin 2048), s.dev.alive = true ∧ s.dev.sgState n = 4 ∧ s.dev.sagBumped n = true) ∧
    (∃ (s : State) (n : Fin 2048), s.dev.alive = true ∧ s.dev.sgState n = 2 ∧ s.dev.sagQuiet n = true) ∧
    (∃ (s : State) (dv : Dev) (n : Fin 2048) (data : W32), ReachesBar s.dev (s.dev.sagLink n) (s.dev.sagFunc n) dv ∧ dv.sgState
      n ≠ 0 ∧
    let x := dv.sagOf n
    let v := (fieldGet data 0 16 + 65536 - x.t2mHead) % 65536
    let t := (x.t2mTail + 65536 - x.t2mHead) % 65536
    v ≤ 16 ∧ t ≤ v) ∧
    (∃ (s : State) (dv : Dev) (n : Fin 2048) (data : W32), ReachesBar s.dev (s.dev.sagLink n) (s.dev.sagFunc n) dv ∧ dv.sgState
      n ≠ 0 ∧
    let x := dv.sagOf n
    let v := (fieldGet data 0 16 + 65536 - x.t2mHead) % 65536
    let t := (x.t2mTail + 65536 - x.t2mHead) % 65536
    (16 < v ∨ v < t)) ∧
    (∃ (s : State) (n : Fin 2048) (e : Dev), s.dev.alive = true ∧ s.dev.mbxRuns n = true ∧ (s.dev.sagOf n).t2mHead ≠
      (s.dev.sagOf n).t2mTail ∧
    let k := s.dev.get (SAG_MBX_STATUS_T2M_POSTED n)
    (k + 65536 - s.dev.get (SAG_MBX_T2M_HEAD_HEAD n)) % 65536 < 16 ∧ (s.dev.eventWrite (s.dev.get (SAG_MBX_CFG_CHANNEL n))
      (s.dev.addr64 (SAG_MBX_ADDR_LO_ADDR n) (SAG_MBX_ADDR_HI_ADDR n) 2048 + 64 * (k % 16)) (overlay (Dev.slotBytes (s.dev.sagOf
      n).t2m ((s.dev.sagOf n).t2mHead % 16)) 4 (leBytes 4 (k + n.val * 2 ^ 16 + (if k / 16 % 2 = 0 then 2 ^ 31 else 0)))) = some
      e)) ∧
    (∃ (s : State) (dv : Dev) (p : Path) (n : Fin 2048) (data : W32), Reaches s.dev p dv ∧
    let t := (dv.writeFields p (SAG_MBX_M2T_TAIL n) data).put (SAG_MBX_M2T_TAIL_TAIL n) (fieldGet data 0 16)
    (t.sgState n = 0 ∨ t.get (SAG_MBX_M2T_TAIL_TAIL n) = dv.get (SAG_MBX_M2T_TAIL_TAIL n))) ∧
    (∃ (s : State) (dv : Dev) (p : Path) (n : Fin 2048) (data : W32), Reaches s.dev p dv ∧
    let t := (dv.writeFields p (SAG_MBX_M2T_TAIL n) data).put (SAG_MBX_M2T_TAIL_TAIL n) (fieldGet data 0 16)
    t.sgState n ≠ 0 ∧ t.get (SAG_MBX_M2T_TAIL_TAIL n) ≠ dv.get (SAG_MBX_M2T_TAIL_TAIL n)) ∧
    (∃ (s : State) (n : Fin 2048) (host : List Byte), s.dev.alive = true ∧ s.dev.mbxRuns n = true ∧
    let k := s.dev.get (SAG_MBX_STATUS_M2T_DONE n)
    let g := s.dev.get (SAG_MBX_CFG_CHANNEL n)
    let a := s.dev.addr64 (SAG_MBX_ADDR_LO_ADDR n) (SAG_MBX_ADDR_HI_ADDR n) 2048 + 1024 + 64 * (k % 16)
    let x := s.dev.sagOf n
    k ≠ s.dev.get (SAG_MBX_M2T_TAIL_TAIL n) ∧ (x.m2tTail + 65536 - x.m2tHead) % 65536 < 16 ∧ s.dev.engRuns (g / 256) = true ∧
      s.dev.tAllowed g a 64 = true ∧
    let t := (((s.dev.modSag n fun y =>
      { y with m2t := Dev.putSlot x.m2t (64 * (x.m2tTail % 16)) (s.dev.fetchT a 64 host), m2tTail := (x.m2tTail + 1) % 65536 }).ioReadT
      a 64).put (SAG_MBX_STATUS_M2T_DONE n) ((k + 1) % 65536)).inc (SAG_CNT_MBX_M2T n)
    (t.sagOf n).irqEn = false ∧ (t.func (t.sagLink n) (t.sagFunc n)).d3hot = false) :=
  ⟨⟨st fun d => (puts [(DMA_ENG_CTRL_ENABLE 0, 1), (DMA_CH_STATUS_STATE 0 0, 1), (DMA_CH_OWNER_MANAGER 0 0, 1), (DMA_CH_CFG_KIND
     0 0, 7)] d).put (SAG_STATUS_STATE 0) 3, (st fun d => (puts [(DMA_ENG_CTRL_ENABLE 0, 1), (DMA_CH_STATUS_STATE 0 0, 1),
     (DMA_CH_OWNER_MANAGER 0 0, 1), (DMA_CH_CFG_KIND 0 0, 7)] d).put (SAG_STATUS_STATE 0) 3).dev.reach .fw, .fw, 0, 0x60000000,
     ((st fun d => (puts [(DMA_ENG_CTRL_ENABLE 0, 1), (DMA_CH_STATUS_STATE 0 0, 1), (DMA_CH_OWNER_MANAGER 0 0, 1),
     (DMA_CH_CFG_KIND 0 0, 7)] d).put (SAG_STATUS_STATE 0) 3).dev.reach .fw).writeFields .fw (SAG_CTRL (0 : Fin 2048))
     0x60000000, ⟨by decide +kernel, by decide +kernel, rfl, by decide +kernel, by decide +kernel⟩,
     by unfold sagReady; decide +kernel, by decide +kernel⟩,
   ⟨st fun d => (puts [(DMA_ENG_CTRL_ENABLE 0, 1), (DMA_CH_STATUS_STATE 0 0, 1), (DMA_CH_OWNER_MANAGER 0 0, 1), (DMA_CH_CFG_KIND
     0 0, 7)] d).put (SAG_STATUS_STATE 0) 0, (st fun d => (puts [(DMA_ENG_CTRL_ENABLE 0, 1), (DMA_CH_STATUS_STATE 0 0, 1),
     (DMA_CH_OWNER_MANAGER 0 0, 1), (DMA_CH_CFG_KIND 0 0, 7)] d).put (SAG_STATUS_STATE 0) 0).dev.reach .fw, .fw, 0, 0x70000000,
     [], ((st fun d => (puts [(DMA_ENG_CTRL_ENABLE 0, 1), (DMA_CH_STATUS_STATE 0 0, 1), (DMA_CH_OWNER_MANAGER 0 0, 1),
     (DMA_CH_CFG_KIND 0 0, 7)] d).put (SAG_STATUS_STATE 0) 0).dev.reach .fw).writeFields .fw (SAG_CTRL (0 : Fin 2048))
     0x70000000, _, 0, 0, 4096, _, ⟨by decide +kernel, by decide +kernel, rfl, by decide +kernel, by decide +kernel⟩,
     by unfold sagReady; decide +kernel, by decide +kernel, (congrArg (fun z => Nat.min (2 ^ 24) (Nat.max 4096 z))
     zeros_word).trans (by decide), rfl, by decide +kernel, by decide +kernel, by decide +kernel, by decide +kernel, rfl⟩,
   ⟨(Dev.reset.modSag 0 fun x => { x with op := some (7, 5, 0) }).put (SAG_FIRING_BUMP_PENDING 0) 1, 0, 5, 0, by decide +kernel⟩,
   ⟨Dev.reset.modSag 0 fun x => { x with op := some (7, 5, 0) }, 0, 5, 0, by decide +kernel⟩,
   ⟨st (puts [(SAG_STATUS_STATE 0, 4)]), 0, by decide +kernel⟩,
   ⟨st (puts [(SAG_STATUS_STATE 0, 2)]), 0, by decide +kernel⟩,
   ⟨st fun d => (lnkBar (puts [(SAG_STATUS_STATE 0, 1), (SAG_FUNC_FUNC 0, 1)] d)).modFunc 0 1 fun x => { x with mse := true },
     _, 0, 16, ⟨by decide +kernel, by decide +kernel, rfl⟩, by decide +kernel, by decide +kernel⟩,
   ⟨st fun d => (lnkBar (puts [(SAG_STATUS_STATE 0, 1), (SAG_FUNC_FUNC 0, 1)] d)).modFunc 0 1 fun x => { x with mse := true },
     _, 0, 17, ⟨by decide +kernel, by decide +kernel, rfl⟩, by decide +kernel, by decide +kernel⟩,
   ⟨st fun d => (puts [(DMA_ENG_CTRL_ENABLE 0, 1), (DMA_CH_STATUS_STATE 0 0, 1), (DMA_CH_OWNER_MANAGER 0 0, 1), (DMA_CH_CFG_KIND
     0 0, 7), (SAG_STATUS_STATE 0, 1), (SAG_MBX_CFG_EN 0, 1)] d).modSag 0 fun x => { x with t2mTail := 1 }, 0, _,
     by decide +kernel, by decide +kernel, by decide +kernel, by decide +kernel, eventWrite_of (by decide +kernel)⟩,
   ⟨State.reset, _, .fw, 0, 0, ⟨by decide +kernel, by decide +kernel, rfl, by decide +kernel, by decide +kernel⟩,
     by decide +kernel⟩,
   ⟨st (puts [(SAG_STATUS_STATE 0, 1)]), _, .fw, 0, 1, ⟨by decide +kernel, by decide +kernel, rfl, by decide +kernel,
     by decide +kernel⟩, by decide +kernel⟩,
   ⟨st fun d => puts [(DMA_ENG_CTRL_ENABLE 0, 1), (DMA_CH_STATUS_STATE 0 0, 1), (DMA_CH_OWNER_MANAGER 0 0, 1), (DMA_CH_CFG_KIND
     0 0, 7), (SAG_STATUS_STATE 0, 1), (SAG_MBX_CFG_EN 0, 1), (SAG_MBX_M2T_TAIL_TAIL 0, 1)] d, 0, [], by decide +kernel,
     by decide +kernel, by decide +kernel, by decide +kernel, by decide +kernel, by decide +kernel, by decide +kernel⟩⟩

/-- The premises of ControllerRows. -/
theorem test_witness_ControllerRows :
    (∃ (s : State) (dv : Dev) (n : Fin 2048) (y : Fin 65) (data : W32) (q : Sq), ReachesBar s.dev (s.dev.sagLink n)
      (s.dev.sagFunc n) dv ∧ dv.ctlOn n = true ∧ (dv.nvme n).rdy = true ∧ tabGet (fun _ => none) (dv.nvme n).sqs y = some q ∧
      fieldGet data 0 16 < q.size) ∧
    (∃ (s : State) (dv : Dev) (n : Fin 2048) (y : Fin 65) (data : W32) (q : Sq), ReachesBar s.dev (s.dev.sagLink n)
      (s.dev.sagFunc n) dv ∧ dv.ctlOn n = true ∧ (dv.nvme n).rdy = true ∧ tabGet (fun _ => none) (dv.nvme n).sqs y = some q ∧
      q.size ≤ fieldGet data 0 16) ∧
    (∃ (s : State) (dv : Dev) (n : Fin 2048) (y : Fin 65) (data : W32) (q : Cq), ReachesBar s.dev (s.dev.sagLink n)
      (s.dev.sagFunc n) dv ∧ dv.ctlOn n = true ∧ (dv.nvme n).rdy = true ∧ tabGet (fun _ => none) (dv.nvme n).cqs y = some q ∧
      fieldGet data 0 16 < q.size) ∧
    (∃ (s : State) (dv : Dev) (n : Fin 2048) (data : W32), ReachesBar s.dev (s.dev.sagLink n) (s.dev.sagFunc n) dv ∧ dv.ctlOn n
      = true ∧ bitOf (dv.nvme n).cc 0 = false ∧ data = 0x00460001 ∧ dv.sto.ns = []) ∧
    (∃ (s : State) (dv : Dev) (n : Fin 2048) (data : W32), ReachesBar s.dev (s.dev.sagLink n) (s.dev.sagFunc n) dv ∧ dv.ctlOn n
      = true ∧ bitOf (dv.nvme n).cc 0 = true ∧ data = 0) ∧
    (∃ (s : State) (dv : Dev) (n : Fin 2048) (data : W32), ReachesBar s.dev (s.dev.sagLink n) (s.dev.sagFunc n) dv ∧ dv.ctlOn n
      = true ∧ fieldGet data 14 2 = 2 ∧ (dv.nvme n).shst = 0 ∧ Dev.dirty (dv.nvme n) = []) :=
  ⟨⟨st (nvBar fun c => { c with sqs := [(0, some ⟨0, 8, 0, 0, 0⟩)] }), _, 0, 0, 7, ⟨0, 8, 0, 0, 0⟩, ⟨by decide +kernel,
     by decide +kernel, rfl⟩, by decide +kernel⟩,
   ⟨st (nvBar fun c => { c with sqs := [(0, some ⟨0, 8, 0, 0, 0⟩)] }), _, 0, 0, 8, ⟨0, 8, 0, 0, 0⟩, ⟨by decide +kernel,
     by decide +kernel, rfl⟩, by decide +kernel⟩,
   ⟨st (nvBar fun c => { c with cqs := [(0, some ⟨0, 8, false, 0, 0, 0, false⟩)] }), _, 0, 0, 7, ⟨0, 8, false, 0, 0, 0, false⟩,
     ⟨by decide +kernel, by decide +kernel, rfl⟩, by decide +kernel⟩,
   ⟨st (nvBar id), _, 0, 0x00460001, ⟨by decide +kernel, by decide +kernel, rfl⟩, by decide +kernel⟩,
   ⟨st (nvBar fun c => { c with cc := 1 }), _, 0, 0, ⟨by decide +kernel, by decide +kernel, rfl⟩, by decide +kernel⟩,
   ⟨st (nvBar id), _, 0, 0x8000, ⟨by decide +kernel, by decide +kernel, rfl⟩, by decide +kernel⟩⟩

/-- The premises of AdminCommands. -/
theorem test_witness_AdminCommands :
    (∃ (s : State) (n : Fin 2048) (sqe : List Byte) (x : NvmeCmd) (e : Dev), s.dev.alive = true ∧ sqeBad x.sqe = false ∧
    let c := e.nvme n
    let qid := bitsOf (cdw x.sqe 10) 0 16
    let size := bitsOf (cdw x.sqe 10) 16 16
    s.dev.takeCmd n 0 0x01 sqe = some (x, e) ∧ 1 ≤ qid ∧ qid ≤ 64 ∧ tabGet (fun _ => none) c.sqs qid = none ∧ 1 ≤ bitsOf (cdw
      x.sqe 11) 16 16 ∧ bitsOf (cdw x.sqe 11) 16 16 ≤ 64 ∧ tabGet (fun _ => none) c.cqs (bitsOf (cdw x.sqe 11) 16 16) ≠ none ∧ 1
      ≤ size ∧ size ≤ 4095 ∧ bitOf (cdw x.sqe 11) 0 = true) ∧
    (∃ (s : State) (n : Fin 2048) (sqe : List Byte) (x : NvmeCmd) (e : Dev), s.dev.alive = true ∧ sqeBad x.sqe = false ∧
    let c := e.nvme n
    let qid := bitsOf (cdw x.sqe 10) 0 16
    let size := bitsOf (cdw x.sqe 10) 16 16
    s.dev.takeCmd n 0 0x05 sqe = some (x, e) ∧ 1 ≤ qid ∧ qid ≤ 64 ∧ tabGet (fun _ => none) c.cqs qid = none ∧ 1 ≤ size ∧ size ≤
      4095 ∧ bitOf (cdw x.sqe 11) 0 = true ∧ bitsOf (cdw x.sqe 11) 16 16 < e.msixSize (e.sagLink n) (e.sagFunc n)) ∧
    (∃ (s : State) (n : Fin 2048) (sqe : List Byte) (x : NvmeCmd) (e : Dev), s.dev.alive = true ∧ sqeBad x.sqe = false ∧
    let c := e.nvme n
    let qid := bitsOf (cdw x.sqe 10) 0 16
    s.dev.takeCmd n 0 0x00 sqe = some (x, e) ∧ tabGet (fun _ => none) c.sqs qid = none) ∧
    (∃ (s : State) (n : Fin 2048) (sqe : List Byte) (x : NvmeCmd) (e : Dev), s.dev.alive = true ∧ sqeBad x.sqe = false ∧
    let c := e.nvme n
    let qid := bitsOf (cdw x.sqe 10) 0 16
    s.dev.takeCmd n 0 0x00 sqe = some (x, e) ∧ 1 ≤ qid ∧ tabGet (fun _ => none) c.sqs qid ≠ none ∧ (c.cmds.filter fun y => y.sq
      == qid) = [] ∧ e.sto.ns = []) ∧
    (∃ (s : State) (n : Fin 2048) (sqe : List Byte) (x : NvmeCmd) (e : Dev), s.dev.alive = true ∧ sqeBad x.sqe = false ∧
    let c := e.nvme n
    let qid := bitsOf (cdw x.sqe 10) 0 16
    s.dev.takeCmd n 0 0x04 sqe = some (x, e) ∧ 1 ≤ qid ∧ tabGet (fun _ => none) c.cqs qid ≠ none ∧ (c.sqs.all fun kv =>
      (kv.2.map (·.cq)).getD 0 != qid) = true) ∧
    (∃ (s : State) (n : Fin 2048) (sqe : List Byte) (x : NvmeCmd) (e : Dev), s.dev.alive = true ∧ sqeBad x.sqe = false ∧ ∃ lid,
      s.dev.takeCmd n 0 0x02 sqe = some (x, e) ∧ bitsOf (cdw x.sqe 10) 0 8 = lid ∧ lid ∈ logPages ∧
    let len := (bitsOf (cdw x.sqe 10) 16 16 + bitsOf (cdw x.sqe 11) 0 16 * 2 ^ 16 + 1) * 4
    len ≤ 262144) ∧
    (∃ (s : State) (n : Fin 2048) (sqe : List Byte) (x : NvmeCmd) (e : Dev), s.dev.alive = true ∧ sqeBad x.sqe = false ∧
      s.dev.takeCmd n 0 0x06 sqe = some (x, e) ∧ bitsOf (cdw x.sqe 10) 0 8 = 2) ∧
    (∃ (s : State) (n : Fin 2048) (sqe : List Byte) (x : NvmeCmd) (e : Dev), s.dev.alive = true ∧ sqeBad x.sqe = false ∧
    let c := e.nvme n
    let qid := bitsOf (cdw x.sqe 10) 0 16
    let size := bitsOf (cdw x.sqe 10) 16 16
    s.dev.takeCmd n 0 0x08 sqe = some (x, e) ∧ tabGet (fun _ => none) c.sqs qid = none ∧ (c.cmds.find? fun y => y.sq == qid &&
      y.cid == size && !(y.sq == x.sq && y.cid == x.cid)) = none ∧ (c.cmds.filter fun y => y.sq == 0 && y.wait == .queued &&
      fieldLE y.sqe 0 1 == 0x08).length ≤ 4) ∧
    (∃ (s : State) (n : Fin 2048) (sqe : List Byte) (x : NvmeCmd) (e : Dev), s.dev.alive = true ∧ sqeBad x.sqe = false ∧
      s.dev.takeCmd n 0 0x09 sqe = some (x, e) ∧ bitOf (cdw x.sqe 10) 31 = false ∧ bitsOf (cdw x.sqe 10) 0 8 = 0x0B) ∧
    (∃ (s : State) (n : Fin 2048) (sqe : List Byte) (x : NvmeCmd) (e : Dev), s.dev.alive = true ∧ sqeBad x.sqe = false ∧
      s.dev.takeCmd n 0 0x09 sqe = some (x, e) ∧ bitOf (cdw x.sqe 10) 31 = false ∧ bitsOf (cdw x.sqe 10) 0 8 = 0x06) ∧
    (∃ (s : State) (n : Fin 2048) (sqe : List Byte) (x : NvmeCmd) (e : Dev), s.dev.alive = true ∧ sqeBad x.sqe = false ∧
      s.dev.takeCmd n 0 0x0A sqe = some (x, e) ∧ bitsOf (cdw x.sqe 10) 0 8 = 0x0B) ∧
    (∃ (s : State) (n : Fin 2048) (sqe : List Byte) (x : NvmeCmd) (e : Dev), s.dev.alive = true ∧ sqeBad x.sqe = false ∧
      s.dev.takeCmd n 0 0x0A sqe = some (x, e) ∧ bitsOf (cdw x.sqe 10) 0 8 = 0x06) ∧
    (∃ (s : State) (n : Fin 2048) (sqe : List Byte) (x : NvmeCmd) (e : Dev), s.dev.alive = true ∧ sqeBad x.sqe = false ∧
    let c := e.nvme n
    s.dev.takeCmd n 0 0x0C sqe = some (x, e) ∧ (c.cmds.filter fun y => y.wait == .aer).length < 4) ∧
    (∃ (s : State) (n : Fin 2048) (sqe : List Byte) (x : NvmeCmd) (e : Dev), s.dev.alive = true ∧ sqeBad x.sqe = false ∧
    let c := e.nvme n
    s.dev.takeCmd n 0 0x0C sqe = some (x, e) ∧ 4 ≤ (c.cmds.filter fun y => y.wait == .aer).length) :=
  ⟨⟨st fun d => sqDev 0 (d), 0, (sqeOf 1 [(40, 4, 0x10002), (44, 4, 0x10001)]), ⟨0, 0, sqeOf 1 [(40, 4, 0x10002), (44, 4,
     0x10001)], 0, .queued, 0⟩, cmdTaken (st fun d => sqDev 0 (d)).dev 0 1 (sqeOf 1 [(40, 4, 0x10002), (44, 4, 0x10001)]),
     by decide +kernel, by decide +kernel, take_of (by decide +kernel), by decide +kernel⟩,
   ⟨st fun d => sqDev 0 (d), 0, (sqeOf 5 [(40, 4, 0x10002), (44, 4, 1)]), ⟨0, 0, sqeOf 5 [(40, 4, 0x10002), (44, 4, 1)], 0,
     .queued, 0⟩, cmdTaken (st fun d => sqDev 0 (d)).dev 0 5 (sqeOf 5 [(40, 4, 0x10002), (44, 4, 1)]), by decide +kernel,
     by decide +kernel, take_of (by decide +kernel), by decide +kernel⟩,
   ⟨st fun d => sqDev 0 (d), 0, (sqeOf 0 [(40, 4, 1)]), ⟨0, 0, sqeOf 0 [(40, 4, 1)], 0, .queued, 0⟩, cmdTaken (st fun d => sqDev
     0 (d)).dev 0 0 (sqeOf 0 [(40, 4, 1)]), by decide +kernel, by decide +kernel, take_of (by decide +kernel),
     by decide +kernel⟩,
   ⟨st fun d => (sqDev 0 d).modNvme 0 fun c => { c with sqs := c.sqs ++ [(1, some ⟨0, 8, 1, 0, 0⟩)] }, 0, (sqeOf 0 [(40, 4,
     1)]), ⟨0, 0, sqeOf 0 [(40, 4, 1)], 0, .queued, 0⟩, cmdTaken (st fun d => (sqDev 0 d).modNvme 0 fun c =>
     { c with sqs := c.sqs ++ [(1, some ⟨0, 8, 1, 0, 0⟩)] }).dev 0 0 (sqeOf 0 [(40, 4, 1)]), by decide +kernel,
     by decide +kernel, take_of (by decide +kernel), by decide +kernel⟩,
   ⟨st fun d => (sqDev 0 d).modNvme 0 fun c => { c with sqs := [(0, some ⟨0, 8, 0, 0, 1⟩)] }, 0, (sqeOf 4 [(40, 4, 1)]), ⟨0, 0,
     sqeOf 4 [(40, 4, 1)], 0, .queued, 0⟩, cmdTaken (st fun d => (sqDev 0 d).modNvme 0 fun c =>
     { c with sqs := [(0, some ⟨0, 8, 0, 0, 1⟩)] }).dev 0 4 (sqeOf 4 [(40, 4, 1)]), by decide +kernel, by decide +kernel,
     take_of (by decide +kernel), by decide +kernel⟩,
   ⟨st fun d => sqDev 0 (d), 0, (sqeOf 2 [(40, 4, 4)]), ⟨0, 0, sqeOf 2 [(40, 4, 4)], 0, .queued, 0⟩, cmdTaken (st fun d => sqDev
     0 (d)).dev 0 2 (sqeOf 2 [(40, 4, 4)]), by decide +kernel, by decide +kernel, 4, take_of (by decide +kernel),
     by decide +kernel, by decide +kernel, by decide +kernel⟩,
   ⟨st fun d => sqDev 0 (d), 0, (sqeOf 6 [(40, 4, 2)]), ⟨0, 0, sqeOf 6 [(40, 4, 2)], 0, .queued, 0⟩, cmdTaken (st fun d => sqDev
     0 (d)).dev 0 6 (sqeOf 6 [(40, 4, 2)]), by decide +kernel, by decide +kernel, take_of (by decide +kernel),
     by decide +kernel⟩,
   ⟨st fun d => sqDev 0 (d), 0, (sqeOf 8 [(40, 4, 1)]), ⟨0, 0, sqeOf 8 [(40, 4, 1)], 0, .queued, 0⟩, cmdTaken (st fun d => sqDev
     0 (d)).dev 0 8 (sqeOf 8 [(40, 4, 1)]), by decide +kernel, by decide +kernel, take_of (by decide +kernel),
     by decide +kernel⟩,
   ⟨st fun d => sqDev 0 (d), 0, (sqeOf 9 [(40, 4, 0x0B)]), ⟨0, 0, sqeOf 9 [(40, 4, 0x0B)], 0, .queued, 0⟩, cmdTaken (st fun d =>
     sqDev 0 (d)).dev 0 9 (sqeOf 9 [(40, 4, 0x0B)]), by decide +kernel, by decide +kernel, take_of (by decide +kernel),
     by decide +kernel⟩,
   ⟨st fun d => sqDev 0 (d), 0, (sqeOf 9 [(40, 4, 6)]), ⟨0, 0, sqeOf 9 [(40, 4, 6)], 0, .queued, 0⟩, cmdTaken (st fun d => sqDev
     0 (d)).dev 0 9 (sqeOf 9 [(40, 4, 6)]), by decide +kernel, by decide +kernel, take_of (by decide +kernel),
     by decide +kernel⟩,
   ⟨st fun d => sqDev 0 (d), 0, (sqeOf 0x0A [(40, 4, 0x0B)]), ⟨0, 0, sqeOf 0x0A [(40, 4, 0x0B)], 0, .queued, 0⟩, cmdTaken (st
     fun d => sqDev 0 (d)).dev 0 0x0A (sqeOf 0x0A [(40, 4, 0x0B)]), by decide +kernel, by decide +kernel, take_of
     (by decide +kernel), by decide +kernel⟩,
   ⟨st fun d => sqDev 0 (d), 0, (sqeOf 0x0A [(40, 4, 6)]), ⟨0, 0, sqeOf 0x0A [(40, 4, 6)], 0, .queued, 0⟩, cmdTaken (st fun d =>
     sqDev 0 (d)).dev 0 0x0A (sqeOf 0x0A [(40, 4, 6)]), by decide +kernel, by decide +kernel, take_of (by decide +kernel),
     by decide +kernel⟩,
   ⟨st fun d => sqDev 0 (d), 0, (sqeOf 0x0C []), ⟨0, 0, sqeOf 0x0C [], 0, .queued, 0⟩, cmdTaken (st fun d => sqDev 0 (d)).dev 0
     0x0C (sqeOf 0x0C []), by decide +kernel, by decide +kernel, take_of (by decide +kernel), by decide +kernel⟩,
   ⟨st fun d => (sqDev 0 d).modNvme 0 fun c => { c with cmds := List.replicate 4 ⟨0, 9, [], 0, .aer, 0⟩ }, 0, (sqeOf 0x0C []),
     ⟨0, 0, sqeOf 0x0C [], 0, .queued, 0⟩, cmdTaken (st fun d => (sqDev 0 d).modNvme 0 fun c =>
     { c with cmds := List.replicate 4 ⟨0, 9, [], 0, .aer, 0⟩ }).dev 0 0x0C (sqeOf 0x0C []), by decide +kernel,
     by decide +kernel, take_of (by decide +kernel), by decide +kernel⟩⟩

/-- The premises of IoCommands. -/
theorem test_witness_IoCommands :
    (∃ (s : State) (n : Fin 2048) (q : Fin 65) (sqe : List Byte) (x : NvmeCmd) (e : Dev) (k : Nat), s.dev.alive = true ∧ q ≠ 0 ∧
    let ns := e.nsEnt k
    let slba := sqeSlba x.sqe
    let len := sqeNlb x.sqe * ns.lba
    let next := fun (op : Nat) => s.dev.awaiting n q op sqe = none ∧ s.dev.ciphering n q op sqe = none ∧ s.dev.takeCmd n q op
      sqe = some (x, e)
    next 0x01 ∧ e.ioCheck n x slba (sqeNlb x.sqe) true = .ok k ∧ len ≤ 262144 ∧ prpSegs x.sqe len [] ≠ none ∧
    let u := e.svcMoved n len true
    let v := u.nsEnt k
    v.inHbm = true ∧ ns.xts = false) ∧
    (∃ (s : State) (n : Fin 2048) (q : Fin 65) (sqe : List Byte) (x : NvmeCmd) (e : Dev) (k : Nat), s.dev.alive = true ∧ q ≠ 0 ∧
    let ns := e.nsEnt k
    let slba := sqeSlba x.sqe
    let len := sqeNlb x.sqe * ns.lba
    let next := fun (op : Nat) => s.dev.awaiting n q op sqe = none ∧ s.dev.ciphering n q op sqe = none ∧ s.dev.takeCmd n q op
      sqe = some (x, e)
    next 0x01 ∧ e.ioCheck n x slba (sqeNlb x.sqe) true = .ok k ∧ len ≤ 262144 ∧ prpSegs x.sqe len [] ≠ none ∧ ns.xts = true) ∧
    (∃ (s : State) (n : Fin 2048) (q : Fin 65) (sqe : List Byte) (x : NvmeCmd) (e : Dev) (k : Nat), s.dev.alive = true ∧ q ≠ 0 ∧
    let ns := e.nsEnt k
    let ciphered := fun (op m : Nat) (dat : List Byte) (r : Bool) => s.dev.awaiting n q op sqe = none ∧ s.dev.ciphering n q op
      sqe = some (x, m, dat) ∧ s.dev.ctlRuns n = true ∧ e = s.dev.retireJobs (fun k w => k == n.val && match w with
      | .block y i _ => y == x.sq && i == x.cid | _ => false) ∧ e.nsFind n (sqeNsid x.sqe) = some (k, r)
    ∃ m dat r out, ciphered 0x01 m dat r ∧ s.dev.xtsOutcome n x m = some (some out) ∧ ns.inHbm = true) ∧
    (∃ (s : State) (n : Fin 2048) (q : Fin 65) (sqe : List Byte) (x : NvmeCmd) (e : Dev) (k : Nat), s.dev.alive = true ∧ q ≠ 0 ∧
    let ciphered := fun (op m : Nat) (dat : List Byte) (r : Bool) => s.dev.awaiting n q op sqe = none ∧ s.dev.ciphering n q op
      sqe = some (x, m, dat) ∧ s.dev.ctlRuns n = true ∧ e = s.dev.retireJobs (fun k w => k == n.val && match w with
      | .block y i _ => y == x.sq && i == x.cid | _ => false) ∧ e.nsFind n (sqeNsid x.sqe) = some (k, r)
    ∃ m dat r, ciphered 0x01 m dat r ∧ s.dev.xtsOutcome n x m = some none) ∧
    (∃ (s : State) (n : Fin 2048) (q : Fin 65) (sqe : List Byte) (x : NvmeCmd) (e : Dev) (k : Nat), s.dev.alive = true ∧ q ≠ 0 ∧
    let ns := e.nsEnt k
    let slba := sqeSlba x.sqe
    let len := sqeNlb x.sqe * ns.lba
    let next := fun (op : Nat) => s.dev.awaiting n q op sqe = none ∧ s.dev.ciphering n q op sqe = none ∧ s.dev.takeCmd n q op
      sqe = some (x, e)
    ∃ u, next 0x02 ∧ e.ioCheck n x slba (sqeNlb x.sqe) false = .ok k ∧ len ≤ 262144 ∧ ns.inHbm = true ∧ e.ioRead (e.nsAddr ns +
      slba * ns.lba) len = u ∧ u.poisoned (e.nsAddr ns + slba * ns.lba) len = false ∧
    let v := u.nsEnt k
    v.xts = false) ∧
    (∃ (s : State) (n : Fin 2048) (q : Fin 65) (sqe : List Byte) (x : NvmeCmd) (e : Dev) (k : Nat), s.dev.alive = true ∧ q ≠ 0 ∧
    let ns := e.nsEnt k
    let slba := sqeSlba x.sqe
    let len := sqeNlb x.sqe * ns.lba
    let next := fun (op : Nat) => s.dev.awaiting n q op sqe = none ∧ s.dev.ciphering n q op sqe = none ∧ s.dev.takeCmd n q op
      sqe = some (x, e)
    ∃ u, next 0x02 ∧ e.ioCheck n x slba (sqeNlb x.sqe) false = .ok k ∧ len ≤ 262144 ∧ ns.inHbm = true ∧ e.ioRead (e.nsAddr ns +
      slba * ns.lba) len = u ∧ u.poisoned (e.nsAddr ns + slba * ns.lba) len = false ∧
    let v := u.nsEnt k
    v.xts = true) ∧
    (∃ (s : State) (n : Fin 2048) (q : Fin 65) (sqe : List Byte) (x : NvmeCmd) (e : Dev) (k : Nat), s.dev.alive = true ∧ q ≠ 0 ∧
    let ciphered := fun (op m : Nat) (dat : List Byte) (r : Bool) => s.dev.awaiting n q op sqe = none ∧ s.dev.ciphering n q op
      sqe = some (x, m, dat) ∧ s.dev.ctlRuns n = true ∧ e = s.dev.retireJobs (fun k w => k == n.val && match w with
      | .block y i _ => y == x.sq && i == x.cid | _ => false) ∧ e.nsFind n (sqeNsid x.sqe) = some (k, r)
    ∃ m dat r out, ciphered 0x02 m dat r ∧ s.dev.xtsOutcome n x m = some (some out)) ∧
    (∃ (s : State) (n : Fin 2048) (q : Fin 65) (sqe : List Byte) (x : NvmeCmd) (e : Dev) (k : Nat), s.dev.alive = true ∧ q ≠ 0 ∧
    let ns := e.nsEnt k
    let slba := sqeSlba x.sqe
    let next := fun (op : Nat) => s.dev.awaiting n q op sqe = none ∧ s.dev.ciphering n q op sqe = none ∧ s.dev.takeCmd n q op
      sqe = some (x, e)
    next 0x08 ∧ e.ioCheck n x slba (sqeNlb x.sqe) true = .ok k ∧ ns.inHbm = true ∧ ns.xts = false) ∧
    (∃ (s : State) (n : Fin 2048) (q : Fin 65) (sqe : List Byte) (x : NvmeCmd) (e : Dev) (k : Nat), s.dev.alive = true ∧ q ≠ 0 ∧
    let ns := e.nsEnt k
    let slba := sqeSlba x.sqe
    let next := fun (op : Nat) => s.dev.awaiting n q op sqe = none ∧ s.dev.ciphering n q op sqe = none ∧ s.dev.takeCmd n q op
      sqe = some (x, e)
    next 0x08 ∧ e.ioCheck n x slba (sqeNlb x.sqe) true = .ok k ∧ ns.xts = true) ∧
    (∃ (s : State) (n : Fin 2048) (q : Fin 65) (sqe : List Byte) (x : NvmeCmd) (e : Dev) (k : Nat), s.dev.alive = true ∧ q ≠ 0 ∧
    let next := fun (op : Nat) => s.dev.awaiting n q op sqe = none ∧ s.dev.ciphering n q op sqe = none ∧ s.dev.takeCmd n q op
      sqe = some (x, e)
    next 0x09 ∧ e.ioCheck n x 0 0 true = .ok k ∧ bitOf (cdw x.sqe 11) 2 = false) ∧
    (∃ (s : State) (n : Fin 2048) (q : Fin 65) (sqe : List Byte) (data : List Byte) (x : NvmeCmd) (e : Dev) (k : Nat),
      s.dev.alive = true ∧ q ≠ 0 ∧
    let ns := e.nsEnt k
    let next := fun (op : Nat) => s.dev.awaiting n q op sqe = none ∧ s.dev.ciphering n q op sqe = none ∧ s.dev.takeCmd n q op
      sqe = some (x, e)
    next 0x09 ∧ e.ioCheck n x 0 0 true = .ok k ∧
    let at_ := fieldLE data 8 8
    let nlb := fieldLE data 4 4
    bitOf (cdw x.sqe 11) 2 = true ∧ bitsOf (cdw x.sqe 10) 0 8 = 0 ∧ ns.size < at_ + nlb) ∧
    (∃ (s : State) (n : Fin 2048) (q : Fin 65) (sqe : List Byte) (data : List Byte) (x : NvmeCmd) (e : Dev) (k : Nat),
      s.dev.alive = true ∧ q ≠ 0 ∧
    let ns := e.nsEnt k
    let next := fun (op : Nat) => s.dev.awaiting n q op sqe = none ∧ s.dev.ciphering n q op sqe = none ∧ s.dev.takeCmd n q op
      sqe = some (x, e)
    next 0x09 ∧ e.ioCheck n x 0 0 true = .ok k ∧
    let u := e.svcMoved n (16 * (bitsOf (cdw x.sqe 10) 0 8 + 1)) true
    let v := u.nsEnt k
    let at_ := fieldLE data 8 8
    let nlb := fieldLE data 4 4
    bitOf (cdw x.sqe 11) 2 = true ∧ bitsOf (cdw x.sqe 10) 0 8 = 0 ∧ v.inHbm = true ∧ ns.xts = false ∧ at_ + nlb ≤ ns.size) ∧
    (∃ (s : State) (n : Fin 2048) (q : Fin 65) (sqe : List Byte) (x : NvmeCmd) (e : Dev) (k : Nat), s.dev.alive = true ∧ q ≠ 0 ∧
    let ns := e.nsEnt k
    s.dev.takeCmd n q 0x00 sqe = some (x, e) ∧ e.nsFind n (sqeNsid x.sqe) = some (k, false) ∧ sqeBad x.sqe = false ∧ ns.isJnl =
      false ∧ (e.nvme n).cache = []) ∧
    (∃ (s : State) (n : Fin 2048) (q : Fin 65) (sqe : List Byte) (x : NvmeCmd) (e : Dev) (k : Nat), s.dev.alive = true ∧ q ≠ 0 ∧
      s.dev.takeCmd n q 0x81 sqe = some (x, e) ∧ e.nsFind n (sqeNsid x.sqe) = some (k, true)) ∧
    (∃ (s : State) (n : Fin 2048) (q : Fin 65) (sqe : List Byte) (x : NvmeCmd) (e : Dev) (k : Nat), s.dev.alive = true ∧ q ≠ 0 ∧
    let ns := e.nsEnt k
    s.dev.takeCmd n q 0x81 sqe = some (x, e) ∧ e.nsFind n (sqeNsid x.sqe) = some (k, false) ∧ sqeBad x.sqe = false ∧ ns.isJnl =
      true ∧ 1 ≤ bitsOf (cdw x.sqe 10) 0 17 ∧ bitsOf (cdw x.sqe 10) 0 17 ≤ 65536 ∧ prpSegs x.sqe (bitsOf (cdw x.sqe 10) 0 17) []
      ≠ none) ∧
    (∃ (s : State) (n : Fin 2048) (q : Fin 65) (sqe : List Byte) (x : NvmeCmd) (e : Dev), s.dev.alive = true ∧ q ≠ 0 ∧
      (s.dev.nvme n).cmds = [] ∧ fieldLE sqe 0 1 ∉ ioOps ∧ s.dev.takeCmd n q (fieldLE sqe 0 1) sqe = some (x, e)) :=
  ⟨⟨st fun d => sqDev 1 (nsDev 0x80000000 1 id d), 0, 1, (sqeOf 1 [(4, 4, 1)]), ⟨1, 0, sqeOf 1 [(4, 4, 1)], 0, .queued, 0⟩,
     cmdTaken (st fun d => sqDev 1 (nsDev 0x80000000 1 id d)).dev 1 1 (sqeOf 1 [(4, 4, 1)]), 0, by decide +kernel,
     by decide +kernel, ⟨by decide +kernel, by decide +kernel, take_of (by decide +kernel)⟩, by decide +kernel,
     by decide +kernel, by decide +kernel, by decide +kernel⟩,
   ⟨st fun d => sqDev 1 (nsDev 0x88000000 1 id d), 0, 1, (sqeOf 1 [(4, 4, 1)]), ⟨1, 0, sqeOf 1 [(4, 4, 1)], 0, .queued, 0⟩,
     cmdTaken (st fun d => sqDev 1 (nsDev 0x88000000 1 id d)).dev 1 1 (sqeOf 1 [(4, 4, 1)]), 0, by decide +kernel,
     by decide +kernel, ⟨by decide +kernel, by decide +kernel, take_of (by decide +kernel)⟩, by decide +kernel⟩,
   ⟨st fun d => ansDev (nvDev (fun c => { c with cmds := [⟨1, 9, (sqeOf 1 [(2, 2, 9), (4, 4, 1)]), 0, .xts 1 [1], 0⟩] }) (nsDev
     0x88000000 1 id d)) [⟨0, .block 1 9 0, 0, [7]⟩], 0, 1, (sqeOf 1 [(2, 2, 9), (4, 4, 1)]), ⟨1, 9, (sqeOf 1 [(2, 2, 9), (4, 4,
     1)]), 0, .xts 1 [1], 0⟩, _, 0, by decide +kernel, by decide +kernel, 1, [1], false, [7], ⟨by decide +kernel,
     by decide +kernel, by decide +kernel, rfl, by decide +kernel⟩, by decide +kernel⟩,
   ⟨st fun d => ansDev (nvDev (fun c => { c with cmds := [⟨1, 9, (sqeOf 1 [(2, 2, 9), (4, 4, 1)]), 0, .xts 1 [1], 0⟩] }) (nsDev
     0x88000000 1 id d)) [⟨0, .block 1 9 0, 1, []⟩], 0, 1, (sqeOf 1 [(2, 2, 9), (4, 4, 1)]), ⟨1, 9, (sqeOf 1 [(2, 2, 9), (4, 4,
     1)]), 0, .xts 1 [1], 0⟩, _, 0, by decide +kernel, by decide +kernel, 1, [1], false, ⟨by decide +kernel, by decide +kernel,
     by decide +kernel, rfl, by decide +kernel⟩, by decide +kernel⟩,
   ⟨st fun d => sqDev 1 (nsDev 0x80000000 1 id d), 0, 1, (sqeOf 2 [(4, 4, 1)]), ⟨1, 0, sqeOf 2 [(4, 4, 1)], 0, .queued, 0⟩,
     cmdTaken (st fun d => sqDev 1 (nsDev 0x80000000 1 id d)).dev 1 2 (sqeOf 2 [(4, 4, 1)]), 0, by decide +kernel,
     by decide +kernel, _, ⟨by decide +kernel, by decide +kernel, take_of (by decide +kernel)⟩, by decide +kernel,
     by decide +kernel, by decide +kernel, rfl, by decide +kernel, by decide +kernel⟩,
   ⟨st fun d => sqDev 1 (nsDev 0x88000000 1 id d), 0, 1, (sqeOf 2 [(4, 4, 1)]), ⟨1, 0, sqeOf 2 [(4, 4, 1)], 0, .queued, 0⟩,
     cmdTaken (st fun d => sqDev 1 (nsDev 0x88000000 1 id d)).dev 1 2 (sqeOf 2 [(4, 4, 1)]), 0, by decide +kernel,
     by decide +kernel, _, ⟨by decide +kernel, by decide +kernel, take_of (by decide +kernel)⟩, by decide +kernel,
     by decide +kernel, by decide +kernel, rfl, by decide +kernel, by decide +kernel⟩,
   ⟨st fun d => ansDev (nvDev (fun c => { c with cmds := [⟨1, 9, (sqeOf 2 [(2, 2, 9), (4, 4, 1)]), 0, .xts 1 [1], 0⟩] }) (nsDev
     0x88000000 1 id d)) [⟨0, .block 1 9 0, 0, [7]⟩], 0, 1, (sqeOf 2 [(2, 2, 9), (4, 4, 1)]), ⟨1, 9, (sqeOf 2 [(2, 2, 9), (4, 4,
     1)]), 0, .xts 1 [1], 0⟩, _, 0, by decide +kernel, by decide +kernel, 1, [1], false, [7], ⟨by decide +kernel,
     by decide +kernel, by decide +kernel, rfl, by decide +kernel⟩, by decide +kernel⟩,
   ⟨st fun d => sqDev 1 (nsDev 0x80000000 1 id d), 0, 1, (sqeOf 8 [(4, 4, 1)]), ⟨1, 0, sqeOf 8 [(4, 4, 1)], 0, .queued, 0⟩,
     cmdTaken (st fun d => sqDev 1 (nsDev 0x80000000 1 id d)).dev 1 8 (sqeOf 8 [(4, 4, 1)]), 0, by decide +kernel,
     by decide +kernel, ⟨by decide +kernel, by decide +kernel, take_of (by decide +kernel)⟩, by decide +kernel⟩,
   ⟨st fun d => sqDev 1 (nsDev 0x88000000 1 id d), 0, 1, (sqeOf 8 [(4, 4, 1)]), ⟨1, 0, sqeOf 8 [(4, 4, 1)], 0, .queued, 0⟩,
     cmdTaken (st fun d => sqDev 1 (nsDev 0x88000000 1 id d)).dev 1 8 (sqeOf 8 [(4, 4, 1)]), 0, by decide +kernel,
     by decide +kernel, ⟨by decide +kernel, by decide +kernel, take_of (by decide +kernel)⟩, by decide +kernel⟩,
   ⟨st fun d => sqDev 1 (nsDev 0x80000000 1 id d), 0, 1, (sqeOf 9 [(4, 4, 1)]), ⟨1, 0, sqeOf 9 [(4, 4, 1)], 0, .queued, 0⟩,
     cmdTaken (st fun d => sqDev 1 (nsDev 0x80000000 1 id d)).dev 1 9 (sqeOf 9 [(4, 4, 1)]), 0, by decide +kernel,
     by decide +kernel, ⟨by decide +kernel, by decide +kernel, take_of (by decide +kernel)⟩, by decide +kernel⟩,
   ⟨st fun d => sqDev 1 (nsDev 0x80000000 1 id d), 0, 1, (sqeOf 9 [(4, 4, 1), (44, 4, 4)]), leBytes 4 0 ++ leBytes 4 9 ++
     leBytes 8 0, ⟨1, 0, (sqeOf 9 [(4, 4, 1), (44, 4, 4)]), 0, .queued, 0⟩, cmdTaken (st fun d => sqDev 1 (nsDev 0x80000000 1 id
     d)).dev 1 9 (sqeOf 9 [(4, 4, 1), (44, 4, 4)]), 0, by decide +kernel, by decide +kernel, ⟨by decide +kernel,
     by decide +kernel, take_of (by decide +kernel)⟩, by decide +kernel, by decide +kernel⟩,
   ⟨st fun d => sqDev 1 (nsDev 0x80000000 1 id d), 0, 1, (sqeOf 9 [(4, 4, 1), (44, 4, 4)]), leBytes 4 0 ++ leBytes 4 1 ++
     leBytes 8 0, ⟨1, 0, (sqeOf 9 [(4, 4, 1), (44, 4, 4)]), 0, .queued, 0⟩, cmdTaken (st fun d => sqDev 1 (nsDev 0x80000000 1 id
     d)).dev 1 9 (sqeOf 9 [(4, 4, 1), (44, 4, 4)]), 0, by decide +kernel, by decide +kernel, ⟨by decide +kernel,
     by decide +kernel, take_of (by decide +kernel)⟩, by decide +kernel, by decide +kernel⟩,
   ⟨st fun d => sqDev 1 (nsDev 0x80000000 1 id d), 0, 1, (sqeOf 0 [(4, 4, 1)]), ⟨1, 0, sqeOf 0 [(4, 4, 1)], 0, .queued, 0⟩,
     cmdTaken (st fun d => sqDev 1 (nsDev 0x80000000 1 id d)).dev 1 0 (sqeOf 0 [(4, 4, 1)]), 0, by decide +kernel,
     by decide +kernel, take_of (by decide +kernel), by decide +kernel⟩,
   ⟨st fun d => sqDev 1 (nsDev 0xA0000005 0x80000100 id d), 0, 1, (sqeOf 0x81 [(4, 4, 1)]), ⟨1, 0, sqeOf 0x81 [(4, 4, 1)], 0,
     .queued, 0⟩, cmdTaken (st fun d => sqDev 1 (nsDev 0xA0000005 0x80000100 id d)).dev 1 0x81 (sqeOf 0x81 [(4, 4, 1)]), 0,
     by decide +kernel, by decide +kernel, take_of (by decide +kernel), by decide +kernel⟩,
   ⟨st fun d => sqDev 1 (nsDev 0xA0000000 1 id d), 0, 1, (sqeOf 0x81 [(4, 4, 1), (40, 4, 1)]), ⟨1, 0, sqeOf 0x81 [(4, 4, 1),
     (40, 4, 1)], 0, .queued, 0⟩, cmdTaken (st fun d => sqDev 1 (nsDev 0xA0000000 1 id d)).dev 1 0x81 (sqeOf 0x81 [(4, 4, 1),
     (40, 4, 1)]), 0, by decide +kernel, by decide +kernel, take_of (by decide +kernel), by decide +kernel⟩,
   ⟨st fun d => sqDev 1 (d), 0, 1, (sqeOf 0x55 [(4, 4, 1)]), ⟨1, 0, sqeOf 0x55 [(4, 4, 1)], 0, .queued, 0⟩, cmdTaken (st fun d
     => sqDev 1 (d)).dev 1 0x55 (sqeOf 0x55 [(4, 4, 1)]), by decide +kernel, by decide +kernel, by decide +kernel,
     by decide +kernel, take_of (by decide +kernel)⟩⟩

/-- The premises of StorageEvents. -/
theorem test_witness_StorageEvents :
    (∃ (s : State) (n : Fin 2048) (x : NvmeCmd), s.dev.alive = true ∧ (s.dev.nvme n).cmds = [x] ∧ x.wait = .ps1 false ∧
      Dev.dirty (s.dev.nvme n) = [] ∧ s.dev.ctlRuns n = true) ∧
    (∃ (s : State) (n : Fin 2048) (id : Nat), s.dev.alive = true ∧ ((Dev.dirty (s.dev.nvme n)).any fun w => w.id == id) = true) ∧
    (∃ (s : State) (n : Fin 2048) (id : Nat), s.dev.alive = true ∧ ((Dev.dirty (s.dev.nvme n)).find? fun w => w.id == id) =
      none) ∧
    (∃ (s : State) (n : Fin 2048) (id : Nat) (w : CacheW), s.dev.alive = true ∧ ((Dev.dirty (s.dev.nvme n)).find? fun w => w.id
      == id) = some w) ∧
    (∃ (s : State) (n : Fin 2048) (x : NvmeCmd) (t : Nat) (since : Nat) (k : Nat) (r : Bool), s.dev.alive = true ∧ (s.dev.nvme
      n).cmds = [x] ∧ x.wait = .target t since ∧ since + Nat.min 230 (fieldLE (s.dev.tgtEnt t) 56 2) * 3000000000 ≤ s.dev.cycle
      ∧ x.sq ≠ 0 ∧ s.dev.svcRuns n = true ∧
    let e := s.dev.modNvme n fun c => { c with conns := c.conns.filter (· != t) }
    let u := if e.tgtUsable n t then e.tgtOpen n t else e
    u.nsFind n (sqeNsid x.sqe) = some (k, r)) ∧
    (∃ (s : State) (n : Fin 2048) (x : NvmeCmd) (e : Dev), s.dev.alive = true ∧ (s.dev.modNvme n fun c =>
      { c with late := c.late.filter fun y => decide (s.dev.cycle < y.at_ + 240 * 3000000000) }) = e ∧ (e.nvme n).cmds = [x] ∧
      x.wait = .queued ∧ x.at_ + 240 * 3000000000 ≤ s.dev.cycle) ∧
    (∃ (s : State) (n : Fin 4096), s.dev.alive = true ∧ (s.dev.nsEnt n).jnl.chained ≠ []) ∧
    (∃ (s : State) (n : Fin 4096), s.dev.alive = true ∧ (s.dev.nsEnt n).jnl.chained = []) ∧
    (∃ (s : State) (n : Fin 4096) (t : Nat), s.dev.alive = true ∧ (s.dev.nsEnt n).jnl.head.firstAt = some t ∧ t + Nat.max 1
      (s.dev.nsEnt n).batchMs * 3000000 ≤ s.dev.cycle + (s.dev.nsEnt n).jnl.head.ran) ∧
    (∃ (s : State) (n : Fin 4096) (o : Fin 2048) (y : Sealing), s.dev.alive = true ∧ (s.dev.nsEnt n).jnl.sealing = some y ∧
      (s.dev.nsEnt n).owner = o.val ∧ s.dev.svcRuns o = true ∧ ∃ a dsa, s.dev.stoAns o (.sign n dsa) = some a ∧ a.status ≠ pkOk) ∧
    (∃ (s : State) (n : Fin 4096) (o : Fin 2048) (y : Sealing), s.dev.alive = true ∧ (s.dev.nsEnt n).jnl.sealing = some y ∧
      (s.dev.nsEnt n).owner = o.val ∧ s.dev.svcRuns o = true ∧ ∃ ec ds, s.dev.stoAns o (.sign n false) = some ec ∧ s.dev.stoAns
      o (.sign n true) = some ds ∧ ec.status = pkOk ∧ ds.status = pkOk) :=
  ⟨⟨st fun d => { nvDev (fun c => { c with cmds := [⟨1, 9, sqeOf 1 [(4, 4, 1)], 0, .ps1 false, 0⟩] }) (d) with cycle := 0 }, 0,
     ⟨1, 9, sqeOf 1 [(4, 4, 1)], 0, .ps1 false, 0⟩, by decide +kernel⟩,
   ⟨st (nvDev fun c => { c with cache := [⟨0, 0, 0, 1, 0, 0, false, 0, 1, 0, 0⟩] }), 0, 0, by decide +kernel⟩,
   ⟨State.reset, 0, 0, by decide +kernel⟩,
   ⟨st (nvDev fun c => { c with cache := [⟨0, 0, 0, 1, 0, 0, false, 0, 1, 0, 0⟩] }), 0, 0, ⟨0, 0, 0, 1, 0, 0, false, 0, 1, 0,
     0⟩, by decide +kernel⟩,
   ⟨st fun d =>
     { nvDev (fun c => { c with cmds := [⟨1, 9, sqeOf 1 [(4, 4, 1)], 0, .target 0 0, 0⟩] }) (nsDev 0x80000000 1 id d) with cycle := 2 ^ 50 },
     0, ⟨1, 9, sqeOf 1 [(4, 4, 1)], 0, .target 0 0, 0⟩, 0, 0, 0, false, by decide +kernel, by decide +kernel, by decide +kernel,
     by decide +kernel, by decide +kernel, by decide +kernel, by decide +kernel⟩,
   ⟨st fun d => { nvDev (fun c => { c with cmds := [⟨1, 9, sqeOf 1 [(4, 4, 1)], 0, .queued, 0⟩] }) (d) with cycle := 2 ^ 50 },
     0, ⟨1, 9, sqeOf 1 [(4, 4, 1)], 0, .queued, 0⟩, _, by decide +kernel, rfl, by decide +kernel⟩,
   ⟨st fun d => { nsDev 0xA0000000 1 (fun j => { j with chained := [⟨0, 0, 1, [], .start, none, 0, 0⟩] }) d with cycle := 0 },
     0, by decide +kernel⟩,
   ⟨st fun d => { nsDev 0xA0000000 1 (fun j => { j with state := j.state }) d with cycle := 0 }, 0, by decide +kernel⟩,
   ⟨st fun d => { nsDev 0xA0000000 1 (fun j => { j with head := { j.head with firstAt := some 0 } }) d with cycle := 2 ^ 50 },
     0, 0, by decide +kernel⟩,
   ⟨st fun d => (ansDev (nsDev 0xA0000000 1 (fun j => { j with sealing := some ⟨[1], 0, 0⟩ }) d) [⟨0, .sign 0 true, 1, []⟩]).put
     (SAG_STATUS_STATE 0) 1, 0, 0, ⟨[1], 0, 0⟩, by decide +kernel, by decide +kernel, by decide +kernel, by decide +kernel, ⟨0,
     .sign 0 true, 1, []⟩, true, by decide +kernel⟩,
   ⟨st fun d => (ansDev (nsDev 0xA0000000 1 (fun j => { j with sealing := some ⟨[1], 0, 0⟩ }) d) [⟨0, .sign 0 false, 0, []⟩, ⟨0,
     .sign 0 true, 0, []⟩]).put (SAG_STATUS_STATE 0) 1, 0, 0, ⟨[1], 0, 0⟩, by decide +kernel, by decide +kernel,
     by decide +kernel, by decide +kernel, ⟨0, .sign 0 false, 0, []⟩, ⟨0, .sign 0 true, 0, []⟩, by decide +kernel⟩⟩

/-- The premises of StorageIndirect. -/
theorem test_witness_StorageIndirect :
    (∃ (s : State) (dv : Dev) (p : Path) (data : W32) (e : Dev), Reaches s.dev p dv ∧ dv.writeFields p STO_IND_CMD data = e ∧
      e.flag STO_IND_STATUS_BUSY = false ∧
    let op := fieldGet data 24 3
    op = 1) ∧
    (∃ (s : State) (dv : Dev) (p : Path) (data : W32) (e : Dev), Reaches s.dev p dv ∧ dv.writeFields p STO_IND_CMD data = e ∧
      e.flag STO_IND_STATUS_BUSY = false ∧
    let i := fieldGet data 0 12
    let op := fieldGet data 24 3
    op = 2 ∧ Dev.nsBad { e.nsEnt i with cfg := Dev.fixBatch (e.bytesFrom 10) } = true) ∧
    (∃ (s : State) (dv : Dev) (p : Path) (data : W32) (e : Dev), Reaches s.dev p dv ∧ dv.writeFields p STO_IND_CMD data = e ∧
      e.flag STO_IND_STATUS_BUSY = false ∧
    let i := fieldGet data 0 12
    let op := fieldGet data 24 3
    op = 2 ∧ Dev.nsBad { e.nsEnt i with cfg := Dev.fixBatch (e.bytesFrom 10) } = false ∧ (e.nsEnt i).valid = false ∧ NsEnt.valid
      { e.nsEnt i with cfg := Dev.fixBatch (e.bytesFrom 10) } = false) ∧
    (∃ (s : State) (dv : Dev) (p : Path) (data : W32) (e : Dev), Reaches s.dev p dv ∧ dv.writeFields p STO_IND_CMD data = e ∧
      e.flag STO_IND_STATUS_BUSY = false ∧
    let i := fieldGet data 0 12
    let op := fieldGet data 24 3
    op = 3 ∧ i < 1024) ∧
    (∃ (s : State) (dv : Dev) (p : Path) (data : W32) (e : Dev), Reaches s.dev p dv ∧ dv.writeFields p STO_IND_CMD data = e ∧
      e.flag STO_IND_STATUS_BUSY = false ∧
    let i := fieldGet data 0 12
    let op := fieldGet data 24 3
    op = 4 ∧ i < 1024 ∧ bitsOf (fieldLE (e.bytesFrom 16) 40 4) 11 18 = 0 ∧ bitsOf (fieldLE (e.bytesFrom 16) 40 4) 29 2 ≠ 3 ∧
      bitsOf (fieldLE (e.bytesFrom 16) 44 4) 20 12 = 0) ∧
    (∃ (s : State) (dv : Dev) (p : Path) (data : W32) (e : Dev), Reaches s.dev p dv ∧ dv.writeFields p STO_IND_CMD data = e ∧
      e.flag STO_IND_STATUS_BUSY = false ∧
    let i := fieldGet data 0 12
    let op := fieldGet data 24 3
    op = 5 ∧ i < 2048) ∧
    (∃ (s : State) (dv : Dev) (p : Path) (data : W32) (e : Dev), Reaches s.dev p dv ∧ dv.writeFields p STO_IND_CMD data = e ∧
      e.flag STO_IND_STATUS_BUSY = false ∧
    let i := fieldGet data 0 12
    let op := fieldGet data 24 3
    op = 6 ∧ i < 2048 ∧ 1 ≤ bitsOf (fieldLE (e.bytesFrom 4) 0 4) 0 4 ∧ bitsOf (fieldLE (e.bytesFrom 4) 0 4) 0 4 ≤ 8 ∧ bitsOf
      (fieldLE (e.bytesFrom 4) 0 4) 4 27 = 0 ∧ fieldLE (e.bytesFrom 4) 14 2 = 0 ∧ (e.nvme i).enabled = true ∧ bitOf (fieldLE
      (e.bytesFrom 4) 0 4) 31 = true ∧ e.bytesFrom 4 ≠ (e.nvme i).cfg) ∧
    (∃ (s : State) (dv : Dev) (p : Path) (data : W32) (e : Dev), Reaches s.dev p dv ∧ dv.writeFields p STO_IND_CMD data = e ∧
      e.flag STO_IND_STATUS_BUSY = false ∧
    let i := fieldGet data 0 12
    let op := fieldGet data 24 3
    op = 6 ∧ i < 2048 ∧ 1 ≤ bitsOf (fieldLE (e.bytesFrom 4) 0 4) 0 4 ∧ bitsOf (fieldLE (e.bytesFrom 4) 0 4) 0 4 ≤ 8 ∧ bitsOf
      (fieldLE (e.bytesFrom 4) 0 4) 4 27 = 0 ∧ fieldLE (e.bytesFrom 4) 14 2 = 0 ∧ (e.nvme i).enabled = true ∧ bitOf (fieldLE
      (e.bytesFrom 4) 0 4) 31 = false) ∧
    (∃ (s : State) (dv : Dev) (p : Path) (data : W32) (e : Dev), Reaches s.dev p dv ∧ dv.writeFields p STO_IND_CMD data = e ∧
      e.flag STO_IND_STATUS_BUSY = false ∧
    let i := fieldGet data 0 12
    let op := fieldGet data 24 3
    op = 6 ∧ i < 2048 ∧ 1 ≤ bitsOf (fieldLE (e.bytesFrom 4) 0 4) 0 4 ∧ bitsOf (fieldLE (e.bytesFrom 4) 0 4) 0 4 ≤ 8 ∧ bitsOf
      (fieldLE (e.bytesFrom 4) 0 4) 4 27 = 0 ∧ fieldLE (e.bytesFrom 4) 14 2 = 0 ∧ (e.nvme i).enabled = false ∧ bitOf (fieldLE
      (e.bytesFrom 4) 0 4) 31 = false) ∧
    (∃ (s : State) (dv : Dev) (p : Path) (data : W32) (e : Dev), Reaches s.dev p dv ∧ dv.writeFields p STO_IND_CMD data = e ∧
      e.flag STO_IND_STATUS_BUSY = false ∧
    let i := fieldGet data 0 12
    let op := fieldGet data 24 3
    op = 6 ∧ i < 2048 ∧ 1 ≤ bitsOf (fieldLE (e.bytesFrom 4) 0 4) 0 4 ∧ bitsOf (fieldLE (e.bytesFrom 4) 0 4) 0 4 ≤ 8 ∧ bitsOf
      (fieldLE (e.bytesFrom 4) 0 4) 4 27 = 0 ∧ fieldLE (e.bytesFrom 4) 14 2 = 0 ∧ (e.nvme i).enabled = false ∧ bitOf (fieldLE
      (e.bytesFrom 4) 0 4) 31 = true ∧ e.isNvme (e.sagLink i) (e.sagFunc i) = true) ∧
    (∃ (s : State) (dv : Dev) (p : Path) (data : W32) (e : Dev), Reaches s.dev p dv ∧ dv.writeFields p STO_IND_CMD data = e ∧
      e.flag STO_IND_STATUS_BUSY = false ∧
    let i := fieldGet data 0 12
    let op := fieldGet data 24 3
    op = 7 ∧ fieldGet data 20 2 = 0 ∧ (e.nsEnt i).valid = true ∧ (e.nsEnt i).isJnl = true ∧ (e.nsEnt i).jnl.state ≠ 2 ∧ (e.nsEnt
      i).jnl.head.unsealed = 0) ∧
    (∃ (s : State) (dv : Dev) (p : Path) (data : W32) (e : Dev), Reaches s.dev p dv ∧ dv.writeFields p STO_IND_CMD data = e ∧
      e.flag STO_IND_STATUS_BUSY = false ∧
    let i := fieldGet data 0 12
    let op := fieldGet data 24 3
    op = 7 ∧ fieldGet data 20 2 = 0 ∧ (e.nsEnt i).valid = true ∧ (e.nsEnt i).isJnl = true ∧ (e.nsEnt i).jnl.state ≠ 2 ∧ (e.nsEnt
      i).jnl.head.unsealed ≠ 0) ∧
    (∃ (s : State) (dv : Dev) (p : Path) (data : W32) (e : Dev), Reaches s.dev p dv ∧ dv.writeFields p STO_IND_CMD data = e ∧
      e.flag STO_IND_STATUS_BUSY = false ∧
    let i := fieldGet data 0 12
    let op := fieldGet data 24 3
    op = 7 ∧ fieldGet data 20 2 = 1 ∧ (e.nsEnt i).valid = true ∧ (e.nsEnt i).isJnl = true ∧ (e.nsEnt i).jnl.state = 2 ∧ (e.nsEnt
      i).inHbm = true) ∧
    (∃ (s : State) (dv : Dev) (p : Path) (data : W32), Reaches s.dev p dv ∧ fieldGet data 0 1 = 1) :=
  ⟨⟨st fun d => d, _, .fw, 0x1000000, _, ⟨by decide +kernel, by decide +kernel, rfl, by decide +kernel, by decide +kernel⟩, rfl,
     by decide +kernel, by decide +kernel⟩,
   ⟨st fun d => (d).put ⟨STO_IND_DATA 0, 0, 32⟩ 0x800, _, .fw, 0x2000000, _, ⟨by decide +kernel, by decide +kernel, rfl,
     by decide +kernel, by decide +kernel⟩, rfl, by decide +kernel, by decide +kernel⟩,
   ⟨st fun d => d, _, .fw, 0x2000000, _, ⟨by decide +kernel, by decide +kernel, rfl, by decide +kernel, by decide +kernel⟩, rfl,
     by decide +kernel, by decide +kernel⟩,
   ⟨st fun d => d, _, .fw, 0x3000000, _, ⟨by decide +kernel, by decide +kernel, rfl, by decide +kernel, by decide +kernel⟩, rfl,
     by decide +kernel, by decide +kernel⟩,
   ⟨st fun d => d, _, .fw, 0x4000000, _, ⟨by decide +kernel, by decide +kernel, rfl, by decide +kernel, by decide +kernel⟩, rfl,
     by decide +kernel, by decide +kernel⟩,
   ⟨st fun d => d, _, .fw, 0x5000000, _, ⟨by decide +kernel, by decide +kernel, rfl, by decide +kernel, by decide +kernel⟩, rfl,
     by decide +kernel, by decide +kernel⟩,
   ⟨st fun d => (nvDev id d).put ⟨STO_IND_DATA 0, 0, 32⟩ 0x80000002, _, .fw, 0x6000000, _, ⟨by decide +kernel,
     by decide +kernel, rfl, by decide +kernel, by decide +kernel⟩, rfl, by decide +kernel, by decide +kernel⟩,
   ⟨st fun d => (nvDev id d).put ⟨STO_IND_DATA 0, 0, 32⟩ 1, _, .fw, 0x6000000, _, ⟨by decide +kernel, by decide +kernel, rfl,
     by decide +kernel, by decide +kernel⟩, rfl, by decide +kernel, by decide +kernel⟩,
   ⟨st fun d => (d).put ⟨STO_IND_DATA 0, 0, 32⟩ 1, _, .fw, 0x6000000, _, ⟨by decide +kernel, by decide +kernel, rfl,
     by decide +kernel, by decide +kernel⟩, rfl, by decide +kernel, by decide +kernel⟩,
   ⟨st fun d => (d.put (SAG_FUNC_FUNC 0) 2).put ⟨STO_IND_DATA 0, 0, 32⟩ 0x80000001, _, .fw, 0x6000000, _, ⟨by decide +kernel,
     by decide +kernel, rfl, by decide +kernel, by decide +kernel⟩, rfl, by decide +kernel, by decide +kernel⟩,
   ⟨st fun d => nsDev 0xA0000000 1 id d, _, .fw, 0x7000000, _, ⟨by decide +kernel, by decide +kernel, rfl, by decide +kernel,
     by decide +kernel⟩, rfl, by decide +kernel, by decide +kernel⟩,
   ⟨st fun d => nsDev 0xA0000000 1 (fun j => { j with head := { j.head with unsealed := 1 } }) d, _, .fw, 0x7000000, _,
     ⟨by decide +kernel, by decide +kernel, rfl, by decide +kernel, by decide +kernel⟩, rfl, by decide +kernel,
     by decide +kernel⟩,
   ⟨st fun d => nsDev 0xA0000000 1 (fun j => { j with state := 2 }) d, _, .fw, 0x7100000, _, ⟨by decide +kernel,
     by decide +kernel, rfl, by decide +kernel, by decide +kernel⟩, rfl, by decide +kernel, by decide +kernel⟩,
   ⟨State.reset, _, .fw, 1, ⟨by decide +kernel, by decide +kernel, rfl, by decide +kernel, by decide +kernel⟩,
     by decide +kernel⟩⟩

/-- The premises of PowerAndResets. -/
theorem test_witness_PowerAndResets :
    (∃ (s : State), s.dev.pkg.standby = false) ∧
    (∃ (s : State), s.dev.pkg.standby = true ∧ s.dev.boot.powered = false) ∧
    (∃ (s : State), s.dev.pkg.standby = true ∧ s.dev.boot.powered = true) ∧
    (∃ (s : State) (dv : Dev) (p : Path) (data : W32), Reaches s.dev p dv ∧ fieldGet data 31 1 = 1 ∧ fieldGet data 0 8 = 0xA5) ∧
    (∃ (s : State) (dv : Dev) (p : Path) (data : W32), Reaches s.dev p dv ∧ fieldGet data 0 8 ≠ 0xA5) ∧
    (∃ (d : Dev) (c : Nat), d.pkg.lastWarm ≠ some (d.cycle * 5 / 96) ∧ c ≠ causeFatal ∧ c < 16) ∧
    (∃ (s : State), s.dev.pkg.standby = true ∧ s.dev.pkg.oscBad = false) :=
  ⟨⟨st fun d => { d with pkg := { d.pkg with standby := false } }, by decide +kernel⟩,
   ⟨st fun d => (d).setBoot fun b => { b with powered := false }, by decide +kernel⟩,
   ⟨State.reset, by decide +kernel⟩,
   ⟨State.reset, _, .fw, 0x800000A5, ⟨by decide +kernel, by decide +kernel, rfl, by decide +kernel, by decide +kernel⟩,
     by decide +kernel⟩,
   ⟨State.reset, _, .fw, 0, ⟨by decide +kernel, by decide +kernel, rfl, by decide +kernel, by decide +kernel⟩,
     by decide +kernel⟩,
   ⟨Dev.reset, 0, by decide +kernel⟩,
   ⟨State.reset, by decide +kernel⟩⟩

/-- The premises of ClockAndConeRows. -/
theorem test_witness_ClockAndConeRows :
    (∃ (s : State) (i : Fin 8), s.dev.alive = true ∧ ((i = 0 ∨ s.dev.flag ⟨CLK_PLL_STATUS, i, 1⟩ = false))) ∧
    (∃ (s : State) (i : Fin 8), s.dev.alive = true ∧ i ≠ 0 ∧ s.dev.flag ⟨CLK_PLL_STATUS, i, 1⟩ = true ∧ i.val < 6) ∧
    (∃ (s : State) (i : Fin 8), s.dev.alive = true ∧ i ≠ 0 ∧ s.dev.flag ⟨CLK_PLL_STATUS, i, 1⟩ = true ∧ i = 6) ∧
    (∃ (s : State) (i : Fin 8), s.dev.alive = true ∧ i ≠ 0 ∧ s.dev.flag ⟨CLK_PLL_STATUS, i, 1⟩ = true ∧ i = 7) ∧
    (∃ (s : State) (x : Crossing), s.dev.alive = true ∧
    let free :=
      match x with | .core q => !bitOf (s.dev.get RST_QUAD_STATUS_RESETTING) q | .kiln k => !s.dev.kilnHeld k | .hif l => !s.dev.hif.perst.contains (l.val / 4) | _ => true
    free = true ∧ s.dev.severed x = true) ∧
    (∃ (s : State) (x : Crossing), s.dev.alive = true ∧
    let free :=
      match x with | .core q => !bitOf (s.dev.get RST_QUAD_STATUS_RESETTING) q | .kiln k => !s.dev.kilnHeld k | .hif l => !s.dev.hif.perst.contains (l.val / 4) | _ => true
    ((free = false ∨ s.dev.severed x = false))) ∧
    (∃ (s : State) (dv : Dev) (p : Path) (data : W32) (e : Dev), Reaches s.dev p dv ∧ dv.writeFields p RST_QUAD_CTRL data = e) ∧
    (∃ (s : State) (q : Fin 4), s.dev.alive = true ∧
    let bumps := (List.range 8).any fun i => s.dev.bumpPending (.kiln (8 * q.val + i))
    ((s.dev.pkg.quads.contains (q.val, true) = false ∨ bumps = true))) ∧
    (∃ (s : State) (q : Fin 4), s.dev.alive = true ∧
    let bumps := (List.range 8).any fun i => s.dev.bumpPending (.kiln (8 * q.val + i))
    s.dev.pkg.quads.contains (q.val, true) = true ∧ bumps = false) ∧
    (∃ (s : State) (dv : Dev) (p : Path) (data : W32) (e : Dev), Reaches s.dev p dv ∧ dv.writeFields p BOOT_QUAD_REL data = e ∧
      fieldGet data 0 4 = 0) ∧
    (∃ (s : State) (dv : Dev) (p : Path) (data : W32) (e : Dev), Reaches s.dev p dv ∧ dv.writeFields p BOOT_QUAD_REL data = e ∧
      fieldGet data 0 4 ≠ 0 ∧ e.flag BOOT_STATUS_VERIFIED = false) ∧
    (∃ (s : State) (dv : Dev) (p : Path) (data : W32) (e : Dev), Reaches s.dev p dv ∧ dv.writeFields p BOOT_QUAD_REL data = e ∧
      fieldGet data 0 4 ≠ 0 ∧ e.flag BOOT_STATUS_VERIFIED = true) ∧
    (∃ (s : State) (odd : List Bool), s.dev.boot.powered = true ∧ s.dev.pkg.standby = true ∧ ∃ c, (s.dev.cone c).bad = false ∧
      odd.getD c false = false) ∧
    (∃ (s : State) (temps : List (BitVec 16)) (odd : List Bool), s.dev.boot.powered = true ∧ s.dev.pkg.standby = true ∧
    let r := s.dev.conesRead temps odd
    let e := r.conesSum.conesWarn
    (e.coneReads.find? fun x => decide (3 ≤ (e.cone x.1).hot)) = none) ∧
    (∃ (s : State) (temps : List (BitVec 16)) (odd : List Bool), s.dev.boot.powered = true ∧ s.dev.pkg.standby = true ∧
    let r := s.dev.conesRead temps odd
    let e := r.conesSum.conesWarn
    ∃ x, (e.coneReads.find? fun x => decide (3 ≤ (e.cone x.1).hot)) = some x) ∧
    (∃ (s : State), s.dev.alive = true ∧ s.dev.pkg.trip = true ∧ s.dev.boot.started = true ∧ (s.dev.coneReads.all fun x =>
      decide (x.2 < 760)) = true) ∧
    (∃ (s : State) (shifts : List (Option Nat)), s.dev.boot.powered = true ∧ s.dev.pkg.standby = true ∧ ∃ c, ∃ x, shifts.getD c
      none = some x ∧ (s.dev.cone c).bad = false) :=
  ⟨⟨st fun d => d.put ⟨CLK_PLL_STATUS, 7, 1⟩ 1, 0, by decide +kernel⟩,
   ⟨st fun d => d.put ⟨CLK_PLL_STATUS, 1, 1⟩ 1, 1, by decide +kernel⟩,
   ⟨st fun d => d.put ⟨CLK_PLL_STATUS, 6, 1⟩ 1, 6, by decide +kernel⟩,
   ⟨st fun d => d.put ⟨CLK_PLL_STATUS, 7, 1⟩ 1, 7, by decide +kernel⟩,
   ⟨st fun d => { d with pkg := { d.pkg with severed := [.time] } }, .time, by decide +kernel, by decide +kernel⟩,
   ⟨State.reset, .time, by decide +kernel, by decide +kernel⟩,
   ⟨State.reset, _, .fw, 4, _, ⟨by decide +kernel, by decide +kernel, rfl, by decide +kernel, by decide +kernel⟩, rfl⟩,
   ⟨State.reset, 0, by decide +kernel, by decide +kernel⟩,
   ⟨st fun d => { d with pkg := { d.pkg with quads := [(0, true)] } }, 0, by decide +kernel, by decide +kernel⟩,
   ⟨State.reset, _, .fw, 0, _, ⟨by decide +kernel, by decide +kernel, rfl, by decide +kernel, by decide +kernel⟩, rfl,
     by decide +kernel⟩,
   ⟨State.reset, _, .fw, 1, _, ⟨by decide +kernel, by decide +kernel, rfl, by decide +kernel, by decide +kernel⟩, rfl,
     by decide +kernel⟩,
   ⟨st fun d => d.put BOOT_STATUS_VERIFIED 1, _, .fw, 1, _, ⟨by decide +kernel, by decide +kernel, rfl, by decide +kernel,
     by decide +kernel⟩, rfl, by decide +kernel⟩,
   ⟨State.reset, [], by decide +kernel, by decide +kernel, 0, by decide +kernel⟩,
   ⟨State.reset, [], [], by decide +kernel, by decide +kernel, by decide +kernel⟩,
   ⟨st fun d => { d with pkg := { d.pkg with cones := [(0, ⟨2, 0, false⟩)] } }, List.replicate 60 920, [], by decide +kernel,
     by decide +kernel, (0, 920), by decide +kernel⟩,
   ⟨st fun d => { d with pkg := { d.pkg with trip := true }, boot := { d.boot with started := true } }, by decide +kernel⟩,
   ⟨State.reset, [some 0], by decide +kernel, by decide +kernel, 0, 0, by decide +kernel⟩⟩

/-- The premises of BootRows. -/
theorem test_witness_BootRows :
    (∃ (s : State), s.dev.alive = true ∧ s.dev.boot.started = false ∧ s.dev.boot.since + 6000000 ≤ s.dev.cycle) ∧
    (∃ (s : State) (t : Attempt), s.dev.alive = true ∧ s.dev.boot.attempt = some t ∧ s.dev.bisqueRuns = true ∧ t.phase = .header
      ∧
    let u := s.dev.put BOOT_STATUS_STAGE 2
    let rd := u.imageSrc t.slot
    imageHdr rd = none) ∧
    (∃ (s : State) (t : Attempt), s.dev.alive = true ∧ s.dev.boot.attempt = some t ∧ s.dev.bisqueRuns = true ∧ ∃ uncorr, t.phase
      = .header ∧
    let u := s.dev.put BOOT_STATUS_STAGE 2
    let rd := u.imageSrc t.slot
    let e := if uncorr = true ∧ t.slot < 2 then u.flashBad (slotBase t.slot) else u
    ∃ h, imageHdr rd = some h ∧ keySlotBad e.boot.fuses rd h = true) ∧
    (∃ (s : State) (t : Attempt), s.dev.alive = true ∧ s.dev.boot.attempt = some t ∧ s.dev.bisqueRuns = true ∧ ∃ uncorr, t.phase
      = .header ∧
    let u := s.dev.put BOOT_STATUS_STAGE 2
    let rd := u.imageSrc t.slot
    let e := if uncorr = true ∧ t.slot < 2 then u.flashBad (slotBase t.slot) else u
    ∃ h, imageHdr rd = some h ∧ keySlotBad e.boot.fuses rd h = false ∧ h.svn < e.boot.fuses.rollback) ∧
    (∃ (s : State) (t : Attempt), s.dev.alive = true ∧ s.dev.boot.attempt = some t ∧ s.dev.bisqueRuns = true ∧ ∃ uncorr, t.phase
      = .header ∧
    let u := s.dev.put BOOT_STATUS_STAGE 2
    let rd := u.imageSrc t.slot
    let e := if uncorr = true ∧ t.slot < 2 then u.flashBad (slotBase t.slot) else u
    ∃ h, imageHdr rd = some h ∧ keySlotBad e.boot.fuses rd h = false ∧ e.boot.fuses.rollback ≤ h.svn) ∧
    (∃ (s : State) (t : Attempt), s.dev.alive = true ∧ s.dev.boot.attempt = some t ∧ s.dev.bisqueRuns = true ∧ t.phase = .sigs) ∧
    (∃ (s : State) (t : Attempt), s.dev.alive = true ∧ s.dev.boot.attempt = some t ∧ s.dev.bisqueRuns = true ∧ ∃ k g e, t.phase
      = .seg k ∧ t.hdr.segs[k]? = some g ∧ s.dev.boot.hbmTrained = true ∧ g.toHbm = true ∧ (s.dev.islandWrite g.load
      (s.dev.imageSrc t.slot g.offset g.length)).setBoot (fun b => { b with wrote := b.wrote ++ [(g.load, g.length)] }) = e) ∧
    (∃ (s : State) (t : Attempt), s.dev.alive = true ∧ s.dev.boot.attempt = some t ∧ s.dev.bisqueRuns = true ∧ t.phase = .last) ∧
    (∃ (s : State) (t : Attempt), s.dev.alive = true ∧ s.dev.boot.attempt = some t ∧ s.dev.bisqueRuns = true ∧ t.phase ≠ .last) ∧
    (∃ (s : State) (t : Attempt), s.dev.alive = true ∧ s.dev.boot.attempt = some t ∧ s.dev.bisqueRuns = true ∧ t.phase = .failed
      ∧ t.rest = []) ∧
    (∃ (s : State) (t : Attempt), s.dev.alive = true ∧ s.dev.boot.attempt = some t ∧ s.dev.bisqueRuns = true ∧ ∃ k ks, t.phase =
      .failed ∧ t.rest = k :: ks) ∧
    (∃ (d : Dev) (a : Nat) (bs : List Byte), ((∃ r ∈ d.islandPort, r.1 ≤ a ∧ a + bs.length ≤ r.1 + r.2))) ∧
    (∃ (d : Dev) (a : Nat) (bs : List Byte), ((∀ r ∈ d.islandPort, r.1 ≤ a → r.1 + r.2 < a + bs.length))) ∧
    (∃ (s : State), s.dev.alive = true ∧ s.dev.flag ⟨CLK_PLL_STATUS, 5, 1⟩ = true ∧ s.dev.boot.attempt = none) :=
  ⟨⟨st fun d => { d with cycle := 6000000 }, by decide +kernel⟩,
   ⟨st fun d => (d).setBoot fun b =>
     { b with started := true, attempt := some ⟨0, [], .header, .none, false, false⟩, hbmTrained := true }, ⟨0, [], .header,
     .none, false, false⟩, by decide +kernel, by decide +kernel, by decide +kernel, by decide +kernel, by decide +kernel⟩,
   ⟨imgSt 0 0 [], ⟨2, [], .header, .none, false, false⟩, by decide +kernel, by decide +kernel, by decide +kernel, false,
     by decide +kernel, ⟨28672, 0, 0, 0, [⟨1, 0, 16384, 64, 0x1000, List.replicate 48 0⟩, ⟨2, 15, 20480, 64, 0x2000,
     List.replicate 48 0⟩, ⟨3, 255, 24576, 64, 0, List.replicate 48 0⟩]⟩, img_hdr (by decide +kernel), img_keys
     (by decide +kernel)⟩,
   ⟨imgSt 0 1 [beBytes 48 0xd7496df6c4087096c5c4150555d0024a658400f44cb7b844aa06483009bd82e5144d0ceea689adb22174477f1b8f1bbc],
     ⟨2, [], .header, .none, false, false⟩, by decide +kernel, by decide +kernel, by decide +kernel, false, by decide +kernel,
     ⟨28672, 0, 0, 0, [⟨1, 0, 16384, 64, 0x1000, List.replicate 48 0⟩, ⟨2, 15, 20480, 64, 0x2000, List.replicate 48 0⟩, ⟨3, 255,
     24576, 64, 0, List.replicate 48 0⟩]⟩, img_hdr (by decide +kernel), img_keys (keys_ok zero_keys rfl rfl
     (by decide +kernel)), by decide +kernel⟩,
   ⟨imgSt 1 1 [beBytes 48 0xd7496df6c4087096c5c4150555d0024a658400f44cb7b844aa06483009bd82e5144d0ceea689adb22174477f1b8f1bbc],
     ⟨2, [], .header, .none, false, false⟩, by decide +kernel, by decide +kernel, by decide +kernel, false, by decide +kernel,
     ⟨28672, 0, 1, 0, [⟨1, 0, 16384, 64, 0x1000, List.replicate 48 0⟩, ⟨2, 15, 20480, 64, 0x2000, List.replicate 48 0⟩, ⟨3, 255,
     24576, 64, 0, List.replicate 48 0⟩]⟩, img_hdr (by decide +kernel), img_keys (keys_ok zero_keys rfl rfl
     (by decide +kernel)), by decide +kernel⟩,
   ⟨st fun d => (d).setBoot fun b =>
     { b with started := true, attempt := some ⟨0, [], .sigs, .none, false, false⟩, hbmTrained := true }, ⟨0, [], .sigs, .none,
     false, false⟩, by decide +kernel⟩,
   ⟨st fun d => (d).setBoot fun b =>
     { b with started := true, attempt := some ⟨0, [], .seg 0, ⟨0, 0, 0, 0, [⟨1, 0, 0, 0, 0x80001000, []⟩]⟩, false, false⟩, hbmTrained := true },
     ⟨0, [], .seg 0, ⟨0, 0, 0, 0, [⟨1, 0, 0, 0, 0x80001000, []⟩]⟩, false, false⟩, by decide +kernel, by decide +kernel,
     by decide +kernel, 0, ⟨1, 0, 0, 0, 0x80001000, []⟩, _, by decide +kernel, by decide +kernel, by decide +kernel,
     by decide +kernel, rfl⟩,
   ⟨st fun d => (d).setBoot fun b =>
     { b with started := true, attempt := some ⟨0, [], .last, .none, false, false⟩, hbmTrained := true }, ⟨0, [], .last, .none,
     false, false⟩, by decide +kernel⟩,
   ⟨st fun d => (d).setBoot fun b =>
     { b with started := true, attempt := some ⟨0, [], .sigs, .none, false, false⟩, hbmTrained := true }, ⟨0, [], .sigs, .none,
     false, false⟩, by decide +kernel⟩,
   ⟨st fun d => (d).setBoot fun b =>
     { b with started := true, attempt := some ⟨0, [], .failed, .none, false, false⟩, hbmTrained := true }, ⟨0, [], .failed,
     .none, false, false⟩, by decide +kernel⟩,
   ⟨st fun d => (d).setBoot fun b =>
     { b with started := true, attempt := some ⟨0, [1], .failed, .none, false, false⟩, hbmTrained := true }, ⟨0, [1], .failed,
     .none, false, false⟩, by decide +kernel, by decide +kernel, by decide +kernel, 1, [], by decide +kernel⟩,
   ⟨Dev.reset.setBoot fun b => { b with wrote := [(0x80000000, 4096)] }, 0x80000FFF, [0], ⟨(0x80000000, 4096),
     by decide +kernel⟩⟩,
   ⟨Dev.reset.setBoot fun b => { b with wrote := [(0x80000000, 4096)] }, 0x80001000, [0], by decide +kernel⟩,
   ⟨st fun d => d.put ⟨CLK_PLL_STATUS, 5, 1⟩ 1, by decide +kernel⟩⟩

/-- The premises of FlashAndRecovery. -/
theorem test_witness_FlashAndRecovery :
    (∃ (s : State) (dv : Dev) (p : Path) (data : W32) (op : Nat) (row : Instr) (e : Dev), Reaches s.dev p dv ∧ ((op = 1 ∧ row =
      .writeImage p data ∨ op = 2 ∧ row = .writeProfile p data ∨ op = 3 ∧ row = .setTrial p data ∨ op = 4 ∧ row = .bootConfirm p
      data ∨ op = 5 ∧ row = .readCert p data ∨ op = 6 ∧ row = .raiseRollback p data ∨ op = 7 ∧ row = .revokeSlot p data ∨ op = 8
      ∧ row = .readLog p data)) ∧ dv.writeFields p BOOT_FLASH_CMD data = e ∧ fieldGet data 28 4 = op ∧ dv.flag
      BOOT_FLASH_STATUS_BUSY = true) ∧
    (∃ (s : State) (dv : Dev) (p : Path) (data : W32) (op : Nat) (row : Instr) (e : Dev), Reaches s.dev p dv ∧ ((op = 1 ∧ row =
      .writeImage p data ∨ op = 2 ∧ row = .writeProfile p data ∨ op = 3 ∧ row = .setTrial p data ∨ op = 4 ∧ row = .bootConfirm p
      data ∨ op = 5 ∧ row = .readCert p data ∨ op = 6 ∧ row = .raiseRollback p data ∨ op = 7 ∧ row = .revokeSlot p data ∨ op = 8
      ∧ row = .readLog p data)) ∧ dv.writeFields p BOOT_FLASH_CMD data = e ∧ fieldGet data 28 4 = op ∧ dv.flag
      BOOT_FLASH_STATUS_BUSY = false ∧ e.flag BOOT_STATUS_GATE_OPEN = false) ∧
    (∃ (s : State) (dv : Dev) (p : Path) (data : W32) (op : Nat) (row : Instr) (e : Dev), Reaches s.dev p dv ∧ ((op = 1 ∧ row =
      .writeImage p data ∨ op = 2 ∧ row = .writeProfile p data ∨ op = 3 ∧ row = .setTrial p data ∨ op = 4 ∧ row = .bootConfirm p
      data ∨ op = 5 ∧ row = .readCert p data ∨ op = 6 ∧ row = .raiseRollback p data ∨ op = 7 ∧ row = .revokeSlot p data ∨ op = 8
      ∧ row = .readLog p data)) ∧ dv.writeFields p BOOT_FLASH_CMD data = e ∧ fieldGet data 28 4 = op ∧ dv.flag
      BOOT_FLASH_STATUS_BUSY = false ∧ e.flag BOOT_STATUS_GATE_OPEN = true ∧ e.flashRefusal op (fieldGet data 0 2) (e.get
      BOOT_FLASH_LEN_LEN) = none ∧ ((op = 1 ∨ op = 2 ∨ op = 5 ∨ op = 8 → e.flashPath (fieldGet data 16 12) e.flashAddr
      (Dev.flashBytes op (e.get BOOT_FLASH_LEN_LEN)) = true))) ∧
    (∃ (s : State) (g : Nat) (slot : Nat) (a : Nat) (len : Nat), s.dev.alive = true ∧ s.dev.boot.flashOp = some (3, g, slot, a,
      len)) ∧
    (∃ (s : State) (g : Nat) (slot : Nat) (a : Nat) (len : Nat), s.dev.alive = true ∧ s.dev.boot.flashOp = some (4, g, slot, a,
      len)) ∧
    (∃ (s : State) (g : Nat) (slot : Nat) (a : Nat) (len : Nat), s.dev.alive = true ∧ s.dev.boot.flashOp = some (6, g, slot, a,
      len)) ∧
    (∃ (s : State) (bytes : List Byte) (n : Nat), s.dev.alive = true ∧ s.dev.inRecovery = true ∧ s.dev.boot.recLen = some n ∧
      bytes.length ≤ 256) :=
  ⟨⟨st fun d => d.put BOOT_FLASH_STATUS_BUSY 1, _, .fw, 0x40000000, 4, .bootConfirm .fw 0x40000000, _, ⟨by decide +kernel,
     by decide +kernel, rfl, by decide +kernel, by decide +kernel⟩, by decide +kernel, rfl, by decide +kernel⟩,
   ⟨State.reset, _, .fw, 0x40000000, 4, .bootConfirm .fw 0x40000000, _, ⟨by decide +kernel, by decide +kernel, rfl,
     by decide +kernel, by decide +kernel⟩, by decide +kernel, rfl, by decide +kernel⟩,
   ⟨st fun d => d.put BOOT_STATUS_GATE_OPEN 1, _, .fw, 0x40000000, 4, .bootConfirm .fw 0x40000000, _, ⟨by decide +kernel,
     by decide +kernel, rfl, by decide +kernel, by decide +kernel⟩, by decide +kernel, rfl, by decide +kernel⟩,
   ⟨st fun d => (d).setBoot fun b => { b with flashOp := some (3, 0, 0, 0, 0) }, 0, 0, 0, 0, by decide +kernel⟩,
   ⟨st fun d => (d).setBoot fun b => { b with flashOp := some (4, 0, 0, 0, 0) }, 0, 0, 0, 0, by decide +kernel⟩,
   ⟨st fun d => (d).setBoot fun b => { b with flashOp := some (6, 0, 0, 0, 0) }, 0, 0, 0, 0, by decide +kernel⟩,
   ⟨st fun d => (puts [(BOOT_STATUS_STAGE, 6)] d).setBoot fun b => { b with recLen := some 0 }, [0], 0, by decide +kernel⟩⟩

/-- The premises of RasRows. -/
theorem test_witness_RasRows :
    (∃ (s : State) (fam : Fin 32) (inst : Nat), s.dev.alive = true ∧ inst < familySize fam ∧ fam.val ∉ [0x05, 0x11, 0x19, 0x1B,
      0x1C]) ∧
    (∃ (s : State) (dv : Dev) (p : Path) (data : W32) (e : Dev), Reaches s.dev p dv ∧ ((((dv.writeFields p RAS_INJ data).put
      RAS_INJ_MODE (fieldGet data 30 1)).put RAS_INJ_FATAL_OK (fieldGet data 29 1)).put RAS_INJ_TYPE (fieldGet data 24 4)).put
      RAS_INJ_DETECTOR (fieldGet data 0 16) = e ∧ fieldGet data 31 1 = 0) ∧
    (∃ (s : State) (dv : Dev) (p : Path) (data : W32) (e : Dev), Reaches s.dev p dv ∧ ((((dv.writeFields p RAS_INJ data).put
      RAS_INJ_MODE (fieldGet data 30 1)).put RAS_INJ_FATAL_OK (fieldGet data 29 1)).put RAS_INJ_TYPE (fieldGet data 24 4)).put
      RAS_INJ_DETECTOR (fieldGet data 0 16) = e ∧ fieldGet data 31 1 = 1 ∧ fieldGet data 24 4 ∉ familyTypes (fieldGet data 10
      6)) ∧
    (∃ (s : State) (dv : Dev) (p : Path) (data : W32) (e : Dev), Reaches s.dev p dv ∧ ((((dv.writeFields p RAS_INJ data).put
      RAS_INJ_MODE (fieldGet data 30 1)).put RAS_INJ_FATAL_OK (fieldGet data 29 1)).put RAS_INJ_TYPE (fieldGet data 24 4)).put
      RAS_INJ_DETECTOR (fieldGet data 0 16) = e ∧ fieldGet data 31 1 = 1 ∧ fieldGet data 24 4 ∈ familyTypes (fieldGet data 10 6)
      ∧ fatalFamily (fieldGet data 10 6) = false ∧ e.flag RAS_INJ_ARM = true) ∧
    (∃ (s : State) (k : Fin 8), s.dev.alive = true ∧ s.dev.flag RAS_PE_ROT_EN = true ∧ tabGet (fun _ => 0) s.dev.ras.peLast k +
      s.dev.get RAS_PE_ROT_PERIOD_MS * 3000000 ≤ s.dev.cycle ∧ s.dev.peTest k = none ∧ s.dev.flag (RAS_PE_STATUS_RETIRED k) =
      false ∧
    let e := tabGet (fun _ => 0) s.dev.ras.peNext k
    let t := s.dev.setRas fun r =>
      { r with peLast := tabSet (fun _ => 0) r.peLast k s.dev.cycle, peNext := tabSet (fun _ => 0) r.peNext k ((e + 1) % 64) }
    t.eng k e = none) ∧
    (∃ (s : State) (k : Fin 8) (e : Nat) (c : Nat) (f : Dev), s.dev.alive = true ∧ s.dev.peTest k = some (e, some c) ∧ c + 4096
      ≤ s.dev.cycle ∧ s.dev.injTest 0x11 (k.val * 64 + e) = (false, f)) ∧
    (∃ (s : State) (dv : Dev) (p : Path) (data : W32) (e : Dev), Reaches s.dev p dv ∧ (dv.writeFields p (RAS_GLZ_SKIP 0)
      data).put (RAS_GLZ_SKIP_SKIP 0) data.toNat = e) ∧
    (∃ (s : State) (dv : Dev) (p : Path) (data : W32) (e : Dev), Reaches s.dev p dv ∧ (dv.writeFields p RAS_PKE_SKIP data).put
      RAS_PKE_SKIP_SKIP (fieldGet data 0 16) = e) ∧
    (∃ (s : State) (i : Fin 256) (c : Nat) (f : Dev), s.dev.alive = true ∧ tabGet (fun _ => none) s.dev.ras.glzTest i = some c ∧
      c + 60000 ≤ s.dev.cycle ∧ s.dev.injTest 0x12 i = (false, f) ∧ f.get (RAS_GLZ_SKIP_SKIP (i.val / 32)) = 0) ∧
    (∃ (s : State) (dv : Dev) (p : Path) (data : W32) (e : Dev), Reaches s.dev p dv ∧ dv.writeFields p RAS_LPM_ROT data = e ∧
      fieldGet data 31 1 = 1 ∧ e.flag RAS_LPM_ROT_BUSY = true) ∧
    (∃ (s : State) (dv : Dev) (p : Path) (data : W32) (e : Dev), Reaches s.dev p dv ∧ dv.writeFields p RAS_LPM_ROT data = e ∧
      fieldGet data 31 1 = 1 ∧ e.flag RAS_LPM_ROT_BUSY = false ∧ e.ras.lpmDead = none) ∧
    (∃ (s : State) (r : LpmRot), s.dev.alive = true ∧ s.dev.ras.lpmRot = some r ∧ r.switched = false ∧ r.since + 16384 ≤
      s.dev.cycle) ∧
    (∃ (s : State) (r : LpmRot), s.dev.alive = true ∧ s.dev.ras.lpmRot = some r ∧ r.switched = true ∧ r.since + 6000000 ≤
      s.dev.cycle) ∧
    (∃ (s : State) (dv : Dev) (p : Path) (n : Fin 16) (data : W32) (e : Dev), Reaches s.dev p dv ∧ dv.writeFields p
      (RAS_LANE_TEST n) data = e ∧ fieldGet data 31 1 = 1 ∧ e.flag (RAS_LANE_TEST_RUN n) = false) ∧
    (∃ (s : State) (n : Fin 16) (v : Nat) (c : Nat), s.dev.alive = true ∧ tabGet (fun _ => none) s.dev.ras.lane n = some (v, c)
      ∧ c + 3000000 ≤ s.dev.cycle) :=
  ⟨⟨State.reset, 1, 0, by decide +kernel⟩,
   ⟨State.reset, _, .fw, 0, _, ⟨by decide +kernel, by decide +kernel, rfl, by decide +kernel, by decide +kernel⟩, rfl,
     by decide +kernel⟩,
   ⟨State.reset, _, .fw, 0x80000000, _, ⟨by decide +kernel, by decide +kernel, rfl, by decide +kernel, by decide +kernel⟩, rfl,
     by decide +kernel⟩,
   ⟨st fun d => d.put RAS_INJ_ARM 1, _, .fw, 0x81000400, _, ⟨by decide +kernel, by decide +kernel, rfl, by decide +kernel,
     by decide +kernel⟩, rfl, by decide +kernel⟩,
   ⟨st fun d => { d.put RAS_PE_ROT_EN 1 with cycle := 2 ^ 50 }, 0, by decide +kernel, by decide +kernel, by decide +kernel,
     by decide +kernel, by decide +kernel, by decide +kernel⟩,
   ⟨st fun d => { d with cycle := 4096, ras := { d.ras with peTest := [(0, some (0, some 0))] } }, 0, 0, 0, _,
     by decide +kernel, by decide +kernel, by decide +kernel, pair_of' (by decide +kernel)⟩,
   ⟨State.reset, _, .fw, 0, _, ⟨by decide +kernel, by decide +kernel, rfl, by decide +kernel, by decide +kernel⟩, rfl⟩,
   ⟨State.reset, _, .fw, 0, _, ⟨by decide +kernel, by decide +kernel, rfl, by decide +kernel, by decide +kernel⟩, rfl⟩,
   ⟨st fun d => { d with cycle := 60000, ras := { d.ras with glzTest := [(0, some 0)] } }, 0, 0, _, by decide +kernel,
     by decide +kernel, by decide +kernel, pair_of' (by decide +kernel), by decide +kernel⟩,
   ⟨st fun d => d.put RAS_LPM_ROT_BUSY 1, _, .fw, 0x80000000, _, ⟨by decide +kernel, by decide +kernel, rfl, by decide +kernel,
     by decide +kernel⟩, rfl, by decide +kernel⟩,
   ⟨State.reset, _, .fw, 0x80000000, _, ⟨by decide +kernel, by decide +kernel, rfl, by decide +kernel, by decide +kernel⟩, rfl,
     by decide +kernel⟩,
   ⟨st fun d => { d with cycle := 16384, ras := { d.ras with lpmRot := some ⟨0, 0, 0, 0, false⟩ } }, ⟨0, 0, 0, 0, false⟩,
     by decide +kernel⟩,
   ⟨st fun d => { d with cycle := 6000000, ras := { d.ras with lpmRot := some ⟨0, 0, 0, 0, true⟩ } }, ⟨0, 0, 0, 0, true⟩,
     by decide +kernel⟩,
   ⟨State.reset, _, .fw, 0, 0x80000000, _, ⟨by decide +kernel, by decide +kernel, rfl, by decide +kernel, by decide +kernel⟩,
     rfl, by decide +kernel⟩,
   ⟨st fun d => { d with cycle := 3000000, ras := { d.ras with lane := [(0, some (0, 0))] } }, 0, 0, 0, by decide +kernel⟩⟩

/-- The premises of SparesAndKilns. -/
theorem test_witness_SparesAndKilns :
    (∃ (s : State) (dv : Dev) (p : Path) (data : W32) (e : Dev) (f : Dev), Reaches s.dev p dv ∧ dv.writeFields p RAS_HBM_CMD
      data = e ∧ e.flag RAS_HBM_STATUS_BUSY = false ∧ ∃ ok, fieldGet data 28 4 = 1 ∧ e.spareRow (fieldGet data 16 7) (e.get
      RAS_HBM_ROW_BANK) (e.get RAS_HBM_ROW_ROW) true = (ok, f)) ∧
    (∃ (s : State) (dv : Dev) (p : Path) (data : W32) (e : Dev), Reaches s.dev p dv ∧ dv.writeFields p RAS_HBM_CMD data = e ∧
      e.flag RAS_HBM_STATUS_BUSY = false ∧ fieldGet data 28 4 = 2) ∧
    (∃ (s : State) (k : Nat) (rest : List (Nat × Bool)), s.dev.alive = true ∧ s.dev.ras.sparing = (k, true) :: rest) ∧
    (∃ (s : State) (dv : Dev) (p : Path) (data : W32) (e : Dev), Reaches s.dev p dv ∧ dv.writeFields p RAS_SPARE_CMD data = e ∧
      ∃ op row, ((op = 1 ∧ row = Instr.kilnReplace p data ∨ op = 2 ∧ row = Instr.kilnDeclareDead p data [] ∨ op = 3 ∧ row =
      Instr.kilnTest p data ∨ op = 4 ∧ row = Instr.kilnRetire p data)) ∧ fieldGet data 28 4 = op ∧ e.flag RAS_SPARE_STATUS_BUSY
      = true) ∧
    (∃ (s : State) (dv : Dev) (p : Path) (data : W32) (e : Dev), Reaches s.dev p dv ∧ dv.writeFields p RAS_SPARE_CMD data = e ∧
    let k := fieldGet data 0 6
    ∃ x, fieldGet data 28 4 = 1 ∧ e.flag RAS_SPARE_STATUS_BUSY = false ∧ k < 32 ∧ e.flag (RAS_KILN_MAP_VALID k) = true ∧
      e.kilnHeld k = false ∧ e.spareOf (k / 8) = some x) ∧
    (∃ (s : State) (dv : Dev) (p : Path) (data : W32) (e : Dev), Reaches s.dev p dv ∧ dv.writeFields p RAS_SPARE_CMD data = e ∧
    let k := fieldGet data 0 6
    fieldGet data 28 4 = 2 ∧ e.flag RAS_SPARE_STATUS_BUSY = false ∧ k < 32 ∧ e.flag (RAS_KILN_MAP_VALID k) = true ∧
      e.ras.takeovers = []) ∧
    (∃ (s : State) (dv : Dev) (p : Path) (data : W32) (e : Dev), Reaches s.dev p dv ∧ dv.writeFields p RAS_SPARE_CMD data = e ∧
    let k := fieldGet data 0 6
    fieldGet data 28 4 = 3 ∧ e.flag RAS_SPARE_STATUS_BUSY = false ∧ k < 36 ∧ (e.role k = roleFenced ∨ e.role k = roleSpare)) ∧
    (∃ (s : State) (dv : Dev) (p : Path) (data : W32) (e : Dev), Reaches s.dev p dv ∧ dv.writeFields p RAS_SPARE_CMD data = e ∧
    let k := fieldGet data 0 6
    fieldGet data 28 4 = 3 ∧ e.flag RAS_SPARE_STATUS_BUSY = false ∧ k < 36 ∧ e.role k ≠ roleFenced ∧ e.role k ≠ roleSpare) ∧
    (∃ (s : State) (dv : Dev) (p : Path) (data : W32) (e : Dev), Reaches s.dev p dv ∧ dv.writeFields p RAS_SPARE_CMD data = e ∧
    let k := fieldGet data 0 6
    fieldGet data 28 4 = 4 ∧ e.flag RAS_SPARE_STATUS_BUSY = false ∧ k < 36 ∧ (e.role k = roleFenced ∨ e.role k = roleSpare)) ∧
    (∃ (s : State) (k : Nat) (x : Nat) (e : Dev), s.dev.alive = true ∧ s.dev.ras.op = some (.replace k x false) ∧
      s.dev.core.chans = [] ∧ (s.dev.setRas fun r => { r with op := some (.replace k x true) }).bumpOwner (.kiln k) = e) ∧
    (∃ (s : State) (p : Fin 36), s.dev.alive = true ∧ s.dev.role p = roleFenced) ∧
    (∃ (s : State) (p : Nat) (n : Nat), s.dev.alive = true ∧ s.dev.ras.op = some (.test p) ∧ 0 < n) :=
  ⟨⟨State.reset, _, .fw, 0x10000000, _, _, ⟨by decide +kernel, by decide +kernel, rfl, by decide +kernel, by decide +kernel⟩,
     rfl, by decide +kernel, _, by decide +kernel, Prod.mk.eta.symm⟩,
   ⟨State.reset, _, .fw, 0x20000000, _, ⟨by decide +kernel, by decide +kernel, rfl, by decide +kernel, by decide +kernel⟩, rfl,
     by decide +kernel⟩,
   ⟨st fun d => { d with cycle := 0, ras := { d.ras with sparing := [(0, true)] } }, 0, [], by decide +kernel⟩,
   ⟨st fun d => d.put RAS_SPARE_STATUS_BUSY 1, _, .fw, 0x10000000, _, ⟨by decide +kernel, by decide +kernel, rfl,
     by decide +kernel, by decide +kernel⟩, rfl, 1, .kilnReplace .fw 0x10000000, by decide +kernel⟩,
   ⟨st fun d => d.put (RAS_KILN_MAP_VALID 0) 1, _, .fw, 0x10000000, _, ⟨by decide +kernel, by decide +kernel, rfl,
     by decide +kernel, by decide +kernel⟩, rfl, _, by decide +kernel, by decide +kernel, by decide +kernel, by decide +kernel,
     by decide +kernel, (Option.some_get (by decide +kernel)).symm⟩,
   ⟨st fun d => d.put (RAS_KILN_MAP_VALID 0) 1, _, .fw, 0x20000000, _, ⟨by decide +kernel, by decide +kernel, rfl,
     by decide +kernel, by decide +kernel⟩, rfl, by decide +kernel⟩,
   ⟨st fun d => d.put (KLN_STATE_ROLE 0) roleFenced, _, .fw, 0x30000000, _, ⟨by decide +kernel, by decide +kernel, rfl,
     by decide +kernel, by decide +kernel⟩, rfl, by decide +kernel⟩,
   ⟨State.reset, _, .fw, 0x30000000, _, ⟨by decide +kernel, by decide +kernel, rfl, by decide +kernel, by decide +kernel⟩, rfl,
     by decide +kernel⟩,
   ⟨st fun d => d.put (KLN_STATE_ROLE 0) roleFenced, _, .fw, 0x40000000, _, ⟨by decide +kernel, by decide +kernel, rfl,
     by decide +kernel, by decide +kernel⟩, rfl, by decide +kernel⟩,
   ⟨st fun d => { d with cycle := 0, ras := { d.ras with op := some (.replace 0 32 false) } }, 0, 32, _, by decide +kernel,
     by decide +kernel, by decide +kernel, rfl⟩,
   ⟨st fun d => d.put (KLN_STATE_ROLE 0) roleFenced, 0, by decide +kernel⟩,
   ⟨st fun d => { d with cycle := 0, ras := { d.ras with op := some (.test 0) } }, 0, 1, by decide +kernel⟩⟩

/-- The premises of ParseLoadDecided. -/
theorem test_witness_ParseLoadDecided :
    (∃ (s : State) (k : Fin 8) (e : Fin 64) (x : Engine) (i : PInstr) (row : Instr) (hi : Nat) (f : Frame), s.dev.alive = true ∧
      s.dev.nextInstr k e = some (x, i) ∧ s.dev.frame? x.frame = some f ∧ x.pc ≠ 0xFFF ∧ ((i.op = .ldb ∧ row = .parseLdb k e ∧
      hi = (x.rd i.ra).toNat + i.imm ∨ i.op = .ldh ∧ row = .parseLdh k e ∧ hi = (x.rd i.ra).toNat + i.imm + 1)) ∧ 256 ≤ hi) ∧
    (∃ (s : State) (k : Fin 8) (e : Fin 64) (x : Engine) (i : PInstr) (row : Instr) (hi : Nat) (f : Frame), s.dev.alive = true ∧
      s.dev.nextInstr k e = some (x, i) ∧ s.dev.frame? x.frame = some f ∧ x.pc ≠ 0xFFF ∧ ((i.op = .ldb ∧ row = .parseLdb k e ∧
      hi = (x.rd i.ra).toNat + i.imm ∨ i.op = .ldh ∧ row = .parseLdh k e ∧ hi = (x.rd i.ra).toNat + i.imm + 1)) ∧ hi ≤ 255 ∧
      f.ended = true ∧ f.len ≤ hi + 4) ∧
    (∃ (s : State) (k : Fin 8) (e : Fin 64) (x : Engine) (i : PInstr) (row : Instr) (hi : Nat) (f : Frame), s.dev.alive = true ∧
      s.dev.nextInstr k e = some (x, i) ∧ s.dev.frame? x.frame = some f ∧ x.pc ≠ 0xFFF ∧ ((i.op = .ldb ∧ row = .parseLdb k e ∧
      hi = (x.rd i.ra).toNat + i.imm ∨ i.op = .ldh ∧ row = .parseLdh k e ∧ hi = (x.rd i.ra).toNat + i.imm + 1)) ∧ hi ≤ 255 ∧ hi
      + 4 < f.len) ∧
    (∃ (s : State) (k : Fin 8) (e : Fin 64) (x : Engine) (i : PInstr) (row : Instr) (hi : Nat) (f : Frame), s.dev.alive = true ∧
      s.dev.nextInstr k e = some (x, i) ∧ s.dev.frame? x.frame = some f ∧ x.pc ≠ 0xFFF ∧ ((i.op = .ldb ∧ row = .parseLdb k e ∧
      hi = (x.rd i.ra).toNat + i.imm ∨ i.op = .ldh ∧ row = .parseLdh k e ∧ hi = (x.rd i.ra).toNat + i.imm + 1)) ∧ hi ≤ 255 ∧
      f.ended = false ∧ f.len ≤ hi + 4) ∧
    (∃ (s : State) (k : Fin 8) (e : Fin 64) (x : Engine) (i : PInstr) (c : Nat) (w : W32) (hi : Nat) (t : Dev) (g : Frame)
      (bytes : List Byte), s.dev.alive = true ∧ s.dev.eng k e = some x ∧ x.stalledFrom = some (c, w) ∧ decodeParse w = some i ∧
      x.pc ≠ 0xFFF ∧ ((i.op = .ldb ∧ hi = (x.rd i.ra).toNat + i.imm ∨ i.op = .ldh ∧ hi = (x.rd i.ra).toNat + i.imm + 1)) ∧ hi ≤
      255 ∧ s.dev.arrive x.frame bytes = t ∧ t.frame? x.frame = some g ∧ g.ended = true ∧ g.len ≤ hi + 4) ∧
    (∃ (s : State) (k : Fin 8) (e : Fin 64) (x : Engine) (i : PInstr) (c : Nat) (w : W32) (hi : Nat) (t : Dev) (g : Frame)
      (bytes : List Byte), s.dev.alive = true ∧ s.dev.eng k e = some x ∧ x.stalledFrom = some (c, w) ∧ decodeParse w = some i ∧
      x.pc ≠ 0xFFF ∧ ((i.op = .ldb ∧ hi = (x.rd i.ra).toNat + i.imm ∨ i.op = .ldh ∧ hi = (x.rd i.ra).toNat + i.imm + 1)) ∧ hi ≤
      255 ∧ s.dev.arrive x.frame bytes = t ∧ t.frame? x.frame = some g ∧ hi + 4 < g.len) ∧
    (∃ (s : State) (k : Fin 8) (e : Fin 64) (x : Engine) (i : PInstr) (c : Nat) (w : W32) (hi : Nat) (t : Dev) (g : Frame)
      (bytes : List Byte), s.dev.alive = true ∧ s.dev.eng k e = some x ∧ x.stalledFrom = some (c, w) ∧ decodeParse w = some i ∧
      x.pc ≠ 0xFFF ∧ ((i.op = .ldb ∧ hi = (x.rd i.ra).toNat + i.imm ∨ i.op = .ldh ∧ hi = (x.rd i.ra).toNat + i.imm + 1)) ∧ hi ≤
      255 ∧ s.dev.arrive x.frame bytes = t ∧ t.frame? x.frame = some g ∧ g.ended = false ∧ g.len ≤ hi + 4) ∧
    (∃ (d : Dev) (j : Nat) (p : Nat) (f : Frame), d.frame? j = some f ∧ f.src = .port p ∧ f.ended = true) ∧
    (∃ (d : Dev) (j : Nat) (p : Nat) (f : Frame), d.frame? j = some f ∧ f.src = .port p ∧ f.ended = false ∧ (d.sub p).rx = some
      j ∧ d.loopback (p / 4) ≠ 1 ∧ d.loopback (p / 4) ≠ 2) :=
  ⟨⟨st fun d => (parseSt ⟨.ldh, 1, 0, 0, 255⟩).dev.setFrame 0 ({ fr 100 .parse with ended := false }), 0, 0, Engine.start 0 0 0,
     ⟨.ldh, 1, 0, 0, 255⟩, .parseLdh 0 0, 256, { fr 100 .parse with ended := false }, by decide +kernel⟩,
   ⟨st fun d => (parseSt ⟨.ldb, 1, 0, 0, 96⟩).dev.setFrame 0 (fr 100 .parse), 0, 0, Engine.start 0 0 0, ⟨.ldb, 1, 0, 0, 96⟩,
     .parseLdb 0 0, 96, fr 100 .parse, by decide +kernel⟩,
   ⟨st fun d => (parseSt ⟨.ldb, 1, 0, 0, 95⟩).dev.setFrame 0 (fr 100 .parse), 0, 0, Engine.start 0 0 0, ⟨.ldb, 1, 0, 0, 95⟩,
     .parseLdb 0 0, 95, fr 100 .parse, by decide +kernel⟩,
   ⟨st fun d => (parseSt ⟨.ldh, 1, 0, 0, 95⟩).dev.setFrame 0 ({ fr 100 .parse with ended := false }), 0, 0, Engine.start 0 0 0,
     ⟨.ldh, 1, 0, 0, 95⟩, .parseLdh 0 0, 96, { fr 100 .parse with ended := false }, by decide +kernel⟩,
   ⟨st fun d => ((d.setFrame 0 (fr 100 .parse)).setEng 0 0 (some
     { Engine.start 0 0 0 with stalledFrom := some (0, encodeParse ⟨.ldb, 1, 0, 0, 96⟩) })).modSub 0 fun y =>
     { y with rx := some 0 }, 0, 0, { Engine.start 0 0 0 with stalledFrom := some (0, encodeParse ⟨.ldb, 1, 0, 0, 96⟩) }, ⟨.ldb,
     1, 0, 0, 96⟩, 0, encodeParse ⟨.ldb, 1, 0, 0, 96⟩, 96, _, _, [], by decide +kernel, by decide +kernel, by decide +kernel,
     by decide +kernel, by decide +kernel, by decide +kernel, by decide +kernel, rfl, (Option.some_get
     (by decide +kernel)).symm, by decide +kernel⟩,
   ⟨st fun d => ((d.setFrame 0 ({ fr 100 .parse with ended := false })).setEng 0 0 (some
     { Engine.start 0 0 0 with stalledFrom := some (0, encodeParse ⟨.ldb, 1, 0, 0, 96⟩) })).modSub 0 fun y =>
     { y with rx := some 0 }, 0, 0, { Engine.start 0 0 0 with stalledFrom := some (0, encodeParse ⟨.ldb, 1, 0, 0, 96⟩) }, ⟨.ldb,
     1, 0, 0, 96⟩, 0, encodeParse ⟨.ldb, 1, 0, 0, 96⟩, 96, _, _, [0], by decide +kernel, by decide +kernel, by decide +kernel,
     by decide +kernel, by decide +kernel, by decide +kernel, by decide +kernel, rfl, (Option.some_get
     (by decide +kernel)).symm, by decide +kernel⟩,
   ⟨st fun d => ((d.setFrame 0 ({ fr 100 .parse with ended := false })).setEng 0 0 (some
     { Engine.start 0 0 0 with stalledFrom := some (0, encodeParse ⟨.ldb, 1, 0, 0, 97⟩) })).modSub 0 fun y =>
     { y with rx := some 0 }, 0, 0, { Engine.start 0 0 0 with stalledFrom := some (0, encodeParse ⟨.ldb, 1, 0, 0, 97⟩) }, ⟨.ldb,
     1, 0, 0, 97⟩, 0, encodeParse ⟨.ldb, 1, 0, 0, 97⟩, 97, _, _, [0], by decide +kernel, by decide +kernel, by decide +kernel,
     by decide +kernel, by decide +kernel, by decide +kernel, by decide +kernel, rfl, (Option.some_get
     (by decide +kernel)).symm, by decide +kernel⟩,
   ⟨Dev.reset.setFrame 0 (fr 100 .parse), 0, 0, fr 100 .parse, by decide +kernel⟩,
   ⟨(Dev.reset.setFrame 0 { fr 100 .parse with ended := false }).modSub 0 fun y => { y with rx := some 0 }, 0, 0,
     { fr 100 .parse with ended := false }, by decide +kernel⟩⟩

/-- The premises of RecordWordStores. -/
theorem test_witness_RecordWordStores :
    (∃ (w : W32) (i : PInstr), decodeParse w = some i ∧ i.op = .st) ∧
    (∃ (w : W32) (i : PInstr), decodeParse w = some i ∧ i.op = .sti) ∧
    (∃ (s : State) (k : Fin 8) (e : Fin 64) (x : Engine) (i : PInstr), s.dev.alive = true ∧ s.dev.eng k e = some x ∧
      x.stalledFrom = none ∧ x.nextAt ≤ s.dev.cycle ∧ x.n < s.dev.get (PL_PARSE_CTRL_BUDGET k) ∧ s.dev.imemIsBad k x.pc = false
      ∧ s.dev.fetchWord k x.pc = encodeParse i ∧ ((i.op = .st ∧ i.rd < 16 ∧ i.ra < 16 ∧ i.imm < 2 ∨ i.op = .sti ∧ i.rd < 2 ∧
      i.imm < 65536))) ∧
    (∃ (i : Nat) (j : Nat), i < 32 ∧ j < 32 ∧ j ≠ i) :=
  ⟨⟨encodeParse ⟨.st, 0, 1, 0, 2⟩, _, rfl, by decide +kernel⟩,
   ⟨encodeParse ⟨.sti, 2, 0, 0, 5⟩, _, rfl, by decide +kernel⟩,
   ⟨parseSt ⟨.st, 0, 1, 0, 1⟩, 0, 0, Engine.start 0 0 0, ⟨.st, 0, 1, 0, 1⟩, by decide +kernel⟩,
   ⟨0, 1, by decide +kernel⟩⟩

/-- The premises of RecordSelectors. -/
theorem test_witness_RecordSelectors :
    (∃ (w : Nat) (i : Nat), w + 7 < 32 ∧ i < 8) ∧
    (∃ (d : Dev) (k : Fin 8) (c : Fin 64), d.get (PL_RC_BOUNDS_HIGH k c) < d.get (PL_RC_BOUNDS_LOW k c)) ∧
    (∃ (s : State) (dv : Dev) (p : Path) (w : Fin 16777216) (k : Fin 8) (c : Fin 64), Reaches s.dev p dv ∧ 4 * w.val =
      PL_RC_BOUNDS k c) :=
  ⟨⟨24, 7, by decide +kernel⟩,
   ⟨Dev.reset, 0, 0, by decide +kernel⟩,
   ⟨State.reset, _, .fw, ⟨PL_RC_BOUNDS 0 0 / 4, by decide⟩, 0, 0, ⟨by decide +kernel, by decide +kernel, rfl, by decide +kernel,
     by decide +kernel⟩, by decide +kernel⟩⟩

/-- The premises of StepRunsTheFrontCommand. -/
theorem test_witness_StepRunsTheFrontCommand :
    ∃ (s : State), s.pending = [] :=
  ⟨State.reset, by decide +kernel⟩

/-- The premises of QueueAndSupplies. -/
theorem test_witness_QueueAndSupplies :
    (∃ (s : State), s.pending.all Instr.wf = true) ∧
    (∃ (c : Instr) (s : State), s.dev.alive = false ∧ aonRow c = false) :=
  ⟨⟨State.reset, by decide +kernel⟩,
   ⟨.pkRsaPub, st fun d => (d).setBoot fun b => { b with powered := false }, by decide +kernel⟩⟩

/-- The premises of MainOffStands. -/
theorem test_witness_MainOffStands :
    ∃ (s : State) (t : State), MainOff s ∧ step s = .next t :=
  ⟨st fun d => (d).setBoot fun b => { b with powered := false }, _, by unfold MainOff; decide +kernel, rfl⟩

/-- The premises of MainOffEntered. -/
theorem test_witness_MainOffEntered :
    (∃ (s : State) (row : Instr), s.dev.pkg.standby = true ∧ s.dev.boot.powered = true ∧ ((row = .mainUndervoltage ∨ row =
      .mainOvervoltage ∨ row = .vstbyLoss)) ∧ ((∀ c ∈ s.pending, powerRises c = false))) ∧
    (∃ (s : State), MainOff s ∧ s.dev.pkg.standby = true) :=
  ⟨⟨State.reset, .mainUndervoltage, by decide +kernel⟩,
   ⟨st fun d => (d).setBoot fun b => { b with powered := false }, by unfold MainOff; decide +kernel, by decide +kernel⟩⟩

/-- The premises of HbmWrites. -/
theorem test_witness_HbmWrites :
    (∃ (d : Dev), d.mem.wf = true) ∧
    (∃ (d : Dev) (a : Nat) (l : Nat) (bs : List Byte) (t : Fin 1026), bs ≠ [] ∧ (d.thread t).resv = some l ∧ a / 64 ≤ l ∧ l ≤ (a
      + bs.length - 1) / 64 ∧ tabWf (fun _ => Thread.reset) d.core.threads = true) :=
  ⟨⟨Dev.reset, by decide +kernel⟩,
   ⟨Dev.reset.modThread 0 fun t => { t with resv := some 5 }, 320, 5, [0], 0, by decide +kernel⟩⟩

end Sys2Proof.Tests
end

section
/-!
PROOFS. The boot sequence (O48) and the step (O55): what leaves the boot state and the output gate alone, an equation for each row of
the boot sequence, and the obligations assembled from them.
-/

namespace Sys2Proof.Machine
namespace Dev

/-! ### What leaves the boot state -/

/-- A fold of steps that each keep what `g` reads keeps it. -/
theorem foldl_keeps {α β γ : Type} (g : β → γ) (f : β → α → β) (h : ∀ d x, g (f d x) = g d) (l : List α) (d : β) :
    g (l.foldl f d) = g d := by
  induction l generalizing d with
  | nil => rfl
  | cons x l ih => rw [List.foldl_cons, ih, h]

/-- A condition on an operation that keeps the boot state. -/
theorem ite_boot {c : Prop} [Decidable c] {x d : Dev} (h : x.boot = d.boot) : (if c then x else d).boot = d.boot := by
  split
  · exact h
  · rfl

@[simp] theorem leaveCount_boot (d : Dev) (c : Nat) : (d.leaveCount c).boot = d.boot := rfl
@[simp] theorem mark_boot (d : Dev) (m : Mark) : (d.mark m).boot = d.boot := rfl
@[simp] theorem setMsix_boot (d : Dev) (l f e : Nat) (x : MsixEntry) : (d.setMsix l f e x).boot = d.boot := rfl
@[simp] theorem engWrote_boot (d : Dev) (e n : Nat) : (d.engWrote e n).boot = d.boot := rfl
@[simp] theorem syncGate_boot (d : Dev) (g : Nat) : (d.syncGate g).boot = d.boot := by
  rw [syncGate, put_boot, put_boot]

@[simp] theorem syncLate_boot (d : Dev) : d.syncLate.boot = d.boot := by
  refine foldl_keeps Dev.boot _ (fun d kv => ?_) _ d
  split
  · exact ite_boot (syncGate_boot d _)
  · rfl

@[simp] theorem enterStores_boot (d : Dev) : d.enterStores.boot = d.boot :=
  foldl_keeps Dev.boot _ (fun d kv => by split <;> rfl) _ d

@[simp] theorem portServe_boot (d : Dev) (c : Nat) : (d.portServe c).boot = d.boot := by
  unfold portServe
  split
  · rfl
  · split
    · rfl
    · dsimp only
      split <;> rfl

@[simp] theorem portTick_boot (d : Dev) : d.portTick.boot = d.boot :=
  (foldl_keeps Dev.boot _ portServe_boot _ _).trans (enterStores_boot d)

@[simp] theorem tick_boot (d : Dev) : d.tick.boot = d.boot := by
  simp [tick, apply_ite Dev.boot]

@[simp] theorem nextNoc_boot (d : Dev) : d.nextNoc.boot = d.boot := by
  unfold nextNoc
  exact (ite_boot (tick_boot _)).trans (tick_boot d)

@[simp] theorem inWriteOrder_boot (d : Dev) (order a n : Nat) : (d.inWriteOrder order a n).boot = d.boot := by
  unfold inWriteOrder
  exact (mark_boot _ _).trans (ite_boot (nextNoc_boot d))

@[simp] theorem markDirty_boot (d : Dev) (a n : Nat) : (d.markDirty a n).boot = d.boot :=
  foldl_keeps Dev.boot _ (fun d s => by
    dsimp only
    split
    · rfl
    · split <;> rfl) _ d

@[simp] theorem hbmWrite_boot (d : Dev) (a : Nat) (bs : List Byte) : (d.hbmWrite a bs).boot = d.boot := by
  unfold hbmWrite hbmWriteAs
  split
  · rfl
  · rw [markDirty_boot]
    exact inWriteOrder_boot d _ _ _

/-! The writes of a DMA channel, and the requests on the host links. -/

@[simp] theorem tlpOn_boot (d : Dev) (l : Nat) : (d.tlpOn l).boot = d.boot := by
  unfold tlpOn
  dsimp only
  split
  · rw [modLink_boot, put_boot, modLink_boot]
  · rw [modLink_boot]

@[simp] theorem issueReq_boot (d : Dev) (l : Nat) (r : HostReq) : (d.issueReq l r).boot = d.boot := by
  cases r <;> simp [issueReq]

@[simp] theorem pumpLink_boot (d : Dev) (l : Nat) : (d.pumpLink l).boot = d.boot := by
  unfold pumpLink
  split
  · exact foldl_keeps Dev.boot _ (fun d r => issueReq_boot d l r) _ _
  · rfl

@[simp] theorem sendReq_boot (d : Dev) (l : Nat) (r : HostReq) : (d.sendReq l r).boot = d.boot := by
  simp [sendReq]

@[simp] theorem msix_boot (d : Dev) (l f e : Nat) : (d.msix l f e).2.boot = d.boot := by
  simp [msix, apply_ite Prod.snd, apply_ite Dev.boot]

@[simp] theorem putRead_boot (d : Dev) (g a n ad : Nat) (w : ReadFor) : (d.putRead g a n ad w).boot = d.boot := by
  unfold putRead
  dsimp only
  split
  · rw [sendReq_boot, put_boot, modDeng_boot]
  · rw [put_boot, modDeng_boot]

@[simp] theorem askAts_boot (d : Dev) (g page : Nat) : (d.askAts g page).boot = d.boot := by
  unfold askAts
  split
  · rfl
  · exact putRead_boot d _ _ _ _ _

@[simp] theorem denyWrite_boot (d : Dev) (g : Nat) (w : PWrite) : (d.denyWrite g w).boot = d.boot := by
  unfold denyWrite
  split
  · rfl
  · split
    · rw [inc_boot, modChan_boot]
    · exact ite_boot (modChan_boot d _ _)

@[simp] theorem hostOut_boot (d : Dev) (l g : Nat) (w : PWrite) : (d.hostOut l g w).boot = d.boot := by
  unfold hostOut
  split
  · rfl
  · split <;> simp

@[simp] theorem tWrite_boot (d : Dev) (g a : Nat) (bs : List Byte) (pos : Option (Nat × Nat)) (cpl : Option Nat) :
    (d.tWrite g a bs pos cpl).boot = d.boot := by
  unfold tWrite tWriteF
  dsimp only
  split
  · simp
  · exact foldl_keeps Dev.boot _ (fun d p => hostOut_boot d _ _ _) _ _

@[simp] theorem rasRing_boot (d : Dev) (e : RasErr) (count : Nat) : (d.rasRing e count).boot = d.boot := by
  unfold rasRing
  dsimp only
  split
  · rfl
  · rw [apply_ite Dev.boot, setRas_boot, put_boot, ite_self]
    exact ite_boot (tWrite_boot d _ _ _ _ _)

@[simp] theorem rasWrite_boot (d : Dev) (e : RasErr) (count : Nat) : (d.rasWrite e count).boot = d.boot := by
  unfold rasWrite
  dsimp only
  rw [apply_ite Dev.boot, msix_boot, ite_self, emit_boot]
  split <;> simp only [setEvent_boot, rasRing_boot]

@[simp] theorem flashBad_boot (d : Dev) (a : Nat) : (d.flashBad a).boot = d.boot := by
  simp only [flashBad, rasError, RasErr.of, rasWrite_boot, inc_boot]

@[simp] theorem setRole_boot (d : Dev) (p r : Nat) : (d.setRole p r).boot = d.boot := by
  rw [setRole, put_boot]
@[simp] theorem mapKiln_boot (d : Dev) (k p : Nat) : (d.mapKiln k p).boot = d.boot := by
  rw [mapKiln, put_boot, setRole_boot, put_boot, put_boot]

/-- The retired kilns of a quadrant take their role. -/
theorem retiredRoles_boot (d : Dev) (l : List Nat) :
    (l.foldl (fun d p => if d.kilnRetired p then d.setRole p roleRetired else d) d).boot = d.boot :=
  foldl_keeps Dev.boot _ (fun d p => ite_boot (setRole_boot d p _)) l d

/-- The logical kilns of a quadrant are mapped to the physical ones that are good. -/
theorem mapQuad_boot (d : Dev) (q : Nat) (good : List Nat) :
    ((List.range 8).foldl (fun d i => match good[i]? with
      | some p => d.mapKiln (8 * q + i) p
      | none => (d.put (RAS_KILN_MAP_VALID (8 * q + i)) 0).put (RAS_KILN_MAP_PHYS (8 * q + i)) 0) d).boot = d.boot := by
  refine foldl_keeps Dev.boot _ (fun d i => ?_) _ d
  split
  · rw [mapKiln_boot]
  · rw [put_boot, put_boot]

@[simp] theorem bootMap_boot (d : Dev) : d.bootMap.boot = d.boot := by
  refine foldl_keeps Dev.boot _ (fun d q => ?_) _ d
  dsimp only
  split
  · exact (setRole_boot _ _ _).trans ((mapQuad_boot _ q _).trans (retiredRoles_boot d _))
  · exact (mapQuad_boot _ q _).trans (retiredRoles_boot d _)

theorem preloadAll_nil {d : Dev} (h : d.boot.preload = []) : d.preloadAll = d := by
  rw [preloadAll, h]
  rfl

/-! ### The output gate -/

theorem modLink_gateOpen (d : Dev) (l : Nat) (g : Link → Link) : (d.modLink l g).gateOpen = d.gateOpen := rfl

/-- The gate's bit is bit 31 of its register: a field below that bit, of any register, leaves it. -/
theorem put_gateOpen (d : Dev) {f : Fld} (v : Nat) (h : f.lo + f.width ≤ 31) : (d.put f v).gateOpen = d.gateOpen := by
  have hg : (d.put f v).get BOOT_STATUS_GATE_OPEN = d.get BOOT_STATUS_GATE_OPEN :=
    get_put_bits d f _ v (by omega) (Or.inl h)
  simp only [gateOpen, flag, hg]

theorem setBoot_gateOpen (d : Dev) (f : BootState → BootState) : (d.setBoot f).gateOpen = d.gateOpen := rfl

@[simp] theorem tlpOn_gateOpen (d : Dev) (l : Nat) : (d.tlpOn l).gateOpen = d.gateOpen := by
  unfold tlpOn
  dsimp only
  split
  · rw [modLink_gateOpen, put_gateOpen _ _ (by decide : 12 + 3 ≤ 31), modLink_gateOpen]
  · rw [modLink_gateOpen]

@[simp] theorem issueReq_gateOpen (d : Dev) (l : Nat) (r : HostReq) : (d.issueReq l r).gateOpen = d.gateOpen := by
  cases r with
  | write w => exact tlpOn_gateOpen d l
  | read f t a n ro ido => exact tlpOn_gateOpen d l

@[simp] theorem pumpLink_gateOpen (d : Dev) (l : Nat) : (d.pumpLink l).gateOpen = d.gateOpen := by
  unfold pumpLink
  split
  · exact foldl_keeps gateOpen _ (fun d r => issueReq_gateOpen d l r) _ _
  · rfl

@[simp] theorem appendLog_gateOpen (d : Dev) (cause image result stage t : Nat) (h : ImageHdr) :
    (d.appendLog cause image result stage t h).gateOpen = d.gateOpen := rfl

/-! ### The boot control record -/

/-- The boot control record is read from flash alone. -/
theorem bootRecord_congr {x d : Dev} (h : x.boot.flash = d.boot.flash) : x.bootRecord = d.bootRecord := by
  have hr : x.flashRead = d.flashRead := by
    funext a n
    simp only [flashRead, flashByte, h]
  rw [bootRecord, bootRecord, hr]

@[simp] theorem writeRecord_started (d : Dev) (p t : Nat) : (d.writeRecord p t).boot.started = d.boot.started := rfl
@[simp] theorem writeRecord_profile (d : Dev) (p t : Nat) : (d.writeRecord p t).boot.profile = d.boot.profile := rfl

end Dev

/-! ### The start of BISQUE -/

/-- The slots in the order in which BISQUE tries them by a boot control record: the trial, the preferred and the other (R445). -/
def slotOrder (r : BootRecord) : List Nat :=
  ((if r.trial = 0 then [] else [r.trial - 1]) ++ [r.preferred, 1 - r.preferred]).eraseDups

/-- The flash pages of profiles that BISQUE finds bad where it reads them (R457). -/
def badProfiles (bad : List Nat) (d : Dev) : List Nat :=
  ((if d.wantedProfile = 4 then [] else
    [d.wantedProfile] ++ if (d.flashProfile bad d.wantedProfile).isSome then [] else [0]).dedup).filter bad.contains

/-- The device with its profile chosen and the boot map made, before the preload (R447, R470). -/
def bisqueMapped (bad : List Nat) (d : Dev) : Dev :=
  let x := ((badProfiles bad d).foldl (fun d i => d.flashBad (profileBase i)) d).setBoot fun b => { b with
    started := true, profile := (d.chooseProfile bad).2, preload := (d.chooseProfile bad).2.preload
    lastProfile := (d.chooseProfile bad).1 }
  (((x.put BOOT_STATUS_STAGE 1).put BOOT_STATUS_PROFILE ((d.chooseProfile bad).1 % 4)).put BOOT_STATUS_PROFILE_ROM
    (b2n ((d.chooseProfile bad).1 == 4))).bootMap

/-- The first attempt begins on the first slot in the order, a trial struck from the record (R445). -/
def firstAttempt (d : Dev) : Dev :=
  (if d.bootRecord.2.trial = 0 then d else d.writeRecord d.bootRecord.2.preferred 0).setBoot fun b => { b with
    attempt := some ⟨(slotOrder d.bootRecord.2).headD 0, (slotOrder d.bootRecord.2).tail, .header, .none, false, false⟩ }

/-- BISQUE_START 2 ms after the reset: the profile and the boot map, the preload, then the first attempt (R434). -/
theorem doBisqueStart_due {d : Dev} {bad : List Nat} (hs : d.boot.started = false) (hc : d.boot.since + 6000000 ≤ d.cycle) :
    doBisqueStart bad d = firstAttempt (bisqueMapped bad d).preloadAll := by
  have hd : ¬ d.cycle < d.boot.since + 2 * cyMs := by
    unfold cyMs
    omega
  have hn : ¬ (d.boot.started || decide (d.cycle < d.boot.since + 2 * cyMs)) = true := by simp [hs, hd]
  rw [doBisqueStart, if_neg hn]
  rfl

theorem slotOrder_ne_nil (r : BootRecord) : slotOrder r ≠ [] := by
  unfold slotOrder
  split <;> simp [List.eraseDups_cons]

theorem firstAttempt_attempt (d : Dev) :
    ∃ t, (firstAttempt d).boot.attempt = some t ∧ t.phase = .header ∧ t.slot :: t.rest = slotOrder d.bootRecord.2 := by
  refine ⟨_, rfl, rfl, ?_⟩
  obtain ⟨k, ks, h⟩ := List.exists_cons_of_ne_nil (slotOrder_ne_nil d.bootRecord.2)
  rw [h]
  rfl

theorem firstAttempt_keeps (d : Dev) :
    (firstAttempt d).boot.started = d.boot.started ∧ (firstAttempt d).boot.profile = d.boot.profile := by
  unfold firstAttempt
  split <;> exact ⟨rfl, rfl⟩

theorem bisqueMapped_boot (bad : List Nat) (d : Dev) :
    (bisqueMapped bad d).boot = { d.boot with
      started := true, profile := (d.chooseProfile bad).2, preload := (d.chooseProfile bad).2.preload
      lastProfile := (d.chooseProfile bad).1 } := by
  have hf := Dev.foldl_keeps Dev.boot _ (fun x i => Dev.flashBad_boot x (profileBase i)) (badProfiles bad d) d
  simp only [bisqueMapped, Dev.bootMap_boot, Dev.put_boot, Dev.setBoot, hf]

/-- BISQUE_START of a profile that preloads nothing (R434, R445, R447). -/
theorem doBisqueStart_noPreload {d : Dev} {bad : List Nat} (hs : d.boot.started = false) (hc : d.boot.since + 6000000 ≤ d.cycle)
    (hp : (d.chooseProfile bad).2.preload = []) :
    (doBisqueStart bad d).boot.started = true ∧ (doBisqueStart bad d).boot.profile = (d.chooseProfile bad).2 ∧
      ∃ t, (doBisqueStart bad d).boot.attempt = some t ∧ t.phase = .header ∧ t.slot :: t.rest = slotOrder d.bootRecord.2 := by
  have hb := bisqueMapped_boot bad d
  have hrec : (bisqueMapped bad d).bootRecord = d.bootRecord := Dev.bootRecord_congr (by rw [hb])
  have hpre : (bisqueMapped bad d).boot.preload = [] := by rw [hb, hp]
  rw [doBisqueStart_due hs hc, Dev.preloadAll_nil hpre]
  obtain ⟨h1, h2⟩ := firstAttempt_keeps (bisqueMapped bad d)
  exact ⟨by rw [h1, hb], by rw [h2, hb], hrec ▸ firstAttempt_attempt (bisqueMapped bad d)⟩

/-! ### The steps of an attempt -/

section
variable {d : Dev} {t : Attempt}

/-- An attempt in the phase of a row takes its step while BISQUE runs. -/
theorem attempt_goesOn {p : Phase} (hr : d.bisqueRuns = true) (hp : t.phase = p) : ¬ (t.phase ≠ p ∨ d.bisqueRuns = false) := by
  simp [hp, hr]

/-- The device of IMAGE_HEADER_CHECK that has read the header of slot `n`: a page found bad enters the catalogue (R457). -/
def headerRead (uncorr : Bool) (n : Nat) (u : Dev) : Dev :=
  if uncorr = true ∧ n < 2 then u.flashBad (slotBase n) else u

/-- IMAGE_HEADER_CHECK of an image whose structure is wrong (R437). -/
theorem doImageHeaderCheck_unsound (uncorr : Bool) (ha : d.boot.attempt = some t) (hr : d.bisqueRuns = true) (hp : t.phase = .header)
    (hh : imageHdr ((d.put BOOT_STATUS_STAGE 2).imageSrc t.slot) = none) :
    doImageHeaderCheck uncorr d = (headerRead uncorr t.slot (d.put BOOT_STATUS_STAGE 2)).attemptFails t
      (Dev.rawHdr ((d.put BOOT_STATUS_STAGE 2).imageSrc t.slot)) btImageBad := by
  simp only [doImageHeaderCheck, ha, hh, if_neg (attempt_goesOn hr hp)]
  rfl

/-- IMAGE_HEADER_CHECK of an image whose structure is sound: its key slot, and then its SVN (R437). -/
theorem doImageHeaderCheck_sound (uncorr : Bool) {h : ImageHdr} (ha : d.boot.attempt = some t) (hr : d.bisqueRuns = true)
    (hp : t.phase = .header) (hh : imageHdr ((d.put BOOT_STATUS_STAGE 2).imageSrc t.slot) = some h) :
    doImageHeaderCheck uncorr d =
      let e := headerRead uncorr t.slot (d.put BOOT_STATUS_STAGE 2)
      if keySlotBad e.boot.fuses ((d.put BOOT_STATUS_STAGE 2).imageSrc t.slot) h = true then e.attemptFails t h btKeySlot
      else if h.svn < e.boot.fuses.rollback then e.attemptFails t h btRollback
      else e.setPhase { t with hdr := h, flash := uncorr } .sigs := by
  simp only [doImageHeaderCheck, ha, hh, if_neg (attempt_goesOn hr hp)]
  rfl

/-- SIGNATURES_DECIDED of an attempt whose signatures are checked (R437). -/
theorem doSignaturesDecided_sigs (ha : d.boot.attempt = some t) (hr : d.bisqueRuns = true) (hp : t.phase = .sigs) :
    doSignaturesDecided d =
      if sigsOk (d.imageSrc t.slot) = false then d.attemptFails t t.hdr btSigFail
      else if t.flash = true then d.attemptFails t t.hdr btFlashErr
      else d.setPhase t (if d.boot.hbmTrained = true then .seg 0 else .hbm) := by
  simp only [doSignaturesDecided, ha, if_neg (attempt_goesOn hr hp),
    Bool.not_eq_true']

/-- SEGMENT_DIGEST of a segment that is loaded to the HBM (R437 to R439). -/
theorem doSegmentDigest_toHbm (uncorr : Bool) {k : Nat} {g : Segment} {e : Dev} (ha : d.boot.attempt = some t)
    (hr : d.bisqueRuns = true) (hp : t.phase = .seg k) (hk : t.hdr.segs[k]? = some g) (ht : d.boot.hbmTrained = true) (hg : g.toHbm = true)
    (he : (d.islandWrite g.load (d.imageSrc t.slot g.offset g.length)).setBoot (fun b => { b with
      wrote := b.wrote ++ [(g.load, g.length)] }) = e) :
    doSegmentDigest uncorr d =
      let f := if uncorr = true ∧ t.slot < 2 then e.flashBad (slotBase t.slot + g.offset) else e
      if sha384 (d.imageSrc t.slot g.offset g.length) ≠ g.digest then f.attemptFails t t.hdr btDigest
      else if uncorr = true then f.attemptFails t t.hdr btFlashErr
      else (f.segmentGood g).setPhase t (if k + 1 < t.hdr.segs.length then .seg (k + 1) else .last) := by
  subst he
  simp only [doSegmentDigest, ha, hp, hk, hr, ht, hg, Bool.true_eq_false, or_self, if_false, if_true]

/-- IMAGE_VERIFIED behind the last digest: the gate opens and the attempt is over (R434, R440). -/
theorem doImageVerified_last (ha : d.boot.attempt = some t) (hr : d.bisqueRuns = true) (hp : t.phase = .last) :
    (doImageVerified d).gateOpen = true ∧ (doImageVerified d).boot.attempt = none := by
  simp only [doImageVerified, ha, if_neg (attempt_goesOn hr hp)]
  constructor
  · rw [Dev.foldl_keeps Dev.gateOpen _ Dev.pumpLink_gateOpen, Dev.setBoot_gateOpen, Dev.appendLog_gateOpen,
      Dev.put_gateOpen _ _ (by decide), Dev.put_gateOpen _ _ (by decide), Dev.put_gateOpen _ _ (by decide),
      Dev.put_gateOpen _ _ (by decide), Dev.put_gateOpen _ _ (by decide), Dev.gateOpen, Dev.flag_put_same _ _ _ (by decide)]
    rfl
  · rw [Dev.foldl_keeps Dev.boot _ Dev.pumpLink_boot, Dev.setBoot]

/-- IMAGE_VERIFIED before the last digest does nothing. -/
theorem doImageVerified_early (ha : d.boot.attempt = some t) (hp : t.phase ≠ .last) : doImageVerified d = d := by
  simp only [doImageVerified, ha, if_pos (Or.inl hp)]

/-- NEXT_IMAGE_ATTEMPT after the last slot has failed: RECOVERY (R445). -/
theorem doNextImageAttempt_recovery (ha : d.boot.attempt = some t) (hr : d.bisqueRuns = true) (hp : t.phase = .failed) (hs : t.rest = []) :
    doNextImageAttempt d =
      ((d.put BOOT_STATUS_FAILED 1).put BOOT_STATUS_STAGE 6).setBoot fun b => { b with attempt := none } := by
  simp only [doNextImageAttempt, ha, hs, if_neg (attempt_goesOn hr hp)]

/-- NEXT_IMAGE_ATTEMPT with a slot left (R445). -/
theorem doNextImageAttempt_next {k : Nat} {ks : List Nat} (ha : d.boot.attempt = some t) (hr : d.bisqueRuns = true)
    (hp : t.phase = .failed) (hs : t.rest = k :: ks) :
    doNextImageAttempt d = d.setBoot fun b => { b with attempt := some ⟨k, ks, .header, .none, true, false⟩ } := by
  simp only [doNextImageAttempt, ha, hs, if_neg (attempt_goesOn hr hp)]

end

/-- HBM_TRAINING_COMPLETE while no attempt waits (R434). -/
theorem doHbmTrainingComplete_idle {d : Dev} (hf : d.flag ⟨CLK_PLL_STATUS, 5, 1⟩ = true) (ha : d.boot.attempt = none) :
    doHbmTrainingComplete d = d.setBoot fun b => { b with hbmTrained := true } := by
  simp [doHbmTrainingComplete, hf, Dev.setBoot, ha]

/-! ### The island's port -/

namespace Dev

/-- A write inside a target of the image reaches the HBM, but for the key-context region (R20, R263). -/
theorem islandWrite_admitted {d : Dev} {a : Nat} {bs : List Byte} (h : ∃ r ∈ d.islandPort, r.1 ≤ a ∧ a + bs.length ≤ r.1 + r.2) :
    d.islandWrite a bs = if d.inKc a bs.length then d else d.hbmWrite a bs := by
  obtain ⟨r, hr, h1, h2⟩ := h
  exact if_pos (List.any_eq_true.mpr ⟨r, hr, by simp [h1, h2]⟩)

/-- A write that no target of the image holds changes nothing (R20). -/
theorem islandWrite_refused {d : Dev} {a : Nat} {bs : List Byte} (h : ∀ r ∈ d.islandPort, r.1 ≤ a → r.1 + r.2 < a + bs.length) :
    d.islandWrite a bs = d := by
  refine if_neg fun hany => ?_
  obtain ⟨r, hr, hin⟩ := List.any_eq_true.mp hany
  simp only [Bool.and_eq_true, decide_eq_true_eq] at hin
  have := h r hr hin.1
  omega

end Dev

/-! ### The obligations -/

/-- Settles O55: the two branches of `step`, by whether a command waits. -/
theorem stepRunsTheFrontCommand : Obligations.StepRunsTheFrontCommand := by
  refine ⟨fun c rest s => rfl, fun s h => ?_⟩
  rw [step, h]

/-- Settles O48: BISQUE_START is its equation and what the preparation keeps of the boot state, each check of an attempt is the
equation of its row, and the gate stays open through the requests that the links then issue. Two clauses rest on the model's choices:
the targets that the island's port admits (notes/assumptions/52), and a bad page failing the step that reads it, before the digests of
later segments (notes/assumptions/37). -/
theorem bootRows : Obligations.BootRows := by
  unfold Obligations.BootRows
  refine ⟨fun s bad halive hs hc => ⟨?_, fun hpre => ?_⟩, fun s t halive ha hr => ?_, fun d a bs => ?_, fun s halive hf ha => ?_⟩
  · obtain ⟨t, ht, hp, -⟩ := firstAttempt_attempt (bisqueMapped bad s.dev).preloadAll
    exact does_intro halive rfl ⟨t, by rw [doBisqueStart_due hs hc, ht], hp⟩
  · exact does_intro halive rfl (doBisqueStart_noPreload hs hc hpre)
  · refine ⟨fun uncorr hp => ⟨fun hh => ?_, fun h hh => ⟨fun hk => ?_, fun hk hv => ?_, fun hk hv => ?_⟩⟩, fun hp => ?_,
      fun uncorr k g e hp hk ht hg he => ?_, fun hp => ?_, fun hp => ?_, fun hp hs => ?_, fun k ks hp hs => ?_⟩
    · exact does_intro halive rfl (doImageHeaderCheck_unsound uncorr ha hr hp hh)
    · exact does_intro halive rfl ((doImageHeaderCheck_sound uncorr ha hr hp hh).trans (if_pos hk))
    · exact does_intro halive rfl ((doImageHeaderCheck_sound uncorr ha hr hp hh).trans
        ((if_neg (Bool.not_eq_true _ ▸ hk)).trans (if_pos hv)))
    · exact does_intro halive rfl ((doImageHeaderCheck_sound uncorr ha hr hp hh).trans
        ((if_neg (Bool.not_eq_true _ ▸ hk)).trans (if_neg (Nat.not_lt.mpr hv))))
    · exact does_intro halive rfl (doSignaturesDecided_sigs ha hr hp)
    · exact does_intro halive rfl (doSegmentDigest_toHbm uncorr ha hr hp hk ht hg he)
    · exact does_intro halive rfl (doImageVerified_last ha hr hp)
    · exact does_intro halive rfl (doImageVerified_early ha hp)
    · exact does_intro halive rfl (doNextImageAttempt_recovery ha hr hp hs)
    · exact does_intro halive rfl (doNextImageAttempt_next ha hr hp hs)
  · exact ⟨Dev.islandWrite_admitted, Dev.islandWrite_refused⟩
  · exact does_intro halive rfl (doHbmTrainingComplete_idle hf ha)

end Sys2Proof.Machine
end

section
/-!
PROOFS. Register space and the owners (O2, O1, O3): an equation for each access type and each kind of register, what a register write
comes to on an open and on a closed path, the reads that latch, and the bump of an owner.
-/

namespace Sys2Proof.Machine
namespace Dev

/-! ### A write to one field -/

section
variable {d : Dev} {a : Nat} {data : W32} {f : FieldDesc} {lk : Bool} (ho : f.own = false)
include ho

/-- RO: hardware owns the field (R43). -/
theorem fieldWrite_ro (h : f.acc = .ro) : fieldWrite lk a data d f = (d, false) := by simp [fieldWrite, ho, h]

/-- WO: the actions of the field are no part of its storage (R44). -/
theorem fieldWrite_wo (h : f.acc = .wo) : fieldWrite lk a data d f = (d, false) := by simp [fieldWrite, ho, h]

/-- RW: the field takes what its table makes of the written value, and the bits count as written in this cycle (R48). -/
theorem fieldWrite_rw (h : f.acc = .rw) :
    let e := d.put ⟨a, f.lo, f.width⟩ (d.fieldStore a f (fieldGet data f.lo f.width))
    fieldWrite lk a data d f = ({ e with reg := { e.reg with
      swWrote := tabMod (fun _ => 0#32) e.reg.swWrote a (· ||| fieldMask f.lo f.width) } }, false) := by
  simp [fieldWrite, ho, h]

/-- W1S: the bits written as 1 are set (R45). -/
theorem fieldWrite_w1s (h : f.acc = .w1s) :
    fieldWrite lk a data d f =
      (d.put ⟨a, f.lo, f.width⟩ (d.get ⟨a, f.lo, f.width⟩ ||| fieldGet data f.lo f.width), false) := by
  simp [fieldWrite, ho, h]

/-- W1C: the bits written as 1 are cleared, but for those that hardware set in this cycle (R45, R48). -/
theorem fieldWrite_w1c (h : f.acc = .w1c) :
    fieldWrite lk a data d f =
      (d.put ⟨a, f.lo, f.width⟩ (d.get ⟨a, f.lo, f.width⟩ &&& ((2 ^ f.width - 1 - fieldGet data f.lo f.width) |||
        fieldGet (tabGet (fun _ => 0#32) d.reg.justSet a) f.lo f.width)), false) := by
  simp [fieldWrite, ho, h]

/-- RWL in set-up state: as RW, by its table (R46). -/
theorem fieldWrite_rwl_setup (h : f.acc = .rwl) :
    fieldWrite false a data d f =
      (d.put ⟨a, f.lo, f.width⟩ (d.fieldStore a f (fieldGet data f.lo f.width)), false) := by
  simp [fieldWrite, ho, h]

/-- RWL behind the lock: the field stays, and a value that it would have stored anew is a violation (R46). -/
theorem fieldWrite_rwl_locked (h : f.acc = .rwl) :
    fieldWrite true a data d f =
      (d, d.fieldStore a f (fieldGet data f.lo f.width) != d.get ⟨a, f.lo, f.width⟩) := by
  simp [fieldWrite, ho, h]

/-- A write to a field of the register at `a` leaves every other register. -/
theorem fieldWrite_rd_ne {b : Nat} (hb : b ≠ a) : (fieldWrite lk a data d f).1.rd b = d.rd b := by
  have hput (v : Nat) : (d.put ⟨a, f.lo, f.width⟩ v).rd b = d.rd b := rd_put_ne d _ v hb
  cases h : f.acc with
  | ro => rw [fieldWrite_ro ho h]
  | wo => rw [fieldWrite_wo ho h]
  | rw => rw [fieldWrite_rw ho h]; exact hput _
  | w1s => rw [fieldWrite_w1s ho h]; exact hput _
  | w1c => rw [fieldWrite_w1c ho h]; exact hput _
  | rwl =>
    cases lk with
    | false => rw [fieldWrite_rwl_setup ho h]; exact hput _
    | true => rw [fieldWrite_rwl_locked ho h]

end

end Dev

/-- Settles O2: each access type is its equation, and no field reaches another register. -/
theorem fieldWrites : Obligations.FieldWrites := by
  intro d a data f lk ho
  refine ⟨?_, fun h => ?_, Dev.fieldWrite_w1s ho, Dev.fieldWrite_w1c ho, ?_, ?_, fun b hb => Dev.fieldWrite_rd_ne ho hb⟩
  · rintro (h | h)
    · exact Dev.fieldWrite_ro ho h
    · exact Dev.fieldWrite_wo ho h
  · simp only [Dev.fieldWrite_rw ho h]
    exact ⟨trivial, (Dev.rd_put d _ _ a).trans (if_pos rfl)⟩
  · rintro h rfl
    exact Dev.fieldWrite_rwl_setup ho h
  · rintro h rfl
    exact Dev.fieldWrite_rwl_locked ho h

namespace Dev

/-! ### Register words -/

/-- An offset that holds no register and no counter takes no effect (R9). -/
theorem writeFields_unoccupied {d : Dev} {p : Path} {a : Nat} {data : W32} (hc : counterAt a = none) (hr : regAt a = none) :
    d.writeFields p a data = d := by
  simp only [writeFields, hc, hr, ite_self]

/-- A write to a counter's low half clears the counter, whatever the data (R47). -/
theorem writeFields_counter {d : Dev} {p : Path} {a : Nat} {data : W32} {wide : Bool} (hs : d.absentSub a = false)
    (hc : counterAt a = some (wide, true)) : d.writeFields p a data = d.clearCount a := by
  simp [writeFields, hs, hc]

/-- A cleared counter holds what this cycle counted (R48). -/
theorem clearCount_count (d : Dev) (a : Nat) (wide : Bool) :
    (d.clearCount a).count ⟨a, wide⟩ = tabGet (fun _ => 0) d.reg.justInc a :=
  tabGet_set_self _ _ _ _

/-- A write below the ports settles nothing first. -/
theorem settleFor_low {d : Dev} {a : Nat} (ha : a < 0x100000) : d.settleFor a = d := by
  rw [settleFor, if_neg (by omega), if_neg (by omega), if_neg (by rw [TBL_CTRL]; omega)]

/-- Below the ports, only CLK_RX_EN has something to follow a write. -/
theorem followUp_low {d : Dev} {a : Nat} (ha : a < 0x100000) (hrx : a ≠ CLK_RX_EN) : d.followUp a = d := by
  have hi : irqRegAt a = none := by rw [irqRegAt, if_pos (by rw [DMA_CH_SIZE]; omega)]
  have hl : gateListAt a = none := by rw [gateListAt, if_neg (by omega), if_neg (by omega)]
  have hg : gateAt a = none := by rw [gateAt, hl, gateRegsAt, if_neg (by omega), if_neg (by omega)]
  rw [followUp, hi, hg]
  simp only [if_neg hrx]
  exact if_neg (by omega)

/-- A plain write to an unoccupied offset below the ports changes nothing (R9). -/
theorem plainWrite_unoccupied {d : Dev} {p : Path} {a : Nat} {data : W32} (ha : a < 0x100000) (hc : counterAt a = none)
    (hr : regAt a = none) : d.plainWrite p a data = d := by
  have hrx : a ≠ CLK_RX_EN := by
    rintro rfl
    exact absurd hr (by decide +kernel)
  rw [plainWrite, if_neg (by rw [GLZ_KC_BASE]; omega), settleFor_low ha, writeFields_unoccupied hc hr, followUp_low ha hrx]

/-- No sub-port and no host link has registers below the ports. -/
theorem absentSub_low {d : Dev} {a : Nat} (ha : a < 0x100000) : d.absentSub a = false := by
  have hl : d.absentLink a = false := by
    rw [absentLink]
    exact if_neg (by omega)
  rw [absentSub, hl, if_neg Bool.false_ne_true, if_neg (by omega)]

end Dev

/-- Outside STO's window, a bus address is the register's own. -/
theorem busKey_low {a : Nat} (h : a < 0x1100000) : busKey a = a := by
  rw [busKey]
  exact if_neg (by omega)

/-- A write to the window of a port: one behind the port's reset in this cycle is discarded and counted, one before it is noted (R426). -/
theorem lands_window {d : Dev} {q : Path} {a : Nat} {data : W32} {f : Dev → Dev} (ht : d.severed .time = false)
    (ha : d.severed .aon = false) (h : 0x100000 ≤ a ∧ a < 0x200000) :
    d.lands q a data f =
      let m : Mark := .portReset ((a - 0x100000) / 0x10000)
      let y := f d
      if d.marked m then d.inc CLK_CNT_XING_DROP else if y.marked m then y else y.mark (.portWrite a (d.rd a)) := by
  have hb : d.behind a = false := by simp [Dev.behind, ht, ha]
  simp [Dev.lands, hb, h]

/-! ### Register writes by path -/

section
variable {s : State} {p : Path} (w : Fin 16777216) (data : W32)

/-- A register write is a plain write on its path. -/
theorem exec_registerWrite :
    exec (.registerWrite p w data) s = s.effect fun d => d.regWriteBy p (4 * w) data fun d => d.plainWrite p (busKey (4 * w)) data :=
  rfl

/-- On an open path it lands, unless it is held or dropped on its way. -/
theorem registerWrite_open (h : s.dev.alive = true) (hp : s.dev.pathOpen p = true) :
    exec (.registerWrite p w data) s =
      .next { s with dev := (s.dev.reach p).lands p (busKey (4 * w)) data fun d => d.plainWrite p (busKey (4 * w)) data } := by
  rw [exec_registerWrite, effect_alive h, Dev.regWriteBy, if_pos hp]

/-- On a path that the profile closes it changes nothing (R28). -/
theorem registerWrite_closed (h : s.dev.alive = true) (hp : s.dev.pathOpen p = false) (hl : Dev.pathLink p = none) :
    exec (.registerWrite p w data) s = .next s := by
  simp [exec_registerWrite, effect_alive h, Dev.regWriteBy, hp, hl]

/-- On the path of a link that carries no request to PF0 it is lost there (R31). -/
theorem registerWrite_lost (h : s.dev.alive = true) (hp : s.dev.pathOpen p = false) {l : Nat} (hl : Dev.pathLink p = some l) :
    exec (.registerWrite p w data) s = .next { s with dev := s.dev.lostWrite l 0 0 (4 * w) } := by
  simp [exec_registerWrite, effect_alive h, Dev.regWriteBy, hp, hl]

end

/-- Settles O1: a write lands by the rule of its window, and what lands is the plain write. -/
theorem registerWrites : Obligations.RegisterWrites := by
  refine ⟨fun s dv p w data h hw => ?_, fun s dv p w data h hlo hhi => ?_, fun s p w data ha hp hb => ?_,
    fun s dv p w data h hw hc hr => ?_, fun s p w data ha hp hl => ?_, fun s p l w data ha hp hl => ?_,
    fun d p a data wide hs hc => ?_⟩
  · obtain ⟨ha, hp, rfl, ht, hn⟩ := h
    rw [registerWrite_open w data ha hp, lands_plain ht hn (busKey_outside hw)]
  · obtain ⟨ha, hp, rfl, ht, hn⟩ := h
    rw [registerWrite_open w data ha hp, busKey_low (by omega), lands_window ht hn ⟨hlo, hhi⟩]
  · rw [registerWrite_open w data ha hp, Dev.lands, if_pos hb]
    rfl
  · obtain ⟨ha, hp, rfl, ht, hn⟩ := h
    have hk : busKey (4 * w.val) = 4 * w.val := busKey_low (by omega)
    rw [hk] at hc hr
    rw [registerWrite_open w data ha hp, lands_plain ht hn (busKey_outside (.inl hw)), hk,
      Dev.plainWrite_unoccupied hw hc hr]
  · exact registerWrite_closed w data ha hp hl
  · exact registerWrite_lost w data ha hp hl
  · rw [Dev.writeFields_counter hs hc, Dev.clearCount_count]

namespace Dev

/-! ### Reads with an effect -/

/-- A read of a counter's low half returns it and latches the high half (R47). -/
theorem regRead_counterLow {d : Dev} {a : Nat} (hs : (d.sample a).absentSub a = false) (hc : counterAt a = some (true, true)) :
    d.regRead a =
      let e := d.sample a
      let c := tabGet (fun _ => 0) e.reg.cnt a
      (c % 2 ^ 32, { e with reg := { e.reg with latch := tabSet (fun _ => 0) e.reg.latch a (c / 2 ^ 32) } }) := by
  simp [regRead, peek, readSide, hs, hc]

/-- A read of TIME_NOW_FRAC returns the fraction and latches the whole nanoseconds (R198). -/
theorem regRead_timeNowFrac (d : Dev) :
    d.regRead TIME_NOW_FRAC =
      let e := d.sample TIME_NOW_FRAC
      (e.time.net / 2 ^ 32 % 2 ^ 16, { e with time := { e.time with nowLatch := e.netNs } }) := by
  have hc : counterAt TIME_NOW_FRAC = none := by decide +kernel
  have hs (x : Dev) : x.absentSub TIME_NOW_FRAC = false := absentSub_low (by decide)
  simp only [regRead, peek, readSide, hs, hc, if_neg Bool.false_ne_true, if_pos]

/-- A read of TIME_PPS_IN_FRAC returns the fraction of the captured time and latches the rest (R198). -/
theorem regRead_timePpsInFrac (d : Dev) :
    d.regRead TIME_PPS_IN_FRAC =
      let e := d.sample TIME_PPS_IN_FRAC
      (e.time.ppsIn / 2 ^ 32 % 2 ^ 16, { e with time := { e.time with ppsLatch := e.time.ppsIn } }) := by
  have hc : counterAt TIME_PPS_IN_FRAC = none := by decide +kernel
  have hs (x : Dev) : x.absentSub TIME_PPS_IN_FRAC = false := absentSub_low (by decide)
  have h0 : TIME_PPS_IN_FRAC ≠ TIME_NOW_FRAC ∧ TIME_PPS_IN_FRAC ≠ TIME_NOW_NS ∧ TIME_PPS_IN_FRAC ≠ TIME_NOW_S_LO ∧
      TIME_PPS_IN_FRAC ≠ TIME_NOW_S_HI := by decide
  obtain ⟨h1, h2, h3, h4⟩ := h0
  simp only [regRead, peek, readSide, hs, hc, if_neg Bool.false_ne_true, if_neg h1, if_neg h2, if_neg h3, if_neg h4, if_pos]

/-! ### Lock-violation reports -/

/-- A report counted in GLB (R50, R503): VALID is set and CNT goes up. -/
def violCounted (d : Dev) : Dev := (d.setEvent GLB_LOCK_VIOL_SRC_VALID).inc GLB_LOCK_VIOL_CNT

theorem violCounted_valid (d : Dev) : d.violCounted.flag GLB_LOCK_VIOL_SRC_VALID = true :=
  flag_put_same d _ 1 (by decide)

theorem violCounted_count (d : Dev) : d.violCounted.count GLB_LOCK_VIOL_CNT = satAdd 32 (d.count GLB_LOCK_VIOL_CNT) 1 :=
  count_inc_same (d.setEvent GLB_LOCK_VIOL_SRC_VALID) GLB_LOCK_VIOL_CNT

theorem violCounted_offset (d : Dev) : d.violCounted.get GLB_LOCK_VIOL_ADDR_OFFSET = d.get GLB_LOCK_VIOL_ADDR_OFFSET :=
  get_put_addr d GLB_LOCK_VIOL_SRC_VALID _ 1 (by decide)

theorem violCounted_path (d : Dev) : d.violCounted.get GLB_LOCK_VIOL_SRC_PATH = d.get GLB_LOCK_VIOL_SRC_PATH :=
  get_put_bits d GLB_LOCK_VIOL_SRC_VALID _ 1 (by decide) (by decide)

/-- The report `r` shown in OFFSET and PATH. -/
def violShown (d : Dev) (r : ViolReport) : Dev := (d.put GLB_LOCK_VIOL_ADDR_OFFSET r.addr).put GLB_LOCK_VIOL_SRC_PATH r.path.code

theorem violShown_offset (d : Dev) (r : ViolReport) : (d.violShown r).get GLB_LOCK_VIOL_ADDR_OFFSET = r.addr % 2 ^ 26 := by
  rw [violShown, get_put_addr _ _ _ _ (by decide), get_put_same _ _ _ (by decide)]
  rfl

theorem violShown_path (d : Dev) (r : ViolReport) : (d.violShown r).get GLB_LOCK_VIOL_SRC_PATH = r.path.code := by
  rw [violShown, get_put_same _ _ _ (by decide)]
  cases r.path <;> rfl

/-- The oldest report taken from its crossing, and what is noted of the last one shown. -/
def violTaken (d : Dev) (rs : List ViolReport) (last : Option (Nat × Nat)) : Dev :=
  { d with reg := { d.reg with viol := rs, violLast := last } }

end Dev

section
variable {d : Dev} {r : ViolReport} {rs : List ViolReport} (hv : d.reg.viol = r :: rs)
include hv

/-- A report that no later path of its cycle stands before is shown (R50). -/
theorem doLockViolReport_last (hl : ∀ c q, d.reg.violLast = some (c, q) → c = Dev.nocOf d.cycle → q ≤ r.path.code) :
    doLockViolReport d = ((d.violTaken rs (some (Dev.nocOf d.cycle, r.path.code))).violShown r).violCounted := by
  cases h : d.reg.violLast with
  | none => simp only [doLockViolReport, hv, h]; rfl
  | some x =>
    have hb : (x.1 == Dev.nocOf d.cycle && decide (r.path.code < x.2)) = false := by
      simpa using hl x.1 x.2 h
    simp only [doLockViolReport, hv, h, hb]
    rfl

/-- A report of an earlier path than the one shown in its cycle is only counted (R50). -/
theorem doLockViolReport_behind {q : Nat} (hl : d.reg.violLast = some (Dev.nocOf d.cycle, q)) (hq : r.path.code < q) :
    doLockViolReport d = (d.violTaken rs (some (Dev.nocOf d.cycle, q))).violCounted := by
  simp only [doLockViolReport, hv, hl, hq, beq_self_eq_true, decide_true, Bool.and_self, if_true]
  rfl

end

/-! ### Bumps and abandoned items -/

namespace Dev

/-- A bump advances the number by one and is no longer pending; a saggar's is in its firing register (R34, R36). -/
theorem applyBump_saggar (d : Dev) (i : Nat) :
    (d.applyBump (.saggar i)).firing (.saggar i) = (d.firing (.saggar i) + 1) % 2 ^ 24 ∧
    (d.applyBump (.saggar i)).bumpPending (.saggar i) = false := by
  constructor
  · refine (get_put_bits _ (SAG_FIRING_BUMP_PENDING i) (SAG_FIRING_FIRING i) _ (by decide : 31 + 1 ≤ 32)
      (.inr (by decide : 0 + 24 ≤ 31))).trans ?_
    exact (get_put_same d (SAG_FIRING_FIRING i) _ (by decide : 0 + 24 ≤ 32)).trans (Nat.mod_mod _ _)
  · exact flag_put_same _ (SAG_FIRING_BUMP_PENDING i) _ (by decide : 31 + 1 ≤ 32)

/-- A bump begins the spacing anew (R36). -/
theorem applyBump_last (d : Dev) (o : Owner) : (d.applyBump o).lastBump o = some d.cycle := by
  rw [applyBump, lastBump, tabGet_set_self]
  cases o <;> rfl

end Dev

/-- A pending bump of a saggar whose 16 µs are over is applied, and its operations go on (R36). -/
theorem doBumpSpacingExpiry_due {d : Dev} {i : Fin 2048} {c : Nat} (hp : d.bumpPending (.saggar i) = true)
    (hl : d.lastBump (.saggar i) = some c) (hc : c + bumpSpacing ≤ d.cycle) :
    doBumpSpacingExpiry (.saggar i) d = (d.applyBump (.saggar i)).sagOpsGo := by
  simp only [doBumpSpacingExpiry, Owner.ofRef, hp, hl, hc, decide_true, Bool.and_self, if_true]
  rfl

/-- The oldest message of a thread channel leaves it 1 ms after it was sent, with no report (notes/assumptions/17). -/
theorem doItemResolveLimitExpiry_message {d : Dev} {i : Fin 8192} {c : Channel} {m : Flight} {ms : List Flight}
    (hc : d.channel i = some c) (hm : c.msgs = m :: ms) (ht : m.at_ + 3000000 ≤ d.cycle) :
    doItemResolveLimitExpiry (.message i) d = d.setChannel i (some { c with msgs := ms }) := by
  simp only [doItemResolveLimitExpiry, hc, hm, if_pos ht]

/-- Settles O3: each read returns and latches by its register, a report is shown or only counted, a due bump is applied, and a message
past its limit is dropped. That the drop is not reported is the model's choice (notes/assumptions/17). -/
theorem readEffectsAndOwners : Obligations.ReadEffectsAndOwners := by
  refine ⟨⟨fun s dv e p w h hs ha hc => ?_, fun s dv e p h hs => ?_, fun s dv e p h hs => ?_, fun s r rs halive hv hl => ?_,
    fun s r rs q halive hv hl hq => ?_⟩, fun s i c halive hp hl hc => ?_, fun s i c m ms halive hc hm ht => ?_⟩
  · subst hs
    exact does_read h rfl (by simp only [doCounterLowRead, hc, Dev.regRead_counterLow ha hc])
  · subst hs
    exact does_read h rfl (by simp only [doTimeNowFracRead, Dev.regRead_timeNowFrac])
  · subst hs
    exact does_read h rfl (by simp only [doTimePpsInFracRead, Dev.regRead_timePpsInFrac])
  · refine does_intro halive rfl ?_
    rw [doLockViolReport_last hv hl]
    exact ⟨(Dev.violCounted_offset _).trans (Dev.violShown_offset _ r), (Dev.violCounted_path _).trans (Dev.violShown_path _ r),
      Dev.violCounted_valid _, Dev.violCounted_count _, rfl⟩
  · refine does_intro halive rfl ?_
    rw [doLockViolReport_behind hv hl hq]
    exact ⟨Dev.violCounted_offset _, Dev.violCounted_path _, Dev.violCounted_valid _, Dev.violCounted_count _, rfl⟩
  · obtain ⟨hf, hb⟩ := s.dev.applyBump_saggar i
    exact does_intro halive rfl ⟨doBumpSpacingExpiry_due hp hl hc, hf, hb, s.dev.applyBump_last (.saggar i)⟩
  · exact does_intro halive rfl (doItemResolveLimitExpiry_message hc hm ht)

end Sys2Proof.Machine
end

section
/-!
PROOFS. Inline glaze frames and the registers of GLZ (O31): what starts on an inline engine, and the commands of the inline table.
-/

namespace Sys2Proof.Machine

/-! ### The start of an inline frame -/

/-- The device in whose cycle a frame of entry `xi` starts on engine `e`, the inline queue being `q` behind it: after a write of the entry
or its context in the cycle, and, for a transmit entry, after the invocations of lower engines (R271, R285). -/
def inlineTurn (d : Dev) (q : List Nat) (xi e : Nat) : Dev :=
  let w := (d.setGlz fun g => { g with inlineQ := q }).syncInline
  let b := (w.before (.ixtWrite xi)).before (.keyWrite (w.ixtEnt xi).kc)
  if (b.ixtEnt xi).isRx then b else b.turnInvoke (b.ixtEnt xi).kc e

/-- The run that frame `i` begins with entry `xi` on the device `t`, before anything of it is decided. -/
def inlineRun (t : Dev) (i xi : Nat) : GlzRun :=
  { work := .frame i xi, ctx := t.kctx (t.ixtEnt xi).kc, ent := t.ixtEnt xi, counter := none, near := false, bad := none,
    started := t.cycle, due := some t.cycle, cost := 0, wrote := 0, unt := false }

/-- Whether a transmit entry `x` does not fit a frame: one of ESP that is too short (R285; notes/assumptions/18). -/
def inlineShort (x : Ixt) (f : Frame) : Bool := !x.isRx && (decide (2 ≤ x.type) && decide (f.len - 4 < x.hdrOff + 32))

/-- The device with the lookup of context `c` in the cache counted (R268). -/
def kcLooked (t : Dev) (c : KeyCtx) : Dev := if c.cached then t else t.inc GLZ_CNT_KC_MISS

/-- The bound of the invocation values of an entry (R282, R283). -/
def inlineLim (x : Ixt) : Nat := if x.type = 0 ∧ x.xpn = false then 2 ^ 32 else 2 ^ 64

/-- The cycles of frame `f` with an entry and its context; those of MACsec rest on notes/assumptions/29. -/
def inlineCost (t : Dev) (xi : Nat) (f : Frame) : Nat :=
  Dev.inlineCycles (t.ixtEnt xi) (t.kctx (t.ixtEnt xi).kc) f.len f.bytes

/-- When the frame is over: known once the context is in the cache (R268). -/
def inlineDue (t : Dev) (xi : Nat) (f : Frame) : Option Nat :=
  let c := t.kctx (t.ixtEnt xi).kc
  if c.cached then some ((kcLooked t c).cycle + inlineCost t xi f) else none

/-- What frame `i` begins on engine `e`, in its turn. -/
def inlineBegin (t : Dev) (e i xi : Nat) (f : Frame) : Dev :=
  let x := t.ixtEnt xi
  let run := inlineRun t i xi
  if !t.ixtOk x then t.setGlzEng e (some { run with bad := some InlFail.entry.code })
  else if inlineShort x f then t.setGlzEng e (some { run with bad := some InlFail.format.code })
  else
    let v := kcLooked t (t.kctx x.kc)
    if x.isRx then v.setGlzEng e (some { run with due := inlineDue t xi f, cost := inlineCost t xi f })
    else match (v.mark (.invoked x.kc e)).takeCounter x.kc (inlineLim x) true with
      | (none, u) => u.setGlzEng e (some { run with bad := some InlFail.exhausted.code })
      | (some (n, near), u) =>
        u.setGlzEng e (some { run with counter := some n, near := near, due := inlineDue t xi f, cost := inlineCost t xi f })

/-- INLINE_START takes the first frame that waits to the lowest free inline engine (R270, R280). -/
theorem doInlineStart_begins {d : Dev} {e i xi : Nat} {q : List Nat} {f : Frame} {a : Actions} (he : d.freeGlz true = some e)
    (hq : d.inlineWaiting = i :: q) (hf : d.frame? i = some f) (ha : f.act = some a) (hx : a.xform = some xi) :
    doInlineStart d = inlineBegin (inlineTurn d q xi e) e i xi f := by
  generalize ht : inlineTurn d q xi e = t
  simp only [inlineTurn] at ht
  rcases hn : ((kcLooked t (t.kctx (t.ixtEnt xi).kc)).mark (.invoked (t.ixtEnt xi).kc e)).takeCounter (t.ixtEnt xi).kc
    (inlineLim (t.ixtEnt xi)) true with ⟨_ | ⟨n, near⟩, u⟩
  all_goals
    simp only [kcLooked, inlineLim] at hn
    simp only [doInlineStart, he, hq, hf, ha, hx, Option.getD_some, ht, hn, Bool.and_assoc, inlineBegin, inlineShort, inlineRun,
      kcLooked, inlineDue, inlineCost, inlineLim]

section
variable {t : Dev} {e i xi : Nat} {f : Frame}

/-- An entry that does not serve the frame (R281, R285). -/
theorem inlineBegin_badEntry (h : t.ixtOk (t.ixtEnt xi) = false) :
    inlineBegin t e i xi f = t.setGlzEng e (some { inlineRun t i xi with bad := some InlFail.entry.code }) := by
  simp only [inlineBegin, h, Bool.not_false, if_true]

variable (hok : t.ixtOk (t.ixtEnt xi) = true)
include hok

/-- A frame too short for its transform (R285; notes/assumptions/18). -/
theorem inlineBegin_short (h : inlineShort (t.ixtEnt xi) f = true) :
    inlineBegin t e i xi f = t.setGlzEng e (some { inlineRun t i xi with bad := some InlFail.format.code }) := by
  simp only [inlineBegin, hok, h, Bool.not_true, Bool.false_eq_true, if_false, if_true]

/-- A receive entry uses no invocation value (R271). -/
theorem inlineBegin_rx (h : (t.ixtEnt xi).isRx = true) :
    inlineBegin t e i xi f = (kcLooked t (t.kctx (t.ixtEnt xi).kc)).setGlzEng e
      (some { inlineRun t i xi with due := inlineDue t xi f, cost := inlineCost t xi f }) := by
  have hs : inlineShort (t.ixtEnt xi) f = false := by rw [inlineShort, h]; rfl
  simp only [inlineBegin, hok, hs, h, Bool.not_true, Bool.false_eq_true, if_false, if_true]

variable (hs : inlineShort (t.ixtEnt xi) f = false) (hr : (t.ixtEnt xi).isRx = false)
include hs hr

/-- A transmit entry takes the next invocation value of its context (R270). -/
theorem inlineBegin_tx {n : Nat} {near : Bool} {u : Dev}
    (h : ((kcLooked t (t.kctx (t.ixtEnt xi).kc)).mark (.invoked (t.ixtEnt xi).kc e)).takeCounter (t.ixtEnt xi).kc
      (inlineLim (t.ixtEnt xi)) true = (some (n, near), u)) :
    inlineBegin t e i xi f = u.setGlzEng e (some { inlineRun t i xi with
      counter := some n, near := near, due := inlineDue t xi f, cost := inlineCost t xi f }) := by
  simp only [inlineBegin, hok, hs, hr, h, Bool.not_true, Bool.false_eq_true, if_false]

/-- A context with no invocation value left (R270, R285). -/
theorem inlineBegin_exhausted {u : Dev}
    (h : ((kcLooked t (t.kctx (t.ixtEnt xi).kc)).mark (.invoked (t.ixtEnt xi).kc e)).takeCounter (t.ixtEnt xi).kc
      (inlineLim (t.ixtEnt xi)) true = (none, u)) :
    inlineBegin t e i xi f = u.setGlzEng e (some { inlineRun t i xi with bad := some InlFail.exhausted.code }) := by
  simp only [inlineBegin, hok, hs, hr, h, Bool.not_true, Bool.false_eq_true, if_false]

end

/-! ### The inline table and the registers -/

/-- A command of the inline table whose OP names it is executed on its entry (R281). -/
theorem doIxtCmd_named {op : Nat} {p : Path} {data : W32} {f : Dev → Nat → Dev} {d : Dev} (h : fieldGet data 24 3 = op) :
    doIxtCmd op p data f d = f (d.writeFields p GLZ_IND_CMD data) (fieldGet data 0 14) := if_pos h

/-- With BUF in set-up and every saggar FREE, no region stands in the way (R155). -/
theorem kcClash_free {d : Dev} (data : W32) (hb : d.leftSetup BUF_CTRL = false) (hs : d.liveSags = []) : d.kcClash data = false := by
  simp [Dev.kcClash, hb, hs]

/-- A saggar's HBM range that the region would meet stands in its way (R155, R366). -/
theorem kcClash_saggar {d : Dev} {data : W32} {sg : Nat} (hs : sg ∈ d.liveSags) (hp : d.get (SAG_HBM_PAGES_PAGES sg) ≠ 0)
    (hlo : d.get (SAG_HBM_BASE_BASE sg) * 2 ^ 21 < Nat.min 383 (fieldGet data 0 9) * 2 ^ 28 + 2 ^ 28)
    (hhi : Nat.min 383 (fieldGet data 0 9) * 2 ^ 28 < (d.get (SAG_HBM_BASE_BASE sg) + d.get (SAG_HBM_PAGES_PAGES sg)) * 2 ^ 21) :
    d.kcClash data = true := by
  rw [Nat.add_mul] at hhi
  have hn : d.get (SAG_HBM_PAGES_PAGES sg) * 2 ^ 21 ≠ 0 := by omega
  rw [Dev.kcClash, Bool.or_eq_true, List.any_eq_true]
  refine .inr ⟨sg, hs, ?_⟩
  simp only [decide_eq_true hlo, decide_eq_true hhi, Bool.true_and, bne_iff_ne]
  exact hn

/-- A write of GLZ_KC_BASE that nothing stands in the way of, or that the lock decides, is a write of the field. -/
theorem doGlzKcBaseWrite_written {d : Dev} {p : Path} {data : W32} (h : d.locked GLZ_CTRL = true ∨ d.kcClash data = false) :
    doGlzKcBaseWrite p data d = d.writeFields p GLZ_KC_BASE data := by
  refine if_neg ?_
  rcases h with h | h <;> simp [h]

/-- One that would meet a region in set-up is ignored (R155). -/
theorem doGlzKcBaseWrite_ignored {d : Dev} {p : Path} {data : W32} (hl : d.locked GLZ_CTRL = false) (hc : d.kcClash data = true) :
    doGlzKcBaseWrite p data d = d := if_pos (by rw [hl, hc]; rfl)

/-- A write of 1 to GLZ_CTRL.ENABLE locks the block (R46). -/
theorem doGlazeEnable_on {d : Dev} {p : Path} {data : W32} (h : fieldGet data 0 1 = 1) :
    doGlazeEnable p data d = ((d.writeFields p GLZ_CTRL data).put GLZ_CTRL_ENABLE 1).lock GLZ_CTRL := by
  simp only [doGlazeEnable, h, if_true]

/-- Settles O31: INLINE_START is `inlineBegin` on the device in its turn, each of whose branches has its equation; the commands of the table
and the writes of the two registers follow. That a transmit frame too short for ESP fails by its format is the model's choice
(notes/assumptions/18), and so are the data that MACsec's cycles count (notes/assumptions/29). -/
theorem glazeInlineAndTable : Obligations.GlazeInlineAndTable := by
  refine ⟨fun s e i xi q f a halive he hq hf ha hx => ?_, fun s dv p data e h hw => ?_, fun s dv p data h hl => ?_,
    fun s dv p data h hb hs => ?_, fun s dv p data sg h hl hs hp hlo hhi => ?_, fun s dv p data h hon => ?_⟩
  · have hstart : doInlineStart s.dev = inlineBegin (inlineTurn s.dev q xi e) e i xi f := doInlineStart_begins he hq hf ha hx
    exact ⟨fun h => does_intro halive rfl (hstart.trans (inlineBegin_badEntry h)),
      fun hok h => does_intro halive rfl (hstart.trans (inlineBegin_short hok h)),
      fun hok h => does_intro halive rfl (hstart.trans (inlineBegin_rx hok h)),
      fun n near u hok hs hr h => does_intro halive rfl (hstart.trans (inlineBegin_tx hok hs hr h)),
      fun u hok hs hr h => does_intro halive rfl (hstart.trans (inlineBegin_exhausted hok hs hr h))⟩
  · subst hw
    have hout : GLZ_IND_CMD < 0x100000 ∨ 0x200000 ≤ GLZ_IND_CMD := by decide
    exact ⟨fun hop => does_plain h hout rfl (doIxtCmd_named hop), fun hop => does_plain h hout rfl (doIxtCmd_named hop),
      fun hop => does_plain h hout rfl (doIxtCmd_named hop)⟩
  · exact does_plain h (by decide) rfl (doGlzKcBaseWrite_written (.inl hl))
  · exact does_plain h (by decide) rfl (doGlzKcBaseWrite_written (.inr (kcClash_free data hb hs)))
  · exact does_plain h (by decide) rfl (doGlzKcBaseWrite_ignored hl (kcClash_saggar hs hp hlo hhi))
  · exact does_plain h (by decide) rfl (doGlazeEnable_on hon)

end Sys2Proof.Machine
end

section
/-!
PROOFS. What a host link and the JTAG port receive (O35): an equation for each case of an inbound request, of a completion and of a
memory access.
-/

namespace Sys2Proof.Machine

/-! ### Memory requests -/

section
variable {d : Dev} {l : Fin 8} {addr : Nat} {dws : List (Option W32)} {x : Aux}

/-- A write that a BAR takes reaches it (R320). -/
theorem doInboundMemoryWrite_hit {f b off : Nat} {use : BarUse} (hn : dws ≠ []) (hc : d.carries l = true)
    (hh : d.barHit l (addr / 4 * 4) = some (f, b, off, use)) :
    doInboundMemoryWrite l addr dws false x d = (d.tlpOn l).inboundWrite l f b off use dws x := by
  simp [doInboundMemoryWrite, hn, hc, hh]

/-- A write on a link that is frozen or down is dropped; where no BAR takes it, it only counts (R327; notes/assumptions/19). -/
theorem doInboundMemoryWrite_dropped (hn : dws ≠ []) (hc : d.carries l = false) (hh : d.barHit l (addr / 4 * 4) = none) :
    doInboundMemoryWrite l addr dws false x d = d.dropInbound l none := by
  simp [doInboundMemoryWrite, hn, hc, hh]

end

section
variable {d : Dev} {l : Fin 8} (hu : d.linkUp l = true) (hl : (d.link l).inL23 = false)
include hu hl

/-- A link that is up, and not in L2/L3 Ready, takes what comes. -/
theorem takesTlp : ¬ (!d.linkUp l || (d.link l).inL23) = true := by simp [hu, hl]

/-- A read of up to 16 words of register space is answered with them (R317, R320). -/
theorem doInboundMemoryRead_registers {addr n f b off : Nat} (hf : (d.tlpOn l).frozen l = false)
    (hh : (d.tlpOn l).barHit l (addr / 4 * 4) = some (f, b, off, .registers)) (h0 : 0 < n) (h16 : n ≤ 16) :
    doInboundMemoryRead l addr (.read n) d =
      (Dev.inboundRead l f .registers n off (d.tlpOn l)).2.emit
        (.completion l 0 (Dev.inboundRead l f .registers n off (d.tlpOn l)).1) := by
  have hlen : ¬ (n = 0 || decide (16 < n)) = true := by simp; omega
  simp only [doInboundMemoryRead, if_neg (takesTlp hu hl), hf, hh, Bool.false_eq_true, if_false, if_neg hlen]

/-- A read on a frozen link is answered CA (R327). -/
theorem doInboundMemoryRead_frozen {addr n : Nat} (hf : (d.tlpOn l).frozen l = true) :
    doInboundMemoryRead l addr (.read n) d =
      ((d.tlpOn l).inc (HIF_CNT_ABORTED_READS (l.val / 4) (l.val % 4))).emit (.completion l 2 []) := by
  simp only [doInboundMemoryRead, if_neg (takesTlp hu hl), hf, if_true]

/-! ### Configuration requests and messages -/

/-- With the output gate shut, a configuration request is to be retried (R440). -/
theorem doConfigurationRequest_gateShut (f : Fin 2048) (bus : Fin 256) (r : CfgReq) (hg : (d.tlpOn l).gateOpen = false) :
    doConfigurationRequest l f bus r d = (d.tlpOn l).emit (.completion l 3 []) := by
  simp only [doConfigurationRequest, if_neg (takesTlp hu hl), hg, Bool.not_false, Bool.true_or, if_true]

/-- A configuration read of a live function is answered with what it reads (R320). -/
theorem doConfigurationRequest_read {f : Fin 2048} {bus : Fin 256} {x : CfgField} {k : FuncKind}
    (hg : (d.tlpOn l).gateOpen = true) (he : (d.tlpOn l).flag (HIF_CTRL_ENABLE (l.val / 4)) = true)
    (hk : (d.tlpOn l).funcAt l f = some k) (hf : (d.tlpOn l).funcLive l f = true) :
    doConfigurationRequest l f bus (.read x) d =
      ((d.tlpOn l).cfgRead l f k x).2.emit (.completion l 0 (leBytes 4 ((d.tlpOn l).cfgRead l f k x).1)) := by
  simp only [doConfigurationRequest, if_neg (takesTlp hu hl), hg, he, hk, hf, Bool.not_true, Bool.or_self, Bool.false_eq_true,
    if_false, if_true]

/-- PME_Turn_Off is acknowledged, and the link enters L2/L3 Ready (R324; notes/assumptions/19). -/
theorem doInboundMessage_pmeTurnOff :
    doInboundMessage l .pmeTurnOff d =
      (((d.tlpOn l).emit (.message l 0 .pmeToAck)).modLink l fun x => { x with inL23 := true }).put
        (HIF_LINK_STATUS_PM_STATE (l.val / 4) (l.val % 4)) 5 := by
  simp only [doInboundMessage, if_neg (takesTlp hu hl)]

end

/-! ### Completions -/

section
variable {d : Dev} {l : Fin 8} {tag : Nat} (ho : ((d.tlpOn l).link l).oldTags = [])
include ho

/-- A tag that is no read's is an unexpected completion, logged at function 0 (R321; notes/assumptions/19). -/
theorem doReadCompletion_unexpected {st : Cpl} {bytes : List Byte} (hr : (d.tlpOn l).readByTag l tag = none) :
    doReadCompletion l tag st bytes d = (d.tlpOn l).aerError l 0 16 true := by
  simp only [doReadCompletion, ho, hr, List.any_nil, Bool.false_eq_true, if_false]

variable {r : Read} (hr : (d.tlpOn l).readByTag l tag = some r)
include hr

section
variable {bytes : List Byte} (hb : bytes ≠ []) (hlen : r.got + bytes.length ≤ r.len) (ha : Dev.isAts r = false)
include hb hlen ha

/-- Data that a read still asks for: the read's number decides whether it is used (R38 to R40). -/
theorem doReadCompletion_data :
    doReadCompletion l tag .data bytes d =
      if (d.tlpOn l).readCurrent r = true then
        (d.tlpOn l).modDeng (r.chan / 256) fun x => { x with reads := x.reads.map fun y =>
          if y.tag = tag then { y with pieces := y.pieces ++ [bytes], got := y.got + bytes.length } else y }
      else (d.tlpOn l).discardPart r bytes.length false := by
  have htake : bytes.take (r.len - r.got) = bytes := List.take_of_length_le (by omega)
  have huse : ¬ (bytes.isEmpty || Dev.isAts r) = true := by simp [hb, ha]
  simp only [doReadCompletion, ho, hr, List.any_nil, Bool.false_eq_true, if_false, htake]
  refine (if_neg huse).trans ?_
  cases (d.tlpOn l).readCurrent r <;> rfl

end

/-- A failed completion of a read that carries an older number is discarded (R39, R40). -/
theorem doReadCompletion_staleFailure {st : Cpl} {bytes : List Byte} (hst : st = .ur ∨ st = .ca ∨ st = .poisoned)
    (hc : (d.tlpOn l).readCurrent r = false) :
    doReadCompletion l tag st bytes d = (d.tlpOn l).discardPart r 0 true := by
  rcases hst with rfl | rfl | rfl <;>
    simp only [doReadCompletion, ho, hr, hc, List.any_nil, Bool.false_eq_true, if_false]

end

/-- A read that has left its queue and is not whole fails at its timeout (R319). -/
theorem doCompletionTimeout_fails {d : Dev} {l : Fin 8} {tag : Nat} {r : Read} (hr : d.readByTag l tag = some r)
    (ho : (d.link l).oldTags = []) (hq : ∀ q ∈ (d.link l).outq, ∃ w, q = .write w) (hg : r.got ≠ r.len)
    (ht : r.issued + Dev.ctoUs (d.ctlFunc l (d.chFunc r.chan)).cto * 3000 ≤ d.cycle) :
    doCompletionTimeout l tag d = d.abandonRead r := by
  have hqueued : ((d.link l).outq.any fun q => match q with | .read _ t _ _ _ _ => t == tag | _ => false) = false := by
    refine List.any_eq_false.mpr fun q hmem => ?_
    obtain ⟨w, rfl⟩ := hq q hmem
    exact Bool.false_ne_true
  simp only [doCompletionTimeout, hr, ho, hg, Nat.not_lt.mpr ht, List.any_nil, decide_false, Bool.or_false]
  exact if_neg (Bool.eq_false_iff.mp hqueued)

/-- A read that is abandoned leaves its link's queue, where it is one of the host, and fails by its timeout. -/
theorem abandonRead_eq (d : Dev) (r : Read) :
    d.abandonRead r =
      let e := d.modLink (d.chLink r.chan) fun x => { x with
        outq := x.outq.filter fun q => match q with | .read _ t _ _ _ _ => t != r.tag | .write _ => true }
      (if Dev.hostRead r then e else d).readFailed r .timeout := by
  simp only [Dev.abandonRead]
  cases Dev.hostRead r <;> rfl

/-- The partner's acknowledgement ends the oldest write; one that carries no frame's data frees none (R328). -/
theorem doPostedWriteAck_oldest {d : Dev} {l : Fin 8} {w : PWrite} {rest : List PWrite} (hw : (d.link l).unacked = w :: rest)
    (hf : w.frame = none) :
    doPostedWriteAck l d = (d.modLink l fun x => { x with unacked := rest }).invalWrite l := by
  simp only [doPostedWriteAck, hw, hf]

/-! ### The JTAG port -/

section
variable {d : Dev} {a : Nat}

/-- A read of sound lines outside the key contexts is answered with their bytes (R249). -/
theorem doJtagMemoryAccess_read {n : Nat} (h0 : 0 < n) (hs : a + n ≤ hbmSize) (hr : d.retired a n = false) (hk : d.inKc a n = false)
    (hp : (d.ioRead a n).poisoned a n = false) :
    doJtagMemoryAccess (.read a n) d = (d.ioRead a n).emit (.jtag ((d.ioRead a n).hbmRead a n)) := by
  simp [doJtagMemoryAccess, Nat.ne_of_gt h0, Nat.not_lt.mpr hs, hr, hk, hp]

/-- A write outside the key contexts is one of the JTAG requester, whose place among the writes of a cycle is the model's choice
(R249; notes/assumptions/6). -/
theorem doJtagMemoryAccess_write {bs : List Byte} (hb : bs ≠ []) (hs : a + bs.length ≤ hbmSize) (hr : d.retired a bs.length = false)
    (hk : d.inKc a bs.length = false) : doJtagMemoryAccess (.write a bs) d = d.hbmWriteAs (5 * 64 + 34) a bs := by
  simp [doJtagMemoryAccess, hb, Nat.not_lt.mpr hs, hr, hk]

/-- The key contexts are out of reach (R263). -/
theorem doJtagMemoryAccess_keyContexts {r : JtagReq}
    (h : (∃ n, r = .read a n ∧ d.inKc a n = true) ∨ (∃ bs, r = .write a bs ∧ d.inKc a bs.length = true)) :
    doJtagMemoryAccess r d = d := by
  rcases h with ⟨n, rfl, hk⟩ | ⟨bs, rfl, hk⟩
  · exact if_pos (.inr (.inr (.inr hk)))
  · exact if_pos (.inr (.inr (.inr hk)))

end

/-- Settles O35, by the equation of each case. A write that no BAR takes, and an unexpected completion, are logged as the model chooses
(notes/assumptions/19), and so is the place of the JTAG requester in the order of writes (notes/assumptions/6). -/
theorem linkTraffic : Obligations.LinkTraffic := by
  refine ⟨fun s l addr dws x f b off use halive hn => ⟨fun hc hh => ?_, fun hc hh => ?_⟩,
    fun s l addr n f b off halive hu hl => ⟨fun hf hh h0 h16 => ?_, fun hf => ?_⟩,
    fun s l f bus r halive hu hl hg => ?_, fun s l f bus x k halive hu hl hg he hk hf => ?_,
    fun s l tag st bytes halive ho hr => ?_,
    fun s l tag bytes r halive ho hr hb hlen ha => ⟨fun hc => ?_, fun hc => ?_⟩,
    fun s l tag bytes st r halive hst ho hr hc => ?_, fun s l tag r halive hr ho hq hg ht => ?_,
    fun s l w rest halive hw hf => ?_, fun s l halive hu hl => ?_,
    fun s a n halive h0 hs hr hk hp => ?_, fun s a bs halive hb hs hr hk => ?_, fun s r a halive h => ?_⟩
  · exact does_intro halive rfl (doInboundMemoryWrite_hit hn hc hh)
  · exact does_intro halive rfl (doInboundMemoryWrite_dropped hn hc hh)
  · exact does_intro halive rfl (doInboundMemoryRead_registers hu hl hf hh h0 h16)
  · exact does_intro halive rfl (doInboundMemoryRead_frozen hu hl hf)
  · exact does_intro halive rfl (doConfigurationRequest_gateShut hu hl f bus r hg)
  · exact does_intro halive rfl (doConfigurationRequest_read hu hl hg he hk hf)
  · exact does_intro halive rfl (doReadCompletion_unexpected ho hr)
  · exact does_intro halive rfl ((doReadCompletion_data ho hr hb hlen ha).trans (if_pos hc))
  · exact does_intro halive rfl ((doReadCompletion_data ho hr hb hlen ha).trans (if_neg (Bool.eq_false_iff.mp hc)))
  · exact does_intro halive rfl (doReadCompletion_staleFailure ho hr hst hc)
  · exact does_intro halive rfl ((doCompletionTimeout_fails hr ho hq hg ht).trans (abandonRead_eq s.dev r))
  · exact does_intro halive rfl (doPostedWriteAck_oldest hw hf)
  · exact does_intro halive rfl (doInboundMessage_pmeTurnOff hu hl)
  · exact does_intro halive rfl (doJtagMemoryAccess_read h0 hs hr hk hp)
  · exact does_intro halive rfl (doJtagMemoryAccess_write hb hs hr hk)
  · exact does_intro halive rfl (doJtagMemoryAccess_keyContexts h)

end Sys2Proof.Machine
end

section
/-!
PROOFS. Saggar images and mailboxes (O40): the operations of SAG_CTRL on a saggar that accepts them, the rows that end a reset, a freeze
and a restore, and the four moves of a mailbox.
-/

namespace Sys2Proof.Machine

/-! ### SAVE and RESTORE -/

/-- The registers of the saggars lie above the windows of the ports. -/
theorem sagCtrl_outside (n : Nat) : SAG_CTRL n < 0x100000 ∨ 0x200000 ≤ SAG_CTRL n := by
  rw [SAG_CTRL]
  omega

theorem sagM2tTail_outside (n : Nat) : SAG_MBX_M2T_TAIL n < 0x100000 ∨ 0x200000 ≤ SAG_MBX_M2T_TAIL n := by
  rw [SAG_MBX_M2T_TAIL]
  omega

/-- An operation that the saggar accepts is executed with the write's ARG (R364). -/
theorem doSag_ready {dv e : Dev} {p : Path} {n : Nat} {data : W32} {op st : Nat} {states : List Nat} {f : Nat → Dev → Dev}
    (h : sagReady dv p n data op st e) (hst : states.contains st = true) :
    doSag op states p n data f dv = f (fieldGet data 0 12) e := by
  obtain ⟨rfl, hop, hb, hs⟩ := h
  simp only [doSag, hop, hb, hs, hst, ne_eq, not_true_eq_false, if_false, Bool.false_eq_true, Bool.not_true]

/-- SAVE of a frozen saggar with empty mailboxes begins, and waits while a job of the saggar runs (R379). -/
theorem doSagSave_ready {dv e : Dev} {p : Path} {n : Fin 2048} {data : W32} (h : sagReady dv p n data 6 3 e)
    (h1 : (e.sagOf n).t2mTail = (e.sagOf n).t2mHead) (h2 : (e.sagOf n).m2tTail = (e.sagOf n).m2tHead)
    (h3 : e.get (SAG_MBX_STATUS_M2T_DONE n) = e.get (SAG_MBX_M2T_TAIL_TAIL n))
    (h4 : e.get (SAG_MBX_STATUS_T2M_POSTED n) = e.get (SAG_MBX_T2M_HEAD_HEAD n))
    (hc : e.eventChan (e.get (SAG_IMG_CFG_CHANNEL n)) = true) :
    doSagSave p n data dv =
      if (e.sagBegin n 6 (fieldGet data 0 12)).jobsRun n = true then e.sagBegin n 6 (fieldGet data 0 12)
      else (e.sagBegin n 6 (fieldGet data 0 12)).saveNow n := by
  rw [doSagSave, doSag_ready h rfl]
  simp [h1, h2, h3, h4, hc]

/-- The device of a RESTORE with the saggar rebuilt from the image, in RESTORING until its bumps are done (R381, R382). -/
def sagRebuilt (r : Dev) (n arg : Nat) (img : List Byte) : Dev :=
  let t := (r.sagBegin n 7 arg).setSgState n 5
  (((t.createSag n).syncUsed n).loadSections n img ((t.kwkKey none (t.get (SAG_IMG_KWK_INDEX n))).getD [])).restoreBumps n

section
variable {dv e r : Dev} {p : Path} {n : Fin 2048} {data : W32} {host : List Byte} {a g len : Nat} {img : List Byte}
  (h : sagReady dv p n data 7 0 e) (ha : e.addr64 (SAG_IMG_ADDR_LO_ADDR n) (SAG_IMG_ADDR_HI_ADDR n) 4096 = a)
  (hlen : Nat.min (2 ^ 24) (Nat.max 4096 (fieldLE (e.fetchT a 4096 host) 24 4)) = len)
  (hr : e.ioReadT a 4096 = r) (hg : e.get (SAG_IMG_CFG_CHANNEL n) = g)
  (hev : r.eventChan g = true) (hrun : r.engRuns (g / 256) = true) (hall : r.tAllowed g a len = true)
  (himg : r.fetchT a len host = img)
include h ha hlen hr hg hev hrun hall himg

/-- RESTORE of a FREE saggar from an image that a check refuses ends with that check's result (R381). -/
theorem doSagRestore_refused {x : Nat} (hx : r.imgCheck n img = some x) : doSagRestore p n data host dv = r.sagEnd n x := by
  subst ha hlen hr hg himg
  rw [doSagRestore, doSag_ready h rfl]
  simp only [hev, hrun, hall, hx, Bool.and_self, Bool.not_true, Bool.false_eq_true, if_false]

/-- RESTORE of a FREE saggar from a good image, with the resources that it names (R381, R382). -/
theorem doSagRestore_good (hx : r.imgCheck n img = none) (hres : r.noResource n = false)
    (hch : (Dev.imgSection img 1).1 ≤ r.freeChans.length) (hf : r.badFunc n = false) :
    doSagRestore p n data host dv = (sagRebuilt r n (fieldGet data 0 12) img).sagOpGo n := by
  subst ha hlen hr hg himg
  rw [doSagRestore, doSag_ready h rfl]
  simp only [hev, hrun, hall, hx, hres, hf, Nat.not_lt.mpr hch, Bool.and_self, Bool.not_true, Bool.false_eq_true, or_self, if_false]
  rfl

end

/-- A RESTORE goes on once its bumps are done (R36, R381). -/
theorem sagOpGo_restore {d : Dev} {n g c : Nat} (h : (d.sagOf n).op = some (7, g, c)) :
    d.sagOpGo n = if d.sagBumped n = true then d.restored n else d := by
  simp only [Dev.sagOpGo, h]

/-- A freeze is reached once the saggar is quiet, and a function-level reset that waits for it begins (R376). -/
theorem doSagFrozenReached_quiet {d : Dev} {n : Fin 2048} (hs : d.sgState n = 2) (hq : d.sagQuiet n = true) :
    doSagFrozenReached n d =
      if (d.sagOf n).flrWaits = true then ((d.setSgState n 3).sagEnd n Dev.sgOk).sagResetStart n false
      else (d.setSgState n 3).sagEnd n Dev.sgOk := if_pos ⟨hs, hq⟩

/-! ### The mailboxes -/

/-- A tail of the tenant that runs on, and by no more than 16, is taken (R369). -/
theorem doSwT2mTail_taken {d : Dev} {n : Fin 2048} {data : W32} (hs : d.sgState n ≠ 0)
    (hv : (fieldGet data 0 16 + 65536 - (d.sagOf n).t2mHead) % 65536 ≤ 16)
    (ht : ((d.sagOf n).t2mTail + 65536 - (d.sagOf n).t2mHead) % 65536 ≤
      (fieldGet data 0 16 + 65536 - (d.sagOf n).t2mHead) % 65536) :
    doSwT2mTail n data d = d.modSag n fun x => { x with t2mTail := fieldGet data 0 16 } := by
  simp only [doSwT2mTail, if_neg hs]
  exact if_neg (by omega)

/-- Any other tail of the tenant is only counted (R369). -/
theorem doSwT2mTail_bad {d : Dev} {n : Fin 2048} {data : W32} (hs : d.sgState n ≠ 0)
    (h : 16 < (fieldGet data 0 16 + 65536 - (d.sagOf n).t2mHead) % 65536 ∨
      (fieldGet data 0 16 + 65536 - (d.sagOf n).t2mHead) % 65536 < ((d.sagOf n).t2mTail + 65536 - (d.sagOf n).t2mHead) % 65536) :
    doSwT2mTail n data d = d.inc (SAG_CNT_MBX_BAD n) := by
  simp only [doSwT2mTail, if_neg hs]
  exact if_pos h

/-- The device with a message of saggar `n` written to the manager's ring as its number `k`, before its interrupt (R370). -/
def t2mPosted (e : Dev) (n k : Nat) : Dev :=
  ((e.modSag n fun x => { x with t2mHead := (x.t2mHead + 1) % 65536 }).put (SAG_MBX_STATUS_T2M_POSTED n)
    ((k + 1) % 65536)).inc (SAG_CNT_MBX_T2M n)

/-- An announced message goes to the manager's ring, which has room, and PF0's vector is raised (R370). -/
theorem doMailboxT2mCopy_copies {d e : Dev} {n : Fin 2048} (hr : d.mbxRuns n = true) (hm : (d.sagOf n).t2mHead ≠ (d.sagOf n).t2mTail)
    (hroom : (d.get (SAG_MBX_STATUS_T2M_POSTED n) + 65536 - d.get (SAG_MBX_T2M_HEAD_HEAD n)) % 65536 < 16)
    (he : d.eventWrite (d.get (SAG_MBX_CFG_CHANNEL n))
      (d.addr64 (SAG_MBX_ADDR_LO_ADDR n) (SAG_MBX_ADDR_HI_ADDR n) 2048 + 64 * (d.get (SAG_MBX_STATUS_T2M_POSTED n) % 16))
      (overlay (Dev.slotBytes (d.sagOf n).t2m ((d.sagOf n).t2mHead % 16)) 4
        (leBytes 4 (d.get (SAG_MBX_STATUS_T2M_POSTED n) + n.val * 2 ^ 16 +
          (if d.get (SAG_MBX_STATUS_T2M_POSTED n) / 16 % 2 = 0 then 2 ^ 31 else 0)))) = some e) :
    doMailboxT2mCopy n d =
      let t := t2mPosted e n (d.get (SAG_MBX_STATUS_T2M_POSTED n))
      (t.msix (t.chLink (d.get (SAG_MBX_CFG_CHANNEL n))) 0 (t.get (SAG_MBX_CFG_VECTOR n))).2 := by
  simp only [doMailboxT2mCopy, hr, hm, Nat.not_le.mpr hroom, he, Bool.not_true, Bool.false_eq_true, or_self, if_false]
  rfl

/-- The device with the manager's tail written (R370). -/
def m2tAnnounced (d : Dev) (p : Path) (n : Nat) (data : W32) : Dev :=
  (d.writeFields p (SAG_MBX_M2T_TAIL n) data).put (SAG_MBX_M2T_TAIL_TAIL n) (fieldGet data 0 16)

/-- The manager's tail wakes the tenant's function where it announces something to a saggar that is not FREE (R323, R370). -/
theorem doSagMbxM2tTail_eq (d : Dev) (p : Path) (n : Fin 2048) (data : W32) :
    doSagMbxM2tTail p n data d =
      let t := m2tAnnounced d p n data
      if t.get (SAG_MBX_M2T_TAIL_TAIL n) = d.get (SAG_MBX_M2T_TAIL_TAIL n) ∨ t.sgState n = 0 then t
      else t.wakeSource (t.sagLink n) (t.sagFunc n) := rfl

/-- The device with the manager's message at `a` copied to slot `m2tTail` of the tenant, as the message number `k` (R370). -/
def m2tCopied (d : Dev) (n k a : Nat) (host : List Byte) : Dev :=
  let x := d.sagOf n
  (((d.modSag n fun y => { y with
    m2t := Dev.putSlot x.m2t (64 * (x.m2tTail % 16)) (d.fetchT a 64 host)
    m2tTail := (x.m2tTail + 1) % 65536 }).ioReadT a 64).put (SAG_MBX_STATUS_M2T_DONE n) ((k + 1) % 65536)).inc (SAG_CNT_MBX_M2T n)

/-- The tenant of saggar `n` is told of a message: by its interrupt, and by a wake-up where its function sleeps (R323, R370). -/
def m2tTold (t : Dev) (n : Nat) : Dev :=
  let l := t.sagLink n
  let f := t.sagFunc n
  let u := if (t.sagOf n).irqEn then (t.msix l f (t.sagOf n).vector).2 else t
  if (u.func l f).d3hot && !(u.func l f).pmeStatus then u.wakeSource l f else u

/-- A tenant that asks for no interrupt and does not sleep is told nothing. -/
theorem m2tTold_silent {t : Dev} {n : Nat} (hirq : (t.sagOf n).irqEn = false) (hd3 : (t.func (t.sagLink n) (t.sagFunc n)).d3hot = false) :
    m2tTold t n = t := by
  simp [m2tTold, hirq, hd3]

/-- A message of the manager goes to the tenant's slot, and the tenant is told (R370). -/
theorem doMailboxM2tCopy_copies {d : Dev} {n : Fin 2048} {host : List Byte} {a : Nat} (hr : d.mbxRuns n = true)
    (hk : d.get (SAG_MBX_STATUS_M2T_DONE n) ≠ d.get (SAG_MBX_M2T_TAIL_TAIL n))
    (hroom : ((d.sagOf n).m2tTail + 65536 - (d.sagOf n).m2tHead) % 65536 < 16)
    (hrun : d.engRuns (d.get (SAG_MBX_CFG_CHANNEL n) / 256) = true)
    (ha : d.addr64 (SAG_MBX_ADDR_LO_ADDR n) (SAG_MBX_ADDR_HI_ADDR n) 2048 + 1024 +
      64 * (d.get (SAG_MBX_STATUS_M2T_DONE n) % 16) = a)
    (hall : d.tAllowed (d.get (SAG_MBX_CFG_CHANNEL n)) a 64 = true) :
    doMailboxM2tCopy n host d = m2tTold (m2tCopied d n (d.get (SAG_MBX_STATUS_M2T_DONE n)) a host) n := by
  subst ha
  have hgo : ¬ (!d.mbxRuns n ∨ d.get (SAG_MBX_STATUS_M2T_DONE n) = d.get (SAG_MBX_M2T_TAIL_TAIL n) ∨
      16 ≤ ((d.sagOf n).m2tTail + 65536 - (d.sagOf n).m2tHead) % 65536 ∨ d.engRuns (d.get (SAG_MBX_CFG_CHANNEL n) / 256) = false ∨
      d.tAllowed (d.get (SAG_MBX_CFG_CHANNEL n)) (d.addr64 (SAG_MBX_ADDR_LO_ADDR n) (SAG_MBX_ADDR_HI_ADDR n) 2048 + 1024 +
        64 * (d.get (SAG_MBX_STATUS_M2T_DONE n) % 16)) 64 = false) := by
    simp [hr, hk, hroom, hrun, hall]
  exact if_neg hgo

/-- Settles O40: an operation that is accepted is its body, whose branches have their equations, and each row of the mailboxes is one
more. -/
theorem saggarImagesAndMailboxes : Obligations.SaggarImagesAndMailboxes := by
  refine ⟨⟨fun s dv p n data e h hready h1 h2 h3 h4 hc => ?_,
      fun s dv p n data host e r a g len img h hready ha hlen hr hg hev hrun hall himg => ?_,
      fun d n g c hop => ⟨fun hb => ?_, fun hb => ?_⟩, fun s n halive hs hb => ?_, fun s n halive hs hq => ?_⟩,
    fun s dv n data h hs => ⟨fun hv ht => ?_, fun hbad => ?_⟩, fun s n e halive hr hm hroom he => ?_,
    fun s dv p n data h => ⟨fun hq => ?_, fun hs hne => ?_⟩, fun s n host halive hr hk hroom hrun hall hirq hd3 => ?_⟩
  · exact does_plain h (sagCtrl_outside n) rfl (doSagSave_ready hready h1 h2 h3 h4 hc)
  · refine does_plain h (sagCtrl_outside n) rfl ?_
    cases hx : r.imgCheck n img with
    | some x => exact doSagRestore_refused hready ha hlen hr hg hev hrun hall himg hx
    | none =>
      intro hres hch hf
      exact doSagRestore_good hready ha hlen hr hg hev hrun hall himg hx hres hch hf
  · exact (sagOpGo_restore hop).trans (if_neg (Bool.eq_false_iff.mp hb))
  · exact (sagOpGo_restore hop).trans (if_pos hb)
  · exact does_intro halive rfl (if_pos ⟨hs, hb⟩)
  · exact does_intro halive rfl (doSagFrozenReached_quiet hs hq)
  · exact does_bar h rfl (doSwT2mTail_taken hs hv ht)
  · exact does_bar h rfl (doSwT2mTail_bad hs hbad)
  · exact does_intro halive rfl (doMailboxT2mCopy_copies hr hm hroom he)
  · exact does_plain h (sagM2tTail_outside n) rfl ((doSagMbxM2tTail_eq dv p n data).trans (if_pos hq.symm))
  · exact does_plain h (sagM2tTail_outside n) rfl ((doSagMbxM2tTail_eq dv p n data).trans (if_neg (not_or.mpr ⟨hne, hs⟩)))
  · exact does_intro halive rfl ((doMailboxM2tCopy_copies hr hk hroom hrun rfl hall).trans (m2tTold_silent hirq hd3))

end Sys2Proof.Machine
end

section
/-!
PROOFS. The indirect commands of STO and its enable (O45): an operation that is executed is its body, and an equation for each case of
each operation.
-/

namespace Sys2Proof.Machine

/-! ### What leaves the storage state -/

namespace Dev

@[simp] theorem markDirty_sto (d : Dev) (a n : Nat) : (d.markDirty a n).sto = d.sto := by
  refine foldl_keeps Dev.sto _ (fun e s => ?_) _ d
  dsimp only
  split_ifs <;> rfl

/-- Zeros written to the HBM leave the storage state. -/
theorem hbmZero_sto (d : Dev) (a n : Nat) : (d.hbmZero a n).sto = d.sto := by
  rw [hbmZero]
  split
  · rfl
  · exact markDirty_sto _ a n

theorem hbmZero_nsEnt (d : Dev) (a n i : Nat) : (d.hbmZero a n).nsEnt i = d.nsEnt i := by
  rw [nsEnt, hbmZero_sto, nsEnt]

end Dev

/-! ### The indirect operations -/

/-- The journal `j` of entry `i` zero-filled in the HBM behind its durable end, which is its end from then on (R411). -/
def jnlTakenBack (e : Dev) (i : Nat) (j : Journal) : Dev :=
  (e.hbmZero (e.nsAddr (e.nsEnt i) + j.durable.off) (j.high - j.durable.off)).modJnl i fun y =>
    { y with state := 0, high := j.durable.off }

section
variable {dv e : Dev} {p : Path} {data : W32} (hw : dv.writeFields p STO_IND_CMD data = e) (hb : e.flag STO_IND_STATUS_BUSY = false)
include hw hb

/-- An OP written while none runs is executed on its entry. -/
theorem stoIndirect_idle {op : Nat} (f : Dev → Nat → Dev) (h : fieldGet data 24 3 = op) :
    stoIndirect op p data f dv = f e (fieldGet data 0 12) := by
  subst hw
  exact if_neg (by simp [h, hb])

/-- READ_NS (R413). -/
theorem doReadNs_idle (h : fieldGet data 24 3 = 1) :
    doReadNs p data dv = (e.indFill (STO_IND_DATA 0) (Dev.nsWords (e.nsEnt (fieldGet data 0 12)))).stoEnd 0x00 :=
  stoIndirect_idle hw hb _ h

section
variable (old : List Byte) (ok : Bool) (h : fieldGet data 24 3 = 2)
include h

/-- WRITE_NS of an entry with reserved bits or fields out of range (R413). -/
theorem doWriteNs_bad (hbad : Dev.nsBad { e.nsEnt (fieldGet data 0 12) with cfg := Dev.fixBatch (e.bytesFrom 10) } = true) :
    doWriteNs p data old ok dv = e.stoEnd 0x0B :=
  (stoIndirect_idle hw hb _ h).trans (if_pos hbad)

/-- WRITE_NS of an invalid entry that stays invalid (R392, R413). -/
theorem doWriteNs_invalid (hbad : Dev.nsBad { e.nsEnt (fieldGet data 0 12) with cfg := Dev.fixBatch (e.bytesFrom 10) } = false)
    (hwas : (e.nsEnt (fieldGet data 0 12)).valid = false)
    (hnew : NsEnt.valid { e.nsEnt (fieldGet data 0 12) with cfg := Dev.fixBatch (e.bytesFrom 10) } = false) :
    doWriteNs p data old ok dv =
      ((e.cacheGone (fieldGet data 0 12)).setNs (fieldGet data 0 12) { e.nsEnt (fieldGet data 0 12) with
        cfg := Dev.fixBatch (e.bytesFrom 10), jnl := .reset, flag := false }).stoEnd 0x00 := by
  refine (stoIndirect_idle hw hb _ h).trans ?_
  simp only [hbad, hwas, hnew, Bool.false_eq_true, false_and, if_false, Bool.not_false, if_true]

end

/-- READ_TGT (R414). -/
theorem doReadTgt_idle (h : fieldGet data 24 3 = 3) (hi : fieldGet data 0 12 < 1024) :
    doReadTgt p data dv = (e.indFill (STO_IND_DATA 0) (Dev.wordsOf (e.tgtEnt (fieldGet data 0 12)) 16)).stoEnd 0x00 :=
  (stoIndirect_idle hw hb _ h).trans (if_neg (Nat.not_le.mpr hi))

/-- WRITE_TGT with its reserved bits 0: a TIMEOUT_S above 230 stores 230 (R414). -/
theorem doWriteTgt_good (h : fieldGet data 24 3 = 4) (hi : fieldGet data 0 12 < 1024)
    (h1 : bitsOf (fieldLE (e.bytesFrom 16) 40 4) 11 18 = 0) (h2 : bitsOf (fieldLE (e.bytesFrom 16) 40 4) 29 2 ≠ 3)
    (h3 : bitsOf (fieldLE (e.bytesFrom 16) 44 4) 20 12 = 0) :
    doWriteTgt p data dv =
      (e.setSto fun s => { s with
        tgt := tabSet (fun _ => tgtReset) s.tgt (fieldGet data 0 12)
          (overlay (e.bytesFrom 16) 56 (leBytes 2 (Nat.min 230 (fieldLE (e.bytesFrom 16) 56 2)))) }).stoEnd 0x00 := by
  refine (stoIndirect_idle hw hb _ h).trans ((if_neg (Nat.not_le.mpr hi)).trans (if_neg ?_))
  simp [h1, h2, h3]

/-- READ_CTL (R415). -/
theorem doReadCtl_idle (h : fieldGet data 24 3 = 5) (hi : fieldGet data 0 12 < 2048) :
    doReadCtl p data dv = (e.indFill (STO_IND_DATA 0) (Dev.wordsOf (e.nvme (fieldGet data 0 12)).cfg 4)).stoEnd 0x00 :=
  (stoIndirect_idle hw hb _ h).trans (if_neg (Nat.not_le.mpr hi))

section
variable (h : fieldGet data 24 3 = 6) (hi : fieldGet data 0 12 < 2048)
  (hlo : 1 ≤ bitsOf (fieldLE (e.bytesFrom 4) 0 4) 0 4) (hhi : bitsOf (fieldLE (e.bytesFrom 4) 0 4) 0 4 ≤ 8)
  (hr1 : bitsOf (fieldLE (e.bytesFrom 4) 0 4) 4 27 = 0) (hr2 : fieldLE (e.bytesFrom 4) 14 2 = 0)
include h hi hlo hhi hr1 hr2

/-- WRITE_CTL of a sound entry with 1 to 8 service threads: whether the controller is enabled, and whether it stays so, decides (R415). -/
theorem doWriteCtl_sound :
    doWriteCtl p data dv =
      if (e.nvme (fieldGet data 0 12)).enabled = true ∧ bitOf (fieldLE (e.bytesFrom 4) 0 4) 31 = true then
        e.stoEnd (if e.bytesFrom 4 = (e.nvme (fieldGet data 0 12)).cfg then 0x00 else 0x10)
      else if (e.nvme (fieldGet data 0 12)).enabled = true then
        (((e.ctlReset (fieldGet data 0 12)).dropChans (fieldGet data 0 12)).modNvme (fieldGet data 0 12) fun c =>
          { c with cfg := e.bytesFrom 4 }).stoEnd 0x00
      else if (bitOf (fieldLE (e.bytesFrom 4) 0 4) 31 && !e.isNvme (e.sagLink (fieldGet data 0 12)) (e.sagFunc (fieldGet data 0 12))) = true then
        e.stoEnd 0x12
      else
        let y := e.modNvme (fieldGet data 0 12) fun c => { c with cfg := e.bytesFrom 4 }
        (if bitOf (fieldLE (e.bytesFrom 4) 0 4) 31 = true then y.takeChans (fieldGet data 0 12) else y).stoEnd 0x00 := by
  have hthreads : ¬ bitsOf (fieldLE (e.bytesFrom 4) 0 4) 0 4 = 0 := by omega
  have hbad : ¬ (bitsOf (fieldLE (e.bytesFrom 4) 0 4) 4 27 ≠ 0 ∨ 8 < bitsOf (fieldLE (e.bytesFrom 4) 0 4) 0 4 ∨
      fieldLE (e.bytesFrom 4) 14 2 ≠ 0) := by omega
  refine (stoIndirect_idle hw hb _ h).trans ?_
  simp only [if_neg hthreads, if_neg (Nat.not_le.mpr hi), if_neg hbad]

/-- A change of an enabled entry is refused (R415). -/
theorem doWriteCtl_refused (hen : (e.nvme (fieldGet data 0 12)).enabled = true) (hset : bitOf (fieldLE (e.bytesFrom 4) 0 4) 31 = true)
    (hne : e.bytesFrom 4 ≠ (e.nvme (fieldGet data 0 12)).cfg) : doWriteCtl p data dv = e.stoEnd 0x10 := by
  rw [doWriteCtl_sound hw hb h hi hlo hhi hr1 hr2, if_pos ⟨hen, hset⟩, if_neg hne]

/-- Clearing ENABLE resets the controller and gives its channels back (R386, R415; notes/assumptions/34). -/
theorem doWriteCtl_disables (hen : (e.nvme (fieldGet data 0 12)).enabled = true)
    (hclr : bitOf (fieldLE (e.bytesFrom 4) 0 4) 31 = false) :
    doWriteCtl p data dv =
      (((e.ctlReset (fieldGet data 0 12)).dropChans (fieldGet data 0 12)).modNvme (fieldGet data 0 12) fun c =>
        { c with cfg := e.bytesFrom 4 }).stoEnd 0x00 := by
  rw [doWriteCtl_sound hw hb h hi hlo hhi hr1 hr2, hclr, if_neg (by simp), if_pos hen]

/-- A disabled entry that stays disabled is stored (R415). -/
theorem doWriteCtl_stores (hen : (e.nvme (fieldGet data 0 12)).enabled = false)
    (hclr : bitOf (fieldLE (e.bytesFrom 4) 0 4) 31 = false) :
    doWriteCtl p data dv = (e.modNvme (fieldGet data 0 12) fun c => { c with cfg := e.bytesFrom 4 }).stoEnd 0x00 := by
  simp [doWriteCtl_sound hw hb h hi hlo hhi hr1 hr2, hclr, hen]

/-- Setting ENABLE for an NVMe function takes the service's channels (R386, R415; notes/assumptions/34). -/
theorem doWriteCtl_enables (hen : (e.nvme (fieldGet data 0 12)).enabled = false)
    (hset : bitOf (fieldLE (e.bytesFrom 4) 0 4) 31 = true)
    (hf : e.isNvme (e.sagLink (fieldGet data 0 12)) (e.sagFunc (fieldGet data 0 12)) = true) :
    doWriteCtl p data dv =
      ((e.modNvme (fieldGet data 0 12) fun c => { c with cfg := e.bytesFrom 4 }).takeChans (fieldGet data 0 12)).stoEnd 0x00 := by
  simp [doWriteCtl_sound hw hb h hi hlo hhi hr1 hr2, hset, hen, hf]

end

section
variable (h : fieldGet data 24 3 = 7) (hv : (e.nsEnt (fieldGet data 0 12)).valid = true)
  (hj : (e.nsEnt (fieldGet data 0 12)).isJnl = true)
include h hv hj

/-- JOURNAL_SEAL of a journal that is not in FAULT: it ends at once where nothing is unsealed (R408). -/
theorem doJournalSeal_sound (hjop : fieldGet data 20 2 = 0) (hs : (e.nsEnt (fieldGet data 0 12)).jnl.state ≠ 2) :
    doJournalSeal p data dv =
      if (e.nsEnt (fieldGet data 0 12)).jnl.head.unsealed = 0 then e.stoEnd 0x00
      else ((e.setSto fun s => { s with op := some (fieldGet data 0 12, (e.nsEnt (fieldGet data 0 12)).jnl.head.seq) }).put
        STO_IND_STATUS_BUSY 1).startSeal (fieldGet data 0 12) := by
  have hop : ¬ (fieldGet data 20 2 ≠ 0 ∨ (e.nsEnt (fieldGet data 0 12)).valid = false ∨
      (e.nsEnt (fieldGet data 0 12)).isJnl = false) := by simp [hjop, hv, hj]
  rw [doJournalSeal, if_neg (by rw [hjop]; decide)]
  exact (stoIndirect_idle hw hb _ h).trans ((if_neg hop).trans (if_neg hs))

/-- JOURNAL_RESUME of a journal of the HBM in FAULT (R411). -/
theorem doJournalResume_fault (hjop : fieldGet data 20 2 = 1) (hs : (e.nsEnt (fieldGet data 0 12)).jnl.state = 2)
    (hm : (e.nsEnt (fieldGet data 0 12)).inHbm = true) :
    doJournalResume p data dv =
      (((jnlTakenBack e (fieldGet data 0 12) (e.nsEnt (fieldGet data 0 12)).jnl).setSto fun s => { s with
        op := some (fieldGet data 0 12, (e.nsEnt (fieldGet data 0 12)).jnl.durable.seq) }).put STO_IND_STATUS_BUSY 1).chainResume
          (fieldGet data 0 12) 2 := by
  have hop : ¬ ((e.nsEnt (fieldGet data 0 12)).valid = false ∨ (e.nsEnt (fieldGet data 0 12)).isJnl = false) := by simp [hv, hj]
  have hzero : (e.jnlZero (fieldGet data 0 12)).modJnl (fieldGet data 0 12) (fun j => { j with state := 0, high := j.durable.off }) =
      jnlTakenBack e (fieldGet data 0 12) (e.nsEnt (fieldGet data 0 12)).jnl := by
    simp only [Dev.jnlZero, hm, if_true, jnlTakenBack, Dev.modJnl, Dev.hbmZero_nsEnt]
  rw [doJournalResume, if_neg (by rw [hjop]; decide)]
  refine (stoIndirect_idle hw hb _ h).trans ((if_neg hop).trans ((if_neg (not_not.mpr hs)).trans ?_))
  dsimp only
  rw [hzero]

end
end

/-- A write of 1 to STO_CTRL.ENABLE locks the block (R46). -/
theorem doStorageEnable_on {d : Dev} {p : Path} {data : W32} (h : fieldGet data 0 1 = 1) :
    doStorageEnable p data d = ((d.writeFields p STO_CTRL data).put STO_CTRL_ENABLE 1).lock STO_CTRL := by
  simp only [doStorageEnable, h, if_true]

/-- Settles O45, by the equation of each operation. Which channels WRITE_CTL takes and gives back is the model's choice
(notes/assumptions/34). -/
theorem storageIndirect : Obligations.StorageIndirect := by
  refine ⟨fun s dv p data e h hw hb => ?_, fun s dv p data h hon => ?_⟩
  · have hout : keyBus STO_IND_CMD < 0x100000 ∨ 0x200000 ≤ keyBus STO_IND_CMD := by decide
    refine ⟨fun hop => ?_, fun old ok hop hbad => ?_, fun old ok hop hbad hwas hnew => ?_, fun hop hi => ?_,
      fun hop hi h1 h2 h3 => ?_, fun hop hi => ?_,
      fun hop hi hlo hhi hr1 hr2 => ⟨fun hen hset hne => ?_, fun hen hclr => ?_, fun hen hclr => ?_, fun hen hset hf => ?_⟩,
      fun hop hjop hv hj hs => ⟨fun hu => ?_, fun hu => ?_⟩, fun hop hjop hv hj hs hm => ?_⟩
    · exact does_plain h hout rfl (doReadNs_idle hw hb hop)
    · exact does_plain h hout rfl (doWriteNs_bad hw hb old ok hop hbad)
    · exact does_plain h hout rfl (doWriteNs_invalid hw hb old ok hop hbad hwas hnew)
    · exact does_plain h hout rfl (doReadTgt_idle hw hb hop hi)
    · exact does_plain h hout rfl (doWriteTgt_good hw hb hop hi h1 h2 h3)
    · exact does_plain h hout rfl (doReadCtl_idle hw hb hop hi)
    · exact does_plain h hout rfl (doWriteCtl_refused hw hb hop hi hlo hhi hr1 hr2 hen hset hne)
    · exact does_plain h hout rfl (doWriteCtl_disables hw hb hop hi hlo hhi hr1 hr2 hen hclr)
    · exact does_plain h hout rfl (doWriteCtl_stores hw hb hop hi hlo hhi hr1 hr2 hen hclr)
    · exact does_plain h hout rfl (doWriteCtl_enables hw hb hop hi hlo hhi hr1 hr2 hen hset hf)
    · exact does_plain h hout rfl ((doJournalSeal_sound hw hb hop hv hj hjop hs).trans (if_pos hu))
    · exact does_plain h hout rfl ((doJournalSeal_sound hw hb hop hv hj hjop hs).trans (if_neg hu))
    · exact does_plain h hout rfl (doJournalResume_fault hw hb hop hv hj hjop hs hm)
  · exact does_plain h (by decide) rfl (doStorageEnable_on hon)

end Sys2Proof.Machine
end

section
/-!
PROOFS. The Ethernet links (O4) and the acting fields of ETH_CTRL (O5): an equation for each event of a link and for each field, and
what they leave unchanged.
-/

namespace Sys2Proof.Machine
namespace Dev

/-! ### The sub-ports -/

theorem sub_modSub_same (d : Dev) (p : Nat) (g : SubPort → SubPort) : (d.modSub p g).sub p = g (d.sub p) :=
  tabGet_set_self _ _ _ _

theorem sub_put (d : Dev) (f : Fld) (v p : Nat) : (d.put f v).sub p = d.sub p := rfl

theorem loopback_congr {x d : Dev} {n : Nat} (h : x.rd (ETH_CTRL n) = d.rd (ETH_CTRL n)) : x.loopback n = d.loopback n := by
  have hg : x.get (ETH_CTRL_LOOPBACK n) = d.get (ETH_CTRL_LOOPBACK n) := congrArg (fieldGet · 4 2) h
  rw [loopback, loopback, hg]

/-- `x` differs from `d` in its registers and its sub-ports alone. -/
def DiffersInPorts (d x : Dev) : Prop := ∃ r t, x = { d with reg := r, eth := t }

namespace DiffersInPorts
variable {d x : Dev}

theorem refl (d : Dev) : d.DiffersInPorts d := ⟨d.reg, d.eth, rfl⟩

theorem put (h : d.DiffersInPorts x) (f : Fld) (v : Nat) : d.DiffersInPorts (x.put f v) := by
  obtain ⟨r, t, rfl⟩ := h
  exact ⟨_, t, rfl⟩

theorem setEvent (h : d.DiffersInPorts x) (f : Fld) : d.DiffersInPorts (x.setEvent f) := by
  obtain ⟨r, t, rfl⟩ := h
  exact ⟨_, t, rfl⟩

theorem modSub (h : d.DiffersInPorts x) (p : Nat) (g : SubPort → SubPort) : d.DiffersInPorts (x.modSub p g) := by
  obtain ⟨r, t, rfl⟩ := h
  exact ⟨r, _, rfl⟩

theorem eq (h : d.DiffersInPorts x) : x = { d with reg := x.reg, eth := x.eth } := by
  obtain ⟨r, t, rfl⟩ := h
  rfl

end DiffersInPorts

/-- The status bits and the event of a link that comes up (R58). -/
def linkRaised (d : Dev) (n i : Nat) : Dev :=
  (((d.put (ETH_SP_STATUS_LINK_UP n i) 1).put (ETH_SP_STATUS_LOCAL_FAULT n i) 0).put (ETH_SP_STATUS_REMOTE_FAULT n i) 0).setEvent
    (ETH_SP_EVENT_LINK_UP n i)

section
variable (d : Dev) (n i : Nat)

theorem status_ne_event : ETH_SP_STATUS n i ≠ ETH_SP_EVENT n i := by
  unfold ETH_SP_STATUS ETH_SP_EVENT
  omega

/-- The event of a link that comes up leaves its status register. -/
theorem linkRaised_status {f : Fld} (hf : f.addr = ETH_SP_STATUS n i) :
    (d.linkRaised n i).get f = (((d.put (ETH_SP_STATUS_LINK_UP n i) 1).put (ETH_SP_STATUS_LOCAL_FAULT n i) 0).put
      (ETH_SP_STATUS_REMOTE_FAULT n i) 0).get f := by
  rw [linkRaised, get_setEvent, get_put_addr _ (ETH_SP_EVENT_LINK_UP n i) f 1 (hf ▸ status_ne_event n i)]

theorem linkRaised_linkUp : (d.linkRaised n i).flag (ETH_SP_STATUS_LINK_UP n i) = true := by
  rw [flag, linkRaised_status d n i rfl, get_put_bits _ _ _ _ (by decide : 2 + 1 ≤ 32) (.inr (by decide : 0 + 1 ≤ 2)),
    get_put_bits _ _ _ _ (by decide : 1 + 1 ≤ 32) (.inr (by decide : 0 + 1 ≤ 1)), get_put_same _ _ _ (by decide : 0 + 1 ≤ 32)]
  rfl

theorem linkRaised_localFault : (d.linkRaised n i).flag (ETH_SP_STATUS_LOCAL_FAULT n i) = false := by
  rw [flag, linkRaised_status d n i rfl, get_put_bits _ _ _ _ (by decide : 2 + 1 ≤ 32) (.inr (by decide : 1 + 1 ≤ 2)),
    get_put_same _ _ _ (by decide : 1 + 1 ≤ 32)]
  rfl

theorem linkRaised_remoteFault : (d.linkRaised n i).flag (ETH_SP_STATUS_REMOTE_FAULT n i) = false := by
  rw [flag, linkRaised_status d n i rfl, get_put_same _ _ _ (by decide : 2 + 1 ≤ 32)]
  rfl

theorem linkRaised_event : (d.linkRaised n i).flag (ETH_SP_EVENT_LINK_UP n i) = true := by
  rw [linkRaised, flag_setEvent, flag_put_same _ _ _ (by decide : 1 + 1 ≤ 32)]
  rfl

theorem linkRaised_rd {a : Nat} (hs : a ≠ ETH_SP_STATUS n i) (he : a ≠ ETH_SP_EVENT n i) :
    (d.linkRaised n i).rd a = d.rd a := by
  rw [linkRaised, rd_setEvent, rd_put_ne _ _ _ he, rd_put_ne _ _ _ hs, rd_put_ne _ _ _ hs, rd_put_ne _ _ _ hs]

theorem linkRaised_loopback : (d.linkRaised n i).loopback n = d.loopback n := by
  refine loopback_congr (linkRaised_rd d n i ?_ ?_) <;> simp only [ETH_CTRL, ETH_SP_STATUS, ETH_SP_EVENT] <;> omega

theorem linkRaised_differs : d.DiffersInPorts (d.linkRaised n i) :=
  ((((DiffersInPorts.refl d).put _ _).put _ _).put _ _).setEvent _

/-- The end of a hold leaves every status bit but its own. -/
theorem holding_flag (f : Fld) (v : Nat) (h : f.lo + f.width ≤ 3 ∨ f.addr ≠ ETH_SP_STATUS n i) :
    (d.put (ETH_SP_STATUS_HOLDING n i) v).flag f = d.flag f := by
  rcases h with h | h
  · exact congrArg (· != 0) (get_put_bits d _ f v (by decide : 3 + 1 ≤ 32) (.inr h))
  · exact congrArg (· != 0) (get_put_addr d _ f v h)

end
end Dev

section
variable {n : Fin 16} {i : Fin 4} {d e : Dev} (he : d.before (.holdExpired (4 * n.val + i.val)) = e)
  (hrun : e.rxRuns n i = true) (hgate : e.flag BOOT_STATUS_GATE_OPEN = true) (hsev : e.severed (.rx n) = false)
  (htest : e.flag (RAS_LANE_TEST_RUN n) = false) (hdown : e.flag (ETH_SP_STATUS_LINK_UP n i) = false)
  (hsound : (e.sub (4 * n.val + i.val)).brokenAt + 30000 ≤ e.cycle)
include he hrun hgate hsev htest hdown hsound

/-- A link whose signals have been sound for 10 µs comes up; outside far-end loopback a hold in progress ends (R58, R69, R71). -/
theorem doLinkUp_sound :
    doLinkUp n i d =
      if e.loopback n = 2 then (e.linkRaised n i).modSub (4 * n.val + i.val) fun x => { x with everUp := true }
      else ((e.linkRaised n i).modSub (4 * n.val + i.val) fun x => { x with
        everUp := true, holdEnds := none, pastHold := false }).put (ETH_SP_STATUS_HOLDING n i) 0 := by
  subst he
  have hs : _ + 10 * cyUs ≤ _ := hsound
  rw [← Dev.linkRaised_loopback _ n i, doLinkUp]
  exact if_pos ⟨hrun, hgate, hsev, htest, hdown, hs⟩

end

/-- The line signals of a receive path that runs (R58, R504). -/
theorem doLinkDown_runs {n : Fin 16} {i : Fin 4} {d : Dev} (h : d.rxRuns n i = true) (align lock lf rf : Bool) :
    doLinkDown n i align lock lf rf d =
      let here := !align || !lock || lf
      let far := rf && !(d.loopback n == 1)
      let faults := d.flag (ETH_SP_STATUS_LOCAL_FAULT n i) || d.flag (ETH_SP_STATUS_REMOTE_FAULT n i)
      ((if here || far then d.linkFalls n i
        else if faults then d.modSub (4 * n.val + i.val) fun x => { x with brokenAt := d.cycle }
        else d).put (ETH_SP_STATUS_LOCAL_FAULT n i) (b2n here)).put (ETH_SP_STATUS_REMOTE_FAULT n i) (b2n far) := by
  rw [doLinkDown, if_pos h]

/-- While its receive path does not run, a sub-port shows no change of its line signals (R504). -/
theorem doLinkDown_stopped {n : Fin 16} {i : Fin 4} {d : Dev} (h : d.rxRuns n i = false) (align lock lf rf : Bool) :
    doLinkDown n i align lock lf rf d = d := by
  rw [doLinkDown, if_neg (by simp [h])]

/-- A hold that runs out with the link down, or in far-end loopback, begins the flush (R69, R71). -/
theorem doHoldExpiry_due {n : Fin 16} {i : Fin 4} {d : Dev} {e : Nat} (he : (d.sub (4 * n.val + i.val)).holdEnds = some e)
    (hc : e ≤ d.cycle) (hd : d.flag (ETH_SP_STATUS_LINK_UP n i) = false ∨ d.loopback n = 2) :
    doHoldExpiry n i d =
      (((((d.setEvent (ETH_SP_EVENT_HOLD_EXPIRED n i)).put (ETH_SP_STATUS_HOLDING n i) 0).put
        (ETH_SP_STATUS_FLUSHING n i) 1).modSub (4 * n.val + i.val) fun x =>
          { x with holdEnds := none, pastHold := true, flushEnds := some (d.cycle + 1) }).flushSub
            (4 * n.val + i.val)).mark (.holdExpired (4 * n.val + i.val)) := by
  simp only [doHoldExpiry, he]
  exact if_pos ⟨hc, hd⟩

/-- A flush whose time is over ends (R69). -/
theorem doFlushComplete_due {n : Fin 16} {i : Fin 4} {d : Dev} {e : Nat} (he : (d.sub (4 * n.val + i.val)).flushEnds = some e)
    (hc : e ≤ d.cycle) :
    doFlushComplete n i d =
      (d.modSub (4 * n.val + i.val) fun x => { x with flushEnds := none }).put (ETH_SP_STATUS_FLUSHING n i) 0 := by
  simp only [doFlushComplete, he]
  exact if_pos hc

theorem subPortsOf_le (m : Nat) : subPortsOf m ≤ 4 := by
  unfold subPortsOf
  split <;> decide

/-- With every link of the port down, the recovered clock that ran from a lane moves to the reference (R55, R420). -/
theorem doRxClkSwitch_allDown {n : Fin 16} {d : Dev} (hdown : ∀ i < 4, d.flag (ETH_SP_STATUS_LINK_UP n i) = false)
    (hsrc : d.get (CLK_RX_SRC_REF n) = 0) :
    doRxClkSwitch n d = (((d.put (CLK_RX_SRC_REF n) 1).put (CLK_RX_SRC_LANE n) 0).sever (.rx n)).inc CLK_CNT_RX_CLK_SWITCH := by
  have hup : ((d.subsOf n).find? fun i => d.flag (ETH_SP_STATUS_LINK_UP n i)) = none := by
    refine List.find?_eq_none.mpr fun i hi => ?_
    have hlt : i < 4 := (List.mem_range.mp hi).trans_le (subPortsOf_le _)
    simp [hdown i hlt]
  simp only [doRxClkSwitch, hup, hsrc]
  exact if_neg (by simp)

/-- Settles O4: each event of a link is its equation; of a link that comes up and of a flush that ends, the bits and the frame are read
off it. -/
theorem linkEvents : Obligations.LinkEvents := by
  refine ⟨fun s n i e ha he hrun hgate hsev htest hdown hsound => does_intro ha rfl ?_,
    fun s n i align lock lf rf ha hrun => does_intro ha rfl (doLinkDown_runs hrun align lock lf rf),
    fun s n i align lock lf rf ha hrun => does_intro ha rfl (doLinkDown_stopped hrun align lock lf rf),
    fun s n i e ha he hc hd => does_intro ha rfl (doHoldExpiry_due he hc hd),
    fun s n i e ha he hc => does_intro ha rfl ?_,
    fun s n ha hdown hsrc => does_intro ha rfl (doRxClkSwitch_allDown hdown hsrc)⟩
  · rw [doLinkUp_sound he hrun hgate hsev htest hdown hsound]
    split
    case isTrue hfar =>
      rw [Dev.sub_modSub_same]
      have hflag (f : Fld) := (e.linkRaised n i).modSub_flag (4 * n.val + i.val) (fun x => { x with everUp := true }) f
      exact ⟨(hflag _).trans (e.linkRaised_linkUp n i), (hflag _).trans (e.linkRaised_localFault n i),
        (hflag _).trans (e.linkRaised_remoteFault n i), (hflag _).trans (e.linkRaised_event n i), rfl,
        fun h => absurd hfar h, fun a hs hv => (Dev.modSub_rd _ _ _ a).trans (e.linkRaised_rd n i hs hv),
        ((e.linkRaised_differs n i).modSub _ _).eq⟩
    case isFalse hnear =>
      rw [Dev.sub_put, Dev.sub_modSub_same]
      refine ⟨?_, ?_, ?_, ?_, rfl, fun _ => ⟨?_, rfl, rfl⟩, fun a hs hv => ?_, (((e.linkRaised_differs n i).modSub _ _).put _ _).eq⟩
      · rw [Dev.holding_flag _ _ _ _ _ (.inl (by decide : 0 + 1 ≤ 3)), Dev.modSub_flag, Dev.linkRaised_linkUp]
      · rw [Dev.holding_flag _ _ _ _ _ (.inl (by decide : 1 + 1 ≤ 3)), Dev.modSub_flag, Dev.linkRaised_localFault]
      · rw [Dev.holding_flag _ _ _ _ _ (.inl (by decide : 2 + 1 ≤ 3)), Dev.modSub_flag, Dev.linkRaised_remoteFault]
      · rw [Dev.holding_flag _ _ _ _ _ (.inr (Dev.status_ne_event n i).symm), Dev.modSub_flag, Dev.linkRaised_event]
      · rw [Dev.flag_put_same _ _ _ (by decide : 3 + 1 ≤ 32)]
        rfl
      · rw [Dev.rd_put_ne _ _ _ hs, Dev.modSub_rd, Dev.linkRaised_rd _ _ _ hs hv]
  · rw [doFlushComplete_due he hc, Dev.sub_put, Dev.sub_modSub_same]
    refine ⟨?_, rfl, rfl, fun a h => ?_, (((Dev.DiffersInPorts.refl s.dev).modSub _ _).put _ _).eq⟩
    · rw [Dev.flag_put_same _ _ _ (by decide : 4 + 1 ≤ 32)]
      rfl
    · rw [Dev.rd_put_ne _ _ _ h, Dev.modSub_rd]

/-! ### The register ETH_CTRL -/

theorem ethCtrl_window (n : Fin 16) : 0x100000 ≤ ETH_CTRL n ∧ ETH_CTRL n < 0x200000 := by
  unfold ETH_CTRL
  omega

theorem ethCtrl_port (n : Nat) : (ETH_CTRL n - 0x100000) / 0x10000 = n := by
  unfold ETH_CTRL
  omega

theorem busKey_ethCtrl (n : Fin 16) : busKey (ETH_CTRL n) = ETH_CTRL n :=
  busKey_low ((ethCtrl_window n).2.trans (by decide))

theorem Dev.marked_mark_same (d : Dev) (m : Mark) : (d.mark m).marked m = true := by
  simp [marked, mark]

/-- A write of ETH_CTRL as the port sees it where no reset of this cycle came before: noted, unless it is a reset itself (R426). -/
def ctrlNoted (n : Nat) (dv y : Dev) : Dev :=
  if y.marked (.portReset n) then y else y.mark (.portWrite (ETH_CTRL n) (dv.rd (ETH_CTRL n)))

section
variable {c : Instr} {s : State} {p : Path} {n : Fin 16} {data : W32} {f : Dev → Dev} {dv : Dev}
  (h : Reaches s.dev p dv) (he : exec c s = s.regWrite p (ETH_CTRL n) data f)
include h he

theorem does_ethCtrl {y : Dev} (hm : dv.marked (.portReset n) = false) (hy : ctrlNoted n dv (f dv) = y) :
    Does c s fun d => d = y := by
  obtain ⟨-, -, -, ht, ha⟩ := id h
  have hl := lands_port (q := p) (data := data) (f := f) ht ha (ethCtrl_window n) (by rw [ethCtrl_port]; exact hm)
  rw [ethCtrl_port] at hl
  refine does_write h he ?_
  rw [busKey_ethCtrl, hl]
  exact hy

/-- Behind a reset of the port in the same cycle, a write of ETH_CTRL is discarded and counted (R426). -/
theorem does_ethCtrl_discarded (hm : dv.marked (.portReset n) = true) :
    Does c s fun d => d = dv.inc CLK_CNT_XING_DROP := by
  obtain ⟨-, -, -, ht, ha⟩ := id h
  refine does_write h he ?_
  rw [busKey_ethCtrl, lands_window ht ha (ethCtrl_window n), ethCtrl_port]
  exact if_pos hm

end

section
variable {p : Path} {n : Fin 16} {data : W32} {d : Dev}

/-- A port reset notes itself, so that its own write is none of those that it undoes (R426). -/
theorem doPortReset_marked (h : fieldGet data 31 1 = 1) : (doPortReset p n data d).marked (.portReset n) = true := by
  simp only [doPortReset, if_pos h]
  exact Dev.marked_mark_same _ _

/-- ENABLE written as 1 locks the set-up fields; a port that was off begins to align (R46, R504). -/
theorem doPortEnable_on (h : fieldGet data 0 1 = 1) :
    doPortEnable p n data d =
      let e := d.writeFields p (ETH_CTRL n) data
      let t := (e.put (ETH_CTRL_ENABLE n) 1).lock (ETH_CTRL n)
      (if e.get (ETH_CTRL_ENABLE n) = 1 then t else (List.range 4).foldl (fun d i => d.modSub (4 * n.val + i) fun x =>
        { x with brokenAt := d.cycle, ran := false }) t).syncPort n := by
  simp only [doPortEnable, h, if_true]

theorem doPortEnable_off (h : fieldGet data 0 1 = 0) :
    doPortEnable p n data d = ((d.writeFields p (ETH_CTRL n) data).put (ETH_CTRL_ENABLE n) 0).syncPort n := by
  simp only [doPortEnable, h, if_neg Nat.zero_ne_one]

/-- Outside a lane test, LOOPBACK takes effect at once (R71). -/
theorem doLoopbackChange_noTest (h : tabGet (fun _ => none) (d.writeFields p (ETH_CTRL n) data).ras.lane n = none) :
    doLoopbackChange p n data d = (d.writeFields p (ETH_CTRL n) data).setLoopback n (fieldGet data 4 2) := by
  simp only [doLoopbackChange, h]

/-- During a lane test, LOOPBACK is kept for its end (R466). -/
theorem doLoopbackChange_inTest {x : Nat × Nat} (h : tabGet (fun _ => none) (d.writeFields p (ETH_CTRL n) data).ras.lane n = some x) :
    doLoopbackChange p n data d =
      let e := d.writeFields p (ETH_CTRL n) data
      { e with ras := { e.ras with lane := tabSet (fun _ => none) e.ras.lane n (some (fieldGet data 4 2, x.2)) } } := by
  simp only [doLoopbackChange, h]

end

/-- Settles O5: a write of ETH_CTRL lands by the rule of its window, and each acting field is its equation. -/
theorem portControls : Obligations.PortControls := by
  refine ⟨fun s dv p n data h hm hr => does_ethCtrl h rfl hm ?_,
    fun s dv p n data h hm => ⟨fun hon => does_ethCtrl h rfl hm ?_, fun hoff => does_ethCtrl h rfl hm ?_,
      fun hl => does_ethCtrl h rfl hm ?_, fun x hl => does_ethCtrl h rfl hm ?_⟩,
    fun s dv p n data row h hm hrow => ?_⟩
  · exact (if_pos (doPortReset_marked hr)).trans (if_pos hr)
  · rw [doPortEnable_on hon, ctrlNoted]
  · rw [doPortEnable_off hoff, ctrlNoted]
  · rw [doLoopbackChange_noTest hl, ctrlNoted]
  · rw [doLoopbackChange_inTest hl, ctrlNoted]
  · rcases hrow with rfl | rfl | rfl <;> exact does_ethCtrl_discarded h rfl hm

end Sys2Proof.Machine
end

section
/-!
PROOFS. The queues (O14): the state that refutes the statement, a frame too long for its port on a queue that a receive channel serves.
-/

namespace Sys2Proof.Machine

/-- A frame of 1,519 bytes that has ended and is admitted to queue 0, store-and-forward. -/
def longFrame : Frame :=
  { Frame.new (.port 0) (List.replicate 1519 0#8) 0 0 with
    ended := true, stage := .admitted 0, act := some ⟨0, 0, .green, none⟩, cutThrough := some false }

/-- The state at reset with that frame in it, MAX_FRAME of port 0 at 1,518 and a receive channel that serves queue 0. -/
def servedState : State :=
  { State.reset with dev :=
    { (Dev.reset.put (ETH_MAX_FRAME_MAX_FRAME 0) 1518).setFrame 0 longFrame with dma := { DmaState.reset with rxServe := [(0, 0)] } } }

/-- The model discards the long frame: R61 and R343 exempt no queue from the length check. -/
theorem enqueue_servedState_discards {t : State} (h : exec (.enqueue 0) servedState = .next t) : t.dev.frame? 0 = none := by
  have ha : servedState.dev.alive = true := by decide +kernel
  have he : servedState.effect (doEnqueue 0) = .next t := h
  rw [effect_alive ha] at he
  cases he
  decide +kernel

/-- Refutes O14, in the clause of the enqueue: a store-and-forward frame longer than MAX_FRAME is discarded though a receive channel
serves its queue (R61), where the statement has it join the queue. -/
theorem not_queueRows : ¬ Obligations.QueueRows := by
  rintro ⟨-, henq, -⟩
  have hjoin := (henq servedState 0 0 0 longFrame ⟨0, 0, .green, none⟩ servedState.dev (by decide +kernel) (by decide +kernel)
    (by decide +kernel) rfl rfl (by decide +kernel) (by decide +kernel)).1
  obtain ⟨t, ht, -, hd⟩ := hjoin (.inr (by decide +kernel))
  have hgone := enqueue_servedState_discards ht
  rw [hd] at hgone
  exact absurd hgone (by decide +kernel)

end Sys2Proof.Machine
end

section
/-!
PROOFS. Parse instruction words (O9, O53): what the decoder answers of a word, as the operands' places in their format and their
legality, and the stores that it refuses.
-/

namespace Sys2Proof.Machine

/-! ### Opcodes -/

theorem opOfCode_codeOfOp (op : POp) : opOfCode (codeOfOp op) = some op := by
  cases op <;> rfl

theorem codeOfOp_lt (op : POp) : codeOfOp op < 64 := by
  cases op <;> decide

theorem codeOfOp_of_opOfCode {c : Nat} {op : POp} (h : opOfCode c = some op) : codeOfOp op = c := by
  unfold opOfCode at h
  split at h <;> cases h <;> rfl

/-! ### The places of the operands -/

/-- The operands that a format has no place for are 0, and the others lie in their places. -/
def PInstr.Fits (i : PInstr) : PFormat → Prop
  | .rr => i.rd < 16 ∧ i.ra < 16 ∧ i.rb < 16 ∧ i.imm = 0
  | .ri => i.rd < 16 ∧ i.ra < 16 ∧ i.rb = 0 ∧ i.imm < 65536
  | .j => i.rd < 16 ∧ i.ra = 0 ∧ i.rb = 0 ∧ i.imm < 4096
  | .t => i.rd < 32 ∧ i.ra = 0 ∧ i.rb = 0 ∧ i.imm < 65536

/-- Bits 25:0 of an instruction's word. -/
def operandBits (i : PInstr) : PFormat → Nat
  | .rr => i.rd * 2 ^ 22 + i.ra * 2 ^ 18 + i.rb * 2 ^ 14
  | .ri => i.rd * 2 ^ 22 + i.ra * 2 ^ 18 + i.imm
  | .j => i.rd * 2 ^ 22 + i.imm
  | .t => i.rd * 2 ^ 21 + i.imm

theorem PInstr.wf_iff (i : PInstr) : i.wf = true ↔ operandsLegal i = true ∧ i.Fits (formatOf i.op) := by
  unfold PInstr.wf PInstr.Fits
  cases formatOf i.op <;> simp [and_assoc]

theorem operandBits_lt {i : PInstr} {f : PFormat} (h : i.Fits f) : operandBits i f < 2 ^ 26 := by
  cases f
  all_goals
    simp only [PInstr.Fits] at h
    simp only [operandBits]
    omega

theorem encodeParse_eq (i : PInstr) :
    encodeParse i = BitVec.ofNat 32 (codeOfOp i.op * 2 ^ 26 + operandBits i (formatOf i.op)) := by
  unfold encodeParse operandBits
  cases formatOf i.op <;> simp only [Nat.add_assoc]

/-- The word of operands that fit is the opcode above them. -/
theorem encodeParse_toNat {i : PInstr} (h : i.Fits (formatOf i.op)) :
    (encodeParse i).toNat = codeOfOp i.op * 2 ^ 26 + operandBits i (formatOf i.op) := by
  have hc := codeOfOp_lt i.op
  have hb := operandBits_lt h
  rw [encodeParse_eq, BitVec.toNat_ofNat, Nat.mod_eq_of_lt (by omega)]

/-- The fields of a word are the operands that were put in it. -/
theorem fieldsOf_operandBits {i : PInstr} {f : PFormat} (c : Nat) (h : i.Fits f) :
    fieldsOf f i.op (c * 2 ^ 26 + operandBits i f) = some i := by
  obtain ⟨op, rd, ra, rb, imm⟩ := i
  cases f
  all_goals
    simp only [PInstr.Fits] at h
    simp only [fieldsOf, Option.ite_none_right_eq_some, Option.some.injEq, PInstr.mk.injEq, true_and]
    simp only [operandBits, bitsOf]
    omega

/-- Operands read from a word fit, and the word is the opcode above them. -/
theorem fieldsOf_some {f : PFormat} {op : POp} {n : Nat} {i : PInstr} (hn : n < 2 ^ 32) (h : fieldsOf f op n = some i) :
    i.op = op ∧ i.Fits f ∧ n = bitsOf n 26 6 * 2 ^ 26 + operandBits i f := by
  cases f
  all_goals
    simp only [fieldsOf, Option.ite_none_right_eq_some, Option.some.injEq] at h
    obtain ⟨hzero, rfl⟩ := h
    simp only [bitsOf] at hzero
    simp only [PInstr.Fits, operandBits, bitsOf, true_and, and_true]
    omega

/-! ### The decoder -/

/-- A word decodes to an instruction exactly where its opcode is the operation's, its fields are the operands, and these are legal
(R83). -/
theorem decodeParse_eq_some {w : W32} {i : PInstr} :
    decodeParse w = some i ↔
      ∃ op, opOfCode (bitsOf w.toNat 26 6) = some op ∧ fieldsOf (formatOf op) op w.toNat = some i ∧ operandsLegal i = true := by
  unfold decodeParse
  split
  case h_1 hop => simp [hop]
  case h_2 op hop =>
    split
    case h_1 hf => simp [hop, hf]
    case h_2 j hf =>
      rw [Option.ite_none_right_eq_some]
      constructor
      · rintro ⟨hl, hj⟩
        cases hj
        exact ⟨op, hop, hf, hl⟩
      · rintro ⟨op', hop', hf', hl⟩
        cases hop.symm.trans hop'
        cases hf.symm.trans hf'
        exact ⟨hl, rfl⟩

/-- The word of operands that fit decodes to them where they are legal, and else not at all. -/
theorem decodeParse_encodeParse {i : PInstr} (h : i.Fits (formatOf i.op)) :
    decodeParse (encodeParse i) = if operandsLegal i = true then some i else none := by
  have hb := operandBits_lt h
  have hc := codeOfOp_lt i.op
  have hcode : bitsOf (encodeParse i).toNat 26 6 = codeOfOp i.op := by
    rw [encodeParse_toNat h, bitsOf]
    omega
  have hfields : fieldsOf (formatOf i.op) i.op (encodeParse i).toNat = some i := by
    rw [encodeParse_toNat h, fieldsOf_operandBits _ h]
  simp only [decodeParse, hcode, opOfCode_codeOfOp, hfields]

/-- What decodes is well formed, and is encoded by the word that it was read from. -/
theorem decodeParse_sound {w : W32} {i : PInstr} (h : decodeParse w = some i) : i.wf = true ∧ encodeParse i = w := by
  obtain ⟨op, hop, hf, hl⟩ := decodeParse_eq_some.mp h
  obtain ⟨rfl, hfits, hw⟩ := fieldsOf_some w.isLt hf
  refine ⟨i.wf_iff.mpr ⟨hl, hfits⟩, BitVec.eq_of_toNat_eq ?_⟩
  rw [encodeParse_toNat hfits, codeOfOp_of_opOfCode hop, ← hw]

/-- Settles O9: the decoder inverts the encoder on operands that fit their format, and the fields of a word put it together again. -/
theorem parseEncodingRoundTrip : Obligations.ParseEncodingRoundTrip := by
  refine ⟨fun i hwf => ?_, fun w i => decodeParse_sound⟩
  obtain ⟨hl, hfits⟩ := i.wf_iff.mp hwf
  rw [decodeParse_encodeParse hfits, if_pos hl]

/-! ### Stores to the record words -/

/-- A store that decodes names a record word of 2 or more (R89). -/
theorem recordWord_of_legal {i : PInstr} (h : operandsLegal i = true) : (i.op = .st → 2 ≤ i.imm) ∧ (i.op = .sti → 2 ≤ i.rd) := by
  constructor <;> intro hop <;> simp only [operandsLegal, hop, Bool.and_eq_true, decide_eq_true_eq] at h
  · exact h.1.2
  · exact h

/-- The word of ST to record word 0 or 1 does not decode (R89). -/
theorem decodeParse_st_none {i : PInstr} (hop : i.op = .st) (hd : i.rd < 16) (ha : i.ra < 16) (hm : i.imm < 2) :
    decodeParse (encodeParse i) = none := by
  have he : encodeParse i = encodeParse { i with rb := 0 } := by simp only [encodeParse, hop, formatOf]
  have hfits : PInstr.Fits { i with rb := 0 } (formatOf i.op) := by
    rw [hop]
    exact ⟨hd, ha, rfl, by show i.imm < _; omega⟩
  rw [he, decodeParse_encodeParse hfits, if_neg fun hl => ?_]
  exact absurd ((recordWord_of_legal hl).1 hop) (Nat.not_le.mpr hm)

/-- The word of STI to record word 0 or 1 does not decode (R89). -/
theorem decodeParse_sti_none {i : PInstr} (hop : i.op = .sti) (hd : i.rd < 2) (hm : i.imm < 65536) :
    decodeParse (encodeParse i) = none := by
  have he : encodeParse i = encodeParse { i with ra := 0, rb := 0 } := by simp only [encodeParse, hop, formatOf]
  have hfits : PInstr.Fits { i with ra := 0, rb := 0 } (formatOf i.op) := by
    rw [hop]
    exact ⟨by show i.rd < _; omega, rfl, rfl, hm⟩
  rw [he, decodeParse_encodeParse hfits, if_neg fun hl => ?_]
  exact absurd ((recordWord_of_legal hl).2 hop) (Nat.not_le.mpr hd)

section
variable {α : Type} {n i j : Nat} (v : Vector α n) (a b : α)

/-- The last of several writes stands. -/
theorem vset_vset : vset (vset v i a) i b = vset v i b := by
  ext k hk
  simp only [vset, Vector.getElem_setIfInBounds]
  split <;> rfl

theorem getD_vset_same (h : i < n) : (vset v i a).getD i b = a := by
  simp [vset, Vector.getD, h]

theorem getD_vset_ne (h : j ≠ i) : (vset v i a).getD j b = v.getD j b := by
  simp [vset, Vector.getD, Ne.symm h]

end

section
variable {d : Dev} {k : Fin 8} {e : Fin 64} {x : Engine} (hx : d.eng k e = some x) (hs : x.stalledFrom = none)
  (hc : x.nextAt ≤ d.cycle) (hn : x.n < d.get (PL_PARSE_CTRL_BUDGET k))
include hx hs hc hn

/-- An engine that fetches an illegal word ends its parse (R83). -/
theorem doIllegalInstruction_illegal (hb : d.imemIsBad k x.pc = false) (hw : decodeParse (d.fetchWord k x.pc) = none) :
    doIllegalInstruction k e d = d.endParse k e x (some .illegal) 0 := by
  simp [doIllegalInstruction, hx, hs, hc, hn, hb, hw]

/-- An engine that fetches an uncorrectable word ends its parse, whatever the word says (R91). -/
theorem doIllegalInstruction_unsound (hb : d.imemIsBad k x.pc = true) :
    doIllegalInstruction k e d = d.endParse k e x (some .imem) 0 := by
  simp [doIllegalInstruction, hx, hs, hc, hn, hb]

end

/-- Settles O53: a store to record word 0 or 1 has no legal word, so that an engine meets it as an illegal instruction, and a record
word is an element of a vector. -/
theorem recordWordStores : Obligations.RecordWordStores := by
  refine ⟨fun w i h => ?_, fun s k e x i ha hx hs hc hn hb hw hi => ?_, fun ws a b i j hi hj => ?_⟩
  · obtain ⟨op, -, -, hl⟩ := decodeParse_eq_some.mp h
    exact recordWord_of_legal hl
  · have hnone : decodeParse (s.dev.fetchWord k x.pc) = none := by
      rw [hw]
      obtain ⟨hop, hd, hra, hm⟩ | ⟨hop, hd, hm⟩ := hi
      · exact decodeParse_st_none hop hd hra hm
      · exact decodeParse_sti_none hop hd hm
    exact does_intro ha rfl (doIllegalInstruction_illegal hx hs hc hn hb hnone)
  · exact ⟨vset_vset ws a b, getD_vset_same ws a _ hi, getD_vset_ne ws a _⟩

end Sys2Proof.Machine
end

section
/-!
PROOFS. The parse engines (O52, O7, O8): what an instruction leaves in its engine, how a load is decided, and an equation for each row
that is no instruction.
-/

namespace Sys2Proof.Machine

/-! ### Engines -/

namespace Engine
variable (x : Engine) (r : Nat) (v : W16)

theorem wr_eq : x.wr r v = { x with g := (x.wr r v).g } := by
  unfold wr
  split <;> rfl

@[simp] theorem wr_n : (x.wr r v).n = x.n := by rw [wr_eq]
@[simp] theorem wr_pc : (x.wr r v).pc = x.pc := by rw [wr_eq]
@[simp] theorem wr_words : (x.wr r v).words = x.words := by rw [wr_eq]
@[simp] theorem wr_stalls : (x.wr r v).stalls = x.stalls := by rw [wr_eq]

theorem rd_wr_same {x : Engine} {r : Nat} {v : W16} (h0 : r ≠ 0) (h : r < 16) : (x.wr r v).rd r = v := by
  simp [wr, rd, h0, h, vset, Vector.getD]

/-- The engine as its load is decided in cycle `c`: the cycles that it has waited are stall cycles (R80). -/
def resumed (c : Nat) : Engine :=
  match x.stalledFrom with
  | some (a, _) => { x with stalls := x.stalls + (c - a), stalledFrom := none }
  | none => x

theorem resumed_running {x : Engine} (h : x.stalledFrom = none) (c : Nat) : x.resumed c = x := by
  rw [resumed, h]

theorem resumed_stalled {x : Engine} {a : Nat} {w : W32} (h : x.stalledFrom = some (a, w)) (c : Nat) :
    x.resumed c = { x with stalls := x.stalls + (c - a), stalledFrom := none } := by
  rw [resumed, h]

theorem resumed_eq (c : Nat) :
    x.resumed c = { x with stalls := (x.resumed c).stalls, stalledFrom := (x.resumed c).stalledFrom } := by
  unfold resumed
  split <;> rfl

@[simp] theorem resumed_n (c : Nat) : (x.resumed c).n = x.n := by rw [resumed_eq]
@[simp] theorem resumed_pc (c : Nat) : (x.resumed c).pc = x.pc := by rw [resumed_eq]
@[simp] theorem resumed_words (c : Nat) : (x.resumed c).words = x.words := by rw [resumed_eq]
@[simp] theorem resumed_rd (c : Nat) : (x.resumed c).rd r = x.rd r := by
  rw [resumed_eq]
  rfl

end Engine

/-! ### The end of an instruction -/

/-- An instruction before word 0xFFF counts, and PC moves to the next word (R85). -/
theorem Dev.retire_next {d : Dev} {k e : Nat} {x y : Engine} (hn : y.n = x.n) (hp : y.pc = x.pc) (hpc : x.pc ≠ 0xFFF) :
    d.retire k e y =
      d.setEng k e (some { y with n := x.n + 1, nextAt := d.cycle + 1, stalledFrom := none, pc := x.pc + 1 }) := by
  rw [← hp] at hpc ⊢
  rw [← hn]
  exact if_neg hpc

/-- An engine that has an instruction to execute does not wait. -/
theorem Dev.nextInstr_running {d : Dev} {k e : Nat} {x : Engine} {i : PInstr} (h : d.nextInstr k e = some (x, i)) :
    x.stalledFrom = none := by
  unfold Dev.nextInstr at h
  split at h
  · cases h
  · split at h
    case isTrue hc =>
      obtain ⟨j, -, hj⟩ := Option.map_eq_some_iff.mp h
      cases hj
      exact Option.isNone_iff_eq_none.mp hc.1
    case isFalse => cases h

section
variable {s : State} {k : Fin 8} {e : Fin 64} {x : Engine} {i : PInstr} {op : POp} {row : Instr} (ha : s.dev.alive = true)
  (h : s.dev.nextInstr k e = some (x, i)) (hop : i.op = op) (he : exec row s = s.effect (doParse op k e))
include ha h hop he

/-- The row of the operation that an engine has fetched executes it. -/
theorem does_parse {p : Dev → Prop} (hp : p (s.dev.execParse k e x i)) : Does row s p := by
  refine does_intro ha he ?_
  simp only [doParse, h, hop, if_true]
  exact hp

/-- An operation that leaves the engine `y`, and then moves on to the next word. -/
theorem does_retire (hpc : x.pc ≠ 0xFFF) (y : Engine) (hn : y.n = x.n) (hp : y.pc = x.pc)
    (hx : s.dev.execParse k e x { i with op := op } = s.dev.retire k e y) :
    Does row s fun d =>
      d = s.dev.setEng k e (some { y with n := x.n + 1, nextAt := s.dev.cycle + 1, stalledFrom := none, pc := x.pc + 1 }) := by
  subst hop
  exact does_parse ha h rfl he (hx.trans (Dev.retire_next hn hp hpc))

/-- An operation with a result and flags. -/
theorem does_setRes (hpc : x.pc ≠ 0xFFF) (r : W16 × PFlags)
    (hx : s.dev.execParse k e x { i with op := op } = s.dev.retire k e (Dev.setRes x i.rd r)) :
    Does row s fun d =>
      d = s.dev.setEng k e (some { x.wr i.rd r.1 with
        fl := r.2, n := x.n + 1, nextAt := s.dev.cycle + 1, stalledFrom := none, pc := x.pc + 1 }) :=
  does_retire ha h hop he hpc (Dev.setRes x i.rd r) (x.wr_n _ _) (x.wr_pc _ _) hx

end

/-! ### Loads -/

/-- The address of a load's first byte (R88). -/
def loadAddr (x : Engine) (i : PInstr) : Nat := (x.rd i.ra).toNat + i.imm

/-- The highest address that a load at `a` reads, where `half` says that it is LDH. -/
def loadHi (half : Bool) (a : Nat) : Nat := bif half then a + 1 else a

/-- The value that it reads, big-endian (R88). -/
def loadValue (f : Frame) (half : Bool) (a : Nat) : W16 :=
  BitVec.ofNat 16 (bif half then Dev.windowByte f a * 256 + Dev.windowByte f (a + 1) else Dev.windowByte f a)

theorem loadValue_byte (f : Frame) (a : Nat) : loadValue f false a = BitVec.ofNat 16 (f.bytes.getD a 0#8).toNat := rfl

theorem loadValue_half (f : Frame) (a : Nat) :
    loadValue f true a = BitVec.ofNat 16 ((f.bytes.getD a 0#8).toNat * 256 + (f.bytes.getD (a + 1) 0#8).toNat) := rfl

theorem loadValue_toNat (f : Frame) (half : Bool) (a : Nat) :
    (loadValue f half a).toNat =
      if half = true then (f.bytes.getD (loadHi half a - 1) 0#8).toNat * 256 + (f.bytes.getD (loadHi half a) 0#8).toNat
      else (f.bytes.getD (loadHi half a) 0#8).toNat := by
  have h1 : Dev.windowByte f a < 256 := (f.bytes.getD a 0#8).isLt
  have h2 : Dev.windowByte f (a + 1) < 256 := (f.bytes.getD (a + 1) 0#8).isLt
  rw [loadValue, BitVec.toNat_ofNat, Nat.mod_eq_of_lt (by cases half <;> simp only [cond_true, cond_false] <;> omega)]
  cases half <;> rfl

/-- Whether a load is LDH, and its highest address. -/
theorem load_half {x : Engine} {i : PInstr} {hi : Nat}
    (h : i.op = .ldb ∧ hi = (x.rd i.ra).toNat + i.imm ∨ i.op = .ldh ∧ hi = (x.rd i.ra).toNat + i.imm + 1) :
    loadHi (i.op == .ldh) (loadAddr x i) = hi := by
  rcases h with ⟨hop, rfl⟩ | ⟨hop, rfl⟩ <;> rw [hop] <;> rfl

namespace Dev

section
variable {f : Frame} {hi : Nat}

theorem loadCase_window (h : 256 ≤ hi) : loadCase f hi = .window := if_pos h

theorem loadCase_overEnd (h : hi ≤ 255) (he : f.ended = true) (hl : f.len ≤ hi + 4) : loadCase f hi = .overEnd := by
  rw [loadCase, if_neg (by omega), if_pos he, if_pos hl]

theorem loadCase_ready (h : hi ≤ 255) (hl : hi + 4 < f.len) : loadCase f hi = .ready := by
  rw [loadCase, if_neg (by omega)]
  split
  · exact if_neg (by omega)
  · exact if_pos hl

theorem loadCase_stall (h : hi ≤ 255) (he : f.ended = false) (hl : f.len ≤ hi + 4) : loadCase f hi = .stall := by
  rw [loadCase, if_neg (by omega), if_neg (by simp [he]), if_neg (by omega)]

end

/-- What a load of the value `v` comes to, by how it is decided (R80, R88, R94). -/
def loadOutcome (d : Dev) (k e : Nat) (x : Engine) (i : PInstr) (v : W16) : LoadCase → Dev
  | .window => d.endParse k e x (some .window) 0
  | .overEnd => d.endParse k e x (some .overEnd) 0
  | .stall => d.setEng k e (some { x with stalledFrom := some (d.cycle, encodeParse i) })
  | .ready => d.retire k e (setRes x i.rd (v, flagsZS x.fl v))

theorem doLoad_eq {d : Dev} {k e : Nat} {x : Engine} {i : PInstr} {f : Frame} {hi : Nat} {half : Bool}
    (hf : d.frame? x.frame = some f) (hh : (i.op == .ldh) = half) (hhi : loadHi half (loadAddr x i) = hi) :
    d.doLoad k e x i =
      d.loadOutcome k e (x.resumed d.cycle) i (loadValue f half (loadAddr x i)) (loadCase f hi) := by
  subst hh hhi
  cases hc : loadCase f (loadHi (i.op == .ldh) (loadAddr x i))
  all_goals
    simp only [loadHi, loadAddr, Bool.cond_eq_ite] at hc
    simp only [doLoad, hf, hc, loadValue, Bool.cond_eq_ite]
    rfl

end Dev

/-- What a load that completes leaves in its engine: the value in the register that it names, the other registers and the record words
as they were, and the stall cycles that it waited. -/
theorem doLoad_completes {d : Dev} {k e : Nat} {x : Engine} {i : PInstr} {f : Frame} {hi : Nat} (hf : d.frame? x.frame = some f)
    (hpc : x.pc ≠ 0xFFF) (hhi : loadHi (i.op == .ldh) (loadAddr x i) = hi) (hw : hi ≤ 255) (hl : hi + 4 < f.len) :
    ∃ y, (d.doLoad k e x i).eng k e = some y ∧ y.pc = x.pc + 1 ∧ y.n = x.n + 1 ∧ y.stalls = (x.resumed d.cycle).stalls ∧
      y.stalledFrom = none ∧ y.words = x.words ∧
      (i.rd ≠ 0 → i.rd < 16 → (y.rd i.rd).toNat =
        if i.op = .ldh then (f.bytes.getD (hi - 1) 0#8).toNat * 256 + (f.bytes.getD hi 0#8).toNat
        else (f.bytes.getD hi 0#8).toNat) ∧
      ∀ r, r < 16 → r ≠ i.rd → y.rd r = x.rd r := by
  have hy : (Dev.setRes (x.resumed d.cycle) i.rd (loadValue f (i.op == .ldh) (loadAddr x i),
      flagsZS (x.resumed d.cycle).fl (loadValue f (i.op == .ldh) (loadAddr x i)))).pc = x.pc := by simp [Dev.setRes]
  rw [Dev.doLoad_eq hf rfl hhi, Dev.loadCase_ready hw hl, Dev.loadOutcome, Dev.retire_next (x := x) (by simp [Dev.setRes]) hy hpc]
  refine ⟨_, eng_setEng_some _ _ _ _, rfl, rfl, Engine.wr_stalls _ _ _, rfl, (Engine.wr_words _ _ _).trans (x.resumed_words _),
    fun h0 h16 => ?_, fun r _ hr => (rd_wr_ne _ _ hr).trans (x.resumed_rd r _)⟩
  refine (congrArg BitVec.toNat (Engine.rd_wr_same h0 h16)).trans ?_
  rw [loadValue_toNat, hhi]
  simp only [beq_iff_eq]

theorem execParse_load {i : PInstr} (hop : i.op = .ldb ∨ i.op = .ldh) (d : Dev) (k e : Nat) (x : Engine) :
    d.execParse k e x i = d.doLoad k e x i := by
  rcases hop with hop | hop <;> simp only [Dev.execParse, hop]

/-- The row of a load that an engine has fetched decides it. -/
theorem does_load {s : State} {k : Fin 8} {e : Fin 64} {x : Engine} {i : PInstr} {row : Instr} {a b : Nat} {p : Dev → Prop}
    (ha : s.dev.alive = true) (h : s.dev.nextInstr k e = some (x, i))
    (hrow : i.op = .ldb ∧ row = .parseLdb k e ∧ a = b ∨ i.op = .ldh ∧ row = .parseLdh k e ∧ a = b + 1)
    (hp : p (s.dev.doLoad k e x i)) : Does row s p := by
  obtain ⟨hop, rfl, -⟩ | ⟨hop, rfl, -⟩ := hrow
  · exact does_parse ha h hop rfl (execParse_load (.inl hop) _ _ _ _ ▸ hp)
  · exact does_parse ha h hop rfl (execParse_load (.inr hop) _ _ _ _ ▸ hp)

/-- Bytes of a frame come, and the load that waits for them is decided again (R80, R94). -/
theorem doParseLoadResume_stalled {d : Dev} {k : Fin 8} {e : Fin 64} {x : Engine} {c : Nat} {w : W32} {i : PInstr}
    (bytes : List Byte) (hx : d.eng k e = some x) (hs : x.stalledFrom = some (c, w)) (hw : decodeParse w = some i) :
    doParseLoadResume k e bytes d = (d.arrive x.frame bytes).doLoad k e x i := by
  simp only [doParseLoadResume, hx, hs, hw]

namespace Dev

/-- Nothing more comes of a frame that has ended. -/
theorem arrive_ended {d : Dev} {j p : Nat} {f : Frame} (bytes : List Byte) (hf : d.frame? j = some f) (hs : f.src = .port p)
    (he : f.ended = true) : d.arrive j bytes = d := by
  simp [arrive, hf, hs, he]

/-- Bytes of the frame in reception come from the wire, outside loopback. -/
theorem arrive_receiving {d : Dev} {j p : Nat} {f : Frame} (bytes : List Byte) (hf : d.frame? j = some f) (hs : f.src = .port p)
    (he : f.ended = false) (hrx : (d.sub p).rx = some j) (h1 : d.loopback (p / 4) ≠ 1) (h2 : d.loopback (p / 4) ≠ 2) :
    d.arrive j bytes = d.setFrame j { f with bytes := f.bytes ++ bytes } := by
  simp [arrive, hf, hs, he, hrx, hears, h1, h2]

end Dev

/-- Settles O52: the four ways in which a load is decided, at once and after its stalls, and the bytes that come meanwhile. The load at
word 0xFFF, whose parse ends behind it (R85), is outside the statement. -/
theorem parseLoadDecided : Obligations.ParseLoadDecided := by
  refine ⟨fun s k e x i row hi f ha h hf hpc hrow => ?_,
    fun s k e x i c w hi t g bytes ha hx hs hw hpc hop hwin ht hg => ?_,
    fun d j p f bytes hf hs => ⟨Dev.arrive_ended bytes hf hs, Dev.arrive_receiving bytes hf hs⟩⟩
  · have hhi := load_half (hrow.imp (fun ⟨hop, _, hhi⟩ => ⟨hop, hhi⟩) fun ⟨hop, _, hhi⟩ => ⟨hop, hhi⟩)
    have hx := Engine.resumed_running (Dev.nextInstr_running h) s.dev.cycle
    refine ⟨fun hw => does_load ha h hrow ?_, fun hw he hl => does_load ha h hrow ?_, fun hw hl => does_load ha h hrow ?_,
      fun hw he hl => does_load ha h hrow ?_⟩
    · rw [Dev.doLoad_eq hf rfl hhi, Dev.loadCase_window hw, hx, Dev.loadOutcome]
    · rw [Dev.doLoad_eq hf rfl hhi, Dev.loadCase_overEnd hw he hl, hx, Dev.loadOutcome]
    · obtain ⟨y, hy, h1, h2, -, h3⟩ := doLoad_completes hf hpc hhi hw hl
      exact ⟨y, hy, h1, h2, h3⟩
    · refine ⟨_, encodeParse i, ?_, rfl⟩
      rw [Dev.doLoad_eq hf rfl hhi, Dev.loadCase_stall hw he hl, hx, Dev.loadOutcome]
  · subst ht
    have hhi := load_half hop
    have hx' := Engine.resumed_stalled hs (s.dev.arrive x.frame bytes).cycle
    have hrow := doParseLoadResume_stalled bytes hx hs hw
    refine ⟨fun he hl => does_intro ha rfl ?_, fun hl => does_intro ha rfl ?_, fun he hl => does_intro ha rfl ?_⟩ <;> rw [hrow]
    · rw [Dev.doLoad_eq hg rfl hhi, Dev.loadCase_overEnd hwin he hl, hx', Dev.loadOutcome]
    · rw [← hx']
      exact doLoad_completes hg hpc hhi hwin hl
    · refine ⟨encodeParse i, ?_⟩
      rw [Dev.doLoad_eq hg rfl hhi, Dev.loadCase_stall hwin he hl, hx', Dev.loadOutcome]

/-! ### The other instructions -/

section
variable {d : Dev} {k e : Nat} {x : Engine} {i : PInstr}

/-- GETS of the port (R88). -/
theorem getsSource_port {f : Frame} {p : Nat} (hm : i.imm = 0) (hf : d.frame? x.frame = some f) (hs : f.src = .port p) :
    d.getsSource k x i.imm = BitVec.ofNat 16 p := by
  simp only [hm, Dev.getsSource, hf, hs]

theorem execParse_gets {v : W16} (hv : d.getsSource k x i.imm = v) :
    d.execParse k e x { i with op := .gets } = d.retire k e (x.wr i.rd v) := by
  rw [← hv]
  rfl

theorem execParse_b (hop : i.op = .b) :
    d.execParse k e x i =
      if condHolds x.fl i.rd = true then d.setEng k e (some { x with n := x.n + 1, nextAt := d.cycle + 1, pc := i.imm })
      else d.retire k e x := by
  simp only [Dev.execParse, hop]

theorem execParse_done (hop : i.op = .done) : d.execParse k e x i = d.endParse k e { x with n := x.n + 1 } none i.imm := by
  simp only [Dev.execParse, hop]

theorem execParse_reject (hop : i.op = .reject) :
    d.execParse k e x i = d.endParse k e { x with n := x.n + 1 } (some .reject) i.imm := by
  simp only [Dev.execParse, hop]

end

/-- A load of readable bytes by an engine that does not wait, as an operation with a result and flags. -/
theorem does_loadReady {s : State} {k : Fin 8} {e : Fin 64} {x : Engine} {i : PInstr} {op : POp} {row : Instr} {f : Frame}
    {half : Bool} {v : W16} (ha : s.dev.alive = true) (h : s.dev.nextInstr k e = some (x, i)) (hpc : x.pc ≠ 0xFFF) (hop : i.op = op)
    (he : exec row s = s.effect (doParse op k e)) (hld : op = .ldb ∨ op = .ldh) (hh : (op == .ldh) = half)
    (hf : s.dev.frame? x.frame = some f) (hc : Dev.loadCase f (loadHi half (loadAddr x i)) = .ready)
    (hv : loadValue f half (loadAddr x i) = v) :
    Does row s fun d =>
      d = s.dev.setEng k e (some { x.wr i.rd v with
        fl := flagsZS x.fl v, n := x.n + 1, nextAt := s.dev.cycle + 1, stalledFrom := none, pc := x.pc + 1 }) := by
  refine does_setRes ha h hop he hpc (v, flagsZS x.fl v) ?_
  subst hop hv
  rw [execParse_load hld, Dev.doLoad_eq hf hh rfl, hc, Engine.resumed_running (Dev.nextInstr_running h), Dev.loadOutcome]

/-- Settles O7: each operation is the engine that it leaves, by the equation of its arm. The instruction at word 0xFFF (R85) is outside
the statement. -/
theorem parseInstructions : Obligations.ParseInstructions := by
  refine ⟨fun s k e x i ha h hpc => ?_, fun s k e x i ha h hpc hs => ?_⟩
  · intro a b m nb fl done res
    have result {op row} (hop : i.op = op) (he : exec row s = s.effect (doParse op k e)) := does_setRes ha h hop he hpc
    have leaves {op row} (hop : i.op = op) (he : exec row s = s.effect (doParse op k e)) := does_retire ha h hop he hpc
    exact ⟨fun hop => result hop rfl (addRes x.fl a b) rfl,
      fun hop => result hop rfl (addRes x.fl a m) rfl,
      fun hop => result hop rfl (subRes x.fl a b) rfl,
      fun hop => result hop rfl (subRes x.fl a m) rfl,
      fun hop => result hop rfl (logicRes x.fl (a &&& b)) rfl,
      fun hop => result hop rfl (logicRes x.fl (a &&& m)) rfl,
      fun hop => result hop rfl (logicRes x.fl (a ||| b)) rfl,
      fun hop => result hop rfl (logicRes x.fl (a ||| m)) rfl,
      fun hop => result hop rfl (logicRes x.fl (a ^^^ b)) rfl,
      fun hop => result hop rfl (logicRes x.fl (a ^^^ m)) rfl,
      fun hop => result hop rfl (shlRes x.fl a nb) rfl,
      fun hop => result hop rfl (shlRes x.fl a (m.toNat % 16)) rfl,
      fun hop => result hop rfl (shrRes x.fl a nb) rfl,
      fun hop => result hop rfl (shrRes x.fl a (m.toNat % 16)) rfl,
      fun hop => leaves hop rfl (x.wr i.rd m) (x.wr_n _ _) (x.wr_pc _ _) rfl,
      fun hop => leaves hop rfl { x with fl := (subRes x.fl a b).2 } rfl rfl rfl,
      fun hop => leaves hop rfl { x with fl := (subRes x.fl a m).2 } rfl rfl rfl,
      fun hop => leaves hop rfl { x with fl := (logicRes x.fl (a &&& m)).2 } rfl rfl rfl,
      fun hop => leaves hop rfl x rfl rfl rfl⟩
  · intro a fl done load
    have leaves {op row} (hop : i.op = op) (he : exec row s = s.effect (doParse op k e)) := does_retire ha h hop he hpc
    have gets {row v} (hop : i.op = .gets) (he : exec row s = s.effect (doParse .gets k e)) (hv : s.dev.getsSource k x i.imm = v) :
        Does row s (done (x.wr i.rd v)) :=
      leaves hop he (x.wr i.rd v) (x.wr_n _ _) (x.wr_pc _ _) (execParse_gets hv)
    exact ⟨fun hop f hf hc => does_loadReady ha h hpc hop rfl (.inl rfl) (half := false) rfl hf hc (loadValue_byte f _),
      fun hop f hf hc => does_loadReady ha h hpc hop rfl (.inr rfl) (half := true) rfl hf hc (loadValue_half f _),
      fun hop => does_setRes ha h hop rfl hpc (_, flagsZS x.fl _) rfl,
      fun hop hm => gets hop rfl (congrArg (s.dev.getsSource k x) hm),
      fun hop hm f p hf hp => gets hop rfl (getsSource_port hm hf hp),
      fun hop hm => gets hop rfl (congrArg (s.dev.getsSource k x) hm),
      fun hop hm => gets hop rfl (congrArg (s.dev.getsSource k x) hm),
      fun hop => leaves hop rfl { x with words := vset x.words i.imm a } rfl rfl rfl,
      fun hop => leaves hop rfl { x with words := vset x.words i.rd (BitVec.ofNat 16 i.imm) } rfl rfl rfl,
      fun hop hb => does_parse ha h hop rfl ((execParse_b hop).trans (if_pos hb)),
      fun hop hb => does_parse ha h hop rfl
        ((execParse_b hop).trans ((if_neg (Bool.not_eq_true _ ▸ hb)).trans (Dev.retire_next rfl rfl hpc))),
      fun hop => leaves hop rfl { x with fl := { x.fl with x := true } } rfl rfl rfl,
      fun hop => leaves hop rfl { x with fl := { x.fl with x := false } } rfl rfl rfl,
      fun hop => does_parse ha h hop rfl (execParse_done hop),
      fun hop => does_parse ha h hop rfl (execParse_reject hop)⟩

/-! ### The rows that are no instruction -/

/-- A spent budget ends the parse (R91). -/
theorem doParseBudgetExhausted_spent {d : Dev} {k : Fin 8} {e : Fin 64} {x : Engine} (hx : d.eng k e = some x)
    (hs : x.stalledFrom = none) (hc : x.nextAt ≤ d.cycle + 1) (hn : d.get (PL_PARSE_CTRL_BUDGET k) ≤ x.n) :
    doParseBudgetExhausted k e d = d.endParse k e x (some .budget) 0 := by
  simp [doParseBudgetExhausted, hx, hs, hc, hn]

/-- The head of the parse queue takes the lowest free engine (R76). -/
theorem doEngineAllocation_queue {d : Dev} {k : Fin 8} {q : List Nat} {i e : Nat} (hq : (d.pst k).queue = i :: q)
    (he : d.freeEngine k = some e) : doEngineAllocation k d = (d.setPst k { d.pst k with queue := q }).allocate k e i := by
  simp only [doEngineAllocation, hq, he]

/-- The counters of a record that leaves the parse stage (R96, R98). -/
def countRecord (k : Nat) (r : DoneRec) (d : Dev) : Dev :=
  ((match r.cause with
    | none => d.inc (PL_CNT_PARSED k)
    | some c => (d.inc (PL_CNT_MALF_TOTAL k)).inc (causeCounter k c)).bump (PL_CNT_INSTR_TOTAL k) r.n).bump
      (PL_CNT_STALL_TOTAL k) r.stalls

section
variable (k : Nat) (r : DoneRec) (d : Dev)

@[simp] theorem countRecord_cycle : (countRecord k r d).cycle = d.cycle := by
  unfold countRecord
  split <;> rfl

@[simp] theorem countRecord_parse : (countRecord k r d).parse = d.parse := by
  unfold countRecord
  split <;> rfl

@[simp] theorem countRecord_cls : (countRecord k r d).cls = d.cls := by
  unfold countRecord
  split <;> rfl

@[simp] theorem countRecord_frames : (countRecord k r d).frames = d.frames := by
  unfold countRecord
  split <;> rfl

/-- A record of a parse without fault counts as parsed (R96). -/
theorem countRecord_parsed {r : DoneRec} (h : r.cause = none) :
    (countRecord k r d).count (PL_CNT_PARSED k) = satAdd 64 (d.count (PL_CNT_PARSED k)) 1 := by
  rw [countRecord, h, Dev.count_bump_ne _ _ _ _ (by simp [PL_CNT_PARSED, PL_CNT_STALL_TOTAL]),
    Dev.count_bump_ne _ _ _ _ (by simp [PL_CNT_PARSED, PL_CNT_INSTR_TOTAL]), Dev.count_inc_same]
  rfl

end

/-- The record `r` of frame `i` as classification takes it in cycle `c` (R98). -/
def classifyEntry (i c : Nat) (r : DoneRec) : InCls :=
  { frame := i, words := r.words, at_ := c, malformed := r.cause.isSome, malf := r.malf, look := none }

/-- The record `r` of frame `i` has left the parse stage of pipeline `k`: it is counted, and enters classification (R78, R98). -/
def recordLeaves (k i : Nat) (r : DoneRec) (d : Dev) : Dev :=
  let x := countRecord k r d
  x.setCp k { x.cp k with inflight := (x.cp k).inflight ++ [classifyEntry i x.cycle r] }

/-- The same with what the pipeline and the frame, which is `f`, make of it; `rest` is behind it in the order. -/
def handOver (k i : Nat) (rest : List Nat) (r : DoneRec) (f : Frame) (d : Dev) : Dev :=
  (recordLeaves k i r (d.setPst k { d.pst k with order := rest, done := [] })).setFrame i
    { f with words := some r.words, malformed := r.cause.isSome, stage := .classify }

theorem recordLeaves_frames (k i : Nat) (r : DoneRec) (d : Dev) : (recordLeaves k i r d).frames = d.frames := by
  simp [recordLeaves]

theorem Dev.modFrame_some {d : Dev} {i : Nat} {f : Frame} (h : d.frame? i = some f) (g : Frame → Frame) :
    d.modFrame i g = d.setFrame i (g f) := by
  rw [Dev.modFrame, h]

/-- PARSE_RECORD_HANDOFF of the only finished record, at the head of the order, once its check is over and its frame has ended or is
longer than 256 bytes. -/
theorem doParseRecordHandoff_due {d e : Dev} {k : Fin 8} {bytes : List Byte} {rest : List Nat} {i : Nat} {r : DoneRec} {f : Frame}
    (ho : (d.pst k).order = i :: rest) (he : d.arrive i bytes = e) (hd : (e.pst k).done = [(i, r)]) (hf : e.frame? i = some f)
    (hl : f.ended = true ∨ 256 < f.len) (hs : f.stage ≠ .dead) (hc : r.readyAt ≤ e.cycle) :
    doParseRecordHandoff (k, bytes) d = handOver k i rest r f e := by
  have hgo : ¬ (e.cycle < r.readyAt ∨ (!f.ended && decide (f.len ≤ 256)) = true) := by
    rcases hl with hl | hl <;> simp [hl] <;> omega
  have hdone : [(i, r)].filter (·.1 != i) = [] := by simp
  have hframe (x : ParseState) : (recordLeaves k i r (e.setPst k x)).frame? i = some f := by
    rw [← hf, Dev.frame?, recordLeaves_frames]
    rfl
  simp only [doParseRecordHandoff, ho, he, hd, List.find?_cons_of_pos, beq_self_eq_true, hf, if_neg hgo, hdone]
  refine (Dev.modFrame_some (hframe _) _).trans ?_
  rw [if_neg hs]
  rfl

section
variable (k i : Nat) (rest : List Nat) (r : DoneRec) (f : Frame) (d : Dev)

theorem handOver_pst : (handOver k i rest r f d).pst k = { d.pst k with order := rest, done := [] } := by
  simp [handOver, recordLeaves, Dev.pst, Dev.setPst]

theorem handOver_frame : (handOver k i rest r f d).frame? i =
    some { f with words := some r.words, malformed := r.cause.isSome, stage := .classify } := by
  simp [handOver, Dev.frame?, Dev.setFrame]

theorem handOver_inflight :
    ((handOver k i rest r f d).cp k).inflight = (d.cp k).inflight ++ [classifyEntry i d.cycle r] := by
  simp [handOver, recordLeaves, Dev.cp, Dev.setCp]

theorem handOver_parsed {r : DoneRec} (h : r.cause = none) :
    (handOver k i rest r f d).count (PL_CNT_PARSED k) = satAdd 64 (d.count (PL_CNT_PARSED k)) 1 :=
  countRecord_parsed k _ h

end

/-! ### The control registers -/

/-- The status of the parse stage leaves the other registers. -/
theorem Dev.syncParse_get (d : Dev) (k : Nat) {f : Fld} (h : f.addr ≠ PL_PARSE_STATUS k) : (d.syncParse k).get f = d.get f := by
  rw [Dev.syncParse, Dev.get_put_addr _ _ _ _ h, Dev.get_put_addr _ _ _ _ h, Dev.get_put_addr _ _ _ _ h]

/-- The entry that was written serves the next frame (R102). -/
theorem doParseEntryWrite_entry (p : Path) (k : Fin 8) (data : W32) (d : Dev) :
    (doParseEntryWrite p k data d).get (PL_PARSE_ENTRY_ENTRY k) = fieldGet data 0 12 := by
  have hne : (PL_PARSE_ENTRY_ENTRY k).addr ≠ PL_PARSE_STATUS k := by simp [PL_PARSE_ENTRY_ENTRY, PL_PARSE_ENTRY, PL_PARSE_STATUS]
  rw [doParseEntryWrite, Dev.syncParse_get _ _ hne, Dev.setPst_get, Dev.get_put_same _ _ _ (by decide : 0 + 12 ≤ 32)]
  exact Nat.mod_mod _ _

section
variable {p : Path} {k : Fin 8} {data : W32} {d : Dev} (h : fieldGet data 0 1 = 1)
include h

/-- After verification, ENABLE written as 1 locks BUDGET (R46, R103). -/
theorem doParseEnable_verified (hv : (d.writeFields p (PL_PARSE_CTRL k) data).flag BOOT_STATUS_VERIFIED = true) :
    doParseEnable p k data d =
      ((d.writeFields p (PL_PARSE_CTRL k) data).put (PL_PARSE_CTRL_ENABLE k) 1).lock (PL_PARSE_CTRL k) := by
  simp [doParseEnable, h, hv]

/-- Before verification, ENABLE written as 1 is ignored and counted (R439). -/
theorem doParseEnable_unverified (hv : (d.writeFields p (PL_PARSE_CTRL k) data).flag BOOT_STATUS_VERIFIED = false) :
    doParseEnable p k data d = (d.writeFields p (PL_PARSE_CTRL k) data).inc BOOT_GATE_VIOL := by
  simp [doParseEnable, h, hv]

end

/-- Settles O8: each row is its equation, and of the hand-over the counter, the order, the frame and the record are read off it. -/
theorem parseRows : Obligations.ParseRows := by
  refine ⟨fun s k e x ha hx hs hc hn hb hw => does_intro ha rfl (doIllegalInstruction_illegal hx hs hc hn hb hw),
    fun s k e x ha hx hs hc hn hb => does_intro ha rfl (doIllegalInstruction_unsound hx hs hc hn hb),
    fun s k e x ha hx hs hc hn => does_intro ha rfl (doParseBudgetExhausted_spent hx hs hc hn),
    fun s k e x c w i bytes ha hx hs hw => does_intro ha rfl (doParseLoadResume_stalled bytes hx hs hw),
    fun s k q i e ha hq he => does_intro ha rfl (doEngineAllocation_queue hq he),
    fun s k bytes rest i r f e ha ho he hd hf hl hs hc => does_intro ha rfl ?_,
    fun s dv p k data hr => does_plain hr (by unfold PL_PARSE_ENTRY; omega) rfl (doParseEntryWrite_entry p k data dv),
    fun s dv p k data hr h hv => does_plain hr (by unfold PL_PARSE_CTRL; omega) rfl (doParseEnable_verified h hv),
    fun s dv p k data hr h hv => does_plain hr (by unfold PL_PARSE_CTRL; omega) rfl (doParseEnable_unverified h hv)⟩
  rw [doParseRecordHandoff_due ho he hd hf hl hs hc, handOver_pst, handOver_frame, handOver_inflight]
  exact ⟨handOver_parsed k i rest f e, rfl, rfl, rfl, rfl⟩

end Sys2Proof.Machine
end

section
/-!
PROOFS. Frames at the Ethernet ports (O6): an equation for the allocation condition, for each row that a frame meets in reception and
in transmission, and for a management frame.
-/

namespace Sys2Proof.Machine

/-! ### Reception -/

/-- A frame that the MAC does not withhold enters the crossing of a pipeline that is on, 28 cycles from the parse queue (R75, R98). -/
theorem Dev.meetAllocation_enters {e : Dev} {p j : Nat} {f : Frame} (hf : e.frame? j = some f) (hs : f.stage = .rx)
    (hmac : isMacControl f.bytes = false) (hlb : e.loopback (p / 4) ≠ 2) (hptp : e.flag (TIME_PORT_CFG_PTP_EN p) = false)
    (hon : e.flag (PL_PARSE_CTRL_ENABLE (p / 8)) = true) :
    e.meetAllocation p j = (e.setFrame j { f with stage := .parse }).setPst (p / 8)
      { (e.pst (p / 8)) with crossing := (e.pst (p / 8)).crossing ++ [(j, e.cycle + 28)] } := by
  simp [Dev.meetAllocation, hf, hs, hmac, hlb, hptp, hon]

section
variable {n : Fin 16} {i : Fin 4} {bytes bs : List Byte} {lag p j : Nat} {d h e : Dev} {f g : Frame}

/-- The first 68 bytes of a frame meet the allocation condition (R75). -/
theorem doAllocationCondition_first (hp : 4 * n.val + i.val = p) (hup : d.flag (ETH_SP_STATUS_LINK_UP n i) = true)
    (hrx : (d.sub p).rx = none) (hh : d.hears p bytes false = some (bs, h)) (hl : 68 ≤ bs.length) (he : h.receive p bs lag = (j, e)) :
    doAllocationCondition n i bytes lag false d = e.meetAllocation p j := by
  subst hp
  simp [doAllocationCondition, hup, hrx, hh, hl, he]

/-- The byte that brings a frame over MAX_FRAME (R64). -/
theorem doOversizeDetect_over (hp : 4 * n.val + i.val = p) (hrx : (d.startDue.sub p).rx = some j)
    (hh : d.startDue.hears p bytes false = some (bs, h)) (hf : d.startDue.frame? j = some f) (ho : f.oversize = false)
    (hl : d.startDue.maxFrame p < f.len + bs.length) (he : (h.setFrame j { f with bytes := f.bytes ++ bs }).meetAllocation p j = e)
    (hg : e.frame? j = some g) : doOversizeDetect n i bytes d = e.oversizeNow p j g := by
  subst hp
  have hlen : Frame.len { f with bytes := f.bytes ++ bs } = f.len + bs.length := List.length_append
  simp only [doOversizeDetect, hrx, hh, hf, if_pos (And.intro (hlen ▸ hl) ho), he, hg]

/-- The end of a frame, which meets the allocation condition first where it is new (R64, R72, R75). -/
theorem doFrameEnd_ends {corr uncorr : Nat} (code : Bool) (hp : 4 * n.val + i.val = p)
    (hup : d.flag (ETH_SP_STATUS_LINK_UP n i) = true) (hrun : d.rxRuns n i = true)
    (hh : ((d.bump (ETH_CNT_FEC_CORR_CW n i) corr).bump (ETH_CNT_FEC_UNCORR_CW n i) uncorr).startDue.hears p bytes true = some (bs, h))
    (he : h.receive p bs lag = (j, e)) (hf : e.frame? j = some f) :
    doFrameEnd n i bytes lag code corr uncorr d = (if 64 ≤ f.len then e.meetAllocation p j else e).endFrame p j code false := by
  subst hp
  simp only [doFrameEnd, hrun, if_true, Dev.flag_bump, hup, hh, he, hf]

/-- A management frame of a sound length and FCS goes to firmware (R74). -/
theorem doMgmtFrameRx_sound (h64 : 64 ≤ bytes.length) (h1518 : bytes.length ≤ 1518) (hfcs : judgeFcs bytes = .good) :
    doMgmtFrameRx bytes d = d.emit (.toFirmware bytes 0) := if_pos ⟨h64, h1518, hfcs⟩

end

/-! ### Transmission -/

/-- A cut-through frame begins to leave once byte 256 or its end has come (R60). -/
theorem doCutThroughTxStart_due {n : Fin 16} {i : Fin 4} {bytes : List Byte} {j q st : Nat} {d e : Dev} {f g : Frame}
    (htx : (d.sub (4 * n.val + i.val)).tx = some j) (hf : d.frame? j = some f) (he : d.arrive j bytes = e) (hg : e.frame? j = some g)
    (hs : g.stage = .chosen q st) (hct : g.cutThrough = some true) (hl : 256 ≤ g.len ∨ g.ended = true) (hc : st ≤ d.cycle) :
    doCutThroughTxStart n i bytes d = (e.setFrame j { g with ctStarted := true }).startDue := by
  simp only [doCutThroughTxStart, htx, hf, he, hg, Option.getD_some, hs, hct, hl, hc, and_self, if_true]

/-- The counters of a frame `f` that leaves sub-port `i` of port `n` whole (R65, R72). -/
def txCounted (n i : Nat) (f : Frame) (e : Dev) : Dev :=
  let c := (e.inc (ETH_CNT_TX_FRAMES n i)).bump (ETH_CNT_TX_BYTES n i) (e.acctLen f)
  if f.stomp then c.inc (ETH_CNT_TX_STOMPED n i) else c

/-- Bytes go onto the wire, or back into the receive path in near-end loopback (R71). -/
def toWire (n i : Nat) (wire : List Byte) (c : Dev) : Dev :=
  if c.loopback n = 1 then c.modSub (4 * n + i) fun x => { x with loop := x.loop ++ [wire] } else c.emit (.frame (4 * n + i) wire)

/-- A frame `f` is counted and sent (R65). -/
def txSent (n i : Nat) (f : Frame) (e : Dev) : Dev :=
  toWire n i (withFcs f.stomp (f.bytes.take (e.acctLen f - 4))) (txCounted n i f e)

theorem txCounted_loopback (n i : Nat) (f : Frame) (e : Dev) : (txCounted n i f e).loopback n = e.loopback n := by
  unfold txCounted
  split <;> rfl

theorem txSent_eq (n i : Nat) (f : Frame) (e : Dev) :
    txSent n i f e =
      let wire := withFcs f.stomp (f.bytes.take (e.acctLen f - 4))
      let c := txCounted n i f e
      if e.loopback n = 1 then c.modSub (4 * n + i) fun x => { x with loop := x.loop ++ [wire] } else c.emit (.frame (4 * n + i) wire) := by
  rw [txSent, toWire, txCounted_loopback]

/-- The sub-port `p` is free again behind a frame of `l` bytes that began in cycle `st`, and the frame `j` is gone (R65, R142). -/
def txDone (p j st l : Nat) (c : Dev) : Dev :=
  (c.modSub p fun x => { x with tx := none, started := false, txFreeAt := st + wireCycles (l + 20) (c.rate p) }).freeFrame j

section
variable {n : Fin 16} {i : Fin 4} {d e : Dev} {p j q st : Nat} {f : Frame} (he : d.startDue = e) (hp : 4 * n.val + i.val = p)
  (htx : (e.sub p).tx = some j) (hf : e.frame? j = some f) (hs : f.stage = .chosen q st) (hend : f.ended = true ∨ f.oversize = true)
  (hstart : (e.sub p).started = true) (hc : st + wireCycles (e.acctLen f + 8) (e.rate p) ≤ e.cycle)
include he hp htx hf hs hend hstart hc

/-- A frame that is not firmware's ends its transmission (R65). -/
theorem doTxFrameComplete_forwarded (hsrc : f.src ≠ .firmware) :
    doTxFrameComplete n i d = txDone p j st (e.acctLen f) (txSent n i f e) := by
  subst hp
  simp only [doTxFrameComplete, he, htx, hf, hs, hstart, hend, hc, and_self, if_true]
  cases hfrom : f.src with
  | firmware => exact absurd hfrom hsrc
  | port _ => rfl
  | dma _ => rfl

/-- An event message of firmware returns its timestamp (R188, R189). -/
theorem doTxFrameComplete_event {o : Nat} (hsrc : f.src = .firmware) (hptp : ptpOffset f.bytes = some o)
    (ht : bitsOf (f.bytes.getD o 0#8).toNat 0 4 < 4) :
    let c := txSent n i f e
    doTxFrameComplete n i d = txDone p j st (e.acctLen f) ((c.inc TIME_CNT_PTP_TX).emit (.txStamp p
      (c.netAt (st + wireCycles 8 (c.rate p)) + c.get (TIME_PORT_DLY_TX_NS p) * 2 ^ 48))) := by
  subst hp
  simp only [doTxFrameComplete, he, htx, hf, hs, hstart, hend, hc, and_self, if_true, hsrc, hptp, ht]
  rfl

end

/-- Settles O6: each row of a frame is its equation. -/
theorem portFrames : Obligations.PortFrames := by
  refine ⟨fun s n i bytes bs lag h e p j f ha hp hup hrx hh hl he hf hs hmac hlb hptp hon => does_intro ha rfl ?_,
    fun s n i bytes bs h e p j f g ha hp hrx hh hf ho hl he hg =>
      does_intro ha rfl (doOversizeDetect_over hp hrx hh hf ho hl he hg),
    fun s n i bytes j q st f g e ha htx hf he hg hs hct hl hc =>
      does_intro ha rfl (doCutThroughTxStart_due htx hf he hg hs hct hl hc),
    fun s n i bytes bs lag corr uncorr code h e p j f ha hp hup hrun hh he hf =>
      does_intro ha rfl (doFrameEnd_ends code hp hup hrun hh he hf),
    fun s n i e p j q st f ha he hp htx hf hs hend hstart hc => ?_,
    fun s bytes ha h64 h1518 hfcs => does_intro ha rfl (doMgmtFrameRx_sound h64 h1518 hfcs)⟩
  · rw [doAllocationCondition_first hp hup hrx hh hl he, Dev.meetAllocation_enters hf hs hmac hlb hptp hon]
  · subst hp
    intro l wire c₁ c₂ sent done
    have hsent : txSent n i f e = sent := txSent_eq n i f e
    rw [← hsent]
    exact ⟨fun hsrc => does_intro ha rfl (doTxFrameComplete_forwarded he rfl htx hf hs hend hstart hc hsrc),
      fun o hsrc hptp ht => does_intro ha rfl (doTxFrameComplete_event he rfl htx hf hs hend hstart hc hsrc hptp ht)⟩

end Sys2Proof.Machine
end

section
/-!
PROOFS. The table commands (O10, O11): what a ready command of each opcode answers, an equation for each outcome of an insert and of a
delete, and what refuses a command.
-/

namespace Sys2Proof.Machine
namespace Dev

/-! ### Tables without a bad entry -/

section
variable {d : Dev} (h : d.tbl.bad = [])
include h

/-- Fresh parity changes nothing where no entry is bad. -/
theorem sound_none (r : EntryRef) : d.sound r = d := by
  have hf : d.tbl.bad.filter (· != r) = d.tbl.bad := by rw [h]; rfl
  rw [sound, setTbl, hf]

theorem foldl_sound_none (g : Nat → EntryRef) (l : List Nat) : l.foldl (fun d i => d.sound (g i)) d = d := by
  induction l with
  | nil => rfl
  | cons i l ih => rw [List.foldl_cons, sound_none h, ih]

theorem setLpm_none (i : Nat) (e : LpmEntry) :
    d.setLpm i e = d.setTbl fun t => { t with lpm := tabSet (fun _ => .reset) t.lpm i e } :=
  foldl_sound_none (d := d.setTbl fun t => { t with lpm := tabSet (fun _ => .reset) t.lpm i e }) h _ _

/-- An LPM entry is invalidated by clearing VALID alone. -/
theorem invalLpm_none (i : Nat) : d.invalLpm i = d.setLpm i { d.lpmEnt i with ctl := withBit (d.lpmEnt i).ctl 63 false } := by
  rw [invalLpm, setLpm_none h]
  exact foldl_sound_none (d := d.setTbl fun t => { t with lpm := tabSet (fun _ => .reset) t.lpm i _ }) h _ _

theorem find?_isBad_none (l : List Nat) (g : Nat → EntryRef) : (l.find? fun i => d.isBad (g i)) = none := by
  simp [isBad_none h]

/-- The manager's command on a key is decided by the location of the key (R131, R133). -/
theorem byKey_none (key : List Byte) (act : Dev → Option (Bool × Nat) → TblRes × Dev) :
    d.byKey (fun _ => false) key act = act d (d.emFind key) := by
  simp only [byKey, purge_none h, h, List.find?_nil, Bool.false_eq_true, if_false]
  cases d.emFind key <;> rfl

end

/-! ### Inserts and deletes -/

section
variable {d : Dev} {e : EmEntry} {replace : Bool}

/-- A new key takes a free way of its bucket (R119). -/
theorem emInsertAt_way {w : Nat} (hf : d.emFind e.key = none) (hq : d.atQuota (ownerOf e.ctl) = false)
    (hw : ((List.range 4).find? fun w => !(d.emEnt (4 * d.bucketNo e.key + w)).valid) = some w) :
    d.emInsertAt e replace =
      (.done (false, 4 * d.bucketNo e.key + w), d.setLoc (false, 4 * d.bucketNo e.key + w) e) := by
  simp [emInsertAt, hf, hq, hw]

/-- A new key of a full bucket takes the lowest free slot of the overflow store (R119). -/
theorem emInsertAt_overflow {i : Nat} (hf : d.emFind e.key = none) (hq : d.atQuota (ownerOf e.ctl) = false)
    (hw : ((List.range 4).find? fun w => !(d.emEnt (4 * d.bucketNo e.key + w)).valid) = none)
    (hi : ((List.range 8192).find? fun i => !(d.ovfEnt i).valid) = some i) :
    d.emInsertAt e replace = (.done (true, i), d.setLoc (true, i) e) := by
  simp only [emInsertAt, hf, hq, hw, hi, Bool.false_eq_true, if_false]

/-- A present key stays as it is without REPLACE (R119). -/
theorem emInsertAt_exists {loc : Bool × Nat} (hf : d.emFind e.key = some loc) : d.emInsertAt e false = (.exists_ loc, d) := by
  simp [emInsertAt, hf]

/-- REPLACE rewrites a present key in place; the same owner's needs no quota (R119). -/
theorem emInsertAt_replace {loc : Bool × Nat} (hf : d.emFind e.key = some loc)
    (ho : ownerOf (d.locEnt loc).ctl = ownerOf e.ctl) : d.emInsertAt e true = (.done loc, d.setLoc loc e) := by
  simp [emInsertAt, hf, ho]

end

/-- An entry with VALID clear. -/
def freed (e : EmEntry) : EmEntry := { e with ctl := withBit e.ctl 63 false }

section
variable {d u : Dev} {i : Nat}

/-- A delete in the overflow store moves nothing (R120). -/
theorem emDeleteAt_overflow : d.emDeleteAt (true, i) = (none, d.setLoc (true, i) (freed (d.ovfEnt i))) := rfl

/-- The overflow slot and the entry that a freed way takes (R120). -/
def relocatable (d : Dev) (b : Nat) : Option (Nat × EmEntry) := d.tbl.ovf.find? fun kv => kv.2.valid && d.bucketNo kv.2.key == b

/-- A freed way stays free where the overflow store holds no entry of its bucket (R120). -/
theorem emDeleteAt_way (hu : d.setLoc (false, i) (freed (d.emEnt i)) = u) (hr : u.relocatable (i / 4) = none) :
    d.emDeleteAt (false, i) = (none, u) := by
  subst hu
  simp only [relocatable, freed] at hr
  simp only [emDeleteAt, locEnt, Bool.false_eq_true, if_false, hr]
  rfl

/-- A freed way takes the lowest overflow entry of its bucket (R120). -/
theorem emDeleteAt_relocates {o : Nat} {e : EmEntry} (hu : d.setLoc (false, i) (freed (d.emEnt i)) = u)
    (hr : u.relocatable (i / 4) = some (o, e)) :
    d.emDeleteAt (false, i) = (some o, (u.setLoc (false, i) e).setLoc (true, o) (freed e)) := by
  subst hu
  simp only [relocatable, freed] at hr
  simp only [emDeleteAt, locEnt, Bool.false_eq_true, if_false, hr]
  rfl

end

theorem locCode_way (i : Nat) : locCode (false, i) = i := by simp [locCode, b2n]

theorem locCode_overflow (i : Nat) : locCode (true, i) = 2 ^ 31 + i := by simp [locCode, b2n]

/-! ### What refuses a command (R131) -/

section
variable {d : Dev} {owner : Option Nat} {b : List Byte}

theorem tblCommand_notReady (h : d.tblOn = false) : d.tblCommand owner b = ({ status := stNotReady }, d) := by
  simp [tblCommand, h]

theorem tblCommand_badOpcode (h : d.tblOn = true) (hop : fieldLE b 0 1 ∉ tblOpcodes) :
    d.tblCommand owner b = ({ status := stBadOpcode }, d) := by
  simp [tblCommand, h, hop]

theorem tblCommand_denied (h : d.tblOn = true) (hop : fieldLE b 0 1 ∈ tblOpcodes) (hem : 0x10 ≤ fieldLE b 0 1) (ho : owner ≠ none) :
    d.tblCommand owner b = ({ status := stDenied }, d) := by
  simp [tblCommand, h, hop, hem, Option.isSome_iff_ne_none.mpr ho]

end
end Dev

/-! ### What a ready command answers -/

section
variable {d : Dev} {g op : Nat} {j : Job} {r : TblRes} {u : Dev}

/-- Nothing in a ready command is out of order (R131). -/
theorem tblReady_ordered (h : tblReady d g op j) :
    (tblTaken d j).tblOn = true ∧ fieldLE j.block 0 1 = op ∧ tblBadEntry op j.block = false ∧
      (tblTaken d j).tblBadIndex op j.block = false := by
  obtain ⟨-, -, -, hop, hent, hidx, hon, -⟩ := h
  exact ⟨hon, hop, hent, hidx⟩

/-- A ready command that writes marks the write of the cycle (R136). -/
theorem doTable_writes (h : tblReady d g op j) (hw : [0x03, 0x04, 0x13, 0x21].contains op = false)
    (hr : (tblTaken d j).tblCommand none j.block = (r, u)) : doTable op g d = (u.mark .tableWrite).tblAnswer j r := by
  rw [doTable_ready h, hr, hw]
  rfl

/-- A ready command that reads. -/
theorem doTable_reads (h : tblReady d g op j) (hw : [0x03, 0x04, 0x13, 0x21].contains op = true)
    (hr : (tblTaken d j).tblCommand none j.block = (r, u)) : doTable op g d = u.tblAnswer j r := by
  rw [doTable_ready h, hr, hw]
  rfl

end

/-- The entry that EM_INSERT writes (R117, R119). -/
def insertedEntry (b : List Byte) : EmEntry :=
  { key := sliceB b 16 16, ctl := 2 ^ 63 + actionBits (fieldLE b 32 8) + ownerOf (fieldLE b 32 8) * 2 ^ 21, stamp := 0 }

/-- The answer of EM_INSERT, by whether its key was present before (R119, R131). -/
def insertAnswer (present : Bool) : Dev.Ins × Dev → TblRes × Dev
  | (.exists_ loc, d) => ({ status := stExists, loc := Dev.locCode loc }, d)
  | (.done loc, d) => ({ status := stOk, loc := Dev.locCode loc, rflags := if present then 0 else b2n loc.1 }, d)
  | (.quota, d) => ({ status := stQuota }, d)
  | (.full, d) => ({ status := stFull }, d)

/-- The answer of EM_DELETE of the entry at `loc`, by the overflow slot that it emptied (R120, R131). -/
def deleteAnswer (loc : Bool × Nat) : Option Nat × Dev → TblRes × Dev
  | (some o, d) => ({ status := stOk, loc := Dev.locCode loc, rflags := 2, reloc := Dev.locCode (true, o) }, d)
  | (none, d) => ({ status := stOk, loc := Dev.locCode loc }, d)

section
variable {d t : Dev} {g : Nat} {j : Job} (ht : tblTaken d j = t)
include ht

theorem tblCommand_emInsert (h : tblReady d g 0x01 j) :
    t.tblCommand none j.block =
      let present := (t.emFind (sliceB j.block 16 16)).isSome
      insertAnswer present (t.emInsertAt (insertedEntry j.block) (present && bitOf (fieldLE j.block 1 1) 0)) := by
  subst ht
  simp only [Dev.tblCommand, tblReady_ordered h, tblOpcodes, Dev.byKey_none (tblTaken_bad h)]
  rfl

section
variable {loc : Bool × Nat}

theorem tblCommand_emDelete (h : tblReady d g 0x02 j) (hf : t.emFind (sliceB j.block 16 16) = some loc) :
    t.tblCommand none j.block = deleteAnswer loc (t.emDeleteAt loc) := by
  subst ht
  simp only [Dev.tblCommand, tblReady_ordered h, tblOpcodes, Dev.byKey_none (tblTaken_bad h), hf]
  rfl

theorem tblCommand_emRead (h : tblReady d g 0x03 j) (hf : t.emFind (sliceB j.block 16 16) = some loc) :
    t.tblCommand none j.block = ({ status := stOk, loc := Dev.locCode loc, body := some (emBytes (t.locEnt loc)) }, t) := by
  subst ht
  simp [Dev.tblCommand, tblReady_ordered h, tblOpcodes, Dev.byKey_none (tblTaken_bad h), hf]

theorem tblCommand_emReadLoc (h : tblReady d g 0x04 j) (hl : loc = (bitOf (fieldLE j.block 4 4) 31, bitsOf (fieldLE j.block 4 4) 0 20)) :
    t.tblCommand none j.block = ({ status := stOk, loc := Dev.locCode loc, body := some (emBytes (t.locEnt loc)) }, t) := by
  subst ht hl
  simp [Dev.tblCommand, tblReady_ordered h, tblOpcodes, isBad_none (tblTaken_bad h)]

theorem tblCommand_emClearHit (h : tblReady d g 0x05 j) (hf : t.emFind (sliceB j.block 16 16) = some loc) :
    t.tblCommand none j.block = ({ status := stOk, loc := Dev.locCode loc },
      t.setLoc loc { t.locEnt loc with ctl := withBit (t.locEnt loc).ctl 61 false }) := by
  subst ht
  simp [Dev.tblCommand, tblReady_ordered h, tblOpcodes, Dev.byKey_none (tblTaken_bad h), hf]

end

theorem tblCommand_lpmWrite (h : tblReady d g 0x10 j) :
    t.tblCommand none j.block = ({ status := stOk, loc := fieldLE j.block 4 4 },
      t.lpmWriteAt (fieldLE j.block 4 4) { pfx := sliceB j.block 16 16, ctl := fieldLE j.block 32 8 }) := by
  subst ht
  simp [Dev.tblCommand, tblReady_ordered h, tblOpcodes]

theorem tblCommand_lpmMove (h : tblReady d g 0x11 j) (hv : (t.lpmEnt (fieldLE j.block 4 4)).valid = true)
    (hs : (Dev.covers (t.lpmEnt (fieldLE j.block 4 4)) (fieldLE j.block 8 4)).all t.slotFree = true) :
    t.tblCommand none j.block = ({ status := stOk, loc := fieldLE j.block 8 4 },
      (t.setLpm (fieldLE j.block 8 4) (t.lpmEnt (fieldLE j.block 4 4))).invalLpm (fieldLE j.block 4 4)) := by
  subst ht
  simp only [Dev.tblCommand, tblReady_ordered h, tblOpcodes, hv, if_true, Dev.find?_isBad_none (tblTaken_bad h), hs]
  rfl

theorem tblCommand_lpmInvalidate (h : tblReady d g 0x12 j) {i : Nat}
    (hi : (t.wideOver (fieldLE j.block 4 4)).getD (fieldLE j.block 4 4) = i) :
    t.tblCommand none j.block =
      ({ status := stOk, loc := i }, t.setLpm i { t.lpmEnt i with ctl := withBit (t.lpmEnt i).ctl 63 false }) := by
  subst ht hi
  simp [Dev.tblCommand, tblReady_ordered h, tblOpcodes, Dev.invalLpm_none (tblTaken_bad h)]

theorem tblCommand_lpmRead (h : tblReady d g 0x13 j) {i : Nat}
    (hi : (t.wideOver (fieldLE j.block 4 4)).getD (fieldLE j.block 4 4) = i) :
    t.tblCommand none j.block = ({ status := stOk, loc := i, body := some (lpmBytes (t.lpmEnt i)) }, t) := by
  subst ht hi
  simp [Dev.tblCommand, tblReady_ordered h, tblOpcodes, Dev.find?_isBad_none (tblTaken_bad h)]

theorem tblCommand_ruleWrite (h : tblReady d g 0x20 j) :
    t.tblCommand none j.block = ({ status := stOk, loc := fieldLE j.block 4 4 },
      (if bitOf (fieldLE j.block 1 1) 1 then List.range 8 else [fieldLE j.block 2 2]).foldl
        (fun d k => d.setRule k (fieldLE j.block 4 4) (ruleOf (sliceB j.block 16 80))) t) := by
  subst ht
  simp [Dev.tblCommand, tblReady_ordered h, tblOpcodes]

theorem tblCommand_ruleRead (h : tblReady d g 0x21 j) :
    t.tblCommand none j.block = ({ status := stOk, loc := fieldLE j.block 4 4,
                                   body := some (ruleBytes (t.ruleEnt (fieldLE j.block 2 2) (fieldLE j.block 4 4))) }, t) := by
  subst ht
  simp [Dev.tblCommand, tblReady_ordered h, tblOpcodes, isBad_none (tblTaken_bad h)]

end

section
variable {s : State} {g : Fin 4096} {j : Job} {t u : Dev} {r : TblRes} (ha : s.dev.alive = true) (ht : tblTaken s.dev j = t)
include ha ht

theorem does_emInsert {present : Bool} {i : Dev.Ins} (h : tblReady s.dev g 0x01 j)
    (hp : (t.emFind (sliceB j.block 16 16)).isSome = present)
    (hi : t.emInsertAt (insertedEntry j.block) (present && bitOf (fieldLE j.block 1 1) 0) = (i, u))
    (hr : insertAnswer present (i, u) = (r, u)) :
    Does (.emInsert g) s fun d => d = (u.mark .tableWrite).tblAnswer j r := by
  refine does_intro ha rfl (doTable_writes h rfl ?_)
  rw [ht, tblCommand_emInsert ht h, hp]
  exact (congrArg (insertAnswer present) hi).trans hr

theorem does_emDelete {loc : Bool × Nat} {o : Option Nat} (h : tblReady s.dev g 0x02 j)
    (hf : t.emFind (sliceB j.block 16 16) = some loc) (hd : t.emDeleteAt loc = (o, u)) (hr : deleteAnswer loc (o, u) = (r, u)) :
    Does (.emDelete g) s fun d => d = (u.mark .tableWrite).tblAnswer j r := by
  refine does_intro ha rfl (doTable_writes h rfl ?_)
  rw [ht, tblCommand_emDelete ht h hf, hd, hr]

end

/-- Settles O10: each command is the equation of its opcode, with the outcome of its insert or delete. -/
theorem exactMatchCommands : Obligations.ExactMatchCommands := by
  refine ⟨fun s g j t ha h ht => ?_, fun s g j t ha h ht => ?_,
    fun s g j loc ha h hf => does_intro ha rfl (doTable_reads h rfl (tblCommand_emRead rfl h hf)),
    fun s g j loc ha h hl => does_intro ha rfl (doTable_reads h rfl (tblCommand_emReadLoc rfl h hl)),
    fun s g j loc ha h hf => does_intro ha rfl (doTable_writes h rfl (tblCommand_emClearHit rfl h hf))⟩
  · intro key ctl ent
    refine ⟨fun w hf hq hw => ?_, fun i hf hq hw hi => ?_, fun loc hf hb => ?_, fun loc hf hb ho => ?_⟩
    · refine does_emInsert ha ht h (congrArg Option.isSome hf) (Dev.emInsertAt_way hf hq hw) ?_
      simp only [insertAnswer, Dev.locCode_way]
      rfl
    · refine does_emInsert ha ht h (congrArg Option.isSome hf) (Dev.emInsertAt_overflow hf hq hw hi) ?_
      simp only [insertAnswer, Dev.locCode_overflow]
      rfl
    · exact does_emInsert ha ht (i := .exists_ loc) h (congrArg Option.isSome hf) (by rw [hb]; exact Dev.emInsertAt_exists hf) rfl
    · exact does_emInsert ha ht (i := .done loc) h (congrArg Option.isSome hf) (by rw [hb]; exact Dev.emInsertAt_replace hf ho) rfl
  · intro free
    refine ⟨fun i hf => ?_, fun i u hf hu hr => ?_, fun i u o e hf hu hr => ?_⟩
    · refine does_emDelete ha ht h hf Dev.emDeleteAt_overflow ?_
      rw [deleteAnswer, Dev.locCode_overflow]
      rfl
    · refine does_emDelete ha ht h hf (Dev.emDeleteAt_way hu hr) ?_
      rw [deleteAnswer, Dev.locCode_way]
      rfl
    · refine does_emDelete ha ht h hf (Dev.emDeleteAt_relocates hu hr) ?_
      rw [deleteAnswer, Dev.locCode_way, Dev.locCode_overflow]
      rfl

/-- Settles O11: each command is the equation of its opcode, and each refusal that of its condition. -/
theorem lpmAndRuleCommands : Obligations.LpmAndRuleCommands := by
  refine ⟨⟨fun s g j ha h => does_intro ha rfl (doTable_writes h rfl (tblCommand_lpmWrite rfl h)),
    fun s g j ha h hv hs => does_intro ha rfl (doTable_writes h rfl (tblCommand_lpmMove rfl h hv hs)),
    fun s g j i ha h hi => does_intro ha rfl (doTable_writes h rfl (tblCommand_lpmInvalidate rfl h hi)),
    fun s g j i ha h hi => does_intro ha rfl (doTable_reads h rfl (tblCommand_lpmRead rfl h hi)),
    fun s g j ha h hb => does_intro ha rfl (doTable_writes h rfl ?_),
    fun s g j ha h hb => does_intro ha rfl (doTable_writes h rfl ?_),
    fun s g j ha h => does_intro ha rfl (doTable_reads h rfl (tblCommand_ruleRead rfl h))⟩,
    fun d owner b => ⟨Dev.tblCommand_notReady, Dev.tblCommand_badOpcode, Dev.tblCommand_denied⟩⟩
  · rw [tblCommand_ruleWrite rfl h, hb]
    rfl
  · rw [tblCommand_ruleWrite rfl h, hb]
    rfl

end Sys2Proof.Machine
end

section
/-!
PROOFS. The rows of the pipeline and the learn arbiter (O12, O13): an equation for each row, and the learn request decided against the
tables as it finds them.
-/

namespace Sys2Proof.Machine

/-! ### The pipeline -/

/-- A record that was looked up carries the outcome `l` (R105). -/
def lookedUp (k : Nat) (r : InCls) (l : Look) (d : Dev) : Dev :=
  d.setCp k { d.cp k with inflight := (d.cp k).inflight.map fun x => if x = r then { x with look := some l } else x }

section
variable {k : Fin 8} {r : InCls} {d e : Dev}

/-- CLASSIFICATION of the oldest sound record, behind the table writes of its cycle (R105, R136). -/
theorem doClassification_record (he : d.before .tableWrite = e)
    (hr : ((e.cp k).inflight.find? fun r => !r.malformed && r.look.isNone) = some r) (hs : e.leftSetup (PL_CLS_CTRL k) = true) :
    doClassification k d = lookedUp k r (e.lookups k r.words).1 (e.lookups k r.words).2 := by
  simp only [doClassification, he, hr, hs]
  rfl

/-- A record given a queue, of a frame that no inline transform takes, counts and goes on to it (R108, R109, R280). -/
theorem Dev.classified_queued {q : Nat} {l : Look} {f : Frame} (hm : r.malformed = false) (hl : r.look = some l) (hq : l.queue = some q)
    (hf : d.frame? r.frame = some f) (hs : f.stage = .classify) (hx : d.flag (GLZ_SEL_EN k) = false) :
    d.classified k r =
      (d.inc (PL_CNT_CLS_QUEUED k)).toQueue r.frame f { queue := q, cls := l.cls, colour := l.colour, xform := none } := by
  have hsel : (d.inc (PL_CNT_CLS_QUEUED k)).inlineSel k r.words = none := by simp [Dev.inlineSel, hx]
  simp only [Dev.classified, hm, hl, hq, hf, hs, hsel, if_true, Bool.false_eq_true, if_false, Option.isSome_none]

/-- CLASSIFICATION_COMPLETE 105 cycles after the record came (R109). -/
theorem doClassificationComplete_due {rest : List InCls} {l : Look} (he : d.afterPipes k = e) (hr : (e.cp k).inflight = r :: rest)
    (hc : r.at_ + 105 ≤ e.cycle) (hl : r.look = some l) :
    doClassificationComplete k d = (e.setCp k { e.cp k with inflight := rest }).classified k r := by
  have hgo : ¬ (e.cycle < r.at_ + 105 ∨ (r.malformed = false ∧ r.look = none)) := by simp [hl, hc]
  simp only [doClassificationComplete, he, hr, if_neg hgo]

end

/-- INLINE_TRANSFORM of a frame of a port that passed (R285). -/
theorem doInlineTransform_port {e : Fin 256} {d x : Dev} {i p : Nat} {f : Frame} {a : Actions} (he : inlineEnd e d = some (i, x))
    (hf : x.frame? i = some f) (hs : f.src = .port p) (ha : f.act = some a) : doInlineTransform e d = x.toQueue i f a := by
  simp only [doInlineTransform, he, hf, hs, ha]

/-! ### The enables -/

theorem doClassifyEnable_on {p : Path} {k : Fin 8} {data : W32} (h : fieldGet data 0 1 = 1) (d : Dev) :
    doClassifyEnable p k data d = ((d.writeFields p (PL_CLS_CTRL k) data).put (PL_CLS_CTRL_ENABLE k) 1).lock (PL_CLS_CTRL k) := by
  simp only [doClassifyEnable, h, if_true]

theorem doTableEnable_on {p : Path} {data : W32} (h : fieldGet data 0 1 = 1) (d : Dev) :
    doTableEnable p data d = ((d.restartScrub.writeFields p TBL_CTRL data).put TBL_CTRL_ENABLE 1).lock TBL_CTRL := by
  simp only [doTableEnable, h, if_true]

/-! ### The scrubber -/

/-- The first event of a cycle comes behind no other. -/
theorem Dev.before_first {d : Dev} (h : d.marks = []) (m : Mark) : d.before m = d := by simp [Dev.before, Dev.marked, h]

/-- SCRUB_READ of a read that is due and ends no pass, of sound entries (R135). -/
theorem doScrubRead_due {d : Dev} {x count every : Nat} (hx : d.scrubNext = x) (hen : d.flag TBL_CTRL_SCRUB_EN = true)
    (hb : d.tbl.bad = []) (hm : d.marks = []) (hp : scrubPorts.getD x (0, 0) = (count, every)) (hn : d.tbl.scrub.getD x 0 < count)
    (hlast : d.tbl.scrub.set x (d.tbl.scrub.getD x 0 + 1) ≠ scrubPorts.map (·.1))
    (hc : d.tbl.scrubAt + every * d.tbl.scrub.getD x 0 ≤ d.cycle) :
    doScrubRead d = d.setTbl fun t => { t with scrub := d.tbl.scrub.set x (d.tbl.scrub.getD x 0 + 1) } := by
  have hread (y : Nat → EntryRef → Bool) (n : Nat) : (d.before .tableWrite).purge (y n) = d := by
    rw [Dev.before_first hm, purge_none hb]
  simp only [doScrubRead, hx, hp, hread, if_pos (And.intro hen (And.intro hn hc)), if_neg hlast]

/-! ### The learn arbiter -/

/-- LEARN_COMMIT while no table command waits or commits, of a request whose owner is in no reset (R126, R375). -/
theorem doLearnCommit_free {d : Dev} {r : LearnReq} {rest : List LearnReq} (hc : d.tbl.nextAt ≤ d.cycle) (hj : d.tbl.jobs = [])
    (hr : d.tbl.learn = r :: rest) (ho : d.get (SAG_STATUS_STATE (d.get (TBL_LEARN_PORT_OWNER r.port))) ≠ 4) :
    doLearnCommit d = d.learnCommit := by
  simp [doLearnCommit, hj, hr, ho, Nat.not_lt.mpr hc]

namespace Dev

/-- The device with the oldest learn request taken, behind which `rest` waits (R126). -/
def learnTaken (d : Dev) (rest : List LearnReq) : Dev :=
  ((d.setTbl fun t => { t with learn := rest, nextAt := d.cycle + 1 }).mark .tableWrite).put TBL_STATUS_LEARN_QDEPTH rest.length

/-- The entry that a request for a new key inserts (R127). -/
def learnedEntry (d : Dev) (r : LearnReq) : EmEntry :=
  { key := r.key, stamp := d.usNow
    ctl := 2 ^ 63 + 2 ^ 62 + 2 ^ 53 + d.get (TBL_LEARN_PORT_QUEUE r.port) * 2 ^ 32 + d.get (TBL_LEARN_PORT_OWNER r.port) * 2 ^ 21 +
      r.port * 2 ^ 10 }

section
variable {d : Dev} {r : LearnReq} {rest : List LearnReq}

theorem learnTaken_get {f : Fld} (h : f.addr ≠ TBL_STATUS) : (d.learnTaken rest).get f = d.get f :=
  get_put_addr _ TBL_STATUS_LEARN_QDEPTH f _ h

/-- The configuration of a port for learning lies behind the status register. -/
theorem learnPort_ne_status (p : Nat) : TBL_LEARN_PORT p ≠ TBL_STATUS := by
  unfold TBL_LEARN_PORT TBL_STATUS
  omega

theorem learnTaken_owner (p : Nat) : (d.learnTaken rest).get (TBL_LEARN_PORT_OWNER p) = d.get (TBL_LEARN_PORT_OWNER p) :=
  learnTaken_get (learnPort_ne_status p)

theorem learnTaken_queue (p : Nat) : (d.learnTaken rest).get (TBL_LEARN_PORT_QUEUE p) = d.get (TBL_LEARN_PORT_QUEUE p) :=
  learnTaken_get (learnPort_ne_status p)

theorem learnTaken_entry : (d.learnTaken rest).learnedEntry r = d.learnedEntry r := by
  simp only [learnedEntry, learnTaken_owner, learnTaken_queue]
  rfl

variable (hr : d.tbl.learn = r :: rest) (hb : d.tbl.bad = [])
include hr hb

/-- A key that is in no table is learned (R127). -/
theorem learnCommit_new {e : Dev} {loc : Bool × Nat} (hf : (d.learnTaken rest).emFind r.key = none)
    (hi : (d.learnTaken rest).emInsertAt (d.learnedEntry r) false = (.done loc, e)) :
    d.learnCommit =
      (e.inc TBL_CNT_LEARN_NEW).learnEvent 1 r.port 0 (d.get (TBL_LEARN_PORT_OWNER r.port)) (locCode loc) r.key := by
  have hp := purge_none (d := d.learnTaken rest) hb
  rw [← learnTaken_entry (rest := rest)] at hi
  rw [← learnTaken_owner (rest := rest)]
  simp only [learnTaken, learnedEntry] at hp hf hi ⊢
  simp only [learnCommit, hr, hp, hf, hi]

/-- A learned entry of the request's port only counts (R127). -/
theorem learnCommit_same {loc : Bool × Nat} (hf : (d.learnTaken rest).emFind r.key = some loc)
    (hl : ((d.learnTaken rest).locEnt loc).learned = true) (hp : ((d.learnTaken rest).locEnt loc).port = r.port) :
    d.learnCommit = (d.learnTaken rest).inc TBL_CNT_LEARN_DUP := by
  have hpurge := purge_none (d := d.learnTaken rest) hb
  simp only [learnTaken] at hpurge hf hl hp ⊢
  simp only [learnCommit, hr, hpurge, hf, hl, hp]
  rfl

end
end Dev

/-- Settles O12: each row is its equation. -/
theorem pipelineRows : Obligations.PipelineRows :=
  ⟨fun s k r e ha he hr hs => does_intro ha rfl (doClassification_record he hr hs),
    fun s e k r rest q l f ha he hr hc hm hl hq hf hs hx => does_intro ha rfl
      ((doClassificationComplete_due he hr hc hl).trans (Dev.classified_queued hm hl hq hf hs hx)),
    fun s r rest ha hc hj hr ho => does_intro ha rfl (doLearnCommit_free hc hj hr ho),
    fun s x count every ha hx hen hb hm hp hn hlast hc => does_intro ha rfl (doScrubRead_due hx hen hb hm hp hn hlast hc),
    fun s dv p k data hr h => does_plain hr (by unfold PL_CLS_CTRL; omega) rfl (doClassifyEnable_on h dv),
    fun s dv p data hr h => does_plain hr (by unfold TBL_CTRL; omega) rfl (doTableEnable_on h dv),
    fun s e i x f p a ha he hf hs hact => does_intro ha rfl (doInlineTransform_port he hf hs hact)⟩

/-- Settles O13: the request is taken and decided by the entry of its key. -/
theorem learnDecision : Obligations.LearnDecision :=
  ⟨fun _ _ _ _ _ hr hb => Dev.learnCommit_new hr hb, fun _ _ _ _ hr hb => Dev.learnCommit_same hr hb⟩

end Sys2Proof.Machine
end

section
/-!
PROOFS. The selectors of a record (O54): the bytes of a key, the range comparators, and the register of their bounds, in the map of
register space, at reset and in a write.
-/

namespace Sys2Proof.Machine

/-! ### The key of a record (R106) -/

/-- Of pairs laid end to end, the two halves of pair `i`. -/
theorem getD_flatMap_pairs {α β : Type} (f g : α → β) (z : β) {l : List α} {i : Nat} (h : i < l.length) :
    (l.flatMap fun x => [f x, g x]).getD (2 * i) z = f l[i] ∧ (l.flatMap fun x => [f x, g x]).getD (2 * i + 1) z = g l[i] := by
  induction l generalizing i with
  | nil => simp at h
  | cons x l ih =>
    cases i with
    | zero => exact ⟨rfl, rfl⟩
    | succ i => exact ih (Nat.lt_of_succ_lt_succ h)

/-- A word gives its high byte and then its low one. -/
theorem beBytes_word (x : W16) : beBytes 2 x.toNat = [x.extractLsb' 8 8, x.extractLsb' 0 8] := by
  have hhi : BitVec.ofNat 8 (x.toNat / 256) = x.extractLsb' 8 8 := by
    simp [BitVec.extractLsb', Nat.shiftRight_eq_div_pow]
  have hlo : BitVec.ofNat 8 x.toNat = x.extractLsb' 0 8 := by simp [BitVec.extractLsb']
  rw [← hhi, ← hlo]
  rfl

theorem recordKey_eq (ws : Vector W16 32) (w : Nat) :
    recordKey ws w =
      (List.range 8).flatMap fun i => [(ws.getD (w + i) 0#16).extractLsb' 8 8, (ws.getD (w + i) 0#16).extractLsb' 0 8] := by
  simp only [recordKey, beBytes_word]

theorem recordKey_length (ws : Vector W16 32) (w : Nat) : (recordKey ws w).length = 16 := by
  rw [recordKey_eq]
  rfl

theorem recordKey_byte (ws : Vector W16 32) (w : Nat) {i : Nat} (h : i < 8) :
    (recordKey ws w).getD (2 * i) 0#8 = (ws.getD (w + i) 0#16).extractLsb' 8 8 ∧
    (recordKey ws w).getD (2 * i + 1) 0#8 = (ws.getD (w + i) 0#16).extractLsb' 0 8 := by
  have hi : i < (List.range 8).length := h
  have hpair := getD_flatMap_pairs (fun i => (ws.getD (w + i) 0#16).extractLsb' 8 8)
    (fun i => (ws.getD (w + i) 0#16).extractLsb' 0 8) 0#8 hi
  rwa [List.getElem_range, ← recordKey_eq] at hpair

/-! ### Registers and counters of a pipeline's block -/

/-- Blocks that end at or below an offset hold no register there. -/
theorem regAtIn_drop {a n : Nat} {l : List (BlockDesc × List RegDesc)} (h : ∀ x ∈ l.take n, x.1.base + x.1.stride * x.1.count ≤ a) :
    regAtIn a l = regAtIn a (l.drop n) := by
  induction n generalizing l with
  | zero => rfl
  | succ n ih =>
    cases l with
    | nil => rfl
    | cons x l =>
      obtain ⟨hx, hl⟩ := List.forall_mem_cons.mp h
      exact (if_neg (by omega)).trans (ih hl)

/-- Blocks that end at or below an offset hold no counter there. -/
theorem counterIn_drop {a n : Nat} {l : List (BlockDesc × List CntDesc)}
    (h : ∀ x ∈ l.take n, x.1.base + x.1.stride * x.1.count ≤ a) :
    counterIn a l = counterIn a (l.drop n) := by
  induction n generalizing l with
  | zero => rfl
  | succ n ih =>
    cases l with
    | nil => rfl
    | cons x l =>
      obtain ⟨hx, hl⟩ := List.forall_mem_cons.mp h
      exact (if_neg (by omega)).trans (ih hl)

/-- The counters of a pipeline, by their offset in its block. -/
def cntsPL : List CntDesc := [⟨0x100, [(0x8, 13)], true⟩, ⟨0x800, [(0x8, 12)], true⟩]

section
variable {k o : Nat} (hk : k < 8) (ho : o < 0x20000)
include hk ho

theorem regAt_pipe : regAt (0x200000 + k * 0x20000 + o) = (findReg o regsPL).map fun r => (0x200000 + k * 0x20000, r) := by
  have hbelow : ∀ x ∈ blocks.take 7, x.1.base + x.1.stride * x.1.count ≤ 0x200000 := by decide
  have hdiv : (0x200000 + k * 0x20000 + o - 0x200000) / 0x20000 = k := by omega
  have hmod : (0x200000 + k * 0x20000 + o - 0x200000) % 0x20000 = o := by omega
  have hin : 0x200000 ≤ 0x200000 + k * 0x20000 + o ∧ 0x200000 + k * 0x20000 + o < 0x200000 + 0x20000 * 8 := by omega
  rw [regAt, regAtIn_drop fun x hx => (hbelow x hx).trans hin.1]
  refine (if_pos hin).trans ?_
  simp only [hdiv, hmod]

theorem counterAt_pipe : counterAt (0x200000 + k * 0x20000 + o) = findCnt o cntsPL := by
  have hbelow : ∀ x ∈ counters.take 6, x.1.base + x.1.stride * x.1.count ≤ 0x200000 := by decide
  have hmod : (0x200000 + k * 0x20000 + o - 0x200000) % 0x20000 = o := by omega
  have hin : 0x200000 ≤ 0x200000 + k * 0x20000 + o ∧ 0x200000 + k * 0x20000 + o < 0x200000 + 0x20000 * 8 := by omega
  rw [counterAt, counterIn_drop fun x hx => (hbelow x hx).trans hin.1]
  refine (if_pos hin).trans ?_
  simp only [hmod, cntsPL]

end

/-! ### The bounds of a range comparator (R113) -/

/-- HIGH and LOW of PL_RC_BOUNDS. -/
def boundsHigh : FieldDesc := ⟨16, 16, .rw, 0, false, .none⟩
def boundsLow : FieldDesc := ⟨0, 16, .rw, 65535, false, .none⟩

/-- The register of both. -/
def boundsReg : RegDesc := ⟨0x404, [(0x8, 64)], 0, false, [boundsHigh, boundsLow]⟩

theorem bounds_offset (k c : Nat) : PL_RC_BOUNDS k c = 0x200000 + k * 0x20000 + (0x404 + c * 8) := by
  unfold PL_RC_BOUNDS
  omega

section
variable (k : Fin 8) (c : Fin 64)

theorem regAt_bounds : regAt (PL_RC_BOUNDS k c) = some (0x200000 + k.val * 0x20000, boundsReg) := by
  have hfind : ∀ c : Fin 64, findReg (0x404 + c * 8) regsPL = some boundsReg := by decide
  rw [bounds_offset, regAt_pipe k.isLt (by omega), hfind c]
  rfl

theorem counterAt_bounds : counterAt (PL_RC_BOUNDS k c) = none := by
  have hfind : ∀ c : Fin 64, findCnt (0x404 + c * 8) cntsPL = none := by decide
  rw [bounds_offset, counterAt_pipe k.isLt (by omega), hfind c]

/-- The bounds at reset are HIGH = 0 and LOW = 0xFFFF. -/
theorem regReset_bounds : regReset (PL_RC_BOUNDS k c) = 0xFFFF#32 := by
  have hmap : bootMapReset (0x200000 + k.val * 0x20000) boundsReg.off (PL_RC_BOUNDS k c - (0x200000 + k.val * 0x20000)) = 0 := by
    rw [bootMapReset, if_neg (by omega), if_neg (by omega)]
  rw [regReset, regAt_bounds]
  dsimp only
  rw [hmap]
  rfl

theorem reset_bounds :
    State.reset.dev.get (PL_RC_BOUNDS_HIGH k c) = 0 ∧ State.reset.dev.get (PL_RC_BOUNDS_LOW k c) = 0xFFFF := by
  have hrd : State.reset.dev.rd (PL_RC_BOUNDS k c) = 0xFFFF#32 := by
    have hregs : State.reset.dev.reg.regs = [] := rfl
    rw [Dev.rd, hregs, tabGet, regReset_bounds]
  simp only [Dev.get, PL_RC_BOUNDS_HIGH, PL_RC_BOUNDS_LOW, hrd]
  decide

end

namespace Dev

theorem inRange_iff (d : Dev) (k c : Nat) (ws : Vector W16 32) :
    d.inRange k c ws = true ↔ d.get (PL_RC_BOUNDS_LOW k c) ≤ (ws.getD (d.get (PL_RC_CFG_WORD k c)) 0#16).toNat ∧
      (ws.getD (d.get (PL_RC_CFG_WORD k c)) 0#16).toNat ≤ d.get (PL_RC_BOUNDS_HIGH k c) := by
  simp [inRange]

/-- Inside the blocks of the pipelines, but for their punt buckets, a plain write settles nothing and nothing follows it. -/
theorem plainWrite_pipe {d : Dev} {p : Path} {a : Nat} {data : W32} (ha : 0x200000 ≤ a ∧ a < 0x300000) (hp : a % 0x20000 ≠ 0x240) :
    d.plainWrite p a data = d.writeFields p a data := by
  have hcfg : (decide (0xF00000 ≤ a) && decide (a < 0x1000000) && decide (0x8000 ≤ a % 0x10000) && a % 0x80 == 4) = false := by
    simp [show ¬ 0xF00000 ≤ a by omega]
  have hsettle : d.settleFor a = d := by
    rw [settleFor, if_neg (by omega), if_neg (by omega), if_neg (by rw [TBL_CTRL]; omega)]
  have hfollow (x : Dev) : x.followUp a = x := by
    have hi : irqRegAt a = none := by rw [irqRegAt, if_pos (by rw [DMA_CH_SIZE]; omega)]
    have hl : gateListAt a = none := by rw [gateListAt, if_neg (by omega), if_neg (by omega)]
    have hg : gateAt a = none := by rw [gateAt, hl, gateRegsAt, if_neg (by omega), if_neg (by omega)]
    rw [followUp, hi, hg]
    simp only [if_neg (show ¬ a = CLK_RX_EN by rw [CLK_RX_EN]; omega)]
    exact if_neg (by omega)
  rw [plainWrite, hcfg, hsettle, hfollow, if_neg (by rw [GLZ_KC_BASE]; omega)]
  rfl

/-- A write of an RW field is no lock violation (R43, R46). -/
theorem fieldWrite_rw_viol {d : Dev} {a : Nat} {data : W32} {f : FieldDesc} {lk : Bool} (ho : f.own = false) (h : f.acc = .rw) :
    (fieldWrite lk a data d f).2 = false := by
  rw [fieldWrite_rw ho h]

theorem fieldsWrite_bounds (lk : Bool) (a : Nat) (data : W32) (d : Dev) :
    fieldsWrite lk a data boundsReg.fields d false =
      ((fieldWrite lk a data (fieldWrite lk a data d boundsHigh).1 boundsLow).1, false) := by
  have hhigh (d : Dev) : (fieldWrite lk a data d boundsHigh).2 = false := fieldWrite_rw_viol rfl rfl
  have hlow (d : Dev) : (fieldWrite lk a data d boundsLow).2 = false := fieldWrite_rw_viol rfl rfl
  simp only [boundsReg, fieldsWrite, hhigh, hlow, Bool.or_self]

/-- A write of the bounds of a comparator, which a lookup of its cycle does not see yet (R136), in any register that stands there. -/
theorem writeFields_comparator {d : Dev} {p : Path} {a base : Nat} {r : RegDesc} {data : W32} (hc : counterAt a = none)
    (hr : regAt a = some (base, r)) (ha : 0x200000 ≤ a ∧ a < 0x300000) (ho : 0x400 ≤ a % 0x20000 ∧ a % 0x20000 < 0x600)
    (h4 : a % 8 = 4) :
    d.writeFields p a data =
      let e := d.mark .tableWrite
      let res := fieldsWrite (e.locked (lockAddr base a r)) a data r.fields e false
      if res.2 then res.1.reportViol p a else res.1 := by
  have hlink : d.absentLink a = false := by
    rw [absentLink]
    exact if_neg (by omega)
  have hs : d.absentSub a = false := by rw [absentSub, hlink, if_neg Bool.false_ne_true, if_neg (by omega)]
  have hl : gateListAt a = none := by rw [gateListAt, if_neg (by omega), if_neg (by omega)]
  have hg : gateRegsAt a = none := by rw [gateRegsAt, if_neg (by omega), if_neg (by omega)]
  have hblk : d.gateListBlocked a = false := by rw [gateListBlocked, hl]
  have himem : (decide (0x200000 ≤ a) && decide (a < 0x300000) && decide (0x10000 ≤ a % 0x20000)) = false := by
    simp [show ¬ 0x10000 ≤ a % 0x20000 by omega]
  have hrc : (decide (0x200000 ≤ a) && decide (a < 0x300000) && decide (0x400 ≤ a % 0x20000) && decide (a % 0x20000 < 0x600) &&
      a % 8 == 4) = true := by
    simp [ha, ho, h4]
  simp only [writeFields, hs, hc, hr, hblk, himem, hg, hrc, Bool.false_eq_true, if_false, if_true]
  rfl

/-- An RW field of the plain kind takes the written value. -/
theorem fieldWrite_get {d : Dev} {a : Nat} {data : W32} {f : FieldDesc} {lk : Bool} (ho : f.own = false) (h : f.acc = .rw)
    (hx : f.fix = .none) (hw : f.lo + f.width ≤ 32) (ha : a ≠ BUF_SPILL_SIZE) :
    (fieldWrite lk a data d f).1.get ⟨a, f.lo, f.width⟩ = fieldGet data f.lo f.width := by
  have hstore : d.fieldStore a f (fieldGet data f.lo f.width) = fieldGet data f.lo f.width := by
    rw [fieldStore, hx]
    exact if_neg fun h => ha h.1
  rw [fieldWrite_rw ho h]
  exact (get_put_same d ⟨a, f.lo, f.width⟩ _ hw).trans (by rw [hstore]; exact Nat.mod_mod _ _)

/-- A write of an RW field leaves every field of other bits. -/
theorem fieldWrite_get_other {d : Dev} {a : Nat} {data : W32} {f : FieldDesc} {g : Fld} {lk : Bool} (ho : f.own = false) (h : f.acc = .rw)
    (hw : f.lo + f.width ≤ 32) (hg : f.lo + f.width ≤ g.lo ∨ g.lo + g.width ≤ f.lo) :
    (fieldWrite lk a data d f).1.get g = d.get g := by
  rw [fieldWrite_rw ho h]
  exact get_put_bits d ⟨a, f.lo, f.width⟩ g _ hw hg

/-- One write changes both bounds (R113). -/
theorem plainWrite_bounds (d : Dev) (p : Path) (k : Fin 8) (c : Fin 64) (data : W32) :
    (d.plainWrite p (PL_RC_BOUNDS k c) data).get (PL_RC_BOUNDS_LOW k c) = fieldGet data 0 16 ∧
    (d.plainWrite p (PL_RC_BOUNDS k c) data).get (PL_RC_BOUNDS_HIGH k c) = fieldGet data 16 16 := by
  have hoff := bounds_offset k c
  have hspill : PL_RC_BOUNDS k c ≠ BUF_SPILL_SIZE := by
    rw [BUF_SPILL_SIZE]
    omega
  rw [plainWrite_pipe (by omega) (by omega),
    writeFields_comparator (counterAt_bounds k c) (regAt_bounds k c) (by omega) (by omega) (by omega)]
  simp only [fieldsWrite_bounds, Bool.false_eq_true, if_false]
  exact ⟨fieldWrite_get (f := boundsLow) rfl rfl rfl (by decide) hspill,
    (fieldWrite_get_other rfl rfl (by decide) (.inl (by decide : 0 + 16 ≤ 16))).trans
      (fieldWrite_get (f := boundsHigh) rfl rfl rfl (by decide) hspill)⟩

end Dev

/-- Settles O54: the bytes of a key by the pairs that its words give, and the bounds by their register in the map of register space. -/
theorem recordSelectors : Obligations.RecordSelectors := by
  refine ⟨fun ws w i _ hi => ⟨recordKey_length ws w, recordKey_byte ws w hi⟩,
    fun d k c ws => ⟨d.inRange_iff k c ws, fun h => Bool.eq_false_iff.mpr fun hin => ?_⟩, fun k c => ?_,
    fun s dv p w k c data hr hw => does_plain hr (by rw [hw, bounds_offset]; omega) rfl ?_⟩
  · obtain ⟨hlo, hhi⟩ := (d.inRange_iff k c ws).mp hin
    omega
  · obtain ⟨hhigh, hlow⟩ := reset_bounds k c
    omega
  · rw [doRegisterWrite, busKey_low (by rw [hw, bounds_offset]; omega), hw]
    exact dv.plainWrite_bounds p k c data

end Sys2Proof.Machine
end

section
/-!
PROOFS. The indirect commands of the buffer manager and the enables of BUF and TM (O15): a command whose OP names it is its operation on
entry INDEX, and an equation for each case of an enable.
-/

namespace Sys2Proof.Machine

/-! ### The indirect commands (R159) -/

section
variable {p : Path} {data : W32}

/-- A command whose OP names it is executed on entry INDEX, after the write of its register (R159). -/
theorem indirect_named {reg op : Nat} {f : Dev → Nat → Dev} {d : Dev} (h : fieldGet data 24 3 = op) :
    indirect reg op p data f d = f (d.writeFields p reg data) (fieldGet data 0 16) := if_pos h

/-- A command of BUF, on a path that reaches it, does its operation on what the write of the command register leaves. -/
theorem does_bufIndirect {c : Instr} {s : State} {dv : Dev} {op : Nat} {f : Dev → Nat → Dev} {y : Dev} (hr : Reaches s.dev p dv)
    (hc : exec c s = s.regWrite p BUF_IND_CMD data (indirect BUF_IND_CMD op p data f)) (hop : fieldGet data 24 3 = op)
    (hy : f (dv.writeFields p BUF_IND_CMD data) (fieldGet data 0 16) = y) : Does c s fun d => d = y :=
  does_plain hr (by decide) hc ((indirect_named hop).trans hy)

end

/-- A meter's new configuration under a FILL bit of value `n`: filled buckets where it is 1, capped ones otherwise (R159, R161). -/
theorem Dev.meterFrom_fill (w : Nat → Nat) (now : Nat) (m : Meter) (n : Nat) :
    Dev.meterFrom w now m (n == 1) =
      { m.settle now with
        cir := w 0, pir := w 1, aware := bitOf (w 2) 25, rfc4115 := bitOf (w 2) 24, cbs := bitsOf (w 2) 0 24
        adj := bitsOf (w 3) 24 6, pbs := bitsOf (w 3) 0 24
        tc := if n = 1 then bitsOf (w 2) 0 24 * tokenUnit else Nat.min (m.settle now).tc (bitsOf (w 2) 0 24 * tokenUnit)
        tp := if n = 1 then bitsOf (w 3) 0 24 * tokenUnit else Nat.min (m.settle now).tp (bitsOf (w 3) 0 24 * tokenUnit) } := by
  simp only [Dev.meterFrom, beq_iff_eq]

/-! ### The enables (R46, R155) -/

section
variable {p : Path} {data : W32} {d e : Dev}

theorem doBufferEnable_off (h : fieldGet data 0 1 = 0) :
    doBufferEnable p data d = (d.writeFields p BUF_CTRL data).put BUF_CTRL_ENABLE 0 := by
  simp only [doBufferEnable, h, Nat.zero_ne_one, false_and, if_false]

/-- The first 1 gives up a spill region that holds the unit of GLZ_KC_BASE, and locks the block. -/
theorem doBufferEnable_first (h : fieldGet data 0 1 = 1) (he : (d.writeFields p BUF_CTRL data).put BUF_CTRL_ENABLE 1 = e)
    (hs : e.leftSetup BUF_CTRL = false) :
    doBufferEnable p data d =
      (if e.get BUF_SPILL_BASE_GIB * 4 ≤ e.get GLZ_KC_BASE_UNIT ∧
          e.get GLZ_KC_BASE_UNIT < e.get BUF_SPILL_BASE_GIB * 4 + e.get BUF_SPILL_SIZE_GIB * 4
        then e.put BUF_SPILL_SIZE_GIB 0 else e).lock BUF_CTRL := by
  simp only [doBufferEnable, h, he, hs, and_self, if_true]

/-- A block that has left set-up only has its bit set again. -/
theorem doBufferEnable_again (h : fieldGet data 0 1 = 1) (he : (d.writeFields p BUF_CTRL data).put BUF_CTRL_ENABLE 1 = e)
    (hs : e.leftSetup BUF_CTRL = true) : doBufferEnable p data d = e := by
  simp only [doBufferEnable, h, he, hs, Bool.true_eq_false, and_false, if_false]

theorem doTmEnable_on (h : fieldGet data 0 1 = 1) :
    doTmEnable p data d = ((d.writeFields p TM_CTRL data).put TM_CTRL_ENABLE 1).lock TM_CTRL := by
  simp only [doTmEnable, h, if_true]

end

/-- Settles O15: each command is its operation on the entry that INDEX names, and each enable the equation of its case. -/
theorem bufferIndirect : Obligations.BufferIndirect := by
  refine ⟨fun s dv p data e hr hw => ?_, fun s dv p data hr h => does_plain hr (by decide) rfl (doBufferEnable_off h),
    fun s dv p data e hr h he hs => does_plain hr (by decide) rfl (doBufferEnable_first h he hs),
    fun s dv p data e hr h he hs => does_plain hr (by decide) rfl (doBufferEnable_again h he hs),
    fun s dv p data hr h => does_plain hr (by decide) rfl (doTmEnable_on h)⟩
  subst hw
  exact ⟨fun hop => does_bufIndirect hr rfl hop rfl, fun hop => does_bufIndirect hr rfl hop rfl,
    fun hop => does_bufIndirect hr rfl hop rfl,
    fun hop => does_bufIndirect hr rfl hop (congrArg (fun x => (Dev.setMeter _ _ x).mark _) (Dev.meterFrom_fill _ _ _ _)),
    fun hop => does_bufIndirect hr rfl hop rfl, fun hop => does_bufIndirect hr rfl hop rfl⟩

end Sys2Proof.Machine
end

section
/-!
PROOFS. Scheduling, gates and network time (O16, O17, O18): what a write of a node entry comes to, the grid of a change time, what the
operations of a gate leave alone, and an equation for each case of the other rows.
-/

namespace Sys2Proof.Machine

/-! ### The indirect commands of the traffic manager (R173, R195, R196) -/

/-- A command of TM, on a path that reaches it, does its operation on what the write of the command register leaves. -/
theorem does_tmIndirect {p : Path} {data : W32} {c : Instr} {s : State} {dv : Dev} {op : Nat} {f : Dev → Nat → Dev} {y : Dev}
    (hr : Reaches s.dev p dv) (hc : exec c s = s.regWrite p TM_IND_CMD data (indirect TM_IND_CMD op p data f))
    (hop : fieldGet data 24 3 = op) (hy : f (dv.writeFields p TM_IND_CMD data) (fieldGet data 0 16) = y) :
    Does c s fun d => d = y :=
  does_plain hr (by decide) hc ((indirect_named hop).trans hy)

namespace Dev

/-- The entry that WRITE_NODE writes: a group in a saggar's range keeps that saggar as its owner (R195, R366). -/
def writtenNode (d : Dev) (lvl i : Nat) (fill : Bool) : Node :=
  let y := nodeFrom (d.indRd 0x500080) d.cycle lvl (d.node lvl i) fill
  match d.groupSag i with
  | some sg => if lvl = 2 then { y with owner := sg } else y
  | none => y

/-- A node takes an entry, unless that moves it while its subtree holds a frame, or under a parent that is not there (R173). -/
def storeNode (d : Dev) (lvl i : Nat) (y : Node) : Dev :=
  if y.parent ≠ (d.node lvl i).parent ∧ (d.subtreeHolds lvl i = true ∨ levelCount (lvl - 1) ≤ y.parent) then
    d.put TM_IND_STATUS_REFUSED 1
  else ((d.setNode lvl i y).put TM_IND_STATUS_REFUSED 0).mark .nodeWrite

theorem writeNode_inRange {d : Dev} {lvl i : Nat} {fill : Bool} (hi : i < levelCount lvl) :
    d.writeNode lvl i fill = d.storeNode lvl i (d.writtenNode lvl i fill) := by
  refine (if_neg (Nat.not_le.mpr hi)).trans (congrArg (d.storeNode lvl i) ?_)
  unfold writtenNode
  cases d.groupSag i with
  | none => exact ite_self _
  | some sg => rfl

end Dev

/-- Settles O16: each command is its operation on the entry that INDEX names, and a node's write is refused where it moves the node
against R173. -/
theorem schedulerIndirect : Obligations.SchedulerIndirect := by
  intro s dv p data e hr hw
  subst hw
  refine ⟨fun hop _ => does_tmIndirect hr rfl hop rfl,
    fun hop hi hp hb => does_tmIndirect hr rfl hop ((Dev.writeNode_inRange hi).trans (if_pos ⟨hp, hb⟩)),
    fun hop hi hfree => does_tmIndirect hr rfl hop ((Dev.writeNode_inRange hi).trans (if_neg ?_)),
    fun hop hi => does_tmIndirect hr rfl hop ?_, fun hop hi => does_tmIndirect hr rfl hop (if_pos hi),
    fun hop hi => does_tmIndirect hr rfl hop (if_pos hi)⟩
  · rintro ⟨hp, hb⟩
    rcases hfree with hsame | ⟨hempty, hin⟩
    · exact hp hsame
    · exact hb.elim (fun h => by rw [h] at hempty; cases hempty) (Nat.not_le.mpr hin)
  · rw [Nat.mod_eq_of_lt hi]

/-! ### The grid of a change time (R180) -/

theorem le_ceilDiv_mul (a : Nat) {b : Nat} (hb : 0 < b) : a ≤ ceilDiv a b * b := by
  have h := Nat.lt_div_mul_add (a := a + b - 1) hb
  unfold ceilDiv
  omega

theorem ceilDiv_mul_lt {a b : Nat} (ha : 0 < a) : ceilDiv a b * b < a + b := by
  have h := Nat.div_mul_le_self (a + b - 1) b
  unfold ceilDiv
  omega

namespace Dev

/-- A change time is the first point of the grid of its base that lies 10 µs ahead (R180). -/
theorem cctOf_grid (base now : Nat) {cycle : Nat} (hc : 0 < cycle) :
    now + 10000 ≤ cctOf base cycle now ∧ base ≤ cctOf base cycle now ∧ (cctOf base cycle now - base) % cycle = 0 ∧
      (base < cctOf base cycle now → cctOf base cycle now < now + 10000 + cycle) := by
  unfold cctOf
  by_cases h : now + 10000 ≤ base
  · rw [if_pos h, Nat.sub_self]
    exact ⟨h, Nat.le_refl _, Nat.zero_mod _, fun hlt => absurd hlt (Nat.lt_irrefl _)⟩
  · have hle := le_ceilDiv_mul (now + 10000 - base) hc
    have hlt := ceilDiv_mul_lt (b := cycle) (show 0 < now + 10000 - base by omega)
    rw [if_neg h, Nat.add_sub_cancel_left]
    exact ⟨by omega, by omega, Nat.mul_mod_left _ _, fun _ => by omega⟩

/-! ### What the operations of a gate leave alone -/

@[simp] theorem gate_setGate_same (d : Dev) (g : Nat) (x : Gate) : (d.setGate g x).gate g = x := tabGet_set_self _ _ _ _
@[simp] theorem put_gate (d : Dev) (f : Fld) (v g : Nat) : (d.put f v).gate g = d.gate g := rfl
@[simp] theorem setEvent_gate (d : Dev) (f : Fld) (g : Nat) : (d.setEvent f).gate g = d.gate g := rfl
@[simp] theorem inc_gate (d : Dev) (c : Ctr) (g : Nat) : (d.inc c).gate g = d.gate g := rfl
@[simp] theorem syncGate_gate (d : Dev) (g h : Nat) : (d.syncGate g).gate h = d.gate h := rfl

/-- `x` differs from `d` in its registers and its traffic manager alone. -/
def DiffersInGates (d x : Dev) : Prop := ∃ r t, x = { d with reg := r, tm := t }

namespace DiffersInGates
variable {d x : Dev}

theorem refl (d : Dev) : d.DiffersInGates d := ⟨d.reg, d.tm, rfl⟩

theorem withReg (h : d.DiffersInGates x) (r : RegState) : d.DiffersInGates { x with reg := r } := by
  obtain ⟨_, t, rfl⟩ := h
  exact ⟨r, t, rfl⟩

theorem withTm (h : d.DiffersInGates x) (t : TmState) : d.DiffersInGates { x with tm := t } := by
  obtain ⟨r, _, rfl⟩ := h
  exact ⟨r, t, rfl⟩

theorem setGate (h : d.DiffersInGates x) (g : Nat) (y : Gate) : d.DiffersInGates (x.setGate g y) := h.withTm _

theorem put (h : d.DiffersInGates x) (f : Fld) (v : Nat) : d.DiffersInGates (x.put f v) := h.withReg _

theorem setEvent (h : d.DiffersInGates x) (f : Fld) : d.DiffersInGates (x.setEvent f) := h.withReg _

theorem inc (h : d.DiffersInGates x) (c : Ctr) : d.DiffersInGates (x.inc c) := h.withReg _

theorem syncGate (h : d.DiffersInGates x) (g : Nat) : d.DiffersInGates (x.syncGate g) := (h.put _ _).put _ _

theorem leaveView (h : d.DiffersInGates x) (g c : Nat) : d.DiffersInGates (x.leaveView g c) := by
  unfold Dev.leaveView
  dsimp only
  split
  · exact h
  · exact h.setGate g _

theorem eq (h : d.DiffersInGates x) : x = { d with reg := x.reg, tm := x.tm } := by
  obtain ⟨r, t, rfl⟩ := h
  rfl

theorem time_eq (h : d.DiffersInGates x) : x.time = d.time := by rw [h.eq]

theorem cycle_eq (h : d.DiffersInGates x) : x.cycle = d.cycle := by rw [h.eq]

end DiffersInGates

/-! ### The changes of a gate's list -/

/-- A pending change becomes operational: its list's values are taken over, and nothing is pending (R180). -/
theorem swapList_pending {d : Dev} {g : Nat} {c : GateChange} (hp : (d.gate g).pending = some c) :
    ((d.swapList g).gate g).oper = some (c.len, c.cycle, c.base) ∧ ((d.swapList g).gate g).pending = none := by
  simp [swapList, hp]

theorem DiffersInGates.swapList {d x : Dev} (h : d.DiffersInGates x) (g : Nat) : d.DiffersInGates (x.swapList g) := by
  unfold Dev.swapList
  split
  · exact h
  · exact ((((((h.leaveView g _).setGate g _).put _ _).put _ _).setEvent _).inc _).syncGate g

end Dev

section
variable {d e : Dev} {p : Path} {g : Fin 272} {data : W32} (he : d.writeFields p (Dev.gateCtrl g) data = e)
include he

/-- CONFIG_CHANGE of values that are bad: nothing stays pending, and CFG_ERR is set (R181). -/
theorem doGateConfigChange_bad (hcc : fieldGet data 7 1 = 1) (hbad : e.changeBad g = true) :
    doGateConfigChange p g data d = (e.dropChange g).setEvent (Dev.gateFld g 0 16 1) := by
  simp only [doGateConfigChange, he, hcc, hbad, Nat.one_ne_zero, if_false, if_true]

/-- CONFIG_CHANGE of values that are good latches them with their change time (R180). -/
theorem doGateConfigChange_good {len cycle ext base : Nat} (hcc : fieldGet data 7 1 = 1) (hgood : e.changeBad g = false)
    (ha : e.adminOf g = (len, cycle, ext, base)) :
    ((doGateConfigChange p g data d).gate g).pending =
      some ⟨len, cycle, ext, base, Dev.cctOf base cycle (ceilDiv e.time.net (2 ^ 48))⟩ ∧
    e.DiffersInGates (doGateConfigChange p g data d) := by
  simp only [doGateConfigChange, he, hcc, hgood, ha, Nat.one_ne_zero, Bool.false_eq_true, if_false]
  exact ⟨by simp, ((((((Dev.DiffersInGates.refl e).leaveView g _).setGate g _).put _ _).put _ _).put _ _).put _ _ |>.syncGate g⟩

/-- CANCEL of a pending change (R181). -/
theorem doGateCancel_pending (hc : fieldGet data 8 1 = 1) (hp : (e.gate g).pending ≠ none) :
    doGateCancel p g data d = e.dropChange g := by
  simp only [doGateCancel, he]
  exact if_pos ⟨hc, Option.isSome_iff_ne_none.mpr hp⟩

/-- A write that leaves GATE_EN as it is (R178). -/
theorem doGateEnable_same (h : fieldGet data 0 1 = e.get (Dev.gateFld g 0 0 1)) : doGateEnable p g data d = e := by
  simp only [doGateEnable, he]
  exact if_pos h

/-- GATE_EN cleared: the loss state and a pending change end (R178, R193). -/
theorem doGateEnable_off (h : fieldGet data 0 1 = 0) (hon : e.get (Dev.gateFld g 0 0 1) = 1) :
    doGateEnable p g data d =
      let t := (e.leaveView g (e.cycle + 1)).put (Dev.gateFld g 0 0 1) (fieldGet data 0 1)
      (t.setGate g { t.gate g with loss := none }).dropChange g := by
  simp only [doGateEnable, he, h, hon, Nat.zero_ne_one, if_false, if_true]

/-- GATE_EN set: the loss state in force is taken up (R193). -/
theorem doGateEnable_on (h : fieldGet data 0 1 = 1) (hoff : e.get (Dev.gateFld g 0 0 1) = 0) :
    doGateEnable p g data d =
      let t := (e.leaveView g (e.cycle + 1)).put (Dev.gateFld g 0 0 1) (fieldGet data 0 1)
      t.setGate g { t.gate g with loss := t.lossKind.map fun k => (k, none) } := by
  simp only [doGateEnable, he, h, hoff, Nat.one_ne_zero, if_false]

end

/-- GATE_LIST_SWAP at the time of a pending change (R180). -/
theorem doGateListSwap_due {d : Dev} {g : Fin 272} {c : GateChange} (hp : (d.gate g).pending = some c) (hc : c.cct ≤ d.netNs) :
    doGateListSwap g d = d.swapList g := by
  simp only [doGateListSwap, hp, if_pos hc]

/-- GATE_LIST_RESUME at the boundary that is set (R193). -/
theorem doGateListResume_due {d : Dev} {g : Fin 272} {k : Loss} {r : Nat} (hl : (d.gate g).loss = some (k, some r))
    (hr : r ≤ d.netNs) :
    doGateListResume g d =
      let e := d.leaveView g d.cycle
      (e.setGate g { e.gate g with loss := none }).syncGate g := by
  simp only [doGateListResume, hl, if_pos hr]

/-- The registers of a gate lie outside the windows of the ports. -/
theorem gateCtrl_outside (g : Nat) : Dev.gateCtrl g < 0x100000 ∨ 0x200000 ≤ Dev.gateCtrl g := by
  unfold Dev.gateCtrl GATE_CTRL SGATE_CTRL
  split <;> omega

/-- Settles O17: each row is its equation, a change that is latched or swapped touches registers and the traffic manager alone, and
a change time is on its grid. What is shown of a gate with GATE_EN and no operational list is the model's choice
(notes/assumptions/61 and 62). -/
theorem gateRows : Obligations.GateRows := by
  unfold Obligations.GateRows
  refine ⟨fun s g ha => does_intro ha rfl rfl,
    fun s dv p g data e hr he hcc hbad => does_plain hr (gateCtrl_outside g) rfl (doGateConfigChange_bad he hcc hbad),
    fun s dv p g data e len cycle ext base hr he hcc hgood ha => does_plain hr (gateCtrl_outside g) rfl ?_,
    fun base cycle now hc => Dev.cctOf_grid base now hc,
    fun s dv p g data e hr he hc hp => does_plain hr (gateCtrl_outside g) rfl (doGateCancel_pending he hc hp),
    fun s dv p g data e hr he => ⟨fun h => does_plain hr (gateCtrl_outside g) rfl (doGateEnable_same he h),
      fun h hon => does_plain hr (gateCtrl_outside g) rfl (doGateEnable_off he h hon),
      fun h hoff => does_plain hr (gateCtrl_outside g) rfl (doGateEnable_on he h hoff)⟩,
    fun s g c ha hp hc => does_intro ha rfl ?_,
    fun s g k r ha hl hr => does_intro ha rfl (doGateListResume_due hl hr)⟩
  · obtain ⟨hpend, hd⟩ := doGateConfigChange_good he hcc hgood ha
    exact ⟨hpend, hd.eq⟩
  · rw [doGateListSwap_due hp hc]
    obtain ⟨hoper, hnone⟩ := Dev.swapList_pending hp
    exact ⟨hoper, hnone, ((Dev.DiffersInGates.refl s.dev).swapList g).eq⟩

/-! ### Network time and its sync states (R187, R192) -/

namespace Dev

/-- A pending change whose time has passed is applied at once (R181). -/
def swapPassed (d : Dev) (g : Nat) : Dev :=
  match (d.gate g).pending with
  | some c => if c.cct ≤ d.netNs then d.swapList g else d
  | none => d

/-- The boundary at which a held list resumes is set anew (R193). -/
def moveResume (d : Dev) (g : Nat) : Dev :=
  match (d.gate g).loss with
  | some (k, some _) =>
    let d := d.leaveView g d.cycle
    d.setGate g { d.gate g with loss := some (k, some (d.nextBoundary g)) }
  | _ => d

section
variable {d x : Dev} (h : d.DiffersInGates x) (g : Nat)
include h

theorem DiffersInGates.swapPassed : d.DiffersInGates (x.swapPassed g) := by
  unfold Dev.swapPassed
  split
  · split
    · exact h.swapList g
    · exact h
  · exact h

theorem DiffersInGates.moveResume : d.DiffersInGates (x.moveResume g) := by
  unfold Dev.moveResume
  split
  · exact (h.leaveView g _).setGate g _
  · exact h

end

/-- However many gates follow a jump one after the other, registers and the traffic manager alone change. -/
theorem followAll_differs (d : Dev) (gs : List Nat) :
    d.DiffersInGates (gs.foldl (fun x g => ((x.swapPassed g).moveResume g).syncGate g) d) :=
  List.foldlRecOn gs _ (DiffersInGates.refl d) fun _ h g _ => ((h.swapPassed g).moveResume g).syncGate g

/-- A jump sets network time, and then the gates in use follow it (R187). -/
theorem jumpTo_differs (d : Dev) (n : Nat) :
    ∃ e : Dev, e.time.net = n ∧ e.cycle = d.cycle ∧ e.DiffersInGates (d.jumpTo n) := by
  refine ⟨_, ?_, ?_, followAll_differs _ _⟩ <;> rfl

theorem jumpTo_net_cycle (d : Dev) (n : Nat) : (d.jumpTo n).time.net = n ∧ (d.jumpTo n).cycle = d.cycle := by
  obtain ⟨e, hn, hc, he⟩ := d.jumpTo_differs n
  rw [he.time_eq, he.cycle_eq]
  exact ⟨hn, hc⟩

/-- The time unit in LOCKED, with its count of TIMEOUT_S restarted (R192). -/
def kicked (d : Dev) : Dev := { d.put TIME_SYNC_STATE 1 with time := { d.time with since := d.cycle } }

end Dev

/-- KICK restarts the count in LOCKED, and enters it from the other states, which ends a loss (R192, R193). -/
theorem doTimeKick_kick {d e : Dev} {p : Path} {data : W32} (he : (d.before .syncExpired).writeFields p TIME_SYNC data = e)
    (hk : fieldGet data 31 1 = 1) :
    doTimeKick p data d =
      if e.get TIME_SYNC_STATE = 1 then e.kicked else (e.kicked.setEvent TIME_EVENT_LOCKED).applyLoss e.cycle := by
  simp only [doTimeKick, hk, he, Nat.one_ne_zero, if_true, if_false]
  rfl

theorem doForceHoldover_locked {d e : Dev} {p : Path} {data : W32} (he : d.writeFields p TIME_SYNC data = e)
    (hf : fieldGet data 30 1 = 1) (hs : e.get TIME_SYNC_STATE = 1) : doForceHoldover p data d = e.enterHoldover := by
  simp only [doForceHoldover, he]
  exact if_pos ⟨hf, hs⟩

/-! ### The pulse that comes in (R191) -/

namespace Dev

/-- The device with network time latched by an edge of PPS_IN, the overrun of one that was not taken noted before. -/
def ppsLatched (d : Dev) : Dev :=
  let e := if d.flag TIME_EVENT_PPS_IN then d.setEvent TIME_EVENT_PPS_IN_OVERRUN else d
  { e with time := { e.time with ppsIn := e.time.net } }.setEvent TIME_EVENT_PPS_IN

theorem ppsLatched_event (d : Dev) : d.ppsLatched.flag TIME_EVENT_PPS_IN = true := by
  rw [ppsLatched, flag_setEvent, flag_put_same _ _ _ (by decide : 3 + 1 ≤ 32)]
  rfl

/-- The overrun of an edge that finds the event still set stays beside the event. -/
theorem ppsLatched_overrun {d : Dev} (h : d.flag TIME_EVENT_PPS_IN = true) : d.ppsLatched.flag TIME_EVENT_PPS_IN_OVERRUN = true := by
  have hkeep : d.ppsLatched.flag TIME_EVENT_PPS_IN_OVERRUN =
      (d.setEvent TIME_EVENT_PPS_IN_OVERRUN).flag TIME_EVENT_PPS_IN_OVERRUN := by
    rw [ppsLatched, if_pos h]
    exact congrArg (· != 0) (get_put_bits _ TIME_EVENT_PPS_IN _ 1 (by decide : 3 + 1 ≤ 32) (.inl (by decide : 3 + 1 ≤ 4)))
  rw [hkeep, flag_setEvent, flag_put_same _ _ _ (by decide : 4 + 1 ≤ 32)]
  rfl

theorem ppsLatched_rd (d : Dev) {a : Nat} (ha : a ≠ TIME_EVENT) : d.ppsLatched.rd a = d.rd a := by
  rw [ppsLatched, rd_setEvent, rd_put_ne _ TIME_EVENT_PPS_IN 1 ha]
  split
  · exact rd_put_ne d TIME_EVENT_PPS_IN_OVERRUN 1 ha
  · rfl

theorem ppsLatched_time (d : Dev) : d.ppsLatched.time = { d.time with ppsIn := d.time.net } := by
  unfold ppsLatched
  split <;> rfl

theorem ppsLatched_frame (d : Dev) : d.ppsLatched = { d with reg := d.ppsLatched.reg, time := d.ppsLatched.time } := by
  unfold ppsLatched
  split <;> rfl

end Dev

/-- An edge of PPS_IN latches network time where it is the chosen one, of a pulse of 100 ns or more (R191). -/
theorem doPpsInEdge_eq (fall : Bool) (ns : Nat) (d : Dev) :
    doPpsInEdge (fall, ns) d =
      if d.flag TIME_PPS_IN_CFG_EN = true ∧ d.flag TIME_PPS_IN_CFG_FALLING = fall ∧ 100 ≤ ns then d.ppsLatched else d := by
  simp only [doPpsInEdge, Bool.and_eq_true, beq_iff_eq, decide_eq_true_eq, and_assoc]
  rfl

/-- Settles O18: the gates that follow a jump leave network time and the cycle alone, a latched edge is read off the bits of TIME_EVENT,
and each other row is its equation under its condition. -/
theorem syncAndPulses : Obligations.SyncAndPulses := by
  unfold Obligations.SyncAndPulses
  refine ⟨⟨fun s dv p data hr h => does_plain hr (by decide) rfl (if_pos h),
    fun s dv p data hr h => does_plain hr (by decide) rfl (if_pos h), Dev.jumpTo_net_cycle,
    fun s dv p data e hr he hk hs => does_plain hr (by decide) rfl ((doTimeKick_kick he hk).trans (if_pos hs)),
    fun s dv p data e hr he hk hs => does_plain hr (by decide) rfl ((doTimeKick_kick he hk).trans (if_neg hs)),
    fun s dv p data e hr he hf hs => does_plain hr (by decide) rfl (doForceHoldover_locked he hf hs),
    fun s ha hs hc => does_intro ha rfl (if_pos ⟨hs, hc⟩), fun s ha hs hc => does_intro ha rfl (if_pos ⟨hs, hc⟩),
    fun s dv p data hr => does_plain hr (by decide) rfl rfl⟩,
    fun s ha hen hidx hx => does_intro ha rfl (if_pos ⟨hen, hidx, hx⟩),
    fun s ha ho hc => does_intro ha rfl (if_pos ⟨ho, hc⟩),
    fun s fall ns ha hns => does_intro ha rfl ?_, fun s fall ns ha hen hfall hns => does_intro ha rfl ?_⟩
  · rw [doPpsInEdge_eq]
    exact if_neg fun ⟨_, _, h⟩ => Nat.not_lt.mpr h hns
  · rw [doPpsInEdge_eq, if_pos ⟨hen, hfall, hns⟩]
    exact ⟨s.dev.ppsLatched_time, s.dev.ppsLatched_event, Dev.ppsLatched_overrun, fun a => s.dev.ppsLatched_rd, s.dev.ppsLatched_frame⟩

end Sys2Proof.Machine
end

section
/-!
PROOFS. Hardware channels (O19, O20): an equation for each row of a message and of a credit on its way, and for each channel command.
-/

namespace Sys2Proof.Machine

/-! ### Messages and credits (R217, R218) -/

section
variable {c : Fin 8192} {d e : Dev} {x : Channel} (hx : d.channel c = some x)
include hx

/-- A message leaves with a credit: inside its kiln at once, else through its core's slot of the kiln port (R208, R217). -/
theorem doChannelMessageLeave_leaves {m : W64} {q : List W64} {out : Option (Nat × Nat)} (hq : d.txFifo x.srcT x.srcEp = m :: q)
    (he : d.before (.sendFull x.srcT x.srcEp) = e) (hcr : 0 < x.credits) (hout : e.leavesKiln x.srcT x.dstT = out)
    (hgo : out.isSome = true →
      e.kilnMute (Dev.kilnOf x.srcT) = false ∧ e.portFor (Dev.coreOf x.srcT) (x.since.getD e.cycle) = true) :
    doChannelMessageLeave c d =
      let u := if out.isSome then e.portSent (Dev.coreOf x.srcT) else e
      ((u.setTx x.srcT x.srcEp q).setChannel c (some { x with
        credits := x.credits - 1, msgs := x.msgs ++ [{ msg := m, kiln := out, at_ := e.cycle }], since := none })).serveSend c := by
  have hstay : ¬ (x.credits = 0 ∨ (out.isSome = true ∧ e.kilnMute (Dev.kilnOf x.srcT) = true) ∨
      (out.isSome = true ∧ e.portFor (Dev.coreOf x.srcT) (x.since.getD e.cycle) = false)) := by
    rintro (h | ⟨ho, h⟩ | ⟨ho, h⟩)
    · omega
    · exact absurd ((hgo ho).1.symm.trans h) (by decide)
    · exact absurd ((hgo ho).2.symm.trans h) (by decide)
  simp only [doChannelMessageLeave, hx, hq, he, hout, if_neg hstay]

end

/-- A number that is current keeps its item. -/
theorem filter_current {e : Dev} {o : Option (Nat × Nat)} (h : ∀ k n, o = some (k, n) → e.firing (.kiln k) = n) :
    (o.filter fun (k, n) => e.firing (.kiln k) != n) = none := by
  rcases o with _ | ⟨k, n⟩
  · rfl
  · simp [Option.filter, h k n rfl]

/-- A number that is not current is found stale (R38). -/
theorem filter_stale {e : Dev} {o : Option (Nat × Nat)} {k n : Nat} (ho : o = some (k, n)) (h : e.firing (.kiln k) ≠ n) :
    (o.filter fun (k, n) => e.firing (.kiln k) != n) = some (k, n) := by
  simp [ho, Option.filter, h]

section
variable {c : Fin 8192} {d e : Dev} {x : Channel} {m : Flight} {ms : List Flight} (hx : d.channel c = some x) (hm : x.msgs = m :: ms)
  (hheld : Dev.isMgmt x.dstT = true ∨ d.kilnHeld (Dev.kilnOf x.dstT) = false) (hcut : m.kiln = none ∨ d.quadCut x.dstT = false)

include hheld hcut in
/-- Neither a spare procedure nor a severed crossing holds the message (R425, R472). -/
theorem arrival_unheld :
    ¬ ((Dev.isMgmt x.dstT = false ∧ d.kilnHeld (Dev.kilnOf x.dstT)) ∨ (m.kiln.isSome = true ∧ d.quadCut x.dstT = true)) := by
  rintro (⟨hcore, hk⟩ | ⟨hs, hq⟩)
  · rcases hheld with h | h
    · exact absurd (h.symm.trans hcore) (by decide)
    · exact absurd (h.symm.trans hk) (by decide)
  · rcases hcut with h | h
    · rw [h] at hs
      exact absurd hs (by decide)
    · exact absurd (h.symm.trans hq) (by decide)

variable (he : d.before (.recvEmpty x.dstT x.dstEp) = e)
include hx hm hheld hcut he

/-- A message of the current number arrives behind what is there, in its core's slot where it enters a kiln (R208, R218). -/
theorem doChannelMessageArrive_arrives (hcur : ∀ k n, m.kiln = some (k, n) → e.firing (.kiln k) = n) :
    let core := Dev.coreOf x.dstT
    let enters := !Dev.isMgmt x.dstT && (Dev.isMgmt x.srcT || Dev.kilnOf x.srcT != Dev.kilnOf x.dstT)
    (enters = true → e.portSlot core = true ∧ (e.coreSt core).portIn ≤ e.cycle) →
    let u := if enters then e.setCoreSt core { e.coreSt core with portIn := e.cycle + 1 } else e
    doChannelMessageArrive c d =
      ((u.setChannel c (some { x with msgs := ms })).setRx x.dstT x.dstEp (u.rxFifo x.dstT x.dstEp ++ [m.msg])).serveRecv c := by
  intro core enters hin u
  have hslot : ¬ (enters && !(e.portSlot core && decide ((e.coreSt core).portIn ≤ e.cycle))) = true := by
    cases h : enters with
    | false => simp
    | true => simp [hin h]
  simp only [doChannelMessageArrive, hx, hm, if_neg (arrival_unheld hheld hcut), he, filter_current hcur]
  exact if_neg hslot

/-- A message whose kiln has fired since it left is discarded at the router (R38, R218). -/
theorem doChannelMessageArrive_stale {k n : Nat} (hk : m.kiln = some (k, n)) (hn : e.firing (.kiln k) ≠ n) :
    doChannelMessageArrive c d = (e.setChannel c (some { x with msgs := ms })).lateDiscard (.kiln k) := by
  simp only [doChannelMessageArrive, hx, hm, if_neg (arrival_unheld hheld hcut), he, filter_stale hk hn]

end

section
variable {c : Fin 8192} {d : Dev} {x : Channel} {m : Credit} {ms : List Credit} (hx : d.channel c = some x) (hm : x.creds = m :: ms)
include hx hm

/-- A credit of the current number raises the count (R217). -/
theorem doCreditArrive_current (h : ∀ k n, m.kiln = some (k, n) → d.kilnCut k = false ∧ d.firing (.kiln k) = n) :
    doCreditArrive c d = d.setChannel c (some { x with creds := ms, credits := x.credits + 1 }) := by
  have hcut : (m.kiln.any fun (k, _) => d.kilnCut k) = false := by
    rcases hk : m.kiln with _ | ⟨k, n⟩
    · rfl
    · exact (h k n hk).1
  simp only [doCreditArrive, hx, hm, hcut, filter_current fun k n hk => (h k n hk).2]
  rfl

/-- A credit toward a kiln that has bumped since is discarded (R38, R475). -/
theorem doCreditArrive_stale {k n : Nat} (hk : m.kiln = some (k, n)) (hcut : d.kilnCut k = false) (hn : d.firing (.kiln k) ≠ n) :
    doCreditArrive c d = (d.setChannel c (some { x with creds := ms })).lateDiscard (.kiln k) := by
  have hany : (m.kiln.any fun (k, _) => d.kilnCut k) = false := by rw [hk]; exact hcut
  simp only [doCreditArrive, hx, hm, hany, filter_stale hk hn]
  rfl

end

/-- Settles O19: each row is its equation, under what lets the item pass. -/
theorem channelTraffic : Obligations.ChannelTraffic := by
  refine ⟨fun s c x m q e ha hx hq he hcr hout => does_intro ha rfl (doChannelMessageLeave_leaves hx hq he hcr hout nofun),
    fun s c x m q k e ha hx hq he hcr hout hmute hport =>
      does_intro ha rfl (doChannelMessageLeave_leaves hx hq he hcr hout fun _ => ⟨hmute, hport⟩),
    fun s c x m ms e ha hx hm hheld hcut he hcur => ?_,
    fun s c x m ms k n e ha hx hm hheld hk hcut he hn =>
      does_intro ha rfl (doChannelMessageArrive_stale hx hm hheld (.inr hcut) he hk hn),
    fun s c x m ms ha hx hm h => does_intro ha rfl (doCreditArrive_current hx hm h),
    fun s c x m ms k n ha hx hm hk hcut hn => does_intro ha rfl (doCreditArrive_stale hx hm hk hcut hn)⟩
  intro core enters hin u
  exact does_intro ha rfl (doChannelMessageArrive_arrives hx hm hheld hcut he hcur hin)

/-! ### The channel commands (R221 to R223) -/

section
variable {s : State} {g : Fin 4096} {j : Job} {op used limit : Nat} {c : Instr} {f : Job → Nat → Dev → Dev} {x : Dev}

/-- A core command that is ready does what its opcode does, on the device with the block taken (R221). -/
theorem does_coreCmd (ha : s.dev.alive = true) (h : coreReady s.dev g op used limit j)
    (he : exec c s = s.effect (doCoreCmd op used limit g f)) (hf : f j (fieldLE j.block 4 4) (coreTaken s.dev j) = x) :
    Does c s fun d => d = x :=
  does_intro ha he ((doCoreCmd_ready h).trans hf)

end

/-- A bind of two released threads and two free endpoints makes the channel, with 8 credits and empty FIFOs (R222). -/
theorem Dev.chanBind_free {e : Dev} {i : Nat} {b : List Byte}
    (h0 : bitsOf (fieldLE b 16 4) 27 3 = 0 ∧ bitsOf (fieldLE b 16 4) 2 14 = 0)
    (h1 : bitsOf (fieldLE b 20 4) 27 5 = 0 ∧ bitsOf (fieldLE b 20 4) 2 14 = 0) (h2 : bitsOf (fieldLE b 24 4) 11 21 = 0)
    (h3 : bitsOf (fieldLE b 28 4) 16 16 = 0 ∧ bitsOf (fieldLE b 28 4) 4 4 = 0) :
    let src := bitsOf (fieldLE b 16 4) 16 11
    let dst := bitsOf (fieldLE b 20 4) 16 11
    let sep := bitsOf (fieldLE b 16 4) 0 2
    let dep := bitsOf (fieldLE b 20 4) 0 2
    src ≤ 1025 → dst ≤ 1025 → e.released src = true → e.released dst = true → e.channel i = none → e.txChan src sep = none →
    e.rxChan dst dep = none →
    e.chanBind i b = (csOk, ((e.setChannel i (some {
      closed := false, srcT := src, srcEp := sep, dstT := dst, dstEp := dep
      owner := bitsOf (fieldLE b 24 4) 0 11, credits := 8, msgs := [], creds := [], unbind := [], since := none })).setTx
        src sep []).setRx dst dep []) := by
  intro src dst sep dep hsrc hdst hrs hrd hc ht hr
  simp only [src, dst, sep, dep] at hsrc hdst hrs hrd ht hr
  simp [Dev.chanBind, h0, h1, h2, h3, Nat.not_lt.mpr hsrc, Nat.not_lt.mpr hdst, hrs, hrd, hc, ht, hr, src,
    dst, sep, dep]

@[simp] theorem Dev.thread_setChannel (d : Dev) (c t : Nat) (x : Option Channel) : (d.setChannel c x).thread t = d.thread t := rfl
@[simp] theorem Dev.txFifo_setChannel (d : Dev) (c t ep : Nat) (x : Option Channel) :
    (d.setChannel c x).txFifo t ep = d.txFifo t ep := rfl
@[simp] theorem Dev.rxFifo_setChannel (d : Dev) (c t ep : Nat) (x : Option Channel) :
    (d.setChannel c x).rxFifo t ep = d.rxFifo t ep := rfl
@[simp] theorem thread_coreTaken (d : Dev) (j : Job) (t : Nat) : (coreTaken d j).thread t = d.thread t := rfl
@[simp] theorem Dev.channel_setChannel_same (d : Dev) (c : Nat) (x : Option Channel) : (d.setChannel c x).channel c = x :=
  tabGet_set_self _ _ _ _

/-- Once nothing of the channel is in flight, the one unbind that waits is done where both FIFOs are empty (R223). -/
theorem doChanUnbindComplete_empty {c : Fin 8192} {d : Dev} {x : Channel} {j : Job} {force : Bool} (hx : d.channel c = some x)
    (hm : x.msgs = []) (hc : x.creds = []) (hu : x.unbind = [(force, j)]) (ht : d.txFifo x.srcT x.srcEp = [])
    (hr : d.rxFifo x.dstT x.dstEp = []) :
    doChanUnbindComplete c d =
      ((d.setChannel c (some { x with unbind := [] })).unbindNow c { x with unbind := [] }).coreAnswer j csOk [] := by
  simp [doChanUnbindComplete, hx, hm, hc, hu, ht, hr]

/-- Settles O20: each command that is ready does what its opcode does, and the end of an unbind is the equation of its row. -/
theorem channelCommands : Obligations.ChannelCommands := by
  refine ⟨fun s g j e ha h he h27 h2 h27' h2' h11 h16 h4 => ?_, fun s g j x ha h hx hw => does_coreCmd ha h rfl ?_,
    fun s c x j force ha hx hm hc hu ht hr => does_intro ha rfl (doChanUnbindComplete_empty hx hm hc hu ht hr),
    fun s g j e ha h he => does_coreCmd ha h rfl (by rw [he]; rfl)⟩
  · intro src dst i sep dep hsrc hdst hrs hrd hc ht hr
    refine does_coreCmd ha h rfl ?_
    rw [he]
    dsimp only
    rw [Dev.chanBind_free ⟨h27, h2⟩ ⟨h27', h2'⟩ h11 ⟨h16, h4⟩ hsrc hdst hrs hrd hc ht hr]
    rfl
  · simp only [hx, Dev.thread_setChannel, thread_coreTaken, hw]

end Sys2Proof.Machine
end

section
/-!
PROOFS. Flow placement (O21, O22): what a bump leaves of the placement entries, an equation for each case of a change of an entry, and for
each row of a placed frame, a marker and a punted frame.
-/

namespace Sys2Proof.Machine
namespace Dev

/-! ### The placement entries -/

@[simp] theorem place_setPlace_same (d : Dev) (q : Nat) (x : Place) : (d.setPlace q x).place q = x := tabGet_set_self _ _ _ _

theorem applyBump_place (d : Dev) (q : Nat) :
    (d.applyBump (.place q)).place q = { d.place q with firing := (d.firing (.place q) + 1) % 2 ^ 24, pending := false } :=
  place_setPlace_same _ _ _

/-- A bump event leaves of its entry all but the number and BUMP_PENDING (R36). -/
theorem bumpOwner_place (d : Dev) (q : Nat) :
    ∃ n p, (d.bumpOwner (.place q)).place q = { d.place q with firing := n, pending := p } := by
  unfold bumpOwner
  split
  · exact ⟨_, _, rfl⟩
  · split
    · exact ⟨_, _, applyBump_place d q⟩
    · split
      · exact ⟨_, _, rfl⟩
      · split
        · exact ⟨_, _, applyBump_place d q⟩
        · exact ⟨_, _, place_setPlace_same _ _ _⟩

/-- A change to a valid entry ends, with nothing held: the new thread and owner take effect (R230). -/
theorem finishMove_unheld {b : Dev} {q t o : Nat} (hn : (b.place q).next = some (true, t, o)) (hh : (b.place q).held = []) :
    b.finishMove q =
      b.setPlace q { b.place q with valid := true, thread := t, owner := o, next := none, ended := false, held := [] } := by
  simp [finishMove, hn, hh]

theorem startMove_ended (d : Dev) (q : Nat) (v : Bool) (t o : Nat) : ((d.startMove q v t o).place q).ended = false :=
  congrArg Place.ended (tabGet_set_self _ _ q _)

/-! ### A change of an entry (R230, R232) -/

/-- An entry that is not valid, with the change that its bump brings accepted (R230, R36). -/
def opening (d : Dev) (q t o : Nat) : Dev :=
  d.setPlace q { d.place q with next := some (true, t, o), since := d.cycle, ended := true }

section
variable {d b : Dev} {q t o : Nat} (hv : (d.place q).valid = false) (hb : (d.opening q t o).bumpOwner (.place q) = b)

include hb in
/-- The bump keeps the change that was accepted. -/
theorem opening_bumped :
    (b.place q).next = some (true, t, o) ∧ (b.place q).ended = true ∧ (b.place q).held = (d.place q).held := by
  obtain ⟨n, p, h⟩ := bumpOwner_place (d.opening q t o) q
  rw [← hb, h, opening, place_setPlace_same]
  exact ⟨rfl, rfl, rfl⟩

variable (hn : (d.place q).next = none)
include hv hb hn

theorem placeChange_opens :
    d.placeChange q true t o = (csOk, if b.bumpPending (.place q) then b else b.finishMove q) := by
  rw [← hb]
  simp [placeChange, hn, hv, opening]

end

/-- An entry that is valid begins a move where the change names another thread or clears it (R230). -/
theorem placeChange_moves {d : Dev} {q t o : Nat} {v : Bool} (hn : (d.place q).next = none) (hv : (d.place q).valid = true)
    (hm : v = true → (d.place q).thread ≠ t) : d.placeChange q v t o = (csOk, d.startMove q v t o) := by
  have hsame : ¬ (v = true ∧ (d.place q).thread = t ∧ (d.place q).owner = o) := fun ⟨h1, h2, _⟩ => hm h1 h2
  simp [placeChange, hn, hv, hsame]

/-- PLACE_SET of a well-formed block that sets VALID, for a released thread (R232). -/
theorem placeSet_valid {d : Dev} {q : Nat} {b : List Byte} (h0 : bitsOf (fieldLE b 16 4) 10 20 = 0)
    (h1 : bitsOf (fieldLE b 20 4) 11 21 = 0) (h2 : bitsOf (fieldLE b 24 4) 24 8 = 0) (h3 : bitsOf (fieldLE b 28 4) 13 19 = 0)
    (hv : bitOf (fieldLE b 16 4) 31 = true) (hr : d.released (bitsOf (fieldLE b 16 4) 0 10) = true) :
    d.placeSet q b = d.placeChange q true (bitsOf (fieldLE b 16 4) 0 10) (bitsOf (fieldLE b 20 4) 0 11) := by
  simp [placeSet, h0, h1, h2, h3, hv, hr]

theorem placeAnswer_now {d : Dev} {q : Nat} {j : Job} (h : (d.place q).ended = false) :
    d.placeAnswer q j csOk = d.coreAnswer j csOk [] := by
  simp [placeAnswer, h]

theorem placeAnswer_waits {d : Dev} {q : Nat} {j : Job} (h : (d.place q).ended = true) :
    d.placeAnswer q j csOk = d.modPlace q fun x => { x with waits := x.waits ++ [j] } := by
  simp [placeAnswer, h]

end Dev

/-- Settles O21: PLACE_SET and PLACE_CLEAR answer by what the change leaves of the entry, and each other command that is ready does
what its opcode does. -/
theorem placementCommands : Obligations.PlacementCommands := by
  refine ⟨fun s g j e ha h he => ?_,
    fun s g j e ha h he hn hv => does_coreCmd ha h rfl ?_, fun s g j e ha h he => does_coreCmd ha h rfl (by subst he; rfl),
    fun s g j e ha h he => does_coreCmd ha h rfl (by subst he; rfl), fun s g j e ha h he => does_coreCmd ha h rfl (by subst he; rfl),
    fun s g j e ha h he => does_coreCmd ha h rfl (by subst he; rfl)⟩
  · intro i t o h0 h1 h2 h3 hv31 hr hn
    have hset : e.placeSet i j.block = e.placeChange i true t o := Dev.placeSet_valid h0 h1 h2 h3 hv31 hr
    refine ⟨fun b hv hh hb hp => does_coreCmd ha h rfl ?_, fun b hv hb hp => does_coreCmd ha h rfl ?_,
      fun hv ht => does_coreCmd ha h rfl ?_⟩
    · obtain ⟨hbn, -, hbh⟩ := Dev.opening_bumped hb
      rw [he]
      dsimp only
      rw [hset, Dev.placeChange_opens hv hb hn, hp, if_neg Bool.false_ne_true, Dev.finishMove_unheld hbn (hbh.trans hh),
        Dev.placeAnswer_now (by rw [Dev.place_setPlace_same])]
      rfl
    · obtain ⟨-, hbe, -⟩ := Dev.opening_bumped hb
      rw [he]
      dsimp only
      rw [hset, Dev.placeChange_opens hv hb hn, hp, if_pos rfl, Dev.placeAnswer_waits hbe]
    · rw [he]
      dsimp only
      rw [hset, Dev.placeChange_moves hn hv fun _ => ht, Dev.placeAnswer_now (Dev.startMove_ended e i true t o)]
      rfl
  · rw [he]
    dsimp only
    rw [Dev.placeChange_moves hn hv (fun h => absurd h Bool.false_ne_true), Dev.placeAnswer_now (Dev.startMove_ended e _ false 0 0)]
    rfl

/-! ### Placed frames and markers (R225, R227, R228, R230) -/

/-- The one frame that goes toward a thread is delivered once it has ended (R225). -/
theorem doPlacementDelivery_ended {q : Fin 65536} {i t : Nat} {f : Frame} {d : Dev} (ht : (d.place q).toward = [(i, t)])
    (hf : d.frame? i = some f) (hs : f.stage = .placed) (he : f.ended = true) (hp : (d.place q).pending = false) :
    doPlacementDelivery q d = ((d.setPlace q { d.place q with toward := [] }).deliverTo t i f (some q)).servePkrecv t := by
  simp [doPlacementDelivery, Dev.stillPlaced, ht, hf, hs, he, hp]

/-- A marker with no frame of before it on its way enters the old thread's inbox (R230). -/
theorem doDrainMarkerDelivery_due {q : Fin 65536} {m : Marker} {d e : Dev}
    (hm : (d.core.markers.find? fun m => m.entry == q.val && !m.delivered) = some m) (ha : m.after = [])
    (hs : (d.place q).next = none ∨ (d.place q).since < d.cycle) (hi : (d.thread m.thread).inbox.length < 64)
    (he : (d.setCore fun s => { s with markers := s.markers.map fun x => if x = m then { x with delivered := true } else x }) = e)
    (hr : e.released m.thread = true) :
    doDrainMarkerDelivery q d =
      (e.modThread m.thread fun x => { x with inbox := x.inbox ++ [Dev.mkHandle m.firing true false 0 q] }).servePkrecv m.thread := by
  have hlate : (decide (d.place q).next.isSome && decide (d.cycle ≤ (d.place q).since)) = false := by
    rcases hs with h | h
    · simp [h]
    · simp [Nat.not_le.mpr h]
  simp only [doDrainMarkerDelivery, hm, hlate, ha, List.any_nil, decide_eq_false (Nat.not_le.mpr hi), Bool.or_false,
    Bool.false_eq_true, if_false, he, hr, Bool.true_eq_false]

/-- The one frame of a punt queue is delivered once it has ended, to an inbox with room (R228). -/
theorem doPuntDeliver_room {k : Fin 8} {i : Nat} {f : Frame} {d : Dev} (hp : (d.cp k).punt = [i]) (hf : d.frame? i = some f)
    (hs : f.stage = .punt) (he : f.ended = true) (hi : (d.thread (d.get (PL_PUNT_TARGET_THREAD k))).inbox.length < 64) :
    doPuntDeliver k d =
      (((d.setCp k { d.cp k with punt := [] }).setFrame i { f with stage := .placed }).deliverTo
        (d.get (PL_PUNT_TARGET_THREAD k)) i f none).servePkrecv (d.get (PL_PUNT_TARGET_THREAD k)) := by
  simp [doPuntDeliver, hp, hf, hs, he, Nat.not_le.mpr hi]

/-- Settles O22: each row is its equation. That the marker's handle names its entry in CELL is the model's choice
(notes/assumptions/28). -/
theorem placementRows : Obligations.PlacementRows := by
  refine ⟨fun s q i t f ha ht hf hs he hp => does_intro ha rfl (doPlacementDelivery_ended ht hf hs he hp),
    fun s q m ha hm hafter hs hi => ?_, fun s t h v q ha hq hb => does_intro ha rfl ?_, fun d t h v hg => ?_,
    fun s q v t o ha hn he hc => does_intro ha rfl ?_, fun s t c g ha hg hc => does_intro ha rfl ?_,
    fun s k i f ha hp hf hs he hi => does_intro ha rfl (doPuntDeliver_room hp hf hs he hi)⟩
  · intro e hr
    exact does_intro ha rfl (doDrainMarkerDelivery_due hm hafter hs hi rfl hr)
  · simp only [doPacketReturn, hq, hb, Bool.false_eq_true, if_false]
  · simp only [Dev.returnFrame, hg]
  · exact if_pos ⟨by rw [hn]; rfl, he, hc⟩
  · simp only [doPlacedFrameAbandon, hg, if_neg (Nat.not_lt.mpr hc)]

end Sys2Proof.Machine
end

section
/-!
PROOFS. The instructions of the threads (O23, O24, O25): what an issue row executes, what a trap saves, and an equation for each
instruction, wait and line fill.
-/

namespace Sys2Proof.Machine

/-! ### Thread registers and traps -/

namespace Thread

@[simp] theorem csr_setCsr_same (x : Thread) (n v : Nat) : (x.setCsr n v).csr n = v := tabGet_set_self _ _ _ _

@[simp] theorem csr_setCsr_ne (x : Thread) {n m : Nat} (v : Nat) (h : m ≠ n) : (x.setCsr n v).csr m = x.csr m :=
  tabGet_set_ne _ _ _ h

@[simp] theorem csr_withModePc (x : Thread) (mode : Priv) (pc : W64) (n : Nat) :
    ({ x with mode := mode, pc := pc } : Thread).csr n = x.csr n := rfl

end Thread

namespace Dev

@[simp] theorem thread_modThread_same (d : Dev) (t : Nat) (g : Thread → Thread) : (d.modThread t g).thread t = g (d.thread t) :=
  tabGet_set_self _ _ _ _

theorem thread_modThread_ne (d : Dev) {t u : Nat} (g : Thread → Thread) (h : u ≠ t) : (d.modThread t g).thread u = d.thread u :=
  tabGet_set_ne _ _ _ h

/-- An exception in M mode saves the pc without its bit 0 and its code, and goes to mtvec (R199); CHANNEL_UNBOUND, of code 24, leaves
its endpoint selector in mtval (R216). -/
theorem raise_mMode {d : Dev} {t : Nat} {x : Exc} (h : (d.thread t).mode = .m) :
    ((d.raise t x).thread t).csr 0x341 = (d.thread t).pc.toNat / 2 * 2 ∧ ((d.raise t x).thread t).csr 0x342 = x.code ∧
      ((d.raise t x).thread t).mode = .m ∧ ((d.raise t x).thread t).pc = BitVec.ofNat 64 ((d.thread t).csr 0x305 / 4 * 4) ∧
      (x.code = 24 → ((d.raise t x).thread t).csr 0x343 = x.tval) := by
  simp +contextual [raise, trapThread, h, cMstatus, handler, b2n]

/-- An exception leaves its code in mcause or, where it is delegated, in scause. -/
theorem raise_cause (d : Dev) (t : Nat) (x : Exc) :
    ((d.raise t x).thread t).csr 0x342 = x.code ∨ ((d.raise t x).thread t).csr 0x142 = x.code := by
  by_cases hm : (d.thread t).mode = .m
  · obtain ⟨-, hcause, -⟩ := raise_mMode (x := x) hm
    exact .inl hcause
  · by_cases hd : bitOf ((d.thread t).csr 0x302) x.code = true
    · right
      simp [raise, trapThread, hm, hd, cMstatus, b2n]
    · left
      simp [raise, trapThread, hd, cMstatus, b2n]

end Dev

/-! ### What an issue row executes -/

section
variable {d e : Dev} {t : Fin 1026} {c : CacheAt} {x : Aux} {w raw len : Nat} (hc : ∀ l2, c ≠ .noFetch l2)
  (hl : e.lacksEntry t w c = false)
include hc hl

/-- A standard instruction that has what it needs of the miss buffer is executed (R206, R209). -/
theorem doRvInstruction_issues (h : Issues d t .std w raw len e) : doRvInstruction t c x d = e.execStd t w raw len c x := by
  obtain ⟨y, hy, htake, hfetch, hw⟩ := h
  cases c with
  | noFetch l2 => exact absurd rfl (hc l2)
  | _ => simp [doRvInstruction, hy, htake, hfetch, hw, hl]

/-- The same for a floating-point instruction. -/
theorem doFpInstruction_issues (h : Issues d t .fp w raw len e) : doFpInstruction t c x d = e.execFp t w raw len c x := by
  cases c with
  | noFetch l2 => exact absurd rfl (hc l2)
  | _ => simp [doFpInstruction, issueRow_issues h, hl]

end

/-! ### Standard instructions (R199, R205) -/

namespace Dev
variable {e f : Dev} {t w raw len va pa : Nat} {c : CacheAt} {x : Aux}

theorem execStd_opImm {v : W64} (hop : rvOp w = 0x13) (hv : aluImm (rvF3 w) (bitsOf w 20 12) ((e.thread t).rd (rvRs1 w)) = some v) :
    e.execStd t w raw len c x = e.finX t len (rvRd w) v 1 := by
  simp only [execStd, hop, hv, finOpt]

theorem execStd_op {v : W64} (hop : rvOp w = 0x33)
    (hv : aluOp (rvF7 w) (rvF3 w) ((e.thread t).rd (rvRs1 w)) ((e.thread t).rd (rvRs2 w)) = some v) :
    e.execStd t w raw len c x = e.finX t len (rvRd w) v (opLatency w) := by
  simp only [execStd, hop, hv, finOpt]

theorem execStd_branch {taken : Bool} (hop : rvOp w = 0x63)
    (hb : branchTaken (rvF3 w) ((e.thread t).rd (rvRs1 w)) ((e.thread t).rd (rvRs2 w)) = some taken) :
    e.execStd t w raw len c x = if taken then e.rvJump t ((e.thread t).pc + immB w) else e.retireIns t len := by
  cases taken <;> simp only [execStd, hop, hb, if_true, Bool.false_eq_true, if_false]

theorem execStd_load {v : Nat} (hop : rvOp w = 0x03) (h7 : rvF3 w ≠ 7) (hva : va = ((e.thread t).rd (rvRs1 w) + immI w).toNat)
    (hv : e.vload t .load false va (2 ^ (rvF3 w % 4)) = (f, .val v pa)) :
    e.execStd t w raw len c x =
      outstanding e t c .load false va pa (rvRd w) (f.finX t len (rvRd w) (loadVal (rvF3 w) v) 4) := by
  subst hva
  simp only [execStd, hop, execLoadX, if_neg h7, hv, afterLoad]

theorem execStd_store {v : Nat} (hop : rvOp w = 0x23) (h3 : rvF3 w ≤ 3) (hva : va = ((e.thread t).rd (rvRs1 w) + immS w).toNat)
    (hv : e.vstoreAt t false va (2 ^ rvF3 w) = (f, .val v pa)) :
    e.execStd t w raw len c x =
      (outstanding e t c .store true va pa 0 (f.retireIns t len)).physStore t (orderCore (requester t)) pa
        (2 ^ rvF3 w) ((e.thread t).rd (rvRs2 w)).toNat x := by
  subst hva
  simp only [execStd, hop, execStoreX, if_neg (Nat.not_lt.mpr h3), storeAt, hv]

/-- ECALL takes its exception, of the code of the mode. -/
theorem execStd_ecall : e.execStd t 0x73 raw len c x = e.raise t ⟨8 + (e.thread t).mode.code, 0⟩ := rfl

end Dev

/-- Settles O23: each instruction that issues is its equation, and of ECALL the saved state is read off the trap. The trap sequence is
the model's choice (notes/assumptions/26), as are a load's value at its issue (notes/assumptions/8) and the latencies of divisions and
remainders (notes/assumptions/38). -/
theorem rvInstructions : Obligations.RvInstructions := by
  intro s t c x w raw len e ha h hc hl
  have hexec := doRvInstruction_issues (x := x) hc hl h
  refine ⟨fun v hop hv => does_intro ha rfl (hexec.trans (Dev.execStd_opImm hop hv)),
    fun v hop hv => does_intro ha rfl (hexec.trans (Dev.execStd_op hop hv)),
    fun hop hb => does_intro ha rfl (hexec.trans (Dev.execStd_branch hop hb)),
    fun hop hb => does_intro ha rfl (hexec.trans (Dev.execStd_branch hop hb)),
    fun va f v pa hop h7 hva hv => does_intro ha rfl (hexec.trans (Dev.execStd_load hop h7 hva hv)),
    fun va f v pa hop h3 hva hv => does_intro ha rfl (hexec.trans (Dev.execStd_store hop h3 hva hv)),
    fun hw hm => does_intro ha rfl ?_⟩
  subst hw
  obtain ⟨hepc, hcause, hmode, hpc, -⟩ := Dev.raise_mMode (x := ⟨8 + (e.thread t).mode.code, 0⟩) hm
  rw [hexec, Dev.execStd_ecall]
  exact ⟨hepc, hcause.trans (by rw [hm]; rfl), hmode, hpc⟩

/-! ### Floating-point instructions (R252, R254) -/

namespace Dev
variable {e : Dev} {t w raw len : Nat} {c : CacheAt} {x : Aux}

/-- The format of an instruction lies in the low bits of funct7. -/
theorem fmt_of_f7 (h7 : rvF7 w = 0) : bitsOf w 25 2 = 0 := by
  simp only [rvF7, bitsOf] at h7 ⊢
  omega

/-- While mstatus.FS is off a floating-point instruction is illegal (R254). -/
theorem execFp_off (h : (e.thread t).fs = 0) : e.execFp t w raw len c x = e.illegal t raw := if_pos h

section
variable (hfs : (e.thread t).fs ≠ 0) (hop : rvOp w = 0x53) (h7 : rvF7 w = 0)
include hfs hop h7

/-- A single-precision addition, under its rounding mode (R252). -/
theorem execFp_addS {rm : Nat} (hrm : roundMode (e.thread t) w = some rm) :
    e.execFp t w raw len c x = e.finFlagsF t len (rvRd w) f32 (f32.addV (fctl (e.thread t) rm)
      (fval f32 (fctl (e.thread t) rm) ((e.thread t).frd (rvRs1 w)))
      (fval f32 (fctl (e.thread t) rm) ((e.thread t).frd (rvRs2 w)))) 4 := by
  simp only [execFp, if_neg hfs, hop, fmt_of_f7 h7, execOpFp, h7, hrm]
  rfl

/-- With a reserved rounding mode it is illegal (R252). -/
theorem execFp_addS_reserved (hrm : roundMode (e.thread t) w = none) : e.execFp t w raw len c x = e.illegal t raw := by
  simp only [execFp, if_neg hfs, hop, fmt_of_f7 h7, execOpFp, h7, hrm]
  rfl

end

end Dev

/-! ### Waits (R201, R212) -/

theorem doWfi_issues {t : Fin 1026} {w raw len : Nat} {d e : Dev} (h : Issues d t .wfi w raw len e) (hm : (e.thread t).mode = .m) :
    doWfi t d = if Dev.pendEn (e.thread t) ≠ 0 then e.retireIns t len else e.modThread t fun y => { y with wait := .wfi } := by
  simp only [doWfi, issueRow_issues h, hm]
  rfl

/-- An interrupt pending and enabled ends WFI (R201). -/
theorem doInterruptWake_wfi {t : Fin 1026} {d : Dev} (hr : d.runs t = true) (hp : Dev.pendEn (d.thread t) ≠ 0)
    (hw : (d.thread t).wait = .wfi) : doInterruptWake t d = d.retireIns t 4 := by
  simp [doInterruptWake, hr, hp, hw, Dev.wake]

/-! ### Line fills (R205, R208, R248) -/

section
variable {t : Fin 1026} {i : Fin 32} {m : Miss} {uncorr : Bool} {v : Option Nat} {d : Dev}

/-- The entry of the miss buffer is free again and the line that its own displaces is written back; a line through the kiln port has
used its core's slot. -/
def lineCame (t i : Nat) (m : Miss) (v : Option Nat) (d : Dev) : Dev :=
  let c := Dev.coreOf t
  let d := if m.port then d.setCoreSt c { d.coreSt c with portIn := d.cycle + 1 } else d
  let d := d.modThread t fun y => { y with missed := y.missed.eraseIdx i }
  match v with
  | some l => d.writeBack t l
  | none => d

/-- A line that can come is filled, and poisoned where it met an uncorrectable error, which faults a load that waits for it. -/
theorem doLineFill_comes {bad faults : Bool} (hm : (d.thread t).missed[i.val]? = some m) (he : m.entered = true)
    (hp : m.port = true → m.sent = true ∧ d.portSlot (Dev.coreOf t) = true ∧ (d.coreSt (Dev.coreOf t)).portIn ≤ d.cycle)
    (hb : (uncorr && decide (64 * m.line < hbmSize)) = bad) (hf : (bad && !m.fetch && !m.store) = faults)
    (hr : faults = true → d.runs t = true) :
    doLineFill t (i, uncorr, v) d =
      let e := lineCame t i m v d
      let e := if bad then (e.poisonLines [m.line]).consumed (64 * m.line) else e
      if faults then e.missFault t m else e := by
  have hslot : (m.port && !(m.sent && d.portSlot (Dev.coreOf t) && decide ((d.coreSt (Dev.coreOf t)).portIn ≤ d.cycle))) = false := by
    cases h : m.port with
    | false => rfl
    | true => simp [hp h]
  have hruns : (faults && !d.runs t) = false := by
    cases h : faults with
    | false => rfl
    | true => simp [hr h]
  simp only [doLineFill, hm, he, hslot, hb, hf, hruns]
  rfl

/-- A line for a kiln that has bumped since it asked is discarded (R39, R475). -/
theorem doLineFill_stray {x : Nat × Nat × Nat} (hm : (d.thread t).missed = [])
    (hx : (d.core.strays.filter fun x => x.1 == t.val)[i.val]? = some x) (hn : d.firing (.kiln x.2.1) ≠ x.2.2) :
    doLineFill t (i, uncorr, v) d = (d.setCore fun u => { u with strays := u.strays.erase x }).lateDiscard (.kiln x.2.1) := by
  simp only [doLineFill, hm, List.getElem?_nil, List.length_nil, Nat.sub_zero, Dev.strayLine, hx, if_neg hn]

end

/-- Settles O24: each row is its equation, and the fill by what its line met and what waits for it. That the load faults when its line
comes, with the pc of the load, is the model's choice (notes/assumptions/8), and so is the record's family (notes/assumptions/18 and 38). -/
theorem fpAndWaits : Obligations.FpAndWaits := by
  refine ⟨fun s t c x w raw len e ha h hc hl => ?_, fun s t w raw len e ha h hm => does_intro ha rfl (doWfi_issues h hm),
    fun s t ha hr hp hw => does_intro ha rfl (doInterruptWake_wfi hr hp hw), fun s t i m uncorr v ha hm he => ?_,
    fun s t i uncorr v x ha hm hx hn => does_intro ha rfl (doLineFill_stray hm hx hn)⟩
  · have hexec := doFpInstruction_issues (x := x) hc hl h
    exact ⟨fun rm hfs hop h7 hrm => does_intro ha rfl (hexec.trans (Dev.execFp_addS hfs hop h7 hrm)),
      fun hfs => does_intro ha rfl (hexec.trans (Dev.execFp_off hfs)),
      fun hfs hop h7 hrm => does_intro ha rfl (hexec.trans (Dev.execFp_addS_reserved hfs hop h7 hrm))⟩
  · intro _ hp
    refine ⟨fun hok => does_intro ha rfl (doLineFill_comes hm he hp (bad := false) (faults := false) ?_ rfl nofun),
      fun hu hl hm' => does_intro ha rfl (doLineFill_comes hm he hp (bad := true) (faults := false) (by simp [hu, hl]) ?_ nofun),
      fun hu hl hf hs hr => does_intro ha rfl (doLineFill_comes hm he hp (bad := true) (faults := true) (by simp [hu, hl])
        (by simp [hf, hs]) fun _ => hr)⟩
    · rcases hok with h | h
      · simp [h]
      · simp [Nat.not_lt.mpr h]
    · rcases hm' with h | h
      · simp [h]
      · simp [h]

/-! ### Xplt (R210 to R212) -/

/-- An Xplt instruction with its zero fields. -/
theorem xpltZero_of {w : Nat} {rs2 : Bool} (h7 : rvF7 w = 0) (hd : rvRd w = 0) (h2 : rs2 = true ∨ rvRs2 w = 0) :
    Dev.xpltZero w rs2 = true := by
  rcases h2 with h | h
  · simp [Dev.xpltZero, h7, hd, h]
  · simp [Dev.xpltZero, h7, hd, h]

theorem Dev.peer_thread (t : Fin 1024) (n : Nat) : Dev.peer t n = some (t.val / 8 * 8 + n) := by
  simp [Dev.peer, Dev.isMgmt, Nat.not_le.mpr t.isLt]

section
variable {d e : Dev} {w raw u : Nat} {t : Fin 1024} (h7 : rvF7 w = 0) (hd : rvRd w = 0) (hm : (e.thread t).mode = .m)
  (hu : t.val / 8 * 8 + ((e.thread t).rd (rvRs1 w)).toNat % 8 = u)
include h7 hd hm hu

/-- TSTART of a disabled thread (R211). -/
theorem doTstart_disabled (h : Issues d t .tstart w raw 4 e) (hoff : ((e.retireIns t 4).thread u).enabled = false) :
    doTstart (t.castLE (by decide)) d =
      (e.retireIns t 4).modThread u fun y => { y with enabled := true, pc := (e.thread t).rd (rvRs2 w), mode := .m, wait := .run } := by
  refine (issueRow_issues h).trans ?_
  simp [xpltZero_of h7 hd (.inl rfl), Dev.isM, hm, Dev.rs1v, Dev.rs2v, Dev.peer_thread, hu, hoff]

/-- TSTOP of an enabled thread (R211). -/
theorem doTstop_enabled (h : Issues d t .tstop w raw 4 e) (h2 : rvRs2 w = 0) (hon : ((e.retireIns t 4).thread u).enabled = true) :
    doTstop (t.castLE (by decide)) d = (e.retireIns t 4).stopThread u := by
  refine (issueRow_issues h).trans ?_
  simp [xpltZero_of h7 hd (.inr h2), Dev.isM, hm, Dev.rs1v, Dev.peer_thread, hu, hon]

end

/-- A stopped thread is disabled and its pc stays; no other thread changes (R211). -/
theorem Dev.stopThread_thread (d : Dev) (u : Nat) :
    ((d.stopThread u).thread u).enabled = false ∧ ((d.stopThread u).thread u).wait = .run ∧
      ((d.stopThread u).thread u).pc = (d.thread u).pc ∧ ∀ v, v ≠ u → (d.stopThread u).thread v = d.thread v := by
  refine ⟨?_, ?_, ?_, fun v hv => ?_⟩
  · simp [stopThread]
  · simp [stopThread]
  · simp [stopThread, unstall]
  · rw [stopThread, thread_modThread_ne _ _ hv, unstall, thread_modThread_ne _ _ hv]

section
variable {d e : Dev} {t : Fin 1026} {w raw : Nat} (h7 : rvF7 w = 0) (hd : rvRd w = 0) (h2 : rvRs2 w = 0)
  (hp : Dev.pendEn (e.thread t) = 0)
include h7 hd h2 hp

/-- TWAIT goes on where a source is non-empty, and waits otherwise (R212). -/
theorem doTwait_issues (h : Issues d t .twait w raw 4 e) :
    doTwait t d =
      if Dev.twaitHit (e.thread t) (((e.thread t).rd (rvRs1 w)).toNat % 32) = true then e.retireIns t 4
      else e.modThread t fun y => { y with wait := .twait (((e.thread t).rd (rvRs1 w)).toNat % 32) } := by
  refine (issueRow_issues h).trans ?_
  simp [xpltZero_of h7 hd (.inr h2), Dev.rs1v, hp]

/-- TPAUSE of a number of cycles other than 0 (R212). -/
theorem doTpause_issues (h : Issues d t .tpause w raw 4 e) (hn : (e.thread t).rd (rvRs1 w) ≠ 0) :
    doTpause t d = e.modThread t fun y => { y with
      wait := .pause (e.cycle + Dev.coreCy t (Nat.min ((e.thread t).rd (rvRs1 w)).toNat 65535 + 1)) } := by
  have hpos : ((e.thread t).rd (rvRs1 w)).toNat ≠ 0 := fun h0 => hn (BitVec.eq_of_toNat_eq h0)
  have hmin : Nat.min ((e.thread t).rd (rvRs1 w)).toNat 65535 ≠ 0 :=
    (Nat.lt_min.mpr ⟨Nat.pos_of_ne_zero hpos, by decide⟩).ne'
  refine (issueRow_issues h).trans ?_
  simp [xpltZero_of h7 hd (.inr h2), Dev.rs1v, hp, hmin]

end

theorem doTwaitWake_hit {t : Fin 1026} {d : Dev} {m : Nat} (hw : (d.thread t).wait = .twait m) (hr : d.runs t = true)
    (hh : Dev.twaitHit (d.thread t) m = true) : doTwaitWake t d = d.retireIns t 4 := by
  simp [doTwaitWake, hw, hr, hh, Dev.wake]

theorem doTpauseExpiry_over {t : Fin 1026} {d : Dev} {u : Nat} (hw : (d.thread t).wait = .pause u) (hr : d.runs t = true)
    (hc : u ≤ d.cycle) : doTpauseExpiry t d = d.retireIns t 4 := by
  simp [doTpauseExpiry, hw, hr, hc, Dev.wake]

/-- Settles O25: each instruction and each end of a wait is its equation, and of TSTOP the threads are read off it. -/
theorem threadInstructions : Obligations.ThreadInstructions := by
  refine ⟨fun s t w raw e u ha h h7 hd hm hu _ hoff => does_intro ha rfl (doTstart_disabled h7 hd hm hu h hoff),
    fun s t w raw e u ha h h7 hd h2 hm hu hon => does_intro ha rfl ?_,
    fun s t w raw e ha h h7 hd h2 hp => does_intro ha rfl (doTwait_issues h7 hd h2 hp h),
    fun s t m ha hw hr hh => does_intro ha rfl (doTwaitWake_hit hw hr hh),
    fun s t w raw e ha h h7 hd h2 hp hn => does_intro ha rfl (doTpause_issues h7 hd h2 hp h hn),
    fun s t u ha hw hr hc => does_intro ha rfl (doTpauseExpiry_over hw hr hc)⟩
  rw [doTstop_enabled h7 hd hm hu h h2 hon]
  exact Dev.stopThread_thread _ u

end Sys2Proof.Machine
end

section
/-!
PROOFS. The channel and packet instructions (O26): an equation for each case of each instruction, and the state that refutes the
statement, whose thread table lists a thread twice.
-/

namespace Sys2Proof.Machine

/-! ### Sends (R214 to R216) -/

theorem Dev.epOf_of {w : Nat} (h : rvF7 w < 4) : Dev.epOf w = rvF7 w := Nat.mod_eq_of_lt h

section
variable {d e : Dev} {t : Fin 1026} {w raw c : Nat} {x : Channel} (h7 : rvF7 w < 4) (h1 : rvRs1 w = 0)
include h7 h1

section
variable (hd : rvRd w = 0) (h : Issues d t .chsend w raw 4 e) (hc : e.txChan t (rvF7 w) = some (c, x))
include hd h hc

/-- A message enters a send FIFO with room. -/
theorem doChsend_room (hopen : x.closed = false) (hq : (e.txFifo t (rvF7 w)).length < 8) :
    doChsend t d = (e.setTx t (rvF7 w) (e.txFifo t (rvF7 w) ++ [(e.thread t).rd (rvRs2 w)])).retireIns t 4 := by
  refine (issueRow_issues h).trans ?_
  simp [Dev.epOk, Dev.epOf_of h7, h7, h1, hd, hc, hopen, hq, Dev.rs2v]

/-- A full send FIFO blocks. -/
theorem doChsend_full (hopen : x.closed = false) (hq : 8 ≤ (e.txFifo t (rvF7 w)).length) :
    doChsend t d = e.modThread t fun y => { y with wait := .send (rvF7 w) ((e.thread t).rd (rvRs2 w)) e.cycle } := by
  refine (issueRow_issues h).trans ?_
  simp [Dev.epOk, Dev.epOf_of h7, h7, h1, hd, hc, hopen, Nat.not_lt.mpr hq, Dev.rs2v]

/-- A closed channel takes CHANNEL_UNBOUND. -/
theorem doChsend_closed (hclosed : x.closed = true) : doChsend t d = e.raise t ⟨24, rvF7 w⟩ := by
  refine (issueRow_issues h).trans ?_
  simp [Dev.epOk, Dev.epOf_of h7, h7, h1, hd, hc, hclosed]

end

/-- CHSENDNB into a send FIFO with room answers OK. -/
theorem doChsendnb_room (h : Issues d t .chsendnb w raw 4 e) (hc : e.txChan t (rvF7 w) = some (c, x)) (hopen : x.closed = false)
    (hq : (e.txFifo t (rvF7 w)).length < 8) :
    doChsendnb t d =
      ((e.setTx t (rvF7 w) (e.txFifo t (rvF7 w) ++ [(e.thread t).rd (rvRs2 w)])).setLast t 0).finX t 4 (rvRd w) 0 1 := by
  refine (issueRow_issues h).trans ?_
  simp [Dev.epOk, Dev.epOf_of h7, h7, h1, hc, hopen, hq, Dev.rs2v]

/-! ### Receives (R214 to R217) -/

variable (h2 : rvRs2 w = 0)
include h2

/-- An endpoint with no channel takes CHANNEL_UNBOUND. -/
theorem doChrecv_unbound (h : Issues d t .chrecv w raw 4 e) (hc : e.rxChan t (rvF7 w) = none) :
    doChrecv t d = e.raise t ⟨24, 4 + rvF7 w⟩ := by
  refine (issueRow_issues h).trans ?_
  simp [Dev.epOk, Dev.epOf_of h7, h7, h1, h2, hc]

section
variable (hc : e.rxChan t (rvF7 w) = some (c, x))
include hc

/-- An empty receive FIFO blocks. -/
theorem doChrecv_empty (h : Issues d t .chrecv w raw 4 e) (hq : e.rxFifo x.dstT x.dstEp = []) :
    doChrecv t d = e.modThread t fun y => { y with wait := .recv (rvF7 w) (rvRd w) e.cycle } := by
  refine (issueRow_issues h).trans ?_
  simp [Dev.epOk, Dev.epOf_of h7, h7, h1, h2, hc, Dev.takeMsg, hq]

variable {m : W64} {q : List W64} (hq : e.rxFifo x.dstT x.dstEp = m :: q)
include hq

/-- A message out of the receive FIFO sends its credit back. -/
theorem doChrecv_message (h : Issues d t .chrecv w raw 4 e) :
    doChrecv t d =
      ((e.setRx x.dstT x.dstEp q).setChannel c (some { x with creds := x.creds ++ [⟨e.cycle, e.creditTag x⟩] })).finX
        t 4 (rvRd w) m 1 := by
  refine (issueRow_issues h).trans ?_
  simp [Dev.epOk, Dev.epOf_of h7, h7, h1, h2, hc, Dev.takeMsg, hq]

theorem doChrecvnb_message (h : Issues d t .chrecvnb w raw 4 e) :
    doChrecvnb t d =
      (((e.setRx x.dstT x.dstEp q).setChannel c (some { x with creds := x.creds ++ [⟨e.cycle, e.creditTag x⟩] })).setLast t 0).finX
        t 4 (rvRd w) m 1 := by
  refine (issueRow_issues h).trans ?_
  simp [Dev.epOk, Dev.epOf_of h7, h7, h1, h2, hc, Dev.takeMsg, hq]

end
end

/-! ### Packets (R214, R227) -/

section
variable {d e : Dev} {t : Fin 1026} {w raw : Nat} (h7 : rvF7 w = 0)
include h7

section
variable (h1 : rvRs1 w = 0) (h2 : rvRs2 w = 0)
include h1 h2

section
variable {h : W64} {q : List W64} (hi : (e.thread t).inbox = h :: q)
include hi

/-- A handle out of the inbox. -/
theorem doPkrecv_handle (hs : Issues d t .pkrecv w raw 4 e) :
    doPkrecv t d = ((e.modThread t fun y => { y with inbox := q }).finX t 4 (rvRd w) h 1).mark (.handed t (rvRd w)) := by
  refine (issueRow_issues hs).trans ?_
  simp [h7, h1, h2, hi]

theorem doPkrecvnb_handle (hs : Issues d t .pkrecvnb w raw 4 e) :
    doPkrecvnb t d = ((e.modThread t fun y => { y with inbox := q }).finX t 4 (rvRd w) h 1).mark (.handed t (rvRd w)) := by
  refine (issueRow_issues hs).trans ?_
  simp [h7, h1, h2, hi]

end

section
variable (hi : (e.thread t).inbox = [])
include hi

/-- An empty inbox blocks. -/
theorem doPkrecv_empty (hs : Issues d t .pkrecv w raw 4 e) :
    doPkrecv t d = e.modThread t fun y => { y with wait := .pkrecv (rvRd w) e.cycle } := by
  refine (issueRow_issues hs).trans ?_
  simp [h7, h1, h2, hi]

/-- PKRECVNB reads 0 from an empty inbox. -/
theorem doPkrecvnb_empty (hs : Issues d t .pkrecvnb w raw 4 e) : doPkrecvnb t d = e.finX t 4 (rvRd w) 0 1 := by
  refine (issueRow_issues hs).trans ?_
  simp [h7, h1, h2, hi]

end
end

variable (hd : rvRd w = 0) (hs : Issues d t .pksend w raw 4 e)
include hd hs

/-- A handle and its verdict enter a return queue with room. -/
theorem doPksend_room (hq : (e.thread t).retq.length < 8) :
    doPksend t d = (e.modThread t fun y => { y with
      retq := y.retq ++ [((e.thread t).rd (rvRs1 w), (e.thread t).rd (rvRs2 w))] }).retireIns t 4 := by
  refine (issueRow_issues hs).trans ?_
  simp [h7, hd, hq, Dev.rs1v, Dev.rs2v]

/-- A full return queue blocks. -/
theorem doPksend_full (hq : (e.thread t).retq.length = 8) :
    doPksend t d = e.modThread t fun y => { y with
      wait := .pksend ((e.thread t).rd (rvRs1 w)) ((e.thread t).rd (rvRs2 w)) e.cycle } := by
  refine (issueRow_issues hs).trans ?_
  simp [h7, hd, hq, Dev.rs1v, Dev.rs2v]

end

/-! ### What the statement comes to -/

/-- The clause of O26 that speaks of CHRECV at an endpoint with no channel (R216). -/
def UnboundReceive : Prop :=
  ∀ (s : State) (t : Fin 1026) (w raw : Nat) (e : Dev), s.dev.alive = true → Issues s.dev t .chrecv w raw 4 e → rvF7 w < 4 →
    rvRs1 w = 0 → rvRs2 w = 0 → e.rxChan t (rvF7 w) = none → (e.thread t).mode = .m →
    Does (.chrecv t) s fun d =>
      (d.thread t).csr 0x341 = (e.thread t).pc.toNat ∧ (d.thread t).csr 0x342 = 24 ∧ (d.thread t).csr 0x343 = 4 + rvF7 w

/-- Every other clause holds, by the equation of its case. -/
theorem channelInstructions_iff : Obligations.ChannelInstructions ↔ UnboundReceive := by
  refine ⟨fun ⟨_, _, hunbound, _⟩ => hunbound, fun hunbound => ⟨⟨?_, ?_, ?_, ?_, ?_, ?_⟩, ?_, hunbound, ?_, ?_, ?_⟩⟩
  · exact fun s t w raw e c x ha h h7 h1 hd hc ho hq => does_intro ha rfl (doChsend_room h7 h1 hd h hc ho hq)
  · exact fun s t w raw e c x ha h h7 h1 hc ho hq => does_intro ha rfl (doChsendnb_room h7 h1 h hc ho hq)
  · exact fun s t w raw e c x m q ha h7 h1 h2 hc hq => ⟨fun h => does_intro ha rfl (doChrecv_message h7 h1 h2 hc hq h),
      fun h => does_intro ha rfl (doChrecvnb_message h7 h1 h2 hc hq h)⟩
  · exact fun s t w raw e h q ha h7 h1 h2 hi => ⟨fun hs => does_intro ha rfl (doPkrecv_handle h7 h1 h2 hi hs),
      fun hs => does_intro ha rfl (doPkrecvnb_handle h7 h1 h2 hi hs)⟩
  · exact fun s t w raw e ha hs h7 h1 h2 hi => does_intro ha rfl (doPkrecvnb_empty h7 h1 h2 hi hs)
  · exact fun s t w raw e ha hs h7 hd hq => does_intro ha rfl (doPksend_room h7 hd hs hq)
  · refine fun s t w raw e c x ha h h7 h1 hd hc => ⟨fun hclosed => does_intro ha rfl ?_,
      fun ho hq => does_intro ha rfl (doChsend_full h7 h1 hd h hc ho hq)⟩
    rw [doChsend_closed h7 h1 hd h hc hclosed]
    exact Dev.raise_cause e t ⟨24, rvF7 w⟩
  · exact fun s t w raw e c x ha h h7 h1 h2 hc hq => does_intro ha rfl (doChrecv_empty h7 h1 h2 hc h hq)
  · exact fun s t w raw e ha hs h7 h1 h2 hi => does_intro ha rfl (doPkrecv_empty h7 h1 h2 hi hs)
  · exact fun s t w raw e ha hs h7 hd hq => does_intro ha rfl (doPksend_full h7 hd hs hq)

/-- CHRECV at an endpoint with no channel saves the pc without its bit 0. -/
theorem chrecv_unbound_saves {s u : State} {t : Fin 1026} {w raw : Nat} {e : Dev} (ha : s.dev.alive = true)
    (h : Issues s.dev t .chrecv w raw 4 e) (h7 : rvF7 w < 4) (h1 : rvRs1 w = 0) (h2 : rvRs2 w = 0) (hc : e.rxChan t (rvF7 w) = none)
    (hm : (e.thread t).mode = .m) (hu : exec (.chrecv t) s = .next u) :
    (u.dev.thread t).csr 0x341 = (e.thread t).pc.toNat / 2 * 2 := by
  have heffect : s.effect (doChrecv t) = .next u := hu
  rw [effect_alive ha, doChrecv_unbound h7 h1 h2 h hc] at heffect
  cases heffect
  obtain ⟨hsaved, -⟩ := Dev.raise_mMode (x := ⟨24, 4 + rvF7 w⟩) hm
  exact hsaved

/-! ### The state that refutes it -/

/-- CHRECV x1 from endpoint 0. -/
def chrecvWord : Nat := 0x000020AB

/-- Thread 0, enabled in M mode, at a pc. -/
def threadAt (pc : W64) : Thread := { Thread.reset with enabled := true, pc := pc }

/-- The state at reset with quadrant 0 released and CHRECV in the HBM, in a line that kiln 5 holds Modified. The thread table lists thread
0 twice, which no canonical table does (`tabWf`), the second time at an odd pc. -/
def doubledState : State :=
  let d := ((Dev.reset.put RST_QUAD_STATUS_HELD 0).put RST_QUAD_STATUS_RESETTING 0).put (RAS_KILN_MAP_VALID 0) 1
  { State.reset with dev := { d with
    mem := { d.mem with
      hbm := Dev.layBytes d.mem.hbm 0x80001000 (leBytes 4 chrecvWord), modified := [(0x80001000 / 64, some 5)] }
    core := { d.core with threads := [(0, threadAt 0x80001000#64), (0, threadAt 0x80001001#64)] } } }

/-- The device once thread 0 has the slot, and once it has fetched: the recall of the fetched line rebuilds the thread table, in which
the last entry of a thread stands. -/
def doubledIssued : Dev := (doubledState.dev.issue 0).getD doubledState.dev
def doubledFetched : Dev := (doubledIssued.fetchIns 0).1

theorem doubledState_issues : Issues doubledState.dev 0 .chrecv chrecvWord chrecvWord 4 doubledFetched := by
  have hissue : (doubledState.dev.issue 0).isSome = true := by decide +kernel
  have hfetch : (doubledIssued.fetchIns 0).2 = .ins chrecvWord chrecvWord 4 := by decide +kernel
  obtain ⟨y, hy⟩ := Option.isSome_iff_exists.mp hissue
  have hyi : doubledIssued = y := by rw [doubledIssued, hy, Option.getD_some]
  exact ⟨y, hy, hyi ▸ (by decide +kernel : Dev.takeable (doubledIssued.thread 0) = none), hyi ▸ Prod.ext rfl hfetch, rfl⟩

/-- In `doubledState` the clause fails. -/
theorem not_unboundReceive : ¬ UnboundReceive := by
  intro hunbound
  have halive : doubledState.dev.alive = true := by decide +kernel
  have hchan : doubledFetched.rxChan 0 (rvF7 chrecvWord) = none := by decide +kernel
  have hmode : (doubledFetched.thread 0).mode = .m := by decide +kernel
  have hpc : (doubledFetched.thread (0 : Fin 1026)).pc = 0x80001001#64 := by decide +kernel
  obtain ⟨u, hu, -, hepc, -⟩ := hunbound doubledState 0 chrecvWord chrecvWord doubledFetched halive doubledState_issues
    (by decide) rfl rfl hchan hmode
  have heven := (chrecv_unbound_saves halive doubledState_issues (by decide) rfl rfl hchan hmode hu).symm.trans hepc
  rw [hpc] at heven
  exact absurd heven (by decide)

/-- Refutes O26, in the clause of CHRECV at an endpoint with no channel: mepc holds the pc without its bit 0, where the statement has the
pc whole. The two agree on an even pc, but the statement asks for no canonical thread table, and after the fetch in `doubledState` the
pc is odd. Every other clause holds. -/
theorem not_channelInstructions : ¬ Obligations.ChannelInstructions :=
  fun h => not_unboundReceive (channelInstructions_iff.mp h)

end Sys2Proof.Machine
end

section
/-!
PROOFS. The writes of the HBM (O59): what the passing of a cycle leaves of the memory and its reservations, and what a write makes of
the bytes, the poison and the reservations.
-/

namespace Sys2Proof.Machine

/-! ### Tables -/

theorem tabGet_insert {α : Type} (d : Nat → α) (t : Tab α) (k k' : Nat) (v : α) :
    tabGet d (tabInsert t k v) k' = if k' = k then v else tabGet d t k' := by
  split
  · next h => rw [h, tabGet_insert_self]
  · next h => exact tabGet_insert_ne d t v h

section
variable {α : Type} [DecidableEq α] (d : Nat → α) (f : Nat → α → α)

/-- The rewriting of other keys leaves a key as it is. -/
theorem tabGet_rewritten_ne {t : Tab α} {k : Nat} (h : ∀ kv ∈ t, k ≠ kv.1) (acc : Tab α) :
    tabGet d (t.foldl (fun acc kv => tabSet d acc kv.1 (f kv.1 kv.2)) acc) k = tabGet d acc k := by
  induction t generalizing acc with
  | nil => rfl
  | cons x t ih =>
    rw [List.foldl_cons, ih fun kv hkv => h kv (List.mem_cons_of_mem x hkv)]
    exact tabGet_set_ne d acc _ (h x List.mem_cons_self)

theorem tabGet_rewritten {t : Tab α} {k : Nat} (ht : tabWf d t = true) (hf : f k (d k) = d k) {acc : Tab α}
    (hacc : tabGet d acc k = d k) :
    tabGet d (t.foldl (fun acc kv => tabSet d acc kv.1 (f kv.1 kv.2)) acc) k = f k (tabGet d t k) := by
  induction t generalizing acc with
  | nil => exact hacc.trans hf.symm
  | cons x t ih =>
    simp only [tabWf, Bool.and_eq_true, List.all_eq_true, decide_eq_true_eq] at ht
    obtain ⟨⟨-, hrising⟩, htail⟩ := ht
    rw [List.foldl_cons, tabGet]
    by_cases hk : x.1 = k
    · have hunlisted : ∀ kv ∈ t, k ≠ kv.1 := fun kv hkv => hk ▸ (hrising kv hkv).ne
      rw [if_pos hk, tabGet_rewritten_ne d f hunlisted, hk, tabGet_set_self]
    · rw [if_neg hk]
      exact ih htail ((tabGet_set_ne d acc _ (Ne.symm hk)).trans hacc)

/-- A canonical table rewritten by a function that keeps the default reads as the function of what it read as. -/
theorem tabGet_mapAll {t : Tab α} {k : Nat} (ht : tabWf d t = true) (hf : f k (d k) = d k) :
    tabGet d (tabMapAll d t f) k = f k (tabGet d t k) := tabGet_rewritten d f ht hf rfl

end

namespace Dev

/-! ### The memory while a cycle passes -/

/-- `e` has the memory of `d` and its threads' reservations, in a thread table that is canonical where that of `d` is. -/
structure SameMemory (d e : Dev) : Prop where
  mem : e.mem = d.mem
  resv : ∀ t, (e.thread t).resv = (d.thread t).resv
  threadsWf : tabWf (fun _ => Thread.reset) d.core.threads = true → tabWf (fun _ => Thread.reset) e.core.threads = true

namespace SameMemory

variable {d e x : Dev}

theorem of_eq (hmem : e.mem = d.mem) (hthreads : e.core.threads = d.core.threads) : SameMemory d e :=
  ⟨hmem, fun t => by rw [thread, thread, hthreads], fun h => hthreads ▸ h⟩

theorem refl (d : Dev) : SameMemory d d := of_eq rfl rfl

theorem trans (h : SameMemory d e) (k : SameMemory e x) : SameMemory d x :=
  ⟨k.mem.trans h.mem, fun t => (k.resv t).trans (h.resv t), k.threadsWf ∘ h.threadsWf⟩

theorem ite {c : Prop} [Decidable c] (h : SameMemory d e) (k : SameMemory d x) : SameMemory d (if c then e else x) := by
  split
  · exact h
  · exact k

theorem foldl {β : Type} {f : Dev → β → Dev} (h : ∀ d b, SameMemory d (f d b)) (l : List β) (d : Dev) :
    SameMemory d (l.foldl f d) := by
  induction l generalizing d with
  | nil => exact refl d
  | cons b l ih => exact (h d b).trans (ih _)

/-- A change of one thread that keeps its reservation. -/
theorem tabMod (d : Dev) (k : Nat) {g : Thread → Thread} (hg : ∀ y, (g y).resv = y.resv) :
    SameMemory d { d with core := { d.core with threads := Machine.tabMod (fun _ => .reset) d.core.threads k g } } where
  mem := rfl
  resv t := by
    simp only [thread, Machine.tabMod, tabGet_set]
    split
    · next h => rw [hg, h]
    · rfl
  threadsWf := tabWf_mod _ _ _ _

end SameMemory

theorem sameMemory_syncLate (d : Dev) : SameMemory d d.syncLate := by
  refine SameMemory.foldl (fun d kv => ?_) _ d
  split
  · exact .ite (.of_eq rfl rfl) (.refl d)
  · exact .refl d

theorem sameMemory_enterStores (d : Dev) : SameMemory d d.enterStores := by
  refine SameMemory.foldl (fun d kv => ?_) _ d
  exact .ite (.tabMod d _ fun _ => rfl) (.refl d)

theorem sameMemory_portServe (d : Dev) (c : Nat) : SameMemory d (d.portServe c) := by
  unfold portServe
  split
  · exact .refl d
  · have hsent : SameMemory d (d.portSent c) := .of_eq rfl rfl
    refine .ite (.refl d) ?_
    dsimp only
    split
    · exact hsent.trans (.of_eq rfl rfl)
    · exact hsent.trans (.tabMod _ _ fun _ => rfl)

theorem sameMemory_portTick (d : Dev) : SameMemory d d.portTick :=
  ((sameMemory_enterStores d).trans (SameMemory.foldl sameMemory_portServe _ _)).trans (.of_eq rfl rfl)

/-- A passing cycle touches no byte, no poison and no reservation. -/
theorem sameMemory_tick (d : Dev) : SameMemory d d.tick := by
  refine (sameMemory_portTick d).trans (SameMemory.trans ?_ (sameMemory_syncLate _))
  apply SameMemory.of_eq <;> simp [leaveCount, apply_ite Dev.mem, apply_ite Dev.core]

theorem sameMemory_nextNoc (d : Dev) : SameMemory d d.nextNoc :=
  .ite ((sameMemory_tick d).trans (sameMemory_tick _)) (sameMemory_tick d)

theorem sameMemory_inWriteOrder (d : Dev) (order a n : Nat) : SameMemory d (d.inWriteOrder order a n) :=
  SameMemory.trans (.ite (sameMemory_nextNoc d) (.refl d)) (.of_eq rfl rfl)

/-- The dirty logs are the saggars', outside the memory and the threads (R383). -/
theorem sameMemory_markDirty (d : Dev) (a n : Nat) : SameMemory d (d.markDirty a n) := by
  refine SameMemory.foldl (fun d s => ?_) _ d
  exact .ite (.refl d) (.ite (.refl d) (.of_eq rfl rfl))

/-! ### Bytes laid into the memory -/

theorem listBytes_get (f : Nat → Byte) (m : List (Nat × Byte)) (a b : Nat) (bs : List Byte) :
    tabGet f (listBytes m a bs) b = if a ≤ b ∧ b < a + bs.length then bs.getD (b - a) 0#8 else tabGet f m b := by
  induction bs generalizing m a with
  | nil => simp [listBytes]
  | cons c bs ih =>
    rw [listBytes, ih, tabGet_insert, List.length_cons]
    rcases Nat.lt_trichotomy b a with h | rfl | h
    · rw [if_neg (by omega), if_neg (by omega), if_neg (by omega)]
    · simp
    · have hsub : b - a = b - (a + 1) + 1 := by omega
      rw [if_neg (by omega : ¬b = a), hsub, List.getD_cons_succ]
      exact if_congr (by omega) rfl rfl

/-- What an unlisted byte reads as rests on the package resets alone (R429). -/
theorem hbmBlank_congr {d e : Dev} (h : e.mem.era = d.mem.era) : e.hbmBlank = d.hbmBlank :=
  funext fun _ => by rw [hbmBlank, hbmBlank, h]

/-- Bytes laid into a memory read back, before the contents are lost and after (R429). -/
theorem hbmLay_get {m : MemState} {f : Nat → Byte} (hf : m.era = 0 → f = fun _ => 0#8) (a b : Nat) (bs : List Byte) :
    tabGet f (hbmLay m a bs) b = if a ≤ b ∧ b < a + bs.length then bs.getD (b - a) 0#8 else tabGet f m.hbm b := by
  unfold hbmLay
  split
  · next h => rw [hf h, layBytes_get]
  · exact listBytes_get f _ a b bs

/-! ### A write -/

/-- Whether a write of `n` bytes at `a` touches line `l`. -/
def touchesLine (a n l : Nat) : Bool := decide (a / 64 ≤ l) && decide (l ≤ (a + n - 1) / 64)

/-- Whether it covers line `l` whole. -/
def coversLine (a n l : Nat) : Bool := decide (a ≤ 64 * l) && decide (64 * l + 64 ≤ a + n)

/-- The memory after a write. -/
def written (m : MemState) (a : Nat) (bs : List Byte) : MemState :=
  { m with
    hbm := hbmLay m a bs, poison := m.poison.filter (!coversLine a bs.length ·),
    modified := m.modified.filter fun kv => !touchesLine a bs.length kv.1 }

/-- A thread after a write of `n` bytes at `a`. -/
def unreserved (a n : Nat) (x : Thread) : Thread :=
  match x.resv with
  | some l => if touchesLine a n l then { x with resv := none } else x
  | none => x

theorem unreserved_reset (a n : Nat) : unreserved a n .reset = .reset := rfl

theorem unreserved_resv {a n l : Nat} {x : Thread} (hx : x.resv = some l) (hl : touchesLine a n l = true) :
    (unreserved a n x).resv = none := by
  rw [unreserved, hx]
  simp only [hl, if_true]

/-- The device with a write laid into its memory. -/
def laid (d : Dev) (a : Nat) (bs : List Byte) : Dev :=
  { d with
    mem := written d.mem a bs
    core := { d.core with threads := tabMapAll (fun _ => .reset) d.core.threads fun _ => unreserved a bs.length } }

theorem laid_thread {d : Dev} (a : Nat) (bs : List Byte) (t : Nat)
    (hwf : tabWf (fun _ => Thread.reset) d.core.threads = true) :
    (d.laid a bs).thread t = unreserved a bs.length (d.thread t) :=
  tabGet_mapAll _ (fun _ => unreserved a bs.length) hwf (unreserved_reset _ _)

theorem hbmWriteAs_nil (order : Nat) (d : Dev) (a : Nat) : d.hbmWriteAs order a [] = d := rfl

section
variable (order : Nat) (d : Dev) (a : Nat) {bs : List Byte} (hbs : bs ≠ [])
include hbs

theorem hbmWriteAs_eq :
    d.hbmWriteAs order a bs = ((d.inWriteOrder order a bs.length).laid a bs).markDirty a bs.length := by
  rw [hbmWriteAs, if_neg (by simpa using hbs)]
  rfl

theorem hbmWriteAs_mem : (d.hbmWriteAs order a bs).mem = written d.mem a bs := by
  rw [hbmWriteAs_eq order d a hbs, (sameMemory_markDirty _ _ _).mem]
  exact congrArg (written · a bs) (sameMemory_inWriteOrder d order a bs.length).mem

/-- The reservation of a line that a write touches ends (R247). -/
theorem hbmWriteAs_resv {t l : Nat} (hwf : tabWf (fun _ => Thread.reset) d.core.threads = true)
    (hresv : (d.thread t).resv = some l) (hl : touchesLine a bs.length l = true) :
    ((d.hbmWriteAs order a bs).thread t).resv = none := by
  have hordered := sameMemory_inWriteOrder d order a bs.length
  rw [hbmWriteAs_eq order d a hbs, (sameMemory_markDirty _ _ _).resv, laid_thread a bs t (hordered.threadsWf hwf)]
  exact unreserved_resv ((hordered.resv t).trans hresv) hl

end

/-- A byte of the written range is the one written there, and every other stays. -/
theorem hbmWriteAs_byte (order : Nat) (d : Dev) (a b : Nat) (bs : List Byte) :
    (d.hbmWriteAs order a bs).hbmByte b = if a ≤ b ∧ b < a + bs.length then bs.getD (b - a) 0#8 else d.hbmByte b := by
  by_cases hbs : bs = []
  · rw [hbs, hbmWriteAs_nil, List.length_nil, if_neg (by omega)]
  · have hmem := hbmWriteAs_mem order d a hbs
    have hblank : (d.hbmWriteAs order a bs).hbmBlank = d.hbmBlank := hbmBlank_congr (by rw [hmem, written])
    rw [hbmByte, hblank, hmem]
    exact hbmLay_get (fun h => funext fun _ => if_pos h) a b bs

theorem hbmWriteAs_wf (order : Nat) {d : Dev} (a : Nat) (bs : List Byte) (h : d.mem.wf = true) :
    (d.hbmWriteAs order a bs).mem.wf = true := by
  by_cases hbs : bs = []
  · rwa [hbs, hbmWriteAs_nil]
  · rw [hbmWriteAs_mem order d a hbs]
    exact hbmLay_wf d.mem a bs [] h

/-- A line's poison goes where a write covers it whole (R248). -/
theorem hbmWriteAs_poison (order : Nat) (d : Dev) (a l : Nat) (bs : List Byte) :
    l ∈ (d.hbmWriteAs order a bs).mem.poison ↔ l ∈ d.mem.poison ∧ ¬(a ≤ 64 * l ∧ 64 * l + 64 ≤ a + bs.length) := by
  by_cases hbs : bs = []
  · rw [hbs, hbmWriteAs_nil, List.length_nil]
    exact ⟨fun h => ⟨h, by omega⟩, And.left⟩
  · rw [hbmWriteAs_mem order d a hbs, written, List.mem_filter]
    simp only [coversLine, Bool.not_eq_true', Bool.and_eq_false_iff, decide_eq_false_iff_not, not_and_or]

end Dev

/-! ### The obligation -/

/-- Settles O59: a write is put in its order, which touches nothing of the memory, and then lays its bytes, takes the poison of the lines
that it covers and ends the reservations of those that it touches. -/
theorem hbmWrites : Obligations.HbmWrites :=
  ⟨Dev.hbmWriteAs_byte Dev.orderIo,
   fun _ a bs h => Dev.hbmWriteAs_wf Dev.orderIo a bs h,
   reset_mem_wf,
   Dev.hbmWriteAs_poison Dev.orderIo,
   fun d a _ _ _ hbs hresv hfirst hlast hwf =>
    Dev.hbmWriteAs_resv Dev.orderIo d a hbs hwf hresv (by rw [Dev.touchesLine, decide_eq_true hfirst, decide_eq_true hlast]; rfl)⟩

end Sys2Proof.Machine
end

section
/-!
PROOFS. The invocation counter (O28): a field written into a structure of bytes is read back there and nowhere else, so that the next
value changes nothing of a context but its counter.
-/

namespace Sys2Proof

/-! ### Bytes of a structure -/

@[simp] theorem leBytes_length (n x : Nat) : (leBytes n x).length = n := by
  induction n generalizing x with
  | zero => rfl
  | succ n ih => exact congrArg (· + 1) (ih (x / 256))

theorem leNat_leBytes (n x : Nat) : leNat (leBytes n x) = x % 256 ^ n := by
  induction n generalizing x with
  | zero => rw [Nat.pow_zero, Nat.mod_one]; rfl
  | succ n ih => rw [leBytes, leNat, ih, BitVec.toNat_ofNat, Nat.pow_succ' (m := 256), Nat.mod_mul]

section
variable {bs new : List Byte} {off : Nat}

theorem overlay_getD_ne {i : Nat} (h : i < off ∨ off + new.length ≤ i) : (overlay bs off new).getD i 0#8 = bs.getD i 0#8 := by
  have hout : ¬(off ≤ i ∧ i < off + new.length) := by omega
  simp only [overlay, List.getD_eq_getElem?_getD, List.getElem?_map, List.getElem?_zipIdx]
  cases bs[i]? <;> simp [hout]

theorem overlay_getD_same {k : Nat} (hk : k < new.length) (h : off + new.length ≤ bs.length) :
    (overlay bs off new).getD (off + k) 0#8 = new.getD k 0#8 := by
  have hin : off + k < bs.length := by omega
  simp [overlay, List.getD_eq_getElem?_getD, hin, hk]

/-- A field beside what is laid over keeps its value. -/
theorem fieldLE_overlay_ne {o n : Nat} (h : o + n ≤ off ∨ off + new.length ≤ o) :
    fieldLE (overlay bs off new) o n = fieldLE bs o n := by
  refine congrArg leNat (List.map_congr_left fun k hk => overlay_getD_ne ?_)
  have := List.mem_range.mp hk
  omega

/-- A number laid over a structure is read back there. -/
theorem fieldLE_overlay_same {n x : Nat} (h : off + n ≤ bs.length) : fieldLE (overlay bs off (leBytes n x)) off n = x % 256 ^ n := by
  have hslice : sliceB (overlay bs off (leBytes n x)) off n = leBytes n x := by
    refine List.ext_getElem (by simp [sliceB]) fun k hk _ => ?_
    have hlt : k < (leBytes n x).length := by simpa [sliceB] using hk
    have hget := overlay_getD_same (bs := bs) (off := off) hlt (by simpa using h)
    rw [List.getD_eq_getElem _ _ hlt] at hget
    simpa [sliceB] using hget
  rw [fieldLE, hslice, leNat_leBytes]

end

end Sys2Proof

namespace Sys2Proof.Machine

/-! ### A counter that is written -/

namespace KeyCtx

section
variable (c : KeyCtx) (n : Nat)

@[simp] theorem setCounter_key : (c.setCounter n).key = c.key := rfl
@[simp] theorem setCounter_cached : (c.setCounter n).cached = c.cached := rfl
@[simp] theorem setCounter_near : (c.setCounter n).near = c.near := rfl
@[simp] theorem setCounter_valid : (c.setCounter n).valid = c.valid :=
  congrArg (bitOf · 31) (fieldLE_overlay_ne (.inl (by decide)))
@[simp] theorem setCounter_limit : (c.setCounter n).limit = c.limit :=
  fieldLE_overlay_ne (.inr (by rw [leBytes_length]))
@[simp] theorem setCounter_warn : (c.setCounter n).warn = c.warn :=
  fieldLE_overlay_ne (.inr (by rw [leBytes_length]; decide))

end

theorem setCounter_counter {c : KeyCtx} {n : Nat} (ha : c.attr.length = 64) (hn : n < 2 ^ 64) : (c.setCounter n).counter = n :=
  (fieldLE_overlay_same (by rw [ha]; decide)).trans (Nat.mod_eq_of_lt hn)

end KeyCtx

/-! ### A context that is written -/

namespace Dev

/-- What a context reads as depends on the glaze block and the fuses alone. -/
theorem kctx_congr {d e : Dev} (hg : e.glz = d.glz) (hb : e.boot = d.boot) (i : Nat) : e.kctx i = d.kctx i := by
  simp only [kctx, storageKey, hg, hb]

section
variable (d : Dev) {i j : Nat} {c : KeyCtx}

theorem kctx_setKctx_ne (h : j ≠ i) : (d.setKctx i c).kctx j = d.kctx j := by
  simp only [kctx, storageKey, setKctx, setGlz, tabGet_set_ne _ _ _ h]

@[simp] theorem kctx_setKctx_attr : ((d.setKctx i c).kctx i).attr = c.attr := by
  simp only [kctx, setKctx, setGlz, tabGet_set_self]
  split <;> split <;> rfl

/-- In the cache a context is held in plain form. -/
theorem kctx_setKctx_cached (h : c.cached = true) : (d.setKctx i c).kctx i = c := by
  simp [kctx, setKctx, setGlz, h]

/-- Outside the cache the key of a valid context is held wrapped under the storage key (R265). -/
theorem setKctx_stored (hc : c.cached = false) (hv : c.valid = true) :
    (tabGet (fun _ => KeyCtx.reset) (d.setKctx i c).glz.kc i).key = keyWrap d.storageKey c.key := by
  simp [setKctx, setGlz, hc, hv]

end

/-! ### An invocation -/

/-- Context `i` once its next value is used, `near` where the value left the margin within WARN. -/
def tookCounter (d : Dev) (i : Nat) (near : Bool) : KeyCtx :=
  { (d.kctx i).setCounter ((d.kctx i).counter + 1) with near := (d.kctx i).near || near }

/-- Whether the next value of context `i` leaves the margin within WARN. -/
def leavesMargin (d : Dev) (i lim : Nat) : Bool :=
  decide (Nat.min (d.kctx i).limit lim - ((d.kctx i).counter + 1) ≤ (d.kctx i).warn)

section
variable {d : Dev} {i lim : Nat}

/-- A value below the limit is used: besides the context, only events are set. -/
theorem takeCounter_below (h : (d.kctx i).counter < Nat.min (d.kctx i).limit lim) (hc : (d.kctx i).counter + 1 < 2 ^ 64)
    (ha : (d.kctx i).attr.length = 64) :
    ∃ e, d.takeCounter i lim false = (some ((d.kctx i).counter, d.leavesMargin i lim), e) ∧
      e.glz = (d.setKctx i (d.tookCounter i (d.leavesMargin i lim))).glz ∧ e.boot = d.boot := by
  have hinvoke : invoke (d.kctx i) lim false = (some (d.kctx i).counter, (d.kctx i).setCounter ((d.kctx i).counter + 1)) := by
    simp only [invoke, Bool.false_and, Bool.false_eq_true, if_false, if_pos h]
  have hmargin : decide (Nat.min ((d.kctx i).setCounter ((d.kctx i).counter + 1)).limit lim -
      ((d.kctx i).setCounter ((d.kctx i).counter + 1)).counter ≤ ((d.kctx i).setCounter ((d.kctx i).counter + 1)).warn) =
      d.leavesMargin i lim := by
    rw [KeyCtx.setCounter_limit, KeyCtx.setCounter_warn, KeyCtx.setCounter_counter ha hc, leavesMargin]
  simp only [takeCounter, hinvoke, hmargin]
  refine ⟨_, rfl, ?_, ?_⟩ <;> split <;> rfl

/-- At the limit no value is used, and the exhaustion is noted. -/
theorem takeCounter_exhausted (h : Nat.min (d.kctx i).limit lim ≤ (d.kctx i).counter) :
    d.takeCounter i lim false = (none, ((d.setKctx i (d.kctx i)).setEvent GLZ_EVENT_EXHAUSTED).put GLZ_EVENT_KC_INDEX i) := by
  have hinvoke : invoke (d.kctx i) lim false = (none, d.kctx i) := by
    simp only [invoke, Bool.false_and, Bool.false_eq_true, if_false, if_neg (Nat.not_lt.mpr h)]
  simp only [takeCounter, hinvoke]

end

end Dev

/-- Settles O28: what is left of a device whose counter is taken is what its context was written as, with the next value in it. -/
theorem invocationCounter : Obligations.InvocationCounter := by
  refine ⟨fun d i lim hlt hmax hattr => ?_, fun d i lim h => Dev.takeCounter_exhausted h⟩
  obtain ⟨e, htake, hglz, hboot⟩ := Dev.takeCounter_below hlt hmax hattr
  have hkctx (j : Nat) : e.kctx j = (d.setKctx i (d.tookCounter i (d.leavesMargin i lim))).kctx j :=
    Dev.kctx_congr hglz hboot j
  refine ⟨_, e, htake, ?_, decide_eq_true_iff, fun hc => ?_, fun hc hv => ?_, fun j hj => ?_⟩
  · rw [hkctx, KeyCtx.counter, Dev.kctx_setKctx_attr]
    exact KeyCtx.setCounter_counter hattr hmax
  · rw [hkctx, Dev.kctx_setKctx_cached d (c := d.tookCounter i _) hc]
    rfl
  · rw [hglz]
    exact Dev.setKctx_stored d hc ((KeyCtx.setCounter_valid _ _).trans hv)
  · rw [hkctx, Dev.kctx_setKctx_ne d hj]

end Sys2Proof.Machine
end

section
/-!
PROOFS. Where a lookaside job starts (O27): the dispatcher takes the job, decides whether it runs, and begins it on the engine with the
invocation value that its mode uses.
-/

namespace Sys2Proof.Machine

/-- A lookaside job of opcode `op` begins on engine `e`, its context `c` in the cache or not needed: `u` is the device once its invocation
value, if it uses one, is taken (R261, R278). -/
def jobBegun (u : Dev) (op e : Nat) (g : GlzJob) (c : KeyCtx) (counter : Option Nat) (near : Bool) : Dev :=
  let b := g.job.block
  let v := (u.debitCost .glz (Dev.glzOwner g) (jobCycles c b)).openFeed g.job
    [(0, jbSrc b, jbLen b), (1, jbAad b, jbAadLen b), (2, jbTag b, if op = 2 then jbTagLen b else 0)] none
  v.setGlzEng e (some {
    work := .job g, ctx := c, ent := .reset, counter := counter, near := near, bad := none, started := v.cycle
    due := some (v.cycle + jobCycles c b), cost := jobCycles c b, wrote := 0, unt := false })

/-- Whether an address that a lookaside job of opcode `op` names lies outside its channel's rights (R334). -/
def jobDenied (t : Dev) (op : Nat) (g : GlzJob) : Bool :=
  let b := g.job.block
  (Dev.glzAddrs b (if op = 3 ∨ op = 4 then 0 else jbLen b) (if op = 3 then (digestLen (jbHash b)).getD 0 else jbTagLen b) false).any
    fun r => !t.tAllowed g.job.chan r.1 r.2

/-- Whether a job of opcode `op` uses an invocation value of its context: an encryption that the device numbers (R270). -/
def usesValue (t : Dev) (op : Nat) (g : GlzJob) : Bool := op == 1 && isInvocation (t.kctx (jbKc g.job.block)).alg

/-- The invocation of a job on engine `e`, in its turn (R271): its value, and the device after it. A job that uses none goes on with 0. -/
def jobInvocation (t : Dev) (op e : Nat) (g : GlzJob) : Option (Nat × Bool) × Dev :=
  let i := jbKc g.job.block
  if usesValue t op g then ((t.turnInvoke i e).mark (.invoked i e)).takeCounter i (2 ^ 64) false else (some (0, false), t)

/-- The row of each opcode that the dispatcher starts is one operation. -/
theorem exec_glzStart {op : Nat} {row : Instr}
    (h : op = 1 ∧ row = .glzEncrypt ∨ op = 2 ∧ row = .glzDecrypt ∨ op = 3 ∧ row = .glzHash ∨ op = 4 ∧ row = .glzHmac)
    (s : State) :
    exec row s = s.effect fun d => d.glzStart op := by
  rcases h with ⟨rfl, rfl⟩ | ⟨rfl, rfl⟩ | ⟨rfl, rfl⟩ | ⟨rfl, rfl⟩ <;> rfl

section
variable {d t : Dev} {op e : Nat} {g : GlzJob} (hchosen : glzChosen d op e g t) (hsto : g.job.sto = none) (hcheck : t.glzCheck g = 0)
  (hrights : jobDenied t op g = false) (hhit : (t.kctx (jbKc g.job.block)).cached = true ∨ op = 3)
include hchosen hsto hcheck hrights hhit

/-- A job that the dispatcher serves and nothing refuses begins, once its invocation has a value (R261, R270). -/
theorem glzStart_begins {n : Nat} {near : Bool} {u : Dev} (htake : jobInvocation t op e g = (some (n, near), u)) :
    d.glzStart op = jobBegun u op e g (t.kctx (jbKc g.job.block)) (if usesValue t op g then some n else none) near := by
  obtain ⟨hon, hfree, hcopy, hop, arb, d1, hnext, ht⟩ := hchosen
  have hblock : Dev.glzBlock g = g.job.block := by rw [Dev.glzBlock, hcopy]
  have htag (c : KeyCtx) : Dev.withTag c g g.job.block = g.job.block := by rw [Dev.withTag, hcopy]; rfl
  have hready : (op == 3 || (t.kctx (jbKc g.job.block)).cached) = true := by simpa [or_comm] using hhit
  have hok : ¬t.glzCheck g ≠ gzOk := not_not_intro hcheck
  simp only [glzTaken] at ht
  simp only [jobDenied] at hrights
  simp only [jobInvocation] at htake
  simp only [Dev.glzStart, hon, hfree, hnext, hblock, htag, hop, ← ht, if_neg hok, hsto, hcopy, Option.isNone_none, Option.isSome_none,
    Bool.false_eq_true, if_false, Bool.true_and, hrights, hready, if_true, and_true, ne_eq, not_true_eq_false, jobBegun]
  rcases Bool.eq_false_or_eq_true (usesValue t op g) with huses | huses
  · rw [if_pos huses] at htake ⊢
    rw [usesValue] at huses
    simp only [huses, if_true, htake]
  · rw [if_neg (Bool.eq_false_iff.mp huses)] at htake ⊢
    rw [usesValue] at huses
    cases htake
    simp only [huses, Bool.false_eq_true, if_false]

/-- A job that uses no invocation value begins on the device as it is taken. -/
theorem glzStart_plain (h : op ≠ 1 ∨ isInvocation (t.kctx (jbKc g.job.block)).alg = false) :
    d.glzStart op = jobBegun t op e g (t.kctx (jbKc g.job.block)) none false := by
  have huses : usesValue t op g = false := by rcases h with h | h <;> simp [usesValue, h]
  have hbegun := glzStart_begins hchosen hsto hcheck hrights hhit (if_neg (Bool.eq_false_iff.mp huses))
  rwa [huses] at hbegun

/-- An encryption that the device numbers begins with the next invocation value of its context (R270), in its turn (R271). -/
theorem glzStart_numbered {n : Nat} {near : Bool} {u : Dev} (hop : op = 1) (h : isInvocation (t.kctx (jbKc g.job.block)).alg = true)
    (htake : ((t.turnInvoke (jbKc g.job.block) e).mark (.invoked (jbKc g.job.block) e)).takeCounter (jbKc g.job.block) (2 ^ 64) false =
      (some (n, near), u)) :
    d.glzStart op = jobBegun u op e g (t.kctx (jbKc g.job.block)) (some n) near := by
  have huses : usesValue t op g = true := by simp [usesValue, hop, h]
  have hbegun := glzStart_begins hchosen hsto hcheck hrights hhit ((if_pos huses).trans htake)
  rwa [huses] at hbegun

end

/-- Settles O27: each row is the dispatcher's start of its opcode, with an invocation value or without. -/
theorem glazeStarts : Obligations.GlazeStarts := by
  intro s op e row g t halive hrow hchosen hsto hcheck b c hrights hhit feeds
  exact ⟨fun h => does_intro halive (exec_glzStart hrow s) (glzStart_plain hchosen hsto hcheck hrights hhit h),
    fun n near u hop h htake => does_intro halive (exec_glzStart hrow s) (glzStart_numbered hchosen hsto hcheck hrights hhit hop h htake)⟩

end Sys2Proof.Machine
end

section
/-!
PROOFS. The key commands (O29): the state that refutes the statement, a KC_LOAD whose 128 bytes are read through its channel's engine.
-/

namespace Sys2Proof.Machine

/-- KC_LOAD of context 0 from host address 0, on the manager's channel 0. -/
def loadJob : GlzJob :=
  ⟨{ chan := 0, idx := 0, addr := 0, block := 0x70#8 :: List.replicate 127 0#8, firing := 0, owner := none, tagSag := none, handed := 0,
     sto := none }, none⟩

/-- The state at reset with the glaze engines enabled and that block waiting. -/
def loadState : State :=
  { State.reset with dev :=
    { (Dev.reset.put GLZ_CTRL_ENABLE 1).lock GLZ_CTRL with glz := { GlzState.reset with jobs := [loadJob] } } }

/-- What the host returns: the attributes of a valid AES-128-GCM context, and a key of zeros. -/
def loadHost : List Byte := [0#8, 0#8, 0#8, 0x81#8] ++ List.replicate 124 0#8

/-- The device with the block taken, as `keyChosen` has it. -/
def loadTaken : Dev := loadState.dev.setGlz fun s => { s with jobs := s.jobs.filter (· != loadJob) }

theorem loadTaken_chosen : keyChosen loadState.dev 0 0x70 loadJob loadTaken :=
  ⟨by decide +kernel, by decide +kernel, by decide +kernel, rfl⟩

/-- The model counts the bytes that the load reads as bytes of engine 0 (R352, R362). -/
theorem kcLoad_loadState_counts {t : State} (h : exec (.kcLoad 0 loadHost) loadState = .next t) :
    t.dev.count (DMA_CNT_BYTES_READ 0) = 128 := by
  have halive : loadState.dev.alive = true := by decide +kernel
  have heffect : loadState.effect (doKcLoad 0 loadHost) = .next t := h
  rw [effect_alive halive] at heffect
  cases heffect
  decide +kernel

/-- Refutes O29, in the clause of KC_LOAD: the engine of the command's channel counts the 128 bytes that it reads in BYTES_READ (R352,
R362), where the statement has the load leave no trace of them: BYTES_READ stays 0. -/
theorem not_keyCommands : ¬ Obligations.KeyCommands := by
  intro h
  obtain ⟨hload, -⟩ := h loadState 0 loadJob loadTaken loadHost (by decide +kernel) rfl
  obtain ⟨t, ht, -, hdev⟩ := hload _ loadTaken_chosen (by decide +kernel) rfl (by decide +kernel)
  have hcount := kcLoad_loadState_counts ht
  rw [hdev] at hcount
  exact absurd hcount (by decide +kernel)

end Sys2Proof.Machine
end

section
/-!
PROOFS. Where glaze work goes on and ends (O30): the fill of a context that missed, the end of a job, and its two timeouts.
-/

namespace Sys2Proof.Machine

/-! ### A context that missed -/

section
variable {d : Dev} {e : Fin 256} {r : GlzRun} {g : GlzJob} (hrun : d.glzEng e = some r) (hdue : r.due = none) (hwork : r.work = .job g)
  (hroom : (d.glz.kc.filter fun kv => kv.2.cached).length < 16384)
include hrun hdue hwork hroom

/-- The fill of a sound slot puts a valid context into the cache, and the job runs on (R268). -/
theorem doKcMissFill_sound (hv : (d.kctx (jbKc (Dev.glzBlock g))).valid = true)
    (hp : d.poisoned (d.kcBase + 256 * jbKc (Dev.glzBlock g)) 256 = false) :
    doKcMissFill e d = (d.setKctx (jbKc (Dev.glzBlock g)) { d.kctx (jbKc (Dev.glzBlock g)) with cached := true }).setGlzEng e
      (some { r with due := some (d.cycle + r.cost) }) := by
  simp only [doKcMissFill, hrun, hdue, hwork, List.length_map, Nat.not_le.mpr hroom, hp, hv, Option.isSome_none, Bool.false_eq_true,
    if_false, if_true, Dev.setKctx_cycle]

/-- A slot in a poisoned line loses its context, and the job with it (R268, R453). -/
theorem doKcMissFill_lost (hp : d.poisoned (d.kcBase + 256 * jbKc (Dev.glzBlock g)) 256 = true) :
    doKcMissFill e d =
      (((d.consumed (d.kcBase + 256 * jbKc (Dev.glzBlock g))).kcLost (jbKc (Dev.glzBlock g))).setGlzEng e none).glzAnswer g []
        gzBadKey 0 0 [] := by
  simp only [doKcMissFill, hrun, hdue, hwork, List.length_map, Nat.not_le.mpr hroom, hp, Option.isSome_none, Bool.false_eq_true,
    if_false, if_true]

end

/-! ### The end of a job -/

section
variable {d : Dev} {e : Fin 256} {r : GlzRun} {g : GlzJob} (hrun : d.glzEng e = some r) (hwork : r.work = .job g)
include hrun hwork

/-- What a job in time answers with once it is over, from all that it has read: under POLICY FLAG only what it has not written yet
(R272, R277). -/
theorem doGlazeJobComplete_whole {due : Nat} {outs : List (Nat × List Byte)} {st : Nat} {iv : List Byte} (hdue : r.due = some due)
    (hover : due ≤ d.cycle) (hcopy : g.copy = none) (hsto : g.job.sto = none) (htime : d.cycle < g.job.handed + glzLimit)
    (hfed : d.fedAll g.job = true)
    (hres : Dev.glzResult r g ((d.fed g.job 0).take (jbLen g.job.block)) (d.fed g.job 1) (d.fed g.job 2) = (outs, st, iv)) :
    doGlazeJobComplete e () () () .whole d =
      (d.setGlzEng e none).glzAnswer g (if Dev.flagDec r g then outs.map fun o => (o.1 + r.wrote, o.2.drop r.wrote) else outs) st
        (b2n (st == gzAuthFail && Dev.flagDec r g) + 2 * b2n r.near) (r.counter.getD 0) iv := by
  have hblock : Dev.glzBlock g = g.job.block := by rw [Dev.glzBlock, hcopy]
  have hwait : ¬(d.cycle < due ∨ d.fedAll g.job = false) := by simp [hfed, hover]
  simp only [doGlazeJobComplete, hrun, hwork, hdue, hsto, hblock, hres, if_neg (Nat.not_le.mpr htime), if_neg hwait]

/-- A job that no engine ended in 100 ms (R262). -/
theorem doGlazeJobTimeout_due (h : g.job.handed + glzLimit ≤ d.cycle) : doGlazeJobTimeout e d = d.glzExpire e r g := by
  simp only [doGlazeJobTimeout, hrun, hwork, if_pos h]

end

/-- The one waiting job that no engine started in 18 ms (R262). -/
theorem doGlazeDispatchTimeout_due {d : Dev} {g : GlzJob} (hjobs : d.glz.jobs = [g]) (h : g.job.handed + Dev.dispatch18 ≤ d.cycle) :
    doGlazeDispatchTimeout d =
      (({ d with glz := { d.glz with jobs := [] } }).inc GLZ_CNT_JOB_TIMEOUT).glzAnswer g [] gzTimeout 0 0 [] := by
  have hfind : (d.glz.jobs.find? fun g => decide (g.job.handed + Dev.dispatch18 ≤ d.cycle)) = some g := by
    rw [hjobs]
    exact List.find?_cons_of_pos (decide_eq_true h)
  have hleft : (d.setGlz fun s => { s with jobs := s.jobs.filter (· != g) }) = { d with glz := { d.glz with jobs := [] } } := by
    simp [Dev.setGlz, hjobs]
  simp only [doGlazeDispatchTimeout, hfind, hleft]

/-- Settles O30: each row is its equation, and the end of a job is read by its policy. -/
theorem glazeEnds : Obligations.GlazeEnds := by
  refine ⟨fun s e r g c halive hrun hdue hwork hc hv hroom => ?_,
    fun s e r g due outs st iv halive hrun hwork hdue hover hcopy hsto htime hfed hres => ?_,
    fun s g halive hjobs h => does_intro halive rfl (doGlazeDispatchTimeout_due hjobs h),
    fun s e r g halive hrun hwork h => does_intro halive rfl (doGlazeJobTimeout_due hrun hwork h)⟩
  · subst hc
    exact ⟨fun hp => does_intro halive rfl (doKcMissFill_sound hrun hdue hwork hroom hv hp),
      fun hp => does_intro halive rfl (doKcMissFill_lost hrun hdue hwork hroom hp)⟩
  · have hend := doGlazeJobComplete_whole hrun hwork hdue hover hcopy hsto htime hfed hres
    refine ⟨fun hflag => does_intro halive rfl ?_, fun hflag => does_intro halive rfl ?_⟩
    · simpa [hflag, b2n] using hend
    · simpa [hflag] using hend

end Sys2Proof.Machine
end

section
/-!
PROOFS. The public-key units (O32): the dispatcher starts a job or answers one that a check refuses, and a started job ends with what it
computes, with the status of its unit, or with its time.
-/

namespace Sys2Proof.Machine

/-! ### The start of a job -/

/-- The row of each opcode of the public-key units is one operation, which reads a header from the host where its key is a blob. -/
theorem exec_pkStart {host h : List Byte} {op : Nat} {row : Instr}
    (hrow : op = 0x80 ∧ row = .pkKeygen ∧ h = [] ∨ op = 0x81 ∧ row = .pkImport ∧ h = [] ∨ op = 0x82 ∧ row = .pkSign host ∧ h = host ∨
      op = 0x83 ∧ row = .pkVerify ∧ h = [] ∨ op = 0x84 ∧ row = .pkAgree host ∧ h = host ∨ op = 0x85 ∧ row = .pkRsaPub ∧ h = [] ∨
      op = 0x86 ∧ row = .pkRsaPriv host ∧ h = host ∨ op = 0x87 ∧ row = .pkEncaps ∧ h = [] ∨
      op = 0x88 ∧ row = .pkDecaps host ∧ h = host) (s : State) :
    exec row s = s.effect fun d => d.pkStart op h := by
  rcases hrow with ⟨rfl, rfl, rfl⟩ | ⟨rfl, rfl, rfl⟩ | ⟨rfl, rfl, rfl⟩ | ⟨rfl, rfl, rfl⟩ | ⟨rfl, rfl, rfl⟩ | ⟨rfl, rfl, rfl⟩ |
    ⟨rfl, rfl, rfl⟩ | ⟨rfl, rfl, rfl⟩ | ⟨rfl, rfl, rfl⟩ <;> rfl

/-- Job `j` begins on unit `u` of the device `t`, which has it taken: its cost is charged and its inputs are opened (R297). -/
def pkBegun (t : Dev) (u : Nat) (j : Job) (hdr : List Byte) : Dev :=
  let b := j.block
  let hss := pkOp b == 0x83 && pkAlg b == 11
  ((t.debitCost .pke (Dev.issuerOf j) (pkCharge b hdr)).setPkeUnit u (some
    { job := j, kwk := if namesKwk b then t.kwkKey (Dev.issuerOf j) (pkKwk b) else none
      hdr := hdr, started := t.cycle, charged := pkCharge b hdr, fault := false })).openFeed j
    [(0, pkIn b, pkInBytes b), (1, pkKeyAddr b, pkKeyBytes b), (2, pkIn2 b, if hss then 4 else pkIn2Len b)]
    (if hss then some (pkIn2 b, 4) else none)

section
variable {d : Dev} {op : Nat} {host hdr : List Byte} {j : Job}

/-- What the dispatcher serves next begins on the lowest free unit. -/
theorem pkStart_begins {u : Nat} {t : Dev} (hchosen : pkChosen (d.pkHostHdr op host) op u j hdr t) :
    d.pkStart op host = pkBegun t u j hdr := by
  obtain ⟨hnone, hunit, hop, hrights, arb, d1, hnext, ht⟩ := hchosen
  simp only [Dev.pkStart, hnone, hunit, hnext, hop, ← ht, hrights, ne_eq, not_true_eq_false, Bool.and_false, Bool.false_eq_true,
    if_false, pkBegun]

/-- The oldest job of the opcode that a check refuses is answered, and no job starts (R296). -/
theorem pkStart_refuses (hfind : ((d.pkHostHdr op host).pkWaiting.find? fun x =>
      pkOp x.1.block == op && (d.pkHostHdr op host).pkCheck x.1 x.2 != pkOk) = some (j, hdr)) :
    d.pkStart op host = ((d.pkHostHdr op host).pkLeave j).pkRefuse j ((d.pkHostHdr op host).pkCheck j hdr) := by
  simp only [Dev.pkStart, hfind]

end

/-! ### The end of a job -/

/-- What a job answers that computed `x`: where its unit's check fails, UNIT_ERROR and no output (R300). -/
def pkFinal (bad : Bool) (x : PkRes) : PkRes :=
  if bad then { x with status := pkUnitError, failed := 0, out := [], out2 := [] } else x

theorem pkFinal_cycles (bad : Bool) (x : PkRes) : (pkFinal bad x).cycles = x.cycles := by cases bad <;> rfl

/-- Whether an answer carries a blob to be wrapped: a key generation's or an import's that succeeds (R306). -/
def pkWraps (b : List Byte) (y : PkRes) : Bool := (pkOp b == 0x80 || pkOp b == 0x81) && y.status == pkOk

/-- The device `e` with unit `u` free again, and its job's issuer charged for the cycles that it took beyond those charged at the start. -/
def pkFreed (e : Dev) (u : Nat) (r : PkeRun) (cycles : Nat) : Dev :=
  let who := Dev.issuerOf r.job
  let more : Int := (cycles : Int) - r.charged
  ((e.setPkeUnit u none).debitCost .pke who more).setPke fun p => { p with arb := p.arb.served (kidOf who) more }

/-- The device `f` with the answer `y` of job `j` delivered, its material wrapped under the context as it stands then (R306). -/
def pkDelivered (f : Dev) (u : Nat) (j : Job) (y : PkRes) : Dev :=
  let b := j.block
  match (if pkWraps b y then f.kwkKey (Dev.issuerOf j) (pkKwk b) else some []) with
  | none => f.pkAnswer u j { y with status := pkBadKey, out := [], out2 := [] } []
  | some k =>
    let (own, f) := match Dev.issuerOf j with
      | some s => (s, f)
      | none => if pkWraps b y then let (n, f) := f.free; (n % 2 ^ 11, f) else (0, f)
    f.pkAnswer u j y [(pkOut b, y.out), (pkOut2 b, if pkWraps b y then pkBlob k (pkAlg b) own y.out2 else y.out2)]

/-- A job in time, whose cycles are over, frees its unit and is answered with what it comes to (R298). -/
theorem doPkeJobComplete_over {d e : Dev} {u : Fin 16} {fault : Bool} {r : PkeRun} {x : PkRes} {extra : Nat}
    (hrun : d.pkeUnit u = some r) (htime : d.cycle < r.job.handed + pkeLimit) (hfed : d.fedAll r.job = true)
    (hres : d.pkOutcome r = (x, extra, e)) (hauth : x.status ≠ pkAuthFail) (hover : r.started + extra + x.cycles ≤ d.cycle) :
    doPkeJobComplete u () () () fault () d =
      pkDelivered (pkFreed e u r x.cycles) u r.job (pkFinal (fault || r.fault) x) := by
  have hpass : (x.status == pkAuthFail) = false := beq_false_of_ne hauth
  have hfinal : (if (fault || r.fault) = true then { x with status := pkUnitError, failed := 0, out := [], out2 := [] } else x) =
    pkFinal (fault || r.fault) x := rfl
  simp only [doPkeJobComplete, hrun, hfed, hres, hpass, hfinal, pkFinal_cycles, if_neg (Nat.not_le.mpr htime),
    if_neg (Nat.not_lt.mpr hover), Bool.not_true, Bool.false_eq_true, if_false, pkDelivered, pkFreed, pkWraps] <;> rfl

section
variable {f : Dev} {u : Nat} {j : Job} {y : PkRes}

/-- An answer that wraps nothing is written as it is. -/
theorem pkDelivered_plain (h : pkWraps j.block y = false) :
    pkDelivered f u j y = f.pkAnswer u j y [(pkOut j.block, y.out), (pkOut2 j.block, y.out2)] := by
  simp only [pkDelivered, h, Bool.false_eq_true, if_false]
  cases Dev.issuerOf j <;> rfl

/-- A saggar's material is wrapped under its context, and the blob carries the saggar's number. -/
theorem pkDelivered_wraps {sg : Nat} {k : List Byte} (h : pkWraps j.block y = true) (hwho : Dev.issuerOf j = some sg)
    (hkey : f.kwkKey (Dev.issuerOf j) (pkKwk j.block) = some k) :
    pkDelivered f u j y =
      f.pkAnswer u j y [(pkOut j.block, y.out), (pkOut2 j.block, pkBlob k (pkAlg j.block) sg y.out2)] := by
  rw [hwho] at hkey
  simp only [pkDelivered, h, hwho, hkey, if_true]

end

/-- The one waiting job that no unit started in 1.8 s (R297). -/
theorem doPkeDispatchTimeout_due {d : Dev} {j : Job} (hjobs : d.pke.jobs = [j]) (h : j.handed + Dev.dispatch1800 ≤ d.cycle) :
    doPkeDispatchTimeout d = (d.pkLeave j).pkRefuse j pkTimeout := by
  have hfind : (d.pke.jobs.find? fun j => decide (j.handed + Dev.dispatch1800 ≤ d.cycle)) = some j := by
    rw [hjobs]
    exact List.find?_cons_of_pos (decide_eq_true h)
  simp only [doPkeDispatchTimeout, hfind]

/-- A job that no unit ended in 2.0 s (R297). -/
theorem doPkeJobTimeout_due {d : Dev} {u : Fin 16} {r : PkeRun} (hrun : d.pkeUnit u = some r) (h : r.job.handed + pkeLimit ≤ d.cycle) :
    doPkeJobTimeout u d = d.pkExpire u r := by
  simp only [doPkeJobTimeout, hrun, if_pos h]

/-- A write of 1 to PKE_CTRL.ENABLE locks the block (R46, R295). -/
theorem doPkeEnable_on {d : Dev} {p : Path} {data : W32} (h : data.toNat % 2 = 1) :
    doPkeEnable p data d = ((d.writeFields p PKE_CTRL data).put PKE_CTRL_ENABLE 1).lock PKE_CTRL := by
  simp only [doPkeEnable, h, if_true]

/-- Settles O32: each start row is the dispatcher's start of its opcode, and a job that ends in time is answered with its final result,
whose blob is wrapped where the job makes one. -/
theorem publicKeyRows : Obligations.PublicKeyRows := by
  refine ⟨fun s host h op row halive hrow => ?_, fun s u fault r x extra e halive hrun htime hfed hres hauth hover => ?_,
    fun s j halive hjobs h => does_intro halive rfl (doPkeDispatchTimeout_due hjobs h),
    fun s u r halive hrun h => does_intro halive rfl ⟨_, doPkeJobTimeout_due hrun h⟩,
    fun s dv p data h hon => does_plain h (by decide) rfl (doPkeEnable_on hon)⟩
  · exact ⟨fun u j hdr t hchosen => does_intro halive (exec_pkStart hrow s) (pkStart_begins hchosen),
      fun j hdr hfind => does_intro halive (exec_pkStart hrow s) (pkStart_refuses hfind)⟩
  · have hend := doPkeJobComplete_over (fault := fault) hrun htime hfed hres hauth hover
    have hfinal (hsound : fault = false) (hkept : r.fault = false) : pkFinal (fault || r.fault) x = x := by
      rw [hsound, hkept]; rfl
    refine ⟨fun hsound hkept hgen himp => ?_, fun hbad => ?_, fun k sg hsound hkept hok hmakes hwho hkey => ?_⟩
    · rw [hfinal hsound hkept] at hend
      exact does_intro halive rfl (hend.trans (pkDelivered_plain (by simp [pkWraps, hgen, himp])))
    · have hfault : (fault || r.fault) = true := by rwa [Bool.or_eq_true]
      rw [hfault] at hend
      exact does_intro halive rfl (hend.trans (pkDelivered_plain (Bool.and_false _)))
    · rw [hfinal hsound hkept] at hend
      have hwraps : pkWraps r.job.block x = true := by simpa [pkWraps, hok] using hmakes
      exact does_intro halive rfl (hend.trans (pkDelivered_wraps hwraps hwho hkey))

end Sys2Proof.Machine
end

section
/-!
PROOFS. The whole machine (O56, O57): every command is an effect under power or one of the AON domain, and what the rows of the AON
domain do while the main supply is off.
-/

namespace Sys2Proof.Machine

/-! ### The answer of every command -/

/-- A command outside the AON domain needs power, and keeps the queue. -/
theorem exec_powered {c : Instr} (h : aonRow c = false) (s : State) :
    ∃ d, exec c s = .next (if s.dev.alive then { s with dev := d } else s) := by
  cases c
  case standbyPowerOn | mainPowerGood | mainUndervoltage | mainOvervoltage | vstbyLoss | i3cStatus | i3cWarmReset | i3cCones |
    coneTempReading | analogThermalTrip | thermtripRelease | coneWearMeasure | oscFail => cases h
  all_goals exact ⟨_, rfl⟩

/-- A command of the AON domain answers its effect. -/
theorem exec_effectAon {c : Instr} (h : aonRow c = true) : ∃ f, ∀ s, exec c s = s.effectAon f := by
  cases c
  case standbyPowerOn | mainPowerGood | mainUndervoltage | mainOvervoltage | vstbyLoss | i3cStatus | i3cWarmReset | i3cCones |
    coneTempReading | analogThermalTrip | thermtripRelease | coneWearMeasure | oscFail => exact ⟨_, fun s => rfl⟩
  all_goals cases h

/-- Every command answers a next state and keeps the queue. -/
theorem exec_next (c : Instr) (s : State) : ∃ t, exec c s = .next t ∧ t.pending = s.pending := by
  cases h : aonRow c with
  | false =>
    obtain ⟨d, hd⟩ := exec_powered h s
    exact ⟨_, hd, by split <;> rfl⟩
  | true =>
    obtain ⟨f, hf⟩ := exec_effectAon h
    exact ⟨_, hf s, rfl⟩

/-- Without its supplies, or with its oscillator failed, the part stands still but for the AON domain (R421, R489). -/
theorem exec_dead {c : Instr} {s : State} (h : s.dev.alive = false) (hc : aonRow c = false) : exec c s = .next s := by
  obtain ⟨d, hd⟩ := exec_powered hc s
  rw [hd, h]
  rfl

/-- A step answers a next state and takes the front command off the queue. -/
theorem step_next (s : State) : ∃ t, step s = .next t ∧ t.pending = s.pending.tail := by
  obtain ⟨q, d⟩ := s
  cases q with
  | nil => exact ⟨_, rfl, (effect_cases rfl).1⟩
  | cons c rest => exact exec_next c ⟨rest, d⟩

/-- Settles O56: every command is an effect on the device, under power or in the AON domain. That a command whose condition does not
hold still answers a next state is the model's choice (notes/assumptions/2). -/
theorem queueAndSupplies : Obligations.QueueAndSupplies := by
  refine ⟨exec_next, fun s hs => ?_, rfl, fun c s => exec_dead⟩
  obtain ⟨t, ht, hq⟩ := step_next s
  refine ⟨t, ht, hq, ?_⟩
  rw [hq, List.all_eq_true]
  exact fun c hc => List.all_eq_true.mp hs c (List.mem_of_mem_tail hc)

/-! ### The part without its main supply -/

/-- The device `e` is without its main supply, as `d` was: its HBM lists no byte, no flash operation runs, and the fuses, the flash and
the profile's straps are those of `d` (R427, R443). -/
def OffAs (d e : Dev) : Prop :=
  e.boot.powered = false ∧ e.mem.hbm = [] ∧ e.boot.flashOp = none ∧ e.boot.fuses = d.boot.fuses ∧ e.boot.flash = d.boot.flash ∧
    e.boot.profileSel = d.boot.profileSel

section
variable {d e x : Dev}

/-- Only the boot state and the memory are asked about. -/
theorem OffAs.congr (h : OffAs d e) (hb : x.boot = e.boot) (hm : x.mem = e.mem) : OffAs d x := by
  unfold OffAs
  rw [hb, hm]
  exact h

theorem OffAs.ite {c : Prop} [Decidable c] (hx : OffAs d x) (he : OffAs d e) : OffAs d (if c then x else e) := by
  split
  · exact hx
  · exact he

theorem OffAs.put (h : OffAs d e) (f : Fld) (v : Nat) : OffAs d (e.put f v) := h

/-- A fold of register writes leaves the part off. -/
theorem OffAs.foldl_put {α : Type} (h : OffAs d e) (f : α → Fld) (v : α → Nat) (l : List α) :
    OffAs d (l.foldl (fun y i => y.put (f i) (v i)) e) :=
  h.congr (Dev.foldl_keeps Dev.boot _ (fun y _ => Dev.put_boot y _ _) l e) (Dev.foldl_keeps Dev.mem _ (fun y _ => Dev.put_mem y _ _) l e)

end

namespace Dev

/-- What every field write of a fold keeps, the read view of the fuses keeps. -/
theorem syncFuses_keeps {γ : Type} (g : Dev → γ) (hg : ∀ d f v, g (Dev.put d f v) = g d) (d : Dev) : g d.syncFuses = g d := by
  unfold syncFuses
  dsimp only
  rw [hg, hg, foldl_keeps g _ (fun d p => ?_), foldl_keeps g _ (fun d k => foldl_keeps g _ (fun d w => hg d _ _) _ d), hg, hg, hg, hg]
  split
  · exact hg d _ _
  · rfl

/-- With no operation running, a reset has none to cut. -/
theorem cutFlash_idle {d : Dev} (h : d.boot.flashOp = none) : d.cutFlash = d := by
  simp only [cutFlash, h]

end Dev

theorem OffAs.syncFuses {d e : Dev} (h : OffAs d e) : OffAs d e.syncFuses :=
  h.congr (Dev.syncFuses_keeps Dev.boot Dev.put_boot e) (Dev.syncFuses_keeps Dev.mem Dev.put_mem e)

section
variable {d : Dev} (h : OffAs d d)
include h

/-- A package reset of a part that is off leaves it off, with the HBM's contents lost (R427, R429). -/
theorem resetBase_offAs (keep : Nat → Bool) : OffAs d (d.resetBase keep) := by
  obtain ⟨hp, -, hf, -⟩ := h
  unfold Dev.resetBase
  rw [Dev.cutFlash_idle hf]
  dsimp only
  split
  · exact OffAs.syncFuses ⟨hp, rfl, rfl, rfl, rfl, rfl⟩
  · exact OffAs.syncFuses ⟨hp, rfl, rfl, rfl, rfl, rfl⟩

theorem warmReset_offAs (cause : Nat) : OffAs d (d.warmReset cause) := by
  have hprior (x : Dev) (hx : OffAs d x) : OffAs d (if cause = causeFatal then x.put RAS_STATUS_FATAL_PRIOR 1 else x) :=
    OffAs.ite (hx.put _ _) hx
  unfold Dev.warmReset
  dsimp only
  split
  · exact hprior _ (OffAs.ite (h.put _ _) h)
  · refine hprior _ (OffAs.put (OffAs.put (OffAs.foldl_put ?_ _ _ _) _ _) _ _)
    exact resetBase_offAs h warmKeeps

theorem porReset_offAs (standby : Bool) : OffAs d (d.porReset standby) := by
  have hcut (x : Dev) (p : PkgState) (hx : OffAs d x) : OffAs d { x with boot := { x.boot with powered := false }, pkg := p } :=
    ⟨rfl, hx.2⟩
  unfold Dev.porReset
  exact OffAs.put (hcut _ _ (resetBase_offAs h _)) _ _

theorem doOscFail_offAs : OffAs d (doOscFail d) := by
  have hcleared (x : Dev) (p : PkgState) (r : RegState) (hx : OffAs d x) : OffAs d { x with reg := r, pkg := p } := hx
  have hevent (x : Dev) (f : Fld) (hx : OffAs d x) : OffAs d (x.setEvent f) := hx
  unfold doOscFail
  dsimp only
  split
  · exact h
  · exact hevent _ _ (OffAs.put (OffAs.foldl_put (hcleared _ _ _ (resetBase_offAs h warmKeeps)) _ _ _) _ _)

/-- A part that is off has no main supply to lose. -/
theorem mainLost_off : d.mainLost = d := if_pos (by simp [h.1])

theorem alive_off : d.alive = false := by simp [Dev.alive, h.1]

theorem doVstbyLoss_offAs : OffAs d (doVstbyLoss d) :=
  OffAs.ite h (OffAs.ite (porReset_offAs h false) (porReset_offAs h false))

theorem doConeTempReading_off (temps : List (BitVec 16)) (odd : List Bool) : doConeTempReading temps odd d = d :=
  if_pos (by simp [h.1])

theorem doConeWearMeasure_off (shifts : List (Option Nat)) : doConeWearMeasure shifts d = d := if_pos (by simp [h.1])

theorem doAnalogThermalTrip_off (die : Fin 3) : doAnalogThermalTrip die d = d := if_neg (by simp [alive_off h])

theorem doThermtripRelease_off : doThermtripRelease d = d := if_neg (by simp [alive_off h])

end

/-- Every row of the AON domain but the rise of the main supply leaves a part off that is off (R427, R489). -/
theorem exec_aon_offAs {c : Instr} {s : State} (hs : OffAs s.dev s.dev) (ha : aonRow c = true) (hr : powerRises c = false) :
    ∃ e, exec c s = .next { s with dev := e } ∧ OffAs s.dev e := by
  have keep_off {x : Dev} (hx : x = s.dev) : OffAs s.dev x := by rwa [hx]
  cases c
  case standbyPowerOn => exact ⟨_, rfl, OffAs.ite hs (porReset_offAs hs true)⟩
  case mainPowerGood => cases hr
  case mainUndervoltage => exact ⟨_, rfl, keep_off (mainLost_off hs)⟩
  case mainOvervoltage => exact ⟨_, rfl, keep_off (mainLost_off hs)⟩
  case vstbyLoss => exact ⟨_, rfl, doVstbyLoss_offAs hs⟩
  case i3cStatus => exact ⟨_, rfl, OffAs.ite hs hs⟩
  case i3cWarmReset key => exact ⟨_, rfl, OffAs.ite (warmReset_offAs hs causeI3c) hs⟩
  case i3cCones => exact ⟨_, rfl, OffAs.ite hs hs⟩
  case coneTempReading temps odd => exact ⟨_, rfl, keep_off (doConeTempReading_off hs temps odd)⟩
  case analogThermalTrip die => exact ⟨_, rfl, keep_off (doAnalogThermalTrip_off hs die)⟩
  case thermtripRelease => exact ⟨_, rfl, keep_off (doThermtripRelease_off hs)⟩
  case coneWearMeasure shifts => exact ⟨_, rfl, keep_off (doConeWearMeasure_off hs shifts)⟩
  case oscFail => exact ⟨_, rfl, doOscFail_offAs hs⟩
  all_goals cases ha

/-- Every command but the rise of the main supply leaves a part off that is off. -/
theorem exec_offAs {c : Instr} {s : State} (hs : OffAs s.dev s.dev) (hr : powerRises c = false) :
    ∃ e, exec c s = .next { s with dev := e } ∧ OffAs s.dev e := by
  cases ha : aonRow c with
  | false => exact ⟨s.dev, exec_dead (alive_off hs) ha, hs⟩
  | true => exact exec_aon_offAs hs ha hr

/-- Every step leaves a part off that is off, while no rise of the main supply waits. -/
theorem step_offAs {s : State} (hs : OffAs s.dev s.dev) (hq : ∀ c ∈ s.pending, powerRises c = false) :
    ∃ e, step s = .next ⟨s.pending.tail, e⟩ ∧ OffAs s.dev e := by
  obtain ⟨q, d⟩ := s
  cases q with
  | nil => exact ⟨d, effect_dead (s := ⟨[], d⟩) (alive_off hs) _, hs⟩
  | cons c rest => exact exec_offAs (s := ⟨rest, d⟩) hs (hq c List.mem_cons_self)

/-- Settles O57: no row of the AON domain but the rise of the main supply ends the state, and no other row acts in it. -/
theorem mainOffStands : Obligations.MainOffStands := by
  intro s t hoff hstep
  obtain ⟨hp, hm, hf, hq⟩ := hoff
  obtain ⟨e, he, hp', hm', hf', hfuses, hflash, hsel⟩ := step_offAs (s := s) ⟨hp, hm, hf, rfl, rfl, rfl⟩ hq
  cases he.symm.trans hstep
  exact ⟨⟨hp', hm', hf', fun c hc => hq c (List.mem_of_mem_tail hc)⟩, hfuses, hflash, hsel⟩

end Sys2Proof.Machine
end

section
/-!
PROOFS. The host links (O33, O34): the passing of a cycle of the HIF domain, a freeze in its order, and an equation for each row of a
link.
-/

namespace Sys2Proof.Machine
namespace Dev

/-! ### The links -/

theorem link_modLink_self (d : Dev) (l : Nat) (g : Link → Link) : (d.modLink l g).link l = g (d.link l) :=
  tabGet_set_self _ _ _ _

theorem link_modLink_ne (d : Dev) {l k : Nat} (g : Link → Link) (h : k ≠ l) : (d.modLink l g).link k = d.link k :=
  tabGet_set_ne _ _ _ h

@[simp] theorem link_put (d : Dev) (f : Fld) (v l : Nat) : (d.put f v).link l = d.link l := rfl
@[simp] theorem link_setEvent (d : Dev) (f : Fld) (l : Nat) : (d.setEvent f).link l = d.link l := rfl
@[simp] theorem link_inc (d : Dev) (c : Ctr) (l : Nat) : (d.inc c).link l = d.link l := rfl
@[simp] theorem link_bump (d : Dev) (c : Ctr) (n l : Nat) : (d.bump c n).link l = d.link l := rfl
@[simp] theorem link_mark (d : Dev) (m : Mark) (l : Nat) : (d.mark m).link l = d.link l := rfl

theorem linkExists_congr {x d : Dev} {l : Nat} (h : x.get (HIF_CTRL_BIFURC (l / 4)) = d.get (HIF_CTRL_BIFURC (l / 4))) :
    x.linkExists l = d.linkExists l := by
  simp only [linkExists, bifurc, h]

/-! ### A cycle passes -/

/-- What a cycle of the clock leaves alone for the host links: how BIFURC stands, the marks and the cycle's number. -/
def linkClock (n : Nat) (d : Dev) : Nat × List Mark × Nat := (d.get (HIF_CTRL_BIFURC n), d.marks, d.cycle)

/-- The registers of the gates lie away from HIF_CTRL. -/
theorem gateFld_addr_ne (g n off lo width : Nat) (h : off % 0x80 ≠ 0) : (HIF_CTRL_BIFURC n).addr ≠ (gateFld g off lo width).addr := by
  simp only [HIF_CTRL_BIFURC, HIF_CTRL, gateFld, gateCtrl, GATE_CTRL, SGATE_CTRL]
  split <;> omega

theorem syncGate_linkClock (d : Dev) (g n : Nat) : linkClock n (d.syncGate g) = linkClock n d := by
  have hget : (d.syncGate g).get (HIF_CTRL_BIFURC n) = d.get (HIF_CTRL_BIFURC n) :=
    (get_put_addr _ _ _ _ (gateFld_addr_ne g n 0x34 0 8 (by decide))).trans
      (get_put_addr _ _ _ _ (gateFld_addr_ne g n 0x30 0 10 (by decide)))
  rw [linkClock, hget]
  rfl

theorem syncLate_linkClock (d : Dev) (n : Nat) : linkClock n d.syncLate = linkClock n d := by
  refine foldl_keeps (linkClock n) _ (fun d kv => ?_) _ d
  split
  · split
    · exact syncGate_linkClock d _ n
    · rfl
  · rfl

theorem portServe_linkClock (d : Dev) (c n : Nat) : linkClock n (d.portServe c) = linkClock n d := by
  unfold portServe
  split
  · rfl
  · split
    · rfl
    · dsimp only
      split <;> rfl

theorem portTick_linkClock (d : Dev) (n : Nat) : linkClock n d.portTick = linkClock n d := by
  refine (foldl_keeps (linkClock n) _ (fun d c => portServe_linkClock d c n) _ _).trans ?_
  exact foldl_keeps (linkClock n) _ (fun d kv => by split <;> rfl) _ d

theorem linkClock_eq {n : Nat} {x d : Dev} (h : linkClock n x = linkClock n d) :
    x.get (HIF_CTRL_BIFURC n) = d.get (HIF_CTRL_BIFURC n) ∧ x.marks = d.marks ∧ x.cycle = d.cycle := by
  simpa only [linkClock, Prod.mk.injEq] using h

theorem put_holdElapsed_linkClock (d : Dev) (v n : Nat) : linkClock n (d.put TIME_HOLD_ELAPSED_S v) = linkClock n d := by
  have hne : (HIF_CTRL_BIFURC n).addr ≠ TIME_HOLD_ELAPSED_S.addr := by
    simp only [HIF_CTRL_BIFURC, HIF_CTRL, TIME_HOLD_ELAPSED_S, TIME_HOLD_ELAPSED]
    omega
  rw [linkClock, get_put_addr _ _ _ _ hne]
  rfl

/-- A tick keeps BIFURC, clears the notes of the cycle that ends, and counts (R48). -/
theorem tick_linkClock (d : Dev) (n : Nat) :
    linkClock n d.tick = (d.get (HIF_CTRL_BIFURC n), d.marks.filter (staysMarked (d.cycle + 1)), d.cycle + 1) := by
  obtain ⟨hb, hm, hc⟩ := linkClock_eq (portTick_linkClock d n)
  unfold tick
  extract_lets p _ counted gain left _ timed held
  have hheld : linkClock n held = linkClock n timed := by
    refine (apply_ite (linkClock n) _ _ _).trans ?_
    rw [put_holdElapsed_linkClock, ite_self]
  have hleft : linkClock n left = linkClock n counted := by
    refine (apply_ite (linkClock n) _ _ _).trans ?_
    exact ite_self _
  have htimed : linkClock n timed = linkClock n counted := by
    refine (apply_ite (linkClock n) _ _ _).trans ((if_congr Iff.rfl hleft rfl).trans (ite_self _))
  rw [syncLate_linkClock, hheld, htimed, ← hb, ← hm, ← hc]
  rfl

/-- After some cycles BIFURC stands, and only notes that the last cycle keeps are left. -/
theorem ticks_linkClock (d : Dev) (k n : Nat) :
    ((List.range k).foldl (fun d _ => d.tick) d).get (HIF_CTRL_BIFURC n) = d.get (HIF_CTRL_BIFURC n) ∧
      ((List.range k).foldl (fun d _ => d.tick) d).cycle = d.cycle + k ∧
      ∀ m ∈ ((List.range k).foldl (fun d _ => d.tick) d).marks, m ∈ d.marks ∧ (k = 0 ∨ staysMarked (d.cycle + k) m = true) := by
  induction k with
  | zero => exact ⟨rfl, rfl, fun m hm => ⟨hm, .inl rfl⟩⟩
  | succ k ih =>
    obtain ⟨hb, hc, hm⟩ := ih
    have ht := tick_linkClock ((List.range k).foldl (fun d _ => d.tick) d) n
    simp only [linkClock, Prod.mk.injEq] at ht
    obtain ⟨htb, htm, htc⟩ := ht
    rw [List.range_succ, List.foldl_append, List.foldl_cons, List.foldl_nil]
    refine ⟨htb.trans hb, by rw [htc, hc]; rfl, fun m hmem => ?_⟩
    rw [htm, List.mem_filter, hc] at hmem
    exact ⟨(hm m hmem.1).1, .inr hmem.2⟩

theorem nextHif_linkExists (d : Dev) (l : Nat) : d.nextHif.linkExists l = d.linkExists l :=
  linkExists_congr (ticks_linkClock d _ _).1

/-- No note of the HIF cycle that ends is left in the next. -/
theorem nextHif_marks_nil {d : Dev} (h : ∀ m ∈ d.marks, ∃ l, m = .busStop l (hifOf d.cycle) ∨ m = .relAsked l (hifOf d.cycle)) :
    d.nextHif.marks = [] := by
  have hover : hifOf (d.cycle + (3 - d.cycle % 3)) ≠ hifOf d.cycle := by
    simp only [hifOf]
    omega
  refine List.eq_nil_iff_forall_not_mem.mpr fun m hm => ?_
  obtain ⟨hin, hstays⟩ := (ticks_linkClock d _ 0).2.2 m hm
  obtain ⟨l, rfl | rfl⟩ := h m hin <;>
  · rcases hstays with h0 | hst
    · omega
    · simp only [staysMarked, beq_iff_eq] at hst
      exact hover hst.symm

/-! ### A freeze (R326, R328, R330) -/

/-- Whether an event of this HIF cycle stands before a freeze of link `l`: its release, or an engine stop on a read of it (R330). -/
def freezeIsLate (d : Dev) (l : Nat) : Bool :=
  d.marks.any fun m => match m with | .busStop k _ => k == l | .relAsked k _ => k == l | _ => false

/-- The time of a freeze event. -/
def freezeStamp (d : Dev) (l : Nat) : Dev := d.modLink l fun x => { x with frozeAt := some d.cycle, l0Since := d.cycle }

/-- The tags of the reads that a freeze abandons wait for late completions (R328). -/
def freezeTags (d : Dev) (l : Nat) : Dev :=
  let tags := (d.allReads.filter fun r => hostRead r && d.chLink r.chan == l).map fun r => (r.tag, d.cycle + ms50)
  d.modLink l fun x => { x with oldTags := (x.oldTags.filter fun t => decide (d.cycle < t.2)) ++ tags }

/-- A freeze event of the present HIF cycle. -/
def freezeNow (d : Dev) (l cause : Nat) : Dev :=
  let e := d.freezeStamp l
  if e.frozen l then e else (e.freezeTags l).enterFreeze l cause ((e.link l).unacked ++ writesOf (e.link l).outq)

/-- A freeze event takes its cycle and acts in it. -/
theorem freezeLink_eq {d : Dev} {l : Nat} (cause : Nat) (h : d.linkExists l = true) :
    d.freezeLink l cause = (if d.freezeIsLate l then d.nextHif else d).freezeNow l cause := by
  rw [freezeLink, h]
  rfl

theorem freezeLink_now {d : Dev} {l : Nat} (cause : Nat) (h : d.linkExists l = true) (hm : d.marks = []) :
    d.freezeLink l cause = d.freezeNow l cause := by
  rw [freezeLink_eq cause h, freezeIsLate, hm]
  rfl

/-- A freeze that comes after the release of its link, or after an engine stop on it, is of the next HIF cycle. -/
theorem freezeLink_late {d : Dev} {l : Nat} (cause : Nat) (h : d.linkExists l = true)
    (hm : d.marks = [.relAsked l (hifOf d.cycle)] ∨ d.marks = [.busStop l (hifOf d.cycle)]) :
    d.freezeLink l cause = d.nextHif.freezeLink l cause := by
  have hlate : d.freezeIsLate l = true := by
    rcases hm with hm | hm <;> simp [freezeIsLate, hm]
  have hnil : d.nextHif.marks = [] := nextHif_marks_nil fun m hin => ⟨l, by
    rcases hm with hm | hm <;> simp_all⟩
  rw [freezeLink_eq cause h, if_pos hlate, freezeLink_now cause ((nextHif_linkExists d l).trans h) hnil]

section
variable {d : Dev} {l : Nat} (cause : Nat)

/-- A link that is frozen already takes the new time alone. -/
theorem freezeNow_frozen (h : d.frozen l = true) : d.freezeNow l cause = d.freezeStamp l := if_pos h

theorem freezeNow_open (h : d.frozen l = false) :
    d.freezeNow l cause = ((d.freezeStamp l).freezeTags l).enterFreeze l cause ((d.link l).unacked ++ writesOf (d.link l).outq) := by
  have hopen : (d.freezeStamp l).frozen l = false := h
  have hlink : (d.freezeStamp l).link l = { d.link l with frozeAt := some d.cycle, l0Since := d.cycle } := link_modLink_self d l _
  simp only [freezeNow, hopen, Bool.false_eq_true, if_false, hlink]

/-- What a freeze leaves of its link: no outbound queue, and every write not yet acknowledged kept to be made again. -/
theorem enterFreeze_link (lost : List PWrite) :
    (d.enterFreeze l cause lost).link l =
      { d.link l with abandoned := (d.link l).abandoned ++ lost, unacked := [], outq := [], invals := [] } := by
  rw [enterFreeze, link_bump, link_inc, link_put, link_setEvent, link_put, link_modLink_self]

/-- A freeze reaches no memory, no frame and no other link. -/
theorem enterFreeze_frame (lost : List PWrite) :
    (d.enterFreeze l cause lost).mem = d.mem ∧ (d.enterFreeze l cause lost).frames = d.frames ∧
      ∀ k, k ≠ l → (d.enterFreeze l cause lost).link k = d.link k := by
  refine ⟨?_, ?_, fun k hk => ?_⟩
  · rw [enterFreeze, bump_mem, inc_mem, put_mem, setEvent_mem, put_mem, modLink_mem]
  · rw [enterFreeze, bump_frames, inc_frames, put_frames, setEvent_frames, put_frames, modLink_frames]
  · rw [enterFreeze, link_bump, link_inc, link_put, link_setEvent, link_put, link_modLink_ne _ _ hk]

/-- The bits of HIF_FREEZE after a freeze. -/
theorem enterFreeze_bits (lost : List PWrite) (hc : cause < 16) :
    (d.enterFreeze l cause lost).frozen l = true ∧ (d.enterFreeze l cause lost).get (HIF_FREEZE_CAUSE (l / 4) (l % 4)) = cause ∧
      (d.enterFreeze l cause lost).flag (HIF_FREEZE_FREEZE_EVENT (l / 4) (l % 4)) = true := by
  have hcause : 0 + 8 ≤ 32 := by decide
  have hevent : 28 + 1 ≤ 32 := by decide
  refine ⟨?_, ?_, ?_⟩
  · rw [frozen, flag, enterFreeze, get_bump, get_inc, get_put_bits _ _ _ _ hcause (.inl (by decide : 0 + 8 ≤ 31)), get_setEvent,
      get_put_bits _ _ _ _ hevent (.inl (by decide : 28 + 1 ≤ 31)), get_put_same _ _ _ (by decide : 31 + 1 ≤ 32)]
    rfl
  · rw [enterFreeze, get_bump, get_inc, get_put_same _ _ _ hcause]
    exact Nat.mod_eq_of_lt (Nat.lt_trans hc (by decide : 16 < 2 ^ 8))
  · rw [flag, enterFreeze, get_bump, get_inc, get_put_bits _ _ _ _ hcause (.inl (by decide : 0 + 8 ≤ 28)), get_setEvent, get_put_same _ _ _ hevent]
    rfl

/-- A freeze event reaches no memory, no frame and no other link. -/
theorem freezeNow_frame :
    (d.freezeNow l cause).mem = d.mem ∧ (d.freezeNow l cause).frames = d.frames ∧
      ∀ k, k ≠ l → (d.freezeNow l cause).link k = d.link k := by
  have hstamp (k : Nat) (hk : k ≠ l) : (d.freezeStamp l).link k = d.link k := link_modLink_ne d _ hk
  cases hf : d.frozen l with
  | true =>
    rw [freezeNow_frozen cause hf]
    exact ⟨rfl, rfl, hstamp⟩
  | false =>
    rw [freezeNow_open cause hf]
    obtain ⟨hm, hfr, hl⟩ := ((d.freezeStamp l).freezeTags l).enterFreeze_frame (l := l) cause
      ((d.link l).unacked ++ writesOf (d.link l).outq)
    exact ⟨hm, hfr, fun k hk => (hl k hk).trans ((link_modLink_ne _ _ hk).trans (hstamp k hk))⟩

end

/-- What a freeze of this cycle leaves of a link that was open (R326, R328). -/
theorem freezeNow_closes {d : Dev} {l cause : Nat} (hf : d.frozen l = false) (hc : cause < 16) :
    (d.freezeNow l cause).frozen l = true ∧ ((d.freezeNow l cause).link l).outq = [] ∧ ((d.freezeNow l cause).link l).unacked = [] ∧
      ((d.freezeNow l cause).link l).abandoned = (d.link l).abandoned ++ (d.link l).unacked ++ writesOf (d.link l).outq ∧
      (d.freezeNow l cause).get (HIF_FREEZE_CAUSE (l / 4) (l % 4)) = cause ∧
      (d.freezeNow l cause).flag (HIF_FREEZE_FREEZE_EVENT (l / 4) (l % 4)) = true := by
  rw [freezeNow_open cause hf]
  obtain ⟨hfrozen, hcause, hevent⟩ := ((d.freezeStamp l).freezeTags l).enterFreeze_bits (l := l) cause
    ((d.link l).unacked ++ writesOf (d.link l).outq) hc
  have hkept : (((d.freezeStamp l).freezeTags l).link l).abandoned = (d.link l).abandoned := by
    rw [freezeTags, link_modLink_self, freezeStamp, link_modLink_self]
  refine ⟨hfrozen, ?_, ?_, ?_, hcause, hevent⟩
  · rw [enterFreeze_link]
  · rw [enterFreeze_link]
  · rw [enterFreeze_link, hkept, List.append_assoc]

end Dev

/-! ### Resets, power and release (R46, R322 to R324, R326, R329) -/

section
variable {d : Dev}

/-- An FLR of a live function of a link that is up (R322). -/
theorem doHifFlr_live {l : Fin 8} {f : Fin 2048} (hu : d.linkUp l = true) (hf : d.funcLive l f = true) : doHifFlr l f d = d.flr l f :=
  if_pos (by simp [hu, hf])

/-- A change of the power state, or of Bus Master Enable, of a live function (R323). -/
theorem doPowerStateChange_live {l : Fin 8} {f : Fin 2048} {d3 bme : Bool} (hu : d.linkUp l = true) (hf : d.funcLive l f = true) :
    doPowerStateChange l f d3 bme d = d.powerChange l f d3 bme := if_pos (by simp [hu, hf])

/-- PERST of a controller with one link that is not in L2/L3 Ready: a fundamental reset (R324, R326). -/
theorem doPerstAssert_fundamental {n : Fin 2} {l : Nat} (hp : d.hif.perst.contains n.val = false) (hl : d.linksOf n = [l])
    (h23 : (d.link l).inL23 = false) :
    doPerstAssert n d =
      ((({ d with hif := { d.hif with perst := d.hif.perst ++ [n.val] } } : Dev).linkDown l).linkCfgReset l false).severLink l := by
  simp only [doPerstAssert, hp, hl, h23, List.all_cons, List.foldl_cons, List.foldl_nil, Bool.false_and, Bool.false_eq_true, if_false]

/-- The end of PERST of a controller that was not in D3cold (R324). -/
theorem doPerstDeassert_warm {n : Fin 2} (hp : d.hif.perst = [n.val]) (hc : d.hif.d3cold = []) (hw : d.hif.wake = []) :
    doPerstDeassert n d = { d with hif := { d.hif with perst := [] } } := by
  simp [doPerstDeassert, hp, hc, hw]

/-- A hot reset of a link that is up (R326). -/
theorem doHotReset_up {l : Fin 8} (hu : d.linkUp l = true) : doHotReset l d = ((d.linkDown l).linkCfgReset l true).sever (.hif l) :=
  if_pos hu

/-- FREEZE_REL of a frozen link that is up, after the cycle of its freeze (R329, R330). -/
theorem doFreezeRel_releases {p : Path} {l : Fin 8} {data : W32} {e : Dev} (hl : d.linkExists l = true)
    (he : d.writeFields p (HIF_FREEZE (l.val / 4) (l.val % 4)) data = e) (hrel : fieldGet data 30 1 = 1) (hf : e.frozen l = true)
    (hu : e.linkUp l = true) (hnew : ((e.link l).frozeAt.map Dev.hifOf) ≠ some (Dev.hifOf e.cycle)) :
    doFreezeRel p l data d = (e.mark (.relAsked l (Dev.hifOf e.cycle))).release l := by
  have hf' : (e.mark (.relAsked l (Dev.hifOf e.cycle))).frozen l = true := hf
  have hu' : (e.mark (.relAsked l (Dev.hifOf e.cycle))).linkUp l = true := hu
  have hnew' : (((e.mark (.relAsked l (Dev.hifOf e.cycle))).link l).frozeAt.map Dev.hifOf ==
      some (Dev.hifOf (e.mark (.relAsked l (Dev.hifOf e.cycle))).cycle)) = false := beq_false_of_ne hnew
  simp only [doFreezeRel, hl, he, hrel, hf', hu', hnew', Nat.one_ne_zero, Bool.true_eq_false, Bool.not_true, Bool.or_self, or_self,
    Bool.false_eq_true, if_false]

/-- The firmware's release 100 ms after the link came to L0 (R329). -/
theorem doFirmwareFreezeRelease_due {l : Fin 8} (hw : bitOf (d.get (HIF_CTRL_FW_REL (l.val / 4))) (l.val % 4) = true)
    (hf : d.frozen l = true) (hu : d.linkUp l = true) (hpm : d.get (HIF_LINK_STATUS_PM_STATE (l.val / 4) (l.val % 4)) = 0)
    (ht : (d.link l).l0Since + 300000000 ≤ d.cycle) : doFirmwareFreezeRelease l d = d.release l :=
  if_pos (by simp [hw, hf, hu, hpm, ms100, ht])

/-- HIF_ENABLE of controller 1 locks it and the clock plan (R46). -/
theorem doHifEnable_hif1 {p : Path} {data : W32} (hon : fieldGet data 0 1 = 1) :
    doHifEnable p 1 data d = (((d.writeFields p (HIF_CTRL 1) data).put (HIF_CTRL_ENABLE 1) 1).lock (HIF_CTRL 1)).lock 0x1FFFC := by
  simp only [doHifEnable, hon, if_true]
  rfl

end

/-- The registers of a host link lie outside the windows of the ports. -/
theorem hifFreeze_outside (n m : Nat) : HIF_FREEZE n m < 0x100000 ∨ 0x200000 ≤ HIF_FREEZE n m := by
  simp only [HIF_FREEZE]
  omega

/-- Settles O34: a freeze is of the present HIF cycle or of the next, what it leaves is read off `enterFreeze`, and each row of a reset or
a release is its equation. Which of two events of one HIF cycle comes first is the order of the commands, the model's choice
(notes/assumptions/6). -/
theorem linkFreezeAndResets : Obligations.LinkFreezeAndResets := by
  refine ⟨fun d l cause hl hc hm => ?_, fun d l cause hl hm => Dev.freezeLink_late cause hl hm,
    fun s l f halive hu hf => does_intro halive rfl (doHifFlr_live hu hf),
    fun s l f d3 bme halive hu hf => does_intro halive rfl (doPowerStateChange_live hu hf),
    fun s n l halive hp hl h23 => does_intro halive rfl (doPerstAssert_fundamental hp hl h23),
    fun s n halive hp hc hw => does_intro halive rfl (doPerstDeassert_warm hp hc hw),
    fun s l halive hu => does_intro halive rfl (doHotReset_up hu),
    fun s dv p l data e h _ hl he hrel hf hu hnew =>
      does_plain h (hifFreeze_outside _ _) rfl (doFreezeRel_releases hl he hrel hf hu hnew),
    fun s l halive hw hf hu hpm ht => does_intro halive rfl (doFirmwareFreezeRelease_due hw hf hu hpm ht),
    fun s dv p data h hon => does_plain h (by decide) rfl (doHifEnable_hif1 hon)⟩
  rw [Dev.freezeLink_now cause hl hm]
  obtain ⟨hmem, hframes, hlinks⟩ := d.freezeNow_frame (l := l) cause
  refine ⟨fun hf => Dev.freezeNow_closes hf hc, fun hf => ?_, hmem, hframes, hlinks⟩
  rw [Dev.freezeNow_frozen cause hf, Dev.freezeStamp, Dev.link_modLink_self]
  exact ⟨rfl, rfl⟩

/-! ### Training and errors (R308, R309, R321, R325, R326) -/

section
variable {d : Dev} {l : Fin 8}

/-- Training within the controller's limits (R308, R309); every bifurcation gives a link four lanes at least. -/
theorem doHifDlActive_trains {speed width : Nat} {flit : Bool} (hl : d.linkExists l = true) (hp : d.hif.perst.contains (l.val / 4) = false)
    (hs : d.severed (.hif l) = false) (hu : d.linkUp l = false) (h0 : 0 < speed) (hmax : speed ≤ d.get (HIF_CTRL_MAX_GEN (l.val / 4)))
    (hw : width ∈ [1, 2, 4]) (hflit : speed = 6 → flit = true) :
    doHifDlActive l speed width flit d =
      let n := l.val / 4
      let m := l.val % 4
      (((((((d.put (HIF_LINK_STATUS_LINK_UP n m) 1).put (HIF_LINK_STATUS_SPEED n m) speed).put (HIF_LINK_STATUS_WIDTH n m) width).put
        (HIF_LINK_STATUS_FLIT n m) (b2n flit)).put (HIF_LINK_STATUS_PM_STATE n m) 0).modLink l fun x => { x with
          wasActive := true, l0Since := d.cycle, lastTlp := d.cycle, active := width }).pumpLink l).ltrUpdate l := by
  have hwidths : [1, 2, 4, 8, 16].contains width = true ∧ width ≤ 4 := by
    simp only [List.mem_cons, List.not_mem_nil, or_false] at hw
    rcases hw with rfl | rfl | rfl <;> decide
  have hlanes : ¬ (match d.bifurc (l.val / 4) with | 0 => 16 | 1 => 8 | _ => 4) < width := by
    split <;> omega
  have hgen6 : (speed == 6 && !flit) = false := by
    by_cases h6 : speed = 6 <;> simp_all
  have hcond : (!d.linkExists l || d.hif.perst.contains (l.val / 4) || d.severed (.hif l) || d.linkUp l || decide (speed = 0) ||
      decide (d.get (HIF_CTRL_MAX_GEN (l.val / 4)) < speed) || !([1, 2, 4, 8, 16].contains width) ||
      decide ((match d.bifurc (l.val / 4) with | 0 => 16 | 1 => 8 | _ => 4) < width) || (speed == 6 && !flit)) = false := by
    rw [hl, hp, hs, hu, hwidths.1, hgen6, decide_eq_false (Nat.ne_of_gt h0), decide_eq_false (Nat.not_lt.mpr hmax),
      decide_eq_false hlanes]
    rfl
  refine (if_neg (Bool.eq_false_iff.mp hcond)).trans ?_
  rw [Dev.put_cycle, Dev.put_cycle, Dev.put_cycle, Dev.put_cycle, Dev.put_cycle]

/-- A link that goes down freezes if it has been active (R326). -/
theorem doHifDlDown_up (hu : d.linkUp l = true) :
    doHifDlDown l d = if (d.link l).wasActive = true then (d.linkOff l).freezeLink l 1 else d.linkOff l := by
  simp only [doHifDlDown, Dev.linkDown, hu, Bool.and_true, if_true]

/-- An error of a link's protocol is logged at function 0 and freezes the link with its cause (R321, R326). -/
theorem doLinkProtocolError_up (k : LinkError) (hu : d.linkUp l = true) :
    doLinkProtocolError l k d = (d.aerError l 0 (linkErrBit k) false).freezeLink l (linkErrCause k) := if_pos hu

/-- An internal error of a controller with one link freezes it and is recorded (R321, R330). -/
theorem doControllerInternalError_one {n : Fin 2} {l : Nat} (hl : d.linksOf n = [l]) :
    doControllerInternalError n d = (((d.modFunc l 0 fun x => { x with aerUncorr := x.aerUncorr ||| 2 ^ 22 }).inc
      (HIF_CNT_UNCORR_ERR (l / 4) (l % 4))).freezeLink l 7).rasError (.of 0x16 (8 + n) .uc 0) := by
  simp only [doControllerInternalError, hl, List.foldl_cons, List.foldl_nil]

/-- An idle link enters the L1 state that the host enables (R325). -/
theorem doAspmL1Entry_idle {st : Fin 3} (hu : d.linkUp l = true) (h23 : (d.link l).inL23 = false) (hen : bitOf (d.link l).aspm st = true)
    (hidle : (d.link l).lastTlp + 30000 ≤ d.cycle) (hq : (d.link l).outq = [])
    (hltr : st = 2 → (d.link l).ltr.all (fun us => decide (d.l12Threshold l ≤ 1000 * us)) = true) :
    doAspmL1Entry l st d = d.put (HIF_LINK_STATUS_PM_STATE (l.val / 4) (l.val % 4)) (2 + st) := by
  have hlow : (st.val != 2 || (d.link l).ltr.all fun us => decide (d.l12Threshold l ≤ 1000 * us)) = true := by
    by_cases h2 : st = 2
    · rw [hltr h2, Bool.or_true]
    · have hne : (st.val != 2) = true := bne_iff_ne.mpr fun h => h2 (Fin.ext h)
      rw [hne, Bool.true_or]
  refine if_pos ?_
  rw [hu, h23, hen, hq, hlow, decide_eq_true hidle]
  rfl

/-- A link in flit mode whose traffic needs half its lanes or less goes to the least width that carries it (R325). -/
theorem doL0pWidthChange_narrows {need : Nat} (hu : d.linkUp l = true)
    (hflit : d.flag (HIF_LINK_STATUS_FLIT (l.val / 4) (l.val % 4)) = true)
    (hpm : d.get (HIF_LINK_STATUS_PM_STATE (l.val / 4) (l.val % 4)) ≤ 1)
    (hneed : 2 * need ≤ d.get (HIF_LINK_STATUS_WIDTH (l.val / 4) (l.val % 4))) :
    doL0pWidthChange l need d =
      (d.put (HIF_LINK_STATUS_PM_STATE (l.val / 4) (l.val % 4)) 1).modLink l fun x => { x with
        active := (([1, 2, 4, 8] : List Nat).find? fun k => decide (need ≤ k)).getD
          (d.get (HIF_LINK_STATUS_WIDTH (l.val / 4) (l.val % 4))) } := by
  have hcond : (!d.linkUp l || !d.flag (HIF_LINK_STATUS_FLIT (l.val / 4) (l.val % 4)) ||
      decide (1 < d.get (HIF_LINK_STATUS_PM_STATE (l.val / 4) (l.val % 4)))) = false := by
    rw [hu, hflit, decide_eq_false (Nat.not_lt.mpr hpm)]
    rfl
  exact (if_neg (Bool.eq_false_iff.mp hcond)).trans (if_pos hneed)

end

/-- Settles O33, by the equation of each row. That a link's error is logged at function 0, and under which AER bit, is the model's choice
(notes/assumptions/19, 20). -/
theorem linkTraining : Obligations.LinkTraining := by
  refine ⟨fun s l speed width flit halive hl hp hs hu h0 hmax hw hflit =>
      does_intro halive rfl (doHifDlActive_trains hl hp hs hu h0 hmax hw hflit),
    fun s l halive hu => does_intro halive rfl (doHifDlDown_up hu),
    fun s l k halive hu => does_intro halive rfl ((doLinkProtocolError_up k hu).trans ?_),
    fun s n l halive hl => does_intro halive rfl (doControllerInternalError_one hl),
    fun s l st halive hu h23 hen hidle hq hltr => does_intro halive rfl (doAspmL1Entry_idle hu h23 hen hidle hq hltr),
    fun s l need halive hu hflit hpm hneed => does_intro halive rfl (doL0pWidthChange_narrows hu hflit hpm hneed)⟩
  cases k <;> rfl

end Sys2Proof.Machine
end

section
/-!
PROOFS. Clocks, crossings, quadrants and cones (O47): what leaves the readings of a cone alone, the step of a cone in a reading and in a
measurement, and an equation for each row.
-/

namespace Sys2Proof.Machine
namespace Dev

/-! ### What leaves the cones alone -/

/-- What the part holds of the cones: the two registers of cone `c`, and the package's state. -/
def coneRegs (c : Nat) (d : Dev) : W32 × W32 × PkgState := (d.rd (RAS_CONE_TEMP c), d.rd (RAS_CONE_WEAR c), d.pkg)

section
variable {c : Nat}

/-- A field of a register outside the cones' window. -/
theorem put_coneRegs (hc : c < 60) (d : Dev) (f : Fld) (v : Nat) (h : f.addr < 0x43100 ∨ 0x43300 ≤ f.addr) :
    coneRegs c (d.put f v) = coneRegs c d := by
  have ht : RAS_CONE_TEMP c ≠ f.addr := by simp only [RAS_CONE_TEMP]; omega
  have hw : RAS_CONE_WEAR c ≠ f.addr := by simp only [RAS_CONE_WEAR]; omega
  rw [coneRegs, rd_put_ne d f v ht, rd_put_ne d f v hw, put_pkg]
  rfl

theorem setEvent_coneRegs (hc : c < 60) (d : Dev) (f : Fld) (h : f.addr < 0x43100 ∨ 0x43300 ≤ f.addr) :
    coneRegs c (d.setEvent f) = coneRegs c d := put_coneRegs hc d f 1 h

theorem ite_coneRegs {p : Prop} [Decidable p] {x y d : Dev} (hx : coneRegs c x = coneRegs c d) (hy : coneRegs c y = coneRegs c d) :
    coneRegs c (if p then x else y) = coneRegs c d := by
  split
  · exact hx
  · exact hy

theorem modLink_coneRegs (d : Dev) (l : Nat) (g : Link → Link) : coneRegs c (d.modLink l g) = coneRegs c d := rfl
theorem setMsix_coneRegs (d : Dev) (l f e : Nat) (x : MsixEntry) : coneRegs c (d.setMsix l f e x) = coneRegs c d := rfl
theorem setRas_coneRegs (d : Dev) (g : RasState → RasState) : coneRegs c (d.setRas g) = coneRegs c d := rfl
theorem inc_coneRegs (d : Dev) (k : Ctr) : coneRegs c (d.inc k) = coneRegs c d := rfl
theorem emit_coneRegs (d : Dev) (o : Out) : coneRegs c (d.emit o) = coneRegs c d := rfl

end

section
variable {c : Nat} (hc : c < 60)
include hc

/-- The registers of a gate lie above the cones'. -/
theorem syncGate_coneRegs (d : Dev) (g : Nat) : coneRegs c (d.syncGate g) = coneRegs c d := by
  have haway (off lo width : Nat) : (gateFld g off lo width).addr < 0x43100 ∨ 0x43300 ≤ (gateFld g off lo width).addr := by
    simp only [gateFld, gateCtrl, GATE_CTRL, SGATE_CTRL]
    split <;> omega
  rw [syncGate, put_coneRegs hc _ _ _ (haway _ _ _), put_coneRegs hc _ _ _ (haway _ _ _)]

theorem syncLate_coneRegs (d : Dev) : coneRegs c d.syncLate = coneRegs c d := by
  refine foldl_keeps (coneRegs c) _ (fun d kv => ?_) _ d
  split
  · exact ite_coneRegs (syncGate_coneRegs hc d _) rfl
  · rfl

omit hc in
theorem portServe_coneRegs (d : Dev) (k : Nat) : coneRegs c (d.portServe k) = coneRegs c d := by
  unfold portServe
  split
  · rfl
  · split
    · rfl
    · dsimp only
      split <;> rfl

omit hc in
theorem portTick_coneRegs (d : Dev) : coneRegs c d.portTick = coneRegs c d := by
  refine (foldl_keeps (coneRegs c) _ (fun d k => portServe_coneRegs d k) _ _).trans ?_
  exact foldl_keeps (coneRegs c) _ (fun d kv => by split <;> rfl) _ d

theorem tick_coneRegs (d : Dev) : coneRegs c d.tick = coneRegs c d := by
  unfold tick
  extract_lets p _ counted gain left _ timed held
  have hheld : coneRegs c held = coneRegs c timed := ite_coneRegs (put_coneRegs hc _ _ _ (by decide)) rfl
  have hleft : coneRegs c left = coneRegs c counted := ite_coneRegs rfl rfl
  have htimed : coneRegs c timed = coneRegs c counted := ite_coneRegs hleft rfl
  have hcounted : coneRegs c counted = coneRegs c p := rfl
  rw [syncLate_coneRegs hc, hheld, htimed, hcounted, portTick_coneRegs]

theorem nextNoc_coneRegs (d : Dev) : coneRegs c d.nextNoc = coneRegs c d :=
  ite_coneRegs ((tick_coneRegs hc _).trans (tick_coneRegs hc d)) (tick_coneRegs hc d)

theorem inWriteOrder_coneRegs (d : Dev) (order a n : Nat) : coneRegs c (d.inWriteOrder order a n) = coneRegs c d := by
  unfold inWriteOrder
  exact ite_coneRegs (nextNoc_coneRegs hc d) rfl

omit hc in
theorem markDirty_coneRegs (d : Dev) (a n : Nat) : coneRegs c (d.markDirty a n) = coneRegs c d :=
  foldl_keeps (coneRegs c) _ (fun d s => by
    dsimp only
    split
    · rfl
    · split <;> rfl) _ d

theorem hbmWrite_coneRegs (d : Dev) (a : Nat) (bs : List Byte) : coneRegs c (d.hbmWrite a bs) = coneRegs c d := by
  unfold hbmWrite hbmWriteAs
  split
  · rfl
  · rw [markDirty_coneRegs]
    exact inWriteOrder_coneRegs hc d _ _ _

/-- The registers of the host links and of the engines lie above the cones'. -/
theorem tlpOn_coneRegs (d : Dev) (l : Nat) : coneRegs c (d.tlpOn l) = coneRegs c d := by
  have haway (n m : Nat) : (HIF_LINK_STATUS_PM_STATE n m).addr < 0x43100 ∨ 0x43300 ≤ (HIF_LINK_STATUS_PM_STATE n m).addr := by
    simp only [HIF_LINK_STATUS_PM_STATE, HIF_LINK_STATUS]
    omega
  unfold tlpOn
  refine ite_coneRegs ?_ (modLink_coneRegs d l _)
  rw [modLink_coneRegs, put_coneRegs hc _ _ _ (haway _ _), modLink_coneRegs]

theorem issueReq_coneRegs (d : Dev) (l : Nat) (r : HostReq) : coneRegs c (d.issueReq l r) = coneRegs c d := by
  cases r with
  | write w => exact (emit_coneRegs _ _).trans ((modLink_coneRegs _ _ _).trans (tlpOn_coneRegs hc d l))
  | read f t a n ro ido => exact (emit_coneRegs _ _).trans (tlpOn_coneRegs hc d l)

theorem pumpLink_coneRegs (d : Dev) (l : Nat) : coneRegs c (d.pumpLink l) = coneRegs c d := by
  unfold pumpLink
  exact ite_coneRegs (foldl_keeps (coneRegs c) _ (fun d r => issueReq_coneRegs hc d l r) _ _) rfl

theorem sendReq_coneRegs (d : Dev) (l : Nat) (r : HostReq) : coneRegs c (d.sendReq l r) = coneRegs c d := pumpLink_coneRegs hc _ l

theorem msix_coneRegs (d : Dev) (l f e : Nat) : coneRegs c (d.msix l f e).2 = coneRegs c d := by
  rw [msix, apply_ite Prod.snd, apply_ite Prod.snd]
  refine ite_coneRegs rfl (ite_coneRegs (setMsix_coneRegs d _ _ _ _) ?_)
  rw [sendReq_coneRegs hc, setMsix_coneRegs]

theorem putRead_coneRegs (d : Dev) (g a n ad : Nat) (w : ReadFor) : coneRegs c (d.putRead g a n ad w) = coneRegs c d := by
  have haway (n : Nat) : (DMA_ENG_STATUS_OUT_READS n).addr < 0x43100 ∨ 0x43300 ≤ (DMA_ENG_STATUS_OUT_READS n).addr := by
    simp only [DMA_ENG_STATUS_OUT_READS, DMA_ENG_STATUS]
    omega
  have hput (e : Dev) (h : coneRegs c e = coneRegs c d) (n v : Nat) : coneRegs c (e.put (DMA_ENG_STATUS_OUT_READS n) v) = coneRegs c d :=
    (put_coneRegs hc e _ v (haway n)).trans h
  unfold putRead
  exact ite_coneRegs ((sendReq_coneRegs hc _ _ _).trans (hput _ rfl _ _)) (hput _ rfl _ _)

theorem askAts_coneRegs (d : Dev) (g page : Nat) : coneRegs c (d.askAts g page) = coneRegs c d :=
  ite_coneRegs rfl (putRead_coneRegs hc d _ _ _ _ _)

omit hc in
theorem denyWrite_coneRegs (d : Dev) (g : Nat) (w : PWrite) : coneRegs c (d.denyWrite g w) = coneRegs c d := by
  unfold denyWrite
  split
  · rfl
  · split
    · rfl
    · split <;> rfl

theorem hostOut_coneRegs (d : Dev) (l g : Nat) (w : PWrite) : coneRegs c (d.hostOut l g w) = coneRegs c d := by
  unfold hostOut
  split
  · rfl
  · split
    · exact sendReq_coneRegs hc d _ _
    · exact askAts_coneRegs hc _ _ _
    · exact denyWrite_coneRegs d _ _

theorem tWrite_coneRegs (d : Dev) (g a : Nat) (bs : List Byte) (pos : Option (Nat × Nat)) (cpl : Option Nat) :
    coneRegs c (d.tWrite g a bs pos cpl) = coneRegs c d := by
  unfold tWrite tWriteF
  exact ite_coneRegs (hbmWrite_coneRegs hc _ _ _) (foldl_keeps (coneRegs c) _ (fun d p => hostOut_coneRegs hc d _ _ _) _ _)

theorem rasRing_coneRegs (d : Dev) (e : RasErr) (count : Nat) : coneRegs c (d.rasRing e count) = coneRegs c d := by
  unfold rasRing
  extract_lets size tail g a written moved
  have hwritten : coneRegs c written = coneRegs c d := ite_coneRegs (tWrite_coneRegs hc d _ _ _ _ _) rfl
  have hmoved : coneRegs c moved = coneRegs c d := (put_coneRegs hc _ _ _ (by decide)).trans hwritten
  exact ite_coneRegs (inc_coneRegs d _) (ite_coneRegs ((setRas_coneRegs moved _).trans hmoved) hmoved)

theorem rasWrite_coneRegs (d : Dev) (e : RasErr) (count : Nat) : coneRegs c (d.rasWrite e count) = coneRegs c d := by
  have hring := rasRing_coneRegs hc d e count
  have hevent : coneRegs c (match e.cls with
      | .ce => (d.rasRing e count).setEvent RAS_STATUS_CE
      | .de => (d.rasRing e count).setEvent RAS_STATUS_DE
      | .uc => (d.rasRing e count).setEvent RAS_STATUS_UC
      | .fatal => d.rasRing e count) = coneRegs c d := by
    cases e.cls with
    | ce => exact (setEvent_coneRegs hc _ _ (by decide)).trans hring
    | de => exact (setEvent_coneRegs hc _ _ (by decide)).trans hring
    | uc => exact (setEvent_coneRegs hc _ _ (by decide)).trans hring
    | fatal => exact hring
  unfold rasWrite
  exact ite_coneRegs ((msix_coneRegs hc _ _ _ _).trans hevent) hevent

/-- A correctable error leaves the cones' readings. -/
theorem rasError_ce_coneRegs (d : Dev) (e : RasErr) (he : e.cls = .ce) : coneRegs c (d.rasError e) = coneRegs c d := by
  unfold rasError
  simp only [he]
  exact ite_coneRegs (rasWrite_coneRegs hc _ _ _) rfl

end

/-! ### The readings of the cones (R495, R497, R498) -/

/-- What the part holds of cone `c` alone: its registers and its state. -/
def coneView (c : Nat) (d : Dev) : W32 × W32 × Cone := (d.rd (RAS_CONE_TEMP c), d.rd (RAS_CONE_WEAR c), d.cone c)

theorem coneView_of_regs {c : Nat} {x d : Dev} (h : coneRegs c x = coneRegs c d) : coneView c x = coneView c d := by
  simp only [coneRegs, Prod.mk.injEq] at h
  simp only [coneView, cone, h]

theorem coneView_eq {c : Nat} {x d : Dev} (h : coneView c x = coneView c d) :
    x.rd (RAS_CONE_TEMP c) = d.rd (RAS_CONE_TEMP c) ∧ x.rd (RAS_CONE_WEAR c) = d.rd (RAS_CONE_WEAR c) ∧ x.cone c = d.cone c := by
  simpa only [coneView, Prod.mk.injEq] using h

theorem modCone_coneView_ne {c k : Nat} (h : c ≠ k) (d : Dev) (g : Cone → Cone) : coneView c (d.modCone k g) = coneView c d := by
  have hcone : (d.modCone k g).cone c = d.cone c := tabGet_set_ne _ _ _ h
  rw [coneView, hcone]
  rfl

theorem cone_modCone_self (d : Dev) (c : Nat) (g : Cone → Cone) : (d.modCone c g).cone c = g (d.cone c) := tabGet_set_self _ _ _ _

theorem cone_put (d : Dev) (f : Fld) (v c : Nat) : (d.put f v).cone c = d.cone c := rfl

/-- A field of another register than the two of cone `c`. -/
theorem put_coneView {c : Nat} (d : Dev) (f : Fld) (v : Nat) (ht : RAS_CONE_TEMP c ≠ f.addr) (hw : RAS_CONE_WEAR c ≠ f.addr) :
    coneView c (d.put f v) = coneView c d := by
  rw [coneView, rd_put_ne d f v ht, rd_put_ne d f v hw]
  rfl

/-- A fold of steps of which one alone touches what `g` reads comes, for `g`, to that step. -/
theorem foldl_at {β γ : Type} (g : β → γ) (f : β → Nat → β) (c : Nat) (l : List Nat) (d : β) (hone : l.Nodup) (hin : c ∈ l)
    (h : ∀ d, ∀ x ∈ l, x ≠ c → g (f d x) = g d) : ∃ e, g e = g d ∧ g (l.foldl f d) = g (f e c) := by
  obtain ⟨l₁, l₂, rfl⟩ := List.append_of_mem hin
  have hl₁ : c ∉ l₁ := fun hc => (List.nodup_append.mp hone).2.2 c hc c List.mem_cons_self rfl
  have hl₂ : c ∉ l₂ := (List.nodup_cons.mp (List.nodup_append.mp hone).2.1).1
  have keep (l' : List Nat) (hsub : ∀ x ∈ l', x ∈ l₁ ++ c :: l₂) (hc : c ∉ l') (d : β) : g (l'.foldl f d) = g d := by
    induction l' generalizing d with
    | nil => rfl
    | cons x l' ih =>
      rw [List.foldl_cons, ih (fun y hy => hsub y (List.mem_cons_of_mem _ hy)) (fun hm => hc (List.mem_cons_of_mem _ hm))]
      exact h d x (hsub x List.mem_cons_self) fun hx => hc (hx ▸ List.mem_cons_self)
  refine ⟨l₁.foldl f d, keep l₁ (fun x hx => List.mem_append_left _ hx) hl₁ d, ?_⟩
  rw [List.foldl_append, List.foldl_cons]
  exact keep l₂ (fun x hx => List.mem_append_right _ (List.mem_cons_of_mem _ hx)) hl₂ _

section
variable {c k : Nat} (hc : c < 60) (hk : k < 60)
include hc hk

/-- The registers of two cones. -/
theorem coneAddr_ne (h : k ≠ c) : RAS_CONE_TEMP c ≠ RAS_CONE_TEMP k ∧ RAS_CONE_TEMP c ≠ RAS_CONE_WEAR k ∧
    RAS_CONE_WEAR c ≠ RAS_CONE_TEMP k ∧ RAS_CONE_WEAR c ≠ RAS_CONE_WEAR k := by
  simp only [RAS_CONE_TEMP, RAS_CONE_WEAR]
  omega

/-- A cone that fails is recorded, and the other cones stay. -/
theorem coneFails_coneView (h : k ≠ c) (d : Dev) : coneView c (d.coneFails k) = coneView c d := by
  obtain ⟨htt, htw, hwt, hww⟩ := coneAddr_ne hc hk h
  unfold coneFails
  split
  · rfl
  · refine (coneView_of_regs (rasError_ce_coneRegs hc _ _ rfl)).trans ?_
    rw [put_coneView _ _ _ htw hww, put_coneView _ _ _ htt hwt, modCone_coneView_ne h.symm]

end

/-- A cone that fails keeps its reading. -/
theorem coneFails_temp {c : Nat} (hc : c < 60) (d : Dev) : (d.coneFails c).get (RAS_CONE_TEMP_TEMP c) = d.get (RAS_CONE_TEMP_TEMP c) := by
  unfold coneFails
  split
  · rfl
  · have hr := (coneView_eq (coneView_of_regs (rasError_ce_coneRegs hc
      (((d.modCone c fun x => { x with bad := true }).put (RAS_CONE_TEMP_VALID c) 0).put (RAS_CONE_WEAR_VALID c) 0)
      (.of 0x1C (coneDie c) .ce c) rfl))).1
    rw [get, RAS_CONE_TEMP_TEMP, hr]
    refine (get_put_addr _ (RAS_CONE_WEAR_VALID c) (RAS_CONE_TEMP_TEMP c) 0 ?_).trans
      (get_put_bits _ (RAS_CONE_TEMP_VALID c) (RAS_CONE_TEMP_TEMP c) 0 (by decide : 31 + 1 ≤ 32) (.inr (by decide : 0 + 16 ≤ 31)))
    simp only [RAS_CONE_TEMP_TEMP, RAS_CONE_TEMP, RAS_CONE_WEAR_VALID, RAS_CONE_WEAR]
    omega

/-- RAS_CONE_HOT and RAS_CONE_MARGIN are no cone's registers. -/
theorem syncCones_coneView {c : Nat} (hc : c < 60) (d : Dev) : coneView c d.syncCones = coneView c d := by
  have haway (d : Dev) (f : Fld) (v : Nat) (h : f.addr < 0x43100 ∨ 0x43300 ≤ f.addr) : coneView c (d.put f v) = coneView c d :=
    coneView_of_regs (put_coneRegs hc d f v h)
  have hhot (d : Dev) : coneView c (match hottest d.coneReads with
      | none => d.put RAS_CONE_HOT_VALID 0
      | some (c, t) => ((d.put RAS_CONE_HOT_VALID 1).put RAS_CONE_HOT_CONE c).put RAS_CONE_HOT_TEMP (ofSigned 16 t)) = coneView c d := by
    split
    · exact haway _ _ _ (by decide)
    · rw [haway _ _ _ (by decide), haway _ _ _ (by decide), haway _ _ _ (by decide)]
  unfold syncCones
  extract_lets hot ms
  have hh : coneView c hot = coneView c d := hhot d
  split
  · exact (haway _ _ _ (by decide)).trans hh
  · rw [haway _ _ _ (by decide), haway _ _ _ (by decide), haway _ _ _ (by decide), hh]

/-! A reading of the temperatures. -/

/-- What a cone counts of a reading `t`, which may be out of line with its neighbours. -/
def coneCounts (t : Int) (odd : Bool) (x : Cone) : Cone :=
  { x with hot := if 920 ≤ t then x.hot + 1 else 0, off := if odd then x.off + 1 else 0 }

/-- One cone takes its reading up. -/
def coneStep (temps : List (BitVec 16)) (odd : List Bool) (d : Dev) (c : Nat) : Dev :=
  let d := (d.modCone c (coneCounts (temps.getD c 0#16).toInt (odd.getD c false))).put (RAS_CONE_TEMP_TEMP c)
    (temps.getD c 0#16).toNat
  if (d.cone c).bad then d
  else
    let d := d.put (RAS_CONE_TEMP_VALID c) 1
    if 10 ≤ (d.cone c).off then d.coneFails c else d

theorem conesRead_eq (d : Dev) (temps : List (BitVec 16)) (odd : List Bool) :
    d.conesRead temps odd = ((List.range 60).foldl (coneStep temps odd) d).syncCones := rfl

section
variable (temps : List (BitVec 16)) (odd : List Bool)

theorem coneStep_coneView {c k : Nat} (hc : c < 60) (hk : k < 60) (h : k ≠ c) (d : Dev) :
    coneView c (coneStep temps odd d k) = coneView c d := by
  obtain ⟨htt, -, hwt, -⟩ := coneAddr_ne hc hk h
  have hput (d : Dev) (lo width v : Nat) : coneView c (d.put ⟨RAS_CONE_TEMP k, lo, width⟩ v) = coneView c d :=
    put_coneView d _ v htt hwt
  unfold coneStep
  extract_lets taken valid
  have htaken : coneView c taken = coneView c d := (hput _ _ _ _).trans (modCone_coneView_ne h.symm d _)
  have hvalid : coneView c valid = coneView c d := (hput _ _ _ _).trans htaken
  split
  · exact htaken
  · split
    · exact (coneFails_coneView hc hk h valid).trans hvalid
    · exact hvalid

/-- The cone's register holds its reading. -/
theorem coneStep_temp {c : Nat} (hc : c < 60) (d : Dev) :
    (coneStep temps odd d c).get (RAS_CONE_TEMP_TEMP c) = (temps.getD c 0#16).toNat := by
  unfold coneStep
  extract_lets taken valid
  have htaken : taken.get (RAS_CONE_TEMP_TEMP c) = (temps.getD c 0#16).toNat :=
    (get_put_same _ (RAS_CONE_TEMP_TEMP c) _ (by decide : 0 + 16 ≤ 32)).trans (Nat.mod_eq_of_lt (temps.getD c 0#16).isLt)
  have hvalid : valid.get (RAS_CONE_TEMP_TEMP c) = taken.get (RAS_CONE_TEMP_TEMP c) :=
    get_put_bits taken (RAS_CONE_TEMP_VALID c) _ 1 (by decide : 31 + 1 ≤ 32) (.inr (by decide : 0 + 16 ≤ 31))
  split
  · exact htaken
  · split
    · exact (coneFails_temp hc valid).trans (hvalid.trans htaken)
    · exact hvalid.trans htaken

/-- A cone that has not failed and is in line is valid. -/
theorem coneStep_valid {c : Nat} {d : Dev} (hbad : (d.cone c).bad = false) (hodd : odd.getD c false = false) :
    (coneStep temps odd d c).flag (RAS_CONE_TEMP_VALID c) = true := by
  unfold coneStep
  extract_lets taken valid
  have hcone : taken.cone c = coneCounts (temps.getD c 0#16).toInt (odd.getD c false) (d.cone c) :=
    (cone_put _ _ _ c).trans (cone_modCone_self d c _)
  have hsame : valid.cone c = taken.cone c := cone_put taken _ 1 c
  have hoff : (valid.cone c).off = 0 := by rw [hsame, hcone, hodd]; rfl
  rw [if_neg (by rw [hcone, coneCounts, hbad]; exact Bool.false_ne_true), if_neg (by rw [hoff]; decide)]
  exact flag_put_same taken (RAS_CONE_TEMP_VALID c) 1 (by decide : 31 + 1 ≤ 32)

/-- After a reading each cone's register shows it, and a sound cone in line is valid. -/
theorem conesRead_cone (d : Dev) {c : Nat} (hc : c < 60) :
    (d.conesRead temps odd).get (RAS_CONE_TEMP_TEMP c) = (temps.getD c 0#16).toNat ∧
      ((d.cone c).bad = false → odd.getD c false = false → (d.conesRead temps odd).flag (RAS_CONE_TEMP_VALID c) = true) := by
  obtain ⟨e, he, hfold⟩ := foldl_at (coneView c) (coneStep temps odd) c (List.range 60) d List.nodup_range (List.mem_range.mpr hc)
    fun d k hk hne => coneStep_coneView temps odd hc (List.mem_range.mp hk) hne d
  obtain ⟨hrd, -, -⟩ := coneView_eq ((syncCones_coneView hc _).trans hfold)
  have hread (lo width : Nat) : (d.conesRead temps odd).get ⟨RAS_CONE_TEMP c, lo, width⟩ =
      (coneStep temps odd e c).get ⟨RAS_CONE_TEMP c, lo, width⟩ := by
    rw [get, get, conesRead_eq, hrd]
  refine ⟨(hread _ _).trans (coneStep_temp temps odd hc e), fun hbad hodd => ?_⟩
  have hvalid := coneStep_valid temps odd (d := e) (by rw [(coneView_eq he).2.2, hbad]) hodd
  rwa [flag, RAS_CONE_TEMP_VALID, hread]

end

/-! A measurement of the wear. -/

/-- One cone takes its wear up. -/
def wearStep (shifts : List (Option Nat)) (d : Dev) (c : Nat) : Dev :=
  match shifts.getD c none with
  | none => d.coneFails c
  | some x =>
    let d := (d.put (RAS_CONE_WEAR_SHIFT c) (Nat.min 8191 x)).put (RAS_CONE_WEAR_MARGIN c) (1000 * (4000 - x) / 4000)
    if (d.cone c).bad then d else d.put (RAS_CONE_WEAR_VALID c) 1

theorem wearRead_eq (d : Dev) (shifts : List (Option Nat)) :
    d.wearRead shifts = ((List.range 60).foldl (wearStep shifts) d).syncCones := rfl

section
variable (shifts : List (Option Nat))

theorem wearStep_coneView {c k : Nat} (hc : c < 60) (hk : k < 60) (h : k ≠ c) (d : Dev) :
    coneView c (wearStep shifts d k) = coneView c d := by
  obtain ⟨-, htw, -, hww⟩ := coneAddr_ne hc hk h
  have hput (d : Dev) (lo width v : Nat) : coneView c (d.put ⟨RAS_CONE_WEAR k, lo, width⟩ v) = coneView c d :=
    put_coneView d _ v htw hww
  unfold wearStep
  split
  · exact coneFails_coneView hc hk h d
  · have htaken (d : Dev) (v w : Nat) :
        coneView c ((d.put (RAS_CONE_WEAR_SHIFT k) v).put (RAS_CONE_WEAR_MARGIN k) w) = coneView c d :=
      (hput _ _ _ _).trans (hput _ _ _ _)
    dsimp only
    split
    · exact htaken d _ _
    · exact (hput _ _ _ _).trans (htaken d _ _)

/-- The cone's register holds its wear and its margin, and a cone that has not failed is valid. -/
theorem wearStep_wear {c x : Nat} (hx : shifts.getD c none = some x) (d : Dev) :
    (wearStep shifts d c).get (RAS_CONE_WEAR_SHIFT c) = Nat.min 8191 x ∧
      (wearStep shifts d c).get (RAS_CONE_WEAR_MARGIN c) = 1000 * (4000 - x) / 4000 ∧
      ((d.cone c).bad = false → (wearStep shifts d c).flag (RAS_CONE_WEAR_VALID c) = true) := by
  have hshift : Nat.min 8191 x < 2 ^ 13 := Nat.lt_of_le_of_lt (Nat.min_le_left _ _) (by decide)
  have hmargin : 1000 * (4000 - x) / 4000 < 2 ^ 10 := by omega
  have hstep : wearStep shifts d c =
      let taken := (d.put (RAS_CONE_WEAR_SHIFT c) (Nat.min 8191 x)).put (RAS_CONE_WEAR_MARGIN c) (1000 * (4000 - x) / 4000)
      if (taken.cone c).bad then taken else taken.put (RAS_CONE_WEAR_VALID c) 1 := by
    rw [wearStep, hx]
  rw [hstep]
  extract_lets taken
  have hs : taken.get (RAS_CONE_WEAR_SHIFT c) = Nat.min 8191 x :=
    (get_put_bits _ (RAS_CONE_WEAR_MARGIN c) _ _ (by decide : 16 + 10 ≤ 32) (.inr (by decide : 0 + 13 ≤ 16))).trans
      ((get_put_same d (RAS_CONE_WEAR_SHIFT c) _ (by decide : 0 + 13 ≤ 32)).trans (Nat.mod_eq_of_lt hshift))
  have hm : taken.get (RAS_CONE_WEAR_MARGIN c) = 1000 * (4000 - x) / 4000 :=
    (get_put_same _ (RAS_CONE_WEAR_MARGIN c) _ (by decide : 16 + 10 ≤ 32)).trans (Nat.mod_eq_of_lt hmargin)
  have hcone : taken.cone c = d.cone c := (cone_put _ _ _ c).trans (cone_put d _ _ c)
  cases hbad : (d.cone c).bad with
  | true =>
    rw [if_pos (by rw [hcone, hbad])]
    exact ⟨hs, hm, fun h => by cases h⟩
  | false =>
    rw [if_neg (by rw [hcone, hbad]; exact Bool.false_ne_true)]
    have hvalid : 31 + 1 ≤ 32 := by decide
    exact ⟨(get_put_bits _ (RAS_CONE_WEAR_VALID c) _ _ hvalid (.inr (by decide : 0 + 13 ≤ 31))).trans hs,
      (get_put_bits _ (RAS_CONE_WEAR_VALID c) _ _ hvalid (.inr (by decide : 16 + 10 ≤ 31))).trans hm,
      fun _ => flag_put_same _ (RAS_CONE_WEAR_VALID c) 1 hvalid⟩

/-- After a measurement the register of a cone that was measured shows its wear, and a sound cone is valid. -/
theorem wearRead_cone (d : Dev) {c x : Nat} (hc : c < 60) (hx : shifts.getD c none = some x) :
    (d.wearRead shifts).get (RAS_CONE_WEAR_SHIFT c) = Nat.min 8191 x ∧
      (d.wearRead shifts).get (RAS_CONE_WEAR_MARGIN c) = 1000 * (4000 - x) / 4000 ∧
      ((d.cone c).bad = false → (d.wearRead shifts).flag (RAS_CONE_WEAR_VALID c) = true) := by
  obtain ⟨e, he, hfold⟩ := foldl_at (coneView c) (wearStep shifts) c (List.range 60) d List.nodup_range (List.mem_range.mpr hc)
    fun d k hk hne => wearStep_coneView shifts hc (List.mem_range.mp hk) hne d
  obtain ⟨-, hrd, -⟩ := coneView_eq ((syncCones_coneView hc _).trans hfold)
  have hread (lo width : Nat) : (d.wearRead shifts).get ⟨RAS_CONE_WEAR c, lo, width⟩ =
      (wearStep shifts e c).get ⟨RAS_CONE_WEAR c, lo, width⟩ := by
    rw [get, get, wearRead_eq, hrd]
  obtain ⟨hs, hm, hv⟩ := wearStep_wear shifts hx e
  refine ⟨(hread _ _).trans hs, (hread _ _).trans hm, fun hbad => ?_⟩
  have hvalid := hv (by rw [(coneView_eq he).2.2, hbad])
  rwa [flag, RAS_CONE_WEAR_VALID, hread]

end

end Dev

/-! ### Clocks and crossings (R420, R421, R425) -/

section
variable {d : Dev}

/-- The loss of a lock that shows: the event and the counter. -/
def lockLost (d : Dev) (i : Fin 8) : Dev := ((d.put ⟨CLK_PLL_STATUS, i, 1⟩ 0).setEvent ⟨CLK_PLL_EVENT, i, 1⟩).inc CLK_CNT_PLL_LOSS

/-- A PLL that holds no lock has none to lose (R421). -/
theorem doPllLockLoss_none {i : Fin 8} (h : i = 0 ∨ d.flag ⟨CLK_PLL_STATUS, i, 1⟩ = false) : doPllLockLoss i d = d := if_pos h

/-- The loss of a lock, by its PLL: one of the first five is fatal, that of HIF freezes the links, and that of TIME takes the time unit
out of its state (R421). -/
theorem doPllLockLoss_locked {i : Fin 8} (h0 : i ≠ 0) (hlock : d.flag ⟨CLK_PLL_STATUS, i, 1⟩ = true) :
    doPllLockLoss i d =
      if i < 6 then (lockLost d i).fatal (.of 0x19 i .fatal 0)
      else
        let f := (lockLost d i).rasError (.of 0x19 i .uc 0)
        if i = 6 then
          (f.linksOf 0 ++ f.linksOf 1).foldl (fun d l => (d.inc (HIF_CNT_UNCORR_ERR (l / 4) (l % 4))).freezeLink l 7) f
        else (f.put TIME_SYNC_STATE 0).applyLoss (f.put TIME_SYNC_STATE 0).cycle :=
  if_neg fun h => h.elim h0 fun hf => Bool.false_ne_true (hf.symm.trans hlock)

/-- A crossing whose reset half is out of reset reconnects (R425). -/
theorem doCrossingReconnect_eq (x : Crossing) (d : Dev) :
    doCrossingReconnect x d =
      if ((match x with
        | .core q => !bitOf (d.get RST_QUAD_STATUS_RESETTING) q
        | .kiln k => !d.kilnHeld k
        | .hif l => !d.hif.perst.contains (l.val / 4)
        | _ => true) && d.severed x) = true then d.reconnect x else d := rfl

/-! ### Quadrants (R430, R439) -/

/-- A quadrant reset that does not run, or whose bumps are not done, does not end (R430). -/
theorem doQuadrantResetDone_early {q : Fin 4} (h : d.pkg.quads.contains (q.val, true) = false ∨
    ((List.range 8).any fun i => d.bumpPending (.kiln (8 * q.val + i))) = true) : doQuadrantResetDone q d = d := by
  refine if_pos ?_
  rcases h with h | h <;> simp only [h, Bool.not_false, Bool.true_or, Bool.or_true]

/-- One whose bumps are done ends with the quadrant held (R430). -/
theorem doQuadrantResetDone_done {q : Fin 4} (hq : d.pkg.quads.contains (q.val, true) = true)
    (hb : ((List.range 8).any fun i => d.bumpPending (.kiln (8 * q.val + i))) = false) :
    doQuadrantResetDone q d =
      let mine := fun t => !Dev.isMgmt t && Dev.quadOf t == q.val
      let u := ((d.dropEnds mine).clearThreads mine).setPkg fun s => { s with quads := s.quads.filter fun x => x.1 != q.val }
      ((u.put ⟨RST_QUAD_STATUS, q, 1⟩ 1).put ⟨RST_QUAD_STATUS, 16 + q, 1⟩ 0).setEvent ⟨RST_QUAD_STATUS, 8 + q, 1⟩ := by
  refine if_neg ?_
  rw [hq, hb]
  decide

section
variable {p : Path} {data : W32} {e : Dev} (he : d.writeFields p BOOT_QUAD_REL data = e)
include he

/-- A write of BOOT_QUAD_REL that names no quadrant is a write of the field. -/
theorem doBootQuadRel_none (h : fieldGet data 0 4 = 0) : doBootQuadRel p data d = e := by
  simp only [doBootQuadRel, he, h, if_true]

/-- Before the image is verified it is ignored and counted (R439). -/
theorem doBootQuadRel_early (h : fieldGet data 0 4 ≠ 0) (hv : e.flag BOOT_STATUS_VERIFIED = false) :
    doBootQuadRel p data d = e.inc BOOT_GATE_VIOL := by
  simp only [doBootQuadRel, he, if_neg h, hv, if_true]

/-- A quadrant's kilns start at its reset vector (R203, R439). -/
def quadStarted (d : Dev) (q : Nat) : Dev :=
  (List.range 8).foldl (fun x i =>
    if x.flag (RAS_KILN_MAP_VALID (8 * q + i)) && !x.kilnHeld (8 * q + i) then x.startKiln (8 * q + i) else x)
      (d.put ⟨RST_QUAD_STATUS, q, 1⟩ 0)

/-- Behind a verified image each quadrant named that is held, and not in reset, is released (R439). -/
theorem doBootQuadRel_releases (h : fieldGet data 0 4 ≠ 0) (hv : e.flag BOOT_STATUS_VERIFIED = true) :
    doBootQuadRel p data d =
      (List.range 4).foldl (fun d q => if bitOf data.toNat q && bitOf (d.get RST_QUAD_STATUS_HELD) q &&
        !bitOf (d.get RST_QUAD_STATUS_RESETTING) q then quadStarted d q else d) e := by
  simp only [doBootQuadRel, he, if_neg h, hv, Bool.true_eq_false, if_false]
  rfl

end

/-! ### Cones (R495, R497) -/

/-- A reading, once it is taken up, trips where a valid cone is too hot for the third time (R495). -/
theorem doConeTempReading_powered {temps : List (BitVec 16)} {odd : List Bool} (hp : d.boot.powered = true)
    (hs : d.pkg.standby = true) :
    doConeTempReading temps odd d =
      let e := (d.conesRead temps odd).conesSum.conesWarn
      match e.coneReads.find? fun x => decide (3 ≤ (e.cone x.1).hot) with
      | some (c, _) => e.thermalTrip (Dev.coneDie c) c
      | none => e := by
  refine if_neg ?_
  rw [hp, hs]
  decide

theorem doAnalogThermalTrip_alive {die : Fin 3} (h : d.alive = true) :
    doAnalogThermalTrip die d = d.free.2.thermalTrip die (d.free.1 % 2 ^ 64) := if_pos h

/-- A trip ends once BISQUE waits and every valid cone reads below 95 °C (R495). -/
theorem doThermtripRelease_cool (h : d.alive = true) (ht : d.pkg.trip = true) (hb : d.boot.started = true)
    (hc : (d.coneReads.all fun x => decide (x.2 < 760)) = true) :
    doThermtripRelease d = ({ d with pkg := { d.pkg with trip := false } }).emit (.pin .thermtripN true) := by
  refine if_pos ?_
  rw [h, ht, hb, hc]
  rfl

theorem doConeWearMeasure_powered {shifts : List (Option Nat)} (hp : d.boot.powered = true) (hs : d.pkg.standby = true) :
    doConeWearMeasure shifts d =
      ((d.wearRead shifts).wearJudge d 3200 RAS_CONE_EVENT_WEAR_WARN).wearJudge d 4000 RAS_CONE_EVENT_WEAR_LIMIT := by
  refine if_neg ?_
  rw [hp, hs]
  decide

end

/-- Settles O47: each row is its equation, and what a cone's register shows is read off the step of that cone. The class of a PLL's loss,
the free LOCATION of an analog trip and the writes held in front of a severed crossing are the model's choice (notes/assumptions/35). -/
theorem clockAndConeRows : Obligations.ClockAndConeRows := by
  refine ⟨fun s i halive => does_intro halive rfl rfl, fun s i halive => ⟨fun h => does_intro halive rfl (doPllLockLoss_none h),
      fun h0 hlock => ?_⟩, fun s x halive => ⟨fun hfree hsev => ?_, fun h => ?_⟩,
    fun s dv p data e h he => does_plain h (by decide) rfl (by rw [doQuadrantReset, he]),
    fun s q halive => ⟨fun h => does_intro halive rfl (doQuadrantResetDone_early h),
      fun hq hb => does_intro halive rfl (doQuadrantResetDone_done hq hb)⟩,
    fun s dv p data e h he => ⟨fun h0 => does_plain h (by decide) rfl (doBootQuadRel_none he h0),
      fun h0 hv => does_plain h (by decide) rfl (doBootQuadRel_early he h0 hv),
      fun h0 hv => does_plain h (by decide) rfl (doBootQuadRel_releases he h0 hv)⟩,
    fun s temps odd hp hs => ⟨fun c => s.dev.conesRead_cone temps odd c.isLt, fun hnone => ?_, fun x hx => ?_⟩,
    fun s die halive => does_intro_aon rfl (doAnalogThermalTrip_alive halive),
    fun s halive ht hb hc => does_intro_aon rfl (doThermtripRelease_cool halive ht hb hc),
    fun s shifts hp hs => ⟨fun c x hx => s.dev.wearRead_cone shifts c.isLt hx, does_intro_aon rfl (doConeWearMeasure_powered hp hs)⟩⟩
  · have hloss := doPllLockLoss_locked h0 hlock
    refine ⟨fun h6 => does_intro halive rfl (hloss.trans (if_pos h6)), fun h6 => ?_, fun h7 => ?_⟩
    · exact does_intro halive rfl (hloss.trans ((if_neg (by rw [h6]; decide)).trans (if_pos h6)))
    · exact does_intro halive rfl (hloss.trans ((if_neg (by rw [h7]; decide)).trans (if_neg (by rw [h7]; decide))))
  · refine does_intro halive rfl ((doCrossingReconnect_eq x s.dev).trans ((if_pos ?_).trans rfl))
    exact Bool.and_eq_true_iff.mpr ⟨hfree, hsev⟩
  · refine does_intro halive rfl ((doCrossingReconnect_eq x s.dev).trans (if_neg ?_))
    rw [Bool.and_eq_true]
    exact fun hboth => h.elim (fun hf => Bool.false_ne_true (hf.symm.trans hboth.1)) fun hsv => Bool.false_ne_true (hsv.symm.trans hboth.2)
  · refine does_intro_aon rfl ((doConeTempReading_powered hp hs).trans ?_)
    simp only [hnone]
  · refine does_intro_aon rfl ((doConeTempReading_powered hp hs).trans ?_)
    simp only [hx]

end Sys2Proof.Machine
end

section
/-!
PROOFS. The life of a DMA channel and its engine (O38): an equation for each row.
-/

namespace Sys2Proof.Machine

section
variable {d : Dev} {g : Fin 4096} {data : W32}

/-- A start that is refused (R332, R350, R360). -/
theorem doDmaStart_refused (hon : fieldGet data 0 1 = 1) (hst : d.chSt g = chSetup) (hr : d.startRefused g = true) :
    doDmaStart g data d = d.setEvent (DMA_CH_STATUS_CFG_ERR (g / 256) (g % 256)) := by
  simp only [doDmaStart, hon, hst, hr, Nat.one_ne_zero, ne_eq, not_true_eq_false, or_self, if_true, if_false]

/-- A start that nothing holds back runs its channel (R354, R360); one of kind 1 serves its queue besides. -/
theorem doDmaStart_runs {e : Dev} (hon : fieldGet data 0 1 = 1) (hst : d.chSt g = chSetup) (hr : d.startRefused g = false)
    (hp : d.pauseSrc g = 0) (hc : d.conditionSrc g = 0)
    (he : (((d.put (DMA_CH_STATUS_PAUSE_SRC (g / 256) (g % 256)) 0).lock (DMA_CH_CTRL (g / 256) (g % 256))).modChan g fun x =>
      { x with started := true, known := true }).setChSt g chRunning = e) (hk : e.chKind g ≠ 1) :
    doDmaStart g data d = (e.ltrUpdate (d.chLink g)).pump (g / 256) := by
  simp only [doDmaStart, hon, hst, hr, hp, hc, Nat.one_ne_zero, ne_eq, not_true_eq_false, or_self, Bool.false_eq_true, if_false,
    Nat.zero_and, Nat.add_zero, if_true, he, if_neg hk]

/-- RESUME of a channel that no source pauses (R358). -/
theorem doDmaResume_runs (hon : fieldGet data 30 1 = 1) (hst : d.chSt g = chStopped)
    (hs : d.flag (DMA_ENG_STATUS_STOPPED (g / 256)) = false) (hp : d.pauseSrc g = 0) :
    doDmaResume g data d = ((((d.setBack g).setChSt g chRunning).put
      (DMA_CH_STATUS_OWN_STALL (g / 256) (g % 256)) 0).answerHeld g).pump (g / 256) := by
  rw [doDmaResume, if_pos ⟨hon, hst, hs⟩, if_pos hp]

/-- ATS_INVALIDATION while no request of any engine and no write of the link is outstanding (R334). -/
theorem doAtsInvalidation_idle {l : Fin 8} {f : Fin 2048} (hr : d.allReads = []) (hu : (d.link l).unacked = [])
    (hq : (d.link l).outq = []) (hats : (d.func l f).atsEn = true) :
    doAtsInvalidation l f d = ((d.forgetAtc l f).modLink l fun x => { x with invals := x.invals ++ [(f.val, [], 0)] }).invalEnd l := by
  simp only [doAtsInvalidation, hr, hu, hq, hats, Bool.not_true, Bool.false_eq_true, if_false, List.filter_nil, List.map_nil,
    List.filterMap_nil, List.append_nil, List.length_nil, Nat.zero_sub]

end

/-- The control registers of the channels and of the engines lie outside the windows of the ports. -/
theorem dmaChCtrl_outside (n i : Nat) : DMA_CH_CTRL n i < 0x100000 ∨ 0x200000 ≤ DMA_CH_CTRL n i := by
  simp only [DMA_CH_CTRL]
  omega

theorem dmaEngCtrl_outside (n : Nat) : DMA_ENG_CTRL n < 0x100000 ∨ 0x200000 ≤ DMA_ENG_CTRL n := by
  simp only [DMA_ENG_CTRL]
  omega

/-- Settles O38, by the equation of each row. That a pause withdraws the jobs that have not started and holds the answers of the others,
and that RESUME gives these back, is the model's choice (notes/assumptions/68). -/
theorem channelLife : Obligations.ChannelLife := by
  refine ⟨fun s dv p g data h hon hst =>
      ⟨fun hr => does_plain h (dmaChCtrl_outside _ _) rfl (doDmaStart_refused hon hst hr),
        fun hr hp hc hk => does_plain h (dmaChCtrl_outside _ _) rfl (doDmaStart_runs hon hst hr hp hc rfl hk)⟩,
    fun s dv p g data h => does_plain h (dmaChCtrl_outside _ _) rfl rfl,
    fun s g halive hst hreads hjobs hx => does_intro halive rfl (if_pos ⟨hst, hreads, hjobs, hx⟩),
    fun s dv p g data h hon => does_plain h (dmaChCtrl_outside _ _) rfl (if_pos hon),
    fun s g halive hst hb => does_intro halive rfl (if_pos ⟨hst, hb⟩),
    fun s dv p g data h hon hst hs hp => does_plain h (dmaChCtrl_outside _ _) rfl (doDmaResume_runs hon hst hs hp),
    fun s n halive hs hr => does_intro halive rfl (if_pos ?_),
    fun s dv p n data h hon =>
      ⟨fun hd => does_plain h (dmaEngCtrl_outside _) rfl (if_pos ⟨hon, hd⟩),
        fun hd => does_plain h (dmaEngCtrl_outside _) rfl (if_neg fun hc => Bool.false_ne_true (hc.2.symm.trans hd))⟩,
    fun s dv p n data h => does_plain h (dmaEngCtrl_outside _) rfl rfl,
    fun s e l halive hf => does_intro halive rfl (if_pos hf),
    fun s l f halive hr hu hq hats => does_intro halive rfl (doAtsInvalidation_idle hr hu hq hats)⟩
  rw [hs, hr]
  rfl

end Sys2Proof.Machine
end

section
/-!
PROOFS. Doorbells, reads and completions of a DMA channel (O36): an equation for each row.
-/

namespace Sys2Proof.Machine

/-! ### Doorbells (R349, R350) -/

section
variable {d : Dev} {g : Fin 4096} {data : W32}

/-- A tail that the channel ignores, or that lies past its ring. -/
theorem doDbTail_bad (h : d.dbIgnored g = true ∨ d.ringSize g ≤ data.toNat) :
    doDbTail g data d = d.inc (DMA_CH_CNT_DB_BAD (g / 256) (g % 256)) := by
  refine if_pos ?_
  rcases h with h | h
  · rw [h, Bool.true_or]
  · rw [decide_eq_true h, Bool.or_true]

/-- A tail within the ring of a channel that takes doorbells is judged by its distance from DONE. -/
theorem doDbTail_good (hi : d.dbIgnored g = false) (hz : data.toNat < d.ringSize g) :
    doDbTail g data d =
      if (data.toNat + d.ringSize g - d.chDone g) % d.ringSize g < (d.chTail g + d.ringSize g - d.chDone g) % d.ringSize g then
        (d.mark (.doorbell g true)).inc (DMA_CH_CNT_DB_STALE (g / 256) (g % 256))
      else (((d.mark (.doorbell g false)).put (DMA_CH_TAIL_TAIL (g / 256) (g % 256)) data.toNat).put
        (DMA_CH_STATUS_OWN_STALL (g / 256) (g % 256)) 0).pump (g / 256) := by
  refine if_neg ?_
  rw [hi, decide_eq_false (Nat.not_le.mpr hz)]
  decide

/-- An interrupt doorbell that arms the channel is noted with what it found. -/
theorem doDbIrq_arms (hi : d.dbIgnored g = false) (hon : fieldGet data 31 1 = 1) :
    doDbIrq g data d =
      let u := d.mark (.doorbell g false)
      let e := u.mark (.armed g (u.flag (DMA_CH_STATUS_IRQ_ARMED (g / 256) (g % 256))) (u.get (DMA_CH_IRQ_NEXT_NEXT (g / 256) (g % 256))))
      ((e.put (DMA_CH_IRQ_NEXT_NEXT (g / 256) (g % 256)) (fieldGet data 0 16)).put
        (DMA_CH_STATUS_IRQ_ARMED (g / 256) (g % 256)) 1).chMsix g := by
  simp only [doDbIrq, hi, hon, Bool.false_eq_true, Nat.one_ne_zero, if_false]

end

/-! ### Reads (R39, R339, R352) -/

section
variable {d : Dev} {g : Fin 4096} {r : Read}

/-- The descriptors that the host returned whole are taken by a running channel (R339). -/
theorem doDescriptorReadReturn_host {i n : Nat} {e : Dev} (hf : (d.readsOf g).find? Dev.isDescRead = some r)
    (hdue : d.readDue (g / 256) = true) (hh : Dev.hostRead r = true) (hgot : r.got = r.len) (hlen : r.pieces.flatten.length = r.len)
    (hor : r.orphan = false) (hs : d.flag (DMA_ENG_STATUS_STOPPED (g / 256)) = false) (hw : r.what = .desc i n)
    (he : (d.dropRead r).engRead (g / 256) r.len = e) (hrun : e.chSt g = chRunning) :
    doDescriptorReadReturn g false d = (e.takeOwned g i r.pieces.flatten n).pump (g / 256) := by
  simp only [doDescriptorReadReturn, hf, hdue, hh, hgot, hlen, hor, hs, hw, he, hrun, Nat.lt_irrefl, decide_false, Bool.and_false,
    Bool.not_true, Bool.or_self, Bool.false_and, Bool.false_eq_true, if_false, if_true, and_self]

/-- What a stale read of descriptors in the HBM brings is discarded (R39). -/
theorem doDescriptorReadReturn_stale (hf : (d.readsOf g).find? Dev.isDescRead = some r) (hdue : d.readDue (g / 256) = true)
    (hh : Dev.hostRead r = false) (hc : d.readCurrent r = false) : doDescriptorReadReturn g false d = d.discardPart r r.len true := by
  simp only [doDescriptorReadReturn, hf, hdue, hh, hc, Bool.false_and, Bool.not_true, Bool.not_false, Bool.or_self, Bool.and_self,
    Bool.false_eq_true, if_false, if_true]

/-- The data read that DMA_READ_RETURN serves: the oldest of the channel's that is none of descriptors or translations, and is no orphan
without data. -/
def dataRead (r : Read) : Bool := !Dev.isDescRead r && !Dev.isAts r && !(Dev.hostRead r && r.pieces.isEmpty && r.orphan)

section
variable (hf : (d.readsOf g).find? dataRead = some r) (hr : d.readDue (g / 256) = true) (hw : d.writeDue (g / 256) = true)
include hf hr hw

/-- What a stale read of the HBM brings is discarded (R39). -/
theorem doDmaReadReturn_stale (hh : Dev.hostRead r = false) (hc : d.readCurrent r = false) :
    doDmaReadReturn g false d = d.discardPart r r.len true := by
  unfold dataRead at hf
  simp only [doDmaReadReturn, hf, hr, hw, hh, hc, Bool.false_and, Bool.not_true, Bool.not_false, Bool.or_self, Bool.and_self,
    Bool.false_eq_true, if_false, if_true]

/-- A read of the HBM is used whole (R352). -/
theorem doDmaReadReturn_hbm (hh : Dev.hostRead r = false) (hc : d.readCurrent r = true)
    (hs : d.flag (DMA_ENG_STATUS_STOPPED (g / 256)) = false) (hp : d.poisoned (r.addr - 2 ^ 63) r.len = false) :
    doDmaReadReturn g false d = ((d.dropRead r).useData r (d.hbmRead (r.addr - 2 ^ 63) r.len)).pump (g / 256) := by
  unfold dataRead at hf
  simp only [doDmaReadReturn, hf, hr, hw, hh, hc, hs, hp, Bool.false_and, Bool.not_true, Bool.not_false, Bool.or_self, Bool.and_false,
    Bool.true_or, Bool.false_eq_true, if_false, if_true]

/-- The last piece of a host read ends it (R352). -/
theorem doDmaReadReturn_lastPiece {b : List Byte} (hh : Dev.hostRead r = true) (hb : r.pieces = [b]) (hgot : r.got = r.len)
    (hs : d.flag (DMA_ENG_STATUS_STOPPED (g / 256)) = false) :
    doDmaReadReturn g false d = ((d.dropRead r).useData r b).pump (g / 256) := by
  unfold dataRead at hf
  simp only [doDmaReadReturn, hf, hr, hw, hh, hs, hb, hgot, List.isEmpty_cons, List.headD_cons, List.length_singleton, decide_true,
    Bool.and_false, Bool.and_self, Bool.not_true, Bool.false_and, Bool.or_self, Bool.or_true, Bool.false_eq_true, if_false, if_true]

/-- A piece of a host read that is not its last is used, and the read stays outstanding (R352). -/
theorem doDmaReadReturn_piece {b : List Byte} {rest : List (List Byte)} (hh : Dev.hostRead r = true) (hb : r.pieces = b :: rest)
    (hmore : r.got = r.len → rest ≠ []) (hs : d.flag (DMA_ENG_STATUS_STOPPED (g / 256)) = false) :
    doDmaReadReturn g false d =
      ((d.modDeng (g / 256) fun x => { x with reads := x.reads.map fun y =>
        if y.tag = r.tag then { y with pieces := y.pieces.drop 1, used := y.used + b.length } else y }).useData r b).pump (g / 256) := by
  have hlast : (decide (r.got = r.len) && decide ((b :: rest).length = 1)) = false := by
    cases rest with
    | nil => rw [decide_eq_false fun h => hmore h rfl, Bool.false_and]
    | cons => exact Bool.and_eq_false_iff.mpr (.inr (decide_eq_false (by simp)))
  unfold dataRead at hf
  simp only [doDmaReadReturn, hf, hr, hw, hh, hs, hb, hlast, List.isEmpty_cons, List.headD_cons, Bool.and_false, Bool.not_true,
    Bool.false_and, Bool.or_self, Bool.false_eq_true, if_false, if_true]

end
end

/-! ### Completions (R338, R346, R350, R360) -/

section
variable {d : Dev} {g : Fin 4096}

/-- A completion with no arm in its cycle. -/
theorem doCompletionPost_plain (hs : d.flag (DMA_ENG_STATUS_STOPPED (g / 256)) = false) (hrun : d.chSt g = chRunning)
    (hm : ∀ was old, Mark.armed g was old ∉ d.marks) : doCompletionPost g d = (d.postComp g).pump (g / 256) := by
  simp only [doCompletionPost, hs, hrun, beq_self_eq_true, Bool.true_or, Bool.not_true, Bool.or_self, Bool.false_eq_true, if_false]
  split
  case h_1 k was old hfound =>
    have hfind := (Option.ite_none_right_eq_some.mp hfound).2
    have hfits := List.find?_some hfind
    have hk : k = g.val := eq_of_beq hfits
    exact absurd (hk ▸ List.mem_of_find?_eq_some hfind) (hm was old)
  case h_2 => rfl

/-- A completion of the cycle of an arm is posted as the arm found the channel; then the arm is evaluated. -/
theorem doCompletionPost_armed {was : Bool} {old : Nat} {rest : List Mark} (hs : d.flag (DMA_ENG_STATUS_STOPPED (g / 256)) = false)
    (hrun : d.chSt g = chRunning) (ha : d.flag (DMA_CH_STATUS_IRQ_ARMED (g / 256) (g % 256)) = true)
    (hm : d.marks = .armed g was old :: rest) :
    doCompletionPost g d =
      let e := ((d.put (DMA_CH_STATUS_IRQ_ARMED (g / 256) (g % 256)) (b2n was)).put
        (DMA_CH_IRQ_NEXT_NEXT (g / 256) (g % 256)) old).postComp g
      (((e.put (DMA_CH_STATUS_IRQ_ARMED (g / 256) (g % 256)) 1).put (DMA_CH_IRQ_NEXT_NEXT (g / 256) (g % 256))
        (d.get (DMA_CH_IRQ_NEXT_NEXT (g / 256) (g % 256)))).chMsix g).pump (g / 256) := by
  simp only [doCompletionPost, hs, hrun, ha, hm, List.find?_cons, beq_self_eq_true, Bool.true_or, Bool.not_true, Bool.or_self,
    Bool.false_eq_true, if_false, if_true]

end

/-- Settles O36, by the equation of each row. That the returns of a channel are used in the order of their issue, and that the bytes of
descriptors count in BYTES_READ and the rate, is the model's choice (notes/assumptions/15, 53). -/
theorem channelData : Obligations.ChannelData := by
  refine ⟨fun s dv g data h => ?_, fun s g halive => does_intro halive rfl rfl, fun s g r i n e halive hf hdue => ?_,
    fun s g r halive hf hr hw => ?_,
    fun s g halive hs hrun hm => does_intro halive rfl (doCompletionPost_plain hs hrun hm),
    fun s g was old rest halive hs hrun ha hm => does_intro halive rfl (doCompletionPost_armed hs hrun ha hm)⟩
  · exact ⟨fun hbad => does_bar h rfl (doDbTail_bad hbad),
      fun hi hz hfar => does_bar h rfl ((doDbTail_good hi hz).trans (if_pos hfar)),
      fun hi hz hfar => does_bar h rfl ((doDbTail_good hi hz).trans (if_neg (Nat.not_lt.mpr hfar))),
      fun hi => does_bar h rfl (if_pos hi),
      fun hi hon => does_bar h rfl (doDbIrq_arms hi hon)⟩
  · exact ⟨fun hh hgot hlen hor hs hwhat he hrun =>
        does_intro halive rfl (doDescriptorReadReturn_host hf hdue hh hgot hlen hor hs hwhat he hrun),
      fun hh hc => does_intro halive rfl (doDescriptorReadReturn_stale hf hdue hh hc)⟩
  · exact ⟨fun hh hc => does_intro halive rfl (doDmaReadReturn_stale hf hr hw hh hc),
      fun hh hc hs hp => does_intro halive rfl (doDmaReadReturn_hbm hf hr hw hh hc hs hp),
      fun b hh hb hgot hs => does_intro halive rfl (doDmaReadReturn_lastPiece hf hr hw hh hb hgot hs),
      fun b rest hh hb hmore hs => does_intro halive rfl (doDmaReadReturn_piece hf hr hw hh hb hmore hs)⟩

end Sys2Proof.Machine
end

section
/-!
PROOFS. The descriptor rows (O37): an equation for each row, and the refutation of the clause of BLOCK_DESCRIPTOR, whose block need not be
whole.
-/

namespace Sys2Proof.Machine

/-! ### Descriptors that are there -/

section
variable {ds : List Byte}

/-- A descriptor that could not be read counts as bad, and has no EOP. -/
theorem notEmpty_of_badRx (h : Dev.badRx ds = false) : ds.isEmpty = false := by
  cases ds with
  | nil => exact absurd h (by decide)
  | cons => rfl

theorem notEmpty_of_badTx (h : Dev.badTx ds = false) : ds.isEmpty = false := by
  cases ds with
  | nil => exact absurd h (by decide)
  | cons => rfl

theorem notEmpty_of_badCopy (h : Dev.badCopy ds = false) : ds.isEmpty = false := by
  cases ds with
  | nil => exact absurd h (by decide)
  | cons => rfl

theorem notEmpty_of_eop (h : bitOf (descWord ds 0) 62 = true) : ds.isEmpty = false := by
  cases ds with
  | nil => exact absurd h (by decide)
  | cons => rfl

end

/-! ### The rows that start a descriptor -/

section
variable {d : Dev} {g : Fin 4096} {i : Nat} {ds : List Byte} {rest : List (Nat × List Byte)} (hpre : (d.chan g).pre = (i, ds) :: rest)
include hpre

/-- A good receive descriptor is posted as a buffer (R343). -/
theorem doRxDescriptor_good (hcs : d.canStart g 1 = true) (hb : Dev.badRx ds = false)
    (ha : d.tAllowed g (descWord ds 1) (Dev.txLen ds) = true) :
    doRxDescriptor g d =
      (((d.takeDesc g i ds).spent g 1).modChan g fun c => { c with bufs := c.bufs ++ [(i, ds)] }).pump (g / 256) := by
  simp only [doRxDescriptor, hpre, hcs, hb, ha, notEmpty_of_badRx hb, Bool.not_true, Bool.false_eq_true, if_false, if_true]

/-- A copy descriptor with bad fields completes with BAD_DESC (R344). -/
theorem doCopyDescriptor_bad (hcs : d.canStart g 2 = true) (hact : (d.chan g).active = none) (hb : Dev.badCopy ds = true) :
    doCopyDescriptor g d = ((d.failDesc g i ds 4).spent g 1).pump (g / 256) := by
  simp only [doCopyDescriptor, hpre, hcs, hact, hb, Bool.or_true, Bool.not_true, Bool.false_eq_true, if_false, if_true]

/-- A copy descriptor that names no glaze job becomes the copy of its channel (R344). -/
theorem doCopyDescriptor_copies (hcs : d.canStart g 2 = true) (hact : (d.chan g).active = none) (hb : Dev.badCopy ds = false)
    (hsrc : d.tAllowed g (descWord ds 1) (bitsOf (descWord ds 0) 32 24) = true)
    (hdst : d.tAllowed g (descWord ds 2) (bitsOf (descWord ds 0) 32 24) = true) (hj : bitOf (descWord ds 0) 62 = false) :
    doCopyDescriptor g d =
      (((d.takeDesc g i ds).spent g 1).setActive g (some (.copy i ds (((d.takeDesc g i ds).spent g 1).chOffset g)
        (((d.takeDesc g i ds).spent g 1).chOffset g)))).pump (g / 256) := by
  simp only [doCopyDescriptor, hpre, hcs, hact, hb, hsrc, hdst, hj, notEmpty_of_badCopy hb, Bool.or_self, Bool.not_true,
    Bool.false_eq_true, if_false]

/-- A frame of one bad descriptor is refused (R341). -/
theorem doTxDescriptor_bad (hcs : d.canStart g 0 = true) (hact : (d.chan g).active = none) (hrest : rest = [])
    (hb : Dev.badTx ds = true) (heop : bitOf (descWord ds 0) 62 = true) (hup : Dev.upToEop [(i, ds)] = ([(i, ds)], true)) :
    doTxDescriptor g d = d.txRefuse g [(i, ds)] 4 := by
  subst hrest
  simp only [doTxDescriptor, hpre, hcs, hact, hup, hb, notEmpty_of_eop heop, List.length_singleton, List.any_cons, List.any_nil,
    Bool.or_false, Bool.not_true, Bool.false_and, Bool.false_eq_true, Bool.true_eq_false, or_false, if_false, if_true,
    show ¬ 16 < 1 by decide]

/-- A frame of one good descriptor gets its cells and becomes the frame of its channel (R341, R342). -/
theorem doTxDescriptor_takes {e f : Dev} {k : Nat} (hcs : d.canStart g 0 = true) (hact : (d.chan g).active = none) (hrest : rest = [])
    (hup : Dev.upToEop [(i, ds)] = ([(i, ds)], true)) (hb : Dev.badTx ds = false) (hden : d.txDenied g ds = false)
    (ha : d.tAllowed g (descWord ds 1) (Dev.txLen ds) = true)
    (htake : d.takeForeign (cellsOf (Nat.max 64 (Dev.txLen ds + 4) + 32)) = (true, e))
    (hadd : (e.mark (.admission 8)).addFrame { Frame.new (.dma g) [] 0 e.cycle with
        act := some { queue := bitsOf (descWord ds 2) 48 16, cls := bitsOf (descWord ds 0) 44 3
                      colour := .ofCode (bitsOf (descWord ds 0) 42 2)
                      xform := if bitOf (descWord ds 0) 61 then some (bitsOf (descWord ds 0) 47 14) else none }
        cells := cellsOf (Nat.max 64 (Dev.txLen ds + 4) + 32), cutThrough := some false } = (k, f)) :
    doTxDescriptor g d = (((f.takeDesc g i ds).setActive g (some (.tx [(i, ds)] k 0 0))).spent g 1).pump (g / 256) := by
  subst hrest
  have hcycle : (e.mark (.admission 8)).cycle = e.cycle := rfl
  simp only [doTxDescriptor, hpre, hcs, hact, hup, hb, hden, ha, htake, notEmpty_of_badTx hb, List.length_singleton, List.any_cons,
    List.any_nil, List.map_cons, List.map_nil, List.sum_cons, List.sum_nil, List.foldl_cons, List.foldl_nil, Nat.add_zero, hcycle, hadd,
    Bool.or_false, Bool.not_true, Bool.false_and, Bool.false_eq_true, Bool.true_eq_false, or_false, if_false, show ¬ 16 < 1 by decide]

end

/-! ### The rows that move a frame -/

section
variable {d : Dev} {g : Fin 4096}

/-- A frame that needs no transform and is not too long passes metering and admission (R342). -/
theorem doTxFrameAdmit_meters {ds : List (Nat × List Byte)} {fr : Nat} {f : Frame} {a : Actions} (hrun : d.chSt g = chRunning)
    (hact : (d.chan g).active = some (.txDone ds fr)) (hf : d.frame? fr = some f) (ha : f.act = some a) (hst : f.stage = .rx)
    (hx : a.xform = none) (hlen : f.len ≤ d.maxFrame (d.portOf a.queue)) :
    doTxFrameAdmit g d =
      let e := (d.setFrame fr { f with stage := .meter }).meterAndAdmit fr
      ((e.setActive g none).txFinish g ds (if (e.frame? fr).isSome then 0 else 1) true).pump (g / 256) := by
  have hgoes : ¬ (d.chSt g = chStopped ∨ d.chSt g = chResetting) := by
    rw [hrun]
    decide
  simp only [doTxFrameAdmit, if_neg hgoes, hact, hf, ha, hst, hx, Option.isSome_none, Bool.false_eq_true, and_false, reduceCtorEq,
    if_false, if_neg (Nat.not_lt.mpr hlen)]

/-- The frame of a receive channel once it has one: the frame it delivers already, or the next of its queue (R343). -/
def rxTakes (g fr dn us of : Nat) (u v : Dev) : Prop :=
  (u.chan g).active = some (.rx fr dn us of) ∧ v = u ∨
    (u.chan g).active = none ∧ dn = 0 ∧ us = 0 ∧ of = 0 ∧
      ∃ w, Dev.rxNext g (u.get (DMA_CH_QUEUE_QUEUE (g / 256) (g % 256))) 65536 u = (some fr, w) ∧
        v = w.setActive g (some (.rx fr 0 0 0))

/-- A running receive channel with a buffer writes of its frame what comes next, once it is granted and its rate lets it (R343, R352). -/
theorem doRxFrameDelivery_writes {fr dn us of : Nat} {f : Frame} {u v e : Dev} (hu : d.startDue = u)
    (heng : u.engRuns (g / 256) = true) (hrun : u.chSt g = chRunning) (hk : u.chKind g = 1) (hbufs : (u.chan g).bufs ≠ [])
    (htakes : rxTakes g fr dn us of u v) (he : v.pump (g / 256) = e) (hg : (e.chan g).grant = true)
    (hw : e.writeDue (g / 256) = true) (hact : (e.chan g).active = some (.rx fr dn us of))
    (hf : (e.modChan g fun c => { c with grant := false }).frame? fr = some f) :
    doRxFrameDelivery g d =
      let x := e.modChan g fun c => { c with grant := false }
      (x.rxWrite g fr f (x.rxBody g f) dn us of).pump (g / 256) := by
  have hne : (u.chan g).bufs.isEmpty = false := by rwa [List.isEmpty_eq_false_iff]
  have hgoes : (!(u.engRuns (g / 256) && u.chSt g == chRunning && u.chKind g == 1) || (u.chan g).bufs.isEmpty) = false := by
    rw [heng, hrun, hk, hne]
    decide
  obtain ⟨hcur, rfl⟩ | ⟨hnone, -, -, -, w, hnext, rfl⟩ := htakes
  · simp only [doRxFrameDelivery, hu, hgoes, hcur, he, hg, hw, hact, hf, Bool.and_self, Bool.not_true, Bool.false_eq_true, if_false]
  · simp only [doRxFrameDelivery, hu, hgoes, hnone, hnext, he, hg, hw, hact, hf, Bool.and_self, Bool.not_true, Bool.false_eq_true,
      if_false]

end

/-! ### The clause of BLOCK_DESCRIPTOR -/

/-- What the statement says of BLOCK_DESCRIPTOR: the block that the channel holds is handed over, however much of it is there. -/
def BlockHandedOver : Prop :=
  ∀ (s : State) (g : Fin 4096) (i : Nat) (ds : List Byte) (rest : List (Nat × List Byte)), s.dev.alive = true →
    (s.dev.chan g).pre = (i, ds) :: rest →
    ∀ bs, 3 ≤ s.dev.chKind g → s.dev.chKind g ≤ 6 → s.dev.canStart g (s.dev.chKind g) = true → Dev.badBlock ds = false →
      s.dev.tAllowed g (descWord ds 1) 128 = true → (s.dev.chan g).block = some (i, bs) →
      Does (.blockDescriptor g) s fun d =>
        d = ((((s.dev.takeDesc g i ds).spent g 1)).handOver (s.dev.jobOf g i (descWord ds 1) bs)).pump (g.val / 256)

/-- Every other clause holds. -/
theorem descriptorRows_iff : Obligations.DescriptorRows ↔ BlockHandedOver := by
  refine ⟨fun ⟨hrows, _⟩ s g i ds rest halive hpre => (hrows s g i ds rest halive hpre).2.2.2.1, fun hblock =>
    ⟨fun s g i ds rest halive hpre => ?_, fun s g ds fr f a halive hrun hact hf ha hst hx hlen =>
      does_intro halive rfl (doTxFrameAdmit_meters hrun hact hf ha hst hx hlen),
    fun s g fr dn us of f u v e halive hu heng hrun hk hbufs htakes he hg hw hact hf =>
      does_intro halive rfl (doRxFrameDelivery_writes hu heng hrun hk hbufs htakes he hg hw hact hf)⟩⟩
  exact ⟨fun hcs hb ha => does_intro halive rfl (doRxDescriptor_good hpre hcs hb ha),
    fun hcs hact hb => does_intro halive rfl (doCopyDescriptor_bad hpre hcs hact hb),
    fun hcs hact hb hsrc hdst hj => does_intro halive rfl (doCopyDescriptor_copies hpre hcs hact hb hsrc hdst hj),
    hblock s g i ds rest halive hpre,
    fun hcs hact hrest heop hb hup => does_intro halive rfl (doTxDescriptor_bad hpre hcs hact hrest hb heop hup),
    fun e k f hcs hact hrest hup hb hden ha htake hadd =>
      does_intro halive rfl (doTxDescriptor_takes hpre hcs hact hrest hup hb hden ha htake hadd)⟩

/-- A descriptor of a block at 0x1000. -/
def blockDesc : List Byte := leBytes 8 0 ++ leBytes 8 0x1000 ++ leBytes 8 0 ++ leBytes 8 0

/-- The manager's channel 0 is a running TABLE channel at that descriptor, and of its block no byte is there. -/
def emptyBlockState : State :=
  { State.reset with dev :=
    (((((Dev.reset.put (DMA_CH_OWNER_MANAGER 0 0) 1).put (DMA_CH_CFG_KIND 0 0) 3).put (DMA_ENG_CTRL_ENABLE 0) 1).put
      (DMA_CH_STATUS_STATE 0 0) 1).setChan 0 { Chan.reset with pre := [(0, blockDesc)], block := some (0, []) }) }

/-- The model waits for the whole block. -/
theorem blockDescriptor_emptyBlockState_waits {t : State} (h : exec (.blockDescriptor 0) emptyBlockState = .next t) :
    (t.dev.chan 0).pre.length = 1 := by
  have halive : emptyBlockState.dev.alive = true := by decide +kernel
  have heffect : emptyBlockState.effect (doBlockDescriptor 0) = .next t := h
  rw [effect_alive halive] at heffect
  cases heffect
  decide +kernel

/-- In `emptyBlockState` the clause fails. -/
theorem not_blockHandedOver : ¬ BlockHandedOver := by
  intro hblock
  obtain ⟨t, ht, -, hdev⟩ := hblock emptyBlockState 0 0 blockDesc [] (by decide +kernel) (by decide +kernel) [] (by decide +kernel)
    (by decide +kernel) (by decide +kernel) (by decide +kernel) (by decide +kernel) (by decide +kernel)
  have hwaits := blockDescriptor_emptyBlockState_waits ht
  rw [hdev] at hwaits
  exact absurd hwaits (by decide +kernel)

/-- Refutes O37, in the clause of BLOCK_DESCRIPTOR: the model hands a block over once its 128 bytes are there (R345), and the statement
asks for no byte of it: in `emptyBlockState` the model leaves the descriptor where it stands. Every other clause holds. -/
theorem not_descriptorRows : ¬ Obligations.DescriptorRows :=
  fun h => not_blockHandedOver (descriptorRows_iff.mp h)

end Sys2Proof.Machine
end

section
/-!
PROOFS. The saggar operations (O39): what each operation of SAG_CTRL does on a saggar that accepts it.
-/

namespace Sys2Proof.Machine

section
variable {dv e : Dev} {p : Path} {n : Fin 2048} {data : W32}

/-- CREATE judges the ranges first, then the function (R364, R365). -/
theorem doSagCreate_ready (h : sagReady dv p n data 1 0 e) :
    doSagCreate p n data dv =
      if e.noResource n = true then e.sagEnd n Dev.sgNoResource
      else if e.badFunc n = true then e.sagEnd n Dev.sgBadFunc
      else (((e.createSag n).setSgState n 1).syncUsed n).sagEnd n Dev.sgOk := doSag_ready h rfl

/-- DESTROY and RESET begin the same reset (R363, R374). -/
theorem doSagDestroy_ready (h : sagReady dv p n data 2 1 e) :
    doSagDestroy p n data dv = (e.sagBegin n 2 (fieldGet data 0 12)).sagResetStart n true := doSag_ready h rfl

theorem doSagReset_ready (h : sagReady dv p n data 3 1 e) :
    doSagReset p n data dv = (e.sagBegin n 3 (fieldGet data 0 12)).sagResetStart n false := doSag_ready h rfl

/-- FREEZE: the channels pause, the jobs that have not started go back, the waits of the threads end and the contexts leave the cache
(R376). -/
theorem doSagFreeze_ready {t0 t u v0 v : Dev} {js : List Job} (h : sagReady dv p n data 4 1 e)
    (ht0 : (e.sagBegin n 4 (fieldGet data 0 12)).setSgState n 2 = t0)
    (ht : (t0.sagChans n).foldl (fun d g => d.setPause g srcSaggar true) t0 = t) (hw : t.withdrawJobs n = (js, u))
    (hv0 : u.backJobs n js = v0)
    (hv : (Dev.rangeOf ((v0.sagRanges n).getD 5 (0, 0))).foldl
      (fun d t => if (Dev.waitSince (d.thread t).wait).isSome then d.unstall t else d) v0 = v) :
    doSagFreeze p n data dv = { v with glz := { v.glz with
      kc := tabMapAll (fun _ => .reset) v.glz.kc fun i c =>
        if Dev.inRangeOf (v.get (SAG_KC_BASE_BASE n), v.get (SAG_KC_COUNT_COUNT n)) i then { c with cached := false } else c } } := by
  rw [doSagFreeze, doSag_ready h rfl]
  simp only [ht0, ht, hw, hv0, hv]

/-- THAW (R378). -/
theorem doSagThaw_ready {t : Dev} (h : sagReady dv p n data 5 3 e) (ht : (e.setSgState n 1).put (SAG_STATUS_SAVED n) 0 = t) :
    doSagThaw p n data dv =
      ((((t.sagChans n).foldl (fun d g => d.setPause g srcSaggar false) t).handHeld n).svcResume n).sagEnd n Dev.sgOk := by
  rw [doSagThaw, doSag_ready h rfl]
  simp only [ht]

/-- The device with channel `g` given to saggar `n` (R367). -/
def allotted (e : Dev) (n g : Nat) : Dev :=
  let t := (e.put (DMA_CH_OWNER_MANAGER (g / 256) (g % 256)) 0).put (DMA_CH_OWNER_OWNER (g / 256) (g % 256)) n
  ((t.put (DMA_CH_CFG_LINK (g / 256) (g % 256)) (t.sagLink n)).put (DMA_CH_CFG_FUNC (g / 256) (g % 256)) (t.sagFunc n)).modChan g
    fun x => { x with allot := some n }

/-- A channel is allotted while it is in set-up and free, and the saggar may have one more (R367). -/
theorem doSagAllotCh_ready {g : Nat} (h : sagReady dv p n data 8 1 e) (hg : fieldGet data 0 12 = g) (hst : e.chSt g = chSetup)
    (hfree : (e.chan g).allot = none) (hroom : e.get (SAG_CH_CH_USED n) < e.get (SAG_CH_CH_MAX n)) :
    doSagAllotCh p n data dv =
      ((allotted e n g).put (SAG_CH_CH_USED n) ((allotted e n g).get (SAG_CH_CH_USED n) + 1)).sagEnd n Dev.sgOk := by
  rw [doSagAllotCh, doSag_ready h rfl, hg]
  refine if_neg ?_
  rw [hst, hfree]
  exact not_or.mpr ⟨not_not.mpr rfl, not_or.mpr ⟨Bool.false_ne_true, Nat.not_le.mpr hroom⟩⟩

/-- FREE_CH begins the reset of a channel of the saggar (R367). -/
theorem doSagFreeCh_ready (h : sagReady dv p n data 9 1 e) (hmine : (e.chan (fieldGet data 0 12)).allot = some n.val) :
    doSagFreeCh p n data dv = ((e.sagBegin n 9 (fieldGet data 0 12)).chanReset (fieldGet data 0 12)).sagOpGo n := by
  rw [doSagFreeCh, doSag_ready h rfl]
  exact if_neg (not_not.mpr hmine)

/-- A FREE_CH ends once the bump of its channel is done (R36, R367). -/
theorem sagOpGo_freeCh {d : Dev} {n g c : Nat} (h : (d.sagOf n).op = some (9, g, c)) :
    d.sagOpGo n = if d.bumpPending (.chan g) = true then d else d.freedCh n g := by
  simp only [Dev.sagOpGo, h]

/-- DIRTY_START and DIRTY_STOP (R383). -/
theorem doSagDirtyStart_ready (h : sagReady dv p n data 10 1 e) :
    doSagDirtyStart p n data dv = ((e.modSag n fun x => { x with dirty := [] }).put (SAG_STATUS_DIRTY_ON n) 1).sagEnd n Dev.sgOk :=
  doSag_ready h rfl

theorem doSagDirtyStop_ready (h : sagReady dv p n data 12 1 e) :
    doSagDirtyStop p n data dv = (e.put (SAG_STATUS_DIRTY_ON n) 0).sagEnd n Dev.sgOk := doSag_ready h rfl

/-- DIRTY_READ writes the log through the image channel, and clears it (R383). -/
theorem doSagDirtyRead_ready {u : Dev} (h : sagReady dv p n data 11 1 e)
    (hu : (e.modSag n fun x => { x with dirty := [] }).eventWrite (e.get (SAG_IMG_CFG_CHANNEL n))
      (e.get (SAG_DIRTY_ADDR_LO_ADDR n) + e.get (SAG_DIRTY_ADDR_HI_ADDR n) * 2 ^ 32)
      ((List.range (64 * e.get (SAG_HBM_PAGES_PAGES n))).map fun i => tabGet (fun _ => 0#8) (e.sagOf n).dirty i) = some u) :
    doSagDirtyRead p n data dv = u.sagEnd n Dev.sgOk := by
  rw [doSagDirtyRead, doSag_ready h rfl]
  simp only [hu]

end

/-- Settles O39, by what each operation does on a saggar that accepts it. That CREATE answers NO_RESOURCE whatever its function is, is the
model's order of checks (notes/assumptions/16). -/
theorem saggarOperations : Obligations.SaggarOperations := by
  intro s dv p n data e h
  have hout := sagCtrl_outside n
  refine ⟨fun hr hres hf => ?_, fun hr hres => does_plain h hout rfl ((doSagCreate_ready hr).trans (if_pos hres)),
    fun hr => does_plain h hout rfl (doSagDestroy_ready hr), fun hr => does_plain h hout rfl (doSagReset_ready hr),
    fun t0 t js u v0 v hr ht0 ht hw hv0 hv => does_plain h hout rfl (doSagFreeze_ready hr ht0 ht hw hv0 hv),
    fun t hr ht => does_plain h hout rfl (doSagThaw_ready hr ht),
    fun hr hst hfree hroom => does_plain h hout rfl (doSagAllotCh_ready hr rfl hst hfree hroom),
    fun hr hmine => does_plain h hout rfl (doSagFreeCh_ready hr hmine),
    fun d g c hop => ⟨fun hb => (sagOpGo_freeCh hop).trans (if_pos hb),
      fun hb => (sagOpGo_freeCh hop).trans (if_neg (Bool.eq_false_iff.mp hb))⟩,
    fun hr => does_plain h hout rfl (doSagDirtyStart_ready hr),
    fun t u hr ht hu _ => does_plain h hout rfl (doSagDirtyRead_ready hr (ht ▸ hu)),
    fun hr => does_plain h hout rfl (doSagDirtyStop_ready hr)⟩
  rw [← Bool.not_eq_true] at hres hf
  exact does_plain h hout rfl ((doSagCreate_ready hr).trans ((if_neg hres).trans (if_neg hf)))

end Sys2Proof.Machine
end

section
/-!
PROOFS. An emulated controller (O41, O42): its doorbells and its registers, and the admin commands.
-/

namespace Sys2Proof.Machine

/-! ### What a change of a controller leaves -/

namespace Dev

theorem nvme_modNvme_self (d : Dev) (s : Nat) (f : Nvme → Nvme) : (d.modNvme s f).nvme s = f (d.nvme s) :=
  tabGet_set_self _ _ _ _

theorem modNvme_ns (d : Dev) (s : Nat) (f : Nvme → Nvme) : (d.modNvme s f).sto.ns = d.sto.ns := rfl

theorem modNvme_congr {d : Dev} {s : Nat} {f g : Nvme → Nvme} (h : f (d.nvme s) = g (d.nvme s)) : d.modNvme s f = d.modNvme s g :=
  congrArg (d.setNvme s) h

/-- Only the storage service is changed. -/
theorem modNvme_frame (d : Dev) (s : Nat) (f : Nvme → Nvme) : d.modNvme s f = { d with sto := (d.modNvme s f).sto } := rfl

/-- No entry, and the table of the namespaces keeps nothing to change. -/
theorem setSto_ns_nil {d : Dev} (h : d.sto.ns = []) (g : Nat → NsEnt → NsEnt) :
    (d.setSto fun t => { t with ns := tabMapAll (fun _ => .reset) t.ns g }) = d := by
  have hsto : { d.sto with ns := tabMapAll (fun _ => NsEnt.reset) d.sto.ns g } = d.sto := by
    rw [h]
    exact (congrArg (fun x => { d.sto with ns := x }) h.symm)
  exact congrArg (fun x => { d with sto := x }) hsto

end Dev

/-! ### Doorbells and registers (R387, R388) -/

section
variable {d : Dev} {n : Fin 2048} {data : W32}

/-- A tail of a queue of a ready controller (R387). -/
theorem doSqTailDoorbell_queue {y : Fin 65} {q : Sq} (hon : d.ctlOn n = true) (hr : (d.nvme n).rdy = true)
    (hq : tabGet (fun _ => none) (d.nvme n).sqs y = some q) :
    doSqTailDoorbell n y data d =
      if q.size ≤ fieldGet data 0 16 then d.postEvent n 0 1 1
      else d.modNvme n fun c => { c with sqs := tabSet (fun _ => none) c.sqs y (some { q with tail := fieldGet data 0 16 }) } := by
  simp only [doSqTailDoorbell, hon, hr, hq, Bool.and_self, Bool.not_true, Bool.false_eq_true, if_false]

/-- A head within the queue frees entries (R387). -/
theorem doCqHeadDoorbell_frees {y : Fin 65} {q : Cq} (hon : d.ctlOn n = true) (hr : (d.nvme n).rdy = true)
    (hq : tabGet (fun _ => none) (d.nvme n).cqs y = some q) (hv : fieldGet data 0 16 < q.size) :
    doCqHeadDoorbell n y data d = Dev.postCqes n 4096 (d.modNvme n fun c => { c with
      cqs := tabSet (fun _ => none) c.cqs y (some { q with head := fieldGet data 0 16 }) }) := by
  simp only [doCqHeadDoorbell, hon, hr, hq, Bool.and_self, Bool.not_true, Bool.false_eq_true, if_false, if_neg (Nat.not_le.mpr hv)]

/-- A value of CC with EN = 1 and the sizes of R387 makes the controller ready, with its admin queues; with no namespace there is no
journal to resume. -/
theorem doCcEnable_on {e : Dev} (hon : d.ctlOn n = true) (hwas : bitOf (d.nvme n).cc 0 = false) (hv : data = 0x00460001)
    (hns : d.sto.ns = [])
    (he : (d.modNvme n fun c => { c with cc := 1 + bitsOf c.cc 14 2 * 2 ^ 14 + 0x46 * 2 ^ 16 }) = e) :
    doCcEnable n data d = e.modNvme n fun c => { c with
      rdy := true
      sqs := [(0, some ⟨c.asq / 4096 * 4096, bitsOf c.aqa 0 12 + 1, 0, 0, 0⟩)]
      cqs := [(0, some ⟨c.acq / 4096 * 4096, bitsOf c.aqa 16 12 + 1, true, 0, 0, 0, true⟩)] } := by
  subst hv
  have hbits : bitsOf 0x460001 0 1 = 1 ∧ bitsOf 0x460001 4 10 = 0 ∧ bitsOf 0x460001 16 8 = 0x46 := by decide
  have hgood : ccGood 0x460001 = true := by decide
  have hen : bitOf 0x460001 0 = true := by decide
  have hens : e.sto.ns = [] := by rw [← he, Dev.modNvme_ns, hns]
  have hnat : (0x00460001 : W32).toNat = 0x460001 := rfl
  obtain ⟨hb0, hb4, hb16⟩ := hbits
  simp only [doCcEnable, hon, hnat, hwas, hb0, hb4, hb16, hgood, hen, Nat.zero_mul, Nat.add_zero, he, Dev.modNvme_ns, hens,
    List.filter_nil, List.foldl_nil, Bool.not_true, Bool.not_false, Bool.and_self, Bool.and_false, Bool.false_eq_true, if_false, if_true]

/-- EN = 0 clears an enabled controller (R387). -/
theorem doCcEnable_off (hon : d.ctlOn n = true) (hwas : bitOf (d.nvme n).cc 0 = true) (hv : data = 0) :
    doCcEnable n data d = (d.modNvme n fun c => { c with cc := bitsOf c.cc 14 2 * 2 ^ 14 }).ctlClear n := by
  subst hv
  have hbits (lo width : Nat) : bitsOf 0 lo width = 0 := by simp [bitsOf]
  have hdis : bitOf 0 0 = false := by decide
  have hnat : (0 : W32).toNat = 0 := rfl
  simp only [doCcEnable, hon, hnat, hwas, hbits, hdis, Nat.zero_mul, Nat.zero_add, Nat.add_zero, Bool.not_true, Bool.not_false,
    Bool.false_and, Bool.and_self, Bool.false_eq_true, if_false, if_true]

/-- CC with its field SHN replaced. -/
def ccShn (cc shn : Nat) : Nat := cc - bitsOf cc 14 2 * 2 ^ 14 + shn * 2 ^ 14

theorem ccShn_shn {cc shn : Nat} (h : shn < 4) : bitsOf (ccShn cc shn) 14 2 = shn := by
  simp only [ccShn, bitsOf]
  omega

theorem ccShn_below (cc shn : Nat) : bitsOf (ccShn cc shn) 0 14 = bitsOf cc 0 14 := by
  simp only [ccShn, bitsOf]
  omega

/-- An abrupt shutdown of a clean cache is complete at once (R387). -/
theorem doCcShutdown_abrupt (hon : d.ctlOn n = true) (hshn : fieldGet data 14 2 = 2) (hst : (d.nvme n).shst = 0)
    (hc : Dev.dirty (d.nvme n) = []) :
    doCcShutdown n data d = (d.modNvme n fun c => { c with cc := ccShn c.cc 2 }).modNvme n fun c => { c with shst := 2 } := by
  have hcc : ((d.modNvme n fun c => { c with cc := ccShn c.cc 2 }).nvme n).shst = 0 := by rw [Dev.nvme_modNvme_self, hst]
  have hclean : Dev.dirty ((d.modNvme n fun c => { c with cc := ccShn c.cc 2 }).nvme n) = [] := by
    rw [Dev.nvme_modNvme_self]
    exact hc
  have hset : (d.modNvme n fun c => { c with cc := ccShn c.cc 2 }).modNvme n
      (fun c => { c with shst := if (Dev.dirty c).isEmpty = true then 2 else 1 }) =
      (d.modNvme n fun c => { c with cc := ccShn c.cc 2 }).modNvme n fun c => { c with shst := 2 } :=
    Dev.modNvme_congr (by simp only [hclean, List.isEmpty_nil, if_true])
  unfold ccShn at hcc hset
  simp only [doCcShutdown, hon, hshn, Bool.not_true, Bool.false_eq_true, if_false, hcc, hset, show ¬ (2 : Nat) = 0 by decide,
    show ¬ (2 : Nat) = 1 by decide, ne_eq, not_true_eq_false, or_self]
  rfl

end

/-- Settles O41, by the equation of each row. That the controller is ready in the step of the write, and the layout of CC and the codes of
the events, are the model's choice (notes/assumptions/34, 40). -/
theorem controllerRows : Obligations.ControllerRows := by
  refine ⟨fun s dv n y data q h hon hr hq =>
      ⟨fun hv => does_bar h rfl ((doSqTailDoorbell_queue hon hr hq).trans (if_neg (Nat.not_le.mpr hv))),
        fun hv => does_bar h rfl ((doSqTailDoorbell_queue hon hr hq).trans (if_pos hv))⟩,
    fun s dv n y data q h hon hr hq hv => does_bar h rfl (doCqHeadDoorbell_frees hon hr hq hv),
    fun s dv n data h hon hwas hv hns => does_bar h rfl (doCcEnable_on hon hwas hv hns rfl),
    fun s dv n data h hon hwas hv => does_bar h rfl (doCcEnable_off hon hwas hv),
    fun s dv n data h hon hshn hst hc => does_bar h rfl ?_⟩
  rw [doCcShutdown_abrupt hon hshn hst hc]
  refine ⟨?_, ?_, ?_, ?_⟩
  · rw [Dev.nvme_modNvme_self]
  · rw [Dev.nvme_modNvme_self, Dev.nvme_modNvme_self]
    exact ccShn_shn (by decide)
  · rw [Dev.nvme_modNvme_self, Dev.nvme_modNvme_self]
    exact ccShn_below _ _
  · exact (Dev.modNvme_frame _ _ _).trans (by rw [Dev.modNvme_frame dv])

/-! ### Admin commands (R390, R397, R398) -/

section
variable {d e : Dev} {n : Fin 2048} {sqe : List Byte} {x : NvmeCmd} (hgood : sqeBad x.sqe = false)
include hgood

/-- Create I/O Submission Queue with good fields (R390). -/
theorem doNvmeCreateIoSq_good {qid size cq : Nat} (ht : d.takeCmd n 0 0x01 sqe = some (x, e))
    (hqid : bitsOf (cdw x.sqe 10) 0 16 = qid) (hsize : bitsOf (cdw x.sqe 10) 16 16 = size) (hcq : bitsOf (cdw x.sqe 11) 16 16 = cq)
    (hq1 : 1 ≤ qid) (hq64 : qid ≤ 64) (hnew : tabGet (fun _ => none) (e.nvme n).sqs qid = none) (hc1 : 1 ≤ cq) (hc64 : cq ≤ 64)
    (hhas : tabGet (fun _ => none) (e.nvme n).cqs cq ≠ none) (hs1 : 1 ≤ size) (hs : size ≤ 4095) (hpc : bitOf (cdw x.sqe 11) 0 = true) :
    doNvmeCreateIoSq n sqe d = (e.modNvme n fun c => { c with
      sqs := tabSet (fun _ => none) c.sqs qid (some ⟨fieldLE x.sqe 24 8, size + 1, cq, 0, 0⟩) }).done n x 0 nvOk := by
  unfold doNvmeCreateIoSq
  simp only [ht, hgood, hqid, hsize, hcq, hnew, hhas, hpc, Nat.ne_of_gt hq1, Nat.not_lt.mpr hq64, Nat.ne_of_gt hc1,
    Nat.not_lt.mpr hc64, Nat.ne_of_gt hs1, Nat.not_lt.mpr hs, ne_eq, not_true_eq_false, Bool.false_eq_true, Bool.true_eq_false, or_self,
    if_false]

/-- Create I/O Completion Queue with good fields (R390). -/
theorem doNvmeCreateIoCq_good {qid size vec : Nat} (ht : d.takeCmd n 0 0x05 sqe = some (x, e))
    (hqid : bitsOf (cdw x.sqe 10) 0 16 = qid) (hsize : bitsOf (cdw x.sqe 10) 16 16 = size) (hvec : bitsOf (cdw x.sqe 11) 16 16 = vec)
    (hq1 : 1 ≤ qid) (hq64 : qid ≤ 64) (hnew : tabGet (fun _ => none) (e.nvme n).cqs qid = none) (hs1 : 1 ≤ size) (hs : size ≤ 4095)
    (hpc : bitOf (cdw x.sqe 11) 0 = true) (hv : vec < e.msixSize (e.sagLink n) (e.sagFunc n)) :
    doNvmeCreateIoCq n sqe d = (e.modNvme n fun c => { c with
      cqs := tabSet (fun _ => none) c.cqs qid
        (some ⟨fieldLE x.sqe 24 8, size + 1, bitOf (cdw x.sqe 11) 1, vec, 0, 0, true⟩) }).done n x 0 nvOk := by
  unfold doNvmeCreateIoCq
  simp only [ht, hgood, hqid, hsize, hvec, hnew, hpc, Nat.ne_of_gt hq1, Nat.not_lt.mpr hq64, Nat.ne_of_gt hs1,
    Nat.not_lt.mpr hs, Nat.not_le.mpr hv, ne_eq, not_true_eq_false, Bool.false_eq_true, Bool.true_eq_false, or_self, if_false]

omit hgood in
/-- Delete I/O Submission Queue of a queue that is not there (R390). -/
theorem doNvmeDeleteIoSq_none (ht : d.takeCmd n 0 0x00 sqe = some (x, e))
    (hq : tabGet (fun _ => none) (e.nvme n).sqs (bitsOf (cdw x.sqe 10) 0 16) = none) :
    doNvmeDeleteIoSq n sqe d = e.done n x 0 (nvSt 1 0x01) := by
  unfold doNvmeDeleteIoSq
  simp only [ht, hq, or_true, if_true]

omit hgood in
/-- Delete I/O Submission Queue of a queue without a command, where no journal holds one either (R390). -/
theorem doNvmeDeleteIoSq_idle {qid : Nat} (ht : d.takeCmd n 0 0x00 sqe = some (x, e)) (hqid : bitsOf (cdw x.sqe 10) 0 16 = qid)
    (hq1 : 1 ≤ qid) (hq : tabGet (fun _ => none) (e.nvme n).sqs qid ≠ none) (hidle : ((e.nvme n).cmds.filter fun y => y.sq == qid) = [])
    (hns : e.sto.ns = []) :
    doNvmeDeleteIoSq n sqe d = (e.modNvme n fun c => { c with sqs := tabSet (fun _ => none) c.sqs qid none }).done n x 0 nvOk := by
  unfold doNvmeDeleteIoSq
  simp only [ht, hqid, Nat.ne_of_gt hq1, hq, or_self, if_false, hidle, List.foldl_nil, Dev.setSto_ns_nil hns]

omit hgood in
/-- Delete I/O Completion Queue that no submission queue posts to (R390). -/
theorem doNvmeDeleteIoCq_unused {qid : Nat} (ht : d.takeCmd n 0 0x04 sqe = some (x, e)) (hqid : bitsOf (cdw x.sqe 10) 0 16 = qid)
    (hq1 : 1 ≤ qid) (hq : tabGet (fun _ => none) (e.nvme n).cqs qid ≠ none)
    (hfree : ((e.nvme n).sqs.all fun kv => (kv.2.map (·.cq)).getD 0 != qid) = true) :
    doNvmeDeleteIoCq n sqe d = (e.modNvme n fun c => { c with cqs := tabSet (fun _ => none) c.cqs qid none }).done n x 0 nvOk := by
  rw [List.all_eq_true] at hfree
  unfold doNvmeDeleteIoCq
  simp only [ht, hqid, Nat.ne_of_gt hq1, hq, or_self, if_false]
  refine if_neg fun hany => ?_
  obtain ⟨⟨k, y⟩, hmem, hposts⟩ := List.any_eq_true.mp hany
  cases y with
  | none => exact Bool.false_ne_true hposts
  | some q => exact bne_iff_ne.mp (hfree _ hmem) (eq_of_beq hposts)

/-- Get Log Page of a page that is there, of at most 256 KiB (R390). -/
theorem doNvmeGetLogPage_page {prps : List Nat} {lid len : Nat} (ht : d.takeCmd n 0 0x02 sqe = some (x, e))
    (hlid : bitsOf (cdw x.sqe 10) 0 8 = lid) (hpage : lid ∈ logPages)
    (hlen : (bitsOf (cdw x.sqe 10) 16 16 + bitsOf (cdw x.sqe 11) 0 16 * 2 ^ 16 + 1) * 4 = len) (hmax : len ≤ 262144) :
    doNvmeGetLogPage n sqe prps d =
      let f := e.freeBytes len
      Dev.giveData f.2 n x prps (f.2.logPage n lid (sqeNsid x.sqe) (cdw x.sqe 12 + cdw x.sqe 13 * 2 ^ 32) len f.1)
        (fun st d => if st = nvOk then
          Dev.pumpEvents n 8 ((d.modNvme n fun c => { c with
            changed := if lid = 0x04 then [] else c.changed
            log := if lid = 0xC0 then [] else c.log
            logLost := if lid = 0xC0 then false else c.logLost
            masked := if bitOf (cdw x.sqe 10) 15 then c.masked else c.masked.filter (fun m => m % 256 != lid) }).done n x 0 st)
          else d.done n x 0 st) := by
  have hhas : logPages.contains lid = true := List.contains_iff_mem.mpr hpage
  unfold doNvmeGetLogPage
  simp only [ht, hgood, hlid, hlen, hhas, Nat.not_lt.mpr hmax, Bool.not_true, Bool.false_eq_true, or_self, if_false]

/-- Identify of the active namespaces (R390). -/
theorem doNvmeIdentify_active {prps : List Nat} (ht : d.takeCmd n 0 0x06 sqe = some (x, e)) (hcns : bitsOf (cdw x.sqe 10) 0 8 = 2) :
    doNvmeIdentify n sqe prps d = Dev.giveData (e.freeBytes 4096).2 n x prps
      (sliceB (((List.range 17).filter fun i => decide (sqeNsid x.sqe < i) && ((e.freeBytes 4096).2.nsFind n i).isSome).flatMap
        (leBytes 4 ·)) 0 4096) (fun st d => d.done n x 0 st) := by
  unfold doNvmeIdentify
  simp only [ht, hgood, hcns, show ¬ 3 < 2 by decide, Bool.false_eq_true, or_self, if_false]

omit hgood in
/-- Abort of a command of a queue that is not there, and that is not in progress, behind at most three others (R398). -/
theorem doNvmeAbort_missed {sqid cid : Nat} (ht : d.takeCmd n 0 0x08 sqe = some (x, e)) (hsq : bitsOf (cdw x.sqe 10) 0 16 = sqid)
    (hcid : bitsOf (cdw x.sqe 10) 16 16 = cid) (hq : tabGet (fun _ => none) (e.nvme n).sqs sqid = none)
    (hnone : ((e.nvme n).cmds.find? fun y => y.sq == sqid && y.cid == cid && !(y.sq == x.sq && y.cid == x.cid)) = none)
    (hfew : ((e.nvme n).cmds.filter fun y => y.sq == 0 && y.wait == .queued && fieldLE y.sqe 0 1 == 0x08).length ≤ 4) :
    doNvmeAbort n sqe [] d = (e.inc STO_CNT_ABORT_MISSED).done n x 1 nvOk := by
  unfold doNvmeAbort
  simp only [ht, hsq, hcid, hq, List.drop_eq_nil_of_le hfew, List.foldl_nil, hnone]

/-- Set Features of the feature `fid`, which is not saved (R390). -/
theorem doNvmeSetFeatures_aec (ht : d.takeCmd n 0 0x09 sqe = some (x, e)) (hsv : bitOf (cdw x.sqe 10) 31 = false)
    (hf : bitsOf (cdw x.sqe 10) 0 8 = 0x0B) :
    doNvmeSetFeatures n sqe d = (e.modNvme n fun c => { c with aec := cdw x.sqe 11 }).done n x 0 nvOk := by
  unfold doNvmeSetFeatures
  simp only [ht, hgood, hsv, hf, Bool.false_eq_true, if_false]

theorem doNvmeSetFeatures_vwc (ht : d.takeCmd n 0 0x09 sqe = some (x, e)) (hsv : bitOf (cdw x.sqe 10) 31 = false)
    (hf : bitsOf (cdw x.sqe 10) 0 8 = 0x06) :
    doNvmeSetFeatures n sqe d = (e.modNvme n fun c => { c with vwc := bitOf (cdw x.sqe 11) 0 }).done n x 0 nvOk := by
  unfold doNvmeSetFeatures
  simp only [ht, hgood, hsv, hf, Bool.false_eq_true, if_false]

/-- Get Features answers the value in force (R390). -/
theorem doNvmeGetFeatures_aec (ht : d.takeCmd n 0 0x0A sqe = some (x, e)) (hf : bitsOf (cdw x.sqe 10) 0 8 = 0x0B) :
    doNvmeGetFeatures n sqe d = e.done n x (e.nvme n).aec nvOk := by
  unfold doNvmeGetFeatures
  simp only [ht, hgood, hf, Bool.false_eq_true, if_false]

theorem doNvmeGetFeatures_vwc (ht : d.takeCmd n 0 0x0A sqe = some (x, e)) (hf : bitsOf (cdw x.sqe 10) 0 8 = 0x06) :
    doNvmeGetFeatures n sqe d = e.done n x (b2n (e.nvme n).vwc) nvOk := by
  unfold doNvmeGetFeatures
  simp only [ht, hgood, hf, Bool.false_eq_true, if_false]

/-- Four Asynchronous Event Requests may be outstanding (R390). -/
theorem doNvmeAsyncEventRequest_good (ht : d.takeCmd n 0 0x0C sqe = some (x, e)) :
    doNvmeAsyncEventRequest n sqe d =
      if 4 ≤ ((e.nvme n).cmds.filter fun y => y.wait == .aer).length then e.done n x 0 (nvSt 1 0x05)
      else Dev.pumpEvents n 8 (e.waitFor n x .aer) := by
  unfold doNvmeAsyncEventRequest
  simp only [ht, hgood, Bool.false_eq_true, if_false]

end

/-- Settles O42, by the equation of each command. The layouts of queue entries and log pages and the status codes are the model's choice
(notes/assumptions/40). -/
theorem adminCommands : Obligations.AdminCommands := by
  intro s n sqe x e halive hgood
  refine ⟨fun ht hq1 hq64 hnew hc1 hc64 hhas hs1 hs hpc => ?_, fun ht hq1 hq64 hnew hs1 hs hpc hv => ?_,
    fun ht hq => does_intro halive rfl (doNvmeDeleteIoSq_none ht hq),
    fun ht hq1 hq hidle hns => does_intro halive rfl (doNvmeDeleteIoSq_idle ht rfl hq1 hq hidle hns),
    fun ht hq1 hq hfree => does_intro halive rfl (doNvmeDeleteIoCq_unused ht rfl hq1 hq hfree),
    fun prps lid ht hlid hpage hmax => does_intro halive rfl (doNvmeGetLogPage_page hgood ht hlid hpage rfl hmax),
    fun prps ht hcns => does_intro halive rfl (doNvmeIdentify_active hgood ht hcns),
    fun ht hq hnone hfew => does_intro halive rfl (doNvmeAbort_missed ht rfl rfl hq hnone hfew),
    fun ht hsv => ⟨fun hf => does_intro halive rfl (doNvmeSetFeatures_aec hgood ht hsv hf),
      fun hf => does_intro halive rfl (doNvmeSetFeatures_vwc hgood ht hsv hf)⟩,
    fun ht => ⟨fun hf => does_intro halive rfl (doNvmeGetFeatures_aec hgood ht hf),
      fun hf => does_intro halive rfl (doNvmeGetFeatures_vwc hgood ht hf)⟩,
    fun ht hfew => does_intro halive rfl ((doNvmeAsyncEventRequest_good hgood ht).trans (if_neg (Nat.not_le.mpr hfew))),
    fun ht hfull => does_intro halive rfl ((doNvmeAsyncEventRequest_good hgood ht).trans (if_pos hfull))⟩
  · exact does_intro halive rfl (doNvmeCreateIoSq_good hgood ht rfl rfl rfl hq1 hq64 hnew hc1 hc64 hhas hs1 hs hpc)
  · exact does_intro halive rfl (doNvmeCreateIoCq_good hgood ht rfl rfl rfl hq1 hq64 hnew hs1 hs hpc hv)

end Sys2Proof.Machine
end

section
/-!
PROOFS. The I/O commands of an emulated controller (O43): how a command goes on, what becomes of the blocks that it stores, and an equation
for each command.
-/

namespace Sys2Proof.Machine

/-! ### How a command goes on -/

/-- Nothing of the command that the operands name is under way, and the next of its queue is `x`, which leaves the device `e`. -/
def ioNext (d : Dev) (n q op : Nat) (sqe : List Byte) (x : NvmeCmd) (e : Dev) : Prop :=
  d.awaiting n q op sqe = none ∧ d.ciphering n q op sqe = none ∧ d.takeCmd n q op sqe = some (x, e)

/-- The command that the operands name waits for `m` jobs over the data `dat`; with their answers gone the device is `e`, in which it
names the namespace entry `k`. -/
def ioCiphered (d : Dev) (n q op : Nat) (sqe : List Byte) (x : NvmeCmd) (m : Nat) (dat : List Byte) (k : Nat) (r : Bool) (e : Dev) :
    Prop :=
  d.awaiting n q op sqe = none ∧ d.ciphering n q op sqe = some (x, m, dat) ∧ d.ctlRuns n = true ∧
    e = d.retireJobs (fun k w => k == n && match w with | .block y i _ => y == x.sq && i == x.cid | _ => false) ∧
    e.nsFind n (sqeNsid x.sqe) = some (k, r)

section
variable {d e : Dev} {n q op : Nat} {sqe : List Byte} {x : NvmeCmd} (hq : q ≠ 0) (A : Dev → Nat → NvmeCmd → Nat × List Byte → Dev)
  (C : Dev → Nat → NvmeCmd → List Byte → List Byte → Dev) (S : Dev → NvmeCmd → Dev) (ans : Option (Nat × List Byte))
include hq

theorem ioStep_next (h : ioNext d n q op sqe x e) : d.ioStep n q op sqe ans A C S = S e x := by
  obtain ⟨hwait, hciph, htake⟩ := h
  unfold Dev.ioStep
  simp only [hq, hwait, hciph, htake, if_false]

/-- It goes on with the outputs of its jobs, or ends with Internal Error where one failed (R394). -/
theorem ioStep_ciphered {m k : Nat} {dat : List Byte} {r : Bool} {o : Option (List Byte)} (h : ioCiphered d n q op sqe x m dat k r e)
    (ho : d.xtsOutcome n x m = some o) :
    d.ioStep n q op sqe ans A C S = o.elim (e.doneNs n k x nvInternal) fun out => C e k x out dat := by
  obtain ⟨hwait, hciph, hrun, rfl, hns⟩ := h
  unfold Dev.ioStep
  simp only [hq, hwait, hciph, hrun, ho, if_false, Bool.not_true, Bool.false_eq_true]
  split
  case h_1 k' r' hfound =>
    obtain ⟨rfl, -⟩ := Prod.mk.inj (Option.some.inj (hfound.symm.trans hns))
    cases o <;> rfl
  case h_2 hfound => exact absurd (hfound.symm.trans hns).symm (Option.some_ne_none _)

end

/-- Blocks of an HBM namespace land there before their command completes (R395). -/
theorem storeBlocks_hbm {d : Dev} {k : Nat} (h : (d.nsEnt k).inHbm = true) (n : Nat) (x : NvmeCmd) (op slba nlb : Nat) (bs : List Byte)
    (ans : Option (Nat × List Byte)) :
    d.storeBlocks n k x op slba nlb bs ans =
      ((d.hbmWrite (d.nsAddr (d.nsEnt k) + slba * (d.nsEnt k).lba) bs).svcMoved n bs.length false).doneNs n k x nvOk := if_pos h

/-! ### The commands that move blocks (R389, R390, R394 to R396) -/

section
variable {d e : Dev} {n : Fin 2048} {q : Fin 65} {sqe data : List Byte} {prps : List Nat} {x : NvmeCmd} {k m : Nat} {dat : List Byte}
  {r : Bool} {o : Option (List Byte)} (hq : q.val ≠ 0)
include hq

/-- A write that passes its checks takes its data, and stores them or hands them to the jobs that encrypt them. -/
theorem doNvmeWrite_good {len : Nat} (h : ioNext d n q 0x01 sqe x e)
    (hok : e.ioCheck n x (sqeSlba x.sqe) (sqeNlb x.sqe) true = .ok k) (hlen : sqeNlb x.sqe * (e.nsEnt k).lba = len) (hmax : len ≤ 262144)
    (hprp : prpSegs x.sqe len [] ≠ none) :
    doNvmeWrite n q sqe data none d =
      let u := e.svcMoved n len true
      if (e.nsEnt k).xts = true then
        u.xtsAsk n (e.nsEnt k) x true (Dev.lbaBlocks (e.nsEnt k) (sqeSlba x.sqe) (sliceB data 0 len)) []
      else u.storeBlocks n k x 0x01 (sqeSlba x.sqe) (sqeNlb x.sqe) (sliceB data 0 len) none := by
  unfold doNvmeWrite
  refine (ioStep_next hq _ _ _ none h).trans ?_
  simp only [hok, hlen, Nat.not_lt.mpr hmax, Option.isNone_iff_eq_none, hprp, if_false]

/-- A write goes on with the outputs of its jobs. -/
theorem doNvmeWrite_ciphered (h : ioCiphered d n q 0x01 sqe x m dat k r e) (ho : d.xtsOutcome n x m = some o) :
    doNvmeWrite n q sqe data none d = o.elim (e.doneNs n k x nvInternal) fun out =>
      e.storeBlocks n k x 0x01 (sqeSlba x.sqe) (sqeNlb x.sqe) out none := by
  unfold doNvmeWrite
  exact ioStep_ciphered hq _ _ _ none h ho

/-- A read of blocks in the HBM returns what is stored under the writes that the cache holds, or hands it to the jobs that decrypt it. -/
theorem doNvmeRead_hbm {len a : Nat} {u : Dev} (h : ioNext d n q 0x02 sqe x e)
    (hok : e.ioCheck n x (sqeSlba x.sqe) (sqeNlb x.sqe) false = .ok k) (hlen : sqeNlb x.sqe * (e.nsEnt k).lba = len) (hmax : len ≤ 262144)
    (hhbm : (e.nsEnt k).inHbm = true) (ha : e.nsAddr (e.nsEnt k) + sqeSlba x.sqe * (e.nsEnt k).lba = a) (hu : e.ioRead a len = u)
    (hp : u.poisoned a len = false) :
    doNvmeRead n q sqe prps none d =
      let v := u.nsEnt k
      let stored := u.overCache v.owner k v.lba (sqeSlba x.sqe) (sliceB (u.hbmRead a len) 0 (sqeNlb x.sqe * v.lba))
      if v.xts = true then u.xtsAsk n v x false (Dev.lbaBlocks v (sqeSlba x.sqe) stored) []
      else Dev.giveData u n x prps stored fun st d => d.doneNs n k x st := by
  unfold doNvmeRead
  refine (ioStep_next hq _ _ _ none h).trans ?_
  simp only [hok, hlen, hhbm, ha, hu, hp, Nat.not_lt.mpr hmax, Bool.false_eq_true, if_false, if_true]
  rfl

/-- A read gives the host the outputs of its jobs. -/
theorem doNvmeRead_ciphered {out : List Byte} (h : ioCiphered d n q 0x02 sqe x m dat k r e) (ho : d.xtsOutcome n x m = some (some out)) :
    doNvmeRead n q sqe prps none d = Dev.giveData e n x prps out fun st d => d.doneNs n k x st := by
  unfold doNvmeRead
  exact ioStep_ciphered hq _ _ _ none h ho

/-- A zeroing stores zeros, or hands them to the jobs that encrypt them. -/
theorem doNvmeWriteZeroes_good (h : ioNext d n q 0x08 sqe x e) (hok : e.ioCheck n x (sqeSlba x.sqe) (sqeNlb x.sqe) true = .ok k) :
    doNvmeWriteZeroes n q sqe none d =
      let zeros := List.replicate (sqeNlb x.sqe * (e.nsEnt k).lba) 0#8
      if (e.nsEnt k).xts = true then e.xtsAsk n (e.nsEnt k) x true (Dev.lbaBlocks (e.nsEnt k) (sqeSlba x.sqe) zeros) []
      else e.storeBlocks n k x 0x08 (sqeSlba x.sqe) (sqeNlb x.sqe) zeros none := by
  unfold doNvmeWriteZeroes
  refine (ioStep_next hq _ _ _ none h).trans ?_
  simp only [hok]

/-! ### Deallocation (R390) -/

/-- Without the deallocate bit nothing is done. -/
theorem doNvmeDatasetManagement_noDeallocate (h : ioNext d n q 0x09 sqe x e) (hok : e.ioCheck n x 0 0 true = .ok k)
    (hbit : bitOf (cdw x.sqe 11) 2 = false) :
    doNvmeDatasetManagement n q sqe data none d = (e.svcMoved n (16 * (bitsOf (cdw x.sqe 10) 0 8 + 1)) true).doneNs n k x nvOk := by
  unfold doNvmeDatasetManagement
  refine (ioStep_next hq _ _ _ none h).trans ?_
  simp only [hok, hbit, List.length_map, List.length_range, if_true]

/-- A range beyond the namespace is refused. -/
theorem doNvmeDatasetManagement_range (h : ioNext d n q 0x09 sqe x e) (hok : e.ioCheck n x 0 0 true = .ok k)
    (hbit : bitOf (cdw x.sqe 11) 2 = true) (hone : bitsOf (cdw x.sqe 10) 0 8 = 0)
    (hr : (e.nsEnt k).size < fieldLE data 8 8 + fieldLE data 4 4) :
    doNvmeDatasetManagement n q sqe data none d = (e.svcMoved n (16 * (bitsOf (cdw x.sqe 10) 0 8 + 1)) true).doneNs n k x nvRange := by
  unfold doNvmeDatasetManagement
  refine (ioStep_next hq _ _ _ none h).trans ?_
  simp only [hok, hbit, hone, hr, List.range_one, List.map_cons, List.map_nil, List.length_singleton, List.any_cons, List.any_nil,
    Nat.mul_zero, Nat.zero_add, decide_true, Bool.or_false, Bool.true_eq_false, if_false, if_true]

/-- One range of an HBM namespace that is not encrypted reads as zero afterwards. -/
theorem doNvmeDatasetManagement_hbm {u : Dev} (h : ioNext d n q 0x09 sqe x e) (hok : e.ioCheck n x 0 0 true = .ok k)
    (hu : e.svcMoved n (16 * (bitsOf (cdw x.sqe 10) 0 8 + 1)) true = u)
    (hbit : bitOf (cdw x.sqe 11) 2 = true) (hone : bitsOf (cdw x.sqe 10) 0 8 = 0) (hhbm : (u.nsEnt k).inHbm = true)
    (hx : (e.nsEnt k).xts = false) (hr : fieldLE data 8 8 + fieldLE data 4 4 ≤ (e.nsEnt k).size) :
    doNvmeDatasetManagement n q sqe data none d =
      (u.hbmWrite (u.nsAddr (u.nsEnt k) + fieldLE data 8 8 * (u.nsEnt k).lba)
        (sliceB (List.replicate (fieldLE data 4 4 * (e.nsEnt k).lba) 0#8) 0 (fieldLE data 4 4 * (u.nsEnt k).lba))).doneNs n k x nvOk := by
  rw [hone] at hu
  unfold doNvmeDatasetManagement
  refine (ioStep_next hq _ _ _ none h).trans ?_
  simp only [hok, hbit, hone, hu, hx, hhbm, Nat.not_lt.mpr hr, List.range_one, List.map_cons, List.map_nil, List.length_singleton,
    List.any_cons, List.any_nil, List.flatMap_cons, List.flatMap_nil, List.append_nil, List.foldl_cons, List.foldl_nil, Nat.mul_zero,
    Nat.zero_add, decide_false, Bool.or_false, Bool.false_and, Bool.false_eq_true, Bool.true_eq_false, if_false, if_true]

/-! ### Flush, append and unknown commands (R390, R395, R402) -/

/-- A flush with an empty cache completes (R395). -/
theorem doNvmeFlush_clean (ht : d.takeCmd n q 0x00 sqe = some (x, e)) (hns : e.nsFind n (sqeNsid x.sqe) = some (k, false))
    (hgood : sqeBad x.sqe = false) (hj : (e.nsEnt k).isJnl = false) (hc : (e.nvme n).cache = []) :
    doNvmeFlush n q sqe d = e.doneNs n k x nvOk := by
  unfold doNvmeFlush
  simp only [hq, ht, hns, hgood, hj, hc, List.filter_nil, List.map_nil, List.dedup_nil, List.isEmpty_nil, List.any_nil,
    Bool.false_eq_true, if_false, if_true]

/-- An append is not for a reader (R402). -/
theorem doNvmeJournalAppend_reader (ht : d.takeCmd n q 0x81 sqe = some (x, e)) (hns : e.nsFind n (sqeNsid x.sqe) = some (k, true)) :
    doNvmeJournalAppend n q sqe data d = e.doneNs n k x nvProtected := by
  unfold doNvmeJournalAppend
  simp only [hq, ht, hns, if_false, if_true]

/-- An append of 1 byte to 64 KiB goes to its journal (R402). -/
theorem doNvmeJournalAppend_takes {len : Nat} (ht : d.takeCmd n q 0x81 sqe = some (x, e))
    (hns : e.nsFind n (sqeNsid x.sqe) = some (k, false)) (hgood : sqeBad x.sqe = false) (hj : (e.nsEnt k).isJnl = true)
    (hlen : bitsOf (cdw x.sqe 10) 0 17 = len) (h1 : 1 ≤ len) (hmax : len ≤ 65536) (hprp : prpSegs x.sqe len [] ≠ none) :
    doNvmeJournalAppend n q sqe data d = ((e.svcMoved n len true).waitFor n x (.chain k)).takeAppend k
      ⟨n, q, x.cid, bitOf (cdw x.sqe 12) 30, bitsOf (cdw x.sqe 11) 0 16, fieldLE x.sqe 56 8, sliceB data 0 len⟩ := by
  unfold doNvmeJournalAppend
  simp only [hq, ht, hns, hgood, hj, hlen, Nat.ne_of_gt h1, Nat.not_lt.mpr hmax, Option.isNone_iff_eq_none, hprp, Bool.false_eq_true,
    Bool.true_eq_false, or_self, if_false]

/-- A command of no known opcode (R390). -/
theorem doNvmeInvalidOpcode_unknown (hc : (d.nvme n).cmds = []) (hop : fieldLE sqe 0 1 ∉ ioOps)
    (ht : d.takeCmd n q (fieldLE sqe 0 1) sqe = some (x, e)) : doNvmeInvalidOpcode n q sqe d = e.done n x 0 nvBadOp := by
  have hnew : ioOps.contains (fieldLE sqe 0 1) = false := by
    rw [Bool.eq_false_iff, ne_eq, List.contains_iff_mem]
    exact hop
  unfold doNvmeInvalidOpcode
  simp only [hq, hc, hnew, ht, List.find?_nil, Bool.false_eq_true, if_false]

end

/-- Settles O43, by the equation of each command. That a failed job ends its command with Internal Error, and the status codes and the
layout of the data pointers, are the model's choice (notes/assumptions/34, 40). -/
theorem ioCommands : Obligations.IoCommands := by
  intro s n q sqe data x e k halive hq0
  have hq : q.val ≠ 0 := fun h => hq0 (Fin.ext h)
  refine ⟨fun h hok hmax hprp => ⟨fun hhbm hx => ?_, fun hx => ?_⟩, fun m dat r out h ho hhbm => ?_,
    fun m dat r h ho => does_intro halive rfl (doNvmeWrite_ciphered hq h ho),
    fun prps u h hok hmax hhbm hu hp => ⟨fun hx => ?_, fun hx => ?_⟩,
    fun prps m dat r out h ho => does_intro halive rfl (doNvmeRead_ciphered hq h ho),
    fun h hok => ⟨fun hhbm hx => ?_, fun hx => ?_⟩,
    fun h hok => ⟨fun hbit => does_intro halive rfl (doNvmeDatasetManagement_noDeallocate hq h hok hbit),
      fun hbit hone hr => does_intro halive rfl (doNvmeDatasetManagement_range hq h hok hbit hone hr),
      fun hbit hone hhbm hx hr => does_intro halive rfl (doNvmeDatasetManagement_hbm hq h hok rfl hbit hone hhbm hx hr)⟩,
    fun ht hns hgood hj hc => does_intro halive rfl (doNvmeFlush_clean hq ht hns hgood hj hc),
    fun ht hns => does_intro halive rfl (doNvmeJournalAppend_reader hq ht hns),
    fun ht hns hgood hj h1 hmax hprp => does_intro halive rfl (doNvmeJournalAppend_takes hq ht hns hgood hj rfl h1 hmax hprp),
    fun hc hop ht => does_intro halive rfl (doNvmeInvalidOpcode_unknown hq hc hop ht)⟩
  · rw [← Bool.not_eq_true] at hx
    exact does_intro halive rfl ((doNvmeWrite_good hq h hok rfl hmax hprp).trans ((if_neg hx).trans (storeBlocks_hbm hhbm _ _ _ _ _ _ _)))
  · exact does_intro halive rfl ((doNvmeWrite_good hq h hok rfl hmax hprp).trans (if_pos hx))
  · exact does_intro halive rfl ((doNvmeWrite_ciphered hq h ho).trans (storeBlocks_hbm hhbm _ _ _ _ _ _ _))
  · rw [← Bool.not_eq_true] at hx
    exact does_intro halive rfl ((doNvmeRead_hbm hq h hok rfl hmax hhbm rfl hu hp).trans (if_neg hx))
  · exact does_intro halive rfl ((doNvmeRead_hbm hq h hok rfl hmax hhbm rfl hu hp).trans (if_pos hx))
  · rw [← Bool.not_eq_true] at hx
    refine does_intro halive rfl ((doNvmeWriteZeroes_good hq h hok).trans ((if_neg hx).trans ((storeBlocks_hbm hhbm _ _ _ _ _ _ _).trans ?_)))
    rw [List.length_replicate]
  · exact does_intro halive rfl ((doNvmeWriteZeroes_good hq h hok).trans (if_pos hx))

end Sys2Proof.Machine
end

section
/-!
PROOFS. What happens to commands, cached writes and journals by themselves (O44): an equation for each row.
-/

namespace Sys2Proof.Machine

/-! ### Commands (R393, R397, R399) -/

section
variable {d : Dev} {n : Fin 2048} {x : NvmeCmd}

/-- PS1 is entered when its command is the only one and the cache holds no dirty data (R397). -/
theorem doPs1EntryComplete_idle (hc : (d.nvme n).cmds = [x]) (hw : x.wait = .ps1 false) (hclean : Dev.dirty (d.nvme n) = [])
    (hrun : d.ctlRuns n = true) :
    doPs1EntryComplete n d =
      ((List.range (d.nvme n).svcThreads).foldl (fun d i => d.modThread (d.get (SAG_THREADS_BASE n) + i) fun t =>
        { t with wait := .twait 0 }) (d.modNvme n fun c => { c with ps := 1 })).done n x 0 nvOk := by
  have hback : (CmdWait.ps1 false == CmdWait.ps0) = false := by decide
  have hps : b2n true = 1 := rfl
  unfold doPs1EntryComplete
  simp only [hc, hw, hclean, hrun, hback, hps, List.find?_cons_of_pos, List.any_cons, List.any_nil, List.filter_cons, List.filter_nil,
    List.isEmpty_nil, List.foldl_nil, Bool.or_self, Bool.not_true, Bool.not_false, Bool.false_eq_true, if_false]

/-- A target that has not answered within TIMEOUT_S: its command ends, and the service reconnects (R393). -/
theorem doTargetTimeout_late {t since k : Nat} {r : Bool} {e u : Dev} (hc : (d.nvme n).cmds = [x]) (hw : x.wait = .target t since)
    (hlate : since + Nat.min 230 (fieldLE (d.tgtEnt t) 56 2) * 3000000000 ≤ d.cycle) (hq : x.sq ≠ 0) (hrun : d.svcRuns n = true)
    (he : (d.modNvme n fun c => { c with conns := c.conns.filter (· != t) }) = e)
    (hu : (if e.tgtUsable n t then e.tgtOpen n t else e) = u) (hns : u.nsFind n (sqeNsid x.sqe) = some (k, r)) :
    doTargetTimeout n d = u.doneNs n k x nvTransport := by
  have hdone : u.done n x 0 nvTransport = u.doneNs n k x nvTransport := by
    simp only [Dev.done, hq, if_false, hns]
    rfl
  have hdue : decide (since + Nat.min 230 (fieldLE (d.tgtEnt t) 56 2) * cyS ≤ d.cycle) = true := decide_eq_true hlate
  unfold doTargetTimeout
  simp only [hc, hw, hdue, List.find?_cons_of_pos, hrun, Bool.not_true, Bool.false_eq_true, if_false, he, hu, hdone]

/-- A command that has not started 240 s after its fetch ends with Internal Error (R399). -/
theorem doStorageTimeout_queued {e : Dev}
    (he : (d.modNvme n fun c => { c with late := c.late.filter fun y => decide (d.cycle < y.at_ + 240 * 3000000000) }) = e)
    (hc : (e.nvme n).cmds = [x]) (hw : x.wait = .queued) (hlate : x.at_ + 240 * 3000000000 ≤ d.cycle) :
    doStorageTimeout n d = ((e.done n x 0 nvInternal).inc STO_CNT_TIMEOUT_ABANDON).setEvent STO_EVENT_TIMEOUT := by
  have hcycle : e.cycle = d.cycle := by rw [← he, Dev.modNvme_cycle]
  have hs : cyS = 3000000000 := rfl
  unfold doStorageTimeout
  simp only [hs, he, hc, hcycle, hlate, hw, List.find?_cons_of_pos, decide_true]

end

/-! ### Cached writes (R395, R396) -/

section
variable {d : Dev} {n : Fin 2048} {id : Nat}

/-- A cached write that its target acknowledges leaves the cache (R395). -/
theorem doBackgroundWriteDone_dirty (h : ((Dev.dirty (d.nvme n)).any fun w => w.id == id) = true) :
    doBackgroundWriteDone n id d =
      (d.modNvme n fun c => { c with cache := c.cache.filter (fun w => w.id != id || w.failed) }).cacheSettled n id false := by
  unfold doBackgroundWriteDone
  simp only [h, Bool.not_true, Bool.false_eq_true, if_false]

/-- The failure of a write that the cache no longer holds is a late return (R400). -/
theorem doDeferredWriteError_gone {st : Nat} (h : ((Dev.dirty (d.nvme n)).find? fun w => w.id == id) = none) :
    doDeferredWriteError n id st d = d.lateReturn n (.cached id) := by
  unfold doDeferredWriteError
  simp only [h]

/-- A lost write goes to the log, or, where the log is full, leaves the mark that one is missing (R396). -/
theorem logDeferred_eq (d : Dev) (s : Nat) (w : CacheW) (st : Nat) :
    d.logDeferred s w st = (d.modNvme s fun c => { c with
      log := if c.log.length < 64 then c.log ++ [⟨(d.nsEnt w.ns).nsid, w.wslba, w.wnlb, st, d.time.net / 2 ^ 32⟩] else c.log
      logLost := if c.log.length < 64 then c.logLost else true }).inc STO_CNT_DEFERRED_ERRORS := by
  refine congrArg (fun y : Dev => y.inc STO_CNT_DEFERRED_ERRORS) (Dev.modNvme_congr ?_)
  by_cases h : (d.nvme s).log.length < 64
  · simp only [h, if_true]
  · simp only [h, if_false]

/-- A cached write that fails is logged and marks its namespace; whether its event is reported is free (R396). -/
theorem doDeferredWriteError_logs {w : CacheW} {st : Nat} {t l u : Dev} (h : ((Dev.dirty (d.nvme n)).find? fun w => w.id == id) = some w)
    (ht : (d.modNvme n fun c => { c with
      cache := (c.cache.map fun w => if w.id = id then { w with failed := true } else w).filter fun w => !(w.failed && w.nlb == 0) }) = t)
    (hl : t.logDeferred n w st = l)
    (hu : (l.setNs w.ns { l.nsEnt w.ns with flag := true }).setEvent STO_EVENT_DEFERRED = u) :
    doDeferredWriteError n id st d = u.free.2.cacheSettled n id true ∨
      doDeferredWriteError n id st d = (u.free.2.postEvent n 7 1 0xC0).cacheSettled n id true := by
  unfold doDeferredWriteError
  simp only [h, ht, hl, hu]
  split
  · exact .inr rfl
  · exact .inl rfl

end

/-! ### Journals (R400, R402, R407, R408, R411) -/

section
variable {d : Dev} {n : Fin 4096}

/-- What is chained becomes durable; where nothing is, the write is a late return (R400, R402). -/
theorem doSherdDurable_chained (h : (d.nsEnt n).jnl.chained ≠ []) : doSherdDurable n d = d.sherdDurable n :=
  if_neg (by rwa [List.isEmpty_iff])

theorem doSherdDurable_none (h : (d.nsEnt n).jnl.chained = []) : doSherdDurable n d = d.lateReturn (d.nsEnt n).owner (.sherd n) :=
  if_pos (by rw [h, List.isEmpty_nil])

/-- A failed write of what is chained is a fault of the journal (R411). -/
theorem doJournalWriteFault_chained {st : Nat} (h : (d.nsEnt n).jnl.chained ≠ []) : doJournalWriteFault n st d = d.journalFault n st :=
  if_neg (by rwa [List.isEmpty_iff])

/-- The batch time has passed since the first sherd without a seal (R408). -/
theorem doBatchTimeout_due {t : Nat} (hf : (d.nsEnt n).jnl.head.firstAt = some t)
    (ht : t + Nat.max 1 (d.nsEnt n).batchMs * 3000000 ≤ d.cycle + (d.nsEnt n).jnl.head.ran) : doBatchTimeout n d = d.startSeal n := by
  unfold doBatchTimeout
  simp only [hf]
  exact if_pos ht

section
variable {o : Fin 2048} {y : Sealing} (hs : (d.nsEnt n).jnl.sealing = some y) (ho : (d.nsEnt n).owner = o.val) (hrun : d.svcRuns o = true)
include hs ho hrun

/-- A signing job that fails is a fault of the journal (R411). -/
theorem doSealChained_fails {a : StoAns} {dsa : Bool} (ha : d.stoAns o (.sign n dsa) = some a) (hbad : a.status ≠ pkOk) :
    doSealChained n o d = d.journalFault n 0 := by
  have hne : (a.status != pkOk) = true := bne_iff_ne.mpr hbad
  unfold doSealChained
  cases dsa with
  | false => simp only [hs, ho, hrun, ha, hne, Option.any_some, Bool.true_or, ne_eq, not_true_eq_false, Bool.true_eq_false, or_self,
      if_false, if_true]
  | true => simp only [hs, ho, hrun, ha, hne, Option.any_some, Bool.or_true, ne_eq, not_true_eq_false, Bool.true_eq_false, or_self,
      if_false, if_true]

/-- Both signatures are there: the SEAL is chained, then the RESUME and the appends that waited for it (R407, R408). -/
theorem doSealChained_signed {ec ds : StoAns} {e c f : Dev} (hec : d.stoAns o (.sign n false) = some ec)
    (hds : d.stoAns o (.sign n true) = some ds) (hok : ec.status = pkOk) (hok' : ds.status = pkOk)
    (he : (d.retireJobs fun _ w => w == .sign n false || w == .sign n true) = e)
    (hc : (e.modJnl n fun j => { j with sealing := none, resume := none, waiting := [] }).chainAs n 2 0 0 (y.body ++ ec.out ++ ds.out) none
      (y.time, y.flags) = c)
    (hf : f = match (d.nsEnt n).jnl.resume with | some app => c.chainResume n app | none => c) :
    doSealChained n o d = (d.nsEnt n).jnl.waiting.foldl (fun d a => d.takeAppend n a) f := by
  subst hf
  unfold doSealChained
  simp only [hs, ho, hrun, hec, hds, hok, hok', he, hc, Option.any_some, bne_self_eq_false, ne_eq, not_true_eq_false,
    Bool.true_eq_false, Bool.false_eq_true, or_self, Bool.or_self, if_false] <;> rfl

end
end

/-- Settles O44, by the equation of each row. That a SEAL takes the stamp and the flags of its BODY, that late returns are compared, the
limits of STORAGE_TIMEOUT and the codes of the events are the model's choice (notes/assumptions/34, 40, 69). -/
theorem storageEvents : Obligations.StorageEvents := by
  refine ⟨fun s n x halive hc hw hclean hrun => does_intro halive rfl (doPs1EntryComplete_idle hc hw hclean hrun),
    fun s n id halive h => does_intro halive rfl (doBackgroundWriteDone_dirty h),
    fun s n id st halive h => does_intro halive rfl (doDeferredWriteError_gone h),
    fun s n id st w halive h => does_intro halive rfl (doDeferredWriteError_logs h rfl (logDeferred_eq _ _ _ _) rfl),
    fun s n x t since k r halive hc hw hlate hq hrun hns =>
      does_intro halive rfl (doTargetTimeout_late hc hw hlate hq hrun rfl rfl hns),
    fun s n x e halive he hc hw hlate => does_intro halive rfl (doStorageTimeout_queued he hc hw hlate),
    fun s n halive => ⟨fun h => does_intro halive rfl (doSherdDurable_chained h), fun h => does_intro halive rfl (doSherdDurable_none h)⟩,
    fun s n t halive hf ht => does_intro halive rfl (doBatchTimeout_due hf ht),
    fun s n o y halive hs ho hrun => ⟨fun a dsa ha hbad => does_intro halive rfl (doSealChained_fails hs ho hrun ha hbad),
      fun ec ds hec hds hok hok' => does_intro halive rfl (doSealChained_signed hs ho hrun hec hds hok hok' rfl rfl rfl)⟩,
    fun s n st halive h => does_intro halive rfl (doJournalWriteFault_chained h)⟩

end Sys2Proof.Machine
end

section
/-!
PROOFS. The flash operations and the recovery port (O49): the start and the end of an operation, and the commands of the recovery port.
-/

namespace Sys2Proof.Machine

/-! ### The start of an operation (R440, R448, R451) -/

/-- The command of each operation of BOOT_FLASH_CMD. -/
def flashRow (op : Nat) (p : Path) (data : W32) (row : Instr) : Prop :=
  op = 1 ∧ row = .writeImage p data ∨ op = 2 ∧ row = .writeProfile p data ∨ op = 3 ∧ row = .setTrial p data ∨
    op = 4 ∧ row = .bootConfirm p data ∨ op = 5 ∧ row = .readCert p data ∨ op = 6 ∧ row = .raiseRollback p data ∨
    op = 7 ∧ row = .revokeSlot p data ∨ op = 8 ∧ row = .readLog p data

/-- Each does what `flashCmd` does with its operation. -/
theorem does_flashCmd {s : State} {dv : Dev} {p : Path} {data : W32} {op : Nat} {row : Instr} {q : Dev → Prop} (h : Reaches s.dev p dv)
    (hrow : flashRow op p data row) (hq : q (flashCmd op p data dv)) : Does row s q := by
  have hout : BOOT_FLASH_CMD < 0x100000 ∨ 0x200000 ≤ BOOT_FLASH_CMD := by decide
  rcases hrow with ⟨rfl, rfl⟩ | ⟨rfl, rfl⟩ | ⟨rfl, rfl⟩ | ⟨rfl, rfl⟩ | ⟨rfl, rfl⟩ | ⟨rfl, rfl⟩ | ⟨rfl, rfl⟩ | ⟨rfl, rfl⟩
  · exact does_plain h hout rfl hq
  · exact does_plain h hout rfl hq
  · exact does_plain h hout rfl hq
  · exact does_plain h hout rfl hq
  · exact does_plain h hout rfl hq
  · exact does_plain h hout rfl hq
  · exact does_plain h hout rfl hq
  · exact does_plain h hout rfl hq

section
variable {dv e : Dev} {p : Path} {data : W32} {op : Nat}

/-- While one runs, the write is ignored and counted (R451). -/
theorem flashCmd_busy (hb : dv.flag BOOT_FLASH_STATUS_BUSY = true) : flashCmd op p data dv = dv.inc BOOT_GATE_VIOL := if_pos hb

section
variable (hb : dv.flag BOOT_FLASH_STATUS_BUSY = false) (he : dv.writeFields p BOOT_FLASH_CMD data = e) (hop : fieldGet data 28 4 = op)
include hb he hop

/-- While the gate is closed, it ends with GATED (R440). -/
theorem flashCmd_gated (hg : e.flag BOOT_STATUS_GATE_OPEN = false) : flashCmd op p data dv = e.flashEnd btGated := by
  unfold flashCmd
  simp only [hb, he, hop, hg, ne_eq, not_true_eq_false, Bool.not_false, Bool.false_eq_true, if_false, if_true]

/-- An operation that is not refused, with a path for its data where it moves any, begins (R448). -/
theorem flashCmd_begins (hg : e.flag BOOT_STATUS_GATE_OPEN = true)
    (hr : e.flashRefusal op (fieldGet data 0 2) (e.get BOOT_FLASH_LEN_LEN) = none)
    (hp : op = 1 ∨ op = 2 ∨ op = 5 ∨ op = 8 →
      e.flashPath (fieldGet data 16 12) e.flashAddr (Dev.flashBytes op (e.get BOOT_FLASH_LEN_LEN)) = true) :
    flashCmd op p data dv =
      let t := (e.setBoot fun b => { b with
        flashOp := some (op, fieldGet data 16 12, fieldGet data 0 2, e.flashAddr, e.get BOOT_FLASH_LEN_LEN) }).put BOOT_FLASH_STATUS_BUSY 1
      if op = 1 then t.flashErase (slotBase (fieldGet data 0 2)) slotSize else t := by
  have hpath : ¬ ((op = 1 ∨ op = 2 ∨ op = 5 ∨ op = 8) ∧
      e.flashPath (fieldGet data 16 12) e.flashAddr (Dev.flashBytes op (e.get BOOT_FLASH_LEN_LEN)) = false) :=
    fun ⟨hmoves, hnone⟩ => Bool.false_ne_true (hnone.symm.trans (hp hmoves))
  unfold flashCmd
  simp only [hb, he, hop, hg, hr, hpath, ne_eq, not_true_eq_false, Bool.not_true, Bool.false_eq_true, if_false]

end
end

/-! ### The end of an operation (R448) -/

section
variable {d : Dev} {host : List Byte} {g slot a len : Nat}

theorem doFlashOpComplete_setTrial (h : d.boot.flashOp = some (3, g, slot, a, len)) :
    doFlashOpComplete host false d = (d.writeRecord d.bootRecord.2.preferred (slot + 1)).flashEnd btOk := by
  unfold doFlashOpComplete
  simp only [h, Bool.false_eq_true, if_false]

theorem doFlashOpComplete_confirm (h : d.boot.flashOp = some (4, g, slot, a, len)) :
    doFlashOpComplete host false d = (d.writeRecord (d.get BOOT_STATUS_IMAGE) d.bootRecord.2.trial).flashEnd btOk := by
  unfold doFlashOpComplete
  simp only [h]

theorem doFlashOpComplete_raiseRollback (h : d.boot.flashOp = some (6, g, slot, a, len)) :
    doFlashOpComplete host false d = (d.setBoot fun b => { b with
      fuses := { b.fuses with rollback := Nat.max b.fuses.rollback (Nat.min len 128) } }).syncFuses.flashEnd btOk := by
  unfold doFlashOpComplete
  simp only [h]

/-! ### The recovery port (R446) -/

theorem doI3cRecData_begun {bytes : List Byte} {n : Nat} (hr : d.inRecovery = true) (hn : d.boot.recLen = some n) (hb : bytes.length ≤ 256) :
    doI3cRecData bytes d = d.setBoot fun b => { b with recovery := b.recovery ++ bytes } := by
  refine if_pos ?_
  rw [hr, hn, decide_eq_true hb]
  rfl

theorem doI3cRecEnd_begun {n : Nat} (hr : d.inRecovery = true) (hn : d.boot.recLen = some n) :
    doI3cRecEnd d = d.setBoot fun b => { b with attempt := some ⟨2, [], .header, .none, true, false⟩, recLen := none } := by
  refine if_pos ?_
  rw [hr, hn]
  rfl

end

/-- Settles O49, by the equations of the start and of the end of an operation and of the three recovery commands. -/
theorem flashAndRecovery : Obligations.FlashAndRecovery := by
  refine ⟨fun s dv p data op row e h hrow he hop => ⟨fun hb => does_flashCmd h hrow (flashCmd_busy hb),
      fun hb hg => does_flashCmd h hrow (flashCmd_gated hb he hop hg),
      fun hb hg hr hp => does_flashCmd h hrow (flashCmd_begins hb he hop hg hr hp)⟩,
    fun s host g slot a len halive => ⟨fun h => does_intro halive rfl (doFlashOpComplete_setTrial h),
      fun h => does_intro halive rfl (doFlashOpComplete_confirm h),
      fun h => does_intro halive rfl (doFlashOpComplete_raiseRollback h)⟩,
    fun s n halive hr => does_intro halive rfl (if_pos hr),
    fun s bytes n halive hr hn hb => does_intro halive rfl (doI3cRecData_begun hr hn hb),
    fun s n halive hr hn => does_intro halive rfl (doI3cRecEnd_begun hr hn)⟩

end Sys2Proof.Machine
end

section
/-!
PROOFS. Error detection, self-tests, rotation and lane tests (O50): an equation for each row.
-/

namespace Sys2Proof.Machine

/-! ### Errors and the injector (R452, R460) -/

section
variable {d e : Dev} {p : Path} {data : W32}

/-- A detector whose family has no command of its own records what it finds. -/
theorem doErrorDetection_detects {fam : Fin 32} {inst : Nat} (kind : ErrKind) (loc : Nat) (items : List Nat) (hi : inst < familySize fam)
    (hf : fam.val ∉ [0x05, 0x11, 0x19, 0x1B, 0x1C]) :
    doErrorDetection fam inst kind loc items false d = d.detected fam inst loc kind items := by
  have hown : [0x05, 0x11, 0x19, 0x1B, 0x1C].contains fam.val = false := by
    rw [Bool.eq_false_iff, ne_eq, List.contains_iff_mem]
    exact hf
  unfold doErrorDetection
  simp only [Nat.not_le.mpr hi, hown, Bool.false_eq_true, if_false]

section
variable (he : ((((d.writeFields p RAS_INJ data).put RAS_INJ_MODE (fieldGet data 30 1)).put RAS_INJ_FATAL_OK (fieldGet data 29 1)).put
  RAS_INJ_TYPE (fieldGet data 24 4)).put RAS_INJ_DETECTOR (fieldGet data 0 16) = e)
include he

theorem doRasInjWrite_disarms (harm : fieldGet data 31 1 = 0) : doRasInjWrite p data d = (e.swPut RAS_INJ_ARM 0).put RAS_INJ_REFUSED 0 := by
  unfold doRasInjWrite
  simp only [he, harm, if_true]

/-- A TYPE that the family has none of is refused. -/
theorem doRasInjWrite_refused (harm : fieldGet data 31 1 = 1) (ht : fieldGet data 24 4 ∉ familyTypes (fieldGet data 10 6)) :
    doRasInjWrite p data d = (e.swPut RAS_INJ_ARM 0).put RAS_INJ_REFUSED 1 := by
  have hnone : (familyTypes (fieldGet data 10 6)).contains (fieldGet data 24 4) = false := by
    rw [Bool.eq_false_iff, ne_eq, List.contains_iff_mem]
    exact ht
  unfold doRasInjWrite
  simp only [he, harm, hnone, Nat.one_ne_zero, Bool.not_false, Bool.true_or, if_false, if_true]

/-- A TYPE of a family that is not fatal arms the injector; one that is armed already goes on counting. -/
theorem doRasInjWrite_arms (harm : fieldGet data 31 1 = 1) (ht : fieldGet data 24 4 ∈ familyTypes (fieldGet data 10 6))
    (hf : fatalFamily (fieldGet data 10 6) = false) (hwas : e.flag RAS_INJ_ARM = true) :
    doRasInjWrite p data d = (e.swPut RAS_INJ_ARM 1).put RAS_INJ_REFUSED 0 := by
  have hhas : (familyTypes (fieldGet data 10 6)).contains (fieldGet data 24 4) = true := List.contains_iff_mem.mpr ht
  unfold doRasInjWrite
  simp only [he, harm, hhas, hf, hwas, Nat.one_ne_zero, Bool.not_true, Bool.false_and, Bool.or_self, Bool.false_eq_true, if_false,
    if_true]

end
end

/-! ### Self-tests (R463, R464) -/

section
variable {d : Dev} {k : Fin 8}

/-- The next engine in turn leaves for its self-test, which begins at once where it is idle (R463). -/
theorem doPeRotation_begins {e : Nat} {t : Dev} (hen : d.flag RAS_PE_ROT_EN = true)
    (hdue : tabGet (fun _ => 0) d.ras.peLast k + d.get RAS_PE_ROT_PERIOD_MS * 3000000 ≤ d.cycle) (hnone : d.peTest k = none)
    (hret : d.flag (RAS_PE_STATUS_RETIRED k) = false) (he : tabGet (fun _ => 0) d.ras.peNext k = e)
    (ht : (d.setRas fun r => { r with
      peLast := tabSet (fun _ => 0) r.peLast k d.cycle, peNext := tabSet (fun _ => 0) r.peNext k ((e + 1) % 64) }) = t)
    (hidle : t.eng k e = none) : doPeRotation k d = t.peBegin k e := by
  have hms : cyMs = 3000000 := rfl
  unfold doPeRotation
  simp only [hms, hen, Nat.not_lt.mpr hdue, hnone, hret, he, ht, hidle, Option.isSome_none, decide_false, Bool.not_true, Bool.or_self,
    Bool.false_eq_true, if_false]

/-- An engine that passes its self-test comes back (R463). -/
theorem doPeSelfTestDone_pass {e c : Nat} {f : Dev} (ht : d.peTest k = some (e, some c)) (hc : c + 4096 ≤ d.cycle)
    (hinj : d.injTest 0x11 (k * 64 + e) = (false, f)) :
    doPeSelfTestDone k true d = (f.setPeTest k none).put (RAS_PE_STATUS_TESTING k) 0x3F := by
  unfold doPeSelfTestDone
  simp only [ht, Nat.not_lt.mpr hc, hinj, Bool.not_false, Bool.and_self, if_false, if_true]

/-- The first word of RAS_GLZ_SKIP: an engine that is skipped leaves once it is idle, and another one is back unless it is under test or
bad (R464). -/
theorem doGlzSkip_first {e : Dev} {p : Path} {data : W32}
    (he : (d.writeFields p (RAS_GLZ_SKIP 0) data).put (RAS_GLZ_SKIP_SKIP 0) data.toNat = e) :
    doGlzSkip p 0 data d = (List.range 32).foldl (fun d i =>
      if bitOf data.toNat i then (if (d.glzEng i).isNone then d.glzLeave i else d)
      else if (tabGet (fun _ => none) d.ras.glzTest i).isSome || d.ras.glzBad.contains i then d
      else d.put ⟨RAS_GLZ_OUT 0, i, 1⟩ 0) e := by
  subst he
  unfold doGlzSkip
  simp only [Fin.val_zero, Nat.mul_zero, Nat.zero_add]

/-- A glaze engine that passes its self-test comes back where it is not skipped (R464). -/
theorem doEngineSelfTestDone_glaze {i : Fin 256} {c : Nat} {f : Dev} (ht : tabGet (fun _ => none) d.ras.glzTest i = some c)
    (hc : c + 60000 ≤ d.cycle) (hinj : d.injTest 0x12 i = (false, f)) (hskip : f.get (RAS_GLZ_SKIP_SKIP (i.val / 32)) = 0) :
    doEngineSelfTestDone false i true d =
      (f.setRas fun r => { r with glzTest := tabSet (fun _ => none) r.glzTest i none }).put
        ⟨RAS_GLZ_OUT (i.val / 32), i.val % 32, 1⟩ 0 := by
  have hget (g : RasState → RasState) : (f.setRas g).get (RAS_GLZ_SKIP_SKIP (i.val / 32)) = 0 := hskip
  have hbit (j : Nat) : bitOf 0 j = false := by simp [bitOf]
  unfold doEngineSelfTestDone
  simp only [ht, Nat.not_lt.mpr hc, hinj, hget, hbit, Bool.not_false, Bool.and_self, Bool.false_eq_true, if_false, if_true]

end

/-! ### LPM banks (R465) -/

section
variable {d : Dev}

theorem doLpmRotStart_busy {e : Dev} {p : Path} {data : W32} (he : d.writeFields p RAS_LPM_ROT data = e) (hon : fieldGet data 31 1 = 1)
    (hb : e.flag RAS_LPM_ROT_BUSY = true) : doLpmRotStart p data d = e.inc RAS_CNT_LPM_ROT_IGNORED := by
  unfold doLpmRotStart
  simp only [he, hon, hb, Nat.one_ne_zero, if_false, if_true]

/-- A rotation of a bank into the spare one begins. -/
theorem doLpmRotStart_begins {e : Dev} {p : Path} {data : W32} (he : d.writeFields p RAS_LPM_ROT data = e) (hon : fieldGet data 31 1 = 1)
    (hb : e.flag RAS_LPM_ROT_BUSY = false) (hdead : e.ras.lpmDead = none) :
    doLpmRotStart p data d = (e.put RAS_LPM_ROT_BUSY 1).setRas fun x => { x with
      lpmRot := some ⟨fieldGet data 0 4, e.lpmPhys (fieldGet data 0 4), e.get RAS_LPM_ROT_SPARE, e.cycle, false⟩ } := by
  unfold doLpmRotStart
  simp only [he, hon, hb, hdead, Nat.one_ne_zero, Option.isSome_none, Bool.false_eq_true, if_false]

/-- The copy has ended: the bank maps to its new physical bank. -/
theorem doLpmBankSwitch_due {r : LpmRot} {e : Dev} (hr : d.ras.lpmRot = some r) (hs : r.switched = false) (hc : r.since + 16384 ≤ d.cycle)
    (he : e = d.purge fun x => match x with | .lpm i => i / 16384 == r.bank | _ => false) :
    doLpmBankSwitch d = (e.setRas fun x => { x with
      lpmMap := tabSet (fun _ => none) x.lpmMap r.bank (if r.new = r.bank then none else some r.new)
      lpmRot := some { r with switched := true, since := e.cycle } }).inc RAS_CNT_LPM_ROTATIONS := by
  subst he
  unfold doLpmBankSwitch
  simp only [hr, hs, Nat.not_lt.mpr hc, decide_false, Bool.or_self, Bool.false_eq_true, if_false] <;> rfl

/-- The old bank has passed its test: it is the spare. -/
theorem doLpmMarchDone_pass {r : LpmRot} (hr : d.ras.lpmRot = some r) (hs : r.switched = true) (hc : r.since + 6000000 ≤ d.cycle) :
    doLpmMarchDone true d =
      ((d.setRas fun x => { x with lpmRot := none }).put RAS_LPM_ROT_BUSY 0).put RAS_LPM_ROT_SPARE r.old := by
  have hms : 2 * cyMs = 6000000 := rfl
  unfold doLpmMarchDone
  simp only [hr, hs, hms, Nat.not_lt.mpr hc, Bool.not_true, decide_false, Bool.or_self, Bool.false_eq_true, if_false, if_true]

end

/-! ### Lanes (R466) -/

section
variable {d : Dev} {n : Fin 16}

/-- A lane test keeps the port's loopback, takes its links down and loops it back near its end. -/
theorem doLaneTestRun_begins {e t : Dev} {p : Path} {data : W32} (he : d.writeFields p (RAS_LANE_TEST n) data = e)
    (hon : fieldGet data 31 1 = 1) (hwas : e.flag (RAS_LANE_TEST_RUN n) = false)
    (ht : ((e.put (RAS_LANE_TEST_RUN n) 1).setRas fun r => { r with
      lane := tabSet (fun _ => none) r.lane n (some ((e.put (RAS_LANE_TEST_RUN n) 1).get (ETH_CTRL_LOOPBACK n), e.cycle)) }).put
        (RAS_LANE_TEST_LOCK n) 0 = t) :
    doLaneTestRun p n data [] d = ((t.subsOf n).foldl (fun d i => d.linkFalls n i) t).setLoopback n 1 := by
  unfold doLaneTestRun
  simp only [he, hon, hwas, Dev.put_cycle, ht, Bool.false_eq_true, if_false, and_self, if_true]

/-- A millisecond after RUN every lane has locked its checker. -/
theorem doLaneLockTimeout_locked {v c : Nat} (hl : tabGet (fun _ => none) d.ras.lane n = some (v, c)) (hc : c + 3000000 ≤ d.cycle) :
    doLaneLockTimeout n 0 [] d = (List.range 4).foldl (fun d i => d.put ⟨RAS_LANE_TEST n, 4 + i, 1⟩ 1) (d.laneErrors n []) := by
  have hms : cyMs = 3000000 := rfl
  have hlost (i : Nat) : (0 : BitVec 4).getLsbD i = false := BitVec.getLsbD_zero
  unfold doLaneLockTimeout
  simp only [hl, hms, Nat.not_lt.mpr hc, hlost, Bool.false_eq_true, if_false]

end

/-- The registers of the lane tests lie outside the windows of the ports. -/
theorem rasLaneTest_outside (n : Fin 16) : RAS_LANE_TEST n < 0x100000 ∨ 0x200000 ≤ RAS_LANE_TEST n := by
  simp only [RAS_LANE_TEST]
  omega

/-- Settles O50, by the equation of each row. -/
theorem rasRows : Obligations.RasRows := by
  refine ⟨fun s fam inst kind loc items halive hi hf => does_intro halive rfl (doErrorDetection_detects kind loc items hi hf),
    fun s dv p data e h he => ⟨fun harm => does_plain h (by decide) rfl (doRasInjWrite_disarms he harm),
      fun harm ht => does_plain h (by decide) rfl (doRasInjWrite_refused he harm ht),
      fun harm ht hf hwas => does_plain h (by decide) rfl (doRasInjWrite_arms he harm ht hf hwas)⟩,
    fun s k halive hen hdue hnone hret hidle => does_intro halive rfl (doPeRotation_begins hen hdue hnone hret rfl rfl hidle),
    fun s k e c f halive ht hc hinj => does_intro halive rfl (doPeSelfTestDone_pass ht hc hinj),
    fun s dv p data e h he => does_plain h (by decide) rfl (doGlzSkip_first he),
    fun s dv p data e h he => does_plain h (by decide) rfl (he ▸ rfl),
    fun s i c f halive ht hc hinj hskip => does_intro halive rfl (doEngineSelfTestDone_glaze ht hc hinj hskip),
    fun s dv p data e h he hon => ⟨fun hb => does_plain h (by decide) rfl (doLpmRotStart_busy he hon hb),
      fun hb hdead => does_plain h (by decide) rfl (doLpmRotStart_begins he hon hb hdead)⟩,
    fun s r halive hr hs hc => does_intro halive rfl (doLpmBankSwitch_due hr hs hc rfl),
    fun s r halive hr hs hc => does_intro halive rfl (doLpmMarchDone_pass hr hs hc),
    fun s dv p n data e h he hon hwas => does_plain h (rasLaneTest_outside n) rfl (doLaneTestRun_begins he hon hwas rfl),
    fun s n v c halive hl hc => does_intro halive rfl (doLaneLockTimeout_locked hl hc)⟩

end Sys2Proof.Machine
end

section
/-!
PROOFS. Spares and kilns (O51): the commands of the two units on a unit that accepts them, and an equation for each other row.
-/

namespace Sys2Proof.Machine

/-! ### Rows and pseudo-channels of the HBM (R467, R468) -/

section
variable {dv e : Dev} {p : Path} {data : W32}

/-- A command of the HBM unit is executed while no other runs. -/
theorem hbmCmd_ready {op : Nat} {f : Nat → Dev → Dev} (he : dv.writeFields p RAS_HBM_CMD data = e)
    (hb : e.flag RAS_HBM_STATUS_BUSY = false) (hop : fieldGet data 28 4 = op) :
    Dev.hbmCmd p op data f dv = f (fieldGet data 16 7) e := by
  simp only [Dev.hbmCmd, he, hb, hop, ne_eq, not_true_eq_false, Bool.false_eq_true, or_self, if_false]

/-- SPARE_ROW begins a copy, or fails where the bank has no spare row left. -/
theorem doSpareRow_ready {ok : Bool} {f : Dev} (he : dv.writeFields p RAS_HBM_CMD data = e) (hb : e.flag RAS_HBM_STATUS_BUSY = false)
    (hop : fieldGet data 28 4 = 1)
    (hf : e.spareRow (fieldGet data 16 7) (e.get RAS_HBM_ROW_BANK) (e.get RAS_HBM_ROW_ROW) true = (ok, f)) :
    doSpareRow p data dv = if ok = true then f.put RAS_HBM_STATUS_BUSY 1 else f.hbmEnd 0x52 := by
  rw [doSpareRow, hbmCmd_ready he hb hop]
  simp only [hf]

/-- The copy of a row that a command spares ends in its remap. -/
theorem doRowSpareComplete_command {d : Dev} {k : Nat} {rest : List (Nat × Bool)} (h : d.ras.sparing = (k, true) :: rest) :
    doRowSpareComplete d =
      ((d.setRas fun r => { r with sparing := rest, spared := r.spared ++ [k] }).inc RAS_CNT_HBM_ROWS_SPARED).hbmEnd 0 := by
  unfold doRowSpareComplete
  simp only [h, if_true]

end

/-! ### The spare unit (R471) -/

/-- The command of each operation of RAS_SPARE_CMD. -/
def spareRowOf (op : Nat) (p : Path) (data : W32) (row : Instr) : Prop :=
  op = 1 ∧ row = .kilnReplace p data ∨ op = 2 ∧ row = .kilnDeclareDead p data [] ∨ op = 3 ∧ row = .kilnTest p data ∨
    op = 4 ∧ row = .kilnRetire p data

section
variable {dv e : Dev} {p : Path} {data : W32} {op limit : Nat} {f : Nat → Dev → Dev} (he : dv.writeFields p RAS_SPARE_CMD data = e)
  (hop : fieldGet data 28 4 = op)
include he hop

/-- While a command runs, another one is ignored and counted. -/
theorem spareCmd_busy (hb : e.flag RAS_SPARE_STATUS_BUSY = true) :
    Dev.spareCmd p op limit data f dv = e.inc RAS_CNT_SPARE_CMD_IGNORED := by
  simp only [Dev.spareCmd, he, hop, hb, ne_eq, not_true_eq_false, if_false, if_true]

/-- Otherwise it is executed on the kiln that it names. -/
theorem spareCmd_ready (hb : e.flag RAS_SPARE_STATUS_BUSY = false) (hk : fieldGet data 0 6 < limit) :
    Dev.spareCmd p op limit data f dv = f (fieldGet data 0 6) e := by
  simp only [Dev.spareCmd, he, hop, hb, Nat.not_le.mpr hk, ne_eq, not_true_eq_false, Bool.false_eq_true, if_false]

end

/-- The register of the spare unit lies outside the windows of the ports. -/
theorem rasSpareCmd_outside : RAS_SPARE_CMD < 0x100000 ∨ 0x200000 ≤ RAS_SPARE_CMD := by decide

theorem does_spareCmd_busy {s : State} {dv e : Dev} {p : Path} {data : W32} {op : Nat} {row : Instr} (h : Reaches s.dev p dv)
    (he : dv.writeFields p RAS_SPARE_CMD data = e) (hrow : spareRowOf op p data row) (hop : fieldGet data 28 4 = op)
    (hb : e.flag RAS_SPARE_STATUS_BUSY = true) : Does row s fun d => d = e.inc RAS_CNT_SPARE_CMD_IGNORED := by
  rcases hrow with ⟨rfl, rfl⟩ | ⟨rfl, rfl⟩ | ⟨rfl, rfl⟩ | ⟨rfl, rfl⟩
  · exact does_plain h rasSpareCmd_outside rfl (spareCmd_busy he hop hb)
  · exact does_plain h rasSpareCmd_outside rfl (spareCmd_busy he hop hb)
  · exact does_plain h rasSpareCmd_outside rfl (spareCmd_busy he hop hb)
  · exact does_plain h rasSpareCmd_outside rfl (spareCmd_busy he hop hb)

section
variable {dv e : Dev} {p : Path} {data : W32} {k : Nat} (he : dv.writeFields p RAS_SPARE_CMD data = e)
  (hb : e.flag RAS_SPARE_STATUS_BUSY = false) (hk : fieldGet data 0 6 = k)
include he hb hk

/-- REPLACE stops the threads of a kiln that is in the map and not held, whose quadrant has a spare (R472). -/
theorem doKilnReplace_begins {x : Nat} (hop : fieldGet data 28 4 = 1) (hlt : k < 32) (hv : e.flag (RAS_KILN_MAP_VALID k) = true)
    (hheld : e.kilnHeld k = false) (hx : e.spareOf (k / 8) = some x) :
    doKilnReplace p data dv =
      (e.stopThreads fun t => !Dev.isMgmt t && Dev.kilnOf t == k).spareBegin (.replace k x false) := by
  rw [doKilnReplace, spareCmd_ready he hop hb (hk.trans_lt hlt), hk]
  simp only [hv, hheld, hx, Bool.true_eq_false, Bool.false_eq_true, or_self, if_false]

/-- DECLARE_DEAD of a kiln in the map, with no takeover under way (R473). -/
theorem doKilnDeclareDead_begins (hop : fieldGet data 28 4 = 2) (hlt : k < 32) (hv : e.flag (RAS_KILN_MAP_VALID k) = true)
    (ht : e.ras.takeovers = []) :
    doKilnDeclareDead p data [] dv = (e.spareBegin (.dead k)).declareDead k 0x04 [] false := by
  rw [doKilnDeclareDead, spareCmd_ready he hop hb (hk.trans_lt hlt), hk]
  simp only [hv, ht, List.any_nil, Bool.true_eq_false, Bool.false_eq_true, or_self, if_false]

/-- TEST takes a fenced kiln or a spare, and no other (R476). -/
theorem doKilnTest_ready (hop : fieldGet data 28 4 = 3) (hlt : k < 36) :
    doKilnTest p data dv = if e.role k = roleFenced ∨ e.role k = roleSpare then (e.setRole k roleTesting).spareBegin (.test k)
      else e.spareEnd spBadState := by
  rw [doKilnTest, spareCmd_ready he hop hb (hk.trans_lt hlt), hk]

/-- So does RETIRE (R476). -/
theorem doKilnRetire_ready (hop : fieldGet data 28 4 = 4) (hlt : k < 36) :
    doKilnRetire p data dv = if e.role k = roleFenced ∨ e.role k = roleSpare then (e.retireKiln k).spareEnd spOk
      else e.spareEnd spBadState := by
  rw [doKilnRetire, spareCmd_ready he hop hb (hk.trans_lt hlt), hk]

end

/-! ### What ends them (R472, R476) -/

section
variable {d : Dev}

/-- Nothing of the kiln is in flight: it bumps, and is replaced once the bump is done. -/
theorem doKilnReplaceComplete_quiet {k x : Nat} {e : Dev} (hop : d.ras.op = some (.replace k x false)) (hc : d.core.chans = [])
    (he : (d.setRas fun r => { r with op := some (.replace k x true) }).bumpOwner (.kiln k) = e) :
    doKilnReplaceComplete d = if e.bumpPending (.kiln k) = true then e else e.finishReplace k x := by
  unfold doKilnReplaceComplete
  simp only [hop, hc, he, List.any_nil, Bool.false_eq_true, if_false]

/-- A kiln that fails its test is retired. -/
theorem doKilnTestComplete_fails {p n : Nat} (hop : d.ras.op = some (.test p)) (hn : 0 < n) :
    doKilnTestComplete n d =
      ((((d.put (KLN_TEST_RESULT_PASS p) 0).put (KLN_TEST_RESULT_FAILS p) (Nat.min n (2 ^ 24 - 1))).setEvent
        (KLN_TEST_RESULT_VALID p)).retireKiln p).spareEnd spTestFail := by
  have hfail : (n == 0) = false := beq_false_of_ne (Nat.ne_of_gt hn)
  have hpass : b2n false = 0 := rfl
  unfold doKilnTestComplete
  simp only [hop, hfail, hpass, Bool.false_eq_true, if_false]

end

/-- Settles O51, by the equation of each row. That DECLARE_DEAD is recorded under family 0x04, and that the state of a fenced kiln names
the logical kiln that it was, is the model's choice (notes/assumptions/36). -/
theorem sparesAndKilns : Obligations.SparesAndKilns := by
  refine ⟨fun s dv p data e f h he hb => ⟨fun ok hop hf => does_plain h (by decide) rfl (doSpareRow_ready he hb hop hf),
      fun hop => does_plain h (by decide) rfl (hbmCmd_ready he hb hop)⟩,
    fun s k rest halive hs => does_intro halive rfl (doRowSpareComplete_command hs),
    fun s dv p data e h he => ⟨fun op row hrow hop hb => does_spareCmd_busy h he hrow hop hb,
      fun x hop hb hlt hv hheld hx => does_plain h rasSpareCmd_outside rfl (doKilnReplace_begins he hb rfl hop hlt hv hheld hx),
      fun hop hb hlt hv ht => does_plain h rasSpareCmd_outside rfl (doKilnDeclareDead_begins he hb rfl hop hlt hv ht),
      fun hop hb hlt => ⟨fun hr => does_plain h rasSpareCmd_outside rfl ((doKilnTest_ready he hb rfl hop hlt).trans (if_pos hr)),
        fun hf hs => does_plain h rasSpareCmd_outside rfl
          ((doKilnTest_ready he hb rfl hop hlt).trans (if_neg (not_or.mpr ⟨hf, hs⟩)))⟩,
      fun hop hb hlt hr => does_plain h rasSpareCmd_outside rfl ((doKilnRetire_ready he hb rfl hop hlt).trans (if_pos hr))⟩,
    fun s k x e halive hop hc he => does_intro halive rfl (doKilnReplaceComplete_quiet hop hc he),
    fun s k lost halive => does_intro halive rfl rfl,
    fun s p halive hr => does_intro halive rfl (if_pos (.inl hr)),
    fun s p n halive hop hn => does_intro halive rfl (doKilnTestComplete_fails hop hn)⟩

end Sys2Proof.Machine
end

section
/-!
PROOFS. The part right after package cold reset (O60): its tables are empty, so each entry reads as the default of its table.
-/

namespace Sys2Proof.Machine

/-- In no state is a key context valid whose stored entry is not. -/
theorem kctx_valid (d : Dev) (i : Nat) : (d.kctx i).valid = (tabGet (fun _ => KeyCtx.reset) d.glz.kc i).valid := by
  unfold Dev.kctx
  dsimp only
  split
  · rfl
  · rfl

/-- Settles O60: every table of the reset device is empty. That the HBM then reads zero (notes/assumptions/3), that the fuses are blank, and
with them their views and the repair maps (notes/assumptions/24), and that the tables and the data registers with no stated reset value
are zero (notes/assumptions/44), is the model's choice. -/
theorem afterReset : Obligations.AfterReset := by
  have hbit : bitOf 0 63 = false := by decide
  have hkc : KeyCtx.reset.valid = false := by decide
  refine ⟨rfl, by decide, fun _ => rfl, fun _ => rfl, fun _ => rfl, rfl, fun _ => rfl, fun _ => ⟨hbit, hbit⟩, fun _ _ => hbit, fun _ => hbit,
    fun i => ?_, fun _ => rfl, fun _ => ⟨rfl, rfl⟩, fun _ => ⟨rfl, rfl⟩, fun _ => rfl, fun _ _ => rfl⟩
  exact (kctx_valid _ i).trans hkc

end Sys2Proof.Machine
end
